-- ==== Sys2Proof/Word.lean ====
section
/-! DEFINITION. The 64-bit word, the 48-bit instruction word and the register numbers of the machine (R1, R2, R17, R45). -/

namespace Sys2Proof

/-- A 64-bit value: a scalar register, an address operand, a control word (R17). -/
abbrev Word := BitVec 64
/-- A 48-bit instruction word (R45). -/
abbrev IWord := BitVec 48
/-- A byte of memory (R2). -/
abbrev Byte := BitVec 8
/-- A scalar register number, 0 to 63 (R17, R48). -/
abbrev XReg := BitVec 6
/-- A vector register number, 0 to 15 (R17, R48). -/
abbrev VReg := BitVec 4
/-- A vector mask number, 0 to 7 (R154). -/
abbrev MReg := BitVec 3
/-- A predicate number, 0 to 7 (R108). -/
abbrev PReg := BitVec 3
/-- One element of a vector register (R153). -/
abbrev Elem := BitVec 32

end Sys2Proof
end

