-- ==== Sys2Proof/Syntax.lean ====
section
/-! DEFINITION. The abstract syntax of the instruction set: operand codes, the decoded control-word names, and `Instr`,
one constructor for each row of the opcode table (R47 to R56). A row without words is a device event: it is met as a move of
the machine's state, never decoded (DESIGN CHOICE log 1). -/

namespace Sys2Proof

/-- The four streams of a core (R14). -/
inductive StreamId where
  | A | X | M | C
  deriving DecidableEq, Repr, Inhabited

/-- A stream's allotment code (R80): 16, 32 or 64 scalar registers. -/
inductive Allot where
  | a16 | a32 | a64
  deriving DecidableEq, Repr, Inhabited

/-- A scope code (R253). -/
inductive Scope where
  | stream | core | cluster | die | package | domain | system | tier
  deriving DecidableEq, Repr, Inhabited

/-- The size code of a scalar access (R51). -/
inductive MemSize where
  | b1 | b2 | b4 | b8
  deriving DecidableEq, Repr, Inhabited

/-- The class code of LD (R51). -/
inductive LdClass where
  | plain | weak | strong | acquire
  deriving DecidableEq, Repr, Inhabited

/-- The class code of ST (R51). -/
inductive StClass where
  | plain | weak | strong | release
  deriving DecidableEq, Repr, Inhabited

/-- The operation of ATOM (R52); codes 0xC to 0xF are reserved. -/
inductive AtomOp where
  | add | and | or | xor | min | max | minu | maxu | swap | cas | faddF32 | faddBf16x2
  deriving DecidableEq, Repr, Inhabited

/-- The order code of ATOM (R52). -/
inductive Order where
  | relaxed | acquire | release | acqRel
  deriving DecidableEq, Repr, Inhabited

/-- The condition code of CMP and CMPI (R115). -/
inductive CmpCond where
  | eq | ne | lt | ge | ltu | geu | gt | gtu
  deriving DecidableEq, Repr, Inhabited

/-- The kind of FENCE (R259). -/
inductive FenceKind where
  | full | acquire | release | acqRel
  deriving DecidableEq, Repr, Inhabited

/-- The target of FSET, FWAIT and FCLR (R131). -/
inductive FlagTarget where
  | self | copy | matrix | collective
  deriving DecidableEq, Repr, Inhabited

/-- The mode of a cluster-store bank (R135, R136); code 3 is reserved. -/
inductive BankMode where
  | cache | tile | fifo
  deriving DecidableEq, Repr, Inhabited

/-- The state TSET names (R139); codes 4 to 63 are reserved. -/
inductive TsetState where
  | empty | filling | ready | draining
  deriving DecidableEq, Repr, Inhabited

/-- A lane width code of a vector instruction or modifier (R50, R161). -/
inductive LaneW where
  | w32 | w16 | w8 | w4
  deriving DecidableEq, Repr, Inhabited

/-- The float type of MAJ 0x11 (R159); code 3 is reserved. -/
inductive FType where
  | f32 | bf16 | fp16
  deriving DecidableEq, Repr, Inhabited

/-- The rm field of Form V (R49); codes 6 and 7 are reserved. -/
inductive RmField where
  | fpm | rne | rtz | rup | rdn | rna
  deriving DecidableEq, Repr, Inhabited

/-- The mode code of VIADD, VISUB and VIMUL (R161); codes 3 to 15 are reserved. -/
inductive SatMode where
  | wrap | ss | us
  deriving DecidableEq, Repr, Inhabited

/-- The type of VCMP (R164); code 3 is reserved. -/
inductive VCmpType where
  | f32 | i32 | u32
  deriving DecidableEq, Repr, Inhabited

/-- The condition of VCMP (R164); codes 8 to 15 are reserved. -/
inductive VCmpCond where
  | eq | ne | lt | le | gt | ge | un | ord
  deriving DecidableEq, Repr, Inhabited

/-- A type code of VCVT and ZRD (R171). -/
inductive CvtType where
  | f32 | bf16 | fp16 | int32 | uint32 | int16 | int8 | uint8 | b8p2 | b8p3 | b8p4 | b8p5 | b6p2 | b6p3 | b4p1 | b4p2
  deriving DecidableEq, Repr, Inhabited

/-- The operation of a reduction or scan (R181); codes 0xB to 0xF are reserved. -/
inductive RedOp where
  | fadd | fmin | fmax | iadd | imin | imax | umin | umax | and | or | xor
  deriving DecidableEq, Repr, Inhabited

/-- The width class of a quantised block (R201, R207); code 3 is reserved. -/
inductive BlkClass where
  | c8 | c6 | c4
  deriving DecidableEq, Repr, Inhabited

/-- The format of ARD and AWR (R235). -/
inductive AccFmt where
  | f32 | bf16 | f64 | raw
  deriving DecidableEq, Repr, Inhabited

/-- The kind of COLL (R279); codes 4 to 7 are reserved. -/
inductive CollKind where
  | ar | rs | ag | bc
  deriving DecidableEq, Repr, Inhabited

/-- The operation of COLL (R279); code 3 is reserved. -/
inductive CollOp where
  | sum | max | min
  deriving DecidableEq, Repr, Inhabited

/-- The element type of COLL (R279); codes 4 to 7 are reserved. -/
inductive CollType where
  | f32 | bf16 | i32 | u32
  deriving DecidableEq, Repr, Inhabited

/-- A guard: the predicate and the sense that inverts it (R47, R48). -/
structure Guard where
  p : PReg
  inv : Bool
  deriving DecidableEq, Repr, Inhabited

/-- A vector operand modifier: the width of its view and the selector of the source sub-element (R50). -/
structure Modifier where
  w : LaneW
  sel : BitVec 4
  deriving DecidableEq, Repr, Inhabited

/-- The control words that CWRD and CWWR name (R96). -/
inductive CtlWord where
  | stat | fpm | qsel | lvlbase | efarena | trapvec | prc | allot | scopemode
  | tierinfo (n : BitVec 3)
  | tcause | tepc | tval | tprc
  | buf (i : BitVec 4)
  deriving DecidableEq, Repr, Inhabited

/-- How the shadow handler ends its service of a held fault or call (R99): it resumes, delivers, or answers SYSC with the values
of x3 up. -/
inductive ShadowEnd where
  | resume | deliver | results (vs : List Word)
  deriving DecidableEq, Repr, Inhabited

/-- How a collective ends (R280 to R282): with a result, given the order in which the partial results of clusters and packages
combined and the bytes of the members of other packages; by the remote timeout of a peer; or by a peer's command that differs. -/
inductive CollEnd where
  | result (order : List Nat) (peers : List (List Byte)) | timeout | mismatch
  deriving DecidableEq, Repr, Inhabited

/-- How a remote request fails (R334). -/
inductive RemoteEnd where
  | expired | error | keyRefused
  deriving DecidableEq, Repr, Inhabited

/-- The answer to a remote request (R333): its value, and the number of this package's releases that stand at the location, oldest first,
whose writes come no later than that value in the location's order (R261; DESIGN CHOICE log 71). -/
structure Answer where
  value : Nat
  own : Nat
  deriving DecidableEq, Repr, Inhabited

/-- What another package asks of this one (R333, R337), or the completion of such a request. -/
inductive InOp where
  | load (n : Nat) | store (data : List Byte) | atom (op : AtomOp) (big : Bool) (o cmp : Nat) | complete (tag : Nat)
  deriving DecidableEq, Repr, Inhabited

/-- A function that Ramner brings up, and what Ramner sets up without an instruction (R121, R132, R284, R285, R296, R311, R316, R347,
R348; DEDUCED log 14). -/
inductive BringUp where
  | hbm (n : Nat)
  | cluster (n : Nat)
  | bindContext (ctx part root spillBase spillSize : Nat)
  | createQueue (part id ctx index : Nat) (fast deviceFed : Bool) (ring : Nat) (bound : List Nat)
  | slotTable (part base : Nat)
  | makeResident (part slot : Nat) (entry : List Byte)
  | freeSlot (part slot : Nat)
  | loadPolicy (ctx : Nat) (enq pick slice : List (BitVec 32))
  | drain (ctx : Nat) (on : Bool)
  | measure (hash : BitVec 256)
  deriving DecidableEq, Repr, Inhabited

/-- One constructor for each row of the opcode table: the 222 rows that have words, with their decoded operands, and the 55
device events, with what the outside or the waiting agent supplies. -/
inductive Instr where
  -- MAJ 0x01
  /-- ADD (R111). -/
  | add (g : Guard) (d a b : XReg)
  /-- SUB (R111). -/
  | sub (g : Guard) (d a b : XReg)
  /-- AND (R111). -/
  | andR (g : Guard) (d a b : XReg)
  /-- OR (R111). -/
  | orR (g : Guard) (d a b : XReg)
  /-- XOR (R111). -/
  | xorR (g : Guard) (d a b : XReg)
  /-- LOGT (R111). -/
  | logt (g : Guard) (d a b c : XReg) (tt : BitVec 8)
  /-- SHL (R111). -/
  | shl (g : Guard) (d a b : XReg)
  /-- SHR (R111). -/
  | shr (g : Guard) (d a b : XReg)
  /-- SRA (R111). -/
  | sra (g : Guard) (d a b : XReg)
  /-- ROL (R111). -/
  | rol (g : Guard) (d a b : XReg)
  /-- MIN (R111). -/
  | minS (g : Guard) (d a b : XReg)
  /-- MAX (R111). -/
  | maxS (g : Guard) (d a b : XReg)
  /-- MINU (R111). -/
  | minu (g : Guard) (d a b : XReg)
  /-- MAXU (R111). -/
  | maxu (g : Guard) (d a b : XReg)
  /-- SEL (R111). -/
  | sel (g : Guard) (d a b : XReg) (n : BitVec 3)
  /-- ABS (R111). -/
  | abs (g : Guard) (d a : XReg)
  -- MAJ 0x02
  /-- ADDI (R112). -/
  | addi (g : Guard) (d a : XReg) (imm : BitVec 20)
  /-- ANDI (R112). -/
  | andi (g : Guard) (d a : XReg) (imm : BitVec 20)
  /-- ORI (R112). -/
  | ori (g : Guard) (d a : XReg) (imm : BitVec 20)
  /-- XORI (R112). -/
  | xori (g : Guard) (d a : XReg) (imm : BitVec 20)
  /-- SHLI (R112). -/
  | shli (g : Guard) (d a : XReg) (n : BitVec 6)
  /-- SHRI (R112). -/
  | shri (g : Guard) (d a : XReg) (n : BitVec 6)
  /-- SRAI (R112). -/
  | srai (g : Guard) (d a : XReg) (n : BitVec 6)
  /-- LI (R112). -/
  | li (g : Guard) (d : XReg) (imm : BitVec 20)
  -- MAJ 0x03
  /-- MUL (R113). -/
  | mul (g : Guard) (d a b : XReg)
  /-- MULH (R113). -/
  | mulh (g : Guard) (d a b : XReg)
  /-- MULHU (R113). -/
  | mulhu (g : Guard) (d a b : XReg)
  /-- MADD (R113). -/
  | madd (g : Guard) (d a b c : XReg)
  /-- DIV (R113). -/
  | div (g : Guard) (d a b : XReg)
  /-- DIVU (R113). -/
  | divu (g : Guard) (d a b : XReg)
  /-- REM (R113). -/
  | rem (g : Guard) (d a b : XReg)
  /-- REMU (R113). -/
  | remu (g : Guard) (d a b : XReg)
  -- MAJ 0x04
  /-- CLZ (R114). -/
  | clz (g : Guard) (d a : XReg)
  /-- CTZ (R114). -/
  | ctz (g : Guard) (d a : XReg)
  /-- POPC (R114). -/
  | popc (g : Guard) (d a : XReg)
  /-- BREV (R114). -/
  | brev (g : Guard) (d a : XReg)
  /-- BFX (R114). -/
  | bfx (g : Guard) (d a : XReg) (pos : BitVec 6) (len : BitVec 6)
  /-- BFXU (R114). -/
  | bfxu (g : Guard) (d a : XReg) (pos : BitVec 6) (len : BitVec 6)
  /-- BFI (R114). -/
  | bfi (g : Guard) (d a b : XReg) (pos : BitVec 6) (len : BitVec 6)
  /-- SEXT (R114). -/
  | sext (g : Guard) (d a : XReg) (k : BitVec 6)
  -- MAJ 0x05
  /-- CMP (R116). -/
  | cmp (g : Guard) (pd : PReg) (a b : XReg) (cc : CmpCond)
  /-- PLOG (R117). -/
  | plog (g : Guard) (pd : PReg) (pa : PReg) (pb : PReg) (tt : BitVec 4)
  /-- PMOV_GET (R118). -/
  | pmovGet (g : Guard) (d : XReg)
  /-- PMOV_PUT (R118). -/
  | pmovPut (g : Guard) (a : XReg)
  /-- CMPI (R116). -/
  | cmpi (g : Guard) (cc : CmpCond) (pd : PReg) (a : XReg) (imm : BitVec 20)
  -- MAJ 0x06
  /-- LEA (R119). -/
  | lea (g : Guard) (d a b : XReg) (sh : BitVec 2)
  /-- LEAI (R119). -/
  | leai (g : Guard) (d a : XReg) (imm : BitVec 20)
  -- MAJ 0x07
  /-- LIL (R120). -/
  | lil (g : Guard) (d : XReg) (imm : BitVec 64)
  /-- JMPL (R88). -/
  | jmpl (g : Guard) (imm : BitVec 64)
  -- MAJ 0x08
  /-- BR (R86). -/
  | br (g : Guard) (disp : BitVec 32)
  /-- CALL (R86). -/
  | call (g : Guard) (disp : BitVec 32)
  /-- CALLC (R86). -/
  | callc (g : Guard) (disp : BitVec 32)
  -- MAJ 0x09
  /-- JMPR (R87). -/
  | jmpr (g : Guard) (a : XReg)
  /-- CALLR (R87). -/
  | callr (g : Guard) (a : XReg)
  /-- CALLCR (R87). -/
  | callcr (g : Guard) (a : XReg)
  /-- RET (R87). -/
  | ret (g : Guard) (a : XReg)
  /-- RETC (R87). -/
  | retc (g : Guard) (a : XReg)
  -- MAJ 0x0A
  /-- FORK (R81). -/
  | fork (g : Guard) (ax : Allot) (am : Allot) (ac : Allot)
  /-- RDV (R82). -/
  | rdv (g : Guard)
  /-- RPT (R53, R90). -/
  | rpt (g : Guard) (a : XReg) (sd : BitVec 2) (sa : BitVec 2) (sb : BitVec 2) (sc : BitVec 2)
  /-- HALT (R83). -/
  | halt (g : Guard)
  /-- YIELD (R84). -/
  | yield (g : Guard)
  -- MAJ 0x0B
  /-- DQPUT (R93). -/
  | dqput (g : Guard) (a : XReg) (q : BitVec 3)
  /-- DQGET (R93). -/
  | dqget (g : Guard) (d : XReg) (q : BitVec 3)
  /-- DQCLS (R93). -/
  | dqcls (g : Guard) (q : BitVec 3)
  /-- BQPUT (R95). -/
  | bqput (g : Guard) (n : BitVec 3) (inv : Bool)
  /-- BQBR (R95). -/
  | bqbr (g : Guard) (disp : BitVec 32)
  -- MAJ 0x0C
  /-- LD (R51, R255, R256). -/
  | ld (g : Guard) (sx tile : Bool) (cls : LdClass) (sz : MemSize) (sc : Scope) (d a : XReg) (off : BitVec 17)
  -- MAJ 0x0D
  /-- ST (R51, R255, R256). -/
  | st (g : Guard) (tile : Bool) (cls : StClass) (sz : MemSize) (sc : Scope) (d a : XReg) (off : BitVec 17)
  -- MAJ 0x0E
  /-- ATOM (R52, R258). -/
  | atom (g : Guard) (op : AtomOp) (big : Bool) (ord : Order) (sc : Scope) (tier : BitVec 3) (d a b : XReg)
  -- MAJ 0x0F
  /-- FENCE (R259). -/
  | fence (g : Guard) (kind : FenceKind) (sc : Scope) (tier : BitVec 3)
  /-- XFENCE (R260). -/
  | xfence (g : Guard) (pfrom : BitVec 5) (pto : BitVec 5)
  -- MAJ 0x10
  /-- TRAP (R105). -/
  | trap (g : Guard) (n : BitVec 8)
  /-- TRET (R104). -/
  | tret (g : Guard)
  /-- TRET_SKIP (R104). -/
  | tretSkip (g : Guard)
  /-- SYSC (R105). -/
  | sysc (g : Guard) (n : BitVec 8)
  /-- CWRD (R96, R98). -/
  | cwrd (g : Guard) (d : XReg) (w : CtlWord)
  /-- CWWR (R96, R98). -/
  | cwwr (g : Guard) (w : CtlWord) (a : XReg)
  /-- NOP (R105). -/
  | nop (g : Guard)
  -- MAJ 0x11
  /-- VADD (R159). -/
  | vadd (ty : FType) (vd : VReg) (va : VReg) (vb : VReg) (amod : Modifier) (bmod : Modifier) (m : MReg) (rm : RmField)
  /-- VSUB (R159). -/
  | vsub (ty : FType) (vd : VReg) (va : VReg) (vb : VReg) (amod : Modifier) (bmod : Modifier) (m : MReg) (rm : RmField)
  /-- VMUL (R159). -/
  | vmul (ty : FType) (vd : VReg) (va : VReg) (vb : VReg) (amod : Modifier) (bmod : Modifier) (m : MReg) (rm : RmField)
  /-- VFMA (R159). -/
  | vfma (ty : FType) (vd : VReg) (va : VReg) (vb : VReg) (vc : VReg) (amod : Modifier) (bmod : Modifier) (m : MReg) (rm : RmField)
  /-- VFMS (R159). -/
  | vfms (ty : FType) (vd : VReg) (va : VReg) (vb : VReg) (vc : VReg) (amod : Modifier) (bmod : Modifier) (m : MReg) (rm : RmField)
  /-- VMIN (R160). -/
  | vmin (ty : FType) (vd : VReg) (va : VReg) (vb : VReg) (amod : Modifier) (bmod : Modifier) (m : MReg)
  /-- VMAX (R160). -/
  | vmax (ty : FType) (vd : VReg) (va : VReg) (vb : VReg) (amod : Modifier) (bmod : Modifier) (m : MReg)
  /-- VABS (R160). -/
  | vabs (ty : FType) (vd : VReg) (va : VReg) (amod : Modifier) (m : MReg)
  /-- VNEG (R160). -/
  | vneg (ty : FType) (vd : VReg) (va : VReg) (amod : Modifier) (m : MReg)
  -- MAJ 0x12
  /-- VIADD (R161, R162). -/
  | viadd (w : LaneW) (mode : SatMode) (vd : VReg) (va : VReg) (vb : VReg) (amod : Modifier) (bmod : Modifier) (m : MReg)
  /-- VISUB (R161, R162). -/
  | visub (w : LaneW) (mode : SatMode) (vd : VReg) (va : VReg) (vb : VReg) (amod : Modifier) (bmod : Modifier) (m : MReg)
  /-- VIMUL (R161, R162). -/
  | vimul (w : LaneW) (mode : SatMode) (vd : VReg) (va : VReg) (vb : VReg) (amod : Modifier) (bmod : Modifier) (m : MReg)
  /-- VIMAD (R161). -/
  | vimad (w : LaneW) (vd : VReg) (va : VReg) (vb : VReg) (vc : VReg) (amod : Modifier) (bmod : Modifier) (m : MReg)
  /-- VSHL (R162). -/
  | vshl (w : LaneW) (vd : VReg) (va : VReg) (vb : VReg) (amod : Modifier) (bmod : Modifier) (m : MReg)
  /-- VSHR (R162). -/
  | vshr (w : LaneW) (vd : VReg) (va : VReg) (vb : VReg) (amod : Modifier) (bmod : Modifier) (m : MReg)
  /-- VSRA (R162). -/
  | vsra (w : LaneW) (vd : VReg) (va : VReg) (vb : VReg) (amod : Modifier) (bmod : Modifier) (m : MReg)
  /-- VLOGT (R163; DEDUCED log 58). -/
  | vlogt (vd va vb vc : VReg) (tt : BitVec 8) (m : MReg)
  /-- VIMIN (R161). -/
  | vimin (w : LaneW) (uns : Bool) (vd : VReg) (va : VReg) (vb : VReg) (amod : Modifier) (bmod : Modifier) (m : MReg)
  /-- VIMAX (R161). -/
  | vimax (w : LaneW) (uns : Bool) (vd : VReg) (va : VReg) (vb : VReg) (amod : Modifier) (bmod : Modifier) (m : MReg)
  -- MAJ 0x13
  /-- VCMP (R164). -/
  | vcmp (ty : VCmpType) (cc : VCmpCond) (md : MReg) (va : VReg) (vb : VReg) (m : MReg)
  /-- VSEL (R165). -/
  | vsel (vd : VReg) (va : VReg) (vb : VReg) (m : MReg)
  /-- VMSK (R166). -/
  | vmsk (md : MReg) (ma : MReg) (mb : MReg) (tt : BitVec 4) (m : MReg)
  -- MAJ 0x14
  /-- VRCP (R167, R75, R76, R77). -/
  | vrcp (vd : VReg) (va : VReg) (m : MReg)
  /-- VRSQ (R167, R75, R76, R77). -/
  | vrsq (vd : VReg) (va : VReg) (m : MReg)
  /-- VRCPR (R167, R168). -/
  | vrcpr (vd : VReg) (va : VReg) (vb : VReg) (m : MReg) (rm : RmField)
  /-- VRSQR (R167, R168). -/
  | vrsqr (vd : VReg) (va : VReg) (vb : VReg) (m : MReg) (rm : RmField)
  /-- VEXP2 (R167, R169, R170). -/
  | vexp2 (vd : VReg) (va : VReg) (m : MReg)
  /-- VLOG2 (R167, R169, R170). -/
  | vlog2 (vd : VReg) (va : VReg) (m : MReg)
  /-- VTANH (R167, R169, R170). -/
  | vtanh (vd : VReg) (va : VReg) (m : MReg)
  -- MAJ 0x15
  /-- VCVT (R171, R172). -/
  | vcvt (src : CvtType) (dst : CvtType) (inf : Bool) (vd : VReg) (va : VReg) (amod : Modifier) (m : MReg) (rm : RmField)
  /-- VPACK (R173). -/
  | vpack (w : LaneW) (vd : VReg) (va : VReg) (vb : VReg) (m : MReg)
  /-- VUNPK (R174). -/
  | vunpk (w : LaneW) (sx : Bool) (vd : VReg) (va : VReg) (part : BitVec 3) (m : MReg)
  -- MAJ 0x16
  /-- VROTR (R180). -/
  | vrotr (vd : VReg) (va : VReg) (k : BitVec 6) (m : MReg)
  /-- VBCR (R180). -/
  | vbcr (vd : VReg) (va : VReg) (k : BitVec 6) (m : MReg)
  /-- VREDR (R180, R181, R182). -/
  | vredr (op : RedOp) (vd : VReg) (va : VReg) (m : MReg) (rm : RmField)
  /-- VSCNR (R180, R181, R182). -/
  | vscnr (op : RedOp) (vd : VReg) (va : VReg) (m : MReg) (rm : RmField)
  -- MAJ 0x17
  /-- VROTC (R180). -/
  | vrotc (vd : VReg) (va : VReg) (k : BitVec 4) (m : MReg)
  /-- VBCC (R180). -/
  | vbcc (vd : VReg) (va : VReg) (k : BitVec 4) (m : MReg)
  /-- VREDC (R180, R181, R182). -/
  | vredc (op : RedOp) (vd : VReg) (va : VReg) (m : MReg) (rm : RmField)
  /-- VSCNC (R180, R181, R182). -/
  | vscnc (op : RedOp) (vd : VReg) (va : VReg) (m : MReg) (rm : RmField)
  -- MAJ 0x18
  /-- VPERM (R183). -/
  | vperm (vd : VReg) (va : VReg) (vb : VReg) (m : MReg)
  /-- VMOV (R183). -/
  | vmov (vd : VReg) (va : VReg) (amod : Modifier) (m : MReg)
  /-- VMOVS (R183). -/
  | vmovs (vd : VReg) (n : BitVec 6) (m : MReg)
  /-- VMOVX (R183). -/
  | vmovx (n : BitVec 6) (va : VReg) (sx : Bool) (m : MReg)
  -- MAJ 0x19
  /-- ZWR (R184). -/
  | zwr (z : BitVec 2) (va : VReg) (q : BitVec 2) (m : MReg)
  /-- ZRD (R184, R185). -/
  | zrd (src : CvtType) (dst : CvtType) (inf : Bool) (vd : VReg) (z : BitVec 2) (q : BitVec 2) (m : MReg) (rm : RmField)
  /-- ZCLR (R184). -/
  | zclr (z : BitVec 2)
  -- MAJ 0x1A
  /-- DEFER (R187). -/
  | defer (va : VReg) (b : BitVec 6) (m : MReg)
  /-- DRAIN (R187). -/
  | drain (vd : VReg) (b : BitVec 6) (m : MReg)
  /-- DFCNT (R187). -/
  | dfcnt (n : BitVec 6) (b : BitVec 6)
  -- MAJ 0x1B
  /-- VLD (R188). -/
  | vld (g : Guard) (vd : VReg) (a b : XReg) (m : MReg) (weak : Bool)
  /-- VST (R188). -/
  | vst (g : Guard) (vd : VReg) (a b : XReg) (m : MReg) (weak : Bool)
  /-- VGATH (R188). -/
  | vgath (g : Guard) (vd : VReg) (a : XReg) (vb : VReg) (m : MReg) (weak : Bool)
  /-- VSCAT (R188). -/
  | vscat (g : Guard) (vd : VReg) (a : XReg) (vb : VReg) (m : MReg) (weak : Bool)
  -- MAJ 0x1C
  /-- QST (R207). -/
  | qst (g : Guard) (k : BlkClass) (vd : VReg) (a : XReg) (m : MReg)
  /-- QLD (R210). -/
  | qld (g : Guard) (k : BlkClass) (vd : VReg) (a : XReg) (m : MReg)
  /-- LVLD (R201). -/
  | lvld (g : Guard) (k : BlkClass) (tb : Bool) (a : XReg)
  /-- QCFG (R212). -/
  | qcfg (g : Guard) (d a : XReg)
  -- MAJ 0x20
  /-- CPY (R144, R145, R146). -/
  | cpy (a b : XReg) (sz : BitVec 4) (step : BitVec 12) (cnt : BitVec 8)
  /-- CPYS (R144, R145, R146). -/
  | cpys (a b : XReg) (sz : BitVec 4) (step : BitVec 12) (cnt : BitVec 8)
  /-- CPYG (R144, R145, R146). -/
  | cpyg (a b : XReg) (sz : BitVec 4) (step : BitVec 12) (cnt : BitVec 8)
  /-- CPYX (R144, R145, R146). -/
  | cpyx (a b : XReg) (sz : BitVec 4) (step : BitVec 12) (cnt : BitVec 8)
  -- MAJ 0x21
  /-- TDEF (R139). -/
  | tdef (g : Guard) (d : XReg) (t : BitVec 8) (a : XReg)
  /-- TSET (R139, R140). -/
  | tset (g : Guard) (d : XReg) (t : BitVec 8) (ts : TsetState)
  /-- TREL (R139, R140). -/
  | trel (g : Guard) (t : BitVec 8)
  /-- BANKCFG (R136). -/
  | bankcfg (g : Guard) (d b : XReg) (mode : BankMode)
  -- MAJ 0x22
  /-- FSET (R131). -/
  | fset (g : Guard) (n : BitVec 6) (tg : FlagTarget)
  /-- FWAIT (R131). -/
  | fwait (g : Guard) (n : BitVec 6) (tg : FlagTarget)
  /-- FCLR (R131). -/
  | fclr (g : Guard) (n : BitVec 6) (tg : FlagTarget)
  -- MAJ 0x23
  /-- LNT (R221). -/
  | lnt (g : Guard) (a b : XReg) (lv : BitVec 3)
  /-- MOPA (R219). -/
  | mopa (g : Guard) (a b : XReg)
  /-- MOPB (R219). -/
  | mopb (g : Guard) (a b : XReg)
  /-- MOPC (R220). -/
  | mopc (g : Guard) (a : XReg)
  /-- IDXV (R220). -/
  | idxv (g : Guard) (a : XReg)
  /-- MGO (R222). -/
  | mgo (g : Guard) (nlev : BitVec 3)
  /-- MWAIT (R223). -/
  | mwait (g : Guard) (n : BitVec 4)
  /-- MSTAT (R223). -/
  | mstat (g : Guard) (d : XReg)
  /-- MSTAT_CLR (R223). -/
  | mstatClr (g : Guard) (d : XReg)
  -- MAJ 0x24
  /-- ABAL (R217). -/
  | abal (g : Guard) (d : XReg) (n : BitVec 6)
  /-- ABFR (R217). -/
  | abfr (g : Guard) (a : XReg) (n : BitVec 6)
  /-- AINIT (R233). -/
  | ainit (g : Guard) (a b : XReg) (n : BitVec 6) (pr : Bool)
  /-- ANRM (R233). -/
  | anrm (g : Guard) (a : XReg) (n : BitVec 6) (pr : Bool)
  /-- ARD (R235). -/
  | ard (g : Guard) (fmt : AccFmt) (vd : VReg) (a : XReg) (m : MReg)
  /-- AWR (R235). -/
  | awr (g : Guard) (fmt : AccFmt) (vd : VReg) (a : XReg) (m : MReg)
  -- MAJ 0x25
  /-- EFCAP (R248, R249). -/
  | efcap (g : Guard) (d a : XReg)
  /-- ECAT (R248, R249). -/
  | ecat (g : Guard) (d a b : XReg)
  /-- EFLT (R248, R249). -/
  | eflt (g : Guard) (d a b c : XReg) (out : Bool)
  /-- EREB (R248, R249). -/
  | ereb (g : Guard) (d a b c : XReg)
  /-- EAPL (R248, R250). -/
  | eapl (g : Guard) (a : XReg)
  /-- EAPL_REL (R248, R250). -/
  | eaplRel (g : Guard) (a : XReg) (sc : Scope) (tier : BitVec 3)
  /-- EDRP (R248, R249). -/
  | edrp (g : Guard) (a : XReg)
  /-- ECNT (R248, R249). -/
  | ecnt (g : Guard) (d a : XReg)
  /-- ECNT_ARENA (R248, R249). -/
  | ecntArena (g : Guard) (d : XReg)
  -- MAJ 0x26
  /-- SSYNC (R271). -/
  | ssync (g : Guard) (d : XReg)
  /-- BARA (R268). -/
  | bara (g : Guard) (d : XReg) (n : BitVec 3) (sm : BitVec 4) (i : BitVec 4)
  /-- BARW (R268). -/
  | barw (g : Guard) (a : XReg) (n : BitVec 3) (i : BitVec 4)
  /-- BARAW (R268). -/
  | baraw (g : Guard) (n : BitVec 3) (sm : BitVec 4) (i : BitVec 4)
  /-- XPLAN (R273). -/
  | xplan (g : Guard) (a : XReg)
  -- MAJ 0x27
  /-- GRANK (R278). -/
  | grank (g : Guard) (d : XReg) (n : BitVec 3)
  /-- GSIZE (R278). -/
  | gsize (g : Guard) (d : XReg) (n : BitVec 3)
  /-- GSIZE_SHR (R278). -/
  | gsizeShr (g : Guard) (d a : XReg) (n : BitVec 3)
  /-- GNBR_NEXT (R278). -/
  | gnbrNext (g : Guard) (d : XReg) (n : BitVec 3)
  /-- GNBR_PREV (R278). -/
  | gnbrPrev (g : Guard) (d : XReg) (n : BitVec 3)
  /-- GNBR_XOR (R278). -/
  | gnbrXor (g : Guard) (d : XReg) (n : BitVec 3) (j : BitVec 5)
  /-- COLL (R279, R280). -/
  | coll (g : Guard) (kind : CollKind) (op : CollOp) (ty : CollType) (d a b : XReg) (n : BitVec 3)
  /-- COLLW (R282). -/
  | collw (g : Guard) (n : BitVec 3)
  -- MAJ 0x28
  /-- LAUNCH (R293). -/
  | launch (g : Guard) (d a b : XReg)
  -- MAJ 0x30
  /-- SCOUT_STOP (R298, R303). -/
  | scoutStop (g : Guard) (d a : XReg)
  /-- SCOUT_SHIFT (R298, R303). -/
  | scoutShift (g : Guard) (d a b : XReg)
  /-- SCOUT_RESUME (R298, R303). -/
  | scoutResume (g : Guard) (d a : XReg)
  /-- SCIN (R298, R305). -/
  | scin (g : Guard) (d a b : XReg)
  /-- SCVER (R298, R301). -/
  | scver (g : Guard) (d a : XReg)
  /-- SCVER_PART (R298, R301). -/
  | scverPart (g : Guard) (d : XReg)
  /-- OWNSET_CORE (R298). -/
  | ownsetCore (g : Guard) (d a b : XReg)
  /-- OWNSET_BANK (R298). -/
  | ownsetBank (g : Guard) (d a b : XReg)
  /-- OWNSET_ACM (R298). -/
  | ownsetAcm (g : Guard) (d a b : XReg)
  /-- PREQ_CLR (R298, R311). -/
  | preqClr (g : Guard) (d a : XReg)
  /-- PREQ_SET (R298, R311). -/
  | preqSet (g : Guard) (d a : XReg)
  /-- CUTB (R298, R309). -/
  | cutb (g : Guard) (d a : XReg)
  /-- IDEM (R298, R308). -/
  | idem (g : Guard) (d a b : XReg)
  /-- TMARK_Q (R298, R310). -/
  | tmarkQ (g : Guard) (d a : XReg)
  /-- TMARK_F (R298, R310). -/
  | tmarkF (g : Guard) (d a : XReg)
  -- MAJ 0x31
  /-- TLBI_PAGE (R324, R325). -/
  | tlbiPage (g : Guard) (d a b : XReg)
  /-- TLBI_CTX (R324, R325). -/
  | tlbiCtx (g : Guard) (d a : XReg)
  /-- TLBI_ALL (R324, R325). -/
  | tlbiAll (g : Guard) (d : XReg)
  /-- TLBI_PTE (R324, R325). -/
  | tlbiPte (g : Guard) (d b : XReg)
  /-- PGRET (R324, R326). -/
  | pgret (g : Guard) (d a : XReg)
  /-- PGRET_DROP (R324, R326). -/
  | pgretDrop (g : Guard) (d a : XReg)
  /-- WAYQ (R324, R327). -/
  | wayq (g : Guard) (d a : XReg)
  /-- INJ_L2CE (R324, R328). -/
  | injL2ce (g : Guard) (d a : XReg)
  /-- INJ_L2UE (R324, R328). -/
  | injL2ue (g : Guard) (d a : XReg)
  /-- INJ_HBMUE (R324, R328). -/
  | injHbmue (g : Guard) (d a : XReg)
  /-- ATSI_Q (R324, R329). -/
  | atsiQ (g : Guard) (d a : XReg)
  /-- ATSI_F (R324, R329). -/
  | atsiF (g : Guard) (d a : XReg)
  -- MAJ 0x32
  /-- SLOTCHK (R294). -/
  | slotchk (g : Guard) (d a b : XReg)
  /-- RELOC (R294). -/
  | reloc (g : Guard) (d a b : XReg)
  /-- QPOP (R125). -/
  | qpop (g : Guard) (d b a : XReg)
  /-- QACK (R125). -/
  | qack (g : Guard) (d a b : XReg)
  /-- POLRUN (R294). -/
  | polrun (g : Guard) (d a b : XReg)
  /-- LKEY_OWN (R338). -/
  | lkeyOwn (g : Guard) (d a : XReg)
  /-- LKEY_ACC (R338). -/
  | lkeyAcc (g : Guard) (d a : XReg)
  /-- LREVK (R338). -/
  | lrevk (g : Guard) (d a : XReg)
  /-- QREF (R125). -/
  | qref (g : Guard) (d a : XReg) (drop : Bool)
  -- device events (no words; the opcode table's event rows)
  /-- SQSUB (R121, R122). -/
  | evSqsub (ctx : Nat) (q : BitVec 4) (value : Word)
  /-- SQSTAT_CLEAR_OVF (R122, R123). -/
  | evSqstatClearOvf (ctx : Nat) (q : BitVec 4) (value : Word)
  /-- MBOX_DOORBELL (R363). -/
  | evMboxDoorbell (part : BitVec 4)
  /-- PLAT_ENABLE (R203, R204). -/
  | evPlatEnable (part : BitVec 4) (k : BitVec 5) (value : Word)
  /-- PLAT_DISABLE (R203, R204). -/
  | evPlatDisable (part : BitVec 4) (k : BitVec 5) (value : Word)
  /-- PKILL_GO (R367). -/
  | evPkillGo (part : BitVec 4) (value : Word)
  /-- REGISTER_WRITE (R340, R342). -/
  | evRegisterWrite (host : Bool) (off : Nat) (value : Word)
  /-- FRONT_END_CONSUME (R292). -/
  | evFrontEndConsume (part : BitVec 4) (queue : BitVec 10)
  /-- KERNEL_PLACE (R290, R291). -/
  | evKernelPlace (kid : Nat) (cores : List Nat)
  /-- JOB_END (R82). -/
  | evJobEnd (core : Nat)
  /-- KERNEL_RETIRE (R295). -/
  | evKernelRetire (kid : Nat)
  /-- STREAM_WAIT_END (R78, R79). -/
  | evStreamWaitEnd (core : Nat) (st : StreamId)
  /-- STREAM_YIELDED (R84). -/
  | evStreamYielded (core : Nat) (st : StreamId)
  /-- LOAD_FILL (R94). -/
  | evLoadFill (core : Nat) (st : StreamId) (k : Nat)
  /-- SHADOW_RESUME (R99). -/
  | evShadowResume (core : Nat) (st : StreamId) (copy : Bool) (how : ShadowEnd)
  /-- WALK_COMPLETE (R316, R319). -/
  | evWalkComplete (die : Nat) (k : Nat)
  /-- COPY_ISSUE (R128). -/
  | evCopyIssue (core : Nat)
  /-- COPY_COMPLETE (R147): at most n more executions of the command, with the last of which it completes (DESIGN CHOICE log 18). -/
  | evCopyComplete (core seq n : Nat)
  /-- FLAG_FIRE (R131). -/
  | evFlagFire (core : Nat) (t : FlagTarget)
  /-- FLAG_CLEAR_ACT (R131). -/
  | evFlagClearAct (core : Nat) (t : FlagTarget)
  /-- FWAIT_MARKER_ISSUE (R131). -/
  | evFwaitMarkerIssue (core : Nat) (t : FlagTarget)
  /-- MGO_ISSUE (R222). -/
  | evMgoIssue (core : Nat)
  /-- FOLD_ENTRY (R225, R229). -/
  | evFoldEntry (core : Nat)
  /-- ARRAY_RESUME (R236). -/
  | evArrayResume (core : Nat) (ok : Bool)
  /-- COLL_ISSUE (R280). -/
  | evCollIssue (core : Nat)
  /-- COLL_COMPLETE (R281, R282). -/
  | evCollComplete (core : Nat) (how : CollEnd)
  /-- COLLW_COMPLETE (R282). -/
  | evCollwComplete (core : Nat)
  /-- SUPERSTEP_COMPLETE (R271). -/
  | evSuperstepComplete (kid : Nat)
  /-- COMM_PHASE_END (R271, R273): at most n more transfers of the plan, with the last of which the phase ends (DEDUCED log 32). -/
  | evCommPhaseEnd (kid n : Nat)
  /-- REPLAY_WINDOW_RETIRE (R150). -/
  | evReplayWindowRetire (core : Nat)
  /-- ENGINE_UE_REPLAY (R310). -/
  | evEngineUeReplay (core line : Nat)
  /-- BACKSIGHT_MISMATCH (R350). -/
  | evBacksightMismatch (core : Nat) (escalate : Bool)
  /-- TERMINATION_COMPLETE (R313). -/
  | evTerminationComplete (ctx : Nat)
  /-- EVENT_DISPATCH (R344). -/
  | evEventDispatch (station : Nat)
  /-- STATION_CORE_RESET (R345). -/
  | evStationCoreReset (station : Nat)
  /-- TIME_SLICE_EXPIRY (R134). -/
  | evTimeSliceExpiry (ctx : Nat)
  /-- SCHEDULER_WATCHDOG (R346). -/
  | evSchedulerWatchdog (part : BitVec 4)
  /-- POWER_ON (R347). -/
  | evPowerOn
  /-- BOOT_IMAGE_OFFER (R347). -/
  | evBootImageOffer (src : BitVec 2) (code : BitVec 8) (hash : BitVec 256)
  /-- REMOTE_RESPONSE (R333). -/
  | evRemoteResponse (tag : Nat) (data : Answer)
  /-- REMOTE_TIMEOUT (R334). -/
  | evRemoteTimeout (tag : Nat) (how : RemoteEnd)
  /-- INCOMING_REQUEST (R337). -/
  | evIncomingRequest (key : BitVec 9) (off : Nat) (op : InOp)
  /-- ATS_RESPONSE (R320). -/
  | evAtsResponse (ctx k ha size : Nat) (r w : Bool)
  /-- PRI_RESPONSE (R320). -/
  | evPriResponse (ctx k : Nat) (ok : Bool)
  /-- PRI_TIMEOUT (R320). -/
  | evPriTimeout (ctx k : Nat) (ats : Bool)
  /-- ATS_INVALIDATION (R320). -/
  | evAtsInvalidation (ctx va size : Nat)
  /-- PACKAGE_ID_ASSIGN (R330). -/
  | evPackageIdAssign (id : BitVec 10)
  /-- D2D_FLIT_RETRY (R341). -/
  | evD2dFlitRetry (port : Nat)
  /-- PORT_RETRAIN_FAIL (R341, R346). -/
  | evPortRetrainFail (d2d : Bool) (port : Nat)
  /-- HBM_STACK_FAIL (R346). -/
  | evHbmStackFail (stack : Nat)
  /-- COOLANT_OVERLIMIT (R351). -/
  | evCoolantOverlimit
  /-- POWER_LOSS (R326). -/
  | evPowerLoss
  /-- UALINK_PORT_TRAINED (R347). -/
  | evUalinkPortTrained (port : Nat)
  /-- FUNCTION_BRING_UP (R347). -/
  | evFunctionBringUp (what : BringUp)
  /-- IN_FIELD_SCAN_TEST (R349). -/
  | evInFieldScanTest (cluster : Nat) (pass : Bool)
  deriving DecidableEq, Repr, Inhabited

/-- An error that the hardware suffers by itself (R310, R314, R323, R366): in a resident L2 line's data or its tag, in an HBM line, in
a line of a cluster's store, in a segment of a cluster by kind and index; `fatal` says that it cannot be corrected. -/
inductive Upset where
  | data (line : Nat) (fatal : Bool)
  | tag (line : Nat) (fatal : Bool)
  | hbm (line : Nat)
  | store (cluster line : Nat)
  | segment (cluster kind index : Nat)
  deriving DecidableEq, Repr, Inhabited

/-- One move of the machine: which agent acts next (DESIGN CHOICE log 1). `stream` runs one instruction of that stream, `late` saying that
the memory system does not answer its access at once (DESIGN CHOICE log 2); `station` runs one instruction of that station core; `evict`
lets L2 write back and drop one home line; `upset` is an error of the hardware; `event` is a device event. -/
inductive Move where
  | stream (core : Nat) (st : StreamId) (late : Bool)
  | station (n : Nat)
  | evict (line : Nat)
  | upset (u : Upset)
  | event (e : Instr)
  deriving DecidableEq, Repr, Inhabited

end Sys2Proof
end

