-- ==== Sys2Proof/WellFormed.lean ====
section
/-! DEFINITION. Well-formedness of a decoded instruction: the checks of step 6 of R58 that relate several fields, and the
unassigned variant combinations of R51. A device event has no word and is not well formed. -/

namespace Sys2Proof

/-- Sub-elements of one 32-bit element at a lane width (R50). -/
def LaneW.count : LaneW → Nat
  | .w32 => 1 | .w16 => 2 | .w8 => 4 | .w4 => 8

/-- Bits of one lane (R50). -/
def LaneW.bits : LaneW → Nat
  | .w32 => 32 | .w16 => 16 | .w8 => 8 | .w4 => 4

/-- The pairings of width and selector that R50 lists. -/
def Modifier.legal (m : Modifier) : Bool :=
  match m.w with
  | .w32 => m.sel == 0
  | .w16 => m.sel == 0 || m.sel == 1 || m.sel == 2 || m.sel == 8 || m.sel == 9
  | .w8 => m.sel == 0 || m.sel == 1 || m.sel == 2 || m.sel == 8 || m.sel == 9 || m.sel == 10 || m.sel == 11
  | .w4 => m.sel == 0 || m.sel == 1 || m.sel == 2 || m.sel.getLsbD 3

/-- The identity modifier (R156). -/
def Modifier.identity : Modifier := ⟨.w32, 0⟩

/-- A modifier agrees with a lane width when it is the identity or a legal view at that width (R156). -/
def Modifier.agrees (m : Modifier) (w : LaneW) : Bool :=
  m == Modifier.identity || (m.w == w && w != .w32 && m.legal)

/-- The lane width of a float type of MAJ 0x11 (R159). -/
def FType.lane : FType → LaneW
  | .f32 => .w32 | .bf16 => .w16 | .fp16 => .w16

/-- Bits of a conversion type (R171). -/
def CvtType.width : CvtType → Nat
  | .f32 => 32 | .bf16 => 16 | .fp16 => 16 | .int32 => 32 | .uint32 => 32 | .int16 => 16 | .int8 => 8 | .uint8 => 8
  | .b8p2 => 8 | .b8p3 => 8 | .b8p4 => 8 | .b8p5 => 8 | .b6p2 => 6 | .b6p3 => 6 | .b4p1 => 4 | .b4p2 => 4

/-- Whether a conversion type is a narrow float (R171). -/
def CvtType.narrow : CvtType → Bool
  | .b8p2 => true | .b8p3 => true | .b8p4 => true | .b8p5 => true
  | .b6p2 => true | .b6p3 => true | .b4p1 => true | .b4p2 => true
  | .f32 => false | .bf16 => false | .fp16 => false | .int32 => false
  | .uint32 => false | .int16 => false | .int8 => false | .uint8 => false

/-- The lane view that a broadcast of a source of this type needs; a 32-bit or 6-bit source accepts none (R172). -/
def CvtType.view : CvtType → Option LaneW
  | .bf16 => some .w16 | .fp16 => some .w16 | .int16 => some .w16
  | .int8 => some .w8 | .uint8 => some .w8 | .b8p2 => some .w8 | .b8p3 => some .w8 | .b8p4 => some .w8 | .b8p5 => some .w8
  | .b4p1 => some .w4 | .b4p2 => some .w4
  | .f32 => none | .int32 => none | .uint32 => none | .b6p2 => none | .b6p3 => none

/-- VCVT's infinity option and modifier (R172): the option needs a narrow side, and the modifier is the identity or a
broadcast at the source's width. -/
def cvtLegal (src dst : CvtType) (inf : Bool) (amod : Modifier) : Bool :=
  (!inf || src.narrow || dst.narrow) &&
  (amod == Modifier.identity || (src.view == some amod.w && amod.sel.getLsbD 3 && amod.legal))

/-- ZRD's codes (R185): equal codes move raw bits and require rm and vx zero; otherwise a pairing VCVT accepts. -/
def zrdLegal (src dst : CvtType) (inf : Bool) (rm : RmField) : Bool :=
  if src = dst then !inf && rm == .fpm else !inf || src.narrow || dst.narrow

/-- The words a CWWR may name (R96). -/
def CtlWord.writable : CtlWord → Bool
  | .stat => true | .fpm => true | .qsel => true | .lvlbase => true | .efarena => true | .trapvec => true
  | .prc => true | .scopemode => true | .tprc => true
  | .allot => false | .tierinfo _ => false | .tcause => false | .tepc => false | .tval => false | .buf _ => false

/-- The instruction's fields hold values that the encoding admits together (R48 to R58). -/
def Instr.wf (i : Instr) : Bool :=
  match i with
  | .add _ _ _ _ => true
  | .sub _ _ _ _ => true
  | .andR _ _ _ _ => true
  | .orR _ _ _ _ => true
  | .xorR _ _ _ _ => true
  | .logt _ _ _ _ _ _ => true
  | .shl _ _ _ _ => true
  | .shr _ _ _ _ => true
  | .sra _ _ _ _ => true
  | .rol _ _ _ _ => true
  | .minS _ _ _ _ => true
  | .maxS _ _ _ _ => true
  | .minu _ _ _ _ => true
  | .maxu _ _ _ _ => true
  | .sel _ _ _ _ _ => true
  | .abs _ _ _ => true
  | .addi _ _ _ _ => true
  | .andi _ _ _ _ => true
  | .ori _ _ _ _ => true
  | .xori _ _ _ _ => true
  | .shli _ _ _ _ => true
  | .shri _ _ _ _ => true
  | .srai _ _ _ _ => true
  | .li _ _ _ => true
  | .mul _ _ _ _ => true
  | .mulh _ _ _ _ => true
  | .mulhu _ _ _ _ => true
  | .madd _ _ _ _ _ => true
  | .div _ _ _ _ => true
  | .divu _ _ _ _ => true
  | .rem _ _ _ _ => true
  | .remu _ _ _ _ => true
  | .clz _ _ _ => true
  | .ctz _ _ _ => true
  | .popc _ _ _ => true
  | .brev _ _ _ => true
  | .bfx _ _ _ _ _ => true
  | .bfxu _ _ _ _ _ => true
  | .bfi _ _ _ _ _ _ => true
  | .sext _ _ _ _ => true
  | .cmp _ _ _ _ _ => true
  | .plog _ _ _ _ _ => true
  | .pmovGet _ _ => true
  | .pmovPut _ _ => true
  | .cmpi _ _ _ _ _ => true
  | .lea _ _ _ _ _ => true
  | .leai _ _ _ _ => true
  | .lil _ _ _ => true
  | .jmpl _ _ => true
  | .br _ _ => true
  | .call _ _ => true
  | .callc _ _ => true
  | .jmpr _ _ => true
  | .callr _ _ => true
  | .callcr _ _ => true
  | .ret _ _ => true
  | .retc _ _ => true
  | .fork _ _ _ _ => true
  | .rdv _ => true
  | .rpt _ _ _ _ _ _ => true
  | .halt _ => true
  | .yield _ => true
  | .dqput _ _ _ => true
  | .dqget _ _ _ => true
  | .dqcls _ _ => true
  | .bqput _ _ _ => true
  | .bqbr _ _ => true
  | .ld _ sx _ cls sz sc _ _ _ =>
    decide (¬ (sx = true ∧ sz = .b8) ∧ sc ≠ .tier ∧ (cls = .strong ∨ cls = .acquire ∨ sc = .stream))
  | .st _ _ cls _ sc _ _ _ => decide (sc ≠ .tier ∧ (cls = .strong ∨ cls = .release ∨ sc = .stream))
  | .atom _ op big _ sc tier _ _ _ =>
    decide ((big = false ∨ (op ≠ .faddF32 ∧ op ≠ .faddBf16x2)) ∧ (sc = .tier ∨ tier = 0))
  | .fence _ _ sc tier => decide (sc = .tier ∨ tier = 0)
  | .xfence _ pfrom pto => decide (pfrom ≠ 0 ∧ pto ≠ 0)
  | .trap _ _ => true
  | .tret _ => true
  | .tretSkip _ => true
  | .sysc _ _ => true
  | .cwrd _ _ _ => true
  | .cwwr _ w _ => decide (w.writable = true)
  | .nop _ => true
  | .vadd ty _ _ _ amod bmod _ _ => decide (amod.agrees ty.lane ∧ bmod.agrees ty.lane)
  | .vsub ty _ _ _ amod bmod _ _ => decide (amod.agrees ty.lane ∧ bmod.agrees ty.lane)
  | .vmul ty _ _ _ amod bmod _ _ => decide (amod.agrees ty.lane ∧ bmod.agrees ty.lane)
  | .vfma ty _ _ _ _ amod bmod _ _ => decide (amod.agrees ty.lane ∧ bmod.agrees ty.lane)
  | .vfms ty _ _ _ _ amod bmod _ _ => decide (amod.agrees ty.lane ∧ bmod.agrees ty.lane)
  | .vmin ty _ _ _ amod bmod _ => decide (amod.agrees ty.lane ∧ bmod.agrees ty.lane)
  | .vmax ty _ _ _ amod bmod _ => decide (amod.agrees ty.lane ∧ bmod.agrees ty.lane)
  | .vabs ty _ _ amod _ => decide (amod.agrees ty.lane)
  | .vneg ty _ _ amod _ => decide (amod.agrees ty.lane)
  | .viadd w _ _ _ _ amod bmod _ => decide (amod.agrees w ∧ bmod.agrees w)
  | .visub w _ _ _ _ amod bmod _ => decide (amod.agrees w ∧ bmod.agrees w)
  | .vimul w _ _ _ _ amod bmod _ => decide (amod.agrees w ∧ bmod.agrees w)
  | .vimad w _ _ _ _ amod bmod _ => decide (amod.agrees w ∧ bmod.agrees w)
  | .vshl w _ _ _ amod bmod _ => decide (amod.agrees w ∧ bmod.agrees w)
  | .vshr w _ _ _ amod bmod _ => decide (amod.agrees w ∧ bmod.agrees w)
  | .vsra w _ _ _ amod bmod _ => decide (amod.agrees w ∧ bmod.agrees w)
  | .vlogt _ _ _ _ _ _ => true
  | .vimin w _ _ _ _ amod bmod _ => decide (amod.agrees w ∧ bmod.agrees w)
  | .vimax w _ _ _ _ amod bmod _ => decide (amod.agrees w ∧ bmod.agrees w)
  | .vcmp ty cc _ _ _ _ => decide (ty = .f32 ∨ (cc ≠ .un ∧ cc ≠ .ord))
  | .vsel _ _ _ _ => true
  | .vmsk _ _ _ _ _ => true
  | .vrcp _ _ _ => true
  | .vrsq _ _ _ => true
  | .vrcpr _ _ _ _ _ => true
  | .vrsqr _ _ _ _ _ => true
  | .vexp2 _ _ _ => true
  | .vlog2 _ _ _ => true
  | .vtanh _ _ _ => true
  | .vcvt src dst inf _ _ amod _ _ => decide (cvtLegal src dst inf amod)
  | .vpack w _ _ _ _ => decide (w ≠ .w32)
  | .vunpk w _ _ _ part _ => decide (w ≠ .w32 ∧ part.toNat < w.count)
  | .vrotr _ _ _ _ => true
  | .vbcr _ _ _ _ => true
  | .vredr op _ _ _ rm => decide (op = .fadd ∨ rm = .fpm)
  | .vscnr op _ _ _ rm => decide (op = .fadd ∨ rm = .fpm)
  | .vrotc _ _ _ _ => true
  | .vbcc _ _ _ _ => true
  | .vredc op _ _ _ rm => decide (op = .fadd ∨ rm = .fpm)
  | .vscnc op _ _ _ rm => decide (op = .fadd ∨ rm = .fpm)
  | .vperm _ _ _ _ => true
  | .vmov _ _ amod _ => decide (amod.legal)
  | .vmovs _ _ _ => true
  | .vmovx _ _ _ _ => true
  | .zwr _ _ _ _ => true
  | .zrd src dst inf _ _ _ _ rm => decide (zrdLegal src dst inf rm)
  | .zclr _ => true
  | .defer _ _ _ => true
  | .drain _ _ _ => true
  | .dfcnt _ _ => true
  | .vld _ _ _ _ _ _ => true
  | .vst _ _ _ _ _ _ => true
  | .vgath _ _ _ _ _ _ => true
  | .vscat _ _ _ _ _ _ => true
  | .qst _ _ _ _ _ => true
  | .qld _ _ _ _ _ => true
  | .lvld _ _ _ _ => true
  | .qcfg _ _ _ => true
  | .cpy _ _ sz _ _ => decide (sz.toNat ≤ 10)
  | .cpys _ _ sz _ _ => decide (sz.toNat ≤ 10)
  | .cpyg _ _ sz _ _ => decide (sz.toNat ≤ 10)
  | .cpyx _ _ sz _ _ => decide (sz.toNat ≤ 10)
  | .tdef _ _ _ _ => true
  | .tset _ _ _ _ => true
  | .trel _ _ => true
  | .bankcfg _ _ _ _ => true
  | .fset _ _ _ => true
  | .fwait _ _ _ => true
  | .fclr _ _ _ => true
  | .lnt _ _ _ lv => decide (lv.toNat ≤ 5)
  | .mopa _ _ _ => true
  | .mopb _ _ _ => true
  | .mopc _ _ => true
  | .idxv _ _ => true
  | .mgo _ nlev => decide (nlev.toNat ≤ 6)
  | .mwait _ _ => true
  | .mstat _ _ => true
  | .mstatClr _ _ => true
  | .abal _ _ _ => true
  | .abfr _ _ _ => true
  | .ainit _ _ _ _ _ => true
  | .anrm _ _ _ _ => true
  | .ard _ _ _ _ _ => true
  | .awr _ fmt _ _ _ => decide (fmt = .f32 ∨ fmt = .raw)
  | .efcap _ _ _ => true
  | .ecat _ _ _ _ => true
  | .eflt _ _ _ _ _ _ => true
  | .ereb _ _ _ _ _ => true
  | .eapl _ _ => true
  | .eaplRel _ _ sc tier => decide (sc = .tier ∨ tier = 0)
  | .edrp _ _ => true
  | .ecnt _ _ _ => true
  | .ecntArena _ _ => true
  | .ssync _ _ => true
  | .bara _ _ _ sm _ => decide (sm ≠ 0)
  | .barw _ _ _ _ => true
  | .baraw _ _ sm _ => decide (sm ≠ 0)
  | .xplan _ _ => true
  | .grank _ _ _ => true
  | .gsize _ _ _ => true
  | .gsizeShr _ _ _ _ => true
  | .gnbrNext _ _ _ => true
  | .gnbrPrev _ _ _ => true
  | .gnbrXor _ _ _ _ => true
  | .coll _ kind op _ _ _ _ _ => decide (op = .sum ∨ kind = .ar ∨ kind = .rs)
  | .collw _ _ => true
  | .launch _ _ _ _ => true
  | .scoutStop _ _ _ => true
  | .scoutShift _ _ _ _ => true
  | .scoutResume _ _ _ => true
  | .scin _ _ _ _ => true
  | .scver _ _ _ => true
  | .scverPart _ _ => true
  | .ownsetCore _ _ _ _ => true
  | .ownsetBank _ _ _ _ => true
  | .ownsetAcm _ _ _ _ => true
  | .preqClr _ _ _ => true
  | .preqSet _ _ _ => true
  | .cutb _ _ _ => true
  | .idem _ _ _ _ => true
  | .tmarkQ _ _ _ => true
  | .tmarkF _ _ _ => true
  | .tlbiPage _ _ _ _ => true
  | .tlbiCtx _ _ _ => true
  | .tlbiAll _ _ => true
  | .tlbiPte _ _ _ => true
  | .pgret _ _ _ => true
  | .pgretDrop _ _ _ => true
  | .wayq _ _ _ => true
  | .injL2ce _ _ _ => true
  | .injL2ue _ _ _ => true
  | .injHbmue _ _ _ => true
  | .atsiQ _ _ _ => true
  | .atsiF _ _ _ => true
  | .slotchk _ _ _ _ => true
  | .reloc _ _ _ _ => true
  | .qpop _ _ _ _ => true
  | .qack _ _ _ _ => true
  | .polrun _ _ _ _ => true
  | .lkeyOwn _ _ _ => true
  | .lkeyAcc _ _ _ => true
  | .lrevk _ _ _ => true
  | .qref _ _ _ _ => true
  | .evSqsub _ _ _ => false
  | .evSqstatClearOvf _ _ _ => false
  | .evMboxDoorbell _ => false
  | .evPlatEnable _ _ _ => false
  | .evPlatDisable _ _ _ => false
  | .evPkillGo _ _ => false
  | .evRegisterWrite _ _ _ => false
  | .evFrontEndConsume _ _ => false
  | .evKernelPlace _ _ => false
  | .evJobEnd _ => false
  | .evKernelRetire _ => false
  | .evStreamWaitEnd _ _ => false
  | .evStreamYielded _ _ => false
  | .evLoadFill _ _ _ => false
  | .evShadowResume _ _ _ _ => false
  | .evWalkComplete _ _ => false
  | .evCopyIssue _ => false
  | .evCopyComplete _ _ _ => false
  | .evFlagFire _ _ => false
  | .evFlagClearAct _ _ => false
  | .evFwaitMarkerIssue _ _ => false
  | .evMgoIssue _ => false
  | .evFoldEntry _ => false
  | .evArrayResume _ _ => false
  | .evCollIssue _ => false
  | .evCollComplete _ _ => false
  | .evCollwComplete _ => false
  | .evSuperstepComplete _ => false
  | .evCommPhaseEnd _ _ => false
  | .evReplayWindowRetire _ => false
  | .evEngineUeReplay _ _ => false
  | .evBacksightMismatch _ _ => false
  | .evTerminationComplete _ => false
  | .evEventDispatch _ => false
  | .evStationCoreReset _ => false
  | .evTimeSliceExpiry _ => false
  | .evSchedulerWatchdog _ => false
  | .evPowerOn => false
  | .evBootImageOffer _ _ _ => false
  | .evRemoteResponse _ _ => false
  | .evRemoteTimeout _ _ => false
  | .evIncomingRequest _ _ _ => false
  | .evAtsResponse _ _ _ _ _ _ => false
  | .evPriResponse _ _ _ => false
  | .evPriTimeout _ _ _ => false
  | .evAtsInvalidation _ _ _ => false
  | .evPackageIdAssign _ => false
  | .evD2dFlitRetry _ => false
  | .evPortRetrainFail _ _ => false
  | .evHbmStackFail _ => false
  | .evCoolantOverlimit => false
  | .evPowerLoss => false
  | .evUalinkPortTrained _ => false
  | .evFunctionBringUp _ => false
  | .evInFieldScanTest _ _ => false

/-- `Instr.wf` as a proposition. -/
abbrev Instr.WF (i : Instr) : Prop := i.wf = true

end Sys2Proof
end

