-- ==== Sys2Proof/Decode.lean ====
section
/-! DEFINITION. The decoder (R45 to R59): the seven forms, the codes of every field, the row of every MAJ and MIN, the order of
the decode checks of R58 in each context, the register fields and stride kinds of every instruction (R53, R92), and the encoder
written from the same tables. -/

namespace Sys2Proof

/-- The decode traps, one for each cause that R58 gives a word. -/
inductive DecodeTrap where
  | allZeros | allOnes | majUnassigned | privileged | minUnassigned | reserved
  deriving DecidableEq, Repr

/-- The code of a decode trap (R58, R100). -/
def DecodeTrap.cause : DecodeTrap → BitVec 8
  | .majUnassigned => 0x01 | .minUnassigned => 0x02 | .reserved => 0x03
  | .allZeros => 0x04 | .allOnes => 0x05 | .privileged => 0x06

/-- The context a word is decoded in (R57): a stream of a core, the shadow handler of a core, or a station core. -/
inductive Role where
  | stream (st : StreamId) | handler | station
  deriving DecidableEq, Repr

/-- The code of each `StreamId` in its field. -/
def StreamId.code : StreamId → BitVec 2
  | .A => 0
  | .X => 1
  | .M => 2
  | .C => 3

/-- The `StreamId` that a code names, if the code is not reserved. -/
def StreamId.ofCode? (c : BitVec 2) : Option StreamId :=
  match c.toNat with
  | 0 => some .A
  | 1 => some .X
  | 2 => some .M
  | 3 => some .C
  | _ => none

/-- The code of each `Allot` in its field. -/
def Allot.code : Allot → BitVec 2
  | .a16 => 0
  | .a32 => 1
  | .a64 => 2

/-- The `Allot` that a code names, if the code is not reserved. -/
def Allot.ofCode? (c : BitVec 2) : Option Allot :=
  match c.toNat with
  | 0 => some .a16
  | 1 => some .a32
  | 2 => some .a64
  | _ => none

/-- The code of each `Scope` in its field. -/
def Scope.code : Scope → BitVec 3
  | .stream => 0
  | .core => 1
  | .cluster => 2
  | .die => 3
  | .package => 4
  | .domain => 5
  | .system => 6
  | .tier => 7

/-- The `Scope` that a code names, if the code is not reserved. -/
def Scope.ofCode? (c : BitVec 3) : Option Scope :=
  match c.toNat with
  | 0 => some .stream
  | 1 => some .core
  | 2 => some .cluster
  | 3 => some .die
  | 4 => some .package
  | 5 => some .domain
  | 6 => some .system
  | 7 => some .tier
  | _ => none

/-- The code of each `MemSize` in its field. -/
def MemSize.code : MemSize → BitVec 2
  | .b1 => 0
  | .b2 => 1
  | .b4 => 2
  | .b8 => 3

/-- The `MemSize` that a code names, if the code is not reserved. -/
def MemSize.ofCode? (c : BitVec 2) : Option MemSize :=
  match c.toNat with
  | 0 => some .b1
  | 1 => some .b2
  | 2 => some .b4
  | 3 => some .b8
  | _ => none

/-- The code of each `LdClass` in its field. -/
def LdClass.code : LdClass → BitVec 2
  | .plain => 0
  | .weak => 1
  | .strong => 2
  | .acquire => 3

/-- The `LdClass` that a code names, if the code is not reserved. -/
def LdClass.ofCode? (c : BitVec 2) : Option LdClass :=
  match c.toNat with
  | 0 => some .plain
  | 1 => some .weak
  | 2 => some .strong
  | 3 => some .acquire
  | _ => none

/-- The code of each `StClass` in its field. -/
def StClass.code : StClass → BitVec 2
  | .plain => 0
  | .weak => 1
  | .strong => 2
  | .release => 3

/-- The `StClass` that a code names, if the code is not reserved. -/
def StClass.ofCode? (c : BitVec 2) : Option StClass :=
  match c.toNat with
  | 0 => some .plain
  | 1 => some .weak
  | 2 => some .strong
  | 3 => some .release
  | _ => none

/-- The code of each `AtomOp` in its field. -/
def AtomOp.code : AtomOp → BitVec 4
  | .add => 0
  | .and => 1
  | .or => 2
  | .xor => 3
  | .min => 4
  | .max => 5
  | .minu => 6
  | .maxu => 7
  | .swap => 8
  | .cas => 9
  | .faddF32 => 10
  | .faddBf16x2 => 11

/-- The `AtomOp` that a code names, if the code is not reserved. -/
def AtomOp.ofCode? (c : BitVec 4) : Option AtomOp :=
  match c.toNat with
  | 0 => some .add
  | 1 => some .and
  | 2 => some .or
  | 3 => some .xor
  | 4 => some .min
  | 5 => some .max
  | 6 => some .minu
  | 7 => some .maxu
  | 8 => some .swap
  | 9 => some .cas
  | 10 => some .faddF32
  | 11 => some .faddBf16x2
  | _ => none

/-- The code of each `Order` in its field. -/
def Order.code : Order → BitVec 2
  | .relaxed => 0
  | .acquire => 1
  | .release => 2
  | .acqRel => 3

/-- The `Order` that a code names, if the code is not reserved. -/
def Order.ofCode? (c : BitVec 2) : Option Order :=
  match c.toNat with
  | 0 => some .relaxed
  | 1 => some .acquire
  | 2 => some .release
  | 3 => some .acqRel
  | _ => none

/-- The code of each `CmpCond` in its field. -/
def CmpCond.code : CmpCond → BitVec 3
  | .eq => 0
  | .ne => 1
  | .lt => 2
  | .ge => 3
  | .ltu => 4
  | .geu => 5
  | .gt => 6
  | .gtu => 7

/-- The `CmpCond` that a code names, if the code is not reserved. -/
def CmpCond.ofCode? (c : BitVec 3) : Option CmpCond :=
  match c.toNat with
  | 0 => some .eq
  | 1 => some .ne
  | 2 => some .lt
  | 3 => some .ge
  | 4 => some .ltu
  | 5 => some .geu
  | 6 => some .gt
  | 7 => some .gtu
  | _ => none

/-- The code of each `FenceKind` in its field. -/
def FenceKind.code : FenceKind → BitVec 2
  | .full => 0
  | .acquire => 1
  | .release => 2
  | .acqRel => 3

/-- The `FenceKind` that a code names, if the code is not reserved. -/
def FenceKind.ofCode? (c : BitVec 2) : Option FenceKind :=
  match c.toNat with
  | 0 => some .full
  | 1 => some .acquire
  | 2 => some .release
  | 3 => some .acqRel
  | _ => none

/-- The code of each `FlagTarget` in its field. -/
def FlagTarget.code : FlagTarget → BitVec 2
  | .self => 0
  | .copy => 1
  | .matrix => 2
  | .collective => 3

/-- The `FlagTarget` that a code names, if the code is not reserved. -/
def FlagTarget.ofCode? (c : BitVec 2) : Option FlagTarget :=
  match c.toNat with
  | 0 => some .self
  | 1 => some .copy
  | 2 => some .matrix
  | 3 => some .collective
  | _ => none

/-- The code of each `BankMode` in its field. -/
def BankMode.code : BankMode → BitVec 2
  | .cache => 0
  | .tile => 1
  | .fifo => 2

/-- The `BankMode` that a code names, if the code is not reserved. -/
def BankMode.ofCode? (c : BitVec 2) : Option BankMode :=
  match c.toNat with
  | 0 => some .cache
  | 1 => some .tile
  | 2 => some .fifo
  | _ => none

/-- The code of each `TsetState` in its field. -/
def TsetState.code : TsetState → BitVec 6
  | .empty => 0
  | .filling => 1
  | .ready => 2
  | .draining => 3

/-- The `TsetState` that a code names, if the code is not reserved. -/
def TsetState.ofCode? (c : BitVec 6) : Option TsetState :=
  match c.toNat with
  | 0 => some .empty
  | 1 => some .filling
  | 2 => some .ready
  | 3 => some .draining
  | _ => none

/-- The code of each `LaneW` in its field. -/
def LaneW.code : LaneW → BitVec 2
  | .w32 => 0
  | .w16 => 1
  | .w8 => 2
  | .w4 => 3

/-- The `LaneW` that a code names, if the code is not reserved. -/
def LaneW.ofCode? (c : BitVec 2) : Option LaneW :=
  match c.toNat with
  | 0 => some .w32
  | 1 => some .w16
  | 2 => some .w8
  | 3 => some .w4
  | _ => none

/-- The code of each `FType` in its field. -/
def FType.code : FType → BitVec 2
  | .f32 => 0
  | .bf16 => 1
  | .fp16 => 2

/-- The `FType` that a code names, if the code is not reserved. -/
def FType.ofCode? (c : BitVec 2) : Option FType :=
  match c.toNat with
  | 0 => some .f32
  | 1 => some .bf16
  | 2 => some .fp16
  | _ => none

/-- The code of each `RmField` in its field. -/
def RmField.code : RmField → BitVec 3
  | .fpm => 0
  | .rne => 1
  | .rtz => 2
  | .rup => 3
  | .rdn => 4
  | .rna => 5

/-- The `RmField` that a code names, if the code is not reserved. -/
def RmField.ofCode? (c : BitVec 3) : Option RmField :=
  match c.toNat with
  | 0 => some .fpm
  | 1 => some .rne
  | 2 => some .rtz
  | 3 => some .rup
  | 4 => some .rdn
  | 5 => some .rna
  | _ => none

/-- The code of each `SatMode` in its field. -/
def SatMode.code : SatMode → BitVec 4
  | .wrap => 0
  | .ss => 1
  | .us => 2

/-- The `SatMode` that a code names, if the code is not reserved. -/
def SatMode.ofCode? (c : BitVec 4) : Option SatMode :=
  match c.toNat with
  | 0 => some .wrap
  | 1 => some .ss
  | 2 => some .us
  | _ => none

/-- The code of each `VCmpType` in its field. -/
def VCmpType.code : VCmpType → BitVec 2
  | .f32 => 0
  | .i32 => 1
  | .u32 => 2

/-- The `VCmpType` that a code names, if the code is not reserved. -/
def VCmpType.ofCode? (c : BitVec 2) : Option VCmpType :=
  match c.toNat with
  | 0 => some .f32
  | 1 => some .i32
  | 2 => some .u32
  | _ => none

/-- The code of each `VCmpCond` in its field. -/
def VCmpCond.code : VCmpCond → BitVec 4
  | .eq => 0
  | .ne => 1
  | .lt => 2
  | .le => 3
  | .gt => 4
  | .ge => 5
  | .un => 6
  | .ord => 7

/-- The `VCmpCond` that a code names, if the code is not reserved. -/
def VCmpCond.ofCode? (c : BitVec 4) : Option VCmpCond :=
  match c.toNat with
  | 0 => some .eq
  | 1 => some .ne
  | 2 => some .lt
  | 3 => some .le
  | 4 => some .gt
  | 5 => some .ge
  | 6 => some .un
  | 7 => some .ord
  | _ => none

/-- The code of each `CvtType` in its field. -/
def CvtType.code : CvtType → BitVec 4
  | .f32 => 0
  | .bf16 => 1
  | .fp16 => 2
  | .int32 => 3
  | .uint32 => 4
  | .int16 => 5
  | .int8 => 6
  | .uint8 => 7
  | .b8p2 => 8
  | .b8p3 => 9
  | .b8p4 => 10
  | .b8p5 => 11
  | .b6p2 => 12
  | .b6p3 => 13
  | .b4p1 => 14
  | .b4p2 => 15

/-- The `CvtType` that a code names, if the code is not reserved. -/
def CvtType.ofCode? (c : BitVec 4) : Option CvtType :=
  match c.toNat with
  | 0 => some .f32
  | 1 => some .bf16
  | 2 => some .fp16
  | 3 => some .int32
  | 4 => some .uint32
  | 5 => some .int16
  | 6 => some .int8
  | 7 => some .uint8
  | 8 => some .b8p2
  | 9 => some .b8p3
  | 10 => some .b8p4
  | 11 => some .b8p5
  | 12 => some .b6p2
  | 13 => some .b6p3
  | 14 => some .b4p1
  | 15 => some .b4p2
  | _ => none

/-- The code of each `RedOp` in its field. -/
def RedOp.code : RedOp → BitVec 4
  | .fadd => 0
  | .fmin => 1
  | .fmax => 2
  | .iadd => 3
  | .imin => 4
  | .imax => 5
  | .umin => 6
  | .umax => 7
  | .and => 8
  | .or => 9
  | .xor => 10

/-- The `RedOp` that a code names, if the code is not reserved. -/
def RedOp.ofCode? (c : BitVec 4) : Option RedOp :=
  match c.toNat with
  | 0 => some .fadd
  | 1 => some .fmin
  | 2 => some .fmax
  | 3 => some .iadd
  | 4 => some .imin
  | 5 => some .imax
  | 6 => some .umin
  | 7 => some .umax
  | 8 => some .and
  | 9 => some .or
  | 10 => some .xor
  | _ => none

/-- The code of each `BlkClass` in its field. -/
def BlkClass.code : BlkClass → BitVec 2
  | .c8 => 0
  | .c6 => 1
  | .c4 => 2

/-- The `BlkClass` that a code names, if the code is not reserved. -/
def BlkClass.ofCode? (c : BitVec 2) : Option BlkClass :=
  match c.toNat with
  | 0 => some .c8
  | 1 => some .c6
  | 2 => some .c4
  | _ => none

/-- The code of each `AccFmt` in its field. -/
def AccFmt.code : AccFmt → BitVec 2
  | .f32 => 0
  | .bf16 => 1
  | .f64 => 2
  | .raw => 3

/-- The `AccFmt` that a code names, if the code is not reserved. -/
def AccFmt.ofCode? (c : BitVec 2) : Option AccFmt :=
  match c.toNat with
  | 0 => some .f32
  | 1 => some .bf16
  | 2 => some .f64
  | 3 => some .raw
  | _ => none

/-- The code of each `CollKind` in its field. -/
def CollKind.code : CollKind → BitVec 3
  | .ar => 0
  | .rs => 1
  | .ag => 2
  | .bc => 3

/-- The `CollKind` that a code names, if the code is not reserved. -/
def CollKind.ofCode? (c : BitVec 3) : Option CollKind :=
  match c.toNat with
  | 0 => some .ar
  | 1 => some .rs
  | 2 => some .ag
  | 3 => some .bc
  | _ => none

/-- The code of each `CollOp` in its field. -/
def CollOp.code : CollOp → BitVec 2
  | .sum => 0
  | .max => 1
  | .min => 2

/-- The `CollOp` that a code names, if the code is not reserved. -/
def CollOp.ofCode? (c : BitVec 2) : Option CollOp :=
  match c.toNat with
  | 0 => some .sum
  | 1 => some .max
  | 2 => some .min
  | _ => none

/-- The code of each `CollType` in its field. -/
def CollType.code : CollType → BitVec 3
  | .f32 => 0
  | .bf16 => 1
  | .i32 => 2
  | .u32 => 3

/-- The `CollType` that a code names, if the code is not reserved. -/
def CollType.ofCode? (c : BitVec 3) : Option CollType :=
  match c.toNat with
  | 0 => some .f32
  | 1 => some .bf16
  | 2 => some .i32
  | 3 => some .u32
  | _ => none

/-- A modifier from its six bits (R50). -/
def Modifier.ofBits (b : BitVec 6) : Modifier :=
  ⟨match (b.extractLsb' 4 2).toNat with | 0 => .w32 | 1 => .w16 | 2 => .w8 | _ => .w4, b.extractLsb' 0 4⟩

/-- The six bits of a modifier (R50). -/
def Modifier.bits (m : Modifier) : BitVec 6 := m.w.code ++ m.sel

/-- The fx code of a control word (R96). -/
def CtlWord.code : CtlWord → BitVec 8
  | .stat => 0x00 | .fpm => 0x01 | .qsel => 0x02 | .lvlbase => 0x03 | .efarena => 0x04 | .trapvec => 0x05 | .prc => 0x06
  | .allot => 0x07 | .scopemode => 0x08 | .tierinfo _ => 0x09 | .tcause => 0x0A | .tepc => 0x0B | .tval => 0x0C
  | .tprc => 0x0D | .buf i => 0x1#4 ++ i

/-- The c field of a control word's name: the tier of TIERINFO, otherwise zero (R96). -/
def CtlWord.index : CtlWord → BitVec 6
  | .tierinfo n => 0#3 ++ n
  | .stat => 0 | .fpm => 0 | .qsel => 0 | .lvlbase => 0 | .efarena => 0 | .trapvec => 0 | .prc => 0 | .allot => 0
  | .scopemode => 0 | .tcause => 0 | .tepc => 0 | .tval => 0 | .tprc => 0 | .buf _ => 0

/-- The control word that fx and c name; a code or an index not in the table is reserved (R96). -/
def CtlWord.ofCode? (fx : BitVec 8) (c : BitVec 6) : Option CtlWord :=
  if fx = 0x09 then (if c &&& 0x38 = 0 then some (.tierinfo (c.extractLsb' 0 3)) else none)
  else if c ≠ 0 then none
  else if fx.extractLsb' 4 4 = 1 then some (.buf (fx.extractLsb' 0 4))
  else match fx.toNat with
    | 0x00 => some .stat | 0x01 => some .fpm | 0x02 => some .qsel | 0x03 => some .lvlbase | 0x04 => some .efarena
    | 0x05 => some .trapvec | 0x06 => some .prc | 0x07 => some .allot | 0x08 => some .scopemode
    | 0x0A => some .tcause | 0x0B => some .tepc | 0x0C => some .tval | 0x0D => some .tprc
    | _ => none

/-- The fields of Form S (R47). -/
structure FormS where
  g : Guard
  d : BitVec 6
  a : BitVec 6
  b : BitVec 6
  c : BitVec 6
  fx : BitVec 8
  deriving DecidableEq, Repr

/-- The Form S fields of a word. -/
def FormS.ofWord (w : IWord) : FormS :=
  ⟨⟨w.extractLsb' 9 3, w.getLsbD 8⟩, w.extractLsb' 30 6, w.extractLsb' 24 6, w.extractLsb' 18 6, w.extractLsb' 12 6, w.extractLsb' 0 8⟩

/-- The word of given MAJ, MIN and Form S fields. -/
def FormS.toWord (maj min : BitVec 6) (f : FormS) : IWord :=
  maj ++ min ++ f.d ++ f.a ++ f.b ++ f.c ++ f.g.p ++ BitVec.ofBool f.g.inv ++ f.fx

/-- The fields of Form I (R47). -/
structure FormI where
  g : Guard
  d : BitVec 6
  a : BitVec 6
  imm : BitVec 20
  deriving DecidableEq, Repr

/-- The Form I fields of a word. -/
def FormI.ofWord (w : IWord) : FormI :=
  ⟨⟨w.extractLsb' 21 3, w.getLsbD 20⟩, w.extractLsb' 30 6, w.extractLsb' 24 6, w.extractLsb' 0 20⟩

/-- The word of given MAJ, MIN and Form I fields. -/
def FormI.toWord (maj min : BitVec 6) (f : FormI) : IWord :=
  maj ++ min ++ f.d ++ f.a ++ f.g.p ++ BitVec.ofBool f.g.inv ++ f.imm

/-- The fields of Form M (R47). -/
structure FormM where
  g : Guard
  d : BitVec 6
  a : BitVec 6
  scope : BitVec 3
  off : BitVec 17
  deriving DecidableEq, Repr

/-- The Form M fields of a word. -/
def FormM.ofWord (w : IWord) : FormM :=
  ⟨⟨w.extractLsb' 18 3, w.getLsbD 17⟩, w.extractLsb' 30 6, w.extractLsb' 24 6, w.extractLsb' 21 3, w.extractLsb' 0 17⟩

/-- The word of given MAJ, MIN and Form M fields. -/
def FormM.toWord (maj min : BitVec 6) (f : FormM) : IWord :=
  maj ++ min ++ f.d ++ f.a ++ f.scope ++ f.g.p ++ BitVec.ofBool f.g.inv ++ f.off

/-- The fields of Form B (R47). -/
structure FormB where
  g : Guard
  disp : BitVec 32
  deriving DecidableEq, Repr

/-- The Form B fields of a word. -/
def FormB.ofWord (w : IWord) : FormB :=
  ⟨⟨w.extractLsb' 33 3, w.getLsbD 32⟩, w.extractLsb' 0 32⟩

/-- The word of given MAJ, MIN and Form B fields. -/
def FormB.toWord (maj min : BitVec 6) (f : FormB) : IWord :=
  maj ++ min ++ f.g.p ++ BitVec.ofBool f.g.inv ++ f.disp

/-- The fields of Form V (R47). -/
structure FormV where
  vd : BitVec 4
  va : BitVec 4
  vb : BitVec 4
  vc : BitVec 4
  amod : BitVec 6
  bmod : BitVec 6
  m : BitVec 3
  rm : BitVec 3
  vx : BitVec 2
  deriving DecidableEq, Repr

/-- The Form V fields of a word. -/
def FormV.ofWord (w : IWord) : FormV :=
  ⟨w.extractLsb' 32 4, w.extractLsb' 28 4, w.extractLsb' 24 4, w.extractLsb' 20 4, w.extractLsb' 14 6, w.extractLsb' 8 6, w.extractLsb' 5 3,
      w.extractLsb' 2 3, w.extractLsb' 0 2⟩

/-- The word of given MAJ, MIN and Form V fields. -/
def FormV.toWord (maj min : BitVec 6) (f : FormV) : IWord :=
  maj ++ min ++ f.vd ++ f.va ++ f.vb ++ f.vc ++ f.amod ++ f.bmod ++ f.m ++ f.rm ++ f.vx

/-- The fields of Form E (R47). -/
structure FormE where
  a : BitVec 6
  b : BitVec 6
  sz : BitVec 4
  step : BitVec 12
  cnt : BitVec 8
  deriving DecidableEq, Repr

/-- The Form E fields of a word. -/
def FormE.ofWord (w : IWord) : FormE :=
  ⟨w.extractLsb' 30 6, w.extractLsb' 24 6, w.extractLsb' 20 4, w.extractLsb' 8 12, w.extractLsb' 0 8⟩

/-- The word of given MAJ, MIN and Form E fields. -/
def FormE.toWord (maj min : BitVec 6) (f : FormE) : IWord :=
  maj ++ min ++ f.a ++ f.b ++ f.sz ++ f.step ++ f.cnt

/-- The fields of Form L: word 0 with its reserved bits 19-16, and the constant high16:low48 (R47). -/
structure FormL where
  g : Guard
  d : BitVec 6
  a : BitVec 6
  hi4 : BitVec 4
  const : BitVec 64
  deriving DecidableEq, Repr

/-- The Form L fields of two consecutive words (R46, R47). -/
def FormL.ofWords (w w1 : IWord) : FormL :=
  ⟨⟨w.extractLsb' 21 3, w.getLsbD 20⟩, w.extractLsb' 30 6, w.extractLsb' 24 6, w.extractLsb' 16 4,
    w.extractLsb' 0 16 ++ w1⟩

/-- Word 0 of a Form L pair. -/
def FormL.toWord0 (maj min : BitVec 6) (f : FormL) : IWord :=
  maj ++ min ++ f.d ++ f.a ++ f.g.p ++ BitVec.ofBool f.g.inv ++ f.hi4 ++ f.const.extractLsb' 48 16

/-- Word 1 of a Form L pair. -/
def FormL.toWord1 (f : FormL) : IWord := f.const.extractLsb' 0 48

/-- MAJ of a word: bits 47-42 (R45). -/
def wordMaj (w : IWord) : Nat := (w.extractLsb' 42 6).toNat
/-- MIN of a word: bits 41-36 (R45). -/
def wordMin (w : IWord) : Nat := (w.extractLsb' 36 6).toNat

/-- An instruction whose reserved fields passed their check, or the trap of step 6. -/
def rsv (ok : Bool) (i : Instr) : Except DecodeTrap Instr := if ok then .ok i else .error .reserved
/-- An instruction with no reserved field. -/
def acc (i : Instr) : Except DecodeTrap Instr := .ok i
/-- A field code that must name something, or the trap of step 6. -/
def opt {α : Type} (o : Option α) (k : α → Except DecodeTrap Instr) : Except DecodeTrap Instr :=
  match o with | some a => k a | none => .error .reserved

/-- MAJ 0x01, the Form S members: the row of each MIN, its reserved fields checked (R47, R48, R56). -/
def decode01S (min : Nat) (f : FormS) : Except DecodeTrap Instr :=
  match min with
  | 0x00 =>
    rsv (decide (f.c = 0 ∧ f.fx = 0)) (.add f.g f.d f.a f.b)
  | 0x01 =>
    rsv (decide (f.c = 0 ∧ f.fx = 0)) (.sub f.g f.d f.a f.b)
  | 0x02 =>
    rsv (decide (f.c = 0 ∧ f.fx = 0)) (.andR f.g f.d f.a f.b)
  | 0x03 =>
    rsv (decide (f.c = 0 ∧ f.fx = 0)) (.orR f.g f.d f.a f.b)
  | 0x04 =>
    rsv (decide (f.c = 0 ∧ f.fx = 0)) (.xorR f.g f.d f.a f.b)
  | 0x05 =>
    acc (.logt f.g f.d f.a f.b f.c f.fx)
  | 0x06 =>
    rsv (decide (f.c = 0 ∧ f.fx = 0)) (.shl f.g f.d f.a f.b)
  | 0x07 =>
    rsv (decide (f.c = 0 ∧ f.fx = 0)) (.shr f.g f.d f.a f.b)
  | 0x08 =>
    rsv (decide (f.c = 0 ∧ f.fx = 0)) (.sra f.g f.d f.a f.b)
  | 0x09 =>
    rsv (decide (f.c = 0 ∧ f.fx = 0)) (.rol f.g f.d f.a f.b)
  | 0x0A =>
    rsv (decide (f.c = 0 ∧ f.fx = 0)) (.minS f.g f.d f.a f.b)
  | 0x0B =>
    rsv (decide (f.c = 0 ∧ f.fx = 0)) (.maxS f.g f.d f.a f.b)
  | 0x0C =>
    rsv (decide (f.c = 0 ∧ f.fx = 0)) (.minu f.g f.d f.a f.b)
  | 0x0D =>
    rsv (decide (f.c = 0 ∧ f.fx = 0)) (.maxu f.g f.d f.a f.b)
  | 0x0E =>
    rsv (decide (f.c &&& 0x38 = 0 ∧ f.fx = 0)) (.sel f.g f.d f.a f.b (f.c.extractLsb' 0 3))
  | 0x0F =>
    rsv (decide (f.b = 0 ∧ f.c = 0 ∧ f.fx = 0)) (.abs f.g f.d f.a)
  | _ => .error .minUnassigned

/-- MAJ 0x02, the Form I members: the row of each MIN, its reserved fields checked (R47, R48, R56). -/
def decode02I (min : Nat) (f : FormI) : Except DecodeTrap Instr :=
  match min with
  | 0x00 =>
    acc (.addi f.g f.d f.a f.imm)
  | 0x01 =>
    acc (.andi f.g f.d f.a f.imm)
  | 0x02 =>
    acc (.ori f.g f.d f.a f.imm)
  | 0x03 =>
    acc (.xori f.g f.d f.a f.imm)
  | 0x04 =>
    rsv (decide (f.imm &&& 0xfffc0 = 0)) (.shli f.g f.d f.a (f.imm.extractLsb' 0 6))
  | 0x05 =>
    rsv (decide (f.imm &&& 0xfffc0 = 0)) (.shri f.g f.d f.a (f.imm.extractLsb' 0 6))
  | 0x06 =>
    rsv (decide (f.imm &&& 0xfffc0 = 0)) (.srai f.g f.d f.a (f.imm.extractLsb' 0 6))
  | 0x07 =>
    rsv (decide (f.a = 0)) (.li f.g f.d f.imm)
  | _ => .error .minUnassigned

/-- MAJ 0x03, the Form S members: the row of each MIN, its reserved fields checked (R47, R48, R56). -/
def decode03S (min : Nat) (f : FormS) : Except DecodeTrap Instr :=
  match min with
  | 0x00 =>
    rsv (decide (f.c = 0 ∧ f.fx = 0)) (.mul f.g f.d f.a f.b)
  | 0x01 =>
    rsv (decide (f.c = 0 ∧ f.fx = 0)) (.mulh f.g f.d f.a f.b)
  | 0x02 =>
    rsv (decide (f.c = 0 ∧ f.fx = 0)) (.mulhu f.g f.d f.a f.b)
  | 0x03 =>
    rsv (decide (f.fx = 0)) (.madd f.g f.d f.a f.b f.c)
  | 0x04 =>
    rsv (decide (f.c = 0 ∧ f.fx = 0)) (.div f.g f.d f.a f.b)
  | 0x05 =>
    rsv (decide (f.c = 0 ∧ f.fx = 0)) (.divu f.g f.d f.a f.b)
  | 0x06 =>
    rsv (decide (f.c = 0 ∧ f.fx = 0)) (.rem f.g f.d f.a f.b)
  | 0x07 =>
    rsv (decide (f.c = 0 ∧ f.fx = 0)) (.remu f.g f.d f.a f.b)
  | _ => .error .minUnassigned

/-- MAJ 0x04, the Form S members: the row of each MIN, its reserved fields checked (R47, R48, R56). -/
def decode04S (min : Nat) (f : FormS) : Except DecodeTrap Instr :=
  match min with
  | 0x00 =>
    rsv (decide (f.b = 0 ∧ f.c = 0 ∧ f.fx = 0)) (.clz f.g f.d f.a)
  | 0x01 =>
    rsv (decide (f.b = 0 ∧ f.c = 0 ∧ f.fx = 0)) (.ctz f.g f.d f.a)
  | 0x02 =>
    rsv (decide (f.b = 0 ∧ f.c = 0 ∧ f.fx = 0)) (.popc f.g f.d f.a)
  | 0x03 =>
    rsv (decide (f.b = 0 ∧ f.c = 0 ∧ f.fx = 0)) (.brev f.g f.d f.a)
  | 0x04 =>
    rsv (decide (f.b = 0 ∧ f.fx &&& 0xc0 = 0)) (.bfx f.g f.d f.a f.c (f.fx.extractLsb' 0 6))
  | 0x05 =>
    rsv (decide (f.b = 0 ∧ f.fx &&& 0xc0 = 0)) (.bfxu f.g f.d f.a f.c (f.fx.extractLsb' 0 6))
  | 0x06 =>
    rsv (decide (f.fx &&& 0xc0 = 0)) (.bfi f.g f.d f.a f.b f.c (f.fx.extractLsb' 0 6))
  | 0x07 =>
    rsv (decide (f.b = 0 ∧ f.c = 0 ∧ f.fx &&& 0xc0 = 0)) (.sext f.g f.d f.a (f.fx.extractLsb' 0 6))
  | _ => .error .minUnassigned

/-- MAJ 0x05, the Form I members: the row of each MIN, its reserved fields checked (R47, R48, R56). -/
def decode05I (min : Nat) (f : FormI) : Except DecodeTrap Instr :=
  match min with
  | 0x03 =>
    opt (CmpCond.ofCode? (f.d.extractLsb' 3 3)) fun cc => acc (.cmpi f.g cc (f.d.extractLsb' 0 3) f.a f.imm)
  | _ => .error .minUnassigned

/-- MAJ 0x05, the Form S members: the row of each MIN, its reserved fields checked (R47, R48, R56). -/
def decode05S (min : Nat) (f : FormS) : Except DecodeTrap Instr :=
  match min with
  | 0x00 =>
    opt (CmpCond.ofCode? (f.fx.extractLsb' 0 3)) fun cc => rsv (decide (f.d &&& 0x38 = 0 ∧ f.c = 0 ∧ f.fx &&& 0xf8 = 0))
        (.cmp f.g (f.d.extractLsb' 0 3) f.a f.b cc)
  | 0x01 =>
    rsv (decide (f.d &&& 0x38 = 0 ∧ f.a &&& 0x38 = 0 ∧ f.b &&& 0x38 = 0 ∧ f.c = 0 ∧ f.fx &&& 0xf0 = 0))
        (.plog f.g (f.d.extractLsb' 0 3) (f.a.extractLsb' 0 3) (f.b.extractLsb' 0 3) (f.fx.extractLsb' 0 4))
  | 0x02 =>
    if f.fx.extractLsb' 0 1 = 0 then rsv (decide (f.a = 0 ∧ f.b = 0 ∧ f.c = 0 ∧ f.fx &&& 0xfe = 0)) (.pmovGet f.g f.d)
    else if f.fx.extractLsb' 0 1 = 1 then rsv (decide (f.d = 0 ∧ f.b = 0 ∧ f.c = 0 ∧ f.fx &&& 0xfe = 0)) (.pmovPut f.g f.a)
    else .error .reserved
  | _ => .error .minUnassigned

/-- MAJ 0x06, the Form I members: the row of each MIN, its reserved fields checked (R47, R48, R56). -/
def decode06I (min : Nat) (f : FormI) : Except DecodeTrap Instr :=
  match min with
  | 0x01 =>
    acc (.leai f.g f.d f.a f.imm)
  | _ => .error .minUnassigned

/-- MAJ 0x06, the Form S members: the row of each MIN, its reserved fields checked (R47, R48, R56). -/
def decode06S (min : Nat) (f : FormS) : Except DecodeTrap Instr :=
  match min with
  | 0x00 =>
    rsv (decide (f.c = 0 ∧ f.fx &&& 0xfc = 0)) (.lea f.g f.d f.a f.b (f.fx.extractLsb' 0 2))
  | _ => .error .minUnassigned

/-- MAJ 0x07, the Form L members: the row of each MIN, its reserved fields checked (R47, R48, R56). -/
def decode07L (min : Nat) (f : FormL) : Except DecodeTrap Instr :=
  match min with
  | 0x00 =>
    rsv (decide (f.a = 0 ∧ f.hi4 = 0)) (.lil f.g f.d f.const)
  | 0x01 =>
    rsv (decide (f.d = 0 ∧ f.a = 0 ∧ f.hi4 = 0)) (.jmpl f.g f.const)
  | _ => .error .minUnassigned

/-- MAJ 0x08, the Form B members: the row of each MIN, its reserved fields checked (R47, R48, R56). -/
def decode08B (min : Nat) (f : FormB) : Except DecodeTrap Instr :=
  match min with
  | 0x00 =>
    acc (.br f.g f.disp)
  | 0x01 =>
    acc (.call f.g f.disp)
  | 0x02 =>
    acc (.callc f.g f.disp)
  | _ => .error .minUnassigned

/-- MAJ 0x09, the Form S members: the row of each MIN, its reserved fields checked (R47, R48, R56). -/
def decode09S (min : Nat) (f : FormS) : Except DecodeTrap Instr :=
  match min with
  | 0x00 =>
    rsv (decide (f.d = 0 ∧ f.b = 0 ∧ f.c = 0 ∧ f.fx = 0)) (.jmpr f.g f.a)
  | 0x01 =>
    rsv (decide (f.d = 0 ∧ f.b = 0 ∧ f.c = 0 ∧ f.fx = 0)) (.callr f.g f.a)
  | 0x02 =>
    rsv (decide (f.d = 0 ∧ f.b = 0 ∧ f.c = 0 ∧ f.fx = 0)) (.callcr f.g f.a)
  | 0x03 =>
    rsv (decide (f.d = 0 ∧ f.b = 0 ∧ f.c = 0 ∧ f.fx = 0)) (.ret f.g f.a)
  | 0x04 =>
    rsv (decide (f.d = 0 ∧ f.b = 0 ∧ f.c = 0 ∧ f.fx = 0)) (.retc f.g f.a)
  | _ => .error .minUnassigned

/-- MAJ 0x0A, the Form S members: the row of each MIN, its reserved fields checked (R47, R48, R56). -/
def decode0AS (min : Nat) (f : FormS) : Except DecodeTrap Instr :=
  match min with
  | 0x00 =>
    opt (Allot.ofCode? (f.fx.extractLsb' 4 2)) fun ax => opt (Allot.ofCode? (f.fx.extractLsb' 2 2)) fun am =>
        opt (Allot.ofCode? (f.fx.extractLsb' 0 2)) fun ac => rsv (decide (f.d = 0 ∧ f.a = 0 ∧ f.b = 0 ∧ f.c = 0 ∧ f.fx &&& 0xc0 = 0))
        (.fork f.g ax am ac)
  | 0x01 =>
    rsv (decide (f.d = 0 ∧ f.a = 0 ∧ f.b = 0 ∧ f.c = 0 ∧ f.fx = 0)) (.rdv f.g)
  | 0x02 =>
    rsv (decide (f.d = 0 ∧ f.b = 0 ∧ f.c = 0))
        (.rpt f.g f.a (f.fx.extractLsb' 6 2) (f.fx.extractLsb' 4 2) (f.fx.extractLsb' 2 2) (f.fx.extractLsb' 0 2))
  | 0x03 =>
    rsv (decide (f.d = 0 ∧ f.a = 0 ∧ f.b = 0 ∧ f.c = 0 ∧ f.fx = 0)) (.halt f.g)
  | 0x04 =>
    rsv (decide (f.d = 0 ∧ f.a = 0 ∧ f.b = 0 ∧ f.c = 0 ∧ f.fx = 0)) (.yield f.g)
  | _ => .error .minUnassigned

/-- MAJ 0x0B, the Form B members: the row of each MIN, its reserved fields checked (R47, R48, R56). -/
def decode0BB (min : Nat) (f : FormB) : Except DecodeTrap Instr :=
  match min with
  | 0x04 =>
    acc (.bqbr f.g f.disp)
  | _ => .error .minUnassigned

/-- MAJ 0x0B, the Form S members: the row of each MIN, its reserved fields checked (R47, R48, R56). -/
def decode0BS (min : Nat) (f : FormS) : Except DecodeTrap Instr :=
  match min with
  | 0x00 =>
    rsv (decide (f.d = 0 ∧ f.b = 0 ∧ f.c &&& 0x38 = 0 ∧ f.fx = 0)) (.dqput f.g f.a (f.c.extractLsb' 0 3))
  | 0x01 =>
    rsv (decide (f.a = 0 ∧ f.b = 0 ∧ f.c &&& 0x38 = 0 ∧ f.fx = 0)) (.dqget f.g f.d (f.c.extractLsb' 0 3))
  | 0x02 =>
    rsv (decide (f.d = 0 ∧ f.a = 0 ∧ f.b = 0 ∧ f.c &&& 0x38 = 0 ∧ f.fx = 0)) (.dqcls f.g (f.c.extractLsb' 0 3))
  | 0x03 =>
    rsv (decide (f.d = 0 ∧ f.a = 0 ∧ f.b = 0 ∧ f.c &&& 0x38 = 0 ∧ f.fx &&& 0xfe = 0)) (.bqput f.g (f.c.extractLsb' 0 3) (f.fx.getLsbD 0))
  | _ => .error .minUnassigned

/-- MAJ 0x0F, the Form S members: the row of each MIN, its reserved fields checked (R47, R48, R56). -/
def decode0FS (min : Nat) (f : FormS) : Except DecodeTrap Instr :=
  match min with
  | 0x00 =>
    opt (FenceKind.ofCode? (f.fx.extractLsb' 6 2)) fun kind => opt (Scope.ofCode? (f.fx.extractLsb' 3 3)) fun sc =>
        rsv (decide (f.d = 0 ∧ f.a = 0 ∧ f.b = 0 ∧ f.c &&& 0x38 = 0 ∧ f.fx &&& 0x7 = 0)) (.fence f.g kind sc (f.c.extractLsb' 0 3))
  | 0x01 =>
    rsv (decide (f.d = 0 ∧ f.a = 0 ∧ f.b = 0 ∧ f.c &&& 0x20 = 0 ∧ f.fx &&& 0xe0 = 0)) (.xfence f.g (f.fx.extractLsb' 0 5) (f.c.extractLsb' 0 5))
  | _ => .error .minUnassigned

/-- MAJ 0x10, the Form S members: the row of each MIN, its reserved fields checked (R47, R48, R56). -/
def decode10S (min : Nat) (f : FormS) : Except DecodeTrap Instr :=
  match min with
  | 0x03 =>
    opt (CtlWord.ofCode? f.fx f.c) fun w => rsv (decide (f.a = 0 ∧ f.b = 0)) (.cwrd f.g f.d w)
  | 0x04 =>
    opt (CtlWord.ofCode? f.fx f.c) fun w => rsv (decide (f.d = 0 ∧ f.b = 0)) (.cwwr f.g w f.a)
  | 0x00 =>
    rsv (decide (f.d = 0 ∧ f.a = 0 ∧ f.b = 0 ∧ f.c = 0)) (.trap f.g f.fx)
  | 0x01 =>
    if f.fx.extractLsb' 0 1 = 0 then rsv (decide (f.d = 0 ∧ f.a = 0 ∧ f.b = 0 ∧ f.c = 0 ∧ f.fx &&& 0xfe = 0)) (.tret f.g)
    else if f.fx.extractLsb' 0 1 = 1 then rsv (decide (f.d = 0 ∧ f.a = 0 ∧ f.b = 0 ∧ f.c = 0 ∧ f.fx &&& 0xfe = 0)) (.tretSkip f.g)
    else .error .reserved
  | 0x02 =>
    rsv (decide (f.d = 0 ∧ f.a = 0 ∧ f.b = 0 ∧ f.c = 0)) (.sysc f.g f.fx)
  | 0x05 =>
    rsv (decide (f.d = 0 ∧ f.a = 0 ∧ f.b = 0 ∧ f.c = 0 ∧ f.fx = 0)) (.nop f.g)
  | _ => .error .minUnassigned

/-- MAJ 0x11, the Form V members: the row of each MIN, its reserved fields checked (R47, R48, R56). -/
def decode11V (min : Nat) (f : FormV) : Except DecodeTrap Instr :=
  match min with
  | 0x00 =>
    opt (FType.ofCode? f.vx) fun ty => opt (RmField.ofCode? f.rm) fun rm => rsv (decide (f.vc = 0))
        (.vadd ty f.vd f.va f.vb (Modifier.ofBits f.amod) (Modifier.ofBits f.bmod) f.m rm)
  | 0x01 =>
    opt (FType.ofCode? f.vx) fun ty => opt (RmField.ofCode? f.rm) fun rm => rsv (decide (f.vc = 0))
        (.vsub ty f.vd f.va f.vb (Modifier.ofBits f.amod) (Modifier.ofBits f.bmod) f.m rm)
  | 0x02 =>
    opt (FType.ofCode? f.vx) fun ty => opt (RmField.ofCode? f.rm) fun rm => rsv (decide (f.vc = 0))
        (.vmul ty f.vd f.va f.vb (Modifier.ofBits f.amod) (Modifier.ofBits f.bmod) f.m rm)
  | 0x03 =>
    opt (FType.ofCode? f.vx) fun ty => opt (RmField.ofCode? f.rm) fun rm =>
        acc (.vfma ty f.vd f.va f.vb f.vc (Modifier.ofBits f.amod) (Modifier.ofBits f.bmod) f.m rm)
  | 0x04 =>
    opt (FType.ofCode? f.vx) fun ty => opt (RmField.ofCode? f.rm) fun rm =>
        acc (.vfms ty f.vd f.va f.vb f.vc (Modifier.ofBits f.amod) (Modifier.ofBits f.bmod) f.m rm)
  | 0x05 =>
    opt (FType.ofCode? f.vx) fun ty => rsv (decide (f.vc = 0 ∧ f.rm = 0))
        (.vmin ty f.vd f.va f.vb (Modifier.ofBits f.amod) (Modifier.ofBits f.bmod) f.m)
  | 0x06 =>
    opt (FType.ofCode? f.vx) fun ty => rsv (decide (f.vc = 0 ∧ f.rm = 0))
        (.vmax ty f.vd f.va f.vb (Modifier.ofBits f.amod) (Modifier.ofBits f.bmod) f.m)
  | 0x07 =>
    opt (FType.ofCode? f.vx) fun ty => rsv (decide (f.vb = 0 ∧ f.vc = 0 ∧ f.bmod = 0 ∧ f.rm = 0)) (.vabs ty f.vd f.va (Modifier.ofBits f.amod) f.m)
  | 0x08 =>
    opt (FType.ofCode? f.vx) fun ty => rsv (decide (f.vb = 0 ∧ f.vc = 0 ∧ f.bmod = 0 ∧ f.rm = 0)) (.vneg ty f.vd f.va (Modifier.ofBits f.amod) f.m)
  | _ => .error .minUnassigned

/-- MAJ 0x12, the Form V members: the row of each MIN, its reserved fields checked (R47, R48, R56). -/
def decode12V (min : Nat) (f : FormV) : Except DecodeTrap Instr :=
  match min with
  | 0x07 =>
    rsv (decide (f.bmod &&& 0xf = 0 ∧ f.rm = 0 ∧ f.vx = 0))
      (.vlogt f.vd f.va f.vb f.vc (f.amod ++ f.bmod.extractLsb' 4 2) f.m)
  | 0x00 =>
    opt (LaneW.ofCode? f.vx) fun w => opt (SatMode.ofCode? f.vc) fun mode => rsv (decide (f.rm = 0))
        (.viadd w mode f.vd f.va f.vb (Modifier.ofBits f.amod) (Modifier.ofBits f.bmod) f.m)
  | 0x01 =>
    opt (LaneW.ofCode? f.vx) fun w => opt (SatMode.ofCode? f.vc) fun mode => rsv (decide (f.rm = 0))
        (.visub w mode f.vd f.va f.vb (Modifier.ofBits f.amod) (Modifier.ofBits f.bmod) f.m)
  | 0x02 =>
    opt (LaneW.ofCode? f.vx) fun w => opt (SatMode.ofCode? f.vc) fun mode => rsv (decide (f.rm = 0))
        (.vimul w mode f.vd f.va f.vb (Modifier.ofBits f.amod) (Modifier.ofBits f.bmod) f.m)
  | 0x03 =>
    opt (LaneW.ofCode? f.vx) fun w => rsv (decide (f.rm = 0)) (.vimad w f.vd f.va f.vb f.vc (Modifier.ofBits f.amod) (Modifier.ofBits f.bmod) f.m)
  | 0x04 =>
    opt (LaneW.ofCode? f.vx) fun w => rsv (decide (f.vc = 0 ∧ f.rm = 0))
        (.vshl w f.vd f.va f.vb (Modifier.ofBits f.amod) (Modifier.ofBits f.bmod) f.m)
  | 0x05 =>
    opt (LaneW.ofCode? f.vx) fun w => rsv (decide (f.vc = 0 ∧ f.rm = 0))
        (.vshr w f.vd f.va f.vb (Modifier.ofBits f.amod) (Modifier.ofBits f.bmod) f.m)
  | 0x06 =>
    opt (LaneW.ofCode? f.vx) fun w => rsv (decide (f.vc = 0 ∧ f.rm = 0))
        (.vsra w f.vd f.va f.vb (Modifier.ofBits f.amod) (Modifier.ofBits f.bmod) f.m)
  | 0x08 =>
    opt (LaneW.ofCode? f.vx) fun w => rsv (decide (f.vc &&& 0xe = 0 ∧ f.rm = 0))
        (.vimin w (f.vc.getLsbD 0) f.vd f.va f.vb (Modifier.ofBits f.amod) (Modifier.ofBits f.bmod) f.m)
  | 0x09 =>
    opt (LaneW.ofCode? f.vx) fun w => rsv (decide (f.vc &&& 0xe = 0 ∧ f.rm = 0))
        (.vimax w (f.vc.getLsbD 0) f.vd f.va f.vb (Modifier.ofBits f.amod) (Modifier.ofBits f.bmod) f.m)
  | _ => .error .minUnassigned

/-- MAJ 0x13, the Form V members: the row of each MIN, its reserved fields checked (R47, R48, R56). -/
def decode13V (min : Nat) (f : FormV) : Except DecodeTrap Instr :=
  match min with
  | 0x00 =>
    opt (VCmpType.ofCode? f.vx) fun ty => opt (VCmpCond.ofCode? f.vc) fun cc => rsv (decide (f.vd &&& 0x8 = 0 ∧ f.amod = 0 ∧ f.bmod = 0 ∧ f.rm = 0))
        (.vcmp ty cc (f.vd.extractLsb' 0 3) f.va f.vb f.m)
  | 0x01 =>
    rsv (decide (f.vc = 0 ∧ f.amod = 0 ∧ f.bmod = 0 ∧ f.rm = 0 ∧ f.vx = 0)) (.vsel f.vd f.va f.vb f.m)
  | 0x02 =>
    rsv (decide (f.vd &&& 0x8 = 0 ∧ f.va &&& 0x8 = 0 ∧ f.vb &&& 0x8 = 0 ∧ f.amod = 0 ∧ f.bmod = 0 ∧ f.rm = 0 ∧ f.vx = 0))
        (.vmsk (f.vd.extractLsb' 0 3) (f.va.extractLsb' 0 3) (f.vb.extractLsb' 0 3) f.vc f.m)
  | _ => .error .minUnassigned

/-- MAJ 0x14, the Form V members: the row of each MIN, its reserved fields checked (R47, R48, R56). -/
def decode14V (min : Nat) (f : FormV) : Except DecodeTrap Instr :=
  match min with
  | 0x00 =>
    rsv (decide (f.vb = 0 ∧ f.vc = 0 ∧ f.amod = 0 ∧ f.bmod = 0 ∧ f.rm = 0 ∧ f.vx = 0)) (.vrcp f.vd f.va f.m)
  | 0x01 =>
    rsv (decide (f.vb = 0 ∧ f.vc = 0 ∧ f.amod = 0 ∧ f.bmod = 0 ∧ f.rm = 0 ∧ f.vx = 0)) (.vrsq f.vd f.va f.m)
  | 0x02 =>
    opt (RmField.ofCode? f.rm) fun rm => rsv (decide (f.vc = 0 ∧ f.amod = 0 ∧ f.bmod = 0 ∧ f.vx = 0)) (.vrcpr f.vd f.va f.vb f.m rm)
  | 0x03 =>
    opt (RmField.ofCode? f.rm) fun rm => rsv (decide (f.vc = 0 ∧ f.amod = 0 ∧ f.bmod = 0 ∧ f.vx = 0)) (.vrsqr f.vd f.va f.vb f.m rm)
  | 0x04 =>
    rsv (decide (f.vb = 0 ∧ f.vc = 0 ∧ f.amod = 0 ∧ f.bmod = 0 ∧ f.rm = 0 ∧ f.vx = 0)) (.vexp2 f.vd f.va f.m)
  | 0x05 =>
    rsv (decide (f.vb = 0 ∧ f.vc = 0 ∧ f.amod = 0 ∧ f.bmod = 0 ∧ f.rm = 0 ∧ f.vx = 0)) (.vlog2 f.vd f.va f.m)
  | 0x06 =>
    rsv (decide (f.vb = 0 ∧ f.vc = 0 ∧ f.amod = 0 ∧ f.bmod = 0 ∧ f.rm = 0 ∧ f.vx = 0)) (.vtanh f.vd f.va f.m)
  | _ => .error .minUnassigned

/-- MAJ 0x15, the Form V members: the row of each MIN, its reserved fields checked (R47, R48, R56). -/
def decode15V (min : Nat) (f : FormV) : Except DecodeTrap Instr :=
  match min with
  | 0x00 =>
    opt (CvtType.ofCode? f.vb) fun src => opt (CvtType.ofCode? f.vc) fun dst => opt (RmField.ofCode? f.rm) fun rm =>
        rsv (decide (f.bmod = 0 ∧ f.vx &&& 0x2 = 0)) (.vcvt src dst (f.vx.getLsbD 0) f.vd f.va (Modifier.ofBits f.amod) f.m rm)
  | 0x01 =>
    opt (LaneW.ofCode? f.vx) fun w => rsv (decide (f.vc = 0 ∧ f.amod = 0 ∧ f.bmod = 0 ∧ f.rm = 0)) (.vpack w f.vd f.va f.vb f.m)
  | 0x02 =>
    opt (LaneW.ofCode? f.vx) fun w => rsv (decide (f.vb &&& 0x8 = 0 ∧ f.vc &&& 0xe = 0 ∧ f.amod = 0 ∧ f.bmod = 0 ∧ f.rm = 0))
        (.vunpk w (f.vc.getLsbD 0) f.vd f.va (f.vb.extractLsb' 0 3) f.m)
  | _ => .error .minUnassigned

/-- MAJ 0x16, the Form V members: the row of each MIN, its reserved fields checked (R47, R48, R56). -/
def decode16V (min : Nat) (f : FormV) : Except DecodeTrap Instr :=
  match min with
  | 0x00 =>
    rsv (decide (f.vb = 0 ∧ f.vc = 0 ∧ f.amod = 0 ∧ f.rm = 0 ∧ f.vx = 0)) (.vrotr f.vd f.va f.bmod f.m)
  | 0x01 =>
    rsv (decide (f.vb = 0 ∧ f.vc = 0 ∧ f.amod = 0 ∧ f.rm = 0 ∧ f.vx = 0)) (.vbcr f.vd f.va f.bmod f.m)
  | 0x02 =>
    opt (RedOp.ofCode? f.vc) fun op => opt (RmField.ofCode? f.rm) fun rm => rsv (decide (f.vb = 0 ∧ f.amod = 0 ∧ f.bmod = 0 ∧ f.vx = 0))
        (.vredr op f.vd f.va f.m rm)
  | 0x03 =>
    opt (RedOp.ofCode? f.vc) fun op => opt (RmField.ofCode? f.rm) fun rm => rsv (decide (f.vb = 0 ∧ f.amod = 0 ∧ f.bmod = 0 ∧ f.vx = 0))
        (.vscnr op f.vd f.va f.m rm)
  | _ => .error .minUnassigned

/-- MAJ 0x17, the Form V members: the row of each MIN, its reserved fields checked (R47, R48, R56). -/
def decode17V (min : Nat) (f : FormV) : Except DecodeTrap Instr :=
  match min with
  | 0x00 =>
    rsv (decide (f.vb = 0 ∧ f.vc = 0 ∧ f.amod = 0 ∧ f.bmod &&& 0x30 = 0 ∧ f.rm = 0 ∧ f.vx = 0)) (.vrotc f.vd f.va (f.bmod.extractLsb' 0 4) f.m)
  | 0x01 =>
    rsv (decide (f.vb = 0 ∧ f.vc = 0 ∧ f.amod = 0 ∧ f.bmod &&& 0x30 = 0 ∧ f.rm = 0 ∧ f.vx = 0)) (.vbcc f.vd f.va (f.bmod.extractLsb' 0 4) f.m)
  | 0x02 =>
    opt (RedOp.ofCode? f.vc) fun op => opt (RmField.ofCode? f.rm) fun rm => rsv (decide (f.vb = 0 ∧ f.amod = 0 ∧ f.bmod = 0 ∧ f.vx = 0))
        (.vredc op f.vd f.va f.m rm)
  | 0x03 =>
    opt (RedOp.ofCode? f.vc) fun op => opt (RmField.ofCode? f.rm) fun rm => rsv (decide (f.vb = 0 ∧ f.amod = 0 ∧ f.bmod = 0 ∧ f.vx = 0))
        (.vscnc op f.vd f.va f.m rm)
  | _ => .error .minUnassigned

/-- MAJ 0x18, the Form V members: the row of each MIN, its reserved fields checked (R47, R48, R56). -/
def decode18V (min : Nat) (f : FormV) : Except DecodeTrap Instr :=
  match min with
  | 0x00 =>
    rsv (decide (f.vc = 0 ∧ f.amod = 0 ∧ f.bmod = 0 ∧ f.rm = 0 ∧ f.vx = 0)) (.vperm f.vd f.va f.vb f.m)
  | 0x01 =>
    rsv (decide (f.vb = 0 ∧ f.vc = 0 ∧ f.bmod = 0 ∧ f.rm = 0 ∧ f.vx = 0)) (.vmov f.vd f.va (Modifier.ofBits f.amod) f.m)
  | 0x02 =>
    rsv (decide (f.va = 0 ∧ f.vb = 0 ∧ f.vc = 0 ∧ f.bmod = 0 ∧ f.rm = 0 ∧ f.vx = 0)) (.vmovs f.vd f.amod f.m)
  | 0x03 =>
    rsv (decide (f.vd = 0 ∧ f.vb = 0 ∧ f.vc = 0 ∧ f.bmod = 0 ∧ f.rm = 0 ∧ f.vx &&& 0x2 = 0)) (.vmovx f.amod f.va (f.vx.getLsbD 0) f.m)
  | _ => .error .minUnassigned

/-- MAJ 0x19, the Form V members: the row of each MIN, its reserved fields checked (R47, R48, R56). -/
def decode19V (min : Nat) (f : FormV) : Except DecodeTrap Instr :=
  match min with
  | 0x00 =>
    rsv (decide (f.vd &&& 0xc = 0 ∧ f.vb = 0 ∧ f.vc = 0 ∧ f.amod = 0 ∧ f.bmod &&& 0x3c = 0 ∧ f.rm = 0 ∧ f.vx = 0))
        (.zwr (f.vd.extractLsb' 0 2) f.va (f.bmod.extractLsb' 0 2) f.m)
  | 0x01 =>
    opt (CvtType.ofCode? f.vb) fun src => opt (CvtType.ofCode? f.vc) fun dst => opt (RmField.ofCode? f.rm) fun rm =>
        rsv (decide (f.va &&& 0xc = 0 ∧ f.amod = 0 ∧ f.bmod &&& 0x3c = 0 ∧ f.vx &&& 0x2 = 0))
        (.zrd src dst (f.vx.getLsbD 0) f.vd (f.va.extractLsb' 0 2) (f.bmod.extractLsb' 0 2) f.m rm)
  | 0x02 =>
    rsv (decide (f.vd &&& 0xc = 0 ∧ f.va = 0 ∧ f.vb = 0 ∧ f.vc = 0 ∧ f.amod = 0 ∧ f.bmod = 0 ∧ f.m = 0 ∧ f.rm = 0 ∧ f.vx = 0))
        (.zclr (f.vd.extractLsb' 0 2))
  | _ => .error .minUnassigned

/-- MAJ 0x1A, the Form V members: the row of each MIN, its reserved fields checked (R47, R48, R56). -/
def decode1AV (min : Nat) (f : FormV) : Except DecodeTrap Instr :=
  match min with
  | 0x00 =>
    rsv (decide (f.vd = 0 ∧ f.vb = 0 ∧ f.vc = 0 ∧ f.amod = 0 ∧ f.rm = 0 ∧ f.vx = 0)) (.defer f.va f.bmod f.m)
  | 0x01 =>
    rsv (decide (f.va = 0 ∧ f.vb = 0 ∧ f.vc = 0 ∧ f.amod = 0 ∧ f.rm = 0 ∧ f.vx = 0)) (.drain f.vd f.bmod f.m)
  | 0x02 =>
    rsv (decide (f.vd = 0 ∧ f.va = 0 ∧ f.vb = 0 ∧ f.vc = 0 ∧ f.m = 0 ∧ f.rm = 0 ∧ f.vx = 0)) (.dfcnt f.amod f.bmod)
  | _ => .error .minUnassigned

/-- MAJ 0x1B, the Form S members: the row of each MIN, its reserved fields checked (R47, R48, R56). -/
def decode1BS (min : Nat) (f : FormS) : Except DecodeTrap Instr :=
  match min with
  | 0x00 =>
    rsv (decide (f.d &&& 0x30 = 0 ∧ f.c &&& 0x38 = 0 ∧ f.fx &&& 0xfe = 0))
        (.vld f.g (f.d.extractLsb' 0 4) f.a f.b (f.c.extractLsb' 0 3) (f.fx.getLsbD 0))
  | 0x01 =>
    rsv (decide (f.d &&& 0x30 = 0 ∧ f.c &&& 0x38 = 0 ∧ f.fx &&& 0xfe = 0))
        (.vst f.g (f.d.extractLsb' 0 4) f.a f.b (f.c.extractLsb' 0 3) (f.fx.getLsbD 0))
  | 0x02 =>
    rsv (decide (f.d &&& 0x30 = 0 ∧ f.b &&& 0x30 = 0 ∧ f.c &&& 0x38 = 0 ∧ f.fx &&& 0xfe = 0))
        (.vgath f.g (f.d.extractLsb' 0 4) f.a (f.b.extractLsb' 0 4) (f.c.extractLsb' 0 3) (f.fx.getLsbD 0))
  | 0x03 =>
    rsv (decide (f.d &&& 0x30 = 0 ∧ f.b &&& 0x30 = 0 ∧ f.c &&& 0x38 = 0 ∧ f.fx &&& 0xfe = 0))
        (.vscat f.g (f.d.extractLsb' 0 4) f.a (f.b.extractLsb' 0 4) (f.c.extractLsb' 0 3) (f.fx.getLsbD 0))
  | _ => .error .minUnassigned

/-- MAJ 0x1C, the Form S members: the row of each MIN, its reserved fields checked (R47, R48, R56). -/
def decode1CS (min : Nat) (f : FormS) : Except DecodeTrap Instr :=
  match min with
  | 0x00 =>
    opt (BlkClass.ofCode? (f.fx.extractLsb' 0 2)) fun k => rsv (decide (f.d &&& 0x30 = 0 ∧ f.b = 0 ∧ f.c &&& 0x38 = 0 ∧ f.fx &&& 0xfc = 0))
        (.qst f.g k (f.d.extractLsb' 0 4) f.a (f.c.extractLsb' 0 3))
  | 0x01 =>
    opt (BlkClass.ofCode? (f.fx.extractLsb' 0 2)) fun k => rsv (decide (f.d &&& 0x30 = 0 ∧ f.b = 0 ∧ f.c &&& 0x38 = 0 ∧ f.fx &&& 0xfc = 0))
        (.qld f.g k (f.d.extractLsb' 0 4) f.a (f.c.extractLsb' 0 3))
  | 0x02 =>
    opt (BlkClass.ofCode? (f.fx.extractLsb' 0 2)) fun k => rsv (decide (f.d = 0 ∧ f.b = 0 ∧ f.c = 0 ∧ f.fx &&& 0xf8 = 0))
        (.lvld f.g k (f.fx.getLsbD 2) f.a)
  | 0x03 =>
    rsv (decide (f.b = 0 ∧ f.c = 0 ∧ f.fx = 0)) (.qcfg f.g f.d f.a)
  | _ => .error .minUnassigned

/-- MAJ 0x20, the Form E members: the row of each MIN, its reserved fields checked (R47, R48, R56). -/
def decode20E (min : Nat) (f : FormE) : Except DecodeTrap Instr :=
  match min with
  | 0x00 =>
    acc (.cpy f.a f.b f.sz f.step f.cnt)
  | 0x01 =>
    acc (.cpys f.a f.b f.sz f.step f.cnt)
  | 0x02 =>
    acc (.cpyg f.a f.b f.sz f.step f.cnt)
  | 0x03 =>
    acc (.cpyx f.a f.b f.sz f.step f.cnt)
  | _ => .error .minUnassigned

/-- MAJ 0x21, the Form S members: the row of each MIN, its reserved fields checked (R47, R48, R56). -/
def decode21S (min : Nat) (f : FormS) : Except DecodeTrap Instr :=
  match min with
  | 0x00 =>
    rsv (decide (f.b = 0 ∧ f.c = 0)) (.tdef f.g f.d f.fx f.a)
  | 0x01 =>
    opt (TsetState.ofCode? f.c) fun ts => rsv (decide (f.a = 0 ∧ f.b = 0)) (.tset f.g f.d f.fx ts)
  | 0x02 =>
    rsv (decide (f.d = 0 ∧ f.a = 0 ∧ f.b = 0 ∧ f.c = 0)) (.trel f.g f.fx)
  | 0x03 =>
    opt (BankMode.ofCode? (f.fx.extractLsb' 0 2)) fun mode => rsv (decide (f.a = 0 ∧ f.b = 0 ∧ f.fx &&& 0xfc = 0)) (.bankcfg f.g f.d f.c mode)
  | _ => .error .minUnassigned

/-- MAJ 0x22, the Form S members: the row of each MIN, its reserved fields checked (R47, R48, R56). -/
def decode22S (min : Nat) (f : FormS) : Except DecodeTrap Instr :=
  match min with
  | 0x00 =>
    opt (FlagTarget.ofCode? (f.fx.extractLsb' 0 2)) fun tg => rsv (decide (f.d = 0 ∧ f.a = 0 ∧ f.b = 0 ∧ f.fx &&& 0xfc = 0)) (.fset f.g f.c tg)
  | 0x01 =>
    opt (FlagTarget.ofCode? (f.fx.extractLsb' 0 2)) fun tg => rsv (decide (f.d = 0 ∧ f.a = 0 ∧ f.b = 0 ∧ f.fx &&& 0xfc = 0)) (.fwait f.g f.c tg)
  | 0x02 =>
    opt (FlagTarget.ofCode? (f.fx.extractLsb' 0 2)) fun tg => rsv (decide (f.d = 0 ∧ f.a = 0 ∧ f.b = 0 ∧ f.fx &&& 0xfc = 0)) (.fclr f.g f.c tg)
  | _ => .error .minUnassigned

/-- MAJ 0x23, the Form S members: the row of each MIN, its reserved fields checked (R47, R48, R56). -/
def decode23S (min : Nat) (f : FormS) : Except DecodeTrap Instr :=
  match min with
  | 0x00 =>
    rsv (decide (f.d = 0 ∧ f.c &&& 0x38 = 0 ∧ f.fx = 0)) (.lnt f.g f.a f.b (f.c.extractLsb' 0 3))
  | 0x01 =>
    rsv (decide (f.d = 0 ∧ f.c = 0 ∧ f.fx = 0)) (.mopa f.g f.a f.b)
  | 0x02 =>
    rsv (decide (f.d = 0 ∧ f.c = 0 ∧ f.fx = 0)) (.mopb f.g f.a f.b)
  | 0x03 =>
    rsv (decide (f.d = 0 ∧ f.b = 0 ∧ f.c = 0 ∧ f.fx = 0)) (.mopc f.g f.a)
  | 0x04 =>
    rsv (decide (f.d = 0 ∧ f.b = 0 ∧ f.c = 0 ∧ f.fx = 0)) (.idxv f.g f.a)
  | 0x05 =>
    rsv (decide (f.d = 0 ∧ f.a = 0 ∧ f.b = 0 ∧ f.c &&& 0x38 = 0 ∧ f.fx = 0)) (.mgo f.g (f.c.extractLsb' 0 3))
  | 0x06 =>
    rsv (decide (f.d = 0 ∧ f.a = 0 ∧ f.b = 0 ∧ f.c &&& 0x30 = 0 ∧ f.fx = 0)) (.mwait f.g (f.c.extractLsb' 0 4))
  | 0x07 =>
    if f.fx.extractLsb' 0 1 = 0 then rsv (decide (f.a = 0 ∧ f.b = 0 ∧ f.c = 0 ∧ f.fx &&& 0xfe = 0)) (.mstat f.g f.d)
    else if f.fx.extractLsb' 0 1 = 1 then rsv (decide (f.a = 0 ∧ f.b = 0 ∧ f.c = 0 ∧ f.fx &&& 0xfe = 0)) (.mstatClr f.g f.d)
    else .error .reserved
  | _ => .error .minUnassigned

/-- MAJ 0x24, the Form S members: the row of each MIN, its reserved fields checked (R47, R48, R56). -/
def decode24S (min : Nat) (f : FormS) : Except DecodeTrap Instr :=
  match min with
  | 0x00 =>
    rsv (decide (f.a = 0 ∧ f.b = 0 ∧ f.fx = 0)) (.abal f.g f.d f.c)
  | 0x01 =>
    rsv (decide (f.d = 0 ∧ f.b = 0 ∧ f.fx = 0)) (.abfr f.g f.a f.c)
  | 0x02 =>
    rsv (decide (f.d = 0 ∧ f.fx &&& 0xfe = 0)) (.ainit f.g f.a f.b f.c (f.fx.getLsbD 0))
  | 0x03 =>
    rsv (decide (f.d = 0 ∧ f.b = 0 ∧ f.fx &&& 0xfe = 0)) (.anrm f.g f.a f.c (f.fx.getLsbD 0))
  | 0x04 =>
    opt (AccFmt.ofCode? (f.fx.extractLsb' 0 2)) fun fmt => rsv (decide (f.d &&& 0x30 = 0 ∧ f.b = 0 ∧ f.c &&& 0x38 = 0 ∧ f.fx &&& 0xfc = 0))
        (.ard f.g fmt (f.d.extractLsb' 0 4) f.a (f.c.extractLsb' 0 3))
  | 0x05 =>
    opt (AccFmt.ofCode? (f.fx.extractLsb' 0 2)) fun fmt => rsv (decide (f.d &&& 0x30 = 0 ∧ f.b = 0 ∧ f.c &&& 0x38 = 0 ∧ f.fx &&& 0xfc = 0))
        (.awr f.g fmt (f.d.extractLsb' 0 4) f.a (f.c.extractLsb' 0 3))
  | _ => .error .minUnassigned

/-- MAJ 0x25, the Form S members: the row of each MIN, its reserved fields checked (R47, R48, R56). -/
def decode25S (min : Nat) (f : FormS) : Except DecodeTrap Instr :=
  match min with
  | 0x00 =>
    rsv (decide (f.b = 0 ∧ f.c = 0 ∧ f.fx = 0)) (.efcap f.g f.d f.a)
  | 0x01 =>
    rsv (decide (f.c = 0 ∧ f.fx = 0)) (.ecat f.g f.d f.a f.b)
  | 0x02 =>
    rsv (decide (f.fx &&& 0xfe = 0)) (.eflt f.g f.d f.a f.b f.c (f.fx.getLsbD 0))
  | 0x03 =>
    rsv (decide (f.fx = 0)) (.ereb f.g f.d f.a f.b f.c)
  | 0x04 =>
    if f.fx.extractLsb' 3 1 = 0 then rsv (decide (f.d = 0 ∧ f.b = 0 ∧ f.c = 0 ∧ f.fx &&& 0xf7 = 0)) (.eapl f.g f.a)
    else if f.fx.extractLsb' 3 1 = 1 then opt (Scope.ofCode? (f.fx.extractLsb' 0 3)) fun sc =>
        rsv (decide (f.d = 0 ∧ f.b = 0 ∧ f.c &&& 0x38 = 0 ∧ f.fx &&& 0xf0 = 0)) (.eaplRel f.g f.a sc (f.c.extractLsb' 0 3))
    else .error .reserved
  | 0x05 =>
    rsv (decide (f.d = 0 ∧ f.b = 0 ∧ f.c = 0 ∧ f.fx = 0)) (.edrp f.g f.a)
  | 0x06 =>
    if f.fx.extractLsb' 0 1 = 0 then rsv (decide (f.b = 0 ∧ f.c = 0 ∧ f.fx &&& 0xfe = 0)) (.ecnt f.g f.d f.a)
    else if f.fx.extractLsb' 0 1 = 1 then rsv (decide (f.a = 0 ∧ f.b = 0 ∧ f.c = 0 ∧ f.fx &&& 0xfe = 0)) (.ecntArena f.g f.d)
    else .error .reserved
  | _ => .error .minUnassigned

/-- MAJ 0x26, the Form S members: the row of each MIN, its reserved fields checked (R47, R48, R56). -/
def decode26S (min : Nat) (f : FormS) : Except DecodeTrap Instr :=
  match min with
  | 0x00 =>
    rsv (decide (f.a = 0 ∧ f.b = 0 ∧ f.c = 0 ∧ f.fx = 0)) (.ssync f.g f.d)
  | 0x01 =>
    rsv (decide (f.a = 0 ∧ f.b = 0 ∧ f.c &&& 0x38 = 0)) (.bara f.g f.d (f.c.extractLsb' 0 3) (f.fx.extractLsb' 4 4) (f.fx.extractLsb' 0 4))
  | 0x02 =>
    rsv (decide (f.d = 0 ∧ f.b = 0 ∧ f.c &&& 0x38 = 0 ∧ f.fx &&& 0xf0 = 0)) (.barw f.g f.a (f.c.extractLsb' 0 3) (f.fx.extractLsb' 0 4))
  | 0x03 =>
    rsv (decide (f.d = 0 ∧ f.a = 0 ∧ f.b = 0 ∧ f.c &&& 0x38 = 0)) (.baraw f.g (f.c.extractLsb' 0 3) (f.fx.extractLsb' 4 4) (f.fx.extractLsb' 0 4))
  | 0x04 =>
    rsv (decide (f.d = 0 ∧ f.b = 0 ∧ f.c = 0 ∧ f.fx = 0)) (.xplan f.g f.a)
  | _ => .error .minUnassigned

/-- MAJ 0x27, the Form S members: the row of each MIN, its reserved fields checked (R47, R48, R56). -/
def decode27S (min : Nat) (f : FormS) : Except DecodeTrap Instr :=
  match min with
  | 0x04 =>
    rsv (decide (f.d = 0 ∧ f.a = 0 ∧ f.b = 0 ∧ f.c &&& 0x38 = 0 ∧ f.fx = 0)) (.collw f.g (f.c.extractLsb' 0 3))
  | 0x00 =>
    rsv (decide (f.a = 0 ∧ f.b = 0 ∧ f.c &&& 0x38 = 0 ∧ f.fx = 0)) (.grank f.g f.d (f.c.extractLsb' 0 3))
  | 0x01 =>
    if f.fx.extractLsb' 0 1 = 0 then rsv (decide (f.a = 0 ∧ f.b = 0 ∧ f.c &&& 0x38 = 0 ∧ f.fx &&& 0xfe = 0)) (.gsize f.g f.d (f.c.extractLsb' 0 3))
    else if f.fx.extractLsb' 0 1 = 1 then rsv (decide (f.b = 0 ∧ f.c &&& 0x38 = 0 ∧ f.fx &&& 0xfe = 0)) (.gsizeShr f.g f.d f.a (f.c.extractLsb' 0 3))
    else .error .reserved
  | 0x02 =>
    if f.fx.extractLsb' 0 2 = 0 then rsv (decide (f.a = 0 ∧ f.b = 0 ∧ f.c &&& 0x38 = 0 ∧ f.fx &&& 0xfc = 0)) (.gnbrNext f.g f.d (f.c.extractLsb' 0 3))
    else if f.fx.extractLsb' 0 2 = 1 then rsv (decide (f.a = 0 ∧ f.b = 0 ∧ f.c &&& 0x38 = 0 ∧ f.fx &&& 0xfc = 0))
        (.gnbrPrev f.g f.d (f.c.extractLsb' 0 3))
    else if f.fx.extractLsb' 0 2 = 2 then rsv (decide (f.a = 0 ∧ f.b = 0 ∧ f.c &&& 0x38 = 0 ∧ f.fx &&& 0x80 = 0))
        (.gnbrXor f.g f.d (f.c.extractLsb' 0 3) (f.fx.extractLsb' 2 5))
    else .error .reserved
  | 0x03 =>
    opt (CollKind.ofCode? (f.fx.extractLsb' 5 3)) fun kind => opt (CollOp.ofCode? (f.fx.extractLsb' 3 2)) fun op =>
        opt (CollType.ofCode? (f.fx.extractLsb' 0 3)) fun ty => rsv (decide (f.c &&& 0x38 = 0))
        (.coll f.g kind op ty f.d f.a f.b (f.c.extractLsb' 0 3))
  | _ => .error .minUnassigned

/-- MAJ 0x28, the Form S members: the row of each MIN, its reserved fields checked (R47, R48, R56). -/
def decode28S (min : Nat) (f : FormS) : Except DecodeTrap Instr :=
  match min with
  | 0x00 =>
    rsv (decide (f.c = 0 ∧ f.fx = 0)) (.launch f.g f.d f.a f.b)
  | _ => .error .minUnassigned

/-- MAJ 0x30, the Form S members: the row of each MIN, its reserved fields checked (R47, R48, R56). -/
def decode30S (min : Nat) (f : FormS) : Except DecodeTrap Instr :=
  match min with
  | 0x00 =>
    if f.fx.extractLsb' 0 2 = 0 then rsv (decide (f.b = 0 ∧ f.c = 0 ∧ f.fx &&& 0xfc = 0)) (.scoutStop f.g f.d f.a)
    else if f.fx.extractLsb' 0 2 = 1 then rsv (decide (f.c = 0 ∧ f.fx &&& 0xfc = 0)) (.scoutShift f.g f.d f.a f.b)
    else if f.fx.extractLsb' 0 2 = 2 then rsv (decide (f.b = 0 ∧ f.c = 0 ∧ f.fx &&& 0xfc = 0)) (.scoutResume f.g f.d f.a)
    else .error .reserved
  | 0x01 =>
    rsv (decide (f.c = 0 ∧ f.fx = 0)) (.scin f.g f.d f.a f.b)
  | 0x02 =>
    if f.fx.extractLsb' 0 1 = 0 then rsv (decide (f.b = 0 ∧ f.c = 0 ∧ f.fx &&& 0xfe = 0)) (.scver f.g f.d f.a)
    else if f.fx.extractLsb' 0 1 = 1 then rsv (decide (f.a = 0 ∧ f.b = 0 ∧ f.c = 0 ∧ f.fx &&& 0xfe = 0)) (.scverPart f.g f.d)
    else .error .reserved
  | 0x03 =>
    if f.fx.extractLsb' 0 2 = 0 then rsv (decide (f.c = 0 ∧ f.fx &&& 0xfc = 0)) (.ownsetCore f.g f.d f.a f.b)
    else if f.fx.extractLsb' 0 2 = 1 then rsv (decide (f.c = 0 ∧ f.fx &&& 0xfc = 0)) (.ownsetBank f.g f.d f.a f.b)
    else if f.fx.extractLsb' 0 2 = 2 then rsv (decide (f.c = 0 ∧ f.fx &&& 0xfc = 0)) (.ownsetAcm f.g f.d f.a f.b)
    else .error .reserved
  | 0x04 =>
    if f.fx.extractLsb' 0 1 = 0 then rsv (decide (f.b = 0 ∧ f.c = 0 ∧ f.fx &&& 0xfe = 0)) (.preqClr f.g f.d f.a)
    else if f.fx.extractLsb' 0 1 = 1 then rsv (decide (f.b = 0 ∧ f.c = 0 ∧ f.fx &&& 0xfe = 0)) (.preqSet f.g f.d f.a)
    else .error .reserved
  | 0x05 =>
    rsv (decide (f.b = 0 ∧ f.c = 0 ∧ f.fx = 0)) (.cutb f.g f.d f.a)
  | 0x06 =>
    rsv (decide (f.c = 0 ∧ f.fx = 0)) (.idem f.g f.d f.a f.b)
  | 0x07 =>
    if f.fx.extractLsb' 0 1 = 0 then rsv (decide (f.b = 0 ∧ f.c = 0 ∧ f.fx &&& 0xfe = 0)) (.tmarkQ f.g f.d f.a)
    else if f.fx.extractLsb' 0 1 = 1 then rsv (decide (f.b = 0 ∧ f.c = 0 ∧ f.fx &&& 0xfe = 0)) (.tmarkF f.g f.d f.a)
    else .error .reserved
  | _ => .error .minUnassigned

/-- MAJ 0x31, the Form S members: the row of each MIN, its reserved fields checked (R47, R48, R56). -/
def decode31S (min : Nat) (f : FormS) : Except DecodeTrap Instr :=
  match min with
  | 0x00 =>
    if f.fx.extractLsb' 0 2 = 0 then rsv (decide (f.c = 0 ∧ f.fx &&& 0xfc = 0)) (.tlbiPage f.g f.d f.a f.b)
    else if f.fx.extractLsb' 0 2 = 1 then rsv (decide (f.b = 0 ∧ f.c = 0 ∧ f.fx &&& 0xfc = 0)) (.tlbiCtx f.g f.d f.a)
    else if f.fx.extractLsb' 0 2 = 2 then rsv (decide (f.a = 0 ∧ f.b = 0 ∧ f.c = 0 ∧ f.fx &&& 0xfc = 0)) (.tlbiAll f.g f.d)
    else if f.fx.extractLsb' 0 2 = 3 then rsv (decide (f.a = 0 ∧ f.c = 0 ∧ f.fx &&& 0xfc = 0)) (.tlbiPte f.g f.d f.b)
    else .error .reserved
  | 0x01 =>
    if f.fx.extractLsb' 0 1 = 0 then rsv (decide (f.b = 0 ∧ f.c = 0 ∧ f.fx &&& 0xfe = 0)) (.pgret f.g f.d f.a)
    else if f.fx.extractLsb' 0 1 = 1 then rsv (decide (f.b = 0 ∧ f.c = 0 ∧ f.fx &&& 0xfe = 0)) (.pgretDrop f.g f.d f.a)
    else .error .reserved
  | 0x02 =>
    rsv (decide (f.b = 0 ∧ f.c = 0 ∧ f.fx = 0)) (.wayq f.g f.d f.a)
  | 0x03 =>
    if f.fx.extractLsb' 0 2 = 0 then rsv (decide (f.b = 0 ∧ f.c = 0 ∧ f.fx &&& 0xfc = 0)) (.injL2ce f.g f.d f.a)
    else if f.fx.extractLsb' 0 2 = 1 then rsv (decide (f.b = 0 ∧ f.c = 0 ∧ f.fx &&& 0xfc = 0)) (.injL2ue f.g f.d f.a)
    else if f.fx.extractLsb' 0 2 = 2 then rsv (decide (f.b = 0 ∧ f.c = 0 ∧ f.fx &&& 0xfc = 0)) (.injHbmue f.g f.d f.a)
    else .error .reserved
  | 0x04 =>
    if f.fx.extractLsb' 0 1 = 0 then rsv (decide (f.b = 0 ∧ f.c = 0 ∧ f.fx &&& 0xfe = 0)) (.atsiQ f.g f.d f.a)
    else if f.fx.extractLsb' 0 1 = 1 then rsv (decide (f.b = 0 ∧ f.c = 0 ∧ f.fx &&& 0xfe = 0)) (.atsiF f.g f.d f.a)
    else .error .reserved
  | _ => .error .minUnassigned

/-- MAJ 0x32, the Form S members: the row of each MIN, its reserved fields checked (R47, R48, R56). -/
def decode32S (min : Nat) (f : FormS) : Except DecodeTrap Instr :=
  match min with
  | 0x00 =>
    rsv (decide (f.c = 0 ∧ f.fx = 0)) (.slotchk f.g f.d f.a f.b)
  | 0x01 =>
    rsv (decide (f.c = 0 ∧ f.fx = 0)) (.reloc f.g f.d f.a f.b)
  | 0x02 =>
    rsv (decide (f.c = 0 ∧ f.fx = 0)) (.qpop f.g f.d f.b f.a)
  | 0x03 =>
    rsv (decide (f.c = 0 ∧ f.fx = 0)) (.qack f.g f.d f.a f.b)
  | 0x04 =>
    rsv (decide (f.c = 0 ∧ f.fx = 0)) (.polrun f.g f.d f.a f.b)
  | 0x05 =>
    if f.fx.extractLsb' 0 1 = 0 then rsv (decide (f.b = 0 ∧ f.c = 0 ∧ f.fx &&& 0xfe = 0)) (.lkeyOwn f.g f.d f.a)
    else if f.fx.extractLsb' 0 1 = 1 then rsv (decide (f.b = 0 ∧ f.c = 0 ∧ f.fx &&& 0xfe = 0)) (.lkeyAcc f.g f.d f.a)
    else .error .reserved
  | 0x06 =>
    rsv (decide (f.b = 0 ∧ f.c = 0 ∧ f.fx = 0)) (.lrevk f.g f.d f.a)
  | 0x07 =>
    rsv (decide (f.b = 0 ∧ f.c = 0 ∧ f.fx &&& 0xfe = 0)) (.qref f.g f.d f.a (f.fx.getLsbD 0))
  | _ => .error .minUnassigned
/-- MAJ 0x0C: LD, its variant in MIN (R51). -/
def decodeLd (min : Nat) (f : FormM) : Except DecodeTrap Instr :=
  let v : BitVec 6 := BitVec.ofNat 6 min
  opt (LdClass.ofCode? (v.extractLsb' 2 2)) fun cls =>
  opt (MemSize.ofCode? (v.extractLsb' 0 2)) fun sz =>
    if v.getLsbD 5 && sz == .b8 then .error .minUnassigned
    else opt (Scope.ofCode? f.scope) fun sc =>
      rsv (Instr.wf (.ld f.g (v.getLsbD 5) (v.getLsbD 4) cls sz sc f.d f.a f.off))
        (.ld f.g (v.getLsbD 5) (v.getLsbD 4) cls sz sc f.d f.a f.off)

/-- MAJ 0x0D: ST, its variant in MIN (R51). -/
def decodeSt (min : Nat) (f : FormM) : Except DecodeTrap Instr :=
  let v : BitVec 6 := BitVec.ofNat 6 min
  opt (StClass.ofCode? (v.extractLsb' 2 2)) fun cls =>
  opt (MemSize.ofCode? (v.extractLsb' 0 2)) fun sz =>
    if v.getLsbD 5 then .error .minUnassigned
    else opt (Scope.ofCode? f.scope) fun sc => acc (.st f.g (v.getLsbD 4) cls sz sc f.d f.a f.off)

/-- MAJ 0x0E: ATOM, its variant in MIN and fx (R52). -/
def decodeAtom (min : Nat) (f : FormS) : Except DecodeTrap Instr :=
  let v : BitVec 6 := BitVec.ofNat 6 min
  opt (Scope.ofCode? (v.extractLsb' 3 3)) fun sc =>
  opt (Order.ofCode? (v.extractLsb' 0 2)) fun ord =>
  opt (AtomOp.ofCode? (f.fx.extractLsb' 4 4)) fun op =>
    rsv (decide (f.fx &&& 0x0f = 0 ∧ f.c &&& 0x38 = 0))
      (.atom f.g op (v.getLsbD 2) ord sc (f.c.extractLsb' 0 3) f.d f.a f.b)

/-- The variant bits of LD (R51). -/
def ldMin (sx tile : Bool) (cls : LdClass) (sz : MemSize) : BitVec 6 :=
  BitVec.ofBool sx ++ BitVec.ofBool tile ++ cls.code ++ sz.code
/-- The variant bits of ST (R51). -/
def stMin (tile : Bool) (cls : StClass) (sz : MemSize) : BitVec 6 :=
  0#1 ++ BitVec.ofBool tile ++ cls.code ++ sz.code
/-- The variant bits of ATOM (R52). -/
def atomMin (sc : Scope) (big : Bool) (ord : Order) : BitVec 6 :=
  sc.code ++ BitVec.ofBool big ++ ord.code

/-- The row of the opcode map that MAJ and MIN select, with its field checks (R56). -/
def decodeRow (maj min : Nat) (w w1 : IWord) : Except DecodeTrap Instr :=
  match maj with
  | 0x01 => decode01S min (FormS.ofWord w)
  | 0x02 => decode02I min (FormI.ofWord w)
  | 0x03 => decode03S min (FormS.ofWord w)
  | 0x04 => decode04S min (FormS.ofWord w)
  | 0x05 => if min = 3 then decode05I min (FormI.ofWord w) else decode05S min (FormS.ofWord w)
  | 0x06 => if min = 1 then decode06I min (FormI.ofWord w) else decode06S min (FormS.ofWord w)
  | 0x07 => decode07L min (FormL.ofWords w w1)
  | 0x08 => decode08B min (FormB.ofWord w)
  | 0x09 => decode09S min (FormS.ofWord w)
  | 0x0A => decode0AS min (FormS.ofWord w)
  | 0x0B => if min = 4 then decode0BB min (FormB.ofWord w) else decode0BS min (FormS.ofWord w)
  | 0x0C => decodeLd min (FormM.ofWord w)
  | 0x0D => decodeSt min (FormM.ofWord w)
  | 0x0E => decodeAtom min (FormS.ofWord w)
  | 0x0F => decode0FS min (FormS.ofWord w)
  | 0x10 => decode10S min (FormS.ofWord w)
  | 0x11 => decode11V min (FormV.ofWord w)
  | 0x12 => decode12V min (FormV.ofWord w)
  | 0x13 => decode13V min (FormV.ofWord w)
  | 0x14 => decode14V min (FormV.ofWord w)
  | 0x15 => decode15V min (FormV.ofWord w)
  | 0x16 => decode16V min (FormV.ofWord w)
  | 0x17 => decode17V min (FormV.ofWord w)
  | 0x18 => decode18V min (FormV.ofWord w)
  | 0x19 => decode19V min (FormV.ofWord w)
  | 0x1A => decode1AV min (FormV.ofWord w)
  | 0x1B => decode1BS min (FormS.ofWord w)
  | 0x1C => decode1CS min (FormS.ofWord w)
  | 0x20 => decode20E min (FormE.ofWord w)
  | 0x21 => decode21S min (FormS.ofWord w)
  | 0x22 => decode22S min (FormS.ofWord w)
  | 0x23 => decode23S min (FormS.ofWord w)
  | 0x24 => decode24S min (FormS.ofWord w)
  | 0x25 => decode25S min (FormS.ofWord w)
  | 0x26 => decode26S min (FormS.ofWord w)
  | 0x27 => decode27S min (FormS.ofWord w)
  | 0x28 => decode28S min (FormS.ofWord w)
  | 0x30 => decode30S min (FormS.ofWord w)
  | 0x31 => decode31S min (FormS.ofWord w)
  | 0x32 => decode32S min (FormS.ofWord w)
  | _ => .error .majUnassigned

/-- Steps 5 and 6 of R58 without a context: the row, then the checks that relate several fields. -/
def decodeFields (w w1 : IWord) : Except DecodeTrap Instr :=
  match decodeRow (wordMaj w) (wordMin w) w w1 with
  | .error e => .error e
  | .ok i => rsv i.wf i

/-- The decoder without a context: what an instruction word stands for wherever it is assigned (R58, steps 1, 2, 3, 5, 6). -/
def decode (w w1 : IWord) : Except DecodeTrap Instr :=
  if w = 0 then .error .allZeros
  else if w = BitVec.allOnes 48 then .error .allOnes
  else decodeFields w w1

/-- The registers an instruction reads, in the order in which R92 takes their pops: a, b, c, then d where d is read. -/
def Instr.srcs (i : Instr) : List XReg :=
  match i with
  | .add _ _ a b => [a, b]
  | .sub _ _ a b => [a, b]
  | .andR _ _ a b => [a, b]
  | .orR _ _ a b => [a, b]
  | .xorR _ _ a b => [a, b]
  | .logt _ _ a b c _ => [a, b, c]
  | .shl _ _ a b => [a, b]
  | .shr _ _ a b => [a, b]
  | .sra _ _ a b => [a, b]
  | .rol _ _ a b => [a, b]
  | .minS _ _ a b => [a, b]
  | .maxS _ _ a b => [a, b]
  | .minu _ _ a b => [a, b]
  | .maxu _ _ a b => [a, b]
  | .sel _ _ a b _ => [a, b]
  | .abs _ _ a => [a]
  | .addi _ _ a _ => [a]
  | .andi _ _ a _ => [a]
  | .ori _ _ a _ => [a]
  | .xori _ _ a _ => [a]
  | .shli _ _ a _ => [a]
  | .shri _ _ a _ => [a]
  | .srai _ _ a _ => [a]
  | .li _ _ _ => []
  | .mul _ _ a b => [a, b]
  | .mulh _ _ a b => [a, b]
  | .mulhu _ _ a b => [a, b]
  | .madd _ _ a b c => [a, b, c]
  | .div _ _ a b => [a, b]
  | .divu _ _ a b => [a, b]
  | .rem _ _ a b => [a, b]
  | .remu _ _ a b => [a, b]
  | .clz _ _ a => [a]
  | .ctz _ _ a => [a]
  | .popc _ _ a => [a]
  | .brev _ _ a => [a]
  | .bfx _ _ a _ _ => [a]
  | .bfxu _ _ a _ _ => [a]
  | .bfi _ _ a b _ _ => [a, b]
  | .sext _ _ a _ => [a]
  | .cmp _ _ a b _ => [a, b]
  | .plog _ _ _ _ _ => []
  | .pmovGet _ _ => []
  | .pmovPut _ a => [a]
  | .cmpi _ _ _ a _ => [a]
  | .lea _ _ a b _ => [a, b]
  | .leai _ _ a _ => [a]
  | .lil _ _ _ => []
  | .jmpl _ _ => []
  | .br _ _ => []
  | .call _ _ => []
  | .callc _ _ => []
  | .jmpr _ a => [a]
  | .callr _ a => [a]
  | .callcr _ a => [a]
  | .ret _ a => [a]
  | .retc _ a => [a]
  | .fork _ _ _ _ => []
  | .rdv _ => []
  | .rpt _ a _ _ _ _ => [a]
  | .halt _ => []
  | .yield _ => []
  | .dqput _ a _ => [a]
  | .dqget _ _ _ => []
  | .dqcls _ _ => []
  | .bqput _ _ _ => []
  | .bqbr _ _ => []
  | .ld _ _ _ _ _ _ _ a _ => [a]
  | .st _ _ _ _ _ d a _ => [a, d]
  | .atom _ op _ _ _ _ d a b => if op = .cas then [a, b, d] else [a, b]
  | .fence _ _ _ _ => []
  | .xfence _ _ _ => []
  | .trap _ _ => []
  | .tret _ => []
  | .tretSkip _ => []
  | .sysc _ _ => []
  | .cwrd _ _ _ => []
  | .cwwr _ _ a => [a]
  | .nop _ => []
  | .vadd _ _ _ _ _ _ _ _ => []
  | .vsub _ _ _ _ _ _ _ _ => []
  | .vmul _ _ _ _ _ _ _ _ => []
  | .vfma _ _ _ _ _ _ _ _ _ => []
  | .vfms _ _ _ _ _ _ _ _ _ => []
  | .vmin _ _ _ _ _ _ _ => []
  | .vmax _ _ _ _ _ _ _ => []
  | .vabs _ _ _ _ _ => []
  | .vneg _ _ _ _ _ => []
  | .viadd _ _ _ _ _ _ _ _ => []
  | .visub _ _ _ _ _ _ _ _ => []
  | .vimul _ _ _ _ _ _ _ _ => []
  | .vimad _ _ _ _ _ _ _ _ => []
  | .vshl _ _ _ _ _ _ _ => []
  | .vshr _ _ _ _ _ _ _ => []
  | .vsra _ _ _ _ _ _ _ => []
  | .vlogt _ _ _ _ _ _ => []
  | .vimin _ _ _ _ _ _ _ _ => []
  | .vimax _ _ _ _ _ _ _ _ => []
  | .vcmp _ _ _ _ _ _ => []
  | .vsel _ _ _ _ => []
  | .vmsk _ _ _ _ _ => []
  | .vrcp _ _ _ => []
  | .vrsq _ _ _ => []
  | .vrcpr _ _ _ _ _ => []
  | .vrsqr _ _ _ _ _ => []
  | .vexp2 _ _ _ => []
  | .vlog2 _ _ _ => []
  | .vtanh _ _ _ => []
  | .vcvt _ _ _ _ _ _ _ _ => []
  | .vpack _ _ _ _ _ => []
  | .vunpk _ _ _ _ _ _ => []
  | .vrotr _ _ _ _ => []
  | .vbcr _ _ _ _ => []
  | .vredr _ _ _ _ _ => []
  | .vscnr _ _ _ _ _ => []
  | .vrotc _ _ _ _ => []
  | .vbcc _ _ _ _ => []
  | .vredc _ _ _ _ _ => []
  | .vscnc _ _ _ _ _ => []
  | .vperm _ _ _ _ => []
  | .vmov _ _ _ _ => []
  | .vmovs _ n _ => [n]
  | .vmovx _ _ _ _ => []
  | .zwr _ _ _ _ => []
  | .zrd _ _ _ _ _ _ _ _ => []
  | .zclr _ => []
  | .defer _ _ _ => []
  | .drain _ _ _ => []
  | .dfcnt _ _ => []
  | .vld _ _ a b _ _ => [a, b]
  | .vst _ _ a b _ _ => [a, b]
  | .vgath _ _ a _ _ _ => [a]
  | .vscat _ _ a _ _ _ => [a]
  | .qst _ _ _ a _ => [a]
  | .qld _ _ _ a _ => [a]
  | .lvld _ _ _ a => [a]
  | .qcfg _ _ a => [a]
  | .cpy a b _ _ _ => [a, b]
  | .cpys a b _ _ _ => [a, b]
  | .cpyg a b _ _ _ => [a, b]
  | .cpyx a b _ _ _ => [a, b]
  | .tdef _ _ _ a => [a]
  | .tset _ _ _ _ => []
  | .trel _ _ => []
  | .bankcfg _ _ _ _ => []
  | .fset _ _ _ => []
  | .fwait _ _ _ => []
  | .fclr _ _ _ => []
  | .lnt _ a b _ => [a, b]
  | .mopa _ a b => [a, b]
  | .mopb _ a b => [a, b]
  | .mopc _ a => [a]
  | .idxv _ a => [a]
  | .mgo _ _ => []
  | .mwait _ _ => []
  | .mstat _ _ => []
  | .mstatClr _ _ => []
  | .abal _ _ _ => []
  | .abfr _ a _ => [a]
  | .ainit _ a b _ _ => [a, b]
  | .anrm _ a _ _ => [a]
  | .ard _ _ _ a _ => [a]
  | .awr _ _ _ a _ => [a]
  | .efcap _ _ a => [a]
  | .ecat _ _ a b => [a, b]
  | .eflt _ _ a b c _ => [a, b, c]
  | .ereb _ d a b c => [a, b, c, d]
  | .eapl _ a => [a]
  | .eaplRel _ a _ _ => [a]
  | .edrp _ a => [a]
  | .ecnt _ _ a => [a]
  | .ecntArena _ _ => []
  | .ssync _ _ => []
  | .bara _ _ _ _ _ => []
  | .barw _ a _ _ => [a]
  | .baraw _ _ _ _ => []
  | .xplan _ a => [a]
  | .grank _ _ _ => []
  | .gsize _ _ _ => []
  | .gsizeShr _ _ a _ => [a]
  | .gnbrNext _ _ _ => []
  | .gnbrPrev _ _ _ => []
  | .gnbrXor _ _ _ _ => []
  | .coll _ _ _ _ d a b _ => [a, b, d]
  | .collw _ _ => []
  | .launch _ _ a b => [a, b]
  | .scoutStop _ _ a => [a]
  | .scoutShift _ _ a b => [a, b]
  | .scoutResume _ _ a => [a]
  | .scin _ _ a b => [a, b]
  | .scver _ _ a => [a]
  | .scverPart _ _ => []
  | .ownsetCore _ _ a b => [a, b]
  | .ownsetBank _ _ a b => [a, b]
  | .ownsetAcm _ _ a b => [a, b]
  | .preqClr _ _ a => [a]
  | .preqSet _ _ a => [a]
  | .cutb _ _ a => [a]
  | .idem _ _ a b => [a, b]
  | .tmarkQ _ _ a => [a]
  | .tmarkF _ _ a => [a]
  | .tlbiPage _ _ a b => [a, b]
  | .tlbiCtx _ _ a => [a]
  | .tlbiAll _ _ => []
  | .tlbiPte _ _ b => [b]
  | .pgret _ _ a => [a]
  | .pgretDrop _ _ a => [a]
  | .wayq _ _ a => [a]
  | .injL2ce _ _ a => [a]
  | .injL2ue _ _ a => [a]
  | .injHbmue _ _ a => [a]
  | .atsiQ _ _ a => [a]
  | .atsiF _ _ a => [a]
  | .slotchk _ _ a b => [a, b]
  | .reloc _ _ a b => [a, b]
  | .qpop _ _ _ a => [a]
  | .qack _ _ a b => [a, b]
  | .polrun _ _ a b => [a, b]
  | .lkeyOwn _ _ a => [a]
  | .lkeyAcc _ _ a => [a]
  | .lrevk _ _ a => [a]
  | .qref _ _ a _ => [a]
  | .evSqsub _ _ _ => []
  | .evSqstatClearOvf _ _ _ => []
  | .evMboxDoorbell _ => []
  | .evPlatEnable _ _ _ => []
  | .evPlatDisable _ _ _ => []
  | .evPkillGo _ _ => []
  | .evRegisterWrite _ _ _ => []
  | .evFrontEndConsume _ _ => []
  | .evKernelPlace _ _ => []
  | .evJobEnd _ => []
  | .evKernelRetire _ => []
  | .evStreamWaitEnd _ _ => []
  | .evStreamYielded _ _ => []
  | .evLoadFill _ _ _ => []
  | .evShadowResume _ _ _ _ => []
  | .evWalkComplete _ _ => []
  | .evCopyIssue _ => []
  | .evCopyComplete _ _ _ => []
  | .evFlagFire _ _ => []
  | .evFlagClearAct _ _ => []
  | .evFwaitMarkerIssue _ _ => []
  | .evMgoIssue _ => []
  | .evFoldEntry _ => []
  | .evArrayResume _ _ => []
  | .evCollIssue _ => []
  | .evCollComplete _ _ => []
  | .evCollwComplete _ => []
  | .evSuperstepComplete _ => []
  | .evCommPhaseEnd _ _ => []
  | .evReplayWindowRetire _ => []
  | .evEngineUeReplay _ _ => []
  | .evBacksightMismatch _ _ => []
  | .evTerminationComplete _ => []
  | .evEventDispatch _ => []
  | .evStationCoreReset _ => []
  | .evTimeSliceExpiry _ => []
  | .evSchedulerWatchdog _ => []
  | .evPowerOn => []
  | .evBootImageOffer _ _ _ => []
  | .evRemoteResponse _ _ => []
  | .evRemoteTimeout _ _ => []
  | .evIncomingRequest _ _ _ => []
  | .evAtsResponse _ _ _ _ _ _ => []
  | .evPriResponse _ _ _ => []
  | .evPriTimeout _ _ _ => []
  | .evAtsInvalidation _ _ _ => []
  | .evPackageIdAssign _ => []
  | .evD2dFlitRetry _ => []
  | .evPortRetrainFail _ _ => []
  | .evHbmStackFail _ => []
  | .evCoolantOverlimit => []
  | .evPowerLoss => []
  | .evUalinkPortTrained _ => []
  | .evFunctionBringUp _ => []
  | .evInFieldScanTest _ _ => []

/-- The registers an instruction writes by a register field. -/
def Instr.dsts (i : Instr) : List XReg :=
  match i with
  | .add _ d _ _ => [d]
  | .sub _ d _ _ => [d]
  | .andR _ d _ _ => [d]
  | .orR _ d _ _ => [d]
  | .xorR _ d _ _ => [d]
  | .logt _ d _ _ _ _ => [d]
  | .shl _ d _ _ => [d]
  | .shr _ d _ _ => [d]
  | .sra _ d _ _ => [d]
  | .rol _ d _ _ => [d]
  | .minS _ d _ _ => [d]
  | .maxS _ d _ _ => [d]
  | .minu _ d _ _ => [d]
  | .maxu _ d _ _ => [d]
  | .sel _ d _ _ _ => [d]
  | .abs _ d _ => [d]
  | .addi _ d _ _ => [d]
  | .andi _ d _ _ => [d]
  | .ori _ d _ _ => [d]
  | .xori _ d _ _ => [d]
  | .shli _ d _ _ => [d]
  | .shri _ d _ _ => [d]
  | .srai _ d _ _ => [d]
  | .li _ d _ => [d]
  | .mul _ d _ _ => [d]
  | .mulh _ d _ _ => [d]
  | .mulhu _ d _ _ => [d]
  | .madd _ d _ _ _ => [d]
  | .div _ d _ _ => [d]
  | .divu _ d _ _ => [d]
  | .rem _ d _ _ => [d]
  | .remu _ d _ _ => [d]
  | .clz _ d _ => [d]
  | .ctz _ d _ => [d]
  | .popc _ d _ => [d]
  | .brev _ d _ => [d]
  | .bfx _ d _ _ _ => [d]
  | .bfxu _ d _ _ _ => [d]
  | .bfi _ d _ _ _ _ => [d]
  | .sext _ d _ _ => [d]
  | .cmp _ _ _ _ _ => []
  | .plog _ _ _ _ _ => []
  | .pmovGet _ d => [d]
  | .pmovPut _ _ => []
  | .cmpi _ _ _ _ _ => []
  | .lea _ d _ _ _ => [d]
  | .leai _ d _ _ => [d]
  | .lil _ d _ => [d]
  | .jmpl _ _ => []
  | .br _ _ => []
  | .call _ _ => []
  | .callc _ _ => []
  | .jmpr _ _ => []
  | .callr _ _ => []
  | .callcr _ _ => []
  | .ret _ _ => []
  | .retc _ _ => []
  | .fork _ _ _ _ => []
  | .rdv _ => []
  | .rpt _ _ _ _ _ _ => []
  | .halt _ => []
  | .yield _ => []
  | .dqput _ _ _ => []
  | .dqget _ d _ => [d]
  | .dqcls _ _ => []
  | .bqput _ _ _ => []
  | .bqbr _ _ => []
  | .ld _ _ _ _ _ _ d _ _ => [d]
  | .st _ _ _ _ _ _ _ _ => []
  | .atom _ _ _ _ _ _ d _ _ => [d]
  | .fence _ _ _ _ => []
  | .xfence _ _ _ => []
  | .trap _ _ => []
  | .tret _ => []
  | .tretSkip _ => []
  | .sysc _ _ => []
  | .cwrd _ d _ => [d]
  | .cwwr _ _ _ => []
  | .nop _ => []
  | .vadd _ _ _ _ _ _ _ _ => []
  | .vsub _ _ _ _ _ _ _ _ => []
  | .vmul _ _ _ _ _ _ _ _ => []
  | .vfma _ _ _ _ _ _ _ _ _ => []
  | .vfms _ _ _ _ _ _ _ _ _ => []
  | .vmin _ _ _ _ _ _ _ => []
  | .vmax _ _ _ _ _ _ _ => []
  | .vabs _ _ _ _ _ => []
  | .vneg _ _ _ _ _ => []
  | .viadd _ _ _ _ _ _ _ _ => []
  | .visub _ _ _ _ _ _ _ _ => []
  | .vimul _ _ _ _ _ _ _ _ => []
  | .vimad _ _ _ _ _ _ _ _ => []
  | .vshl _ _ _ _ _ _ _ => []
  | .vshr _ _ _ _ _ _ _ => []
  | .vsra _ _ _ _ _ _ _ => []
  | .vlogt _ _ _ _ _ _ => []
  | .vimin _ _ _ _ _ _ _ _ => []
  | .vimax _ _ _ _ _ _ _ _ => []
  | .vcmp _ _ _ _ _ _ => []
  | .vsel _ _ _ _ => []
  | .vmsk _ _ _ _ _ => []
  | .vrcp _ _ _ => []
  | .vrsq _ _ _ => []
  | .vrcpr _ _ _ _ _ => []
  | .vrsqr _ _ _ _ _ => []
  | .vexp2 _ _ _ => []
  | .vlog2 _ _ _ => []
  | .vtanh _ _ _ => []
  | .vcvt _ _ _ _ _ _ _ _ => []
  | .vpack _ _ _ _ _ => []
  | .vunpk _ _ _ _ _ _ => []
  | .vrotr _ _ _ _ => []
  | .vbcr _ _ _ _ => []
  | .vredr _ _ _ _ _ => []
  | .vscnr _ _ _ _ _ => []
  | .vrotc _ _ _ _ => []
  | .vbcc _ _ _ _ => []
  | .vredc _ _ _ _ _ => []
  | .vscnc _ _ _ _ _ => []
  | .vperm _ _ _ _ => []
  | .vmov _ _ _ _ => []
  | .vmovs _ _ _ => []
  | .vmovx n _ _ _ => [n]
  | .zwr _ _ _ _ => []
  | .zrd _ _ _ _ _ _ _ _ => []
  | .zclr _ => []
  | .defer _ _ _ => []
  | .drain _ _ _ => []
  | .dfcnt n _ => [n]
  | .vld _ _ _ _ _ _ => []
  | .vst _ _ _ _ _ _ => []
  | .vgath _ _ _ _ _ _ => []
  | .vscat _ _ _ _ _ _ => []
  | .qst _ _ _ _ _ => []
  | .qld _ _ _ _ _ => []
  | .lvld _ _ _ _ => []
  | .qcfg _ d _ => [d]
  | .cpy _ _ _ _ _ => []
  | .cpys _ _ _ _ _ => []
  | .cpyg _ _ _ _ _ => []
  | .cpyx _ _ _ _ _ => []
  | .tdef _ d _ _ => [d]
  | .tset _ d _ _ => [d]
  | .trel _ _ => []
  | .bankcfg _ d _ _ => [d]
  | .fset _ _ _ => []
  | .fwait _ _ _ => []
  | .fclr _ _ _ => []
  | .lnt _ _ _ _ => []
  | .mopa _ _ _ => []
  | .mopb _ _ _ => []
  | .mopc _ _ => []
  | .idxv _ _ => []
  | .mgo _ _ => []
  | .mwait _ _ => []
  | .mstat _ d => [d]
  | .mstatClr _ d => [d]
  | .abal _ d _ => [d]
  | .abfr _ _ _ => []
  | .ainit _ _ _ _ _ => []
  | .anrm _ _ _ _ => []
  | .ard _ _ _ _ _ => []
  | .awr _ _ _ _ _ => []
  | .efcap _ d _ => [d]
  | .ecat _ d _ _ => [d]
  | .eflt _ d _ _ _ _ => [d]
  | .ereb _ _ _ _ _ => []
  | .eapl _ _ => []
  | .eaplRel _ _ _ _ => []
  | .edrp _ _ => []
  | .ecnt _ d _ => [d]
  | .ecntArena _ d => [d]
  | .ssync _ d => [d]
  | .bara _ d _ _ _ => [d]
  | .barw _ _ _ _ => []
  | .baraw _ _ _ _ => []
  | .xplan _ _ => []
  | .grank _ d _ => [d]
  | .gsize _ d _ => [d]
  | .gsizeShr _ d _ _ => [d]
  | .gnbrNext _ d _ => [d]
  | .gnbrPrev _ d _ => [d]
  | .gnbrXor _ d _ _ => [d]
  | .coll _ _ _ _ _ _ _ _ => []
  | .collw _ _ => []
  | .launch _ d _ _ => [d]
  | .scoutStop _ d _ => [d]
  | .scoutShift _ d _ _ => [d]
  | .scoutResume _ d _ => [d]
  | .scin _ d _ _ => [d]
  | .scver _ d _ => [d]
  | .scverPart _ d => [d]
  | .ownsetCore _ d _ _ => [d]
  | .ownsetBank _ d _ _ => [d]
  | .ownsetAcm _ d _ _ => [d]
  | .preqClr _ d _ => [d]
  | .preqSet _ d _ => [d]
  | .cutb _ d _ => [d]
  | .idem _ d _ _ => [d]
  | .tmarkQ _ d _ => [d]
  | .tmarkF _ d _ => [d]
  | .tlbiPage _ d _ _ => [d]
  | .tlbiCtx _ d _ => [d]
  | .tlbiAll _ d => [d]
  | .tlbiPte _ d _ => [d]
  | .pgret _ d _ => [d]
  | .pgretDrop _ d _ => [d]
  | .wayq _ d _ => [d]
  | .injL2ce _ d _ => [d]
  | .injL2ue _ d _ => [d]
  | .injHbmue _ d _ => [d]
  | .atsiQ _ d _ => [d]
  | .atsiF _ d _ => [d]
  | .slotchk _ d _ _ => [d]
  | .reloc _ d _ _ => [d]
  | .qpop _ d b _ => [d, b]
  | .qack _ d _ _ => [d]
  | .polrun _ d _ _ => [d]
  | .lkeyOwn _ d _ => [d]
  | .lkeyAcc _ d _ => [d]
  | .lrevk _ d _ => [d]
  | .qref _ d _ _ => [d]
  | .evSqsub _ _ _ => []
  | .evSqstatClearOvf _ _ _ => []
  | .evMboxDoorbell _ => []
  | .evPlatEnable _ _ _ => []
  | .evPlatDisable _ _ _ => []
  | .evPkillGo _ _ => []
  | .evRegisterWrite _ _ _ => []
  | .evFrontEndConsume _ _ => []
  | .evKernelPlace _ _ => []
  | .evJobEnd _ => []
  | .evKernelRetire _ => []
  | .evStreamWaitEnd _ _ => []
  | .evStreamYielded _ _ => []
  | .evLoadFill _ _ _ => []
  | .evShadowResume _ _ _ _ => []
  | .evWalkComplete _ _ => []
  | .evCopyIssue _ => []
  | .evCopyComplete _ _ _ => []
  | .evFlagFire _ _ => []
  | .evFlagClearAct _ _ => []
  | .evFwaitMarkerIssue _ _ => []
  | .evMgoIssue _ => []
  | .evFoldEntry _ => []
  | .evArrayResume _ _ => []
  | .evCollIssue _ => []
  | .evCollComplete _ _ => []
  | .evCollwComplete _ => []
  | .evSuperstepComplete _ => []
  | .evCommPhaseEnd _ _ => []
  | .evReplayWindowRetire _ => []
  | .evEngineUeReplay _ _ => []
  | .evBacksightMismatch _ _ => []
  | .evTerminationComplete _ => []
  | .evEventDispatch _ => []
  | .evStationCoreReset _ => []
  | .evTimeSliceExpiry _ => []
  | .evSchedulerWatchdog _ => []
  | .evPowerOn => []
  | .evBootImageOffer _ _ _ => []
  | .evRemoteResponse _ _ => []
  | .evRemoteTimeout _ _ => []
  | .evIncomingRequest _ _ _ => []
  | .evAtsResponse _ _ _ _ _ _ => []
  | .evPriResponse _ _ _ => []
  | .evPriTimeout _ _ _ => []
  | .evAtsInvalidation _ _ _ => []
  | .evPackageIdAssign _ => []
  | .evD2dFlitRetry _ => []
  | .evPortRetrainFail _ _ => []
  | .evHbmStackFail _ => []
  | .evCoolantOverlimit => []
  | .evPowerLoss => []
  | .evUalinkPortTrained _ => []
  | .evFunctionBringUp _ => []
  | .evInFieldScanTest _ _ => []

/-- What a stride does to one field of a governed word (R53, R109, R176, R179 and the entries): it advances a scalar register
number, a number with a limit, the predicate bits of CMPI, or the offset of LD and ST; it is ignored; or the field is reserved,
a code or a count, and the pair is ILLOP. -/
inductive StrideKind where
  | reg | small (limit : Nat) | predLow | off | ignored | reserved
  deriving DecidableEq, Repr

/-- The stride kinds of the four positions that RPT's codes name. -/
structure StrideKinds where
  d : StrideKind
  a : StrideKind
  b : StrideKind
  c : StrideKind
  deriving DecidableEq, Repr

/-- The stride kinds of every instruction (R90, R109, R176, R179); a field that a word outside majors 0x01 to 0x06 does not use, or uses
for no number that a stride moves, takes none (DESIGN CHOICE log 78). -/
def Instr.strides (i : Instr) : StrideKinds :=
  match i with
  | .add _ _ _ _ => ⟨.reg, .reg, .reg, .reserved⟩
  | .sub _ _ _ _ => ⟨.reg, .reg, .reg, .reserved⟩
  | .andR _ _ _ _ => ⟨.reg, .reg, .reg, .reserved⟩
  | .orR _ _ _ _ => ⟨.reg, .reg, .reg, .reserved⟩
  | .xorR _ _ _ _ => ⟨.reg, .reg, .reg, .reserved⟩
  | .logt _ _ _ _ _ _ => ⟨.reg, .reg, .reg, .reg⟩
  | .shl _ _ _ _ => ⟨.reg, .reg, .reg, .reserved⟩
  | .shr _ _ _ _ => ⟨.reg, .reg, .reg, .reserved⟩
  | .sra _ _ _ _ => ⟨.reg, .reg, .reg, .reserved⟩
  | .rol _ _ _ _ => ⟨.reg, .reg, .reg, .reserved⟩
  | .minS _ _ _ _ => ⟨.reg, .reg, .reg, .reserved⟩
  | .maxS _ _ _ _ => ⟨.reg, .reg, .reg, .reserved⟩
  | .minu _ _ _ _ => ⟨.reg, .reg, .reg, .reserved⟩
  | .maxu _ _ _ _ => ⟨.reg, .reg, .reg, .reserved⟩
  | .sel _ _ _ _ _ => ⟨.reg, .reg, .reg, .small 7⟩
  | .abs _ _ _ => ⟨.reg, .reg, .reserved, .reserved⟩
  | .addi _ _ _ _ => ⟨.reg, .reg, .ignored, .ignored⟩
  | .andi _ _ _ _ => ⟨.reg, .reg, .ignored, .ignored⟩
  | .ori _ _ _ _ => ⟨.reg, .reg, .ignored, .ignored⟩
  | .xori _ _ _ _ => ⟨.reg, .reg, .ignored, .ignored⟩
  | .shli _ _ _ _ => ⟨.reg, .reg, .ignored, .ignored⟩
  | .shri _ _ _ _ => ⟨.reg, .reg, .ignored, .ignored⟩
  | .srai _ _ _ _ => ⟨.reg, .reg, .ignored, .ignored⟩
  | .li _ _ _ => ⟨.reg, .reserved, .ignored, .ignored⟩
  | .mul _ _ _ _ => ⟨.reg, .reg, .reg, .reserved⟩
  | .mulh _ _ _ _ => ⟨.reg, .reg, .reg, .reserved⟩
  | .mulhu _ _ _ _ => ⟨.reg, .reg, .reg, .reserved⟩
  | .madd _ _ _ _ _ => ⟨.reg, .reg, .reg, .reg⟩
  | .div _ _ _ _ => ⟨.reg, .reg, .reg, .reserved⟩
  | .divu _ _ _ _ => ⟨.reg, .reg, .reg, .reserved⟩
  | .rem _ _ _ _ => ⟨.reg, .reg, .reg, .reserved⟩
  | .remu _ _ _ _ => ⟨.reg, .reg, .reg, .reserved⟩
  | .clz _ _ _ => ⟨.reg, .reg, .reserved, .reserved⟩
  | .ctz _ _ _ => ⟨.reg, .reg, .reserved, .reserved⟩
  | .popc _ _ _ => ⟨.reg, .reg, .reserved, .reserved⟩
  | .brev _ _ _ => ⟨.reg, .reg, .reserved, .reserved⟩
  | .bfx _ _ _ _ _ => ⟨.reg, .reg, .reserved, .small 63⟩
  | .bfxu _ _ _ _ _ => ⟨.reg, .reg, .reserved, .small 63⟩
  | .bfi _ _ _ _ _ _ => ⟨.reg, .reg, .reg, .small 63⟩
  | .sext _ _ _ _ => ⟨.reg, .reg, .reserved, .reserved⟩
  | .cmp _ _ _ _ _ => ⟨.small 7, .reg, .reg, .reserved⟩
  | .plog _ _ _ _ _ => ⟨.small 7, .small 7, .small 7, .reserved⟩
  | .pmovGet _ _ => ⟨.reg, .reserved, .reserved, .reserved⟩
  | .pmovPut _ _ => ⟨.reserved, .reg, .reserved, .reserved⟩
  | .cmpi _ _ _ _ _ => ⟨.predLow, .reg, .ignored, .ignored⟩
  | .lea _ _ _ _ _ => ⟨.reg, .reg, .reg, .reserved⟩
  | .leai _ _ _ _ => ⟨.reg, .reg, .ignored, .ignored⟩
  | .lil _ _ _ => ⟨.reserved, .reserved, .reserved, .reserved⟩
  | .jmpl _ _ => ⟨.reserved, .reserved, .reserved, .reserved⟩
  | .br _ _ => ⟨.reserved, .reserved, .reserved, .reserved⟩
  | .call _ _ => ⟨.reserved, .reserved, .reserved, .reserved⟩
  | .callc _ _ => ⟨.reserved, .reserved, .reserved, .reserved⟩
  | .jmpr _ _ => ⟨.reserved, .reg, .reserved, .reserved⟩
  | .callr _ _ => ⟨.reserved, .reg, .reserved, .reserved⟩
  | .callcr _ _ => ⟨.reserved, .reg, .reserved, .reserved⟩
  | .ret _ _ => ⟨.reserved, .reg, .reserved, .reserved⟩
  | .retc _ _ => ⟨.reserved, .reg, .reserved, .reserved⟩
  | .fork _ _ _ _ => ⟨.reserved, .reserved, .reserved, .reserved⟩
  | .rdv _ => ⟨.reserved, .reserved, .reserved, .reserved⟩
  | .rpt _ _ _ _ _ _ => ⟨.reserved, .reg, .reserved, .reserved⟩
  | .halt _ => ⟨.reserved, .reserved, .reserved, .reserved⟩
  | .yield _ => ⟨.reserved, .reserved, .reserved, .reserved⟩
  | .dqput _ _ _ => ⟨.reserved, .reg, .reserved, .small 7⟩
  | .dqget _ _ _ => ⟨.reg, .reserved, .reserved, .small 7⟩
  | .dqcls _ _ => ⟨.reserved, .reserved, .reserved, .small 7⟩
  | .bqput _ _ _ => ⟨.reserved, .reserved, .reserved, .small 7⟩
  | .bqbr _ _ => ⟨.reserved, .reserved, .reserved, .reserved⟩
  | .ld _ _ _ _ _ _ _ _ _ => ⟨.reg, .reg, .off, .ignored⟩
  | .st _ _ _ _ _ _ _ _ => ⟨.reg, .reg, .off, .ignored⟩
  | .atom _ _ _ _ _ _ _ _ _ => ⟨.reg, .reg, .reg, .reserved⟩
  | .fence _ _ _ _ => ⟨.reserved, .reserved, .reserved, .reserved⟩
  | .xfence _ _ _ => ⟨.reserved, .reserved, .reserved, .reserved⟩
  | .trap _ _ => ⟨.reserved, .reserved, .reserved, .reserved⟩
  | .tret _ => ⟨.reserved, .reserved, .reserved, .reserved⟩
  | .tretSkip _ => ⟨.reserved, .reserved, .reserved, .reserved⟩
  | .sysc _ _ => ⟨.reserved, .reserved, .reserved, .reserved⟩
  | .cwrd _ _ _ => ⟨.reserved, .reserved, .reserved, .reserved⟩
  | .cwwr _ _ _ => ⟨.reserved, .reserved, .reserved, .reserved⟩
  | .nop _ => ⟨.reserved, .reserved, .reserved, .reserved⟩
  | .vadd _ _ _ _ _ _ _ _ => ⟨.small 15, .small 15, .small 15, .reserved⟩
  | .vsub _ _ _ _ _ _ _ _ => ⟨.small 15, .small 15, .small 15, .reserved⟩
  | .vmul _ _ _ _ _ _ _ _ => ⟨.small 15, .small 15, .small 15, .reserved⟩
  | .vfma _ _ _ _ _ _ _ _ _ => ⟨.small 15, .small 15, .small 15, .small 15⟩
  | .vfms _ _ _ _ _ _ _ _ _ => ⟨.small 15, .small 15, .small 15, .small 15⟩
  | .vmin _ _ _ _ _ _ _ => ⟨.small 15, .small 15, .small 15, .reserved⟩
  | .vmax _ _ _ _ _ _ _ => ⟨.small 15, .small 15, .small 15, .reserved⟩
  | .vabs _ _ _ _ _ => ⟨.small 15, .small 15, .reserved, .reserved⟩
  | .vneg _ _ _ _ _ => ⟨.small 15, .small 15, .reserved, .reserved⟩
  | .viadd _ _ _ _ _ _ _ _ => ⟨.small 15, .small 15, .small 15, .reserved⟩
  | .visub _ _ _ _ _ _ _ _ => ⟨.small 15, .small 15, .small 15, .reserved⟩
  | .vimul _ _ _ _ _ _ _ _ => ⟨.small 15, .small 15, .small 15, .reserved⟩
  | .vimad _ _ _ _ _ _ _ _ => ⟨.small 15, .small 15, .small 15, .small 15⟩
  | .vshl _ _ _ _ _ _ _ => ⟨.small 15, .small 15, .small 15, .reserved⟩
  | .vshr _ _ _ _ _ _ _ => ⟨.small 15, .small 15, .small 15, .reserved⟩
  | .vsra _ _ _ _ _ _ _ => ⟨.small 15, .small 15, .small 15, .reserved⟩
  | .vlogt _ _ _ _ _ _ => ⟨.small 15, .small 15, .small 15, .small 15⟩
  | .vimin _ _ _ _ _ _ _ _ => ⟨.small 15, .small 15, .small 15, .reserved⟩
  | .vimax _ _ _ _ _ _ _ _ => ⟨.small 15, .small 15, .small 15, .reserved⟩
  | .vcmp _ _ _ _ _ _ => ⟨.small 7, .small 15, .small 15, .reserved⟩
  | .vsel _ _ _ _ => ⟨.small 15, .small 15, .small 15, .reserved⟩
  | .vmsk _ _ _ _ _ => ⟨.small 7, .small 7, .small 7, .reserved⟩
  | .vrcp _ _ _ => ⟨.small 15, .small 15, .reserved, .reserved⟩
  | .vrsq _ _ _ => ⟨.small 15, .small 15, .reserved, .reserved⟩
  | .vrcpr _ _ _ _ _ => ⟨.small 15, .small 15, .small 15, .reserved⟩
  | .vrsqr _ _ _ _ _ => ⟨.small 15, .small 15, .small 15, .reserved⟩
  | .vexp2 _ _ _ => ⟨.small 15, .small 15, .reserved, .reserved⟩
  | .vlog2 _ _ _ => ⟨.small 15, .small 15, .reserved, .reserved⟩
  | .vtanh _ _ _ => ⟨.small 15, .small 15, .reserved, .reserved⟩
  | .vcvt _ _ _ _ _ _ _ _ => ⟨.small 15, .small 15, .reserved, .reserved⟩
  | .vpack _ _ _ _ _ => ⟨.small 15, .small 15, .small 15, .reserved⟩
  | .vunpk _ _ _ _ _ _ => ⟨.small 15, .small 15, .reserved, .reserved⟩
  | .vrotr _ _ _ _ => ⟨.small 15, .small 15, .reserved, .reserved⟩
  | .vbcr _ _ _ _ => ⟨.small 15, .small 15, .reserved, .reserved⟩
  | .vredr _ _ _ _ _ => ⟨.small 15, .small 15, .reserved, .reserved⟩
  | .vscnr _ _ _ _ _ => ⟨.small 15, .small 15, .reserved, .reserved⟩
  | .vrotc _ _ _ _ => ⟨.small 15, .small 15, .reserved, .reserved⟩
  | .vbcc _ _ _ _ => ⟨.small 15, .small 15, .reserved, .reserved⟩
  | .vredc _ _ _ _ _ => ⟨.small 15, .small 15, .reserved, .reserved⟩
  | .vscnc _ _ _ _ _ => ⟨.small 15, .small 15, .reserved, .reserved⟩
  | .vperm _ _ _ _ => ⟨.small 15, .small 15, .small 15, .reserved⟩
  | .vmov _ _ _ _ => ⟨.small 15, .small 15, .reserved, .reserved⟩
  | .vmovs _ _ _ => ⟨.small 15, .reserved, .reserved, .reserved⟩
  | .vmovx _ _ _ _ => ⟨.reserved, .small 15, .reserved, .reserved⟩
  | .zwr _ _ _ _ => ⟨.small 3, .small 15, .reserved, .reserved⟩
  | .zrd _ _ _ _ _ _ _ _ => ⟨.small 15, .small 3, .reserved, .reserved⟩
  | .zclr _ => ⟨.small 3, .reserved, .reserved, .reserved⟩
  | .defer _ _ _ => ⟨.reserved, .small 15, .reserved, .reserved⟩
  | .drain _ _ _ => ⟨.small 15, .reserved, .reserved, .reserved⟩
  | .dfcnt _ _ => ⟨.reserved, .reserved, .reserved, .reserved⟩
  | .vld _ _ _ _ _ _ => ⟨.small 15, .reg, .reg, .small 7⟩
  | .vst _ _ _ _ _ _ => ⟨.small 15, .reg, .reg, .small 7⟩
  | .vgath _ _ _ _ _ _ => ⟨.small 15, .reg, .small 15, .small 7⟩
  | .vscat _ _ _ _ _ _ => ⟨.small 15, .reg, .small 15, .small 7⟩
  | .qst _ _ _ _ _ => ⟨.small 15, .reg, .reserved, .small 7⟩
  | .qld _ _ _ _ _ => ⟨.small 15, .reg, .reserved, .small 7⟩
  | .lvld _ _ _ _ => ⟨.reserved, .reg, .reserved, .reserved⟩
  | .qcfg _ _ _ => ⟨.reg, .reg, .reserved, .reserved⟩
  | .cpy _ _ _ _ _ => ⟨.reserved, .reserved, .reserved, .reserved⟩
  | .cpys _ _ _ _ _ => ⟨.reserved, .reserved, .reserved, .reserved⟩
  | .cpyg _ _ _ _ _ => ⟨.reserved, .reserved, .reserved, .reserved⟩
  | .cpyx _ _ _ _ _ => ⟨.reserved, .reserved, .reserved, .reserved⟩
  | .tdef _ _ _ _ => ⟨.reg, .reg, .reserved, .reserved⟩
  | .tset _ _ _ _ => ⟨.reg, .reserved, .reserved, .reserved⟩
  | .trel _ _ => ⟨.reserved, .reserved, .reserved, .reserved⟩
  | .bankcfg _ _ _ _ => ⟨.reg, .reserved, .reserved, .small 63⟩
  | .fset _ _ _ => ⟨.reserved, .reserved, .reserved, .small 63⟩
  | .fwait _ _ _ => ⟨.reserved, .reserved, .reserved, .small 63⟩
  | .fclr _ _ _ => ⟨.reserved, .reserved, .reserved, .small 63⟩
  | .lnt _ _ _ _ => ⟨.reserved, .reg, .reg, .reserved⟩
  | .mopa _ _ _ => ⟨.reserved, .reg, .reg, .reserved⟩
  | .mopb _ _ _ => ⟨.reserved, .reg, .reg, .reserved⟩
  | .mopc _ _ => ⟨.reserved, .reg, .reserved, .reserved⟩
  | .idxv _ _ => ⟨.reserved, .reg, .reserved, .reserved⟩
  | .mgo _ _ => ⟨.reserved, .reserved, .reserved, .reserved⟩
  | .mwait _ _ => ⟨.reserved, .reserved, .reserved, .reserved⟩
  | .mstat _ _ => ⟨.reg, .reserved, .reserved, .reserved⟩
  | .mstatClr _ _ => ⟨.reg, .reserved, .reserved, .reserved⟩
  | .abal _ _ _ => ⟨.reserved, .reserved, .reserved, .reserved⟩
  | .abfr _ _ _ => ⟨.reserved, .reserved, .reserved, .reserved⟩
  | .ainit _ _ _ _ _ => ⟨.reserved, .reserved, .reserved, .reserved⟩
  | .anrm _ _ _ _ => ⟨.reserved, .reserved, .reserved, .reserved⟩
  | .ard _ _ _ _ _ => ⟨.small 15, .reserved, .reserved, .reserved⟩
  | .awr _ _ _ _ _ => ⟨.small 15, .reserved, .reserved, .reserved⟩
  | .efcap _ _ _ => ⟨.reserved, .reserved, .reserved, .reserved⟩
  | .ecat _ _ _ _ => ⟨.reserved, .reserved, .reserved, .reserved⟩
  | .eflt _ _ _ _ _ _ => ⟨.reserved, .reserved, .reserved, .reserved⟩
  | .ereb _ _ _ _ _ => ⟨.reserved, .reserved, .reserved, .reserved⟩
  | .eapl _ _ => ⟨.reserved, .reserved, .reserved, .reserved⟩
  | .eaplRel _ _ _ _ => ⟨.reserved, .reserved, .reserved, .reserved⟩
  | .edrp _ _ => ⟨.reserved, .reserved, .reserved, .reserved⟩
  | .ecnt _ _ _ => ⟨.reserved, .reserved, .reserved, .reserved⟩
  | .ecntArena _ _ => ⟨.reserved, .reserved, .reserved, .reserved⟩
  | .ssync _ _ => ⟨.reserved, .reserved, .reserved, .reserved⟩
  | .bara _ _ _ _ _ => ⟨.reserved, .reserved, .reserved, .reserved⟩
  | .barw _ _ _ _ => ⟨.reserved, .reserved, .reserved, .reserved⟩
  | .baraw _ _ _ _ => ⟨.reserved, .reserved, .reserved, .reserved⟩
  | .xplan _ _ => ⟨.reserved, .reserved, .reserved, .reserved⟩
  | .grank _ _ _ => ⟨.reg, .reserved, .reserved, .reserved⟩
  | .gsize _ _ _ => ⟨.reg, .reserved, .reserved, .reserved⟩
  | .gsizeShr _ _ _ _ => ⟨.reg, .reg, .reserved, .reserved⟩
  | .gnbrNext _ _ _ => ⟨.reg, .reserved, .reserved, .reserved⟩
  | .gnbrPrev _ _ _ => ⟨.reg, .reserved, .reserved, .reserved⟩
  | .gnbrXor _ _ _ _ => ⟨.reg, .reserved, .reserved, .reserved⟩
  | .coll _ _ _ _ _ _ _ _ => ⟨.reg, .reg, .reg, .reserved⟩
  | .collw _ _ => ⟨.reserved, .reserved, .reserved, .reserved⟩
  | .launch _ _ _ _ => ⟨.reserved, .reserved, .reserved, .reserved⟩
  | .scoutStop _ _ _ => ⟨.reg, .reg, .reserved, .reserved⟩
  | .scoutShift _ _ _ _ => ⟨.reg, .reg, .reg, .reserved⟩
  | .scoutResume _ _ _ => ⟨.reg, .reg, .reserved, .reserved⟩
  | .scin _ _ _ _ => ⟨.reg, .reg, .reg, .reserved⟩
  | .scver _ _ _ => ⟨.reg, .reg, .reserved, .reserved⟩
  | .scverPart _ _ => ⟨.reg, .reserved, .reserved, .reserved⟩
  | .ownsetCore _ _ _ _ => ⟨.reg, .reg, .reg, .reserved⟩
  | .ownsetBank _ _ _ _ => ⟨.reg, .reg, .reg, .reserved⟩
  | .ownsetAcm _ _ _ _ => ⟨.reg, .reg, .reg, .reserved⟩
  | .preqClr _ _ _ => ⟨.reg, .reg, .reserved, .reserved⟩
  | .preqSet _ _ _ => ⟨.reg, .reg, .reserved, .reserved⟩
  | .cutb _ _ _ => ⟨.reg, .reg, .reserved, .reserved⟩
  | .idem _ _ _ _ => ⟨.reg, .reg, .reg, .reserved⟩
  | .tmarkQ _ _ _ => ⟨.reg, .reg, .reserved, .reserved⟩
  | .tmarkF _ _ _ => ⟨.reg, .reg, .reserved, .reserved⟩
  | .tlbiPage _ _ _ _ => ⟨.reserved, .reserved, .reserved, .reserved⟩
  | .tlbiCtx _ _ _ => ⟨.reserved, .reserved, .reserved, .reserved⟩
  | .tlbiAll _ _ => ⟨.reserved, .reserved, .reserved, .reserved⟩
  | .tlbiPte _ _ _ => ⟨.reserved, .reserved, .reserved, .reserved⟩
  | .pgret _ _ _ => ⟨.reserved, .reserved, .reserved, .reserved⟩
  | .pgretDrop _ _ _ => ⟨.reserved, .reserved, .reserved, .reserved⟩
  | .wayq _ _ _ => ⟨.reserved, .reserved, .reserved, .reserved⟩
  | .injL2ce _ _ _ => ⟨.reserved, .reserved, .reserved, .reserved⟩
  | .injL2ue _ _ _ => ⟨.reserved, .reserved, .reserved, .reserved⟩
  | .injHbmue _ _ _ => ⟨.reserved, .reserved, .reserved, .reserved⟩
  | .atsiQ _ _ _ => ⟨.reserved, .reserved, .reserved, .reserved⟩
  | .atsiF _ _ _ => ⟨.reserved, .reserved, .reserved, .reserved⟩
  | .slotchk _ _ _ _ => ⟨.reg, .reg, .reg, .reserved⟩
  | .reloc _ _ _ _ => ⟨.reg, .reg, .reg, .reserved⟩
  | .qpop _ _ _ _ => ⟨.reg, .reg, .reg, .reserved⟩
  | .qack _ _ _ _ => ⟨.reg, .reg, .reg, .reserved⟩
  | .polrun _ _ _ _ => ⟨.reg, .reg, .reg, .reserved⟩
  | .lkeyOwn _ _ _ => ⟨.reg, .reg, .reserved, .reserved⟩
  | .lkeyAcc _ _ _ => ⟨.reg, .reg, .reserved, .reserved⟩
  | .lrevk _ _ _ => ⟨.reg, .reg, .reserved, .reserved⟩
  | .qref _ _ _ _ => ⟨.reg, .reg, .reserved, .reserved⟩
  | .evSqsub _ _ _ => ⟨.reserved, .reserved, .reserved, .reserved⟩
  | .evSqstatClearOvf _ _ _ => ⟨.reserved, .reserved, .reserved, .reserved⟩
  | .evMboxDoorbell _ => ⟨.reserved, .reserved, .reserved, .reserved⟩
  | .evPlatEnable _ _ _ => ⟨.reserved, .reserved, .reserved, .reserved⟩
  | .evPlatDisable _ _ _ => ⟨.reserved, .reserved, .reserved, .reserved⟩
  | .evPkillGo _ _ => ⟨.reserved, .reserved, .reserved, .reserved⟩
  | .evRegisterWrite _ _ _ => ⟨.reserved, .reserved, .reserved, .reserved⟩
  | .evFrontEndConsume _ _ => ⟨.reserved, .reserved, .reserved, .reserved⟩
  | .evKernelPlace _ _ => ⟨.reserved, .reserved, .reserved, .reserved⟩
  | .evJobEnd _ => ⟨.reserved, .reserved, .reserved, .reserved⟩
  | .evKernelRetire _ => ⟨.reserved, .reserved, .reserved, .reserved⟩
  | .evStreamWaitEnd _ _ => ⟨.reserved, .reserved, .reserved, .reserved⟩
  | .evStreamYielded _ _ => ⟨.reserved, .reserved, .reserved, .reserved⟩
  | .evLoadFill _ _ _ => ⟨.reserved, .reserved, .reserved, .reserved⟩
  | .evShadowResume _ _ _ _ => ⟨.reserved, .reserved, .reserved, .reserved⟩
  | .evWalkComplete _ _ => ⟨.reserved, .reserved, .reserved, .reserved⟩
  | .evCopyIssue _ => ⟨.reserved, .reserved, .reserved, .reserved⟩
  | .evCopyComplete _ _ _ => ⟨.reserved, .reserved, .reserved, .reserved⟩
  | .evFlagFire _ _ => ⟨.reserved, .reserved, .reserved, .reserved⟩
  | .evFlagClearAct _ _ => ⟨.reserved, .reserved, .reserved, .reserved⟩
  | .evFwaitMarkerIssue _ _ => ⟨.reserved, .reserved, .reserved, .reserved⟩
  | .evMgoIssue _ => ⟨.reserved, .reserved, .reserved, .reserved⟩
  | .evFoldEntry _ => ⟨.reserved, .reserved, .reserved, .reserved⟩
  | .evArrayResume _ _ => ⟨.reserved, .reserved, .reserved, .reserved⟩
  | .evCollIssue _ => ⟨.reserved, .reserved, .reserved, .reserved⟩
  | .evCollComplete _ _ => ⟨.reserved, .reserved, .reserved, .reserved⟩
  | .evCollwComplete _ => ⟨.reserved, .reserved, .reserved, .reserved⟩
  | .evSuperstepComplete _ => ⟨.reserved, .reserved, .reserved, .reserved⟩
  | .evCommPhaseEnd _ _ => ⟨.reserved, .reserved, .reserved, .reserved⟩
  | .evReplayWindowRetire _ => ⟨.reserved, .reserved, .reserved, .reserved⟩
  | .evEngineUeReplay _ _ => ⟨.reserved, .reserved, .reserved, .reserved⟩
  | .evBacksightMismatch _ _ => ⟨.reserved, .reserved, .reserved, .reserved⟩
  | .evTerminationComplete _ => ⟨.reserved, .reserved, .reserved, .reserved⟩
  | .evEventDispatch _ => ⟨.reserved, .reserved, .reserved, .reserved⟩
  | .evStationCoreReset _ => ⟨.reserved, .reserved, .reserved, .reserved⟩
  | .evTimeSliceExpiry _ => ⟨.reserved, .reserved, .reserved, .reserved⟩
  | .evSchedulerWatchdog _ => ⟨.reserved, .reserved, .reserved, .reserved⟩
  | .evPowerOn => ⟨.reserved, .reserved, .reserved, .reserved⟩
  | .evBootImageOffer _ _ _ => ⟨.reserved, .reserved, .reserved, .reserved⟩
  | .evRemoteResponse _ _ => ⟨.reserved, .reserved, .reserved, .reserved⟩
  | .evRemoteTimeout _ _ => ⟨.reserved, .reserved, .reserved, .reserved⟩
  | .evIncomingRequest _ _ _ => ⟨.reserved, .reserved, .reserved, .reserved⟩
  | .evAtsResponse _ _ _ _ _ _ => ⟨.reserved, .reserved, .reserved, .reserved⟩
  | .evPriResponse _ _ _ => ⟨.reserved, .reserved, .reserved, .reserved⟩
  | .evPriTimeout _ _ _ => ⟨.reserved, .reserved, .reserved, .reserved⟩
  | .evAtsInvalidation _ _ _ => ⟨.reserved, .reserved, .reserved, .reserved⟩
  | .evPackageIdAssign _ => ⟨.reserved, .reserved, .reserved, .reserved⟩
  | .evD2dFlitRetry _ => ⟨.reserved, .reserved, .reserved, .reserved⟩
  | .evPortRetrainFail _ _ => ⟨.reserved, .reserved, .reserved, .reserved⟩
  | .evHbmStackFail _ => ⟨.reserved, .reserved, .reserved, .reserved⟩
  | .evCoolantOverlimit => ⟨.reserved, .reserved, .reserved, .reserved⟩
  | .evPowerLoss => ⟨.reserved, .reserved, .reserved, .reserved⟩
  | .evUalinkPortTrained _ => ⟨.reserved, .reserved, .reserved, .reserved⟩
  | .evFunctionBringUp _ => ⟨.reserved, .reserved, .reserved, .reserved⟩
  | .evInFieldScanTest _ _ => ⟨.reserved, .reserved, .reserved, .reserved⟩

/-- The data queue that register n names (R80, R92). -/
def dqOf? (r : XReg) : Option Nat := if 56 ≤ r.toNat then some (r.toNat - 56) else none

/-- Whether a stream pops the data queue (R92). -/
def dqConsumer (st : StreamId) (q : Nat) : Bool :=
  match st with | .A => 4 ≤ q | .X => q < 4 | .M => false | .C => false
/-- Whether a stream pushes the data queue (R92). -/
def dqProducer (st : StreamId) (q : Nat) : Bool :=
  match st with | .A => q < 4 | .X => 4 ≤ q | .M => false | .C => false

/-- Whether a stream has data-queue ports (R92). -/
def StreamId.hasPorts : StreamId → Bool
  | .A => true | .X => true | .M => false | .C => false

/-- A use of a data queue at the end that the stream may not use, by a register field or by DQPUT or DQCLS (R92, R93). -/
def Instr.wrongEnd (who : StreamId) (i : Instr) : Bool :=
  who.hasPorts &&
  (i.srcs.any (fun r => match dqOf? r with | some q => !dqConsumer who q | none => false) ||
   i.dsts.any (fun r => match dqOf? r with | some q => !dqProducer who q | none => false) ||
   (match i with
    | .dqput _ _ q => !dqProducer who q.toNat
    | .dqcls _ q => !dqProducer who q.toNat
    | _ => false))

/-- The engine queues a stream may push to (R126). -/
def StreamId.mayPush (st : StreamId) (t : FlagTarget) : Bool :=
  match t with
  | .self => true
  | .copy => st == .A || st == .C
  | .matrix => st == .M
  | .collective => st == .C

/-- The control words a station core has (R106). -/
def CtlWord.onStation : CtlWord → Bool
  | .stat => true | .prc => true | .allot => true
  | .fpm => false | .qsel => false | .lvlbase => false | .efarena => false | .trapvec => false | .scopemode => false
  | .tierinfo _ => false | .tcause => false | .tepc => false | .tval => false | .tprc => false | .buf _ => false

/-- The checks of step 6 that depend on the context: a wrong queue end (R92), a flag target queue the stream may not push to
(R131), a control word that a station core does not have (R106). -/
def Instr.reservedIn (r : Role) (i : Instr) : Bool :=
  match r with
  | .stream who =>
    i.wrongEnd who ||
    (match i with
     | .fset _ _ t => !who.mayPush t
     | .fwait _ _ t => !who.mayPush t
     | .fclr _ _ t => !who.mayPush t
     | _ => false)
  | .handler => false
  | .station =>
    (match i with
     | .cwrd _ _ w => !w.onStation
     | .cwwr _ w _ => !w.onStation
     | _ => false)

/-- The majors assigned in a context (R56, R57). -/
def majAssigned (r : Role) (maj : Nat) : Bool :=
  match r with
  | .station => (0x01 ≤ maj && maj ≤ 0x10) || (0x30 ≤ maj && maj ≤ 0x32)
  | .stream _ => (0x01 ≤ maj && maj ≤ 0x1C) || (0x20 ≤ maj && maj ≤ 0x28) || (0x30 ≤ maj && maj ≤ 0x32)
  | .handler => (0x01 ≤ maj && maj ≤ 0x1C) || (0x20 ≤ maj && maj ≤ 0x28) || (0x30 ≤ maj && maj ≤ 0x32)

/-- The privileged majors (R56). -/
def majPrivileged (maj : Nat) : Bool := 0x30 ≤ maj && maj ≤ 0x32

/-- Whether a MIN is assigned in a stream, whatever the state (R81, R93, R95, R144, R155, R178, R211, R224, R273, R279). -/
def minAssignedStream (st : StreamId) (maj min : Nat) : Bool :=
  match maj with
  | 0x0A => min ≠ 0 || st == .A
  | 0x0B => st == .A || st == .X
  | 0x11 => st == .X | 0x12 => st == .X | 0x13 => st == .X | 0x14 => st == .X | 0x15 => st == .X | 0x16 => st == .X
  | 0x17 => st == .X | 0x18 => st == .X | 0x19 => st == .X | 0x1A => st == .X | 0x1B => st == .X
  | 0x1C => 2 ≤ min || st == .X
  | 0x20 => st == .A || st == .C
  | 0x23 => st == .M
  | 0x24 => st == .X || (st == .M && min < 4)
  | 0x26 => min ≠ 4 || st == .A
  | 0x27 => min < 3 || st == .C
  | _ => true

/-- Whether a MIN is assigned in a context (R57, R106, R241). -/
def minAssigned (r : Role) (maj min : Nat) : Bool :=
  match r with
  | .stream st => minAssignedStream st maj min
  | .handler => !majPrivileged maj
  | .station =>
    maj ≠ 0x0B && !(maj == 0x0A && (min == 0 || min == 1 || min == 4)) && !(maj == 0x08 && min == 2) &&
      !(maj == 0x09 && (min == 2 || min == 4))

/-- The six steps of R58, in order, for a word decoded in a context. -/
def decodeIn (r : Role) (w w1 : IWord) : Except DecodeTrap Instr :=
  if w = 0 then .error .allZeros
  else if w = BitVec.allOnes 48 then .error .allOnes
  else if !majAssigned r (wordMaj w) then .error .majUnassigned
  else if majPrivileged (wordMaj w) && (match r with | .stream _ => true | _ => false) then .error .privileged
  else if !minAssigned r (wordMaj w) (wordMin w) then .error .minUnassigned
  else match decodeFields w w1 with
    | .error e => .error e
    | .ok i => rsv (!i.reservedIn r) i

/-- The words that may not stand under RPT: RPT itself, Forms B, L and E, and majors 0x08, 0x09, 0x0A and 0x10 (R54). -/
def ungovernable (maj min : Nat) : Bool :=
  maj == 0x07 || maj == 0x08 || maj == 0x09 || maj == 0x0A || maj == 0x10 || maj == 0x20 || (maj == 0x0B && min == 4)

/-- The governed word of an RPT pair (R54): steps 1 to 4, the pairing cases at step 5, a privileged word among them whatever its strides
(DEDUCED log 91), then steps 5 and 6 with the strides' reserved fields (R109; DESIGN CHOICE log 78). -/
def decodeGoverned (r : Role) (sd sa sb sc : BitVec 2) (w : IWord) : Except DecodeTrap Instr :=
  if w = 0 then .error .allZeros
  else if w = BitVec.allOnes 48 then .error .allOnes
  else if !majAssigned r (wordMaj w) then .error .majUnassigned
  else if majPrivileged (wordMaj w) then
    (match r with | .stream _ => .error .privileged | .handler => .error .minUnassigned | .station => .error .minUnassigned)
  else if ungovernable (wordMaj w) (wordMin w) then .error .minUnassigned
  else match decodeIn r w 0 with
    | .error e => .error e
    | .ok i =>
      rsv (!((sd != 0 && i.strides.d == .reserved) || (sa != 0 && i.strides.a == .reserved) ||
             (sb != 0 && i.strides.b == .reserved) || (sc != 0 && i.strides.c == .reserved))) i

/-- The number of words of the instruction that a first word begins: two for Form L (R46). -/
def wordCount (w : IWord) : Nat := if wordMaj w = 0x07 then 2 else 1

/-- An instruction laid out in its form: MAJ, MIN and the fields. -/
inductive Enc where
  | s (maj min : BitVec 6) (f : FormS)
  | i (maj min : BitVec 6) (f : FormI)
  | m (maj min : BitVec 6) (f : FormM)
  | b (maj min : BitVec 6) (f : FormB)
  | l (maj min : BitVec 6) (f : FormL)
  | v (maj min : BitVec 6) (f : FormV)
  | e (maj min : BitVec 6) (f : FormE)
  | none
  deriving DecidableEq, Repr

/-- The form of every instruction; a device event has none. -/
def Instr.enc (i : Instr) : Enc :=
  match i with
  | .add g d a b => .s 0x01 0x00 ⟨g, d, a, b, 0, 0⟩
  | .sub g d a b => .s 0x01 0x01 ⟨g, d, a, b, 0, 0⟩
  | .andR g d a b => .s 0x01 0x02 ⟨g, d, a, b, 0, 0⟩
  | .orR g d a b => .s 0x01 0x03 ⟨g, d, a, b, 0, 0⟩
  | .xorR g d a b => .s 0x01 0x04 ⟨g, d, a, b, 0, 0⟩
  | .logt g d a b c tt => .s 0x01 0x05 ⟨g, d, a, b, c, tt⟩
  | .shl g d a b => .s 0x01 0x06 ⟨g, d, a, b, 0, 0⟩
  | .shr g d a b => .s 0x01 0x07 ⟨g, d, a, b, 0, 0⟩
  | .sra g d a b => .s 0x01 0x08 ⟨g, d, a, b, 0, 0⟩
  | .rol g d a b => .s 0x01 0x09 ⟨g, d, a, b, 0, 0⟩
  | .minS g d a b => .s 0x01 0x0A ⟨g, d, a, b, 0, 0⟩
  | .maxS g d a b => .s 0x01 0x0B ⟨g, d, a, b, 0, 0⟩
  | .minu g d a b => .s 0x01 0x0C ⟨g, d, a, b, 0, 0⟩
  | .maxu g d a b => .s 0x01 0x0D ⟨g, d, a, b, 0, 0⟩
  | .sel g d a b n => .s 0x01 0x0E ⟨g, d, a, b, (0#3 ++ n), 0⟩
  | .abs g d a => .s 0x01 0x0F ⟨g, d, a, 0, 0, 0⟩
  | .addi g d a imm => .i 0x02 0x00 ⟨g, d, a, imm⟩
  | .andi g d a imm => .i 0x02 0x01 ⟨g, d, a, imm⟩
  | .ori g d a imm => .i 0x02 0x02 ⟨g, d, a, imm⟩
  | .xori g d a imm => .i 0x02 0x03 ⟨g, d, a, imm⟩
  | .shli g d a n => .i 0x02 0x04 ⟨g, d, a, (0#14 ++ n)⟩
  | .shri g d a n => .i 0x02 0x05 ⟨g, d, a, (0#14 ++ n)⟩
  | .srai g d a n => .i 0x02 0x06 ⟨g, d, a, (0#14 ++ n)⟩
  | .li g d imm => .i 0x02 0x07 ⟨g, d, 0, imm⟩
  | .mul g d a b => .s 0x03 0x00 ⟨g, d, a, b, 0, 0⟩
  | .mulh g d a b => .s 0x03 0x01 ⟨g, d, a, b, 0, 0⟩
  | .mulhu g d a b => .s 0x03 0x02 ⟨g, d, a, b, 0, 0⟩
  | .madd g d a b c => .s 0x03 0x03 ⟨g, d, a, b, c, 0⟩
  | .div g d a b => .s 0x03 0x04 ⟨g, d, a, b, 0, 0⟩
  | .divu g d a b => .s 0x03 0x05 ⟨g, d, a, b, 0, 0⟩
  | .rem g d a b => .s 0x03 0x06 ⟨g, d, a, b, 0, 0⟩
  | .remu g d a b => .s 0x03 0x07 ⟨g, d, a, b, 0, 0⟩
  | .clz g d a => .s 0x04 0x00 ⟨g, d, a, 0, 0, 0⟩
  | .ctz g d a => .s 0x04 0x01 ⟨g, d, a, 0, 0, 0⟩
  | .popc g d a => .s 0x04 0x02 ⟨g, d, a, 0, 0, 0⟩
  | .brev g d a => .s 0x04 0x03 ⟨g, d, a, 0, 0, 0⟩
  | .bfx g d a pos len => .s 0x04 0x04 ⟨g, d, a, 0, pos, (0#2 ++ len)⟩
  | .bfxu g d a pos len => .s 0x04 0x05 ⟨g, d, a, 0, pos, (0#2 ++ len)⟩
  | .bfi g d a b pos len => .s 0x04 0x06 ⟨g, d, a, b, pos, (0#2 ++ len)⟩
  | .sext g d a k => .s 0x04 0x07 ⟨g, d, a, 0, 0, (0#2 ++ k)⟩
  | .cmp g pd a b cc => .s 0x05 0x00 ⟨g, (0#3 ++ pd), a, b, 0, (0#5 ++ cc.code)⟩
  | .plog g pd pa pb tt => .s 0x05 0x01 ⟨g, (0#3 ++ pd), (0#3 ++ pa), (0#3 ++ pb), 0, (0#4 ++ tt)⟩
  | .pmovGet g d => .s 0x05 0x02 ⟨g, d, 0, 0, 0, (0#7 ++ 0#1)⟩
  | .pmovPut g a => .s 0x05 0x02 ⟨g, 0, a, 0, 0, (0#7 ++ 1#1)⟩
  | .cmpi g cc pd a imm => .i 0x05 0x03 ⟨g, (cc.code ++ pd), a, imm⟩
  | .lea g d a b sh => .s 0x06 0x00 ⟨g, d, a, b, 0, (0#6 ++ sh)⟩
  | .leai g d a imm => .i 0x06 0x01 ⟨g, d, a, imm⟩
  | .lil g d imm => .l 0x07 0x00 ⟨g, d, 0, 0, imm⟩
  | .jmpl g imm => .l 0x07 0x01 ⟨g, 0, 0, 0, imm⟩
  | .br g disp => .b 0x08 0x00 ⟨g, disp⟩
  | .call g disp => .b 0x08 0x01 ⟨g, disp⟩
  | .callc g disp => .b 0x08 0x02 ⟨g, disp⟩
  | .jmpr g a => .s 0x09 0x00 ⟨g, 0, a, 0, 0, 0⟩
  | .callr g a => .s 0x09 0x01 ⟨g, 0, a, 0, 0, 0⟩
  | .callcr g a => .s 0x09 0x02 ⟨g, 0, a, 0, 0, 0⟩
  | .ret g a => .s 0x09 0x03 ⟨g, 0, a, 0, 0, 0⟩
  | .retc g a => .s 0x09 0x04 ⟨g, 0, a, 0, 0, 0⟩
  | .fork g ax am ac => .s 0x0A 0x00 ⟨g, 0, 0, 0, 0, (0#2 ++ ax.code ++ am.code ++ ac.code)⟩
  | .rdv g => .s 0x0A 0x01 ⟨g, 0, 0, 0, 0, 0⟩
  | .rpt g a sd sa sb sc => .s 0x0A 0x02 ⟨g, 0, a, 0, 0, (sd ++ sa ++ sb ++ sc)⟩
  | .halt g => .s 0x0A 0x03 ⟨g, 0, 0, 0, 0, 0⟩
  | .yield g => .s 0x0A 0x04 ⟨g, 0, 0, 0, 0, 0⟩
  | .dqput g a q => .s 0x0B 0x00 ⟨g, 0, a, 0, (0#3 ++ q), 0⟩
  | .dqget g d q => .s 0x0B 0x01 ⟨g, d, 0, 0, (0#3 ++ q), 0⟩
  | .dqcls g q => .s 0x0B 0x02 ⟨g, 0, 0, 0, (0#3 ++ q), 0⟩
  | .bqput g n inv => .s 0x0B 0x03 ⟨g, 0, 0, 0, (0#3 ++ n), (0#7 ++ BitVec.ofBool inv)⟩
  | .bqbr g disp => .b 0x0B 0x04 ⟨g, disp⟩
  | .ld g sx tile cls sz sc d a off =>
    .m 0x0C (ldMin sx tile cls sz) ⟨g, d, a, sc.code, off⟩
  | .st g tile cls sz sc d a off => .m 0x0D (stMin tile cls sz) ⟨g, d, a, sc.code, off⟩
  | .atom g op big ord sc tier d a b =>
    .s 0x0E (atomMin sc big ord) ⟨g, d, a, b, 0#3 ++ tier, op.code ++ 0#4⟩
  | .fence g kind sc tier => .s 0x0F 0x00 ⟨g, 0, 0, 0, (0#3 ++ tier), (kind.code ++ sc.code ++ 0#3)⟩
  | .xfence g pfrom pto => .s 0x0F 0x01 ⟨g, 0, 0, 0, (0#1 ++ pto), (0#3 ++ pfrom)⟩
  | .trap g n => .s 0x10 0x00 ⟨g, 0, 0, 0, 0, n⟩
  | .tret g => .s 0x10 0x01 ⟨g, 0, 0, 0, 0, (0#7 ++ 0#1)⟩
  | .tretSkip g => .s 0x10 0x01 ⟨g, 0, 0, 0, 0, (0#7 ++ 1#1)⟩
  | .sysc g n => .s 0x10 0x02 ⟨g, 0, 0, 0, 0, n⟩
  | .cwrd g d w => .s 0x10 0x03 ⟨g, d, 0, 0, w.index, w.code⟩
  | .cwwr g w a => .s 0x10 0x04 ⟨g, 0, a, 0, w.index, w.code⟩
  | .nop g => .s 0x10 0x05 ⟨g, 0, 0, 0, 0, 0⟩
  | .vadd ty vd va vb amod bmod m rm => .v 0x11 0x00 ⟨vd, va, vb, 0, amod.bits, bmod.bits, m, rm.code, ty.code⟩
  | .vsub ty vd va vb amod bmod m rm => .v 0x11 0x01 ⟨vd, va, vb, 0, amod.bits, bmod.bits, m, rm.code, ty.code⟩
  | .vmul ty vd va vb amod bmod m rm => .v 0x11 0x02 ⟨vd, va, vb, 0, amod.bits, bmod.bits, m, rm.code, ty.code⟩
  | .vfma ty vd va vb vc amod bmod m rm => .v 0x11 0x03 ⟨vd, va, vb, vc, amod.bits, bmod.bits, m, rm.code, ty.code⟩
  | .vfms ty vd va vb vc amod bmod m rm => .v 0x11 0x04 ⟨vd, va, vb, vc, amod.bits, bmod.bits, m, rm.code, ty.code⟩
  | .vmin ty vd va vb amod bmod m => .v 0x11 0x05 ⟨vd, va, vb, 0, amod.bits, bmod.bits, m, 0, ty.code⟩
  | .vmax ty vd va vb amod bmod m => .v 0x11 0x06 ⟨vd, va, vb, 0, amod.bits, bmod.bits, m, 0, ty.code⟩
  | .vabs ty vd va amod m => .v 0x11 0x07 ⟨vd, va, 0, 0, amod.bits, 0, m, 0, ty.code⟩
  | .vneg ty vd va amod m => .v 0x11 0x08 ⟨vd, va, 0, 0, amod.bits, 0, m, 0, ty.code⟩
  | .viadd w mode vd va vb amod bmod m => .v 0x12 0x00 ⟨vd, va, vb, mode.code, amod.bits, bmod.bits, m, 0, w.code⟩
  | .visub w mode vd va vb amod bmod m => .v 0x12 0x01 ⟨vd, va, vb, mode.code, amod.bits, bmod.bits, m, 0, w.code⟩
  | .vimul w mode vd va vb amod bmod m => .v 0x12 0x02 ⟨vd, va, vb, mode.code, amod.bits, bmod.bits, m, 0, w.code⟩
  | .vimad w vd va vb vc amod bmod m => .v 0x12 0x03 ⟨vd, va, vb, vc, amod.bits, bmod.bits, m, 0, w.code⟩
  | .vshl w vd va vb amod bmod m => .v 0x12 0x04 ⟨vd, va, vb, 0, amod.bits, bmod.bits, m, 0, w.code⟩
  | .vshr w vd va vb amod bmod m => .v 0x12 0x05 ⟨vd, va, vb, 0, amod.bits, bmod.bits, m, 0, w.code⟩
  | .vsra w vd va vb amod bmod m => .v 0x12 0x06 ⟨vd, va, vb, 0, amod.bits, bmod.bits, m, 0, w.code⟩
  | .vlogt vd va vb vc tt m =>
    .v 0x12 0x07 ⟨vd, va, vb, vc, tt.extractLsb' 2 6, tt.extractLsb' 0 2 ++ 0#4, m, 0, 0⟩
  | .vimin w uns vd va vb amod bmod m => .v 0x12 0x08 ⟨vd, va, vb, (0#3 ++ BitVec.ofBool uns), amod.bits, bmod.bits, m, 0, w.code⟩
  | .vimax w uns vd va vb amod bmod m => .v 0x12 0x09 ⟨vd, va, vb, (0#3 ++ BitVec.ofBool uns), amod.bits, bmod.bits, m, 0, w.code⟩
  | .vcmp ty cc md va vb m => .v 0x13 0x00 ⟨(0#1 ++ md), va, vb, cc.code, 0, 0, m, 0, ty.code⟩
  | .vsel vd va vb m => .v 0x13 0x01 ⟨vd, va, vb, 0, 0, 0, m, 0, 0⟩
  | .vmsk md ma mb tt m => .v 0x13 0x02 ⟨(0#1 ++ md), (0#1 ++ ma), (0#1 ++ mb), tt, 0, 0, m, 0, 0⟩
  | .vrcp vd va m => .v 0x14 0x00 ⟨vd, va, 0, 0, 0, 0, m, 0, 0⟩
  | .vrsq vd va m => .v 0x14 0x01 ⟨vd, va, 0, 0, 0, 0, m, 0, 0⟩
  | .vrcpr vd va vb m rm => .v 0x14 0x02 ⟨vd, va, vb, 0, 0, 0, m, rm.code, 0⟩
  | .vrsqr vd va vb m rm => .v 0x14 0x03 ⟨vd, va, vb, 0, 0, 0, m, rm.code, 0⟩
  | .vexp2 vd va m => .v 0x14 0x04 ⟨vd, va, 0, 0, 0, 0, m, 0, 0⟩
  | .vlog2 vd va m => .v 0x14 0x05 ⟨vd, va, 0, 0, 0, 0, m, 0, 0⟩
  | .vtanh vd va m => .v 0x14 0x06 ⟨vd, va, 0, 0, 0, 0, m, 0, 0⟩
  | .vcvt src dst inf vd va amod m rm => .v 0x15 0x00 ⟨vd, va, src.code, dst.code, amod.bits, 0, m, rm.code, (0#1 ++ BitVec.ofBool inf)⟩
  | .vpack w vd va vb m => .v 0x15 0x01 ⟨vd, va, vb, 0, 0, 0, m, 0, w.code⟩
  | .vunpk w sx vd va part m => .v 0x15 0x02 ⟨vd, va, (0#1 ++ part), (0#3 ++ BitVec.ofBool sx), 0, 0, m, 0, w.code⟩
  | .vrotr vd va k m => .v 0x16 0x00 ⟨vd, va, 0, 0, 0, k, m, 0, 0⟩
  | .vbcr vd va k m => .v 0x16 0x01 ⟨vd, va, 0, 0, 0, k, m, 0, 0⟩
  | .vredr op vd va m rm => .v 0x16 0x02 ⟨vd, va, 0, op.code, 0, 0, m, rm.code, 0⟩
  | .vscnr op vd va m rm => .v 0x16 0x03 ⟨vd, va, 0, op.code, 0, 0, m, rm.code, 0⟩
  | .vrotc vd va k m => .v 0x17 0x00 ⟨vd, va, 0, 0, 0, (0#2 ++ k), m, 0, 0⟩
  | .vbcc vd va k m => .v 0x17 0x01 ⟨vd, va, 0, 0, 0, (0#2 ++ k), m, 0, 0⟩
  | .vredc op vd va m rm => .v 0x17 0x02 ⟨vd, va, 0, op.code, 0, 0, m, rm.code, 0⟩
  | .vscnc op vd va m rm => .v 0x17 0x03 ⟨vd, va, 0, op.code, 0, 0, m, rm.code, 0⟩
  | .vperm vd va vb m => .v 0x18 0x00 ⟨vd, va, vb, 0, 0, 0, m, 0, 0⟩
  | .vmov vd va amod m => .v 0x18 0x01 ⟨vd, va, 0, 0, amod.bits, 0, m, 0, 0⟩
  | .vmovs vd n m => .v 0x18 0x02 ⟨vd, 0, 0, 0, n, 0, m, 0, 0⟩
  | .vmovx n va sx m => .v 0x18 0x03 ⟨0, va, 0, 0, n, 0, m, 0, (0#1 ++ BitVec.ofBool sx)⟩
  | .zwr z va q m => .v 0x19 0x00 ⟨(0#2 ++ z), va, 0, 0, 0, (0#4 ++ q), m, 0, 0⟩
  | .zrd src dst inf vd z q m rm => .v 0x19 0x01 ⟨vd, (0#2 ++ z), src.code, dst.code, 0, (0#4 ++ q), m, rm.code, (0#1 ++ BitVec.ofBool inf)⟩
  | .zclr z => .v 0x19 0x02 ⟨(0#2 ++ z), 0, 0, 0, 0, 0, 0, 0, 0⟩
  | .defer va b m => .v 0x1A 0x00 ⟨0, va, 0, 0, 0, b, m, 0, 0⟩
  | .drain vd b m => .v 0x1A 0x01 ⟨vd, 0, 0, 0, 0, b, m, 0, 0⟩
  | .dfcnt n b => .v 0x1A 0x02 ⟨0, 0, 0, 0, n, b, 0, 0, 0⟩
  | .vld g vd a b m weak => .s 0x1B 0x00 ⟨g, (0#2 ++ vd), a, b, (0#3 ++ m), (0#7 ++ BitVec.ofBool weak)⟩
  | .vst g vd a b m weak => .s 0x1B 0x01 ⟨g, (0#2 ++ vd), a, b, (0#3 ++ m), (0#7 ++ BitVec.ofBool weak)⟩
  | .vgath g vd a vb m weak => .s 0x1B 0x02 ⟨g, (0#2 ++ vd), a, (0#2 ++ vb), (0#3 ++ m), (0#7 ++ BitVec.ofBool weak)⟩
  | .vscat g vd a vb m weak => .s 0x1B 0x03 ⟨g, (0#2 ++ vd), a, (0#2 ++ vb), (0#3 ++ m), (0#7 ++ BitVec.ofBool weak)⟩
  | .qst g k vd a m => .s 0x1C 0x00 ⟨g, (0#2 ++ vd), a, 0, (0#3 ++ m), (0#6 ++ k.code)⟩
  | .qld g k vd a m => .s 0x1C 0x01 ⟨g, (0#2 ++ vd), a, 0, (0#3 ++ m), (0#6 ++ k.code)⟩
  | .lvld g k tb a => .s 0x1C 0x02 ⟨g, 0, a, 0, 0, (0#5 ++ BitVec.ofBool tb ++ k.code)⟩
  | .qcfg g d a => .s 0x1C 0x03 ⟨g, d, a, 0, 0, 0⟩
  | .cpy a b sz step cnt => .e 0x20 0x00 ⟨a, b, sz, step, cnt⟩
  | .cpys a b sz step cnt => .e 0x20 0x01 ⟨a, b, sz, step, cnt⟩
  | .cpyg a b sz step cnt => .e 0x20 0x02 ⟨a, b, sz, step, cnt⟩
  | .cpyx a b sz step cnt => .e 0x20 0x03 ⟨a, b, sz, step, cnt⟩
  | .tdef g d t a => .s 0x21 0x00 ⟨g, d, a, 0, 0, t⟩
  | .tset g d t ts => .s 0x21 0x01 ⟨g, d, 0, 0, ts.code, t⟩
  | .trel g t => .s 0x21 0x02 ⟨g, 0, 0, 0, 0, t⟩
  | .bankcfg g d b mode => .s 0x21 0x03 ⟨g, d, 0, 0, b, (0#6 ++ mode.code)⟩
  | .fset g n tg => .s 0x22 0x00 ⟨g, 0, 0, 0, n, (0#6 ++ tg.code)⟩
  | .fwait g n tg => .s 0x22 0x01 ⟨g, 0, 0, 0, n, (0#6 ++ tg.code)⟩
  | .fclr g n tg => .s 0x22 0x02 ⟨g, 0, 0, 0, n, (0#6 ++ tg.code)⟩
  | .lnt g a b lv => .s 0x23 0x00 ⟨g, 0, a, b, (0#3 ++ lv), 0⟩
  | .mopa g a b => .s 0x23 0x01 ⟨g, 0, a, b, 0, 0⟩
  | .mopb g a b => .s 0x23 0x02 ⟨g, 0, a, b, 0, 0⟩
  | .mopc g a => .s 0x23 0x03 ⟨g, 0, a, 0, 0, 0⟩
  | .idxv g a => .s 0x23 0x04 ⟨g, 0, a, 0, 0, 0⟩
  | .mgo g nlev => .s 0x23 0x05 ⟨g, 0, 0, 0, (0#3 ++ nlev), 0⟩
  | .mwait g n => .s 0x23 0x06 ⟨g, 0, 0, 0, (0#2 ++ n), 0⟩
  | .mstat g d => .s 0x23 0x07 ⟨g, d, 0, 0, 0, (0#7 ++ 0#1)⟩
  | .mstatClr g d => .s 0x23 0x07 ⟨g, d, 0, 0, 0, (0#7 ++ 1#1)⟩
  | .abal g d n => .s 0x24 0x00 ⟨g, d, 0, 0, n, 0⟩
  | .abfr g a n => .s 0x24 0x01 ⟨g, 0, a, 0, n, 0⟩
  | .ainit g a b n pr => .s 0x24 0x02 ⟨g, 0, a, b, n, (0#7 ++ BitVec.ofBool pr)⟩
  | .anrm g a n pr => .s 0x24 0x03 ⟨g, 0, a, 0, n, (0#7 ++ BitVec.ofBool pr)⟩
  | .ard g fmt vd a m => .s 0x24 0x04 ⟨g, (0#2 ++ vd), a, 0, (0#3 ++ m), (0#6 ++ fmt.code)⟩
  | .awr g fmt vd a m => .s 0x24 0x05 ⟨g, (0#2 ++ vd), a, 0, (0#3 ++ m), (0#6 ++ fmt.code)⟩
  | .efcap g d a => .s 0x25 0x00 ⟨g, d, a, 0, 0, 0⟩
  | .ecat g d a b => .s 0x25 0x01 ⟨g, d, a, b, 0, 0⟩
  | .eflt g d a b c out => .s 0x25 0x02 ⟨g, d, a, b, c, (0#7 ++ BitVec.ofBool out)⟩
  | .ereb g d a b c => .s 0x25 0x03 ⟨g, d, a, b, c, 0⟩
  | .eapl g a => .s 0x25 0x04 ⟨g, 0, a, 0, 0, (0#4 ++ 0#1 ++ 0#3)⟩
  | .eaplRel g a sc tier => .s 0x25 0x04 ⟨g, 0, a, 0, (0#3 ++ tier), (0#4 ++ 1#1 ++ sc.code)⟩
  | .edrp g a => .s 0x25 0x05 ⟨g, 0, a, 0, 0, 0⟩
  | .ecnt g d a => .s 0x25 0x06 ⟨g, d, a, 0, 0, (0#7 ++ 0#1)⟩
  | .ecntArena g d => .s 0x25 0x06 ⟨g, d, 0, 0, 0, (0#7 ++ 1#1)⟩
  | .ssync g d => .s 0x26 0x00 ⟨g, d, 0, 0, 0, 0⟩
  | .bara g d n sm i => .s 0x26 0x01 ⟨g, d, 0, 0, (0#3 ++ n), (sm ++ i)⟩
  | .barw g a n i => .s 0x26 0x02 ⟨g, 0, a, 0, (0#3 ++ n), (0#4 ++ i)⟩
  | .baraw g n sm i => .s 0x26 0x03 ⟨g, 0, 0, 0, (0#3 ++ n), (sm ++ i)⟩
  | .xplan g a => .s 0x26 0x04 ⟨g, 0, a, 0, 0, 0⟩
  | .grank g d n => .s 0x27 0x00 ⟨g, d, 0, 0, (0#3 ++ n), 0⟩
  | .gsize g d n => .s 0x27 0x01 ⟨g, d, 0, 0, (0#3 ++ n), (0#7 ++ 0#1)⟩
  | .gsizeShr g d a n => .s 0x27 0x01 ⟨g, d, a, 0, (0#3 ++ n), (0#7 ++ 1#1)⟩
  | .gnbrNext g d n => .s 0x27 0x02 ⟨g, d, 0, 0, (0#3 ++ n), (0#6 ++ 0#2)⟩
  | .gnbrPrev g d n => .s 0x27 0x02 ⟨g, d, 0, 0, (0#3 ++ n), (0#6 ++ 1#2)⟩
  | .gnbrXor g d n j => .s 0x27 0x02 ⟨g, d, 0, 0, (0#3 ++ n), (0#1 ++ j ++ 2#2)⟩
  | .coll g kind op ty d a b n => .s 0x27 0x03 ⟨g, d, a, b, (0#3 ++ n), (kind.code ++ op.code ++ ty.code)⟩
  | .collw g n => .s 0x27 0x04 ⟨g, 0, 0, 0, 0#3 ++ n, 0⟩
  | .launch g d a b => .s 0x28 0x00 ⟨g, d, a, b, 0, 0⟩
  | .scoutStop g d a => .s 0x30 0x00 ⟨g, d, a, 0, 0, (0#6 ++ 0#2)⟩
  | .scoutShift g d a b => .s 0x30 0x00 ⟨g, d, a, b, 0, (0#6 ++ 1#2)⟩
  | .scoutResume g d a => .s 0x30 0x00 ⟨g, d, a, 0, 0, (0#6 ++ 2#2)⟩
  | .scin g d a b => .s 0x30 0x01 ⟨g, d, a, b, 0, 0⟩
  | .scver g d a => .s 0x30 0x02 ⟨g, d, a, 0, 0, (0#7 ++ 0#1)⟩
  | .scverPart g d => .s 0x30 0x02 ⟨g, d, 0, 0, 0, (0#7 ++ 1#1)⟩
  | .ownsetCore g d a b => .s 0x30 0x03 ⟨g, d, a, b, 0, (0#6 ++ 0#2)⟩
  | .ownsetBank g d a b => .s 0x30 0x03 ⟨g, d, a, b, 0, (0#6 ++ 1#2)⟩
  | .ownsetAcm g d a b => .s 0x30 0x03 ⟨g, d, a, b, 0, (0#6 ++ 2#2)⟩
  | .preqClr g d a => .s 0x30 0x04 ⟨g, d, a, 0, 0, (0#7 ++ 0#1)⟩
  | .preqSet g d a => .s 0x30 0x04 ⟨g, d, a, 0, 0, (0#7 ++ 1#1)⟩
  | .cutb g d a => .s 0x30 0x05 ⟨g, d, a, 0, 0, 0⟩
  | .idem g d a b => .s 0x30 0x06 ⟨g, d, a, b, 0, 0⟩
  | .tmarkQ g d a => .s 0x30 0x07 ⟨g, d, a, 0, 0, (0#7 ++ 0#1)⟩
  | .tmarkF g d a => .s 0x30 0x07 ⟨g, d, a, 0, 0, (0#7 ++ 1#1)⟩
  | .tlbiPage g d a b => .s 0x31 0x00 ⟨g, d, a, b, 0, (0#6 ++ 0#2)⟩
  | .tlbiCtx g d a => .s 0x31 0x00 ⟨g, d, a, 0, 0, (0#6 ++ 1#2)⟩
  | .tlbiAll g d => .s 0x31 0x00 ⟨g, d, 0, 0, 0, (0#6 ++ 2#2)⟩
  | .tlbiPte g d b => .s 0x31 0x00 ⟨g, d, 0, b, 0, (0#6 ++ 3#2)⟩
  | .pgret g d a => .s 0x31 0x01 ⟨g, d, a, 0, 0, (0#7 ++ 0#1)⟩
  | .pgretDrop g d a => .s 0x31 0x01 ⟨g, d, a, 0, 0, (0#7 ++ 1#1)⟩
  | .wayq g d a => .s 0x31 0x02 ⟨g, d, a, 0, 0, 0⟩
  | .injL2ce g d a => .s 0x31 0x03 ⟨g, d, a, 0, 0, (0#6 ++ 0#2)⟩
  | .injL2ue g d a => .s 0x31 0x03 ⟨g, d, a, 0, 0, (0#6 ++ 1#2)⟩
  | .injHbmue g d a => .s 0x31 0x03 ⟨g, d, a, 0, 0, (0#6 ++ 2#2)⟩
  | .atsiQ g d a => .s 0x31 0x04 ⟨g, d, a, 0, 0, (0#7 ++ 0#1)⟩
  | .atsiF g d a => .s 0x31 0x04 ⟨g, d, a, 0, 0, (0#7 ++ 1#1)⟩
  | .slotchk g d a b => .s 0x32 0x00 ⟨g, d, a, b, 0, 0⟩
  | .reloc g d a b => .s 0x32 0x01 ⟨g, d, a, b, 0, 0⟩
  | .qpop g d b a => .s 0x32 0x02 ⟨g, d, a, b, 0, 0⟩
  | .qack g d a b => .s 0x32 0x03 ⟨g, d, a, b, 0, 0⟩
  | .polrun g d a b => .s 0x32 0x04 ⟨g, d, a, b, 0, 0⟩
  | .lkeyOwn g d a => .s 0x32 0x05 ⟨g, d, a, 0, 0, (0#7 ++ 0#1)⟩
  | .lkeyAcc g d a => .s 0x32 0x05 ⟨g, d, a, 0, 0, (0#7 ++ 1#1)⟩
  | .lrevk g d a => .s 0x32 0x06 ⟨g, d, a, 0, 0, 0⟩
  | .qref g d a drop => .s 0x32 0x07 ⟨g, d, a, 0, 0, (0#7 ++ BitVec.ofBool drop)⟩
  | .evSqsub _ _ _ => .none
  | .evSqstatClearOvf _ _ _ => .none
  | .evMboxDoorbell _ => .none
  | .evPlatEnable _ _ _ => .none
  | .evPlatDisable _ _ _ => .none
  | .evPkillGo _ _ => .none
  | .evRegisterWrite _ _ _ => .none
  | .evFrontEndConsume _ _ => .none
  | .evKernelPlace _ _ => .none
  | .evJobEnd _ => .none
  | .evKernelRetire _ => .none
  | .evStreamWaitEnd _ _ => .none
  | .evStreamYielded _ _ => .none
  | .evLoadFill _ _ _ => .none
  | .evShadowResume _ _ _ _ => .none
  | .evWalkComplete _ _ => .none
  | .evCopyIssue _ => .none
  | .evCopyComplete _ _ _ => .none
  | .evFlagFire _ _ => .none
  | .evFlagClearAct _ _ => .none
  | .evFwaitMarkerIssue _ _ => .none
  | .evMgoIssue _ => .none
  | .evFoldEntry _ => .none
  | .evArrayResume _ _ => .none
  | .evCollIssue _ => .none
  | .evCollComplete _ _ => .none
  | .evCollwComplete _ => .none
  | .evSuperstepComplete _ => .none
  | .evCommPhaseEnd _ _ => .none
  | .evReplayWindowRetire _ => .none
  | .evEngineUeReplay _ _ => .none
  | .evBacksightMismatch _ _ => .none
  | .evTerminationComplete _ => .none
  | .evEventDispatch _ => .none
  | .evStationCoreReset _ => .none
  | .evTimeSliceExpiry _ => .none
  | .evSchedulerWatchdog _ => .none
  | .evPowerOn => .none
  | .evBootImageOffer _ _ _ => .none
  | .evRemoteResponse _ _ => .none
  | .evRemoteTimeout _ _ => .none
  | .evIncomingRequest _ _ _ => .none
  | .evAtsResponse _ _ _ _ _ _ => .none
  | .evPriResponse _ _ _ => .none
  | .evPriTimeout _ _ _ => .none
  | .evAtsInvalidation _ _ _ => .none
  | .evPackageIdAssign _ => .none
  | .evD2dFlitRetry _ => .none
  | .evPortRetrainFail _ _ => .none
  | .evHbmStackFail _ => .none
  | .evCoolantOverlimit => .none
  | .evPowerLoss => .none
  | .evUalinkPortTrained _ => .none
  | .evFunctionBringUp _ => .none
  | .evInFieldScanTest _ _ => .none

/-- The words of an instruction, in program order; none for a device event. -/
def encode (i : Instr) : List IWord :=
  match i.enc with
  | .s maj min f => [f.toWord maj min]
  | .i maj min f => [f.toWord maj min]
  | .m maj min f => [f.toWord maj min]
  | .b maj min f => [f.toWord maj min]
  | .l maj min f => [f.toWord0 maj min, f.toWord1]
  | .v maj min f => [f.toWord maj min]
  | .e maj min f => [f.toWord maj min]
  | .none => []

/-- The instruction at the start of a list of words; a missing second word reads as zero. -/
def decodeWords (ws : List IWord) : Except DecodeTrap Instr :=
  match ws with
  | [] => .error .allZeros
  | [w] => decode w 0
  | w :: w1 :: _ => decode w w1

/-- The instruction the decoder reads from bits numbered as the opcode table numbers them: bit 0 is bit 0 of the first
48-bit word, and a second word's bits count on from 48; the bits above `nbits` are zero. -/
def decodeTableWord (nbits w : Nat) : Option Instr :=
  let v := w % 2 ^ nbits
  match decode (BitVec.ofNat 48 v) (BitVec.ofNat 48 (v / 2 ^ 48)) with
  | .ok i => some i
  | .error _ => none

end Sys2Proof
end

