-- ==== Sys2Proof/Config.lean ====
section
/-! DEFINITION. What the spec leaves open (DESIGN CHOICE log 6, 7, 12, 13): free values, constants without a body, so that nothing can be
proved of them. Each is applied to a counter of the state or to the operands it depends on. -/

namespace Sys2Proof.Config

/-- Which agent acts next when the state lists no move (DESIGN CHOICE log 1). -/
opaque freeMove : Nat → Move
/-- A 64-bit value the spec leaves open, drawn at a counter (DESIGN CHOICE log 6). -/
opaque freeWord : Nat → Word
/-- A byte the spec leaves open (slice latencies, the parts of a field book it does not lay out), by what it is a byte of
(DESIGN CHOICE log 6, log 12). -/
opaque freeByte : Nat → Nat → Byte
/-- The choice among owned slices that the part's interleave makes for a line, fixed for a BUILD (R377; DESIGN CHOICE log 7). -/
opaque sliceChoice : Nat → Nat
/-- The way that replacement chooses for a line at a counter (R377; DESIGN CHOICE log 7). -/
opaque wayChoice : Nat → Nat → Nat
/-- The time in microseconds from the acceptance of a kernel to that of the next (R134; DESIGN CHOICE log 87). -/
opaque acceptGap : Nat → Nat

end Sys2Proof.Config
end

