-- ==== Sys2Proof/Machine/Bits.lean ====
section
/-! DEFINITION. Bit-field, sign-extension and byte-order helpers shared by the meanings (R1, R2, R47). -/

namespace Sys2Proof.Machine

/-- Bits hi..lo of a value, as a number (R1). -/
def field {n : Nat} (v : BitVec n) (hi lo : Nat) : Nat := (v.extractLsb' lo (hi + 1 - lo)).toNat

/-- The value with bits hi..lo replaced. -/
def setField {n : Nat} (v : BitVec n) (hi lo : Nat) (k : Nat) : BitVec n :=
  let mask : BitVec n := BitVec.ofNat n ((2 ^ (hi + 1 - lo) - 1) * 2 ^ lo)
  (v &&& ~~~mask) ||| (BitVec.ofNat n (k * 2 ^ lo) &&& mask)

/-- The value with bit k set to b. -/
def setBit {n : Nat} (v : BitVec n) (k : Nat) (b : Bool) : BitVec n :=
  if b then v ||| BitVec.twoPow n k else v &&& ~~~(BitVec.twoPow n k)

/-- A signed field extended to 64 bits. -/
def sext64 {n : Nat} (v : BitVec n) : Word := v.signExtend 64

/-- The number that a list of bytes holds, the first byte least significant (R2). -/
def leNat : List Byte → Nat
  | [] => 0
  | b :: bs => b.toNat + 256 * leNat bs

/-- The k low bytes of a number, least significant first (R2). -/
def leBytes : Nat → Nat → List Byte
  | 0, _ => []
  | k + 1, v => BitVec.ofNat 8 v :: leBytes k (v / 256)

/-- The smallest power-of-two exponent bound of a number: its bit length. -/
def bitLen (n : Nat) : Nat := if n = 0 then 0 else Nat.log2 n + 1

/-- The number of set bits among the low k bits. -/
def popCount {n : Nat} (v : BitVec n) : Nat → Nat
  | 0 => 0
  | k + 1 => popCount v k + (if v.getLsbD k then 1 else 0)

/-- The number of zero bits above the highest set bit among the low k bits. -/
def leadZeros {n : Nat} (v : BitVec n) : Nat → Nat
  | 0 => 0
  | k + 1 => if v.getLsbD k then 0 else 1 + leadZeros v k

/-- The numbers 0 to n - 1 in ascending order. -/
def upto (n : Nat) : List Nat := List.range n

/-- x clamped to the interval from lo to hi. -/
def clampInt (x lo hi : Int) : Int := if x < lo then lo else if hi < x then hi else x

/-- The floor of an integer divided by 2^k. -/
def shrFloor (x : Int) (k : Nat) : Int := x / (2 ^ k : Int)

/-- x times 2^k for a signed k, truncated toward minus infinity. -/
def scaleFloor (x : Int) (k : Int) : Int :=
  if 0 ≤ k then x * 2 ^ k.toNat else shrFloor x (-k).toNat

end Sys2Proof.Machine
end

