-- ==== Sys2Proof/Machine/Float.lean ====
section
/-! DEFINITION. Numbers (R60 to R77): exact values of the float formats, one rounding with its flags, the arithmetic of R159
and R160, conversions (R71, R172), the estimates of R75 to R77 and the functions of R168 to R170. Every result is computed on
exact dyadic numbers and rounded once. -/

namespace Sys2Proof.Machine

/-- Sticky flags in the bit order of FPM (R65): NV 0, DZ 1, OF 2, UF 3, NX 4. -/
abbrev FFlags := BitVec 5

/-- An invalid operation (R62). -/
def fNV : FFlags := 0b00001
/-- A division of a finite nonzero operand by zero, or a reciprocal of zero. -/
def fDZ : FFlags := 0b00010
/-- An overflow, which is inexact. -/
def fOFNX : FFlags := 0b10100
/-- A tiny and inexact result. -/
def fUFNX : FFlags := 0b11000
/-- A rounded result differing from its exact value. -/
def fNX : FFlags := 0b10000
/-- Overflow alone: an infinite input met by a finite format (R71). -/
def fOF : FFlags := 0b00100

/-- The five rounding modes (R64). -/
inductive Rnd where
  | rne | rtz | rup | rdn | rna
  deriving DecidableEq, Repr, Inhabited

/-- A binary format with a sign bit: exponent bits, trailing bits and bias (R61). -/
structure Fmt where
  ebits : Nat
  fbits : Nat
  bias : Int
  deriving DecidableEq, Repr

/-- FP64 (R61). -/
def fp64 : Fmt := ⟨11, 52, 1023⟩
/-- FP32 (R61). -/
def fp32 : Fmt := ⟨8, 23, 127⟩
/-- FP16 (R61). -/
def fp16 : Fmt := ⟨5, 10, 15⟩
/-- BF16 (R61). -/
def bf16 : Fmt := ⟨8, 7, 127⟩
/-- A float value: NaN, a signed infinity, or (-1)^neg * m * 2^e, m = 0 being a signed zero. -/
inductive FVal where
  | nan
  | inf (neg : Bool)
  | fin (neg : Bool) (m : Nat) (e : Int)
  deriving DecidableEq, Repr

/-- All ones in the exponent field. -/
def Fmt.eTop (f : Fmt) : Nat := 2 ^ f.ebits - 1
/-- The code of +infinity. -/
def Fmt.infBits (f : Fmt) : Nat := f.eTop * 2 ^ f.fbits
/-- The canonical quiet NaN (R61, R62). -/
def Fmt.nanBits (f : Fmt) : Nat := f.eTop * 2 ^ f.fbits + 2 ^ (f.fbits - 1)
/-- The sign bit. -/
def Fmt.signBit (f : Fmt) : Nat := 2 ^ (f.ebits + f.fbits)

/-- The value of a code (R61). -/
def Fmt.value (f : Fmt) (c : Nat) : FVal :=
  let neg := decide (c / f.signBit % 2 = 1)
  let ex := c / 2 ^ f.fbits % 2 ^ f.ebits
  let t := c % 2 ^ f.fbits
  if ex = f.eTop then (if t = 0 then .inf neg else .nan)
  else if ex = 0 then .fin neg t (1 - f.bias - f.fbits)
  else .fin neg (2 ^ f.fbits + t) (ex - f.bias - f.fbits)

/-- Whether rounding in a mode moves a magnitude up, given the lowest kept bit, the discarded part compared with one half
(less, equal, greater by sign) and whether anything was discarded. -/
def Rnd.up (r : Rnd) (neg odd : Bool) (half : Ordering) (some : Bool) : Bool :=
  match r with
  | .rne => half == .gt || (half == .eq && odd)
  | .rna => half == .gt || half == .eq
  | .rtz => false
  | .rup => some && !neg
  | .rdn => some && neg

/-- m * 2^sh (with a nonzero part below when sticky) rounded to an integer, and whether it changed (R64). RNE takes the even
integer of a tie: in a format with P = 1, whose trailing field is empty, that is the larger of two nonzero neighbours, and zero
at half the smallest value (DESIGN CHOICE log 68). -/
def roundMag (r : Rnd) (neg : Bool) (m : Nat) (sh : Int) (sticky : Bool) : Nat × Bool :=
  if 0 ≤ sh then
    let q := m * 2 ^ sh.toNat
    (if r.up neg (q % 2 == 1) .lt sticky then q + 1 else q, sticky)
  else
    let d := 2 ^ (-sh).toNat
    let q := m / d
    let rem := m % d
    let half := if 2 * rem > d then Ordering.gt else if 2 * rem < d then .lt else if sticky then .gt else .eq
    let inexact := rem != 0 || sticky
    (if r.up neg (q % 2 == 1) half inexact then q + 1 else q, inexact)

/-- The magnitude code of m * 2^e in a layout with the given trailing bits and bias, as if the exponent field had no upper
limit; whether it is inexact; and whether the value rounded with unbounded exponent is tiny (R64). -/
def magCode (fbits : Nat) (bias : Int) (r : Rnd) (neg : Bool) (m : Nat) (e : Int) (sticky : Bool) : Nat × Bool × Bool :=
  let top : Int := e + bitLen m - 1
  let q : Int := max (top - fbits) (1 - bias - fbits)
  let (mr, ix) := roundMag r neg m (e - q) sticky
  let (mu, _) := roundMag r neg m (e - (top - fbits)) sticky
  let tiny := decide (top < 1 - bias) && !(decide (top = -bias) && mu == 2 ^ (fbits + 1))
  (((q + fbits + bias - 1).toNat) * 2 ^ fbits + mr, ix, tiny)

/-- The overflow result of a sign in a mode: true for infinity, false for the largest finite value (R64). -/
def Rnd.ovfInf (r : Rnd) (neg : Bool) : Bool :=
  match r with
  | .rne => true | .rna => true | .rtz => false | .rup => !neg | .rdn => neg

/-- A finite nonzero exact value rounded once to an IEEE-style format, with its flags (R64). -/
def Fmt.round (f : Fmt) (r : Rnd) (neg : Bool) (m : Nat) (e : Int) (sticky : Bool) : Nat × FFlags :=
  let s := if neg then f.signBit else 0
  let (c, ix, tiny) := magCode f.fbits f.bias r neg m e sticky
  if f.infBits ≤ c then (s + (if r.ovfInf neg then f.infBits else f.infBits - 1), fOFNX)
  else (s + c, if ix then (if tiny then fUFNX else fNX) else 0)

/-- A value rounded once to a format; NaN becomes canonical, infinities and zeros keep their signs (R62, R64). -/
def Fmt.ofVal (f : Fmt) (r : Rnd) (v : FVal) : Nat × FFlags :=
  match v with
  | .nan => (f.nanBits, 0)
  | .inf neg => ((if neg then f.signBit else 0) + f.infBits, 0)
  | .fin neg m e => if m = 0 then ((if neg then f.signBit else 0), 0) else f.round r neg m e false

/-- The signed mantissa of a finite value at exponent at most its own. -/
def FVal.sm (neg : Bool) (m : Nat) : Int := if neg then -(m : Int) else m

/-- The sign inverted; NaN stays. -/
def FVal.negate : FVal → FVal
  | .nan => .nan | .inf n => .inf (!n) | .fin n m e => .fin (!n) m e

/-- The exact sum of two finite values; the sign of an exact zero by R64. -/
def finAdd (r : Rnd) (n1 : Bool) (m1 : Nat) (e1 : Int) (n2 : Bool) (m2 : Nat) (e2 : Int) : FVal :=
  let e := min e1 e2
  let s : Int := FVal.sm n1 m1 * 2 ^ (e1 - e).toNat + FVal.sm n2 m2 * 2 ^ (e2 - e).toNat
  if s = 0 then .fin (if n1 == n2 then n1 else r == .rdn) 0 e
  else .fin (decide (s < 0)) s.natAbs e

/-- The exact sum, and whether it is invalid (R62, R159). -/
def FVal.add (r : Rnd) (a b : FVal) : FVal × Bool :=
  match a, b with
  | .nan, _ => (.nan, false)
  | _, .nan => (.nan, false)
  | .inf x, .inf y => if x == y then (.inf x, false) else (.nan, true)
  | .inf x, .fin _ _ _ => (.inf x, false)
  | .fin _ _ _, .inf y => (.inf y, false)
  | .fin n1 m1 e1, .fin n2 m2 e2 => (finAdd r n1 m1 e1 n2 m2 e2, false)

/-- Whether a value is a zero. -/
def FVal.isZero : FVal → Bool
  | .fin _ m _ => m == 0 | .nan => false | .inf _ => false

/-- The exact product, and whether it is 0 times infinity (R62). -/
def FVal.mul (a b : FVal) : FVal × Bool :=
  match a, b with
  | .nan, _ => (.nan, false)
  | _, .nan => (.nan, false)
  | .inf x, .inf y => (.inf (x != y), false)
  | .inf x, .fin n m _ => if m = 0 then (.nan, true) else (.inf (x != n), false)
  | .fin n m _, .inf y => if m = 0 then (.nan, true) else (.inf (n != y), false)
  | .fin n1 m1 e1, .fin n2 m2 e2 => (.fin (n1 != n2) (m1 * m2) (e1 + e2), false)

/-- a * b + c before rounding, with 0 times infinity invalid even when c is NaN (R159). -/
def FVal.fma (r : Rnd) (a b c : FVal) : FVal × Bool :=
  match a.mul b with
  | (_, true) => (.nan, true)
  | (p, false) => p.add r c

/-- The flags of an invalid operation. -/
def nvIf (b : Bool) : FFlags := if b then fNV else 0

/-- A rounded sum of two codes (R159). -/
def Fmt.fadd (f : Fmt) (r : Rnd) (a b : Nat) : Nat × FFlags :=
  let (v, nv) := (f.value a).add r (f.value b)
  let (c, fl) := f.ofVal r v
  (c, fl ||| nvIf nv)

/-- A rounded difference of two codes (R159). -/
def Fmt.fsub (f : Fmt) (r : Rnd) (a b : Nat) : Nat × FFlags :=
  let (v, nv) := (f.value a).add r (f.value b).negate
  let (c, fl) := f.ofVal r v
  (c, fl ||| nvIf nv)

/-- A rounded product of two codes (R159). -/
def Fmt.fmul (f : Fmt) (r : Rnd) (a b : Nat) : Nat × FFlags :=
  let (v, nv) := (f.value a).mul (f.value b)
  let (c, fl) := f.ofVal r v
  (c, fl ||| nvIf nv)

/-- a * b + c with one rounding (R159). -/
def Fmt.ffma (f : Fmt) (r : Rnd) (a b c : Nat) : Nat × FFlags :=
  let (v, nv) := (f.value a).fma r (f.value b) (f.value c)
  let (d, fl) := f.ofVal r v
  (d, fl ||| nvIf nv)

/-- a * b - c with one rounding (R159). -/
def Fmt.ffms (f : Fmt) (r : Rnd) (a b c : Nat) : Nat × FFlags :=
  let (v, nv) := (f.value a).fma r (f.value b) (f.value c).negate
  let (d, fl) := f.ofVal r v
  (d, fl ||| nvIf nv)

/-- a < b as values, neither being NaN; zeros of either sign are equal. -/
def FVal.lt (a b : FVal) : Bool :=
  match a, b with
  | .nan, _ => false
  | _, .nan => false
  | .inf x, .inf y => x && !y
  | .inf x, .fin _ _ _ => x
  | .fin _ _ _, .inf y => !y
  | .fin n1 m1 e1, .fin n2 m2 e2 =>
    let e := min e1 e2
    decide (FVal.sm n1 m1 * 2 ^ (e1 - e).toNat < FVal.sm n2 m2 * 2 ^ (e2 - e).toNat)

/-- Whether a value is NaN. -/
def FVal.isNan : FVal → Bool
  | .nan => true | .inf _ => false | .fin _ _ _ => false

/-- a = b as values, neither being NaN. -/
def FVal.eq (a b : FVal) : Bool := !a.isNan && !b.isNan && !a.lt b && !b.lt a

/-- The minimum or the maximum of two codes (R160): a NaN yields to a number, and -0 is below +0. -/
def Fmt.minMax (f : Fmt) (isMax : Bool) (a b : Nat) : Nat :=
  let x := f.value a
  let y := f.value b
  if x.isNan then (if y.isNan then f.nanBits else b)
  else if y.isNan then a
  else if x.isZero && y.isZero then
    (if isMax then (if a < f.signBit then a else b) else (if a < f.signBit then b else a))
  else if isMax then (if x.lt y then b else a) else (if y.lt x then b else a)

/-- The magnitude, or the sign inverted; NaN becomes canonical (R160). -/
def Fmt.absNeg (f : Fmt) (isNeg : Bool) (a : Nat) : Nat :=
  if (f.value a).isNan then f.nanBits
  else if isNeg then (if a < f.signBit then a + f.signBit else a - f.signBit)
  else a % f.signBit

/-- A signed narrow float binaryKpP (R67). -/
structure NFmt where
  K : Nat
  P : Nat
  deriving DecidableEq, Repr

/-- The bias of a signed narrow float (R67). -/
def NFmt.bias (f : NFmt) : Int := 2 ^ (f.K - f.P - 1)
/-- The sign bit, which alone is also the NaN code (R67). -/
def NFmt.nanCode (f : NFmt) : Nat := 2 ^ (f.K - 1)

/-- The value of a narrow code (R68). -/
def NFmt.value (f : NFmt) (infopt : Bool) (c : Nat) : FVal :=
  let mag := c % 2 ^ (f.K - 1)
  let neg := decide (c / 2 ^ (f.K - 1) % 2 = 1)
  if c % 2 ^ f.K = f.nanCode then .nan
  else if infopt && mag == 2 ^ (f.K - 1) - 1 then .inf neg
  else
    let ex := mag / 2 ^ (f.P - 1)
    let t := mag % 2 ^ (f.P - 1)
    if ex = 0 then .fin neg t (1 - f.bias - ((f.P : Int) - 1))
    else .fin neg (2 ^ (f.P - 1) + t) (ex - f.bias - ((f.P : Int) - 1))

/-- A value converted to a narrow float, with its flags (R71). -/
def NFmt.ofVal (f : NFmt) (infopt : Bool) (r : Rnd) (v : FVal) : Nat × FFlags :=
  let sgn := fun (neg : Bool) (c : Nat) => if neg && c != 0 then 2 ^ (f.K - 1) + c else c
  let infC := 2 ^ (f.K - 1) - 1
  let maxC := if infopt then infC - 1 else infC
  match v with
  | .nan => (f.nanCode, 0)
  | .inf neg => if infopt then (sgn neg infC, 0) else (sgn neg maxC, fOF)
  | .fin neg m e =>
    if m = 0 then (0, 0)
    else
      let (c, ix, tiny) := magCode (f.P - 1) f.bias r neg m e false
      if maxC < c then
        (sgn neg (if infopt && r.ovfInf neg then infC else maxC), fOFNX)
      else (sgn neg c, if ix then (if tiny then fUFNX else fNX) else 0)

/-- A value converted to an integer of a range, with its flags (R71); past its lower end it is that end, -2^(w-1) for int16 and
int32 (DEDUCED log 69). -/
def intOfVal (lo hi : Int) (r : Rnd) (v : FVal) : Int × FFlags :=
  match v with
  | .nan => (0, fNV)
  | .inf neg => if neg then ((if lo = 0 then 0 else lo), fNV) else (hi, fNV)
  | .fin neg m e =>
    let (q, ix) := roundMag r neg m e false
    let z : Int := if neg then -(q : Int) else q
    if z < lo then ((if lo = 0 then 0 else lo), fNV)
    else if hi < z then (hi, fNV)
    else (z, if ix then fNX else 0)

/-- A code read as a signed integer of w bits. -/
def toSigned (w c : Nat) : Int := if c % 2 ^ w < 2 ^ (w - 1) then (c % 2 ^ w : Nat) else (c % 2 ^ w : Nat) - (2 ^ w : Int)

/-- An integer as a float value. -/
def FVal.ofInt (z : Int) : FVal := .fin (decide (z < 0)) z.natAbs 0

/-- The value of a source code of a conversion (R172). -/
def cvtValue (t : CvtType) (infopt : Bool) (c : Nat) : FVal :=
  match t with
  | .f32 => fp32.value c | .bf16 => bf16.value c | .fp16 => fp16.value c
  | .int32 => .ofInt (toSigned 32 c) | .uint32 => .ofInt (c % 2 ^ 32 : Nat) | .int16 => .ofInt (toSigned 16 c)
  | .int8 => .ofInt (toSigned 8 c) | .uint8 => .ofInt (c % 2 ^ 8 : Nat)
  | .b8p2 => NFmt.value ⟨8, 2⟩ infopt c | .b8p3 => NFmt.value ⟨8, 3⟩ infopt c | .b8p4 => NFmt.value ⟨8, 4⟩ infopt c
  | .b8p5 => NFmt.value ⟨8, 5⟩ infopt c | .b6p2 => NFmt.value ⟨6, 2⟩ infopt c | .b6p3 => NFmt.value ⟨6, 3⟩ infopt c
  | .b4p1 => NFmt.value ⟨4, 1⟩ infopt c | .b4p2 => NFmt.value ⟨4, 2⟩ infopt c

/-- A value converted to a destination type, as the code in the type's width, with its flags (R71, R172). -/
def cvtOfVal (t : CvtType) (infopt : Bool) (r : Rnd) (v : FVal) : Nat × FFlags :=
  match t with
  | .f32 => fp32.ofVal r v | .bf16 => bf16.ofVal r v | .fp16 => fp16.ofVal r v
  | .b8p2 => NFmt.ofVal ⟨8, 2⟩ infopt r v | .b8p3 => NFmt.ofVal ⟨8, 3⟩ infopt r v
  | .b8p4 => NFmt.ofVal ⟨8, 4⟩ infopt r v | .b8p5 => NFmt.ofVal ⟨8, 5⟩ infopt r v
  | .b6p2 => NFmt.ofVal ⟨6, 2⟩ infopt r v | .b6p3 => NFmt.ofVal ⟨6, 3⟩ infopt r v
  | .b4p1 => NFmt.ofVal ⟨4, 1⟩ infopt r v | .b4p2 => NFmt.ofVal ⟨4, 2⟩ infopt r v
  | .int32 => let (z, fl) := intOfVal (-2 ^ 31) (2 ^ 31 - 1) r v; ((z % 2 ^ 32).toNat, fl)
  | .uint32 => let (z, fl) := intOfVal 0 (2 ^ 32 - 1) r v; (z.toNat, fl)
  | .int16 => let (z, fl) := intOfVal (-2 ^ 15) (2 ^ 15 - 1) r v; ((z % 2 ^ 16).toNat, fl)
  | .int8 => let (z, fl) := intOfVal (-127) 127 r v; ((z % 2 ^ 8).toNat, fl)
  | .uint8 => let (z, fl) := intOfVal 0 255 r v; (z.toNat, fl)

/-- A conversion (R172): a source of the destination's type passes through, except that a NaN becomes canonical; so does the
int8 code of -128 (DEDUCED log 70). -/
def convert (src dst : CvtType) (infopt : Bool) (r : Rnd) (c : Nat) : Nat × FFlags :=
  let v := cvtValue src infopt c
  if src = dst then ((if v.isNan then (cvtOfVal dst infopt r .nan).1 else c), 0)
  else cvtOfVal dst infopt r v

/-- The largest finite FP32 magnitude is (2^24 - 1) * 2^104: whether m * 2^e (sticky) exceeds it (R75). -/
def aboveFp32 (m : Nat) (e : Int) (sticky : Bool) : Bool :=
  let k := min e 104
  let l := m * 2 ^ (e - k).toNat
  let h := (2 ^ 24 - 1) * 2 ^ (104 - k).toNat
  decide (h < l) || (l == h && sticky)

/-- Rules 2 and 3 of R75 for a finite nonzero exact result: overflow to infinity, else the nearest point of g, capped. UF goes
with a subnormal result of an estimate (R77), and with a tiny result (R64) of a function (R170). -/
def toGrid (est neg : Bool) (m : Nat) (e : Int) (sticky : Bool) : Nat × FFlags :=
  let s := if neg then fp32.signBit else 0
  if aboveFp32 m e sticky then (s + fp32.infBits, fOFNX)
  else
    let (c, ix, tiny) := magCode 14 127 .rne neg m e sticky
    let c' := min c (0x7F7FFE00 / 512)
    let uf := if est then decide (c' < 2 ^ 14) else tiny
    (s + c' * 512, if ix || c' != c then (if uf then fUFNX else fNX) else 0)

/-- The integer square root, bit by bit from 2^k down. -/
def isqrt (n : Nat) : Nat → Nat → Nat
  | 0, r => r
  | k + 1, r => let c := r + 2 ^ k; isqrt n k (if c * c ≤ n then c else r)

/-- The reciprocal estimate of an FP32 code (R75, R76, R77). -/
def vrcp (a : Nat) : Nat × FFlags :=
  match fp32.value a with
  | .nan => (fp32.nanBits, 0)
  | .inf neg => ((if neg then fp32.signBit else 0), 0)
  | .fin neg m e =>
    if m = 0 then ((if neg then fp32.signBit else 0) + fp32.infBits, fDZ)
    else
      let n := 2 ^ (bitLen m + 64)
      toGrid true neg (n / m) (-e - (bitLen m + 64)) (n % m != 0)

/-- The reciprocal square root estimate of an FP32 code (R75, R76, R77). -/
def vrsq (a : Nat) : Nat × FFlags :=
  match fp32.value a with
  | .nan => (fp32.nanBits, 0)
  | .inf neg => if neg then (fp32.nanBits, fNV) else (0, 0)
  | .fin neg m e =>
    if m = 0 then ((if neg then fp32.signBit else 0) + fp32.infBits, fDZ)
    else if neg then (fp32.nanBits, fNV)
    else
      let odd := decide (e % 2 = 1)
      let m' := if odd then 2 * m else m
      let e' := if odd then e - 1 else e
      let n := 2 ^ (2 * 96) / m'
      let q := isqrt n 97 0
      toGrid true false q (-(e' / 2) - 96) (q * q * m' != 2 ^ (2 * 96))

/-- One refinement step on exact dyadic values: x + x * (1 - a * x), or x + x * (1 - a * x^2) / 2 (R167, R168). -/
def refine (sq : Bool) (r : Rnd) (a x : Nat) : Nat × FFlags :=
  let xv := fp32.value x
  match xv with
  | .nan => (fp32.nanBits, 0)
  | .inf _ => (x, 0)
  | .fin nx mx ex =>
    if mx = 0 then (x, 0)
    else match fp32.value a with
      | .nan => (fp32.nanBits, 0)
      | .inf na => ((if (if sq then (!na) != nx else !na) then fp32.signBit else 0) + fp32.infBits, 0)
      | .fin na ma ea =>
        let p : FVal := if sq then .fin na (ma * mx * mx) (ea + 2 * ex) else .fin (na != nx) (ma * mx) (ea + ex)
        let (d, _) := FVal.add r (.fin false 1 0) p.negate
        let d' := match d with | .fin n m e => FVal.fin n m (if sq then e - 1 else e) | v => v
        let (t, _) := xv.mul d'
        let (s, _) := xv.add r t
        fp32.ofVal r s

/-- The working precision of the functions: fixed-point numbers count 2^-400 (DEDUCED log 11). -/
def fpP : Nat := 400
/-- The natural logarithm of 2, in units of 2^-400, rounded down (DEDUCED log 11). -/
def ln2P : Nat := 1789879222497203190815761498240779176894896805856420935579692301363062920687047601279850318367644315849030039181347319086
/-- Its reciprocal, in units of 2^-400, rounded down (DEDUCED log 11). -/
def invLn2P : Nat := 3725399093452113361508878261685348397064333121840474113669779251110053462896811095071531244706817557295705407090210624801

/-- The exponential series: the sum of x^i / i! from term k on, t being the current term, in units of 2^-400. -/
def expSeries (x : Nat) : Nat → Nat → Nat → Nat → Nat
  | 0, _, _, s => s
  | n + 1, k, t, s => let t' := t * x / 2 ^ fpP / k; expSeries x n (k + 1) t' (s + t')

/-- 2^f for a fraction f, both in units of 2^-400. -/
def exp2Frac (f : Nat) : Nat := expSeries (f * ln2P / 2 ^ fpP) 80 1 (2 ^ fpP) (2 ^ fpP)

/-- The inverse hyperbolic tangent series: the sum of z^(2i+1) / (2i+1), t being the current power. -/
def atanhSeries (z2 : Nat) : Nat → Nat → Nat → Nat → Nat
  | 0, _, _, s => s
  | n + 1, k, t, s => let t' := t * z2 / 2 ^ fpP; atanhSeries z2 n (k + 2) t' (s + t' / k)

/-- log2 of 1 + t for a fraction t, both in units of 2^-400. -/
def log2Frac (t : Nat) : Nat :=
  let z := t * 2 ^ fpP / (2 * 2 ^ fpP + t)
  2 * atanhSeries (z * z / 2 ^ fpP) 130 3 z z * invLn2P / 2 ^ fpP

/-- VEXP2 of an FP32 code (R169, R170; DEDUCED log 11). -/
def vexp2 (a : Nat) : Nat × FFlags :=
  match fp32.value a with
  | .nan => (fp32.nanBits, 0)
  | .inf neg => if neg then (0, 0) else (fp32.infBits, 0)
  | .fin neg m e =>
    if m = 0 then (0x3F800000, 0)
    else
      let big := decide (2 ^ 8 ≤ (if 0 ≤ e then m * 2 ^ e.toNat else m / 2 ^ (-e).toNat))
      if big then (if neg then (0, fUFNX) else (fp32.infBits, fOFNX))
      else
        let x : Int := scaleFloor (FVal.sm neg m) (e + fpP)
        let n : Int := shrFloor x fpP
        let f : Nat := (x - n * 2 ^ fpP).toNat
        if f = 0 then toGrid false false 1 n false else toGrid false false (exp2Frac f) (n - fpP) true

/-- VLOG2 of an FP32 code (R169, R170). -/
def vlog2 (a : Nat) : Nat × FFlags :=
  match fp32.value a with
  | .nan => (fp32.nanBits, 0)
  | .inf neg => if neg then (fp32.nanBits, fNV) else (fp32.infBits, 0)
  | .fin neg m e =>
    if m = 0 then (fp32.signBit + fp32.infBits, fDZ)
    else if neg then (fp32.nanBits, fNV)
    else
      let n : Int := e + bitLen m - 1
      let t := m * 2 ^ fpP / 2 ^ (bitLen m - 1) - 2 ^ fpP
      if t = 0 then
        (if n = 0 then (0, 0) else toGrid false (decide (n < 0)) n.natAbs 0 false)
      else
        let v : Int := n * 2 ^ fpP + log2Frac t
        toGrid false (decide (v < 0)) (if v < 0 then v.natAbs - 1 else v.natAbs) (-(fpP : Int)) true

/-- VTANH of an FP32 code (R169, R170): below 2^-60 the exact value lies just below the operand; otherwise (y - 1) / (y + 1)
with y = e^(2a). -/
def vtanh (a : Nat) : Nat × FFlags :=
  match fp32.value a with
  | .nan => (fp32.nanBits, 0)
  | .inf neg => ((if neg then 0xBF800000 else 0x3F800000), 0)
  | .fin neg m e =>
    if m = 0 then (a, 0)
    else if e + bitLen m ≤ -60 then toGrid false neg (m * 2 ^ 90 - 1) (e - 90) true
    else if 5 < e + bitLen m then ((if neg then 0xBF800000 else 0x3F800000), fNX)
    else
      let x : Nat := (scaleFloor m (e + fpP)).toNat
      let y2 := 2 * x * invLn2P / 2 ^ fpP
      let n := y2 / 2 ^ fpP
      let y := exp2Frac (y2 % 2 ^ fpP) * 2 ^ n
      toGrid false neg ((y - 2 ^ fpP) * 2 ^ fpP / (y + 2 ^ fpP)) (-(fpP : Int)) true

end Sys2Proof.Machine
end

