-- ==== Sys2Proof/Machine/AccElem.lean ====
section
/-! DEFINITION. The accumulator element (R72 to R74), the fold of a band (R227, R228), its entry into an element or pair (R229,
R232), normalisation (R233), and reading and writing values (R73, R235). -/

namespace Sys2Proof.Machine

/-- One 96-bit accumulator element (R72). -/
abbrev AccElem := BitVec 96

/-- S: status (R72). -/
def accS (e : AccElem) : BitVec 16 := e.extractLsb' 80 16
/-- X as a signed number (R72). -/
def accX (e : AccElem) : Int := (e.extractLsb' 64 16).toInt
/-- G:M as a 64-bit word (R72). -/
def accTw (e : AccElem) : BitVec 64 := e.extractLsb' 0 64
/-- An element from its fields. -/
def accMk (s : BitVec 16) (x : Int) (t : BitVec 64) : AccElem := s ++ BitVec.ofInt 16 x ++ t

/-- An element, or a pair as one element of 128-bit T: status, exponent, T (R72, R74). -/
structure AccVal where
  s : BitVec 16
  x : Int
  t : Int
  deriving DecidableEq, Repr

/-- Bits of T and the position its exponent counts from: 64 and 47 for an element, 128 and 111 for a pair (R73, R74). -/
def accBits (pair : Bool) : Nat := if pair then 128 else 64
/-- The exponent offset. -/
def accOff (pair : Bool) : Int := if pair then 111 else 47
/-- The largest T. -/
def accMax (pair : Bool) : Int := 2 ^ (accBits pair - 1) - 1
/-- The least T. -/
def accMin (pair : Bool) : Int := -(2 ^ (accBits pair - 1))

/-- An element read as a value. -/
def accGet (e : AccElem) : AccVal := ⟨accS e, accX e, (accTw e).toInt⟩
/-- A pair, even element first, read as a value (R74). -/
def accGetPair (ev od : AccElem) : AccVal := ⟨accS ev, accX ev, (accTw od ++ accTw ev).toInt⟩
/-- A value written back as an element. -/
def accPut (v : AccVal) : AccElem := accMk v.s v.x (BitVec.ofInt 64 v.t)
/-- A value written back as the even element of a pair. -/
def accPutEven (v : AccVal) : AccElem := accMk v.s v.x ((BitVec.ofInt 128 v.t).extractLsb' 0 64)
/-- The odd element of a pair: its X and S are written zero (R74). -/
def accPutOdd (v : AccVal) : AccElem := accMk 0 0 ((BitVec.ofInt 128 v.t).extractLsb' 64 64)

/-- AOV (R72). -/
def sAOV : Nat := 0
/-- NAN. -/
def sNAN : Nat := 1
/-- INF+. -/
def sINFP : Nat := 2
/-- INF-. -/
def sINFN : Nat := 3
/-- INEXACT. -/
def sINEX : Nat := 4

/-- A status with one bit set. -/
def sBit (k : Nat) : BitVec 16 := BitVec.twoPow 16 k

/-- The value an element or pair denotes (R73, R74). -/
def AccVal.value (pair : Bool) (v : AccVal) : FVal :=
  if v.s.getLsbD sNAN then .nan
  else if v.s.getLsbD sINFP && v.s.getLsbD sINFN then .nan
  else if v.s.getLsbD sINFP then .inf false
  else if v.s.getLsbD sINFN then .inf true
  else if v.s.getLsbD sAOV then .inf (decide (v.t < 0))
  else .fin (decide (v.t < 0)) v.t.natAbs (v.x - accOff pair)

/-- A band's partial sum: the weight, the count, the largest product weight seen, and the flags (R226, R228). -/
structure Fold where
  w : Int
  t : Int
  big : Option Int
  fl : BitVec 16
  deriving DecidableEq, Repr, Inhabited

/-- A partial sum with no nonzero product yet (R226, R232). -/
def foldInit (pair : Bool) : Fold := ⟨if pair then -32768 else -2048, 0, none, 0⟩

/-- Whether scaling x by 2^k toward minus infinity discards nonzero bits. -/
def losesBits (x : Int) (k : Int) : Bool := k < 0 && scaleFloor x k * 2 ^ (-k).toNat != x

/-- One product taken into a band's partial sum (R227, R228). -/
def foldStep (pair : Bool) (f : Fold) (a b : FVal) : Fold :=
  match a.mul b with
  | (_, true) => { f with fl := f.fl ||| sBit sNAN }
  | (.nan, false) => { f with fl := f.fl ||| sBit sNAN }
  | (.inf neg, false) => { f with fl := f.fl ||| sBit (if neg then sINFN else sINFP) }
  | (.fin neg m e, false) =>
    if m = 0 then f
    else
      let lg := e + bitLen m - 1
      let big := match f.big with | some w => max w lg | none => lg
      let w' := big - (if pair then 120 else 60)
      let p : Int := FVal.sm neg m
      let t' := scaleFloor f.t (f.w - w') + scaleFloor p (e - w')
      let lost := losesBits f.t (f.w - w') || losesBits p (e - w')
      ⟨w', t', some big, if lost then f.fl ||| sBit sINEX else f.fl⟩

/-- The fold of a band's factor pairs in ascending k (R228). -/
def foldBand (pair : Bool) (ab : List (FVal × FVal)) : Fold :=
  ab.foldl (fun f p => foldStep pair f p.1 p.2) (foldInit pair)

/-- A fold entered into an element or pair (R229). -/
def accEnter (pair : Bool) (v : AccVal) (f : Fold) : AccVal :=
  let s := v.s ||| f.fl
  if f.t = 0 || v.s.getLsbD sAOV then { v with s := s }
  else
    let sh := f.w - (v.x - accOff pair)
    let s := if losesBits f.t sh then s ||| sBit sINEX else s
    let t' := v.t + scaleFloor f.t sh
    if accMax pair < t' then ⟨s ||| sBit sAOV, v.x, accMax pair⟩
    else if t' < accMin pair then ⟨s ||| sBit sAOV, v.x, accMin pair⟩
    else ⟨s, v.x, t'⟩

/-- Whether T lies in [2^46, 2^47) or [-2^47, -2^46), or the pair's like range (R233). -/
def accNormal (pair : Bool) (t : Int) : Bool :=
  let h : Int := 2 ^ ((accOff pair).toNat - 1)
  (h ≤ t && t < 2 * h) || (-(2 * h) ≤ t && t < -h)

/-- The left shift that normalises a nonzero T; negative for a right shift (R233). -/
def accNormShift (pair : Bool) (t : Int) : Int :=
  let len := if t < 0 then bitLen (t.natAbs - 1) else bitLen t.natAbs
  accOff pair - len

/-- ANRM on one element or pair (R233). -/
def accNormalise (pair : Bool) (v : AccVal) : AccVal :=
  if v.s.getLsbD sNAN || v.s.getLsbD sINFP || v.s.getLsbD sINFN || v.s.getLsbD sAOV || v.t == 0 || accNormal pair v.t then v
  else
    let sh := accNormShift pair v.t
    if v.x - sh < -32768 then { v with x := -32768, s := v.s ||| sBit sAOV }
    else if 32767 < v.x - sh then { v with x := 32767, s := v.s ||| sBit sAOV }
    else ⟨if losesBits v.t sh then v.s ||| sBit sINEX else v.s, v.x - sh, scaleFloor v.t sh⟩

/-- AWR.F32: an FP32 value stored into an element, X kept (R235). -/
def accWriteF32 (v : AccVal) (c : Nat) : AccVal :=
  match fp32.value c with
  | .nan => ⟨sBit sNAN, v.x, 0⟩
  | .inf neg => ⟨sBit (if neg then sINFN else sINFP), v.x, 0⟩
  | .fin neg m e =>
    let k := e - (v.x - 47)
    let p : Int := FVal.sm neg m
    let t := scaleFloor p k
    let s : BitVec 16 := if losesBits p k then sBit sINEX else 0
    if accMax false < t then ⟨s ||| sBit sAOV, v.x, accMax false⟩
    else if t < accMin false then ⟨s ||| sBit sAOV, v.x, accMin false⟩
    else ⟨s, v.x, t⟩

end Sys2Proof.Machine
end

