-- ==== Sys2Proof/Machine/Alu.lean ====
section
/-! DEFINITION. The scalar functions of R111 to R119 on 64-bit values, one for each effect that the tables give. -/

namespace Sys2Proof.Machine

/-- The bit of a truth table that three input bits select (R111). -/
def ttBit {n : Nat} (tt : BitVec n) (a b c : Bool) : Bool :=
  tt.getLsbD ((if a then 4 else 0) + (if b then 2 else 0) + (if c then 1 else 0))

/-- The three-input truth table applied at every bit: each of the eight minterms whose table bit is set (R111, R163). -/
def logt {n : Nat} (tt : BitVec 8) (a b c : BitVec n) : BitVec n :=
  let m := fun (i : Nat) (x y z : BitVec n) => if tt.getLsbD i then x &&& y &&& z else 0
  m 0 (~~~a) (~~~b) (~~~c) ||| m 1 (~~~a) (~~~b) c ||| m 2 (~~~a) b (~~~c) ||| m 3 (~~~a) b c |||
  m 4 a (~~~b) (~~~c) ||| m 5 a (~~~b) c ||| m 6 a b (~~~c) ||| m 7 a b c

/-- Shift left by the whole count (R111). -/
def shlW (a b : Word) : Word := if 64 ≤ b.toNat then 0 else a <<< b.toNat
/-- Logical shift right by the whole count (R111). -/
def shrW (a b : Word) : Word := if 64 ≤ b.toNat then 0 else a >>> b.toNat
/-- Arithmetic shift right by the whole count (R111). -/
def sraW (a b : Word) : Word := if 64 ≤ b.toNat then (if a.msb then BitVec.allOnes 64 else 0) else a.sshiftRight b.toNat
/-- Rotate left by the count modulo 64 (R111). -/
def rolW (a b : Word) : Word := a.rotateLeft (b.toNat % 64)
/-- Signed minimum (R111). -/
def minSW (a b : Word) : Word := if b.slt a then b else a
/-- Signed maximum (R111). -/
def maxSW (a b : Word) : Word := if a.slt b then b else a
/-- Unsigned minimum (R111). -/
def minUW (a b : Word) : Word := if b.ult a then b else a
/-- Unsigned maximum (R111). -/
def maxUW (a b : Word) : Word := if a.ult b then b else a
/-- Absolute value, wrapping at -2^63 (R111). -/
def absW (a : Word) : Word := if a.msb then -a else a

/-- Bits 127-64 of the signed product (R113). -/
def mulhW (a b : Word) : Word := BitVec.ofInt 64 (a.toInt * b.toInt / 2 ^ 64)
/-- Bits 127-64 of the unsigned product (R113). -/
def mulhuW (a b : Word) : Word := BitVec.ofNat 64 (a.toNat * b.toNat / 2 ^ 64)
/-- Signed quotient, truncated; all ones for a zero divisor, -2^63 for the overflow pair (R113). -/
def divW (a b : Word) : Word := if b = 0 then BitVec.allOnes 64 else BitVec.ofInt 64 (a.toInt.tdiv b.toInt)
/-- Signed remainder of the truncated quotient; a for a zero divisor (R113). -/
def remW (a b : Word) : Word := if b = 0 then a else BitVec.ofInt 64 (a.toInt.tmod b.toInt)
/-- Unsigned quotient (R113). -/
def divuW (a b : Word) : Word := if b = 0 then BitVec.allOnes 64 else BitVec.ofNat 64 (a.toNat / b.toNat)
/-- Unsigned remainder (R113). -/
def remuW (a b : Word) : Word := if b = 0 then a else BitVec.ofNat 64 (a.toNat % b.toNat)

/-- Leading zero bits (R114). -/
def clzW (a : Word) : Word := BitVec.ofNat 64 (64 - bitLen a.toNat)
/-- Trailing zero bits among the low k bits, counted from bit i. -/
def trailZeros (a : Word) : Nat → Nat → Nat
  | 0, i => i
  | k + 1, i => if a.getLsbD i then i else trailZeros a k (i + 1)
/-- Trailing zero bits (R114). -/
def ctzW (a : Word) : Word := BitVec.ofNat 64 (trailZeros a 64 0)
/-- Set bits (R114). -/
def popcW (a : Word) : Word := BitVec.ofNat 64 (popCount a 64)
/-- Bit reversal (R114). -/
def brevW (a : Word) : Word := a.reverse

/-- The field of len bits at pos; bits above 63 read as zero (R114). -/
def bfxuW (a : Word) (pos len : Nat) : Word := (a >>> pos) &&& BitVec.ofNat 64 (2 ^ len - 1)
/-- A value with the bits above bit k copied from bit k (R114). -/
def signFrom (a : Word) (k : Nat) : Word :=
  let low := a &&& BitVec.ofNat 64 (2 ^ (k + 1) - 1)
  if a.getLsbD k then low ||| ~~~(BitVec.ofNat 64 (2 ^ (k + 1) - 1)) else low
/-- The signed field of len bits at pos (R114). -/
def bfxW (a : Word) (pos len : Nat) : Word := signFrom (bfxuW a pos len) (len - 1)
/-- The low len bits of a inserted at pos into b (R114). -/
def bfiW (a b : Word) (pos len : Nat) : Word :=
  let m : Word := BitVec.ofNat 64 ((2 ^ len - 1) * 2 ^ pos)
  (b &&& ~~~m) ||| ((a <<< pos) &&& m)

/-- The tag bits of an address (R20). -/
def tagMask : Word := 0xFF00000000000000
/-- The address a plus an offset that does not carry into the tag (R119). -/
def leaW (a e : Word) : Word := (a &&& tagMask) ||| ((a + e) &&& 0x00FFFFFFFFFFFFFF)
end Sys2Proof.Machine
end

