-- ==== Sys2Proof/Machine/Flags.lean ====
section
/-! DEFINITION. Conditions, flags and the words that hold them: the compares of R115 and R164, FPM (R65, R66), STAT (R97),
TCAUSE (R103), PRC (R91) and SCOPEMODE (R265). -/

namespace Sys2Proof.Machine

/-- A condition of CMP and CMPI on two 64-bit values (R115). -/
def cmpHolds (c : CmpCond) (a b : Word) : Bool :=
  match c with
  | .eq => a == b
  | .ne => a != b
  | .lt => a.slt b
  | .ge => !a.slt b
  | .ltu => a.ult b
  | .geu => !a.ult b
  | .gt => b.slt a
  | .gtu => b.ult a

/-- A condition of VCMP on two 32-bit elements (R164). -/
def vcmpHolds (t : VCmpType) (c : VCmpCond) (a b : Elem) : Bool :=
  match t with
  | .f32 =>
    let x := fp32.value a.toNat
    let y := fp32.value b.toNat
    let un := x.isNan || y.isNan
    (match c with
     | .eq => x.eq y
     | .ne => !x.eq y
     | .lt => x.lt y
     | .le => !un && !y.lt x
     | .gt => y.lt x
     | .ge => !un && !x.lt y
     | .un => un
     | .ord => !un)
  | .i32 =>
    (match c with
     | .eq => a == b | .ne => a != b | .lt => a.slt b | .le => a.sle b | .gt => b.slt a | .ge => b.sle a
     | .un => false | .ord => true)
  | .u32 =>
    (match c with
     | .eq => a == b | .ne => a != b | .lt => a.ult b | .le => a.ule b | .gt => b.ult a | .ge => b.ule a
     | .un => false | .ord => true)

/-- The rounding mode that a three-bit code names, if it is one of 001 to 101 (R49, R65). -/
def rndOf? (c : Nat) : Option Rnd :=
  match c with
  | 1 => some .rne | 2 => some .rtz | 3 => some .rup | 4 => some .rdn | 5 => some .rna | _ => none

/-- FPM at reset: RM 001, no flag (R65). -/
def fpmReset : Word := 0x100

/-- The mode FPM holds; RM never leaves the codes 001 to 101 (R65). -/
def fpmMode (fpm : Word) : Rnd := (rndOf? (field fpm 10 8)).getD .rne

/-- The mode of a Form V word: its rm field, or FPM's mode when that is 000 (R64). -/
def modeOf (rm : RmField) (fpm : Word) : Rnd :=
  match rm with
  | .fpm => fpmMode fpm | .rne => .rne | .rtz => .rtz | .rup => .rup | .rdn => .rdn | .rna => .rna

/-- FPM with flags ORed in (R66). -/
def fpmOr (fpm : Word) (fl : FFlags) : Word := fpm ||| fl.setWidth 64

/-- A CWWR to FPM: the flags as given, RM unless the code written is 000, 110 or 111; reserved fields stay zero (R6, R65). -/
def fpmWrite (old v : Word) : Word :=
  let rm := if (rndOf? (field v 10 8)).isSome then field v 10 8 else field old 10 8
  BitVec.ofNat 64 (rm * 256 + field v 4 0)

/-- Bits of STAT (R97). -/
def statACMU : Nat := 0
/-- A narrow-scope side effect was dropped. -/
def statNSD : Nat := 1
/-- RACEU pending. -/
def statRACEUP : Nat := 2
/-- An RPT count was saturated. -/
def statRPTSAT : Nat := 4
/-- A data-queue condition. -/
def statDQE : Nat := 5
/-- Yield requested. -/
def statYR : Nat := 6

/-- A CWWR to STAT: bits 5, 4, 2, 1 and 0 as given, YR unchanged, reserved bits zero (R6, R97; DEDUCED log 55). -/
def statWrite (old v : Word) : Word := (old &&& 0x40) ||| (v &&& 0x37)

/-- PRC with its fields (R91). -/
def prcOf (act : Bool) (iter count : Nat) : Word :=
  BitVec.ofNat 64 ((if act then 2 ^ 32 else 0) + (iter % 65536) * 65536 + count % 65536)
/-- PRC.ACT. -/
def prcAct (prc : Word) : Bool := prc.getLsbD 32
/-- PRC.ITER. -/
def prcIter (prc : Word) : Nat := field prc 31 16
/-- PRC.COUNT. -/
def prcCount (prc : Word) : Nat := field prc 15 0
/-- A CWWR to PRC or TPRC keeps the reserved field zero (R6, R91). -/
def prcWrite (v : Word) : Word := v &&& 0x1FFFFFFFF

/-- TCAUSE with its fields (R103). -/
def tcauseOf (inH : Bool) (sub cause : BitVec 8) : Word :=
  BitVec.ofNat 64 ((if inH then 2 ^ 63 else 0) + sub.toNat * 256 + cause.toNat)
/-- TCAUSE.IN. -/
def tcauseIn (t : Word) : Bool := t.getLsbD 63

/-- SCOPEMODE.PIN (R265). -/
def smPin (s : Word) : Bool := s.getLsbD 0
/-- SCOPEMODE.RUD (R265). -/
def smRud (s : Word) : Bool := s.getLsbD 1

end Sys2Proof.Machine
end

