-- ==== Sys2Proof/Machine/Lanes.lean ====
section
/-! DEFINITION. Vector lanes (R50, R153 to R174, R180 to R182): the register and mask types, the view a modifier gives, the lane
functions of majors 0x11, 0x12 and 0x14, packing, conversion, and the fixed orders of reductions and scans. -/

namespace Sys2Proof.Machine

/-- A vector register: 1 024 elements, element (r, c) at index 64 r + c (R153). -/
abbrev VRegs := Vector Elem 1024
/-- A vector mask: bit e belongs to element e (R154). -/
abbrev VMask := BitVec 1024

/-- A vector register of zeros. -/
def vzero : VRegs := Vector.replicate 1024 0

/-- Sub-element j of an element at width w (R50). -/
def subAt (w : LaneW) (x : Elem) (j : Nat) : Nat := x.toNat / 2 ^ (w.bits * j) % 2 ^ w.bits

/-- The source sub-element that feeds position i under a modifier (R50). -/
def modSource (m : Modifier) (i : Nat) : Nat :=
  if m.sel.getLsbD 3 then (m.sel.extractLsb' 0 3).toNat
  else if m.sel = 1 then (if i % 2 = 0 then i + 1 else i - 1)
  else if m.sel = 2 then m.w.count - 1 - i
  else i

/-- Sub-element i of an element at lane width w, read through a modifier that agrees with w (R156). -/
def subMod (w : LaneW) (m : Modifier) (x : Elem) (i : Nat) : Nat :=
  if m = Modifier.identity then subAt w x i else subAt w x (modSource m i)

/-- An element put together from its lanes, lane 0 lowest (R157). -/
def joinLanes (w : LaneW) (f : Nat → Nat) : Elem :=
  BitVec.ofNat 32 ((List.range w.count).foldl (fun acc i => acc + (f i % 2 ^ w.bits) * 2 ^ (w.bits * i)) 0)

/-- The format of a float type (R159). -/
def ftypeFmt : FType → Fmt
  | .f32 => fp32 | .bf16 => Machine.bf16 | .fp16 => Machine.fp16

/-- A lane function with flags applied to every lane of an element; the flags of the lanes are ORed (R157, R66). -/
def laneFl (w : LaneW) (f : Nat → Nat × FFlags) : Elem × FFlags :=
  let r := (List.range w.count).map f
  (joinLanes w fun i => (r.getD i (0, 0)).1, r.foldl (fun acc x => acc ||| x.2) 0)

/-- The sequence of results of a masked instruction: element e of the destination where the mask is set, else its old value. -/
def maskMap (m : VMask) (old : VRegs) (f : Nat → Elem) : VRegs :=
  Vector.ofFn fun (i : Fin 1024) => if m.getLsbD i.val then f i.val else old[i]

/-- Element e of a register; e is below 1 024. -/
def velem (v : VRegs) (e : Nat) : Elem := v.getD e 0

/-- The integer modes of VIADD, VISUB and VIMUL on W-bit lanes (R162). -/
def satOp (w : LaneW) (mode : SatMode) (op : Int → Int → Int) (a b : Nat) : Nat :=
  let k := w.bits
  match mode with
  | .wrap => (op a b % (2 ^ k : Int)).toNat
  | .ss => (clampInt (op (toSigned k a) (toSigned k b)) (-(2 ^ (k - 1) : Int)) (2 ^ (k - 1) - 1) % (2 ^ k : Int)).toNat
  | .us => (clampInt (op a b) 0 (2 ^ k - 1)).toNat

/-- The lane shifts, the count being the whole lane (R162). -/
def laneShl (w : LaneW) (a b : Nat) : Nat := if w.bits ≤ b then 0 else a * 2 ^ b % 2 ^ w.bits
/-- Logical right. -/
def laneShr (w : LaneW) (a b : Nat) : Nat := if w.bits ≤ b then 0 else a / 2 ^ b
/-- Arithmetic right. -/
def laneSra (w : LaneW) (a b : Nat) : Nat :=
  let s := toSigned w.bits a
  ((if w.bits ≤ b then (if s < 0 then -1 else 0) else shrFloor s b) % (2 ^ w.bits : Int)).toNat

/-- Lane minimum or maximum, signed or unsigned (R161). -/
def laneMinMax (w : LaneW) (uns isMax : Bool) (a b : Nat) : Nat :=
  let x : Int := if uns then a else toSigned w.bits a
  let y : Int := if uns then b else toSigned w.bits b
  if isMax then (if x < y then b else a) else (if y < x then b else a)

/-- The source code of VCVT: the low bits, or the sub-element a broadcast names (R172). -/
def cvtSource (src : CvtType) (amod : Modifier) (x : Elem) : Nat :=
  if amod = Modifier.identity then x.toNat % 2 ^ src.width
  else subAt amod.w x (amod.sel.extractLsb' 0 3).toNat

/-- An element converted, with the zero fill above the destination's width (R172). -/
def cvtElem (src dst : CvtType) (inf : Bool) (r : Rnd) (c : Nat) : Elem × FFlags :=
  let (d, fl) := convert src dst inf r c
  (BitVec.ofNat 32 (d % 2 ^ dst.width), fl)

/-- Element (r, c) of a packing of two registers (R173). -/
def packElem (w : LaneW) (va vb : VRegs) (e : Nat) : Elem :=
  joinLanes w fun i =>
    let j := w.count * (e % 64) + i
    if j < 64 then (velem va (64 * (e / 64) + j)).toNat
    else if j < 128 then (velem vb (64 * (e / 64) + j - 64)).toNat
    else 0

/-- Element (r, c) of an unpacking (R174). -/
def unpackElem (w : LaneW) (sx : Bool) (part : Nat) (va : VRegs) (e : Nat) : Elem :=
  let k := 64 * part + e % 64
  let s := subAt w (velem va (64 * (e / 64) + k / w.count)) (k % w.count)
  if sx then BitVec.ofInt 32 (toSigned w.bits s) else BitVec.ofNat 32 s

/-- A reduction operator on two elements, the left operand first, with its flags (R181). -/
def redOp (op : RedOp) (r : Rnd) (a b : Elem) : Elem × FFlags :=
  match op with
  | .fadd => let (c, fl) := fp32.fadd r a.toNat b.toNat; (BitVec.ofNat 32 c, fl)
  | .fmin => (BitVec.ofNat 32 (fp32.minMax false a.toNat b.toNat), 0)
  | .fmax => (BitVec.ofNat 32 (fp32.minMax true a.toNat b.toNat), 0)
  | .iadd => (a + b, 0)
  | .imin => (if b.slt a then b else a, 0)
  | .imax => (if a.slt b then b else a, 0)
  | .umin => (if b.ult a then b else a, 0)
  | .umax => (if a.ult b then b else a, 0)
  | .and => (a &&& b, 0)
  | .or => (a ||| b, 0)
  | .xor => (a ^^^ b, 0)

/-- One level of the reduction tree: neighbours combined pairwise (R182). -/
def redLevel (op : RedOp) (r : Rnd) : List Elem → List Elem × FFlags
  | a :: b :: rest =>
    let (c, f1) := redOp op r a b
    let (cs, f2) := redLevel op r rest
    (c :: cs, f1 ||| f2)
  | rest => (rest, 0)

/-- The reduction of a line by a number of levels (R182). -/
def reduceLine (op : RedOp) (r : Rnd) : Nat → List Elem → FFlags → Elem × FFlags
  | 0, y, fl => (y.headD 0, fl)
  | k + 1, y, fl => let (y', f) := redLevel op r y; reduceLine op r k y' (fl ||| f)

/-- One step of the scan at distance d: every element at index d or more takes its left neighbour first (R182). -/
def scanStep (op : RedOp) (r : Rnd) (d : Nat) (y : List Elem) : List Elem × FFlags :=
  let z := y.zipIdx.map fun (x, i) => if i < d then (x, 0) else redOp op r (y.getD (i - d) 0) x
  (z.map (·.1), z.foldl (fun acc p => acc ||| p.2) 0)

/-- The scan of a line by a number of steps (R182). -/
def scanLine (op : RedOp) (r : Rnd) : Nat → Nat → List Elem → FFlags → List Elem × FFlags
  | 0, _, y, fl => (y, fl)
  | k + 1, s, y, fl => let (y', f) := scanStep op r (2 ^ s) y; scanLine op r k (s + 1) y' (fl ||| f)

end Sys2Proof.Machine
end

