-- ==== Sys2Proof/Machine/BlockCodec.lean ====
section
/-! DEFINITION. Quantised blocks (R194 to R201, R206 to R210): carriage form, header check bits, selectors, decoding, and the
choice of a selector and codes by QST. -/

namespace Sys2Proof.Machine

/-- Bits of one element of a width class (R194). -/
def blkK : BlkClass → Nat
  | .c8 => 8 | .c6 => 6 | .c4 => 4

/-- Bytes of a block in carriage form (R194). -/
def blkBytes (k : BlkClass) : Nat := 2 + 4 * blkK k

/-- The index of a level table of a class: A8, B8, A6, B6, A4, B4 in the order of LVLBASE's bits (R200). -/
def lvlIndex (k : BlkClass) (b : Bool) : Nat :=
  (match k with | .c8 => 0 | .c6 => 2 | .c4 => 4) + (if b then 1 else 0)

/-- The six level tables of a context with their VALID bits, and QSEL: what one instruction reads once (R200, R202, R206). -/
structure BlkCtx where
  qsel : Word
  lvlbase : Word
  tables : Vector (List (BitVec 16)) 6
  deriving DecidableEq, Repr, Inhabited

/-- QSEL at reset (R206). -/
def qselReset : Word := 0x1AC6881F

/-- The code position of header data bit j (R196). -/
def hdrPos (j : Nat) : Nat := [3, 5, 6, 7, 9, 10, 11, 12, 13, 14, 15].getD j 0

/-- CHK bit k of the data bits of a header (R196). -/
def hdrChk (h : BitVec 16) (k : Nat) : Bool :=
  (List.range 11).foldl (fun acc j => acc ^^ (h.getLsbD j && (hdrPos j).testBit k)) false

/-- The four low check bits recomputed, as a number. -/
def hdrChk4 (h : BitVec 16) : Nat :=
  (List.range 4).foldl (fun acc k => acc + (if hdrChk h k then 2 ^ k else 0)) 0

/-- The parity of the low n bits. -/
def parity (h : BitVec 16) (n : Nat) : Bool := (List.range n).foldl (fun acc j => acc ^^ h.getLsbD j) false

/-- The header of a selector and a scale, with its check bits (R195, R196). -/
def hdrMake (sel scale : Nat) : BitVec 16 :=
  let d : BitVec 16 := BitVec.ofNat 16 (sel % 8 + scale % 256 * 8)
  let h := d ||| BitVec.ofNat 16 (hdrChk4 d * 2 ^ 11)
  if parity h 15 then h ||| 0x8000 else h

/-- What a reader finds in a header (R196): the header to use and whether it was corrected, or a double error. -/
inductive HdrVerdict where
  | ok (h : BitVec 16) (corrected : Bool)
  | double
  deriving DecidableEq, Repr

/-- The header bit that a syndrome of a single error names (R196). -/
def hdrErrBit (z : Nat) : Nat :=
  match z with
  | 0 => 15 | 1 => 11 | 2 => 12 | 4 => 13 | 8 => 14
  | 3 => 0 | 5 => 1 | 6 => 2 | 7 => 3 | 9 => 4 | 10 => 5 | 11 => 6 | 12 => 7 | 13 => 8 | 14 => 9 | _ => 10

/-- The check of a header (R196). -/
def hdrCheck (h : BitVec 16) : HdrVerdict :=
  let z := field h 14 11 ^^^ hdrChk4 h
  if parity h 16 then .ok (h ^^^ BitVec.twoPow 16 (hdrErrBit z)) true
  else if z = 0 then .ok h false else .double

/-- SEL of a header (R195). -/
def hdrSel (h : BitVec 16) : Nat := field h 2 0
/-- SCALE of a header (R195). -/
def hdrScale (h : BitVec 16) : Nat := field h 10 3

/-- The encoding of a block's elements (R198). -/
inductive SelFmt where
  | int | uint | nf (f : NFmt) | table (b : Bool) | bad
  deriving DecidableEq, Repr

/-- The encoding that a selector names in a class (R198). -/
def selFmt (k : BlkClass) (sel : Nat) : SelFmt :=
  match k, sel with
  | _, 0 => .int
  | _, 5 => .table false
  | _, 6 => .table true
  | .c8, 1 => .nf ⟨8, 2⟩ | .c8, 2 => .nf ⟨8, 3⟩ | .c8, 3 => .nf ⟨8, 4⟩ | .c8, 4 => .nf ⟨8, 5⟩
  | .c6, 1 => .nf ⟨6, 1⟩ | .c6, 2 => .nf ⟨6, 2⟩ | .c6, 3 => .nf ⟨6, 3⟩ | .c6, 4 => .nf ⟨6, 4⟩
  | .c4, 1 => .nf ⟨4, 1⟩ | .c4, 2 => .nf ⟨4, 2⟩ | .c4, 3 => .nf ⟨4, 3⟩ | .c4, 4 => .uint
  | _, _ => .bad

/-- Whether a level table is valid (R200). -/
def BlkCtx.valid (x : BlkCtx) (k : BlkClass) (b : Bool) : Bool := x.lvlbase.getLsbD (lvlIndex k b)

/-- An entry of a level table, read as BF16 (R199). -/
def BlkCtx.entry (x : BlkCtx) (k : BlkClass) (b : Bool) (i : Nat) : FVal :=
  bf16.value (((x.tables.getD (lvlIndex k b) []).getD i 0).toNat)

/-- dec of a code: its value before the block scale (R199). -/
def decCode (x : BlkCtx) (k : BlkClass) (f : SelFmt) (c : Nat) : FVal :=
  match f with
  | .int => .ofInt (toSigned (blkK k) c)
  | .uint => .ofInt (c : Nat)
  | .nf n => n.value false c
  | .table b => x.entry k b c
  | .bad => .nan

/-- A value times a power of two. -/
def FVal.scale (v : FVal) (k : Int) : FVal :=
  match v with | .fin n m e => .fin n m (e + k) | .nan => .nan | .inf n => .inf n

/-- The value of an element code under a header (R199): NaN when the scale is 255. -/
def elemValue (x : BlkCtx) (k : BlkClass) (h : BitVec 16) (c : Nat) : FVal :=
  if hdrScale h = 255 then .nan
  else (decCode x k (selFmt k (hdrSel h)) c).scale ((hdrScale h : Int) - 127)

/-- Element code i of a payload held as one little-endian number (R194). -/
def payCode (k : BlkClass) (pay : Nat) (i : Nat) : Nat := pay / 2 ^ ((blkK k) * i) % 2 ^ (blkK k)

/-- The SELF subcause of a checked header, or none (R197). -/
def hdrSelf (x : BlkCtx) (k : BlkClass) (v : HdrVerdict) : Option Nat :=
  match v with
  | .double => some 1
  | .ok h _ =>
    if hdrSel h = 7 then some 2
    else if (hdrSel h = 5 && !x.valid k false) || (hdrSel h = 6 && !x.valid k true) then some 3
    else none

/-- floor(log2) of a nonzero finite value's magnitude. -/
def FVal.log2 : FVal → Int
  | .fin _ m e => e + bitLen m - 1 | .nan => 0 | .inf _ => 0

/-- The entry of a level table with the largest magnitude, as floor(log2) (R208). -/
def BlkCtx.tableEmax (x : BlkCtx) (k : BlkClass) (b : Bool) : Int :=
  let mags := ((x.tables.getD (lvlIndex k b) []).map fun e => e.toNat % 2 ^ 15)
  (bf16.value (mags.foldl max 0)).log2

/-- emax of a selector (R70, R208). -/
def emaxOf (x : BlkCtx) (k : BlkClass) (f : SelFmt) : Int :=
  match f with
  | .int => ((blkK k) : Int) - 2
  | .uint => 3
  | .nf n => (n.value false (2 ^ (n.K - 1) - 1)).log2
  | .table b => x.tableEmax k b
  | .bad => 0

/-- The exact distance of two finite values, as a finite value. -/
def FVal.dist (a b : FVal) : FVal :=
  match (a.add .rne b.negate).1 with | .fin _ m e => .fin false m e | v => v

/-- The level-table index nearest to v: the lowest even index among the nearest, else the lowest (R209). -/
def nearestLevel (x : BlkCtx) (k : BlkClass) (b : Bool) (v : FVal) : Nat :=
  let idx := List.range (2 ^ (blkK k))
  let dOf := fun (i : Nat) =>
    match v with
    | .inf neg => (if neg then x.entry k b i else (x.entry k b i).negate)
    | .fin n m e => (FVal.fin n m e).dist (x.entry k b i)
    | .nan => .nan
  let better := fun (i j : Nat) => (dOf i).lt (dOf j) || (!(dOf j).lt (dOf i) && i % 2 = 0 && j % 2 = 1)
  idx.foldl (fun best i => if better i best then i else best) 0

/-- enc: the code of an exact quotient (R209). -/
def encCode (x : BlkCtx) (k : BlkClass) (f : SelFmt) (v : FVal) : Nat :=
  let intEnc := fun (lo hi : Int) =>
    match v with
    | .nan => 0
    | .inf neg => ((if neg then lo else hi) % (2 ^ (blkK k) : Int)).toNat
    | .fin neg m e =>
      let q := (roundMag .rne neg m e false).1
      (clampInt (if neg then -(q : Int) else q) lo hi % (2 ^ (blkK k) : Int)).toNat
  match f with
  | .int => intEnc (-(2 ^ ((blkK k) - 1) - 1)) (2 ^ ((blkK k) - 1) - 1)
  | .uint => intEnc 0 15
  | .nf n => (n.ofVal false .rne v).1
  | .table b => nearestLevel x k b v
  | .bad => 0

/-- The sum of a list of FP32 codes in a balanced tree of rounded additions (R208). -/
def tree32 : Nat → List Nat → Nat
  | 0, y => y.headD 0
  | n + 1, y =>
    let rec level : List Nat → List Nat
      | a :: b :: rest => (fp32.fadd .rne a b).1 :: level rest
      | rest => rest
    tree32 n (level y)

/-- A chosen encoding of a block: selector, scale and codes. -/
structure BlkPick where
  sel : Nat
  scale : Nat
  codes : List Nat
  deriving DecidableEq, Repr

/-- The enabled selectors in priority order, those of invalid tables omitted; selector 0 when none is left (R206, R208). -/
def candidates (x : BlkCtx) (k : BlkClass) : List Nat :=
  let pri := (List.range 7).map fun i => field x.qsel (10 + 3 * i) (8 + 3 * i)
  let c := pri.filter fun s =>
    s < 7 && x.qsel.getLsbD s && !(s == 5 && !x.valid k false) && !(s == 6 && !x.valid k true)
  if c.isEmpty then [0] else c

/-- One candidate's exponent, codes and error (R208). -/
def tryCand (x : BlkCtx) (k : BlkClass) (lg : Int) (xs : List Nat) (s : Nat) : BlkPick × Nat :=
  let f := selFmt k s
  let e := clampInt (lg - emaxOf x k f) (-127) 127
  let codes := xs.map fun c => encCode x k f ((fp32.value c).scale (-e))
  let qs := (xs.zip codes).map fun (c, code) =>
    let d := (fp32.ofVal .rne ((fp32.value c).add .rne ((decCode x k f code).scale e).negate).1).1
    (fp32.fmul .rne d d).1
  (⟨s, (e + 127).toNat, codes⟩, tree32 5 qs)

/-- The selection for one block of 32 FP32 codes (R208). -/
def pickBlock (x : BlkCtx) (k : BlkClass) (xs : List Nat) : BlkPick :=
  let cand := candidates x k
  let zeros := List.replicate 32 0
  if xs.any (fun c => (fp32.value c).isNan) then ⟨cand.headD 0, 255, zeros⟩
  else
    let amax := (xs.map (· % 2 ^ 31)).foldl (fun a c => if c < fp32.infBits then max a c else a) 0
    if amax = 0 then ⟨cand.headD 0, 127, zeros⟩
    else
      let lg := (fp32.value amax).log2
      let best := cand.foldl (fun (b : Option (BlkPick × Nat)) s =>
        let t := tryCand x k lg xs s
        match b with
        | none => some t
        | some o => if (fp32.value t.2).lt (fp32.value o.2) then some t else some o) none
      match best with | some o => o.1 | none => ⟨cand.headD 0, 127, zeros⟩

/-- The bytes of a block in carriage form (R194). -/
def blockBytes (k : BlkClass) (p : BlkPick) : List Byte :=
  let pay := p.codes.zipIdx.foldl (fun acc (c, i) => acc + c % 2 ^ (blkK k) * 2 ^ ((blkK k) * i)) 0
  leBytes 2 (hdrMake p.sel p.scale).toNat ++ leBytes (4 * (blkK k)) pay

end Sys2Proof.Machine
end

