-- ==== Sys2Proof/Machine/State.lean ====
section
/-! DEFINITION. The machine's state, as plain data: every piece of state the spec names, the moves that say which agent acts
next, the reasons a run stops, and the state after reset (INVENTORY.md lists each field with its rule). -/

namespace Sys2Proof.Machine

/-! ## Memory: bytes at addresses in one canonical form -/

/-- What an address that no cell lists reads as (DESIGN CHOICE log 4). -/
def unlisted : Byte := 0

/-- A memory: cells in strictly rising address, none equal to what an unlisted address reads as. -/
abbrev Memory := List Host.Cell

/-- The cells are in canonical form from address lo on. -/
def cellsFrom : Nat → Memory → Bool
  | _, [] => true
  | lo, (a, b) :: rest => decide (lo ≤ a) && b != unlisted && cellsFrom (a + 1) rest

/-- A memory is in canonical form. -/
def Memory.wf (m : Memory) : Bool := cellsFrom 0 m

/-! ## Streams -/

/-- The state of a stream (R78), numbered 0 to 7 in the order of the rule's table (R300). -/
inductive RunState where
  | idle | run | wait | held | yielded | halted | arrived | out
  deriving DecidableEq, Repr, Inhabited

/-- A trap: its cause code, subcause and value (R100, R103). -/
structure Trap where
  cause : BitVec 8
  sub : BitVec 8
  tval : Word
  deriving DecidableEq, Repr, Inhabited

/-- What a waiting stream waits for (R78): of a barrier, the end of a generation or, with none, the place of its own arrival; the answers of
loads to some registers, or of all its loads. -/
inductive WaitFor where
  | dqEntry (q : Nat) | dqSlot (q : Nat) | bqEntry | bqSlot
  | engineQueue (t : FlagTarget)
  | flag (n : Nat)
  | memory (line : Nat)
  | walk (va : Nat)
  | remoteLimit (dest : Nat) (alone : Bool) | markQuiet | journalFull | remoteAnswer (tag : Nat)
  | pinned (line : Nat)
  | copies (seqs : List Nat)
  | tileRange (lo hi : Nat)
  | bankRange (b : Nat)
  | matrix (n : Nat)
  | acmRows (lo hi : Nat) (mgos : List (Nat × Nat))
  | barrier (n i : Nat) (gen : Option Nat) | ssync
  | loads (rs : List XReg)
  | requests (tags : List Nat) (reads : Bool)
  | atsAnswers (n : Nat) | acceptedKey (n : Nat) | vecStores (ctx : Nat) | yielding
  deriving DecidableEq, Repr, Inhabited

/-- What a stream and a station core share: scalar registers, predicates (bit n is pn), program counter, PRC, STAT and the
shadow stack, top first (R17, R89, R91, R97, R106). `rptOn` is the model's own: a repetition has begun and its next step goes on
with it (DEDUCED log 10). -/
structure Hart where
  x : Vector Word 64
  p : BitVec 8
  pc : Word
  prc : Word
  stat : Word
  shadow : List Word
  rptOn : Bool
  deriving DecidableEq, Repr, Inhabited

/-- A list slot (R238, R239): its generation, and whether it is free, open (being collected) or closed. -/
inductive SlotUse where
  | free | opened | closed
  deriving DecidableEq, Repr, Inhabited

/-- One of a stream's 64 list slots. -/
structure ListSlot where
  gen : BitVec 8
  use : SlotUse
  deriving DecidableEq, Repr, Inhabited

/-- The effect-list state of a stream: EFARENA, the open slots innermost first (their number is the collecting depth), the
slots and USED (R238, R242, R243). -/
structure Lists where
  arena : Word
  opened : List Nat
  slots : Vector ListSlot 64
  used : Nat
  deriving DecidableEq, Repr, Inhabited

/-- A load that has issued and is not yet answered (R94, R256; DESIGN CHOICE log 2): where its value goes, the data-queue slot
it reserved, the value, and whether it reads host memory (R340). -/
structure PendingLoad where
  dst : XReg
  slot : Option (Nat × Nat)
  value : Word
  host : Bool
  deriving DecidableEq, Repr, Inhabited

/-- A release a location holds (R261, R263, R266): the bytes, who released (a station core is core 512 + n), in which kernel,
at what scope, and the epoch it published; in pin mode, the later releases of that party that widened it, each with its scope,
tier and epoch. -/
structure Release where
  addr : Nat
  size : Nat
  core : Nat
  st : StreamId
  kernel : Option Nat
  scope : Scope
  tier : Nat
  epoch : Nat
  pin : Bool
  wider : List (Scope × Nat × Nat)
  deriving DecidableEq, Repr, Inhabited

/-- A line pinned to a party's cluster (R266), named as locations are: the party, and the scopes whose parties it lets in. -/
structure Pin where
  line : Nat
  core : Nat
  st : StreamId
  scopes : List (Scope × Nat)
  deriving DecidableEq, Repr, Inhabited

/-- A release fence whose order later weak and strong stores carry (R259): its scope, tier and published epoch. -/
structure FenceMark where
  scope : Scope
  tier : Nat
  epoch : Nat
  pin : Bool
  deriving DecidableEq, Repr, Inhabited

/-- The kind of a remote request (R330 to R333): a load, with the data-queue slot it reserved, one element of a vector load (of the gather path or not), a
store (of the gather path or not), an atomic; the transaction that a copy or a collective is (R306); and one line of a copy, of a
collective or of a plan, a read or a write, numbered. -/
inductive RemoteKind where
  | load (dst : XReg) (signed : Bool) (acquire : Bool) (slot : Option (Nat × Nat))
  | vload (e : Nat) (gather : Bool)
  | store (gather : Bool)
  | atom (op : AtomOp) (dst : XReg) (acquire : Bool)
  | copy (seq : Nat) | coll (seq : Nat)
  | line (coll write : Bool) (seq n : Nat)
  deriving DecidableEq, Repr, Inhabited

/-- An outstanding remote request (R331 to R335): `own` are the releases of this package from which its answer was read (R261; DESIGN
CHOICE log 71), `left` those that it left at the location at its issue; `first` says that the stream's mark stands at its word (R306). -/
structure RemoteReq where
  tag : Nat
  kind : RemoteKind
  dest : Nat
  offset : Nat
  addr : Word
  size : Nat
  strong : Bool
  key : Nat
  data : Nat
  answer : Option Nat
  own : List Release
  left : List Release
  first : Bool
  deriving DecidableEq, Repr, Inhabited

/-- A write that a reader on another path, or of another party that nothing orders after it, may still miss (R191, R262, R375, R376;
DESIGN CHOICE log 72): its number, its path by its bit in XFENCE (R260), who made it, the bytes that stood before it, named as locations are,
and the readers (a stream, on its gather path or not) that have seen it. -/
structure PastWrite where
  at_ : Nat
  path : Nat
  core : Nat
  st : StreamId
  old : List (Nat × Byte)
  known : List (Nat × StreamId × Bool)
  deriving DecidableEq, Repr, Inhabited

/-- One entry of a stream's journal (R306): where it wrote, the byte enables, the old bytes. -/
structure JEntry where
  tile : Bool
  line : Nat
  old : List (Nat × Byte)
  deriving DecidableEq, Repr, Inhabited

/-- A flag: three push sequence numbers (R130), and the model's own note of the stream that last set or cleared it. -/
structure EFlag where
  arm : Nat
  fire : Nat
  clr : Nat
  by_ : StreamId
  deriving DecidableEq, Repr, Inhabited

/-- The positions of one stream on bq: the bits it has pushed, those it has popped, and the last it popped, newest first
(R95, R306). -/
structure BqPos where
  pushes : Nat
  pops : Nat
  popped : List Bool
  deriving DecidableEq, Repr, Inhabited

/-- The operand descriptors and loop nest of a product (R218 to R222). -/
structure OpDesc where
  base : Word
  desc : Word
  deriving DecidableEq, Repr, Inhabited

/-- A loop level (R221). -/
structure LoopLevel where
  xa : Word
  xb : Word
  deriving DecidableEq, Repr, Inhabited

/-- Stream M's product table; none is unset (R218). -/
structure ProdTable where
  opA : Option OpDesc
  opB : Option OpDesc
  tgt : Option Word
  idx : Word
  levels : Vector (Option LoopLevel) 6
  deriving DecidableEq, Repr, Inhabited

/-- The snapshot a mark takes (R306): the stream's program-visible state (stream M's product table with it), its queue positions and the
flags. -/
structure Snap where
  hart : Hart
  fpm : Word
  trapvec : Word
  tcause : Word
  tepc : Word
  tval : Word
  tprc : Word
  scopemode : Word
  lists : Lists
  dqPos : List (Nat × Nat)
  bqPos : BqPos
  flags : Vector EFlag 64
  push : Nat
  table : ProdTable
  collPushed : Vector Nat 8
  collwMarks : Vector (List Nat) 8
  deriving DecidableEq, Repr, Inhabited

/-- A stream of a core. `barTok` is the tier, barrier and token of a BARAW that has arrived, `ssOut` what its SSYNC is to write
(R268, R271). `vecPos` and `vecGot` are the remote elements that a vector access in progress has issued and the
answers it has (R331); `vstPos` counts the runs that a vector store in progress has performed (R190). The writes carried to the load/store
path before number `lsView` are seen by its accesses on that path, those before `gthView` by its gathers (R191, R260; DESIGN CHOICE log 72). -/
structure Stream where
  st : RunState
  saved : RunState
  hart : Hart
  allot : Allot
  fpm : Word
  trapvec : Word
  tcause : Word
  tepc : Word
  tval : Word
  tprc : Word
  scopemode : Word
  lists : Lists
  held : Option Trap
  heldArena : Bool
  waiting : Option WaitFor
  loads : List PendingLoad
  remote : List RemoteReq
  mark : Option Snap
  journal : List JEntry
  w : Vector (BitVec 8) 16
  barTok : Option (Nat × Nat × Nat)
  ssynced : Bool
  ssOut : Option Word
  relFences : List FenceMark
  seen : List Release
  vecPos : Nat
  vecGot : List (Nat × Nat)
  vstPos : Nat
  lsView : Nat
  gthView : Nat
  bqAt : BqPos
  deriving DecidableEq, Repr, Inhabited

/-- An entry of a data queue: filled, reserved by a load that has issued, or held by a load that faulted (R92, R94). -/
inductive DqEntry where
  | filled (v : Word) | reserved (id : Nat) | heldSlot (id : Nat)
  deriving DecidableEq, Repr, Inhabited

/-- A data queue: its entries, head first, its closed bit, the number its next reserved slot gets (R92, R93), and its
positions: the pops and pushes so far and the values its ring still holds from the last pops, newest first (R306). -/
structure DataQueue where
  entries : List DqEntry
  closed : Bool
  nextId : Nat
  pops : Nat
  pushes : Nat
  popped : List Word
  deriving DecidableEq, Repr, Inhabited

/-- A copy command as pushed, or its progress (R144, R145). -/
structure CopyCmd where
  kind : BitVec 2
  a : Word
  b : Word
  sz : Nat
  step : Int
  cnt : Nat
  tile : Option (BitVec 64)
  stepsDone : Nat
  deriving DecidableEq, Repr, Inhabited

/-- A collective as pushed (R279). -/
structure CollCmd where
  kind : CollKind
  op : CollOp
  ty : CollType
  src : Word
  dst : Word
  count : Nat
  tier : Nat
  ordinal : Nat
  deriving DecidableEq, Repr, Inhabited

/-- A command or marker in an engine queue (R126). -/
inductive EngineCmd where
  | copy (c : CopyCmd)
  | mgo (t : ProdTable) (nlev : Nat)
  | coll (c : CollCmd)
  | collw (tier ordinal : Nat)
  | fset (n : Nat)
  | fwait (n need : Nat)
  | fclr (n : Nat)
  deriving DecidableEq, Repr, Inhabited

/-- A range the range checker holds (R149): the space (none for tile space, else a slice), whether it is a write range, its
bytes, and the command or window that holds it. -/
structure HeldRange where
  slice : Option Nat
  write : Bool
  lo : Nat
  hi : Nat
  core : Nat
  seq : Nat
  window : Bool
  deriving DecidableEq, Repr, Inhabited

/-- How far an engine's transfer is (R147, R282): the bytes of its source once they are read, and the pieces of its destination that
are written or on their way. -/
structure Prog where
  data : Option (List Byte)
  lines : Nat
  deriving DecidableEq, Repr, Inhabited

/-- An entry of an engine queue: its sequence number, the stream that pushed it, whether it has issued, the ranges it claimed at
issue, and how far its transfer is (R127, R128, R149). -/
structure QEntry where
  seq : Nat
  by_ : StreamId
  cmd : EngineCmd
  issued : Bool
  ranges : List HeldRange
  prog : Prog
  deriving DecidableEq, Repr, Inhabited

/-- What a pass of a running MGO has fetched (R222, R225): the array cycle it starts at, the B lines, and the A lines by m;
none is a line of zeros that an index past the operand gives (R220). -/
structure Pass where
  start : Nat
  b : List (List FVal)
  a : List (Option (List FVal))
  deriving DecidableEq, Repr, Inhabited

/-- A fold on its way to an element: the array cycle at whose end it enters, the cycle at which its pass begins, its A line, the band
it comes from, the row and column, the fold (R225). -/
structure PendEntry where
  at_ : Nat
  start : Nat
  line : Nat
  band : Nat
  row : Nat
  col : Nat
  fold : Fold
  deriving DecidableEq, Repr, Inhabited

/-- A partial sum in flight that a field book gave back (R300, R305): of an A line of the pass that begins at a cycle and a column, the fold
over the rows of its band up to one. -/
structure BookSum where
  start : Nat
  line : Nat
  col : Nat
  row : Nat
  fold : Fold
  deriving DecidableEq, Repr, Inhabited

/-- A running MGO: the table it copied, the level tables it read at issue, the array cycles since its issue, the one at which its first
pass begins, what its passes have fetched, the folds on their way, and the fault that holds its clocks (R222, R225, R236). `under` are the B
elements that the MGOs before it leave in the cells, the last one's first; `sums` the partial sums that a field book gave back. -/
structure RunMgo where
  seq : Nat
  table : ProdTable
  nlev : Nat
  blk : BlkCtx
  cycle : Nat
  first : Nat
  passes : List Pass
  pend : List PendEntry
  held : Option Trap
  under : List (List (List FVal))
  sums : List BookSum
  deriving DecidableEq, Repr, Inhabited

/-- The matrix array of a core: the running MGOs in issue order and the status MSTAT reads (R222, R223, R237). -/
structure MatArray where
  running : List RunMgo
  last : BitVec 32
  fault : Bool
  fsub : BitVec 8
  disc : Nat
  pendFault : Option Trap
  deriving DecidableEq, Repr, Inhabited

/-- The backsight of a core (R16, R350): the state of M and C at the last tile-start mark, none of a stream that was IDLE; the commands
of M and C that have issued since; those that a replay has not pushed again; and the command whose mismatch it replays. -/
structure Backsight where
  m : Option Snap
  c : Option Snap
  issued : List QEntry
  again : List QEntry
  fault : Option Nat
  deriving DecidableEq, Repr, Inhabited

/-- A core. `replay` are the copies that run again after an error of the cluster store (R310). `collPushed` and `collwMarks` count, for each tier,
the COLLs it has pushed and what that count was at each of its COLLWs (R279, R282). `collHeld` is the page fault at which its collective is
held (R148, R321). -/
structure Core where
  a : Stream
  x : Stream
  m : Stream
  c : Stream
  dq : Vector DataQueue 8
  bq : List (StreamId × Bool)
  flags : Vector EFlag 64
  push : Nat
  copyQ : List QEntry
  matQ : List QEntry
  colQ : List QEntry
  copyStopped : Option Trap
  collHeld : Option Trap
  v : Vector VRegs 16
  masks : Vector VMask 8
  z : Vector (Vector Elem 4096) 4
  table : ProdTable
  array : MatArray
  hdrCorr : BitVec 32
  window : List QEntry
  winHold : Bool
  replay : List QEntry
  back : Backsight
  replays : Nat
  kernel : Option Nat
  collPushed : Vector Nat 8
  collwMarks : Vector (List Nat) 8
  deriving DecidableEq, Repr, Inhabited

/-! ## Clusters, dies, slices -/

/-- The state of a tile-table entry that is defined (R138). -/
inductive TileState where
  | empty | filling | ready | draining
  deriving DecidableEq, Repr, Inhabited

/-- A defined tile-table entry (R137, R138). -/
structure Tile where
  desc : Word
  owner : Nat
  kernel : Option Nat
  state : TileState
  deriving DecidableEq, Repr, Inhabited

/-- A deferral ring: the core bound to it and its entries, oldest first (R186). -/
structure Ring where
  bound : Option Nat
  entries : List Elem
  deriving DecidableEq, Repr, Inhabited

/-- An entry of a cluster's translation cache (R319). -/
structure TlbEntry where
  ctx : Nat
  va : Nat
  size : Nat
  pa : Nat
  r : Bool
  w : Bool
  host : Bool
  deriving DecidableEq, Repr, Inhabited

/-- An entry of a race-detection vector V (R263). -/
structure VEntry where
  epoch : Nat
  stream : Nat
  at_ : Nat
  deriving DecidableEq, Repr, Inhabited

/-- The race state of one kernel in one cluster (R263). -/
structure RaceCluster where
  e : Nat
  v : Vector VEntry 128
  snaps : List (Nat × Vector VEntry 128)
  partial_ : Bool
  deriving DecidableEq, Repr, Inhabited

/-- The three owner masks of one context in one cluster (R297). -/
structure Owner where
  core : BitVec 4
  bank : BitVec 64
  acm : BitVec 64
  deriving DecidableEq, Repr, Inhabited

/-- A cluster. -/
structure Cluster where
  modes : Vector BankMode 64
  store : Memory
  rings : Vector Ring 64
  tiles : Vector (Option Tile) 256
  acm : List (Nat × AccElem)
  acmAlloc : Vector (Option Nat) 64
  owners : List (Nat × Owner)
  ranges : List HeldRange
  tlb : List TlbEntry
  lastServed : Nat
  stopped : List Nat
  shifted : List Nat
  restored : List Nat
  resumed : List Nat
  badStore : List Nat
  badSegs : List (Nat × Nat)
  deriving DecidableEq, Repr, Inhabited

/-- A walk in flight (R319). -/
structure Walk where
  ctx : Nat
  cluster : Nat
  va : Nat
  deriving DecidableEq, Repr

/-- A compute die: its walks in flight, its bad-entry list, oldest first (R318, R319), and its physical clusters that failed
(R348). -/
structure Die where
  walks : List Walk
  bad : List Nat
  broken : List Nat
  deriving DecidableEq, Repr

/-- An error of a line or its tag, found at its next read (R328, R366). -/
inductive Injected where
  | none | l2ce | l2ue | tagce | tague
  deriving DecidableEq, Repr, Inhabited

/-- A home line resident in L2 (R322, R323, R328). -/
structure L2Line where
  data : BitVec 512
  dirty : Bool
  owner : Nat
  nc : Bool
  slice : Nat
  way : Nat
  inj : Injected
  poisoned : Bool
  deriving DecidableEq, Repr

/-- One party of a line's race record: cluster, stream of the cluster (4k + stream), epoch (R263). -/
structure RaceId where
  cluster : Nat
  stream : Nat
  epoch : Nat
  deriving DecidableEq, Repr

/-- The race record of a home line (R263). -/
structure LineRec where
  kernel : Nat
  step : Nat
  writer : Option RaceId
  readers : List RaceId
  full : Bool
  deriving DecidableEq, Repr

/-- An L2 slice (R151, R327, R365). -/
structure Slice where
  staging : Memory
  quarantined : List Nat
  lost : List Nat
  homeFenced : Bool
  deriving DecidableEq, Repr

/-! ## Contexts, kernels, queues, partitions -/

/-- The state of a context (R296). -/
inductive CtxState where
  | free | idle | running | yielding | saving | saved | restoring | terminating
  deriving DecidableEq, Repr, Inhabited

/-- A policy image (R132): the words of its three programs. -/
structure Policy where
  enq : List (BitVec 32)
  pick : List (BitVec 32)
  slice : List (BitVec 32)
  deriving DecidableEq, Repr

/-- A context. -/
structure Context where
  state : CtxState
  part : Nat
  root : Nat
  spillSize : Nat
  spillBase : Nat
  blk : BlkCtx
  jbase : Nat
  jk : Nat
  status : Option (BitVec 8)
  cause : Option Trap
  drain : Bool
  dismantled : Bool
  policy : Option Policy
  polState : Vector (BitVec 32) 16
  ats : List (Nat × Nat)
  atsStale : List (Nat × Nat)
  pri : List (Nat × Nat)
  hostRefused : List (Nat × Nat)
  queues : Vector (Option Nat) 16
  deriving DecidableEq, Repr

/-- A named barrier (R267): its fields, who has arrived in the generation that fills, and the releases of arrivals by generation. -/
structure Barrier where
  gen : Nat
  count : Nat
  exp : Nat
  mask : BitVec 4
  arrived : List (Nat × StreamId)
  releases : List (Nat × Release)
  deriving DecidableEq, Repr, Inhabited

/-- A transfer of an exchange plan (R272). -/
structure Transfer where
  src : Word
  dst : Word
  slot : Nat
  bytes : Nat
  lane : Nat
  deriving DecidableEq, Repr

/-- A plan (R272). -/
structure Plan where
  len : Nat
  transfers : List Transfer
  deriving DecidableEq, Repr

/-- A configuration record of a slot (R284): for a tile or a bank, which one, and the descriptor or mode code. -/
structure CfgRec where
  tile : Bool
  idx : Nat
  val : Word
  deriving DecidableEq, Repr

/-- An accepted kernel, waiting or running (R287 to R291). -/
structure Kernel where
  id : Nat
  ctx : Nat
  part : Nat
  queue : Nat
  seq : Nat
  slot : Nat
  buf : Vector Word 16
  done : Word
  est : Word
  tokens : Nat
  priority : Nat
  ncores : Nat
  tiers : Vector Word 8
  members : List Nat
  rank : Nat
  plan : Plan
  cfg : List CfgRec
  placed : Bool
  cores : List Nat
  step : Nat
  barriers : List ((Nat × Nat × Nat) × Barrier)
  race : List (Nat × RaceCluster)
  comm : Bool
  commAt : Nat
  commProg : Prog
  deriving DecidableEq, Repr

/-- A submission queue (R121 to R123, R286, R292). -/
structure SubQueue where
  part : Nat
  id : Nat
  ctx : Nat
  fast : Bool
  deviceFed : Bool
  ring : Nat
  bound : List Nat
  intake : List Word
  next : BitVec 32
  commit : BitVec 32
  ovf : Bool
  lowdrop : BitVec 32
  dcount : BitVec 32
  handed : Option (BitVec 32)
  deriving DecidableEq, Repr

/-- The four registers of a plat (R203). -/
structure Plat where
  win : Word
  ctl : Word
  pay : Word
  hdr : Word
  deriving DecidableEq, Repr

/-- A partition (R342): its registers, keys, plats, mailbox and scheduler state. -/
structure Partition where
  pclu : BitVec 128
  pslice : BitVec 64
  pstage : Nat
  phbm : BitVec 256
  plane : BitVec 64
  mirdelta : Nat
  preqwait : Nat
  pritime : Nat
  rtime : Nat
  dstlim : Nat
  expbase : Nat
  expsize : Nat
  sumbase : Nat
  pstat : BitVec 2
  pkill : Word
  ownKey : Option (BitVec 9)
  accept : List (BitVec 9)
  plats : Vector Plat 32
  mbox : Vector Word 6
  mboxHeld : Option (Vector Word 6)
  overflow : Nat
  slotTable : Nat
  deriving DecidableEq, Repr

/-- An event of the station cores' queue (R344). -/
structure Event where
  kind : Nat
  part : Nat
  key : Nat
  payload : Vector Word 6
  deriving DecidableEq, Repr

/-- A station core (R106, R344, R345), with the release fences and the releases read that its fences order (R253, R259). -/
structure Station where
  hart : Hart
  event : Option Event
  fails : Nat
  fenced : Bool
  waiting : Option WaitFor
  relFences : List FenceMark
  seen : List Release
  deriving DecidableEq, Repr

/-- The agent whose instruction exec runs (DESIGN CHOICE log 1). -/
inductive Agent where
  | stream (core : Nat) (st : StreamId)
  | station (n : Nat)
  deriving DecidableEq, Repr, Inhabited

/-- A request of another package that this one serves (R337). -/
structure Incoming where
  tag : Nat
  part : Nat
  key : BitVec 9
  deriving DecidableEq, Repr

/-- What the unlaid-out bytes of a field book stand for (DESIGN CHOICE log 12): the saved state of one context in one cluster. -/
structure Saved where
  digest : BitVec 256
  cores : List (Nat × Core)
  cluster : Cluster
  blk : BlkCtx
  barriers : List (Nat × List ((Nat × Nat × Nat) × Barrier))
  deriving DecidableEq, Repr, Inhabited

/-- What errors are counted for (R351): a slice, a stack, a cluster, a UALink or die-to-die port. -/
inductive Func where
  | slice (n : Nat) | stack (n : Nat) | cluster (n : Nat) | port (d2d : Bool) (n : Nat)
  deriving DecidableEq, Repr, Inhabited

/-- The error counts of a function: corrected and uncorrectable (R323, R351). -/
structure ErrCount where
  func : Func
  corrected : Nat
  uncorrectable : Nat
  deriving DecidableEq, Repr

/-- An entry of the error log (R106, R295, R318, R337, R345): a trap of a station core's run; an event that failed twice; a completion
word that was not written; a bad table entry; a request of another package that was refused. -/
inductive LogEntry where
  | trap (station : Nat) (t : Trap)
  | event (station kind part key : Nat)
  | done (part queue seq : Nat)
  | table (part addr : Nat)
  | request (key off : Nat)
  deriving DecidableEq, Repr, Inhabited

/-- The machine's state. -/
structure State where
  cores : Vector Core 512
  clusters : Vector Cluster 128
  dies : Vector Die 8
  contexts : Vector Context 1024
  parts : Vector Partition 16
  queues : List SubQueue
  kernels : List Kernel
  hbm : Memory
  host : Memory
  l2 : List (Nat × L2Line)
  recs : List (Nat × LineRec)
  releases : List Release
  past : List PastWrite
  stamp : Nat
  pins : List Pin
  badHbm : List Nat
  slices : Vector Slice 64
  retired : Vector (List Nat) 16
  incoming : List Incoming
  pkgId : BitVec 10
  coreMap : Vector (BitVec 8) 128
  evvec : Vector Word 5
  bootstat : Word
  measurements : List (BitVec 256)
  events : List Event
  heldEvents : List Event
  stations : Vector Station 12
  portUp : BitVec 24
  portFenced : BitVec 24
  hbmUp : BitVec 16
  hbmFenced : BitVec 16
  cluUp : BitVec 128
  cluTest : BitVec 128
  d2dFenced : BitVec 8
  errlog : List LogEntry
  counts : List ErrCount
  throttle : Nat
  powered : Bool
  nextKernel : Nat
  nextTag : Nat
  moves : List Move
  tick : Nat
  cur : Agent
  late : Bool
  vault : List Saved
  deriving DecidableEq, Repr

/-- Why the machine stops with a fault (DESIGN CHOICE log 63). -/
inductive Fault where
  /-- Raised by `step` for a move that names a core or a station core which the part does not have (R10, R344); safe: the run
  stops. -/
  | noAgent
  deriving DecidableEq, Repr

/-- Why the machine gives an instruction no meaning. -/
inductive Refusal where
  /-- Raised by `exec` for an instruction that is not modelled yet; safe. -/
  | notModelled (mnemonic : String)
  deriving DecidableEq, Repr

/-! ## Reset -/

/-- Registers at reset (R81, R106; DESIGN CHOICE log 5). -/
def hartReset : Hart := ⟨Vector.replicate 64 0, 0, 0, 0, 0, [], false⟩
/-- Effect-list state at reset (R81, R238). -/
def listsReset : Lists := ⟨0, [], Vector.replicate 64 ⟨1, .free⟩, 0⟩
/-- A stream at reset (R79, R81; DESIGN CHOICE log 5). -/
def streamReset : Stream :=
  { st := .idle, saved := .idle, hart := hartReset, allot := .a16, fpm := fpmReset, trapvec := 0, tcause := 0, tepc := 0,
    tval := 0, tprc := 0, scopemode := 0, lists := listsReset, held := none, heldArena := false, waiting := none,
    loads := [], remote := [],
    mark := none, journal := [], w := Vector.replicate 16 0, barTok := none, ssynced := false, ssOut := none, relFences := [], seen := [],
    vecPos := 0, vecGot := [], vstPos := 0, lsView := 0, gthView := 0, bqAt := ⟨0, 0, []⟩ }
/-- An empty, open data queue (R81). -/
def dqReset : DataQueue := ⟨[], false, 0, 0, 0, []⟩
/-- An unset product table (R218). -/
def tableReset : ProdTable := ⟨none, none, none, 0, Vector.replicate 6 none⟩
/-- The array with nothing running (R223). -/
def arrayReset : MatArray := ⟨[], 0, false, 0, 0, none⟩
/-- A backsight that holds no mark (R350). -/
def backReset : Backsight := ⟨none, none, [], [], none⟩
/-- A core at reset (R81, R127, R130, R153, R154, R184). -/
def coreReset : Core :=
  { a := streamReset, x := streamReset, m := streamReset, c := streamReset, dq := Vector.replicate 8 dqReset, bq := [],
    flags := Vector.replicate 64 ⟨0, 0, 0, .A⟩, push := 1, copyQ := [], matQ := [], colQ := [], copyStopped := none, collHeld := none,
    v := Vector.replicate 16 vzero, masks := Vector.replicate 8 0,
    z := Vector.replicate 4 (Vector.replicate 4096 0), table := tableReset, array := arrayReset, hdrCorr := 0,
    window := [], winHold := false, replay := [], back := backReset, replays := 0, kernel := none, collPushed := Vector.replicate 8 0,
    collwMarks := Vector.replicate 8 [] }
/-- A cluster at reset: every bank in cache mode (R135), every tile UNDEF, every ACM bank free, no owner (R297). -/
def clusterReset : Cluster :=
  { modes := Vector.replicate 64 .cache, store := [], rings := Vector.replicate 64 ⟨none, []⟩,
    tiles := Vector.replicate 256 none, acm := [], acmAlloc := Vector.replicate 64 none, owners := [], ranges := [],
    tlb := [], lastServed := 3, stopped := [], shifted := [], restored := [], resumed := [], badStore := [], badSegs := [] }
/-- Level tables, LVLBASE and QSEL at reset (R200, R206). -/
def blkReset : BlkCtx := ⟨qselReset, 0, Vector.replicate 6 []⟩
/-- A FREE context (R89, R296, R308). -/
def contextReset : Context :=
  { state := .free, part := 0, root := 0, spillSize := 65536, spillBase := 0, blk := blkReset, jbase := 0, jk := 0,
    status := none, cause := none, drain := false, dismantled := false, policy := none, polState := Vector.replicate 16 0, ats := [], atsStale := [], pri := [],
        hostRefused := [],
    queues := Vector.replicate 16 none }
/-- A partition at reset (R342, R336; DESIGN CHOICE log 5). -/
def partReset : Partition :=
  { pclu := 0, pslice := 0, pstage := 0, phbm := 0, plane := 0, mirdelta := 0, preqwait := 20000, pritime := 10000,
    rtime := 50, dstlim := 64, expbase := 0, expsize := 0, sumbase := 0, pstat := 0, pkill := 0, ownKey := none,
    accept := [], plats := Vector.replicate 32 ⟨0, 0, 0, 0⟩, mbox := Vector.replicate 6 0, mboxHeld := none, overflow := 0,
    slotTable := 0 }
/-- A station core at reset (R106, R344; DESIGN CHOICE log 5). -/
def stationReset : Station := ⟨hartReset, none, 0, false, none, [], []⟩

/-- The machine right after reset. -/
def State.reset : State :=
  { cores := Vector.replicate 512 coreReset, clusters := Vector.replicate 128 clusterReset,
    dies := Vector.replicate 8 ⟨[], [], []⟩, contexts := Vector.replicate 1024 contextReset,
    parts := Vector.replicate 16 partReset, queues := [], kernels := [], hbm := [], host := [], l2 := [], recs := [],
    releases := [], past := [], stamp := 0, pins := [], badHbm := [], slices := Vector.replicate 64 ⟨[], [], [], false⟩, retired := Vector.replicate 16 [],
    incoming := [], pkgId := 0, coreMap := Vector.replicate 128 0, evvec := Vector.replicate 5 0, bootstat := 0, measurements := [],
    events := [], heldEvents := [], stations := Vector.replicate 12 stationReset, portUp := 0, portFenced := 0, hbmUp := 0, hbmFenced := 0, cluUp := 0,
    cluTest := 0,
    d2dFenced := 0, errlog := [], counts := [], throttle := 0, powered := true, nextKernel := 0, nextTag := 0,
    moves := [], tick := 0, cur := .stream 0 .A, late := false, vault := [] }

end Sys2Proof.Machine
end

