-- ==== Sys2Proof/Machine/Parts.lean ====
section
/-! DEFINITION. The parts of the state and their updates, the agents and their registers, memory by bytes, plats and physical bytes (R20,
R203 to R205), context faults (R296) and the event queue (R344). -/

namespace Sys2Proof.Machine

/-! ## Parts of the state -/

/-- A stream of a core. -/
def Core.strm (c : Core) : StreamId → Stream
  | .A => c.a | .X => c.x | .M => c.m | .C => c.c
/-- A core with one stream replaced. -/
def Core.setStrm (c : Core) (k : StreamId) (t : Stream) : Core :=
  match k with
  | .A => { c with a := t } | .X => { c with x := t } | .M => { c with m := t } | .C => { c with c := t }

/-- Core n; a number the part does not have reads as a core at reset. -/
def State.core (s : State) (n : Nat) : Core := s.cores.getD n coreReset
/-- Core n replaced. -/
def State.setCore (s : State) (n : Nat) (c : Core) : State := { s with cores := s.cores.setIfInBounds n c }
/-- A core updated. -/
def State.updCore (s : State) (n : Nat) (f : Core → Core) : State := s.setCore n (f (s.core n))
/-- A stream. -/
def State.strm (s : State) (n : Nat) (k : StreamId) : Stream := (s.core n).strm k
/-- A stream updated. -/
def State.updStrm (s : State) (n : Nat) (k : StreamId) (f : Stream → Stream) : State :=
  s.updCore n fun c => c.setStrm k (f (c.strm k))
/-- Cluster n. -/
def State.cluster (s : State) (n : Nat) : Cluster := s.clusters.getD n clusterReset
/-- A cluster updated. -/
def State.updCluster (s : State) (n : Nat) (f : Cluster → Cluster) : State :=
  { s with clusters := s.clusters.setIfInBounds n (f (s.cluster n)) }
/-- Context n. -/
def State.ctx (s : State) (n : Nat) : Context := s.contexts.getD n contextReset
/-- A context updated. -/
def State.updCtx (s : State) (n : Nat) (f : Context → Context) : State :=
  { s with contexts := s.contexts.setIfInBounds n (f (s.ctx n)) }
/-- Partition n. -/
def State.part (s : State) (n : Nat) : Partition := s.parts.getD n partReset
/-- A partition updated. -/
def State.updPart (s : State) (n : Nat) (f : Partition → Partition) : State :=
  { s with parts := s.parts.setIfInBounds n (f (s.part n)) }
/-- Slice n. -/
def State.slice (s : State) (n : Nat) : Slice := s.slices.getD n ⟨[], [], [], false⟩
/-- A slice updated. -/
def State.updSlice (s : State) (n : Nat) (f : Slice → Slice) : State :=
  { s with slices := s.slices.setIfInBounds n (f (s.slice n)) }
/-- Die n. -/
def State.die (s : State) (n : Nat) : Die := s.dies.getD n ⟨[], [], []⟩
/-- A die updated. -/
def State.updDie (s : State) (n : Nat) (f : Die → Die) : State :=
  { s with dies := s.dies.setIfInBounds n (f (s.die n)) }
/-- Station core n. -/
def State.station (s : State) (n : Nat) : Station := s.stations.getD n stationReset
/-- A station core updated. -/
def State.updStation (s : State) (n : Nat) (f : Station → Station) : State :=
  { s with stations := s.stations.setIfInBounds n (f (s.station n)) }
/-- The kernel with an id. -/
def State.kernel? (s : State) (id : Nat) : Option Kernel := s.kernels.find? (·.id == id)
/-- A kernel updated. -/
def State.updKernel (s : State) (id : Nat) (f : Kernel → Kernel) : State :=
  { s with kernels := s.kernels.map fun k => if k.id == id then f k else k }

/-- The cluster of a core (R10). -/
def clusterOf (core : Nat) : Nat := core / 4
/-- The die of a core (R10). -/
def dieOf (core : Nat) : Nat := core / 64

/-- The kernel that runs on a core. -/
def State.kernelOf (s : State) (core : Nat) : Option Kernel := (s.core core).kernel.bind s.kernel?

/-- The context of a core: its kernel's, else the one that owns it (R297). -/
def State.ctxOf (s : State) (core : Nat) : Nat :=
  match s.kernelOf core with
  | some k => k.ctx
  | none =>
    match (s.cluster (clusterOf core)).owners.find? (fun o => o.2.core.getLsbD (core % 4)) with
    | some o => o.1
    | none => 0

/-- The partition of a core's context. -/
def State.partOf (s : State) (core : Nat) : Nat := (s.ctx (s.ctxOf core)).part

/-- The owner masks of a context in a cluster (R297). -/
def State.owner (s : State) (cl ctx : Nat) : Owner :=
  match (s.cluster cl).owners.find? (·.1 == ctx) with | some o => o.2 | none => ⟨0, 0, 0⟩

/-! ## The current agent -/

/-- The core of the current agent; a station core has none. -/
def State.curCore (s : State) : Nat := match s.cur with | .stream c _ => c | .station _ => 512
/-- The stream of the current agent. -/
def State.curSt (s : State) : StreamId := match s.cur with | .stream _ k => k | .station _ => .A
/-- Whether a station core acts. -/
def State.onStation (s : State) : Bool := match s.cur with | .stream _ _ => false | .station _ => true
/-- The context the current agent decodes in (R57). -/
def State.role (s : State) : Role := match s.cur with | .stream _ k => .stream k | .station _ => .station

/-- The registers of the current agent. -/
def State.hart (s : State) : Hart :=
  match s.cur with | .stream c k => (s.strm c k).hart | .station n => (s.station n).hart
/-- The registers of the current agent replaced. -/
def State.setHart (s : State) (h : Hart) : State :=
  match s.cur with
  | .stream c k => s.updStrm c k fun t => { t with hart := h }
  | .station n => s.updStation n fun t => { t with hart := h }
/-- The current stream. -/
def State.me (s : State) : Stream := s.strm s.curCore s.curSt
/-- The current stream updated. -/
def State.updMe (s : State) (f : Stream → Stream) : State := s.updStrm s.curCore s.curSt f

/-- The scalar registers an allotment gives (R80). -/
def allotCount : Allot → Nat
  | .a16 => 16 | .a32 => 32 | .a64 => 64
/-- The allotment of the current agent: 64 on a station core (R106). -/
def State.allotOf (s : State) : Nat :=
  match s.cur with | .stream c k => allotCount (s.strm c k).allot | .station _ => 64

/-- x-register r: x0 reads zero (R107). -/
def Hart.get (h : Hart) (r : XReg) : Word := if r = 0 then 0 else h.x[r.toFin]
/-- x-register r written: x0 discards (R107). -/
def Hart.put (h : Hart) (r : XReg) (v : Word) : Hart := if r = 0 then h else { h with x := h.x.set r.toFin v }
/-- Predicate n: p0 reads true (R107). -/
def Hart.pred (h : Hart) (n : PReg) : Bool := n == 0 || h.p.getLsbD n.toNat
/-- Predicate n written: p0 discards (R107). -/
def Hart.putPred (h : Hart) (n : PReg) (b : Bool) : Hart := if n = 0 then h else { h with p := setBit h.p n.toNat b }

/-- Whether a guard lets its word execute (R48). -/
def State.guardOn (s : State) (g : Guard) : Bool := s.hart.pred g.p != g.inv

/-- The program counter of the current agent. -/
def State.pc (s : State) : Word := s.hart.pc
/-- The program counter written. -/
def State.setPc (s : State) (pc : Word) : State := s.setHart { s.hart with pc := pc }
/-- The address of the word k words on: a word index on a core, six bytes a word on a station core (R45; DEDUCED log 9). -/
def State.pcAfter (s : State) (k : Nat) : Word :=
  if s.onStation then s.pc + BitVec.ofNat 64 (6 * k) else s.pc + BitVec.ofNat 64 k

/-- STAT with a bit set in the current agent (R97). -/
def State.setStat (s : State) (bit : Nat) : State := s.setHart { s.hart with stat := setBit s.hart.stat bit true }

/-- A free 64-bit value, drawn at the counter (DESIGN CHOICE log 6). -/
def State.free (s : State) : Word × State := (Config.freeWord s.tick, { s with tick := s.tick + 1 })

/-! ## Context faults and events -/

/-- A context fault: the context goes to TERMINATING with status 0x0C and keeps the trap that Ramner reports as its cause, unless
it is FREE (R99, R296, R367). -/
def State.contextFault (s : State) (ctx : Nat) (t : Option Trap := none) : State :=
  s.updCtx ctx fun c =>
    match c.state with
    | .free => c
    | .terminating => c
    | _ => { c with state := .terminating, status := some (c.status.getD 0x0C), cause := t }

/-- An event entered in the queue; when the queue is full an ERROR event is counted instead and any other event is held by
its source (R344, R345). -/
def State.raise (s : State) (e : Event) : State :=
  if s.events.length < 4096 then { s with events := s.events ++ [e] }
  else if e.kind = 2 then s.updPart e.part fun p => { p with overflow := p.overflow + 1 }
  else { s with heldEvents := s.heldEvents ++ [e] }

/-- An entry put into the error log. -/
def State.logErr (s : State) (e : LogEntry) : State := { s with errlog := s.errlog ++ [e] }

/-! ## Memory by bytes -/

/-- The number that k bytes of a memory hold at an address, least significant first (R2). -/
def memByte (m : Memory) (a : Nat) : Byte := match m.find? (·.1 == a) with | some c => c.2 | none => unlisted

/-- A byte written, the canonical form kept: a byte equal to what an unlisted address reads as is not listed. -/
def memPut (m : Memory) (a : Nat) (b : Byte) : Memory :=
  match m with
  | [] => if b = unlisted then [] else [(a, b)]
  | (c, d) :: rest =>
    if c < a then (c, d) :: memPut rest a b
    else if c = a then (if b = unlisted then rest else (a, b) :: rest)
    else (if b = unlisted then (c, d) :: rest else (a, b) :: (c, d) :: rest)

/-- Bytes of a memory from an address up. -/
def memBytes (m : Memory) (a : Nat) : Nat → List Byte
  | 0 => []
  | k + 1 => memByte m a :: memBytes m (a + 1) k

/-- Bytes stored from an address up. -/
def memPuts (m : Memory) (a : Nat) : List Byte → Memory
  | [] => m
  | b :: bs => memPuts (memPut m a b) (a + 1) bs

/-- Whether a plat is enabled (R203). -/
def Plat.en (p : Plat) : Bool := p.win.getLsbD 63
/-- A plat's window base. -/
def Plat.base (p : Plat) : Nat := field p.win 51 0
/-- Whether a plat has a separate header plane. -/
def Plat.hp (p : Plat) : Bool := p.ctl.getLsbD 2
/-- A plat's width class; code 3 is reserved. -/
def Plat.cls? (p : Plat) : Option BlkClass := BlkClass.ofCode? (p.ctl.setWidth 2)
/-- A plat's block bytes C. -/
def Plat.blk (p : Plat) : Nat := match p.cls? with | some k => blkBytes k | none => 34
/-- A plat's blocks. -/
def Plat.blocks (p : Plat) : Nat := field p.ctl 31 6 + 1
/-- A plat's payload plane base. -/
def Plat.payBase (p : Plat) : Nat := field p.pay 51 0
/-- A plat's header plane base. -/
def Plat.hdrBase (p : Plat) : Nat := field p.hdr 51 0
/-- The stored byte of an offset of a header-plane window (R205). -/
def Plat.stored (p : Plat) (o : Nat) : Nat :=
  let j := o / p.blk
  let q := o % p.blk
  if q < 2 then p.hdrBase + 2 * j + q else p.payBase + j * (p.blk - 2) + (q - 2)

/-- The enabled plats of the package. -/
def State.plats (s : State) : List Plat := (s.parts.toList.flatMap fun p => p.plats.toList).filter Plat.en
/-- The enabled header-plane plat whose window holds an address. -/
def State.platAt (s : State) (pa : Nat) : Option Plat :=
  s.plats.find? fun p => p.hp && decide (p.base ≤ pa) && decide (pa < p.base + p.blocks * p.blk)

/-- The HBM byte that stands for a byte of a home line: itself, or, in the plat aperture, the plat's stored byte (R205). -/
def State.hbmAddr (s : State) (pa : Nat) : Nat :=
  if pa < 2 ^ 51 then pa
  else match s.platAt pa with | some p => p.stored (pa - p.base) | none => pa

/-- One byte of physical memory: the resident L2 line's, else the one that HBM stores for it (R20, R205, R322). -/
def State.physByte (s : State) (pa : Nat) : Byte :=
  match s.l2.find? (·.1 == pa / 64) with
  | some l => l.2.data.extractLsb' (8 * (pa % 64)) 8
  | none => memByte s.hbm (s.hbmAddr pa)

/-- The k bytes of physical memory from an address up. -/
def State.physBytes (s : State) (pa : Nat) : Nat → List Byte
  | 0 => []
  | k + 1 => s.physByte pa :: s.physBytes (pa + 1) k

/-- The number that k physical bytes hold. -/
def State.physNat (s : State) (pa k : Nat) : Nat := leNat (s.physBytes pa k)

end Sys2Proof.Machine
end

