-- ==== Sys2Proof/Machine/Home.lean ====
section
/-! DEFINITION. Physical memory: the physical map (R377), plats (R203 to R205), home L2 lines with their owner tags and errors
(R322, R323, R328, R365), the events that report errors (R366), and write-back, fencing and eviction of lines. -/

namespace Sys2Proof.Machine

/-! ## The physical map -/

/-- The bytes of one channel pair's window (R377). -/
def pairBytes : Nat := 0x140000000
/-- The end of local HBM (R377). -/
def hbmEnd : Nat := 0x14000000000
/-- The base of the station cores' register window (R362, R377). -/
def regBase : Nat := 0x3F00000000000
/-- The size of the register window (R362). -/
def regSize : Nat := 0x800000

/-- What a physical address names (R377). -/
inductive Place where
  | hbm | regs | remote | aperture | none
  deriving DecidableEq, Repr

/-- The place of a physical address (R377). -/
def placeOf (pa : Nat) : Place :=
  if pa < hbmEnd then .hbm
  else if regBase ≤ pa ∧ pa < regBase + regSize then .regs
  else if 2 ^ 51 ≤ pa ∧ pa < 2 ^ 52 then .aperture
  else if 2 ^ 50 ≤ pa ∧ pa < 2 ^ 51 then .remote else .none

/-- Whether a partition owns a byte of local HBM (R377). -/
def State.ownsByte (s : State) (p pa : Nat) : Bool := decide (pa < hbmEnd) && (s.part p).phbm.getLsbD (pa / pairBytes)
/-- Whether a partition owns every byte of a range; a range of whole pages or less lies in at most two windows. -/
def State.ownsRange (s : State) (p lo n : Nat) : Bool :=
  n == 0 || (upto ((lo + n - 1) / pairBytes - lo / pairBytes + 1)).all fun i =>
    s.ownsByte p (if i = 0 then lo else min (lo + n - 1) ((lo / pairBytes + i) * pairBytes))
/-- The partition that owns a byte of local HBM. -/
def State.ownerOfByte (s : State) (pa : Nat) : Option Nat := (upto 16).find? fun p => s.ownsByte p pa
/-- The partition that owns a slice. -/
def State.ownerOfSlice (s : State) (sl : Nat) : Option Nat := (upto 16).find? fun p => (s.part p).pslice.getLsbD sl

/-! ## Plats -/

/-- Whether an address lies in a plane of an enabled header-plane plat (R205). -/
def State.inPlane (s : State) (pa : Nat) : Bool :=
  s.plats.any fun p => p.hp && ((decide (p.payBase ≤ pa) && decide (pa < p.payBase + p.blocks * (p.blk - 2))) ||
    (decide (p.hdrBase ≤ pa) && decide (pa < p.hdrBase + 2 * p.blocks)))

/-! ## Lines -/

/-- A byte of a line. -/
def lineByte (d : BitVec 512) (j : Nat) : Byte := d.extractLsb' (8 * j) 8
/-- A line with byte j replaced. -/
def lineSet (d : BitVec 512) (j : Nat) (b : Byte) : BitVec 512 :=
  (d &&& ~~~((0xFF : BitVec 512) <<< (8 * j))) ||| ((b.setWidth 512) <<< (8 * j))
/-- A line with some bytes replaced. -/
def lineSets (d : BitVec 512) (bs : List (Nat × Byte)) : BitVec 512 := bs.foldl (fun d x => lineSet d x.1 x.2) d

/-- The line as HBM holds it, stitched by a plat (R205). -/
def State.hbmLine (s : State) (line : Nat) : BitVec 512 :=
  BitVec.ofNat 512 (leNat ((upto 64).map fun j => memByte s.hbm (s.hbmAddr (64 * line + j))))
/-- Whether HBM holds an uncorrectable error in a line's bytes (R323, R328). -/
def State.hbmBad (s : State) (line : Nat) : Bool :=
  (upto 64).any fun j => s.badHbm.contains (s.hbmAddr (64 * line + j) / 64)

/-- A resident line. -/
def State.l2At (s : State) (line : Nat) : Option L2Line := (s.l2.find? (·.1 == line)).map (·.2)
/-- A line made resident or replaced. -/
def State.setL2 (s : State) (line : Nat) (l : L2Line) : State := { s with l2 := (line, l) :: s.l2.filter (·.1 != line) }
/-- A line dropped without write-back. -/
def State.dropL2 (s : State) (line : Nat) : State := { s with l2 := s.l2.filter (·.1 != line) }

/-- The slices whose home part a partition may use (R327, R377). -/
def State.homeSlices (s : State) (p : Nat) : List Nat :=
  (upto 64).filter fun sl => (s.part p).pslice.getLsbD sl && !(s.slice sl).homeFenced
/-- The home ways of a slice (R368): those past the staging part that are not quarantined. -/
def State.homeWays (s : State) (sl : Nat) : List Nat :=
  let st := match s.ownerOfSlice sl with | some p => (s.part p).pstage | none => 0
  (upto 16).filter fun w => decide (st ≤ w) && !(s.slice sl).quarantined.contains w
/-- The slice that holds a line: one of the owner's, by the part's choice (R377; DESIGN CHOICE log 7). -/
def State.sliceFor (s : State) (line : Nat) : Nat :=
  let l := match s.ownerOfByte (s.hbmAddr (64 * line)) with | some p => s.homeSlices p | none => []
  if l.isEmpty then Config.sliceChoice line % 64 else l.getD (Config.sliceChoice line % l.length) 0
/-- The way that holds a line (R377; DESIGN CHOICE log 7); with no home way left, a case that the spec does not place, way 15
(DESIGN CHOICE log 7). -/
def State.wayFor (s : State) (sl line : Nat) : Nat :=
  let l := s.homeWays sl
  if l.isEmpty then 15 else l.getD (Config.wayChoice line s.tick % l.length) 0

/-! ## Reporting errors -/

/-- An error counted for a function (R323, R351). -/
def State.countErr (s : State) (f : Func) (unc : Bool) : State :=
  let c := (s.counts.find? (·.func == f)).getD ⟨f, 0, 0⟩
  let d := if unc then { c with uncorrectable := c.uncorrectable + 1 } else { c with corrected := c.corrected + 1 }
  { s with counts := d :: s.counts.filter (·.func != f) }

/-- Six payload doublewords that the spec leaves open (DESIGN CHOICE log 6). -/
def State.freePayload (s : State) : Vector Word 6 × State :=
  (Vector.ofFn fun i => Config.freeWord (s.tick + i.val), { s with tick := s.tick + 6 })

/-- An ERROR event for a partition whose payload the spec does not lay out (R318, R344, R346; DESIGN CHOICE log 6). -/
def State.reportFault (s : State) (p : Nat) : State :=
  let (v, s1) := s.freePayload
  s1.raise ⟨2, p, p, v⟩

/-- The ERROR event of R366, raised for a partition. -/
def State.reportError (s : State) (p : Nat) (src : Nat) (nc : Bool) (owner : Nat) (dirty : Bool) (sl way line : Nat) : State :=
  let d0 := src * 2 ^ 56 + (if nc then 2 ^ 42 else 0) + (if nc then 0 else owner % 1024) * 2 ^ 32 +
    (if dirty then 2 ^ 31 else 0) + sl * 16 + way
  s.raise ⟨2, p, p, #v[BitVec.ofNat 64 d0, BitVec.ofNat 64 (64 * line), 0, 0, 0, 0]⟩

/-- The ERROR event of a line for the partition that owns its slice (R365). -/
def State.reportLine (s : State) (src line : Nat) (l : L2Line) : State :=
  match s.ownerOfSlice l.slice with
  | some p => s.reportError p src l.nc l.owner l.dirty l.slice l.way line
  | none => s

/-- A partition is fenced: its contexts are terminated (R346). -/
def State.fencePart (s : State) (p : Nat) : State :=
  let s := s.updPart p fun x => { x with pstat := 3 }
  (upto 1024).foldl (fun s c => if (s.ctx c).part = p && (s.ctx c).state != .free then s.contextFault c else s) s

/-- A dirty line's bytes written to HBM (R205, R322); the copy in HBM is whole again unless the line is poisoned. -/
def State.putLine (s : State) (line : Nat) (l : L2Line) : State :=
  let s1 := { s with hbm := (upto 64).foldl (fun m j => memPut m (s.hbmAddr (64 * line + j)) (lineByte l.data j)) s.hbm }
  if l.poisoned then s1
  else { s1 with badHbm := s1.badHbm.filter fun b => !(upto 64).any fun j => s.hbmAddr (64 * line + j) / 64 == b }

/-- The event of an uncorrectable error in the tag array: no owner can be named (R366). -/
def State.reportTag (s : State) (line : Nat) (l : L2Line) : State :=
  match s.ownerOfSlice l.slice with
  | some p => s.reportError p 3 true 0 false l.slice l.way line
  | none => s

/-- A line whose data are lost: it is invalid, its address is in the slice's lost-line list, and the event is raised (R323, R365).
An uncorrectable error of its tag hides whether it was dirty, and loses it so too (R366; DESIGN CHOICE log 75). -/
def State.loseLine (s : State) (line : Nat) (l : L2Line) : State :=
  let s1 := if l.inj == .tague then (s.dropL2 line).reportTag line l else (s.dropL2 line).reportLine 2 line l
  (s1.updSlice l.slice fun x => { x with lost := x.lost ++ [line] }).countErr (.slice l.slice) true

/-- A resident line written back when dirty; an injected error is found as the data are read (R322, R328, R365). The answer
says whether its data were lost. -/
def State.cleanOne (s : State) (line : Nat) : Bool × State :=
  match s.l2At line with
  | none => (false, s)
  | some l =>
    if l.inj == .tague then (true, s.loseLine line l)
    else if !l.dirty then (false, s)
    else
      match l.inj with
      | .l2ue => (true, s.loseLine line l)
      | .none => (false, (s.putLine line l).setL2 line { l with dirty := false })
      | _ => (false, ((s.putLine line l).setL2 line { l with dirty := false, inj := .none }).countErr (.slice l.slice) false)

/-- A slice's home part fenced: dirty lines written back, the lines invalidated, its share moved to the partition's other
slices; with none left the partition is fenced (R327, R346, R365). -/
def State.fenceHome (s : State) (sl : Nat) : State :=
  let lines := (s.l2.filter fun x => x.2.slice == sl).map (·.1)
  let s1 := s.updSlice sl fun x => { x with homeFenced := true }
  let s2 := lines.foldl (fun s ln => ((s.cleanOne ln).2).dropL2 ln) s1
  match s2.ownerOfSlice sl with
  | none => s2
  | some p => if (s2.homeSlices p).isEmpty then s2.fencePart p else s2

/-- A line lost, and the home part of its slice fenced at the ninth (R365). -/
def State.lose (s : State) (line : Nat) (l : L2Line) : State :=
  let s1 := s.loseLine line l
  if 9 ≤ (s1.slice l.slice).lost.length && !(s1.slice l.slice).homeFenced then s1.fenceHome l.slice else s1

/-- A resident line written back when dirty, the ninth loss of its slice fencing the home part. -/
def State.clean (s : State) (line : Nat) : Bool × State :=
  match s.l2At line with
  | some l => if l.inj == .tague || (l.dirty && l.inj == .l2ue) then (true, s.lose line l) else s.cleanOne line
  | none => (false, s)

/-- A resident line written back and dropped (DESIGN CHOICE log 16). -/
def State.evict (s : State) (line : Nat) : State := ((s.clean line).2).dropL2 line

/-- Whether a line is held as lost by some slice (R365). -/
def State.isLost (s : State) (line : Nat) : Bool := s.slices.any fun x => x.lost.contains line

/-- Room made in a way of a slice, which holds 1 MiB: with 16 384 lines there, one that replacement chooses leaves (R21, R368;
DESIGN CHOICE log 16). -/
def State.makeRoom (s : State) (sl way : Nat) : State :=
  let here := s.l2.filter fun x => x.2.slice == sl && x.2.way == way
  if s.l2.length < 16384 then s
  else if here.length < 16384 then s
  else match here[Config.wayChoice (2 ^ 53 + way) s.tick % here.length]? with | some v => s.evict v.1 | none => s

/-- A line filled from HBM for an owner (none: no context), poisoned, and counted, when HBM's copy is bad (R322, R323, R351). -/
def State.fill (s : State) (line : Nat) (own : Option Nat) : State :=
  let sl := s.sliceFor line
  let way := s.wayFor sl line
  let s1 := s.makeRoom sl way
  let bad := s1.hbmBad line
  let s2 := if bad then s1.countErr (.stack (s1.hbmAddr (64 * line) / (16 * pairBytes))) true else s1
  s2.setL2 line
    { data := s2.hbmLine line, dirty := false, owner := own.getD 0, nc := own.isNone, slice := sl, way := way,
      inj := .none, poisoned := bad }

/-- Why a home access does not go through: the line is lost, or it is poisoned. -/
inductive HomeFail where
  | lost | poison
  deriving DecidableEq, Repr

/-- A home read of a line: it becomes resident, and an injected error is found (R322, R323, R328, R365). -/
def State.homeRead (s : State) (line : Nat) (own : Option Nat) : Except (HomeFail × State) State :=
  if s.isLost line then .error (.lost, s)
  else
    match s.l2At line with
    | none =>
      let s1 := s.fill line own
      if s.hbmBad line then .error (.poison, s1) else .ok s1
    | some l =>
      match l.inj with
      | .none => if l.poisoned then .error (.poison, s) else .ok s
      | .tague => .error (.lost, s.lose line l)
      | .l2ue =>
        if l.dirty then .error (.lost, s.lose line l)
        else
          let s1 := (((s.dropL2 line).reportLine 1 line l).countErr (.slice l.slice) true).fill line own
          if s.hbmBad line then .error (.poison, s1) else .ok s1
      | _ =>
        let s1 := (s.setL2 line { l with inj := .none }).countErr (.slice l.slice) false
        if l.poisoned then .error (.poison, s1) else .ok s1

/-- Whether a read of a line would find it lost, in error or poisoned (R323, R328, R365). -/
def State.lineTrouble (s : State) (line : Nat) : Bool :=
  s.isLost line ||
    match s.l2At line with
    | some l => l.inj != .none || l.poisoned
    | none => !s.badHbm.isEmpty && s.hbmBad line

/-- A line read by the hardware on the way to something else: it is looked at when a read would find something, and else read without any
effect that a program can see (DEDUCED log 90). -/
def State.lookLine (s : State) (line : Nat) (own : Option Nat) : Except (HomeFail × State) State :=
  if s.lineTrouble line then s.homeRead line own else .ok s

/-- A store of some bytes of a home line by an owner: a line that is dirty with another owner is written back first (R322). -/
def State.homeWrite (s : State) (line : Nat) (own : Option Nat) (bs : List (Nat × Byte)) : Except (HomeFail × State) State :=
  if s.isLost line then .error (.lost, s)
  else
    let s0 := match s.l2At line with | some _ => s | none => s.fill line own
    match s0.l2At line with
    | none => .ok s0
    | some l =>
      let same := l.nc == own.isNone && l.owner == own.getD 0
      let r := if l.inj == .tague || (l.dirty && !same) then s0.clean line else (false, s0)
      if r.1 then .error (.lost, r.2)
      else
        match r.2.l2At line with
        | none => .ok r.2
        | some l1 =>
          .ok (r.2.setL2 line { l1 with data := lineSets l1.data bs, dirty := true, owner := own.getD 0, nc := own.isNone })

/-- The bytes of a resident line. -/
def State.lineData (s : State) (line : Nat) : BitVec 512 :=
  match s.l2At line with | some l => l.data | none => s.hbmLine line

/-- A poisoned line consumed by a context: the event of R323, SRC 4. -/
def State.reportPoison (s : State) (line ctx : Nat) : State :=
  match s.l2At line with
  | none => s
  | some l =>
    match s.ownerOfSlice l.slice with
    | some p => s.reportError p 4 false ctx l.dirty l.slice l.way line
    | none => s

/-- An error of the hardware in a line, a tag or a stored segment, which stands until it is read or written over (R310, R314, R323, R366). -/
def State.upset (s : State) (u : Upset) : State :=
  let mark (line : Nat) (e : Injected) : State :=
    match s.l2At line with | some l => s.setL2 line { l with inj := e } | none => s
  match u with
  | .data line fatal => mark line (if fatal then .l2ue else .l2ce)
  | .tag line fatal => mark line (if fatal then .tague else .tagce)
  | .hbm line => if s.badHbm.contains line then s else { s with badHbm := s.badHbm ++ [line] }
  | .store cl line => s.updCluster cl fun c => { c with badStore := if c.badStore.contains line then c.badStore else c.badStore ++ [line] }
  | .segment cl kind i =>
    s.updCluster cl fun c => { c with badSegs := if c.badSegs.contains (kind, i) then c.badSegs else c.badSegs ++ [(kind, i)] }

end Sys2Proof.Machine
end

