-- ==== Sys2Proof/Machine/Ops.lean ====
section
/-! DEFINITION. Shared operations: how an instruction ends, taking a trap and returning from one (R99 to R104), code addresses (R85), and
the shadow stack (R89). -/

namespace Sys2Proof.Machine

open Host (Outcome)

/-! ## How an instruction ends -/

/-- What executing a word comes to. -/
inductive Act where
  | done (s : State)
  | jump (s : State)
  | trap (t : Trap) (s : State)
  | wait (w : WaitFor) (s : State)

/-- Cause codes (R100). -/
def cALLOT : BitVec 8 := 0x08
/-- CINT. -/
def cCINT : BitVec 8 := 0x09
/-- ALIGN. -/
def cALIGN : BitVec 8 := 0x0A
/-- PAGE. -/
def cPAGE : BitVec 8 := 0x10
/-- ACCESS. -/
def cACCESS : BitVec 8 := 0x11
/-- REMOTE. -/
def cREMOTE : BitVec 8 := 0x12
/-- KEY. -/
def cKEY : BitVec 8 := 0x13
/-- UE. -/
def cUE : BitVec 8 := 0x18
/-- SELF. -/
def cSELF : BitVec 8 := 0x19
/-- POISON. -/
def cPOISON : BitVec 8 := 0x1A
/-- RACE. -/
def cRACE : BitVec 8 := 0x20
/-- RACEU. -/
def cRACEU : BitVec 8 := 0x21
/-- FWDW. -/
def cFWDW : BitVec 8 := 0x24
/-- EFCAP. -/
def cEFCAP : BitVec 8 := 0x25
/-- EFSYNC. -/
def cEFSYNC : BitVec 8 := 0x26
/-- ACMB. -/
def cACMB : BitVec 8 := 0x28
/-- TILE. -/
def cTILE : BitVec 8 := 0x29
/-- LNT. -/
def cLNT : BitVec 8 := 0x2A
/-- USER. -/
def cUSER : BitVec 8 := 0x30
/-- SYSC. -/
def cSYSC : BitVec 8 := 0x31

/-- A trap with a subcause and a value, the state kept. -/
def trapOf (cause : BitVec 8) (sub : Nat) (tval : Word) (s : State) : Act := .trap ⟨cause, BitVec.ofNat 8 sub, tval⟩ s
/-- ILLOP with a decode cause (R58). -/
def illop (d : DecodeTrap) (s : State) : Act := .trap ⟨d.cause, 0, 0⟩ s

/-- Whether the shadow handler takes a cause first (R99): PAGE, SYSC and UE. -/
def shadowClass (cause : BitVec 8) : Bool := cause == cPAGE || cause == cSYSC || cause == cUE

/-! ## Code addresses -/

/-- SLOT of a code address (R85). -/
def codeSlot (a : Word) : Nat := field a 59 48
/-- WORD of a code address (R85). -/
def codeWord (a : Word) : Nat := field a 47 0
/-- A code address. -/
def codeAddr (slot word : Nat) : Word := BitVec.ofNat 64 (slot * 2 ^ 48 + word)

/-- A slot entry, read from the table of the partition's memory (R284). -/
structure SlotEntry where
  code : Word
  words : Nat
  ctx : Nat
  res : Bool
  ctlZero : Bool
  streams : List (BitVec 32)
  data : Word
  dbytes : Nat
  ncfg : Nat
  cfg : Word
  deriving DecidableEq, Repr

/-- Slot entry n of a partition (R284). -/
def State.slotEntry (s : State) (part n : Nat) : SlotEntry :=
  let b := (s.part part).slotTable + 64 * n
  let cr := BitVec.ofNat 16 (s.physNat (b + 12) 2)
  { code := BitVec.ofNat 64 (s.physNat b 8), words := s.physNat (b + 8) 4, ctx := field cr 9 0, res := cr.getLsbD 15,
    ctlZero := field cr 14 10 == 0,
    streams := [16, 20, 24, 28].map fun o => BitVec.ofNat 32 (s.physNat (b + o) 4),
    data := BitVec.ofNat 64 (s.physNat (b + 32) 8), dbytes := s.physNat (b + 40) 4,
    ncfg := s.physNat (b + 44) 2, cfg := BitVec.ofNat 64 (s.physNat (b + 48) 8) }

/-- Whether a transfer to a code address is accepted (R85); a station core's code is memory it names physically (DEDUCED log 9). -/
def State.codeOk (s : State) (a : Word) : Bool :=
  match s.cur with
  | .station _ => true
  | .stream c _ =>
    let e := s.slotEntry (s.partOf c) (codeSlot a)
    field a 63 60 == 0 && e.res && e.ctx == s.ctxOf c && decide (codeWord a < e.words)

/-- The line that holds the slot entry which a code address of a core's stream names (R284). -/
def State.slotLine (s : State) (core : Nat) (a : Word) : Nat := ((s.part (s.partOf core)).slotTable + 64 * codeSlot a) / 64

/-- A transfer's target checked, its slot entry read for no context: a lost line waits, a bad one is UE (R85, R323, R365; DEDUCED log 90). -/
def State.targetOk (s : State) (t : Word) : Except Act State :=
  match s.cur with
  | .station _ => .ok s
  | .stream c _ =>
    match s.lookLine (s.slotLine c t) none with
    | .error (.lost, s1) => .error (.wait (.memory (s.slotLine c t)) s1)
    | .error (.poison, s1) => .error (trapOf cUE 0 t s1)
    | .ok s1 => if s1.codeOk t then .ok s1 else .error (trapOf cACCESS 0 t s1)

/-! ## Taking a trap and returning from one -/

/-- A fault of the array that M's handler has been given is M's no longer (R237). -/
def Core.faultGiven (c : Core) (k : StreamId) (t : Trap) : Core :=
  if k = .M ∧ c.array.pendFault = some t then { c with array := { c.array with pendFault := none } } else c

/-- The stream's handler takes a trap: the saved words, TCAUSE.IN, PRC moved to TPRC, the pc at TRAPVEC (R103). With TRAPVEC
zero, with a handler already running, or with a TRAPVEC that R85 refuses, it is a context fault (R99; DEDUCED log 20). -/
def State.enterHandler (s : State) (core : Nat) (k : StreamId) (t : Trap) (addr : Word) : State :=
  let me := s.strm core k
  if me.trapvec = 0 || tcauseIn me.tcause || !({ s with cur := .stream core k }).codeOk me.trapvec then
    s.contextFault (s.ctxOf core) (some t)
  else
    (s.updCore core fun c => c.faultGiven k t).updStrm core k fun st =>
      { st with
        st := .run, waiting := none, held := none, vecPos := 0, vecGot := [], vstPos := 0
        tepc := if t.cause = cUSER ∨ t.cause = cSYSC then addr + 1 else addr
        tcause := tcauseOf true t.sub t.cause
        tval := t.tval
        tprc := st.hart.prc
        hart := { st.hart with prc := 0, pc := me.trapvec, rptOn := false } }

/-- The shadow handler takes a trap: the stream is HELD (R79, R99). -/
def State.hold (s : State) (core : Nat) (k : StreamId) (t : Trap) : State :=
  s.updStrm core k fun st => { st with st := .held, waiting := none, held := some t }

/-- A trap delivered to TRAPVEC, whose slot entry is read for it: while that line is lost the stream is held with the trap, and one that
cannot be read is as a TRAPVEC that R85 refuses (R99, R365; DEDUCED log 90). -/
def State.deliver (s : State) (core : Nat) (k : StreamId) (t : Trap) (addr : Word) : State :=
  let me := s.strm core k
  if me.trapvec = 0 || tcauseIn me.tcause then s.enterHandler core k t addr
  else
    match s.lookLine (s.slotLine core me.trapvec) none with
    | .ok s1 => s1.enterHandler core k t addr
    | .error (.lost, s1) => s1.hold core k t
    | .error (.poison, s1) => s1.contextFault (s.ctxOf core) (some t)

/-- A run of a station core ends: its key is free, the core is idle (R106, R344). -/
def State.endRun (s : State) (n : Nat) : State :=
  s.updStation n fun t => { t with event := none, waiting := none }

/-- The event word that a station core finds in x3 (R362). -/
def Event.word (e : Event) : Word := BitVec.ofNat 64 (e.kind * 2 ^ 56 + e.part * 2 ^ 52 + e.key)

/-- The registers at the start of an event's run (R106, R362). -/
def eventHart (evvec : Vector Word 5) (e : Event) : Hart :=
  { hartReset with
    x := (upto 6).foldl (fun x i => x.setIfInBounds (4 + i) (e.payload.getD i 0)) (hartReset.x.setIfInBounds 3 e.word)
    pc := evvec.getD e.kind 0 }

/-- A run of a station core ends in a failure: a trap, which is logged (R106), or none, a reset. The event goes back to the head of
its key and keeps the key once; the second failure discards it, reports it, and fences the core when it trapped both times (R345;
DEDUCED log 35). -/
def State.failRun (s : State) (n : Nat) (trap : Option Trap) : State :=
  let t := s.station n
  match t.event with
  | none => s
  | some e =>
    let s0 := match trap with | some u => s.logErr (.trap n u) | none => s
    if t.fails = 0 then
      s0.updStation n fun t => { t with fails := if trap.isSome then 1 else 2, hart := eventHart s.evvec e, waiting := none }
    else
      (s0.logErr (.event n e.kind e.part e.key)).updStation n fun u =>
        { u with event := none, fails := 0, waiting := none, fenced := u.fenced || (trap.isSome && t.fails == 1) }

/-- A trap of the current agent's word at its pc: the shadow handler's class holds the stream, every other class goes to the
stream handler; on a station core the run ends (R99, R102, R106). -/
def State.take (s : State) (t : Trap) : State :=
  match s.cur with
  | .stream c k => if shadowClass t.cause then s.hold c k t else s.deliver c k t s.pc
  | .station n => s.failRun n (some t)

/-- The current agent goes to WAIT. -/
def State.toWait (s : State) (w : WaitFor) : State :=
  match s.cur with
  | .stream c k => s.updStrm c k fun t => { t with st := .wait, waiting := some w }
  | .station n => s.updStation n fun t => { t with waiting := some w }

/-- The current agent no longer waits: a stream in WAIT is in RUN (R79). -/
def State.wake (s : State) : State :=
  match s.cur with
  | .stream c k => s.updStrm c k fun t => { t with st := if t.st = .wait then .run else t.st, waiting := none }
  | .station n => s.updStation n fun t => { t with waiting := none }

/-- The outcome of a word of a number of words: the pc advances past it, or was written; a trap is taken; a wait is recorded (DEDUCED log 48). -/
def finish (words : Nat) (a : Act) : Outcome State Fault Refusal :=
  match a with
  | .done s => .next (s.wake.setPc (s.pcAfter words))
  | .jump s => .next s.wake
  | .trap t s => .next (s.take t)
  | .wait w s => .next (s.toWait w)

/-! ## The shadow stack -/

/-- The entries a stream's shadow stack may hold: 256 in the core and S/8 spilled (R89). -/
def State.shadowRoom (s : State) : Nat :=
  match s.cur with | .stream c _ => 256 + (s.ctx (s.ctxOf c)).spillSize / 8 | .station _ => 256

/-- A link pushed with its collecting mark (R89, R240). -/
def State.shadowPush (s : State) (link : Word) (mark : Bool) : State :=
  s.setHart { s.hart with shadow := setBit link 63 mark :: s.hart.shadow }

/-- The CINT case of a return to e by RET or RETC, if any: empty, a mark that does not fit, another address (R89, R240). -/
def State.returnCase (s : State) (e : Word) (collecting : Bool) : Option Nat :=
  match s.hart.shadow with
  | [] => some 2
  | t :: _ =>
    if t.getLsbD 63 && !collecting then some 4
    else if !t.getLsbD 63 && collecting then some 5
    else if setBit t 63 false != e then some 3 else none

/-- The top entry popped. -/
def State.shadowPop (s : State) : State := s.setHart { s.hart with shadow := s.hart.shadow.drop 1 }

end Sys2Proof.Machine
end

