-- ==== Sys2Proof/Machine/Clock.lean ====
section
/-! DEFINITION. When a core's clocks run (R296, R303) and when a stream of it may act (R78): what a step asks before an agent acts,
and what an engine's event asks before it happens. -/

namespace Sys2Proof.Machine

/-- Whether a core's clocks run: its context is placed, and not stopped in its cluster (R296, R303; DEDUCED log 64). -/
def State.clocked (s : State) (core : Nat) : Bool :=
  s.powered && !(s.cluster (clusterOf core)).stopped.contains (s.ctxOf core) &&
    match (s.ctx (s.ctxOf core)).state with
    | .running => true | .yielding => true | .saving => true
    | .free => false | .idle => false | .saved => false | .restoring => false | .terminating => false

/-- Whether a stream may act: it is in RUN, or in WAIT and tries again (R78). -/
def Stream.active (t : Stream) : Bool :=
  match t.st with
  | .run => true | .wait => true
  | .idle => false | .held => false | .yielded => false | .halted => false | .arrived => false | .out => false

end Sys2Proof.Machine
end

