-- ==== Sys2Proof/Machine/Operands.lean ====
section
/-! DEFINITION. Operand forms: a register field is a register or a data-queue port (R91 to R94, R107); how a word with register
fields begins and ends. -/

namespace Sys2Proof.Machine

/-! ## Data queues and bq -/

/-- The head of a queue popped: the value and the queue, or none while the head is absent or not filled. A closed empty queue
gives 0 and reports it (R92, R93). -/
def DataQueue.pop (q : DataQueue) : Option (Word × DataQueue × Bool) :=
  match q.entries with
  | .filled v :: rest =>
    some (v, { q with entries := rest, pops := q.pops + 1, popped := (v :: q.popped).take 64 }, false)
  | [] => if q.closed then some (0, q, true) else none
  | .reserved _ :: _ => none
  | .heldSlot _ :: _ => none

/-- Whether the next push repeats one that was popped before its stream was cut back (R306; DEDUCED log 42). -/
def DataQueue.again (q : DataQueue) : Bool := decide (q.pushes < q.pops)

/-- A value pushed at the tail: none while 64 entries are occupied; discarded and reported on a closed queue (R92, R93). -/
def DataQueue.push (q : DataQueue) (v : Word) : Option (DataQueue × Bool) :=
  if q.closed then some (q, true)
  else if q.again then some ({ q with pushes := q.pushes + 1 }, false)
  else if q.entries.length < 64 then some ({ q with entries := q.entries ++ [.filled v], pushes := q.pushes + 1 }, false)
  else none

/-- A queue emptied and reopened; the numbers of its reserved slots go on, so that no load of before fills a slot of after
(R81, R94). -/
def DataQueue.cleared (q : DataQueue) : DataQueue := { q with entries := [], closed := false, pops := q.pushes, popped := [] }

/-- Data queue q of the current core. -/
def State.dqOf (s : State) (q : Nat) : DataQueue := (s.core s.curCore).dq.getD q dqReset
/-- Data queue q of the current core replaced. -/
def State.setDq (s : State) (q : Nat) (d : DataQueue) : State :=
  s.updCore s.curCore fun c => { c with dq := c.dq.setIfInBounds q d }

/-- Whether register r of the current agent is a data-queue port (R92). -/
def State.port? (s : State) (r : XReg) : Option Nat :=
  match s.cur with | .stream _ k => if k.hasPorts then dqOf? r else none | .station _ => none

/-- A queue popped by the current stream; an empty closed queue sets STAT.DQE (R93). -/
def State.popDq (s : State) (q : Nat) : Except WaitFor (Word × State) :=
  match (s.dqOf q).pop with
  | none => .error (.dqEntry q)
  | some (v, d, e) => .ok (v, if e then (s.setDq q d).setStat statDQE else s.setDq q d)

/-- A value pushed by the current stream; a closed queue discards it and sets STAT.DQE (R93). -/
def State.pushDq (s : State) (q : Nat) (v : Word) : Except WaitFor State :=
  match (s.dqOf q).push v with
  | none => .error (.dqSlot q)
  | some (d, e) => .ok (if e then (s.setDq q d).setStat statDQE else s.setDq q d)

/-- The values of source registers, read in order, each port popped (R92). -/
def State.readAll (s : State) : List XReg → Except WaitFor (List Word × State)
  | [] => .ok ([], s)
  | r :: rs =>
    match s.port? r with
    | none =>
      (match s.readAll rs with
       | .error w => .error w
       | .ok (vs, s') => .ok (s.hart.get r :: vs, s'))
    | some q =>
      match s.popDq q with
      | .error w => .error w
      | .ok (v, s1) =>
        match s1.readAll rs with
        | .error w => .error w
        | .ok (vs, s') => .ok (v :: vs, s')

/-- A value written to a destination register: a port pushes (R92). -/
def State.writeReg (s : State) (r : XReg) (v : Word) : Except WaitFor State :=
  match s.port? r with
  | none => .ok (s.setHart (s.hart.put r v))
  | some q => s.pushDq q v

/-- The end of an instruction that writes one register. -/
def State.retire (s0 s : State) (r : XReg) (v : Word) : Act :=
  match s.writeReg r v with
  | .ok s' => .done s'
  | .error w => .wait w s0

/-- The register that a remote request will write. -/
def RemoteKind.dst? : RemoteKind → Option XReg
  | .load d _ _ slot => if slot.isNone then some d else none
  | .atom _ d _ => some d | .vload _ _ => none | .store _ => none | .copy _ => none | .coll _ => none | .line _ _ _ _ => none

/-- Whether a register has a load that is not yet answered (R94, R110, R256, R333; DESIGN CHOICE log 2). -/
def State.regBusy (s : State) (r : XReg) : Bool :=
  !s.onStation && r != 0 &&
    (s.me.loads.any (fun l => l.slot.isNone && l.dst == r) ||
      s.me.remote.any (fun q => q.kind.dst? == some r && q.answer.isNone && s.me.waiting != some (.remoteAnswer q.tag)))

/-- The common beginning of a word with register fields (R101, R107): nothing happens when the guard reads false; a register
beyond the allotment traps; an earlier load of a named register is waited for; then the sources are read and popped. -/
def State.begin (s : State) (g : Guard) (srcs dsts : List XReg) (k : List Word → State → Act) : Act :=
  if !s.guardOn g then .done s
  else if (srcs ++ dsts).any (fun r => decide (s.allotOf ≤ r.toNat)) then trapOf cALLOT 0 0 s
  else if (srcs ++ dsts).any s.regBusy then .wait (.loads (srcs ++ dsts)) s
  else
    match s.readAll srcs with
    | .error w => .wait w s
    | .ok (vs, s1) => k vs s1

/-- An instruction with one source and one destination. -/
def op1 (g : Guard) (d a : XReg) (f : Word → Word) (s : State) : Act :=
  s.begin g [a] [d] fun vs s1 => s.retire s1 d (f (vs.getD 0 0))
/-- An instruction with two sources and one destination. -/
def op2 (g : Guard) (d a b : XReg) (f : Word → Word → Word) (s : State) : Act :=
  s.begin g [a, b] [d] fun vs s1 => s.retire s1 d (f (vs.getD 0 0) (vs.getD 1 0))
/-- An instruction with three sources and one destination. -/
def op3 (g : Guard) (d a b c : XReg) (f : Word → Word → Word → Word) (s : State) : Act :=
  s.begin g [a, b, c] [d] fun vs s1 => s.retire s1 d (f (vs.getD 0 0) (vs.getD 1 0) (vs.getD 2 0))

end Sys2Proof.Machine
end

