-- ==== Sys2Proof/Machine/Translate.lean ====
section
/-! DEFINITION. Translation (R316 to R321): the walk with its mirror and bad-entry list, the cluster's translation cache, walks
in flight, host leaves, retired pages; and where a translated access lands. -/

namespace Sys2Proof.Machine

/-! ## The walk -/

/-- A level of the walk (R316): its number, the lowest VA bit it indexes, its index bits. -/
structure WalkLevel where
  lvl : Nat
  shift : Nat
  bits : Nat
  deriving DecidableEq, Repr

/-- The levels from the root down (R316). -/
def walkLevels : List WalkLevel := [⟨4, 48, 9⟩, ⟨3, 39, 9⟩, ⟨2, 30, 9⟩, ⟨1, 21, 9⟩, ⟨0, 16, 5⟩]

/-- How a walk ends (R205, R317, R318): a leaf with its page base and size, a host leaf with its size, a PAGE subcause, or at a table in a
plane. -/
inductive WalkEnd where
  | leaf (pa size : Nat) (r w : Bool)
  | host (size : Nat) (r w : Bool)
  | fault (sub : Nat)
  | plane
  deriving DecidableEq, Repr

/-- One copy of a table entry, read as a strong load at package scope by no context; none on an uncorrectable error (R318). -/
def State.pteCopy (s : State) (a : Nat) : Option Word × State :=
  match s.homeRead (a / 64) none with
  | .ok s1 => (some (BitVec.ofNat 64 (s1.physNat a 8)), s1)
  | .error (_, s1) => (none, s1)

/-- A bad table entry reported to Ramner, which rewrites the primary from the mirror, by the line; a primary line that is lost stays
lost (R318, R365; DEDUCED log 47). -/
def State.mendTable (s : State) (part a : Nat) : State :=
  let s1 := (s.logErr (.table part a)).reportFault part
  if s1.isLost (a / 64) then s1
  else
    let l : L2Line := match s1.l2At (a / 64) with
      | some l => l
      | none => ⟨0, true, 0, true, s1.sliceFor (a / 64), s1.wayFor (s1.sliceFor (a / 64)) (a / 64), .none, false⟩
    s1.setL2 (a / 64) { l with
      data := s1.lineData ((a + (s.part part).mirdelta) / 64), dirty := true, owner := 0, nc := true, inj := .none, poisoned := false }

/-- A table entry: the primary copy, else the mirror, the bad primary reported and mended; else how the walk ends, with both copies bad or
the mirror in a plane, which no walk may read (R205, R318; DEDUCED log 47). -/
def State.pteRead (s : State) (part a : Nat) : Except WalkEnd Word × State :=
  match s.pteCopy a with
  | (some w, s1) => (.ok w, s1)
  | (none, s1) =>
    if s1.inPlane (a + (s.part part).mirdelta) then (.error .plane, s1)
    else
      match s1.pteCopy (a + (s.part part).mirdelta) with
      | (some w, s2) => (.ok w, s2.mendTable part a)
      | (none, s2) => (.error (.fault 3), s2)

/-- A walk from a table at some level (R205, R316, R317, R318). -/
def State.walkFrom (s : State) (die part va : Nat) : Nat → List WalkLevel → WalkEnd × State
  | _, [] => (.fault 2, s)
  | base, l :: rest =>
    let a := base + 8 * (va / 2 ^ l.shift % 2 ^ l.bits)
    if (s.die die).bad.contains a then (.fault 3, s)
    else if placeOf a != .hbm then (.fault 3, s)
    else if s.inPlane a then (.plane, s)
    else
      match s.pteRead part a with
      | (.error .plane, s1) => (.plane, s1)
      | (.error w, s1) => (w, s1.updDie die fun d => { d with bad := (d.bad ++ [a]).drop ((d.bad.length + 1) - 16) })
      | (.ok e, s1) =>
        let leaf := e.getLsbD 1
        let addr := field e 51 12 * 4096
        if !e.getLsbD 0 then (.fault 1, s1)
        else if field e 63 52 != 0 || field e 11 5 != 0 then (.fault 2, s1)
        else if !leaf then
          if field e 4 2 != 0 then (.fault 2, s1) else s1.walkFrom die part va addr rest
        else if l.lvl ≥ 3 || addr % 2 ^ l.shift != 0 then (.fault 2, s1)
        else if e.getLsbD 4 then
          if addr != 0 then (.fault 2, s1) else (.host (2 ^ l.shift) (e.getLsbD 2) (e.getLsbD 3), s1)
        else (.leaf addr (2 ^ l.shift) (e.getLsbD 2) (e.getLsbD 3), s1)

/-- The walk of a context's virtual address on a die. -/
def State.walk (s : State) (die ctx va : Nat) : WalkEnd × State :=
  s.walkFrom die (s.ctx ctx).part va (s.ctx ctx).root walkLevels

/-! ## The translation cache -/

/-- The entry of a cluster that covers a context's address (R319). -/
def State.tlbFind (s : State) (cl ctx va : Nat) : Option TlbEntry :=
  (s.cluster cl).tlb.find? fun e => e.ctx == ctx && decide (e.va ≤ va) && decide (va < e.va + e.size)

/-- An entry put into a cluster's translation cache of 2 048 entries (R319). -/
def State.tlbPut (s : State) (cl : Nat) (e : TlbEntry) : State :=
  s.updCluster cl fun c => { c with tlb := (e :: c.tlb).take 2048 }

/-- A walk's leaf put into a cluster's translation cache. -/
def State.tlbFill (s : State) (cl ctx va : Nat) (w : WalkEnd) : State :=
  match w with
  | .leaf pa size r w => s.tlbPut cl ⟨ctx, va / size * size, size, pa, r, w, false⟩
  | .host _ _ _ => s
  | .fault _ => s
  | .plane => s

/-- The walks of a die that hold a walker: one for each context and 64 KiB page (R319). -/
def Die.walkers (d : Die) : List (Nat × Nat) :=
  d.walks.foldl (fun l w => if l.contains (w.ctx, w.va) then l else l ++ [(w.ctx, w.va)]) []

/-- A walk put in flight, or joined to one in flight; with all 64 walkers busy the miss waits (R319). -/
def State.startWalk (s : State) (cl ctx va : Nat) : State :=
  let die := cl / 16
  let d := s.die die
  let pg := va / 65536
  if d.walks.contains ⟨ctx, cl, pg⟩ then s
  else if d.walkers.contains (ctx, pg) || decide (d.walkers.length < 64) then
    s.updDie die fun d => { d with walks := d.walks ++ [⟨ctx, cl, pg⟩] }
  else s

/-- Where a translation leads (R316 to R321); denied: a leaf that names host memory does not permit the access (R317); plane: its walk
comes to a table in a plane (R205). -/
inductive Xlate where
  | phys (pa : Nat) (r w : Bool)
  | host (ha : Nat) (r w : Bool)
  | fault (sub : Nat)
  | denied
  | plane
  | wait
  deriving DecidableEq, Repr

/-- Whether a physical byte's 64 KiB page is in its stack's retired list (R326). -/
def State.isRetired (s : State) (pa : Nat) : Bool :=
  decide (pa < hbmEnd) && (s.retired.getD (pa / (16 * pairBytes)) []).contains (pa / 65536)

/-- What a translation-cache entry answers for an address. -/
def State.tlbAnswer (s : State) (e : TlbEntry) (va : Nat) : Xlate :=
  let a := e.pa + (va - e.va)
  if e.host then .host a e.r e.w else if s.isRetired a then .fault 5 else .phys a e.r e.w

/-- A host leaf that permits the access (R320): the page the host refused ends with PAGE, SUB 4, once; an access whose page request
is outstanding is held with that fault until the host answers (DEDUCED log 77); else a translation request is outstanding and the
access waits. -/
def State.hostAsk (s : State) (cl ctx va : Nat) : Xlate × State :=
  let k := (cl, va / 4096)
  let c := s.ctx ctx
  if c.hostRefused.contains k then
    (.fault 4, s.updCtx ctx fun c => { c with hostRefused := c.hostRefused.filter (· != k) })
  else if c.pri.contains k then (.fault 4, s)
  else if c.ats.contains k then (.wait, s)
  else (.wait, s.updCtx ctx fun c => { c with ats := c.ats ++ [k] })

/-- A host translation without the permission that an access needs: the leaf denies it, or the host does, and a page request is made
(R317, R320). -/
def State.hostLacks (s : State) (cl ctx va : Nat) (write : Bool) : Xlate × State :=
  match s.walk (cl / 16) ctx va with
  | (.host _ r w, s1) =>
    if !(if write then w else r) then (.denied, s1)
    else
      let k := (cl, va / 4096)
      let s2 := s1.updCluster cl fun c =>
        { c with tlb := c.tlb.filter fun e => !(e.ctx == ctx && decide (e.va ≤ va) && decide (va < e.va + e.size)) }
      if (s2.ctx ctx).hostRefused.contains k then s2.hostAsk cl ctx va
      else (.fault 4, s2.updCtx ctx fun c => { c with pri := if c.pri.contains k then c.pri else c.pri ++ [k] })
  | (.fault k, s1) => (.fault k, s1)
  | (.plane, s1) => (.plane, s1)
  | (.leaf _ _ _ _, s1) => (.wait, s1)

/-- Whether a miss waits for a walker: it joins a walk in flight, or every walker is busy (R319). -/
def Die.walkBusy (d : Die) (ctx va : Nat) : Bool :=
  d.walkers.contains (ctx, va / 65536) || decide (64 ≤ d.walkers.length)

/-- The translation of a context's address in a cluster, for a read or a write (R316 to R321). A miss that joins a walk in flight or finds
no walker waits, and with the memory system answering later any miss puts a walk in flight and waits; else the walk is done now (R319;
DESIGN CHOICE log 2). -/
def State.translate (s : State) (cl ctx va : Nat) (write : Bool) : Xlate × State :=
  match s.tlbFind cl ctx va with
  | some e =>
    if e.host && !(if write then e.w else e.r) then s.hostLacks cl ctx va write else (s.tlbAnswer e va, s)
  | none =>
    if s.late || (s.die (cl / 16)).walkBusy ctx va then (.wait, s.startWalk cl ctx va)
    else
      match s.walk (cl / 16) ctx va with
      | (.fault k, s1) => (.fault k, s1)
      | (.plane, s1) => (.plane, s1)
      | (.host _ r w, s1) => if !(if write then w else r) then (.denied, s1) else s1.hostAsk cl ctx va
      | (.leaf pa size r w, s1) =>
        let s2 := s1.tlbFill cl ctx va (.leaf pa size r w)
        (s2.tlbAnswer ⟨ctx, va / size * size, size, pa, r, w, false⟩ va, s2)

/-- The walk of an address that the translation cache does not hold, as far as it reports or mends a table entry or meets an error: any other
is made without an effect that a program can see (R318; DEDUCED log 90). -/
def State.lookWalk (s : State) (cl ctx va : Nat) : State :=
  match s.tlbFind cl ctx va with
  | some _ => s
  | none =>
    let s1 := (s.walk (cl / 16) ctx va).2
    if s1.counts = s.counts ∧ s1.errlog = s.errlog ∧ s1.die (cl / 16) = s.die (cl / 16) then s else s1

/-- The physical address that a context's address translates to, if it is not a host page; what its walk does, `lookWalk` does. -/
def State.physOf (s : State) (cl ctx va : Nat) : Option Nat :=
  match s.tlbFind cl ctx va with
  | some e => if e.host then none else some (e.pa + (va - e.va))
  | none =>
    match (s.walk (cl / 16) ctx va).1 with
    | .leaf pa size _ _ => some (pa + va % size)
    | .host _ _ _ => none
    | .fault _ => none
    | .plane => none

/-- The physical address of a pinned address of a context: a byte of home memory that lies in no plane (R85, R205). -/
def State.pinned (s : State) (cl ctx va : Nat) : Option Nat :=
  (s.physOf cl ctx va).filter fun pa =>
    match placeOf pa with
    | .hbm => !s.inPlane pa
    | .aperture => (s.platAt pa).isSome
    | .regs => false | .remote => false | .none => false

/-! ## Page faults that may end -/

/-- Whether a page fault may be resolved (R321). -/
def pageResolvable (t : Trap) : Bool := t.cause == cPAGE && (t.sub == 1 || t.sub == 5)

/-- Whether a page fault of an access in a cluster may yet be lifted: the shadow handler resolves it, or the host answers the page request
that is out (R320, R321; DEDUCED log 77). -/
def State.pageWaits (s : State) (cl ctx : Nat) (t : Trap) : Bool :=
  pageResolvable t || (t.cause == cPAGE && t.sub == 4 && (s.ctx ctx).pri.contains (cl, t.tval.toNat / 4096))

/-- Whether the host has still to answer the page request of a held access in a cluster (R320). -/
def State.pageAsked (s : State) (cl ctx : Nat) (t : Trap) : Bool := s.pageWaits cl ctx t && !pageResolvable t

/-! ## Where an access lands -/

/-- A local place of data: home memory by physical address, host memory, or another package. -/
inductive Loc where
  | home (pa : Nat)
  | host (ha : Nat)
  | remote (dest off : Nat)
  deriving DecidableEq, Repr

/-- Whether bytes meet a slot table of a partition, which no context can write (R284; DEDUCED log 76); base 0 names no table. -/
def State.meetsSlots (s : State) (pa n : Nat) : Bool :=
  s.parts.any fun p => p.slotTable != 0 && decide (p.slotTable < pa + n) && decide (pa < p.slotTable + 64 * 4096)
/-- Whether a byte lies in a slot table. -/
def State.inSlots (s : State) (pa : Nat) : Bool := s.meetsSlots pa 1

/-- A global access of a context located: PAGE, then ACCESS for permission and for what is not memory (R317, R321, R377);
`acc` is the ACCESS trap's value, the issuing address. -/
def State.locate (s : State) (cl ctx va : Nat) (write : Bool) : Except Act (Loc × State) :=
  match s.translate cl ctx va write with
  | (.denied, s1) => .error (trapOf cACCESS 0x60 (BitVec.ofNat 64 va) s1)
  | (.plane, s1) => .error (trapOf cACCESS 0 (BitVec.ofNat 64 va) s1)
  | (.wait, s1) => .error (.wait (.walk va) s1)
  | (.fault k, s1) => .error (trapOf cPAGE k (BitVec.ofNat 64 va) s1)
  | (.host ha r w, s1) =>
    if (if write then w else r) then .ok (.host ha, s1) else .error (trapOf cACCESS 0x60 (BitVec.ofNat 64 va) s1)
  | (.phys pa r w, s1) =>
    if !(if write then w else r) then .error (trapOf cACCESS 0x60 (BitVec.ofNat 64 va) s1)
    else
      match placeOf pa with
      | .hbm =>
        if s1.inPlane pa then .error (trapOf cACCESS 0 (BitVec.ofNat 64 va) s1)
        else if write && s1.inSlots pa then .error (trapOf cACCESS 0x60 (BitVec.ofNat 64 va) s1)
        else .ok (.home pa, s1)
      | .aperture =>
        (match s1.platAt pa with
         | some _ => .ok (.home pa, s1)
         | none => .error (trapOf cACCESS 0 (BitVec.ofNat 64 va) s1))
      | .remote => .ok (.remote (pa / 2 ^ 40 % 1024) (pa % 2 ^ 40), s1)
      | .regs => .error (trapOf cACCESS 0 (BitVec.ofNat 64 va) s1)
      | .none => .error (trapOf cACCESS 0 (BitVec.ofNat 64 va) s1)

end Sys2Proof.Machine
end

