-- ==== Sys2Proof/Machine/Scopes.lean ====
section
/-! DEFINITION. Tiers and groups (R274, R275, R277), the scopes of parties (R253), release and acquire (R261, R263, R266) and
the race check of a home line (R264, R265). -/

namespace Sys2Proof.Machine

/-! ## Tiers and groups -/

/-- A stream's index in its core: A 0, X 1, M 2, C 3 (R274). -/
def stIndex : StreamId → Nat
  | .A => 0 | .X => 1 | .M => 2 | .C => 3

/-- The scope a code names (R253). -/
def scopeOf (c : Nat) : Scope :=
  match c with
  | 0 => .stream | 1 => .core | 2 => .cluster | 3 => .die | 4 => .package | 5 => .domain | 6 => .system | _ => .tier
/-- Whether a TIER word declares its tier (R288). -/
def tierV (t : Word) : Bool := t.getLsbD 63
/-- The domain code of a TIER word (R277). -/
def tierDom (t : Word) : Nat := field t 62 60
/-- The declared scope of a TIER word (R277). -/
def tierScope (t : Word) : Scope := scopeOf (field t 59 57)
/-- The extent of a TIER word (R288). -/
def tierExt (t : Word) : Nat := field t 15 0

/-- A list with repeats removed, the first of each kept. -/
def nubNat : List Nat → List Nat
  | [] => []
  | a :: l => a :: (nubNat l).filter (· != a)

/-- The TIER word of a kernel's tier n. -/
def Kernel.tier (k : Kernel) (n : Nat) : Word := k.tiers.getD n 0
/-- A core's index in its kernel (R274). -/
def Kernel.coreIndex (k : Kernel) (core : Nat) : Nat := k.cores.idxOf core
/-- A kernel's clusters (R274). -/
def Kernel.clusters (k : Kernel) : List Nat := nubNat (k.cores.map clusterOf)
/-- A kernel's dies (R274). -/
def Kernel.dies (k : Kernel) : List Nat := nubNat (k.cores.map dieOf)

/-- A party's unit of a domain (R274). -/
def Kernel.unitOf (k : Kernel) (dom core : Nat) (st : StreamId) : Nat :=
  match dom with
  | 0 => 4 * k.coreIndex core + stIndex st
  | 1 => k.coreIndex core
  | 2 => k.clusters.idxOf (clusterOf core)
  | 3 => k.dies.idxOf (dieOf core)
  | 4 => 0
  | _ => k.rank

/-- The units of a domain in a kernel (R274). -/
def Kernel.unitCount (k : Kernel) (dom : Nat) : Nat :=
  match dom with
  | 0 => 4 * k.cores.length
  | 1 => k.cores.length
  | 2 => k.clusters.length
  | 3 => k.dies.length
  | 4 => 1
  | _ => k.members.length

/-- A party's group of tier n: its number and the party's rank in it (R275). -/
def Kernel.groupOf (k : Kernel) (n core : Nat) (st : StreamId) : Nat × Nat :=
  let t := k.tier n
  let u := k.unitOf (tierDom t) core st
  if tierDom t = 4 then (k.rank, 0) else (u / tierExt t, u % tierExt t)

/-- The groups of tier n (R278). -/
def Kernel.groupCount (k : Kernel) (n : Nat) : Nat :=
  let t := k.tier n
  if tierExt t = 0 then 0 else (k.unitCount (tierDom t) + tierExt t - 1) / tierExt t

/-- TIERINFO of a party's tier n (R277); an undeclared tier reads zero. -/
def Kernel.tierInfo (k : Kernel) (n core : Nat) (st : StreamId) : Word :=
  let t := k.tier n
  if !tierV t then 0
  else
    let g := k.groupOf n core st
    (t &&& 0xFE00000000000000) ||| BitVec.ofNat 64 (g.1 % 2 ^ 16 * 2 ^ 32 + tierExt t * 2 ^ 16 + g.2 % 2 ^ 16)

/-! ## Scopes -/

/-- What a party of a core is: a stream, an engine of the core, or the cluster's collective engine (R253). -/
inductive PartyKind where
  | stream | engine | collective
  deriving DecidableEq, Repr

/-- A party: a stream of a core, or an engine that acts for a stream's command; core 512 + n is station core n (R253). -/
structure Party where
  core : Nat
  st : StreamId
  kind : PartyKind
  deriving DecidableEq, Repr

/-- The current party. -/
def State.party (s : State) : Party :=
  match s.cur with | .stream c k => ⟨c, k, .stream⟩ | .station n => ⟨512 + n, .A, .stream⟩
/-- The party that released. -/
def Release.party (r : Release) : Party := ⟨r.core, r.st, .stream⟩

/-- Whether a scope that is not a tier holds party b with party a (R253). -/
def plainIncludes (sc : Scope) (a b : Party) : Bool :=
  match sc with
  | .stream => a == b
  | .package => true | .domain => true | .system => true
  | .core => a == b || (a.core == b.core && decide (a.core < 512) && a.kind != .collective && b.kind != .collective)
  | .cluster => a == b || (clusterOf a.core == clusterOf b.core && decide (a.core < 512) && decide (b.core < 512))
  | .die => a == b || (dieOf a.core == dieOf b.core && decide (a.core < 512) && decide (b.core < 512))
  | .tier => false

/-- Whether party a's scope holds party b (R253, R275). -/
def State.includes (s : State) (sc : Scope) (tier : Nat) (a b : Party) : Bool :=
  if sc != .tier then plainIncludes sc a b
  else
    match s.kernelOf a.core with
    | none => a == b
    | some k =>
      k.cores.contains b.core && (k.groupOf tier a.core a.st).1 == (k.groupOf tier b.core b.st).1 &&
        plainIncludes (tierScope (k.tier tier)) a b

/-- The scope at which an access of a core acts: a tier's declared scope (R275; DEDUCED log 45). -/
def State.effScope (s : State) (sc : Scope) (tier core : Nat) : Scope :=
  if sc != .tier then sc
  else match s.kernelOf core with | some k => tierScope (k.tier tier) | none => .stream

/-- Whether a scope is die or wider (R261). -/
def wideScope (sc : Scope) : Bool :=
  match sc with
  | .die => true | .package => true | .domain => true | .system => true
  | .stream => false | .core => false | .cluster => false | .tier => false
/-- Whether a scope is domain or wider (R332). -/
def domainScope (sc : Scope) : Bool :=
  match sc with
  | .domain => true | .system => true
  | .stream => false | .core => false | .cluster => false | .die => false | .package => false | .tier => false
/-! ## Race-detection state (R263) -/

/-- The race state that a kernel starts with in a cluster (R263). -/
def raceReset : RaceCluster := ⟨1, Vector.replicate 128 ⟨0, 0, 0⟩, [], false⟩
/-- The race state of a kernel in a cluster. -/
def Kernel.raceAt (k : Kernel) (cl : Nat) : RaceCluster :=
  match k.race.find? (·.1 == cl) with | some r => r.2 | none => raceReset
/-- The race state of a kernel in a cluster replaced. -/
def Kernel.setRace (k : Kernel) (cl : Nat) (r : RaceCluster) : Kernel :=
  { k with race := (cl, r) :: k.race.filter (·.1 != cl) }
/-- A core's stream in its cluster, 0 to 15 (R263). -/
def streamNo (p : Party) : Nat := 4 * (p.core % 4) + stIndex p.st

/-- The W of a party (R263). -/
def State.wOf (s : State) (p : Party) (t : Nat) : Nat := ((s.strm p.core p.st).w.getD t 0).toNat

/-- A release publishes its epoch and the epoch advances; a release of scope die or wider keeps a snapshot of V, the last four
(R263). A party outside any kernel publishes epoch 0 (DEDUCED log 49). -/
def State.publish (s : State) (p : Party) (sc : Scope) : Nat × State :=
  match s.kernelOf p.core with
  | none => (0, s)
  | some k =>
    let cl := clusterOf p.core
    let r := k.raceAt cl
    let r' := { r with e := min 255 (r.e + 1), snaps := if wideScope sc then ((r.e, r.v) :: r.snaps).take 4 else r.snaps }
    (r.e, s.updKernel k.id fun k => k.setRace cl r')

/-- A release of a party widens what it released in pin mode, unless one of its scope did before, and lets the parties of its scope into
the lines it pinned (R266). -/
def State.widenPins (s : State) (p : Party) (sc : Scope) (tier epoch : Nat) : State :=
  { s with
    releases := s.releases.map fun r =>
      if r.pin && r.party == p && !r.wider.any (fun x => x.1 == sc && x.2.1 == tier) then
        { r with wider := r.wider ++ [(sc, tier, epoch)] }
      else r
    pins := s.pins.map fun q =>
      if q.core == p.core && q.st == p.st && !q.scopes.contains (sc, tier) then { q with scopes := q.scopes ++ [(sc, tier)] } else q }

/-- The pins of a party end: it is scanned out, or its job ends (R266). -/
def State.liftPins (s : State) (core : Nat) (k : StreamId) : State :=
  { s with pins := s.pins.filter fun q => !(q.core == core && q.st == k) }

/-- An acquire from a release of another party of the same kernel that published epoch e (R263); epoch 0 is none of its race
state's epochs. -/
def State.acquireFrom (s : State) (p : Party) (r : Release) (e : Nat) : State :=
  match s.kernelOf p.core with
  | none => s
  | some k =>
    if r.kernel ≠ some k.id ∨ e = 0 then s
    else
      let cl := clusterOf p.core
      let cl' := clusterOf r.core
      let t := streamNo r.party
      if cl' = cl then
        s.updStrm p.core p.st fun x => { x with w := x.w.setIfInBounds t (BitVec.ofNat 8 (max (x.w.getD t 0).toNat e)) }
      else
        let m := k.raceAt cl
        let ent (x : Nat) : VEntry := ⟨x, streamNo p, m.e⟩
        let v1 := if (m.v.getD cl' default).epoch < e then m.v.setIfInBounds cl' (ent e) else m.v
        let m' : RaceCluster :=
          match (k.raceAt cl').snaps.find? (·.1 == e) with
          | none => { m with v := v1, partial_ := true }
          | some sn =>
            { m with
              v := (upto 128).foldl
                (fun v i => if (v.getD i default).epoch < (sn.2.getD i default).epoch
                  then v.setIfInBounds i (ent (sn.2.getD i default).epoch) else v) v1 }
        s.updKernel k.id fun k => k.setRace cl m'

/-- The epoch of a release from which an acquire of a scope by a party gains order: its own, or that of the first release of its party
that widened it, where both scopes hold the other party (R253, R261, R266). -/
def State.syncEpochs (s : State) (p : Party) (sc : Scope) (tier : Nat) (r : Release) : List Nat :=
  if s.includes sc tier p r.party then
    ((((r.scope, r.tier, r.epoch) :: r.wider).filter fun x => s.includes x.1 x.2.1 r.party p).map fun x => x.2.2).take 1
  else []

/-- What an acquire gains from a release of another party: its epoch, and on the load/store path what it orders is seen (R261, R263). -/
def State.gain (s : State) (p : Party) (r : Release) (e : Nat) : State :=
  let s1 := s.acquireFrom p r e
  if p.core < 512 then s1.updStrm p.core p.st fun t => { t with lsView := s.stamp } else s1

/-- STAT.NSD set in a party (R266). -/
def State.setNsd (s : State) (p : Party) : State :=
  let f (h : Hart) : Hart := { h with stat := setBit h.stat statNSD true }
  if p.core < 512 then s.updStrm p.core p.st fun x => { x with hart := f x.hart }
  else s.updStation (p.core - 512) fun x => { x with hart := f x.hart }

/-- An acquire of a scope by a party that read from some releases: it synchronises with those of other parties whose scope holds it and
that its own holds; from a party with none of them it gains nothing, and STAT.NSD is set in it (R253, R261, R266). -/
def State.syncAll (s : State) (p : Party) (sc : Scope) (tier : Nat) (rs : List Release) : State :=
  let others := rs.filter fun r => r.party != p
  let gained := others.filter fun r => !(s.syncEpochs p sc tier r).isEmpty
  let s1 := gained.foldl (fun s1 r => (s.syncEpochs p sc tier r).foldl (fun s1 e => s1.gain p r e) s1) s
  if others.any fun r => !gained.any fun q => q.party == r.party then s1.setNsd p else s1

/-- The releases that bytes of a location hold. -/
def State.releasesAt (s : State) (a n : Nat) : List Release :=
  s.releases.filter fun r => decide (r.addr < a + n) && decide (a < r.addr + r.size)

/-- A release without the bytes from a on, n of them: what is left of it before and after. -/
def Release.minus (r : Release) (a n : Nat) : List Release :=
  if r.addr < a + n ∧ a < r.addr + r.size then
    [{ r with size := a - r.addr }, { r with addr := a + n, size := r.addr + r.size - (a + n) }].filter fun q => q.size != 0
  else [r]

/-- The releases that a plain write of bytes leaves, each at the bytes it still holds. -/
def State.dropReleases (s : State) (a n : Nat) : State :=
  { s with releases := s.releases.flatMap fun r => r.minus a n }

/-- Whether a line, named as locations are, is pinned against a party: no scope of the pin holds it (R266). -/
def State.pinnedFor (s : State) (p : Party) (line : Nat) : Bool :=
  s.pins.any fun q =>
    q.line == line && !(q.core == p.core && q.st == p.st && p.kind == .stream) &&
      !q.scopes.any fun x => s.includes x.1 x.2 ⟨q.core, q.st, .stream⟩ p

/-- Whether a line is pinned against every agent outside the package (R266). -/
def State.pinnedOutside (s : State) (line : Nat) : Bool :=
  s.pins.any fun q => q.line == line && !q.scopes.any fun x => domainScope (s.effScope x.1 x.2 q.core)

/-! ## The race check (R264, R265) -/

/-- The record of a home line that belongs to a running kernel's current superstep (R263). -/
def State.liveRec (s : State) (line : Nat) : Option LineRec :=
  match s.recs.find? (·.1 == line) with
  | none => none
  | some (_, r) => if s.kernels.any fun k => k.placed && k.id == r.kernel && k.step == r.step then some r else none

/-- Whether a record is ordered before a party's access (R264). -/
def State.raceOrdered (s : State) (m : RaceCluster) (p : Party) (r : RaceId) : Bool :=
  if r.cluster = clusterOf p.core then decide (r.epoch ≤ s.wOf p r.stream)
  else
    let v := m.v.getD r.cluster default
    decide (r.epoch ≤ v.epoch) && (v.stream == streamNo p || decide (v.at_ ≤ s.wOf p v.stream))

/-- Whether the hardware can prove the order of a record (R264; DEDUCED log 50). -/
def raceProvable (m : RaceCluster) (p : Party) (r : RaceId) : Bool :=
  r.epoch != 255 && !(r.cluster != clusterOf p.core && decide (r.epoch ≤ (m.v.getD r.cluster default).epoch))

/-- The race trap that a plain access of a line meets, before RUD is looked at (R264). -/
def State.raceFind (s : State) (k : Kernel) (p : Party) (line : Nat) (store : Bool) : Option (BitVec 8) :=
  match s.liveRec line with
  | none => none
  | some r =>
    if r.kernel ≠ k.id then some cRACEU
    else
      let m := k.raceAt (clusterOf p.core)
      let own (x : RaceId) : Bool := x.cluster == clusterOf p.core && x.stream == streamNo p
      let cands := r.writer.toList ++ (if store then r.readers else [])
      let bad := cands.filter fun x => !own x && !s.raceOrdered m p x
      if store && r.full then some cRACEU
      else if bad.any fun x => raceProvable m p x && !m.partial_ then some cRACE
      else if bad.isEmpty then none else some cRACEU

/-- The record that a successful plain access leaves (R264). -/
def State.raceRecord (s : State) (k : Kernel) (p : Party) (line : Nat) (store : Bool) : State :=
  let me : RaceId := ⟨clusterOf p.core, streamNo p, (k.raceAt (clusterOf p.core)).e⟩
  let old : LineRec :=
    match s.liveRec line with
    | some r => if r.kernel = k.id then r else ⟨k.id, k.step, none, [], false⟩
    | none => ⟨k.id, k.step, none, [], false⟩
  let rest := old.readers.filter fun x => !(x.cluster == me.cluster && x.stream == me.stream)
  let new : LineRec :=
    if store then ⟨k.id, k.step, some me, [], false⟩
    else if rest.length < 2 then { old with readers := rest ++ [me] } else { old with full := true }
  { s with recs := (line, new) :: s.recs.filter (·.1 != line) }

/-- The race check and record of a plain access of the current stream to a line: the trap cause it meets, or the state after;
RACEU is deferred under SCOPEMODE.RUD (R264, R265). A party outside any kernel is not tracked. -/
def State.raceAccess (s : State) (line : Nat) (store : Bool) : Except (BitVec 8) State :=
  match s.kernelOf s.curCore with
  | none => .ok s
  | some k =>
    match s.raceFind k s.party line store with
    | none => .ok (s.raceRecord k s.party line store)
    | some c =>
      if c = cRACEU && smRud s.me.scopemode then .ok ((s.raceRecord k s.party line store).setStat statRACEUP) else .error c

end Sys2Proof.Machine
end

