-- ==== Sys2Proof/Machine/Views.lean ====
section
/-! DEFINITION. Views: the writes that a reader on another path, or of another party that nothing orders after it, may still miss
(R191, R260 to R262, R375, R376; DESIGN CHOICE log 72). A stream's writes are kept while the memory system answers later (DESIGN CHOICE log 2),
and an engine's always. -/

namespace Sys2Proof.Machine

/-- Whether a stream sees a write for certain, on its gather path or its load/store path: it made it on that path, the write was carried
to the load/store path before what the stream's view of that path covers, or the stream has seen it there. -/
def State.seesPast (s : State) (gth : Bool) (e : PastWrite) : Bool :=
  let view := if gth then s.me.gthView else s.me.lsView
  (e.core == s.curCore && e.st == s.curSt && e.path == (if gth then 3 else 0)) || (e.path == 0 && decide (e.at_ < view)) ||
    e.known.contains (s.curCore, s.curSt, gth)

/-- Whether a write touched a byte of a range, named as locations are. -/
def PastWrite.meets (e : PastWrite) (key n : Nat) : Bool := e.old.any fun b => decide (key ≤ b.1) && decide (b.1 < key + n)

/-- The newest writes of a range that the current stream may miss: those before the first that it sees for certain. -/
def State.unseen (s : State) (gth : Bool) (key n : Nat) : List PastWrite :=
  (s.past.filter fun e => e.meets key n).takeWhile fun e => !s.seesPast gth e

/-- A byte as it stood before some writes, newest first. -/
def byteBefore (l : List PastWrite) (key : Nat) (b : Byte) : Byte :=
  l.foldl (fun b e => match e.old.find? (·.1 == key) with | some x => x.2 | none => b) b

/-- The current stream has seen, on a path, the writes of a range but for its newest k. -/
def State.knowPast (s : State) (gth : Bool) (key n k : Nat) : State :=
  let rec go : Nat → List PastWrite → List PastWrite
    | _, [] => []
    | k, e :: l =>
      if !e.meets key n then e :: go k l
      else if k = 0 then
        (if e.known.contains (s.curCore, s.curSt, gth) then e else { e with known := (s.curCore, s.curSt, gth) :: e.known }) :: go 0 l
      else e :: go (k - 1) l
  { s with past := go k s.past }

/-- What a read of the current stream, of the given bytes as they stand, returns. With the memory system answering later, a plain or weak
one may miss the newest writes that nothing orders before it; how many is a free value, which stands beside the bytes. What it sees it goes
on seeing, but for a weak load, which may return a newer value and then an older one (R262). -/
def State.viewRead (s : State) (gth weak strong : Bool) (key : Nat) (bs : List Byte) : (List Byte × Nat) × State :=
  if s.onStation || s.past.isEmpty then ((bs, 0), s)
  else
    let l := s.unseen gth key bs.length
    if strong || !s.late || l.isEmpty then ((bs, 0), if weak then s else s.knowPast gth key bs.length 0)
    else
      let (w, s1) := s.free
      let k := w.toNat % (l.length + 1)
      ((bs.zipIdx.map fun b => byteBefore (l.take k) (key + b.2) b.1, k), if weak then s1 else s1.knowPast gth key bs.length k)

/-- Bytes, named as locations are, that every reader sees from now on. -/
def State.settle (s : State) (keys : List Nat) : State :=
  if s.past.isEmpty then s
  else
    { s with past := (s.past.map fun e => { e with old := e.old.filter fun b => !keys.contains b.1 }).filter fun e => !e.old.isEmpty }

/-- Lines whose bytes every reader sees from now on as they stand. -/
def State.settleLines (s : State) (f : Nat → Bool) : State :=
  if s.past.isEmpty then s
  else
    { s with past := (s.past.map fun e => { e with old := e.old.filter fun b => !f (b.1 / 64) }).filter fun e => !e.old.isEmpty }

/-- A write by a path for a stream's command or a stream itself, with the bytes that stood before it: kept for readers that may miss it. -/
def State.notePast (s : State) (path core : Nat) (st : StreamId) (old : List (Nat × Byte)) : State :=
  { s with stamp := s.stamp + 1, past := ⟨s.stamp, path, core, st, old, []⟩ :: s.past }

/-- What the current stream sees on a path, every write that was carried to the load/store path until now: it acquires there, departs
from a barrier or starts (R81, R259, R261). -/
def Stream.seeAll (t : Stream) (stamp : Nat) (gth : Bool) : Stream :=
  if gth then { t with lsView := stamp, gthView := stamp } else { t with lsView := stamp }

/-- An XFENCE of the current stream: the writes of the FROM paths, its own, and those of its core's engines, and those it sees on those
paths, are seen by what it issues on the TO paths, and with the load/store path among these a release carries them on (R260, R261). -/
def State.carry (s : State) (pfrom pto : BitVec 5) : State :=
  if s.past.isEmpty then s
  else
    let here (e : PastWrite) : Bool :=
      if e.path = 1 ∨ e.path = 4 then e.core == s.curCore && pfrom.getLsbD e.path
      else (pfrom.getLsbD 0 && s.seesPast false e) || (pfrom.getLsbD 3 && s.seesPast true e)
    let add (e : PastWrite) (gth : Bool) : PastWrite := { e with known := (s.curCore, s.curSt, gth) :: e.known }
    { s with
      stamp := s.stamp + 1
      past := s.past.map fun e =>
        if !here e then e
        else
          let e1 := if pto.getLsbD 3 then add e true else e
          if !pto.getLsbD 0 then e1
          else if e1.path = 0 then add e1 false else { add e1 false with path := 0, at_ := s.stamp } }

/-- Every write of some cores is seen on every path of their streams, and of every party that acquires there later (R271). -/
def State.carryAll (s : State) (cores : List Nat) : State :=
  if s.past.isEmpty then s
  else { s with
    stamp := s.stamp + 1
    past := s.past.map fun e => if cores.contains e.core && e.path != 0 then { e with path := 0, at_ := s.stamp } else e }

end Sys2Proof.Machine
end

