-- ==== Sys2Proof/Machine/Access.lean ====
section
/-! DEFINITION. Accesses of a stream: classes (R252), tile space (R135), protected ranges (R89, R244), the home access with its
errors, race check, acquire and release, remote requests with marks and journals (R306, R307, R331 to R335), and the arena of
an effect list with its capture and read-own-write (R242 to R247). -/

namespace Sys2Proof.Machine

/-! ## The current stream -/

/-- The cluster of the current core. -/
def State.curCl (s : State) : Nat := clusterOf s.curCore
/-- The context of the current core. -/
def State.curCtx (s : State) : Nat := s.ctxOf s.curCore
/-- The partition of the current core. -/
def State.curPart (s : State) : Nat := s.partOf s.curCore
/-- Whether the current stream is collecting (R238). -/
def State.collecting (s : State) : Bool :=
  !s.onStation && decide (1 ≤ s.me.lists.opened.length) && !tcauseIn s.me.tcause

/-- The owner tag of the current agent's accesses: its context, or none for a station core (R322). -/
def State.ownTag (s : State) : Option Nat := if s.onStation then none else some s.curCtx

/-- The class of an access (R252), with the scope, tier and order of a strong one; a plain or weak access of the gather path has
its own (R260). -/
inductive Cls where
  | plain | weak
  | gather (weak : Bool)
  | strong (sc : Scope) (tier : Nat) (acq rel : Bool)
  deriving DecidableEq, Repr

/-- Whether an access is of the gather path (R260). -/
def Cls.isGather : Cls → Bool
  | .gather _ => true | .plain => false | .weak => false | .strong _ _ _ _ => false
/-- Whether an access is of the weak class (R252). -/
def Cls.isWeak : Cls → Bool
  | .gather w => w | .weak => true | .plain => false | .strong _ _ _ _ => false
/-- Whether a class is strong. -/
def Cls.isStrong : Cls → Bool
  | .plain => false | .weak => false | .gather _ => false | .strong _ _ _ _ => true
/-- Whether an access is of the plain class, which the race detector checks (R252, R264). -/
def Cls.isPlain : Cls → Bool
  | .plain => true | .gather w => !w | .weak => false | .strong _ _ _ _ => false

/-- The space tag of an address operand (R20). -/
def spaceTag (y : Word) : Nat := field y 63 56
/-- The 56 address bits of an operand. -/
def addr56 (y : Word) : Nat := field y 55 0
/-- The end of tile space (R256). -/
def tileEnd : Nat := 0x800000

/-! ## Tile space -/

/-- The bank of a tile-space offset (R135). -/
def bankOf (t : Nat) : Nat := t / 0x20000
/-- Whether every byte of a tile-space range lies in a bank in tile mode. -/
def State.tileMode (s : State) (cl t n : Nat) : Bool :=
  (upto (bankOf (t + n - 1) - bankOf t + 1)).all fun i => (s.cluster cl).modes.getD (bankOf t + i) .cache == .tile
/-- Whether a context owns every bank of a tile-space range. -/
def State.tileOwned (s : State) (cl ctx t n : Nat) : Bool :=
  (upto (bankOf (t + n - 1) - bankOf t + 1)).all fun i => (s.owner cl ctx).bank.getLsbD (bankOf t + i)

/-- Whether two ranges of bytes meet; the ends are included. -/
def meets (lo hi lo' hi' : Nat) : Bool := decide (lo ≤ hi') && decide (lo' ≤ hi)

/-- A core's replay window retired, and the ranges it held released (R150). -/
def State.retireWindow (s : State) (core : Nat) : State :=
  (s.updCore core fun c => { c with window := [], winHold := false }).updCluster (clusterOf core) fun c =>
    { c with ranges := c.ranges.filter fun r => !(r.window && r.core == core) }

/-- The windows that a stream's tile-space store retires: those with a write range that it meets (R310). -/
def State.retireWindows (s : State) (cl lo hi : Nat) : State :=
  (upto 4).foldl
    (fun s k =>
      if (s.core (4 * cl + k)).window.any fun e => e.ranges.any fun r => r.write && r.slice.isNone && meets r.lo r.hi lo hi
      then s.retireWindow (4 * cl + k) else s) s

/-! ## Protected ranges -/

/-- Whether a byte range of a space meets the arena that EFARENA names (R242): one of capacity 0 is none, one in tile space is of
its core's cluster. -/
def arenaMeets (w : Word) (tile here : Bool) (a n : Nat) : Bool :=
  let cap := field w 15 0
  let base := field w 63 16 * 65536
  cap != 0 && (if tile then base / 2 ^ 56 == 1 && here else base / 2 ^ 56 == 0) &&
    meets (base % 2 ^ 56) (base % 2 ^ 56 + 4096 * cap - 1) a (a + n - 1)

/-- Whether a store of a context to a global or tile-space byte meets an arena of one of its streams (R244). -/
def State.inArena (s : State) (ctx cl : Nat) (tile : Bool) (a n : Nat) : Bool :=
  s.cores.toList.zipIdx.any fun c =>
    ([c.1.a, c.1.x, c.1.m, c.1.c].any fun t => arenaMeets t.lists.arena tile (clusterOf c.2 == cl) a n) && s.ctxOf c.2 == ctx

/-- Whether a global store meets the shadow-stack spill region of the context: one region for each of its streams from the base
Ramner assigned; base 0 assigns none (R89; DEDUCED log 17). -/
def State.inSpill (s : State) (ctx a n : Nat) : Bool :=
  let c := s.ctx ctx
  c.spillBase != 0 && c.spillSize != 0 && meets c.spillBase (c.spillBase + 2048 * c.spillSize - 1) a (a + n - 1)

/-- The check of a store's protected ranges (R89, R244). -/
def State.guardStore (s : State) (cl ctx : Nat) (tile : Bool) (a n : Nat) (y : Word) : Except Act Unit :=
  if s.inArena ctx cl tile a n || (!tile && s.inSpill ctx a n) then .error (trapOf cACCESS 0 y s) else .ok ()

/-! ## The journal and marks (R306, R307) -/

/-- The entries a journal of a context holds (R308). -/
def State.journalRoom (s : State) (ctx : Nat) : Nat :=
  let c := s.ctx ctx
  if c.jbase = 0 then 0 else 4096 * 2 ^ c.jk / 80

/-- The registers of a stream with the values of its loads that are not answered yet: the loads precede what comes next (R306). -/
def Stream.loaded (t : Stream) : Hart := t.loads.foldl (fun h l => if l.slot.isNone then h.put l.dst l.value else h) t.hart

/-- The mark's snapshot of a stream (R306). -/
def State.snapshot (s : State) (core : Nat) (k : StreamId) : Snap :=
  let t := s.strm core k
  { hart := t.loaded, fpm := t.fpm, trapvec := t.trapvec, tcause := t.tcause, tepc := t.tepc, tval := t.tval, tprc := t.tprc,
    scopemode := t.scopemode, lists := t.lists, dqPos := (s.core core).dq.toList.map fun q => (q.pops, q.pushes), bqPos := t.bqAt,
    flags := (s.core core).flags, push := (s.core core).push, table := (s.core core).table, collPushed := (s.core core).collPushed, collwMarks :=
        (s.core core).collwMarks }

/-- The copy that the backsight keeps of a stream: none of one that does not run (R350). -/
def State.backCopy (s : State) (core : Nat) (k : StreamId) : Option Snap :=
  match (s.strm core k).st with
  | .idle => none | .halted => none | .arrived => none | .out => none
  | .run => some (s.snapshot core k) | .wait => some (s.snapshot core k) | .held => some (s.snapshot core k)
  | .yielded => some (s.snapshot core k)

/-- The backsight's copy of M and C taken, from which the commands that issue are counted (R350); a FORK starts them, which takes the
first one (DEDUCED log 34). -/
def State.backMark (s : State) (core : Nat) : State :=
  let m := s.backCopy core .M
  let k := s.backCopy core .C
  s.updCore core fun c => { c with back := { c.back with m := m, c := k, issued := [] } }

/-- A command of M or C that issues is noted, and with the last of a replay's pushed again the replay is over (R350; DEDUCED log 34). -/
def State.noteIssue (s : State) (core : Nat) (q : QEntry) : State :=
  match q.by_ with
  | .A => s | .X => s
  | .M | .C => s.updCore core fun c =>
    { c with back := { c.back with
      issued := c.back.issued ++ [q], fault := if c.back.again.isEmpty then none else c.back.fault } }

/-- The old bytes of a line that a store is to write. -/
def oldBytes (d : BitVec 512) (bs : List (Nat × Byte)) : List (Nat × Byte) := bs.map fun b => (b.1, lineByte d b.1)

/-- The physical address of a stream's journal: number 4 * logical core + stream of the area of its context (R308). -/
def State.journalAt (s : State) (core : Nat) (k : StreamId) : Nat :=
  let c := s.ctx (s.ctxOf core)
  c.jbase + (4 * core + stIndex k) * (4096 * 2 ^ c.jk)

/-- The 80 bytes of a journal entry, in the layout of R243: the line (tile space by its tag), the byte enables, the old bytes (R306;
DEDUCED log 73). -/
def JEntry.bytes (e : JEntry) : List Byte :=
  leBytes 8 ((if e.tile then 2 ^ 56 else 0) + 64 * e.line) ++
    leBytes 8 (e.old.foldl (fun m b => setBit m b.1 true) (0 : BitVec 64)).toNat ++ leBytes 64 (lineSets 0 e.old).toNat

/-- Bytes from an address on that lie in some lines, written through the home lines for no context; the error names the line that is held
as lost, for which the write waits (R365). -/
def State.linesPut (s : State) (a : Nat) (bs : List Byte) : List Nat → Except (Nat × State) State
  | [] => .ok s
  | line :: l =>
    let here := (upto 64).filterMap fun j => if a ≤ 64 * line + j then (bs[64 * line + j - a]?).map fun b => (j, b) else none
    if here.isEmpty then s.linesPut a bs l
    else match s.homeWrite line none here with | .ok s1 => s1.linesPut a bs l | .error (_, s1) => .error (line, s1)

/-- Whether the mark of a stream stands and its journal has no room for one more entry (R307). -/
def State.journalFull (s : State) (core : Nat) (k : StreamId) : Bool :=
  !(s.strm core k).remote.isEmpty && decide (s.journalRoom (s.ctxOf core) ≤ (s.strm core k).journal.length)

/-- A stream's journal entry for a local write while its mark stands (R306), which lies in the journal's area too (R308); with the
journal full the write waits (R307), and so it does at a lost line of the journal (R365). -/
def State.journalAdd (s : State) (core : Nat) (k : StreamId) (tile : Bool) (line : Nat) (old : List (Nat × Byte)) : Except Act State :=
  let t := s.strm core k
  if t.remote.isEmpty then .ok s
  else if s.journalFull core k then .error (.wait .journalFull s)
  else
    let e : JEntry := ⟨tile, line, old⟩
    let a := s.journalAt core k + 80 * t.journal.length
    match s.linesPut a e.bytes ((upto 3).map (a / 64 + ·)) with
    | .error (line, s1) => .error (.wait (.memory line) s1)
    | .ok s1 => .ok ((s1.settle ((upto 80).map (a + ·))).updStrm core k fun t => { t with journal := e :: t.journal })

/-! ## Home and host accesses of the current stream -/

/-- The name of a location among the releases that locations hold: host memory and tile space follow the physical addresses. -/
def Loc.key : Loc → Nat
  | .home pa => pa | .host ha => 2 ^ 61 + ha | .remote d o => 2 ^ 62 + 2 ^ 40 * d + o
/-- The name of a tile-space location. -/
def tileKey (cl t : Nat) : Nat := 2 ^ 60 + cl * tileEnd + t

/-- An access of a location by the current stream waits while its line is pinned against it (R266). -/
def State.unpinned (s : State) (key : Nat) : Except Act Unit :=
  if s.pinnedFor s.party (key / 64) then .error (.wait (.pinned (key / 64)) s) else .ok ()

/-- The part of a read by a party that precedes its race check: a pinned line and a lost line wait, poison is UE, and its consumption
by a stream an event reports (R266, R323, R365, R366). -/
def State.touchAs (s : State) (p : Party) (loc : Loc) (va : Nat) : Except Act State :=
  match loc with
  | .host ha => if s.pinnedFor p ((Loc.host ha).key / 64) then .error (.wait (.pinned ((Loc.host ha).key / 64)) s) else .ok s
  | .remote _ _ => .ok s
  | .home pa =>
    if s.pinnedFor p (pa / 64) then .error (.wait (.pinned (pa / 64)) s)
    else
      match s.homeRead (pa / 64) s.ownTag with
      | .ok s1 => .ok s1
      | .error (.lost, s1) => .error (.wait (.memory (pa / 64)) s1)
      | .error (.poison, s1) => .error (trapOf cUE 0 (BitVec.ofNat 64 va) (if p.kind == .stream &&
          !s.onStation then s1.reportPoison (pa / 64) s.curCtx else s1))

/-- A read of a stream or a station core, before its race check. -/
def State.touch (s : State) (loc : Loc) (va : Nat) : Except Act State := s.touchAs s.party loc va

/-- The race check of a plain access of a home line (R264); other classes and places are not checked (R252). -/
def State.race (s : State) (loc : Loc) (va : Nat) (c : Cls) (store : Bool) : Except Act State :=
  match loc with
  | .home pa =>
    if !c.isPlain then .ok s
    else
      match s.raceAccess (pa / 64) store with
      | .ok s1 => .ok s1
      | .error k => .error (trapOf k 0 (BitVec.ofNat 64 va) s)
  | .host _ => .ok s
  | .remote _ _ => .ok s

/-- The release fences of the current agent whose order its stores carry (R259). -/
def State.relMarks (s : State) : List FenceMark :=
  match s.cur with | .stream c k => (s.strm c k).relFences | .station n => (s.station n).relFences
/-- The releases that the current agent has read from without synchronising (R259). -/
def State.relSeen (s : State) : List Release :=
  match s.cur with | .stream c k => (s.strm c k).seen | .station n => (s.station n).seen
/-- The releases that the current agent has read from replaced. -/
def State.setSeen (s : State) (l : List Release) : State :=
  match s.cur with
  | .stream c k => s.updStrm c k fun t => { t with seen := l }
  | .station n => s.updStation n fun t => { t with seen := l }

/-- Releases read from, kept for an acquire fence (R259). -/
def State.noteSeen (s : State) (rs : List Release) : State :=
  let new := rs.filter fun r => !s.relSeen.contains r
  if new.isEmpty then s else s.setSeen (s.relSeen ++ new)

/-- What a read from some releases brings by its order: an acquire synchronises with them, and those for which it is too narrow, and those
of a weak or strong load without acquire, are left for a later acquire fence (R259, R261), which orders the load/store path alone (R260). -/
def State.orderOf (s : State) (rs : List Release) (c : Cls) : State :=
  match c with
  | .plain => s
  | .gather _ => s
  | .strong sc tier true _ =>
    (s.syncAll s.party sc tier rs).noteSeen (rs.filter fun r => r.party != s.party && (s.syncEpochs s.party sc tier r).isEmpty)
  | .strong _ _ false _ => s.noteSeen rs
  | .weak => s.noteSeen rs

/-- What a read of bytes as they stand brings by its order. -/
def State.readOrder (s : State) (pa n : Nat) (c : Cls) : State := s.orderOf (s.releasesAt pa n) c

/-- Bytes as they stand read by the current stream in a class: what it sees of them (R262), all that stands there when it reads them
fresh, and the order the read brings where it misses no write. -/
def State.seeBytes (s : State) (key : Nat) (bs : List Byte) (c : Cls) (fresh : Bool) : List Byte × State :=
  let r := s.viewRead c.isGather c.isWeak (c.isStrong || fresh) key bs
  (r.1.1, if r.1.2 = 0 then r.2.readOrder key bs.length c else r.2)

/-- The bytes at a place, the home line resident. -/
def State.bytesAt (s : State) (loc : Loc) (n : Nat) : List Byte :=
  match loc with
  | .home pa => s.physBytes pa n
  | .host ha => memBytes s.host ha n
  | .remote _ _ => []

/-- A read of bytes of one line by the current stream (DEDUCED log 44). -/
def State.readLoc (s : State) (loc : Loc) (va n : Nat) (c : Cls) : Except Act (List Byte × State) := do
  let s1 ← s.touch loc va
  let s2 ← s1.race loc va c false
  .ok (s2.seeBytes loc.key (s2.bytesAt loc n) c false)

/-- A release of the current agent, as a location holds it (R261). -/
def State.releaseAt (s : State) (pa n : Nat) (f : FenceMark) : Release :=
  ⟨pa, n, s.party.core, s.party.st, (s.kernelOf s.curCore).map (·.id), f.scope, f.tier, f.epoch, f.pin, []⟩

/-- The releases that a write of the current agent carries, left at the bytes it wrote; where one is in pin mode their line is pinned,
against the parties that none of them includes (R261, R266). -/
def State.leave (s : State) (pa n : Nat) (fs : List FenceMark) : State :=
  let q : Pin := ⟨pa / 64, s.party.core, s.party.st, fs.map fun f => (f.scope, f.tier)⟩
  { s with
    releases := s.releases ++ fs.map fun f => s.releaseAt pa n f
    pins := if fs.any (·.pin) && !s.pins.contains q then s.pins ++ [q] else s.pins }

/-- The releases that a write of the current stream leaves at the bytes it wrote (R259, R261): a plain write ends those that
stood; an atomic keeps them; a weak or strong write adds those of the release fences before it, and a release its own. The
gather path carries none (R260). -/
def State.writeOrder (s : State) (pa n : Nat) (c : Cls) (atomic : Bool) : State :=
  let s1 := if atomic then s else s.dropReleases pa n
  match c with
  | .plain => s1
  | .gather _ => s1
  | .weak => s1.leave pa n s1.relMarks
  | .strong _ _ _ false => s1.leave pa n s1.relMarks
  | .strong sc tier _ true =>
    let (e, s2) := s1.publish s1.party (s1.effScope sc tier s1.curCore)
    (s2.leave pa n (s2.relMarks ++ [⟨sc, tier, e, !s.onStation && smPin s.me.scopemode⟩])).widenPins s2.party sc tier e

/-- The bytes that stood where the current agent writes, at a base of the names of locations: with the memory system answering later, kept
for the readers that may miss the write; else every reader sees it (R262, R376; DESIGN CHOICE log 72). -/
def State.noteStore (s : State) (key : Nat) (old : List (Nat × Byte)) (c : Cls) : State :=
  if s.late && !s.onStation then s.notePast (if c.isGather then 3 else 0) s.curCore s.curSt (old.map fun b => (key + b.1, b.2))
  else s.settle (old.map fun b => key + b.1)

/-- A write of bytes of one line (offsets within the line) by the current stream, after its checks: the journal, the home
write with its owner tag, the order it carries. -/
def State.writeLoc (s : State) (loc : Loc) (bs : List (Nat × Byte)) (c : Cls) (atomic : Bool) : Except Act State :=
  match loc with
  | .remote _ _ => .ok s
  | .host ha =>
    let lo := bs.foldl (fun m b => min m b.1) 63
    let hi := bs.foldl (fun m b => max m b.1) 0
    let old := bs.map fun b => (b.1, memByte s.host (ha / 64 * 64 + b.1))
    let s0 := s.noteStore (Loc.host (ha / 64 * 64)).key old c
    let s1 := { s0 with host := bs.foldl (fun (m : Memory) (b : Nat × Byte) => memPut m (ha / 64 * 64 + b.1) b.2) s0.host }
    .ok (s1.writeOrder (Loc.host (ha / 64 * 64 + lo)).key (hi + 1 - lo) c atomic)
  | .home pa =>
    let line := pa / 64
    let own := s.ownTag
    let old := oldBytes (s.lineData line) bs
    let j := if s.onStation then .ok s else s.journalAdd s.curCore s.curSt false line old
    match j with
    | .error e => .error e
    | .ok s0 =>
      let s1 := s0.noteStore (64 * line) old c
      match s1.homeWrite line own bs with
      | .error (_, s2) => .error (.wait (.memory line) s2)
      | .ok s2 =>
        let lo := bs.foldl (fun m b => min m b.1) 63
        let hi := bs.foldl (fun m b => max m b.1) 0
        .ok (s2.writeOrder (64 * line + lo) (hi + 1 - lo) c atomic)

/-- A write of bytes of one line by the current stream: pinned and lost lines wait, a plain store is race-checked. -/
def State.storeLoc (s : State) (loc : Loc) (va : Nat) (bs : List (Nat × Byte)) (c : Cls) : Except Act State := do
  match loc with
  | .home pa =>
    if s.pinnedFor s.party (pa / 64) then .error (.wait (.pinned (pa / 64)) s)
    else if s.isLost (pa / 64) then .error (.wait (.memory (pa / 64)) s)
    else
      let s1 ← s.race loc va c true
      s1.writeLoc loc bs c false
  | .host _ => do
    s.unpinned loc.key
    s.writeLoc loc bs c false
  | .remote _ _ => .ok s

/-- Whether a request is a stream's own access, not one of its copies or collectives. -/
def RemoteKind.isAccess : RemoteKind → Bool
  | .load _ _ _ _ => true | .vload _ _ => true | .store _ => true | .atom _ _ _ => true | .copy _ => false | .coll _ => false
  | .line _ _ _ _ => false

/-- Whether a request has a tag of its own on a link: a copy or a collective as a transaction has none (R306, R335). -/
def RemoteKind.isRequest : RemoteKind → Bool
  | .load _ _ _ _ => true | .vload _ _ => true | .store _ => true | .atom _ _ _ => true | .line _ _ _ _ => true
  | .copy _ => false | .coll _ => false

/-- The cores of the current cluster whose context is the current one. -/
def State.peerCores (s : State) : List Nat :=
  ((upto 4).map fun k => 4 * s.curCl + k).filter fun c => s.ctxOf c == s.curCtx

/-- The earlier remote accesses whose completion a release or full fence at a scope waits for: at domain or system scope those of
the stream and of the streams of its context in the cluster (R261, R333). The request that the word itself waits for is none. -/
def State.releasePending (s : State) (sc : Scope) (tier : Nat) : List Nat :=
  if s.onStation || !domainScope (s.effScope sc tier s.curCore) then []
  else
    s.peerCores.flatMap fun c => [StreamId.A, .X, .M, .C].flatMap fun t =>
      (((s.strm c t).remote.filter fun r => r.kind.isAccess && s.me.waiting != some (.remoteAnswer r.tag)).map (·.tag))

/-- Whether a read of host memory by those streams has not completed, which a system-scope release waits for (R340). -/
def State.hostReadsOut (s : State) (sc : Scope) (tier : Nat) : Bool :=
  !s.onStation && s.effScope sc tier s.curCore == .system &&
    s.peerCores.any fun c => [StreamId.A, .X, .M, .C].any fun t => (s.strm c t).loads.any (·.host)

/-- What a release or full fence at a scope waits for before it goes on, if anything (R261, R333, R340). -/
def State.releaseWait (s : State) (sc : Scope) (tier : Nat) : Option WaitFor :=
  if !(s.releasePending sc tier).isEmpty then some (.requests (s.releasePending sc tier) (s.hostReadsOut sc tier))
  else if s.hostReadsOut sc tier then some (.requests [] true) else none

/-- Whether a release or full fence at a scope may go on. -/
def State.releaseReady (s : State) (sc : Scope) (tier : Nat) : Bool := (s.releaseWait sc tier).isNone

/-- A release or full fence at a scope waits here while something earlier is out. -/
def State.releaseGate (s : State) (r : Option (Scope × Nat)) : Except Act Unit :=
  match r with
  | none => .ok ()
  | some (sc, tier) => match s.releaseWait sc tier with | some w => .error (.wait w s) | none => .ok ()

/-! ## Tile-space accesses of the current stream -/

/-- Whether some byte of a tile-space range holds an uncorrectable error (R310, R314). -/
def State.storeBad (s : State) (cl t n : Nat) : Bool :=
  (s.cluster cl).badStore.any fun l => meets (64 * l) (64 * l + 63) t (t + n - 1)

/-- The UE of a read of cluster-store bytes at an address, counted for the cluster (R99, R351). -/
def State.storeUe (s : State) (cl : Nat) (y : Word) : Act := trapOf cUE 0 y (s.countErr (.cluster cl) true)

/-- Bytes of tile space. -/
def State.tileBytes (s : State) (cl t n : Nat) : List Byte := memBytes (s.cluster cl).store t n
/-- Bytes of tile space written. -/
def State.tilePuts (s : State) (cl t : Nat) (bs : List Byte) : State :=
  s.updCluster cl fun c => { c with store := memPuts c.store t bs }

/-- A tile-space store of the current stream: the journal, the replay windows it retires, the bytes. -/
def State.tileStore (s : State) (t : Nat) (bs : List Byte) : Except Act State :=
  let old := (upto bs.length).map fun i => ((t + i) % 64, memByte (s.cluster s.curCl).store (t + i))
  match s.journalAdd s.curCore s.curSt true (t / 64) old with
  | .error e => .error e
  | .ok s1 =>
    .ok (((s1.noteStore (tileKey s.curCl (t / 64 * 64)) old .plain).retireWindows s.curCl t (t + bs.length - 1)).tilePuts
      s.curCl t bs)

/-! ## Remote requests -/

/-- The requests outstanding in the package, of streams and of engines, each with its core (R335). -/
def State.allRemote (s : State) : List (Nat × RemoteReq) :=
  s.cores.toList.zipIdx.flatMap fun c => [StreamId.A, .X, .M, .C].flatMap fun k =>
    ((c.1.strm k).remote.filter fun r => r.kind.isRequest && r.answer.isNone).map fun r => (c.2, r)

/-- The checks of a remote access at issue, in the order of R332. -/
def State.remoteCheck (s : State) (dest : Nat) (c : Cls) (fadd : Bool) (y : Word) : Except Act Unit :=
  let bad (cause : BitVec 8) (sub : Nat) : Except Act Unit := .error (trapOf cause sub y s)
  match c with
  | .plain => bad cREMOTE 1
  | .gather w => if w then rest bad dest else bad cREMOTE 1
  | .weak => rest bad dest
  | .strong sc tier _ _ =>
    if fadd then bad cREMOTE 2
    else if !domainScope (s.effScope sc tier s.curCore) then bad cREMOTE 3 else rest bad dest
where
  /-- The destination and key checks. -/
  rest (bad : BitVec 8 → Nat → Except Act Unit) (dest : Nat) : Except Act Unit :=
    if dest = s.pkgId.toNat then bad cREMOTE 4
    else if (s.part s.curPart).ownKey.isNone then bad cKEY 1 else .ok ()

/-- Whether a journal lets a stream begin one more remote transaction: an area of base 0 makes each wait for quiet (R307, R308). -/
def State.markRoom (s : State) (core : Nat) (k : StreamId) : Bool :=
  (s.strm core k).remote.isEmpty || s.journalRoom (s.ctxOf core) != 0

/-- Whether a tag of the package and one of the partition's requests to a package are left (R335). -/
def State.tagRoom (s : State) (p dest : Nat) : Bool :=
  decide (s.allRemote.length < 8192) &&
    decide ((s.allRemote.filter fun r => r.2.dest == dest && s.partOf r.1 == p).length < (s.part p).dstlim)

/-- Whether the request limits let a stream issue one more request to a package (R307, R335). -/
def State.remoteRoom (s : State) (core : Nat) (k : StreamId) (dest : Nat) (quiet : Bool) : Bool :=
  let t := s.strm core k
  s.markRoom core k && (t.remote.isEmpty || !quiet) &&
    decide ((t.remote.filter fun r => r.kind.isAccess && r.answer.isNone).length < 16) && s.tagRoom (s.partOf core) dest

/-- A remote request issued by a stream: the mark sn is taken when none was outstanding (R306). -/
def State.remoteAddAt (s : State) (sn : Snap) (core : Nat) (k : StreamId) (kind : RemoteKind) (dest off : Nat) (y : Word)
    (size : Nat) (strong : Bool) (data : Nat) : State :=
  let key := match (s.part (s.partOf core)).ownKey with | some q => q.toNat | none => 0
  let r : RemoteReq := ⟨s.nextTag, kind, dest, off, y, size, strong, key, data, none, [], [], (s.strm core k).remote.isEmpty⟩
  ({ s with nextTag := s.nextTag + 1 }).updStrm core k fun t =>
    { t with remote := t.remote ++ [r], mark := if t.remote.isEmpty then some sn else t.mark }

/-- A remote request issued by a stream, its mark that of this state. -/
def State.remoteAdd (s : State) (core : Nat) (k : StreamId) (kind : RemoteKind) (dest off : Nat) (y : Word) (size : Nat)
    (strong : Bool) (data : Nat) : State :=
  s.remoteAddAt (s.snapshot core k) core k kind dest off y size strong data

/-- A remote request of the current stream, after its checks; a limit makes it wait (R335). -/
def State.remoteIssue (s : State) (kind : RemoteKind) (dest off : Nat) (y : Word) (size : Nat) (strong quiet : Bool)
    (data : Nat) : Except Act State :=
  if s.remoteRoom s.curCore s.curSt dest quiet then
    .ok (s.remoteAdd s.curCore s.curSt kind dest off y size strong data)
  else .error (.wait (.remoteLimit dest quiet) s)

/-- The request that the current stream waits for. -/
def State.awaited (s : State) : Option RemoteReq :=
  match s.me.waiting with
  | some (.remoteAnswer tag) => s.me.remote.find? (·.tag == tag)
  | _ => none

/-- A request that is answered taken off a stream; with none left the journal empties and the mark falls (R306). -/
def State.remoteDone (s : State) (core : Nat) (k : StreamId) (tag : Nat) : State :=
  s.updStrm core k fun t =>
    let l := t.remote.filter (·.tag != tag)
    if l.isEmpty then { t with remote := [], journal := [], mark := none } else { t with remote := l }

/-! ## The arena of an effect list -/

/-- One arena entry (R243): its place, the address of its line, the slot that owns it, the enabled bytes, the data. -/
structure AEntry where
  idx : Nat
  line : Word
  own : Nat
  be : BitVec 64
  data : BitVec 512
  deriving DecidableEq, Repr

/-- The arena's base address (R242). -/
def Lists.base (l : Lists) : Word := l.arena &&& ~~~0xFFFF
/-- The arena's capacity in bytes (R242). -/
def Lists.capBytes (l : Lists) : Nat := 4096 * field l.arena 15 0

/-- The trap of an arena access that cannot be made (R244). -/
def arenaFail (a : Word) (s : State) : Act := trapOf cACCESS 0x21 a s

/-- An arena doubleword's place: a bank that is not owned is ACCESS (R135), and so is a write into a spill region (R89); a PAGE fault
goes to the shadow handler while it may be resolved, by the host too (R244, R320; DEDUCED log 74). An arena in another package's memory is
no arena (DESIGN CHOICE log 93). -/
def State.arenaLoc (s : State) (off : Nat) (write : Bool) : Except Act ((Nat ⊕ Loc) × State) :=
  let a := s.me.lists.base + BitVec.ofNat 64 off
  if spaceTag a = 1 then
    if tileEnd ≤ addr56 a || !s.tileMode s.curCl (addr56 a) 8 then .error (arenaFail a s)
    else if !s.tileOwned s.curCl s.curCtx (addr56 a) 8 then .error (trapOf cACCESS 0 a s) else .ok (.inl (addr56 a), s)
  else if spaceTag a ≠ 0 then .error (arenaFail a s)
  else
    match s.locate s.curCl s.curCtx (addr56 a) write with
    | .ok (.remote _ _, s1) => .error (arenaFail a s1)
    | .ok (l, s1) => if write && s1.inSpill s.curCtx (addr56 a) 8 then .error (trapOf cACCESS 0 a s1) else .ok (.inr l, s1)
    | .error (.trap t s1) =>
      if t.cause ≠ cPAGE then .error (.trap t s1)
      else if s1.pageWaits s.curCl s.curCtx t then .error (.trap t (s1.updMe fun x => { x with heldArena := true }))
      else .error (arenaFail a s1)
    | .error e => .error e

/-- An arena doubleword read, as a weak load (R244). -/
def State.arenaGet (s : State) (off : Nat) : Except Act (Word × State) := do
  let (l, s1) ← s.arenaLoc off false
  match l with
  | .inl t =>
    s1.unpinned (tileKey s1.curCl t)
    if s1.storeBad s1.curCl t 8 then .error (s1.storeUe s1.curCl (s.me.lists.base + BitVec.ofNat 64 off))
    else .ok (BitVec.ofNat 64 (leNat (s1.tileBytes s1.curCl t 8)), s1.readOrder (tileKey s1.curCl t) 8 .weak)
  | .inr loc =>
    let s2 ← s1.touch loc (addr56 (s.me.lists.base + BitVec.ofNat 64 off))
    .ok (BitVec.ofNat 64 (leNat (s2.bytesAt loc 8)), s2.readOrder loc.key 8 .weak)

/-- An arena doubleword written, as an untracked and uncaptured weak store (R244). -/
def State.arenaPut (s : State) (off : Nat) (v : Word) : Except Act State := do
  let (l, s1) ← s.arenaLoc off true
  match l with
  | .inl t =>
    s1.unpinned (tileKey s1.curCl t)
    let s2 ← s1.tileStore t (leBytes 8 v.toNat)
    .ok (s2.writeOrder (tileKey s1.curCl t) 8 .weak false)
  | .inr (.home pa) =>
    s1.storeLoc (.home pa) (addr56 (s.me.lists.base + BitVec.ofNat 64 off)) ((upto 8).map fun i => (pa % 64 + i, wordByteOf v i)) .weak
  | .inr (.host ha) =>
    s1.storeLoc (.host ha) (addr56 (s.me.lists.base + BitVec.ofNat 64 off)) ((upto 8).map fun i => (ha % 64 + i, wordByteOf v i)) .weak
  | .inr (.remote _ _) => .ok s1
where
  /-- Byte i of a doubleword. -/
  wordByteOf (v : Word) (i : Nat) : Byte := v.extractLsb' (8 * i) 8

/-- Some doublewords of the arena read. -/
def State.arenaGets (s : State) (off : Nat) : Nat → Except Act (List Word × State)
  | 0 => .ok ([], s)
  | n + 1 => do
    let (v, s1) ← s.arenaGet off
    let (vs, s2) ← s1.arenaGets (off + 8) n
    .ok (v :: vs, s2)

/-- Some doublewords of the arena written. -/
def State.arenaPuts (s : State) (off : Nat) : List Word → Except Act State
  | [] => .ok s
  | v :: vs => do
    let s1 ← s.arenaPut off v
    s1.arenaPuts (off + 8) vs

/-- The entry that ten doublewords hold (R243). -/
def entryOf (idx : Nat) (ws : List Word) : AEntry :=
  let w0 := ws.getD 0 0
  { idx := idx, line := w0 &&& ~~~63, own := field w0 5 0, be := ws.getD 1 0,
    data := BitVec.ofNat 512 ((ws.drop 2).foldr (fun w acc => w.toNat + 2 ^ 64 * acc) 0) }

/-- The doublewords of an entry (R243). -/
def entryWords (e : AEntry) : List Word :=
  [(e.line &&& ~~~63) ||| BitVec.ofNat 64 (e.own % 64), e.be] ++ (upto 8).map fun i => e.data.extractLsb' (64 * i) 64

/-- The entries of the arena from entry i on, in ascending address. -/
def State.arenaFrom (s : State) (i : Nat) : Nat → Except Act (List AEntry × State)
  | 0 => .ok ([], s)
  | n + 1 => do
    let (ws, s1) ← s.arenaGets (80 * i) 10
    let (es, s2) ← s1.arenaFrom (i + 1) n
    .ok (entryOf i ws :: es, s2)

/-- Every entry in use (R243). -/
def State.arenaAll (s : State) : Except Act (List AEntry × State) := s.arenaFrom 0 (s.me.lists.used / 80)

/-- The list of a slot (R243): its entries with an enabled byte, in list order. -/
def listOf (es : List AEntry) (slot : Nat) : List AEntry := es.filter fun e => e.own == slot && e.be != 0

/-- The current stream's effect-list state updated. -/
def State.updLists (s : State) (f : Lists → Lists) : State := s.updMe fun t => { t with lists := f t.lists }

/-- Entries appended to a slot's list (R246): EFCAP, SUB 0, when the arena has no room for all of them (DEDUCED log 51). -/
def State.arenaAppend (s : State) (slot : Nat) (es : List (Word × BitVec 64 × BitVec 512)) : Except Act State := do
  let l := s.me.lists
  if l.capBytes < l.used + 80 * es.length then
    .error (trapOf cEFCAP 0 (BitVec.ofNat 64 (l.used + 80 * es.length)) s)
  else
    let ws := es.flatMap fun e => entryWords ⟨0, e.1, slot, e.2.1, e.2.2⟩
    let s1 ← s.arenaPuts l.used ws
    .ok (s1.updLists fun l => { l with used := l.used + 80 * es.length })

/-- The byte that the open levels, innermost first and newest entry first, hold for a global address (R247). -/
def listByte (es : List AEntry) (opened : List Nat) (a : Nat) : Option Byte :=
  opened.findSome? fun slot =>
    es.reverse.findSome? fun e =>
      if e.own == slot && e.be.getLsbD (a % 64) && e.line.toNat == a / 64 * 64 then some (lineByte e.data (a % 64)) else none

/-- Bytes of a global read through the lists of the current stream: none where memory supplies the byte (R247). -/
def State.listBytes (s : State) (a n : Nat) : Except Act (List (Option Byte) × State) := do
  let (es, s1) ← s.arenaAll
  .ok ((upto n).map fun i => listByte es s1.me.lists.opened (a + i), s1)

/-- The enabled bytes and data of an entry that holds bytes at offsets of one line. -/
def captured (line : Word) (bs : List (Nat × Byte)) : Word × BitVec 64 × BitVec 512 :=
  (line, bs.foldl (fun m b => setBit m b.1 true) 0, lineSets 0 bs)

end Sys2Proof.Machine
end

