-- ==== Sys2Proof/Machine/Window.lean ====
section
/-! DEFINITION. The registers of the physical function's BAR0, as a station core or the host reaches them (R152, R203, R204,
R340, R342, R343, R347, R362, R363, R367). -/

namespace Sys2Proof.Machine

/-! ## Partition registers -/

/-- Whether two partitions own one resource (R343). -/
def State.ownedTwice (s : State) (p : Nat) : Bool :=
  (upto 16).any fun q =>
    q != p && (((s.part p).pclu &&& (s.part q).pclu) != 0 || ((s.part p).pslice &&& (s.part q).pslice) != 0 ||
      ((s.part p).phbm &&& (s.part q).phbm) != 0 || ((s.part p).plane &&& (s.part q).plane) != 0)

/-- Whether every owned cluster and HBM stack has reported ready (R343, R347). -/
def State.ownedReady (s : State) (p : Nat) : Bool :=
  ((s.part p).pclu &&& ~~~s.cluUp) == 0 &&
    (upto 256).all fun i => !(s.part p).phbm.getLsbD i || s.hbmUp.getLsbD (i / 16)

/-- The contexts of a partition, which are not FREE. -/
def State.contextsOf (s : State) (p : Nat) : List Nat :=
  (upto 1024).filter fun c => (s.ctx c).part == p && (s.ctx c).state != .free

/-- Whether a BUILD of a partition is allowed (R343). -/
def State.mayBuild (s : State) (p : Nat) : Bool :=
  (s.contextsOf p).all fun c =>
    (s.ctx c).state != .running && (s.ctx c).state != .yielding && (s.ctx c).state != .saving

/-- A write of PSTAT.STATE (R336, R342, R343). -/
def State.writePstat (s : State) (p : Nat) (v : BitVec 2) : State :=
  if v = 2 then
    if (s.part p).pstat = 1 && s.ownedReady p && !s.ownedTwice p then s.updPart p fun x => { x with pstat := 2 } else s
  else if v = 1 then
    if s.mayBuild p then s.updPart p fun x => { x with pstat := 1, ownKey := none, accept := [] } else s
  else s.updPart p fun x => { x with pstat := v }

/-- The staging bytes of some slices zeroed (R151). -/
def State.zeroStaging (s : State) (m : BitVec 64) : State :=
  { s with slices := s.slices.mapIdx fun i x => if m.getLsbD i then { x with staging := [] } else x }

/-- A write of PKILL (R367): GO starts the termination of a context of the partition, or is refused. -/
def State.writePkill (s : State) (p : Nat) (v : Word) : State :=
  let old := (s.part p).pkill
  let c := field v 9 0
  let st := field v 23 16
  if old.getLsbD 63 || !v.getLsbD 63 then s
  else if (s.ctx c).part != p || (s.ctx c).state == .free || (st != 0x0C && st != 0x0D) ||
      field v 61 24 != 0 || field v 15 10 != 0 then
    s.updPart p fun x => { x with pkill := setBit x.pkill 62 true }
  else
    (s.updPart p fun x => { x with pkill := BitVec.ofNat 64 (2 ^ 63 + st * 2 ^ 16 + c) }).updCtx c fun x =>
      { x with state := .terminating, status := some (BitVec.ofNat 8 st) }

/-- A register of a partition read (R342, R367). -/
def Partition.reg (p : Partition) (o : Nat) : Word :=
  match o with
  | 0x000 => p.pclu.setWidth 64
  | 0x008 => p.pclu.extractLsb' 64 64
  | 0x010 => p.pslice
  | 0x018 => BitVec.ofNat 64 p.pstage
  | 0x020 => p.phbm.extractLsb' 0 64
  | 0x028 => p.phbm.extractLsb' 64 64
  | 0x030 => p.phbm.extractLsb' 128 64
  | 0x038 => p.phbm.extractLsb' 192 64
  | 0x040 => p.plane
  | 0x048 => BitVec.ofNat 64 p.mirdelta
  | 0x050 => BitVec.ofNat 64 p.preqwait
  | 0x058 => BitVec.ofNat 64 p.pritime
  | 0x060 => BitVec.ofNat 64 p.rtime
  | 0x068 => BitVec.ofNat 64 p.dstlim
  | 0x070 => BitVec.ofNat 64 p.expbase
  | 0x078 => BitVec.ofNat 64 p.expsize
  | 0x080 => BitVec.ofNat 64 p.sumbase
  | 0x088 => p.pstat.setWidth 64
  | 0x090 => p.pkill
  | _ => 0

/-- A write of an ownership register, ignored unless the partition is in BUILD (R342). -/
def State.inBuild (s : State) (p : Nat) (f : Partition → Partition) : State :=
  if (s.part p).pstat = 1 then s.updPart p f else s

/-- A quarter of PHBM replaced. -/
def setQuarter (h : BitVec 256) (i : Nat) (v : Word) : BitVec 256 :=
  (h &&& ~~~((BitVec.setWidth 256 (BitVec.allOnes 64)) <<< (64 * i))) ||| (v.setWidth 256 <<< (64 * i))

/-- A register of a partition written by a station core (R151, R342, R367); a value outside a field's range leaves the register
unchanged, and reserved bits are ignored (R6). -/
def State.writePart (s : State) (p o : Nat) (v : Word) : State :=
  let range (k lo hi : Nat) (f : Nat → Partition → Partition) : State :=
    if lo ≤ k ∧ k ≤ hi then s.updPart p (f k) else s
  match o with
  | 0x000 => s.inBuild p fun x => { x with pclu := x.pclu.extractLsb' 64 64 ++ v }
  | 0x008 => s.inBuild p fun x => { x with pclu := v ++ x.pclu.extractLsb' 0 64 }
  | 0x010 =>
    if (s.part p).pstat = 1 then
      (s.updPart p fun x => { x with pslice := v }).zeroStaging (v &&& ~~~(s.part p).pslice)
    else s
  | 0x018 =>
    if (s.part p).pstat = 1 && decide (field v 4 0 ≤ 16) then
      let s1 := s.updPart p fun x => { x with pstage := field v 4 0 }
      if (s.part p).pstage = field v 4 0 then s1 else s1.zeroStaging (s.part p).pslice
    else s
  | 0x020 => s.inBuild p fun x => { x with phbm := setQuarter x.phbm 0 v }
  | 0x028 => s.inBuild p fun x => { x with phbm := setQuarter x.phbm 1 v }
  | 0x030 => s.inBuild p fun x => { x with phbm := setQuarter x.phbm 2 v }
  | 0x038 => s.inBuild p fun x => { x with phbm := setQuarter x.phbm 3 v }
  | 0x040 => s.inBuild p fun x => { x with plane := v }
  | 0x048 => s.inBuild p fun x => { x with mirdelta := field v 51 16 * 65536 }
  | 0x050 => s.updPart p fun x => { x with preqwait := field v 31 0 }
  | 0x058 => range (field v 19 0) 1 1000000 fun k x => { x with pritime := k }
  | 0x060 => range (field v 19 0) 1 1000000 fun k x => { x with rtime := k }
  | 0x068 => range (field v 10 0) 1 1024 fun k x => { x with dstlim := k }
  | 0x070 => s.updPart p fun x => { x with expbase := field v 51 16 * 65536 }
  | 0x078 => s.updPart p fun x => { x with expsize := field v 24 0 }
  | 0x080 => s.updPart p fun x => { x with sumbase := field v 51 6 * 64 }
  | 0x088 => s.writePstat p (v.setWidth 2)
  | 0x090 => s.writePkill p v
  | _ => s

/-! ## Plats (R203, R204) -/

/-- A plat of a partition. -/
def State.plat (s : State) (p k : Nat) : Plat := (s.part p).plats.getD k ⟨0, 0, 0, 0⟩
/-- A plat of a partition replaced. -/
def State.setPlat (s : State) (p k : Nat) (x : Plat) : State :=
  s.updPart p fun q => { q with plats := q.plats.setIfInBounds k x }

/-- The ranges of an enabled plat: its window and, with a header plane, its planes (R203). -/
def Plat.ranges (p : Plat) : List (Nat × Nat) :=
  (p.base, p.blocks * p.blk) ::
    if p.hp then [(p.payBase, p.blocks * (p.blk - 2)), (p.hdrBase, 2 * p.blocks)] else []

/-- Whether two ranges of bytes overlap. -/
def overlaps (a b : Nat × Nat) : Bool := decide (a.1 < b.1 + b.2) && decide (b.1 < a.1 + a.2)

/-- Whether a write that sets EN is accepted (R204), for the plat as the write would leave it; `others` are the other enabled
plats of the package. A base that R203 does not allow, WIN off 64 KiB or PAY or HDR off 64 bytes, is refused too (DESIGN CHOICE log 100). -/
def State.platOk (s : State) (p : Nat) (x : Plat) (others : List Plat) : Bool :=
  let n := x.blocks * x.blk
  x.cls?.isSome && field x.win 61 52 == 0 && field x.win 15 0 == 0 &&
    (if x.hp then decide (2 ^ 51 ≤ x.base) && decide (x.base + n ≤ 2 ^ 52) && x.payBase % 64 == 0 && x.hdrBase % 64 == 0
     else decide (x.base + n ≤ 2 ^ 51)) &&
    !(others.any fun o => x.ranges.any fun a => o.ranges.any fun b => overlaps a b) &&
    (match x.ranges with
     | [w, a, b] => !overlaps w a && !overlaps w b && !overlaps a b && s.ownsRange p a.1 a.2 && s.ownsRange p b.1 b.2
     | w :: _ => s.ownsRange p w.1 w.2
     | [] => false)

/-- The lines of a range written back and invalidated (R204). -/
def State.flushRange (s : State) (lo n : Nat) : State :=
  ((s.l2.map (·.1)).filter fun l => overlaps (64 * l, 64) (lo, n)).foldl (fun s l => s.evict l) s

/-- A write of PLATWIN (R203, R204). A refused write keeps the old WIN field, and one that sets EN on a plat that is enabled, accepted or
refused, writes no line of the old window back (DESIGN CHOICE log 100). -/
def State.writePlatwin (s : State) (p k : Nat) (v : Word) : State :=
  let x := s.plat p k
  let others := ((upto 16).flatMap fun q => (upto 32).filterMap fun j =>
    if q = p ∧ j = k then none else if (s.plat q j).en then some (s.plat q j) else none)
  if v.getLsbD 63 then
    let y := { x with win := setBit v 62 false }
    if s.platOk p y others then s.setPlat p k y
    else s.setPlat p k { x with win := setBit (setBit x.win 63 false) 62 true }
  else
    let s1 := if x.en then s.flushRange x.base (x.blocks * x.blk) else s
    s1.setPlat p k { x with win := (v &&& 0x000FFFFFFFFFFFFF) ||| (x.win &&& 0x4000000000000000) }

/-- A register of a plat written; PLATCTL, PLATPAY and PLATHDR are ignored while EN = 1 (R203). -/
def State.writePlat (s : State) (p k o : Nat) (v : Word) : State :=
  let x := s.plat p k
  if o = 0 then s.writePlatwin p k v
  else if x.en then s
  else if o = 8 then s.setPlat p k { x with ctl := v &&& 0x000003FFFFFFFFCF }
  else if o = 16 then s.setPlat p k { x with pay := v &&& 0x000FFFFFFFFFFFFF }
  else if o = 24 then s.setPlat p k { x with hdr := v &&& 0x000FFFFFFFFFFFFF } else s

/-! ## The mailbox (R363) -/

/-- A doorbell: the payload is copied into a HOST event; while the queue is full it is held (R345, R363; DEDUCED log 54). -/
def State.doorbell (s : State) (p : Nat) : State :=
  let m := (s.part p).mbox
  if s.events.length < 4096 && (s.part p).mboxHeld.isNone then s.raise ⟨3, p, p, m⟩
  else s.updPart p fun x => { x with mboxHeld := some m }

/-- A mailbox register written. -/
def State.writeMbox (s : State) (p o : Nat) (v : Word) : State :=
  if o < 0x30 then s.updPart p fun x => { x with mbox := x.mbox.setIfInBounds (o / 8) v }
  else if o = 0x30 then s.doorbell p else s

/-! ## The window -/

/-- READY0 (R347). -/
def State.ready0 (s : State) : Word :=
  let parts : BitVec 16 := (upto 16).foldl (fun m p => setBit m p ((s.part p).pstat == 2)) 0
  BitVec.ofNat 64 (parts.toNat * 2 ^ 40 + (s.portUp &&& ~~~s.portFenced).toNat * 2 ^ 16 + s.hbmUp.toNat)

/-- One byte of the slice-latency table: 1 to 255, not given; it follows the physical cluster that the core has and the die-to-die ports that
are fenced, so that it is rewritten when one of them changes (R11, R152, R341, R348; DESIGN CHOICE log 6). -/
def State.latencyByte (s : State) (core slice : Nat) : Nat :=
  max 1 (Config.freeByte (core + 512 * ((s.coreMap.getD (core / 4) 0).toNat + 256 * s.d2dFenced.toNat)) slice).toNat

/-- A doubleword register of BAR0 read at an offset that is a multiple of 8; a place with no register reads zero (R340). -/
def State.regRead (s : State) (o : Nat) : Word :=
  if 0x100000 ≤ o ∧ o < 0x108000 then
    let i := o - 0x100000
    BitVec.ofNat 64 ((upto 8).foldr (fun j acc => s.latencyByte ((i + j) / 64) ((i + j) % 64) + 256 * acc) 0)
  else if 0x200000 ≤ o ∧ o < 0x204000 then
    let i := o - 0x200000
    let x := s.plat (i / 0x400) (i % 0x400 / 32)
    match i % 32 with | 0 => x.win | 8 => x.ctl | 16 => x.pay | _ => x.hdr
  else if 0x400000 ≤ o ∧ o < 0x410000 then (s.part ((o - 0x400000) / 0x1000)).reg ((o - 0x400000) % 0x1000)
  else if o = 0x500000 then s.ready0
  else if o = 0x500008 then s.cluUp.extractLsb' 0 64
  else if o = 0x500010 then s.cluUp.extractLsb' 64 64
  else if o = 0x500020 then s.bootstat
  else if 0x500040 ≤ o ∧ o < 0x500068 then s.evvec.getD ((o - 0x500040) / 8) 0
  else if 0x500200 ≤ o ∧ o < 0x500600 then
    let i := (o - 0x500200) % 0x40
    if i < 0x30 then (s.part ((o - 0x500200) / 0x40)).mbox.getD (i / 8) 0 else 0
  else 0

/-- A doubleword register of BAR0 written by the host (R203, R342, R363): plats and mailboxes; the partition registers and
those of R347 and R362 are not the host's to write. -/
def State.hostWrite (s : State) (o : Nat) (v : Word) : State :=
  if 0x200000 ≤ o ∧ o < 0x204000 then
    let i := o - 0x200000
    s.writePlat (i / 0x400) (i % 0x400 / 32) (i % 32) v
  else if 0x500200 ≤ o ∧ o < 0x500600 then s.writeMbox ((o - 0x500200) / 0x40) ((o - 0x500200) % 0x40) v
  else s

/-- A doubleword register of BAR0 written by a station core (R342, R362). -/
def State.regWrite (s : State) (o : Nat) (v : Word) : State :=
  if 0x400000 ≤ o ∧ o < 0x410000 then s.writePart ((o - 0x400000) / 0x1000) ((o - 0x400000) % 0x1000) v
  else if 0x500040 ≤ o ∧ o < 0x500068 then { s with evvec := s.evvec.setIfInBounds ((o - 0x500040) / 8) v }
  else s.hostWrite o v

end Sys2Proof.Machine
end

