-- ==== Sys2Proof/Machine/LoadStore.lean ====
section
/-! DEFINITION. LD, ST, ATOM, FENCE and XFENCE: majors 0x0C to 0x0F (R254 to R262). -/

namespace Sys2Proof.Machine

open Host (Outcome)

/-! ## The frame of a memory instruction -/

/-- The common beginning and end of a memory instruction: guard, allotment, busy registers, the source values; the access
itself; then the pops of the sources (R92, R101). A trap or a wait leaves the queues as they were. -/
def State.memBegin (s : State) (g : Guard) (srcs dsts : List XReg) (k : List Word → Except Act State) : Act :=
  if !s.guardOn g then .done s
  else if (srcs ++ dsts).any (fun r => decide (s.allotOf ≤ r.toNat)) then trapOf cALLOT 0 0 s
  else if (srcs ++ dsts).any s.regBusy then .wait (.loads (srcs ++ dsts)) s
  else
    match s.readAll srcs with
    | .error w => .wait w s
    | .ok (vs, _) =>
      match k vs with
      | .error a => a
      | .ok s1 =>
        match s1.readAll srcs with
        | .ok (_, s2) => .done s2
        | .error w => .wait w s

/-- The bytes of a size code (R51). -/
def sizeBytes : MemSize → Nat
  | .b1 => 1 | .b2 => 2 | .b4 => 4 | .b8 => 8

/-- A loaded value extended to 64 bits (R256). -/
def extend (sx : Bool) (n : Nat) (bs : List Byte) : Word :=
  let v : Word := BitVec.ofNat 64 (leNat bs)
  if sx then signFrom v (8 * n - 1) else v

/-- The class of a load (R51, R252). -/
def ldCls (c : LdClass) (sc : Scope) : Cls :=
  match c with
  | .plain => .plain | .weak => .weak | .strong => .strong sc 0 false false | .acquire => .strong sc 0 true false
/-- The class of a store (R51, R252). -/
def stCls (c : StClass) (sc : Scope) : Cls :=
  match c with
  | .plain => .plain | .weak => .weak | .strong => .strong sc 0 false false | .release => .strong sc 0 false true
/-- Whether a class acquires. -/
def Cls.acquires : Cls → Bool
  | .plain => false | .weak => false | .gather _ => false | .strong _ _ a _ => a
/-- The scope of a release, if the class releases. -/
def Cls.releases : Cls → Option (Scope × Nat)
  | .plain => none | .weak => none | .gather _ => none | .strong sc t _ r => if r then some (sc, t) else none

/-- The space that an address operand names for a stream: tile space or global (R256). -/
inductive Space where
  | tile (t : Nat) | global (a : Nat)
  deriving DecidableEq, Repr

/-- The space and offset of an access of n bytes: its operand checks, then ALIGN, then the bank's owner (R101, R135, R256). -/
def State.resolve (s : State) (tileForm : Bool) (y : Word) (n : Nat) : Except Act Space :=
  if tileForm || spaceTag y == 1 then
    let t := addr56 y
    if tileEnd ≤ t then .error (trapOf cACCESS 0 y s)
    else if !s.tileMode s.curCl t (min n (tileEnd - t)) then .error (trapOf cACCESS 0 y s)
    else if t % n ≠ 0 then .error (trapOf cALIGN 0 y s)
    else if !s.tileOwned s.curCl s.curCtx t n then .error (trapOf cACCESS 0 y s)
    else .ok (.tile t)
  else if spaceTag y ≠ 0 then .error (trapOf cACCESS 0 y s)
  else if addr56 y % n ≠ 0 then .error (trapOf cALIGN 0 y s)
  else .ok (.global (addr56 y))

/-! ## Loads -/

/-- The index of the data-queue slot that a fault of the load at this pc left held (R94). -/
def State.heldAt (s : State) (q : Nat) : Option Nat :=
  (s.dqOf q).entries.findIdx? fun e => match e with | .heldSlot id => id == s.pc.toNat | _ => false

/-- Whether a load's data-queue slot can be had now: the held slot, room, or a closed queue (R92, R94). -/
def State.slotReady (s : State) (q : Nat) : Bool :=
  (s.dqOf q).closed || (s.heldAt q).isSome || decide ((s.dqOf q).entries.length < 64)

/-- An entry put in a load's slot: the held one, else the tail (R94); a closed queue discards it and sets STAT.DQE (R93). -/
def State.putSlot (s : State) (q : Nat) (e : DqEntry) : State :=
  let d := s.dqOf q
  if d.closed then s.setStat statDQE
  else
    match s.heldAt q with
    | some i => s.setDq q { d with entries := d.entries.set i e }
    | none => s.setDq q { d with entries := if d.again then d.entries else d.entries ++ [e], pushes := d.pushes + 1 }

/-- A fault of a load of stream A leaves its data-queue slot held (R94); a load of X holds none (R102). -/
def State.holdSlot (s : State) (d : XReg) (a : Act) : Act :=
  match s.port? d, a with
  | some q, .trap t s1 =>
    if s.curSt != .A || (s1.dqOf q).closed then .trap t s1 else .trap t (s1.putSlot q (.heldSlot s.pc.toNat))
  | _, _ => a

/-- A data-queue slot reserved for a load, unless the queue is closed (R94). -/
def State.reserveSlot (s : State) (q : Nat) : Option (Nat × Nat) × State :=
  if (s.dqOf q).closed then (none, s)
  else
    let id := (s.dqOf q).nextId
    let s1 := s.putSlot q (.reserved id)
    (some (q, id), s1.setDq q { s1.dqOf q with nextId := id + 1 })

/-- A load's value written: now, or later when the memory system answers later (DESIGN CHOICE log 2); host memory's answer is noted
for R340. -/
def State.loadInto (s : State) (d : XReg) (v : Word) (later host : Bool) : State :=
  match s.port? d with
  | some q =>
    if later && !(s.dqOf q).closed then
      let r := s.reserveSlot q
      r.2.updMe fun t => { t with loads := t.loads ++ [⟨d, r.1, v, host⟩] }
    else s.putSlot q (.filled v)
  | none =>
    if later && d != 0 then s.updMe fun t => { t with loads := t.loads ++ [⟨d, none, v, host⟩] }
    else s.setHart (s.hart.put d v)

/-- A reserved entry of a data queue filled (R94). -/
def DataQueue.fillSlot (q : DataQueue) (id : Nat) (v : Word) : DataQueue :=
  { q with entries := q.entries.map fun e => if e = .reserved id then .filled v else e }

/-- A reserved slot of a core filled (R94). -/
def State.fillSlot (s : State) (core : Nat) (x : Nat × Nat) (v : Word) : State :=
  s.updCore core fun c => { c with dq := c.dq.setIfInBounds x.1 ((c.dq.getD x.1 dqReset).fillSlot x.2 v) }

/-- What an answered remote read brings by its order: with the releases of this package from which its value was read an acquire
synchronises, and any other load keeps them for an acquire fence (R259, R261; DESIGN CHOICE log 71). -/
def State.remoteOrder (s : State) (r : RemoteReq) (c : Cls) : State := s.orderOf r.own c

/-- The slot that a remote load reserved is held for its word, which did not complete (R94). -/
def State.holdReserved (s : State) (r : RemoteReq) : State :=
  match r.kind with
  | .load _ _ _ (some x) =>
    let d := s.dqOf x.1
    s.setDq x.1 { d with entries := d.entries.map fun e => if e = .reserved x.2 then .heldSlot s.pc.toNat else e }
  | _ => s

/-- A remote load whose word waits for its answer goes on with it (R94, R333): the bytes that open lists hold come from them (R247). A list
that cannot be read ends the request, and the word issues again. -/
def State.loadBack (s : State) (r : RemoteReq) (a n : Nat) (sx : Bool) (c : Cls) (d : XReg) : Except Act State :=
  match r.answer with
  | none => .error (.wait (.remoteAnswer r.tag) s)
  | some v =>
    match (if s.collecting then s.listBytes a n else .ok ([], s)) with
    | .error (.trap t s1) => .error (.trap t ((s1.remoteDone s.curCore s.curSt r.tag).holdReserved r))
    | .error (.wait _ s1) => .error (.wait (.remoteAnswer r.tag) s1)
    | .error e => .error e
    | .ok (lb, s1) =>
      let w := extend sx n ((leBytes n v).zipIdx.map fun b => (lb.getD b.2 none).getD b.1)
      let s2 := (s1.remoteOrder r c).remoteDone s.curCore s.curSt r.tag
      match r.kind with
      | .load _ _ _ (some x) => .ok (s2.fillSlot s.curCore x w)
      | _ => .ok (s2.loadInto d w false false)

/-- A load of a remote address (R331 to R335): a plain one traps; a data-queue destination reserves its slot (R94); one that
acquires waits for its answer (`loadBack`); any other goes on. The bytes that open lists hold are `lb` (R247): with any, the load waits too. -/
def State.remoteLoad (s : State) (dest off : Nat) (y : Word) (n : Nat) (sx : Bool) (c : Cls) (d : XReg)
    (lb : List (Option Byte)) : Except Act State := do
  s.remoteCheck dest c false y
  if n ≤ lb.length ∧ lb.all Option.isSome then .ok (s.loadInto d (extend sx n (lb.map fun b => b.getD 0)) false false)
  else if !s.remoteRoom s.curCore s.curSt dest false then .error (.wait (.remoteLimit dest false) s)
  else
    s.unpinned (Loc.remote dest off).key
    let waits := c.acquires || lb.any Option.isSome || (s.port? d).any (fun q => (s.dqOf q).closed)
    let issue (s : State) (slot : Option (Nat × Nat)) (s1 : State) : State :=
      s1.remoteAddAt (s.snapshot s.curCore s.curSt) s.curCore s.curSt (.load d sx waits slot) dest off y n c.isStrong 0
    let s2 := match s.port? d with
      | none => issue s none s
      | some q => let r := s.reserveSlot q; issue s r.1 r.2
    if waits then .error (.wait (.remoteAnswer s.nextTag) s2) else .ok s2

/-- A load of global memory by a stream (R247, R256). -/
def State.globalLoad (s : State) (a : Nat) (y : Word) (n : Nat) (sx : Bool) (c : Cls) (d : XReg) : Except Act State := do
  let (loc, s1) ← s.locate s.curCl s.curCtx a false
  let host := match loc with | .host _ => true | .home _ => false | .remote _ _ => false
  let (lb, s2) ← if s1.collecting then s1.listBytes a n else .ok ([], s1)
  match loc with
  | .remote dest off => s2.remoteLoad dest off y n sx c d lb
  | _ =>
    let later := s.late && !c.acquires
    if s1.collecting then
      if lb.all Option.isSome then .ok (s2.loadInto d (extend sx n (lb.map fun b => b.getD 0)) false false)
      else
        let (bs, s3) ← s2.readLoc loc a n c
        .ok (s3.loadInto d (extend sx n ((lb.zip bs).map fun x => x.1.getD x.2)) later host)
    else
      let (bs, s3) ← s2.readLoc loc a n c
      .ok (s3.loadInto d (extend sx n bs) later host)

/-- An access of a station core by physical address (R362, R377; DEDUCED log 9): registers in aligned doublewords, home memory, and
nothing else (DEDUCED log 46). -/
def State.stationLoc (s : State) (y : Word) (n : Nat) : Except Act (Nat ⊕ Nat) :=
  match placeOf y.toNat with
  | .regs =>
    if n ≠ 8 || y.toNat % 8 ≠ 0 then .error (trapOf cACCESS 0 y s) else .ok (.inl (y.toNat - regBase))
  | .hbm =>
    if y.toNat % n ≠ 0 then .error (trapOf cALIGN 0 y s)
    else if s.inPlane y.toNat then .error (trapOf cACCESS 0 y s) else .ok (.inr y.toNat)
  | .aperture =>
    if (s.platAt y.toNat).isNone then .error (trapOf cACCESS 0 y s)
    else if y.toNat % n ≠ 0 then .error (trapOf cALIGN 0 y s) else .ok (.inr y.toNat)
  | .remote => .error (trapOf cACCESS 0 y s)
  | .none => .error (trapOf cACCESS 0 y s)

/-- A load by a station core. -/
def State.stationLoad (s : State) (tileForm : Bool) (y : Word) (n : Nat) (sx : Bool) (c : Cls) (d : XReg) :
    Except Act State := do
  if tileForm then .error (trapOf cACCESS 0 y s) else
  match ← s.stationLoc y n with
  | .inl o => .ok (s.setHart (s.hart.put d (s.regRead o)))
  | .inr pa =>
    let (bs, s1) ← s.readLoc (.home pa) pa n c
    .ok (s1.setHart (s1.hart.put d (extend sx n bs)))

/-- LD with an offset more than the word's (an RPT stride on b adds to it, R53, R256). -/
def actLdAt (extra : Nat) (g : Guard) (sx tile : Bool) (cls : LdClass) (sz : MemSize) (sc : Scope) (d a : XReg)
    (off : BitVec 17) (s : State) : Act :=
  s.memBegin g [a] [d] fun vs =>
    let y := leaW (vs.getD 0 0) (sext64 off + BitVec.ofNat 64 extra)
    let n := sizeBytes sz
    let c := ldCls cls sc
    if s.onStation then s.stationLoad tile y n sx c d
    else if s.collecting && c.isStrong then .error (trapOf cEFSYNC 0 0 s)
    else
      let body : Except Act State := do
        match ← s.resolve tile y n with
        | .tile t =>
          s.unpinned (tileKey s.curCl t)
          if s.storeBad s.curCl t n then .error (s.storeUe s.curCl y)
          else
            let r := s.seeBytes (tileKey s.curCl t) (s.tileBytes s.curCl t n) c false
            .ok (r.2.loadInto d (extend sx n r.1) false false)
        | .global ga => match s.awaited with | some r => s.loadBack r ga n sx c d | none => s.globalLoad ga y n sx c d
      match s.port? d with
      | none => body
      | some q =>
        if s.awaited.isNone && !s.slotReady q then .error (.wait (.dqSlot q) s)
        else match body with | .ok s1 => .ok s1 | .error e => .error (s.holdSlot d e)

/-- LD (R255 to R257). -/
def actLd (g : Guard) (sx tile : Bool) (cls : LdClass) (sz : MemSize) (sc : Scope) (d a : XReg) (off : BitVec 17)
    (s : State) : Act := actLdAt 0 g sx tile cls sz sc d a off s

/-! ## Stores -/

/-- The low n bytes of a register as offsets of a line. -/
def storeBytes (a n : Nat) (v : Word) : List (Nat × Byte) :=
  (upto n).map fun i => (a % 64 + i, v.extractLsb' (8 * i) 8)

/-- A store to a remote address (R331 to R335). At its issue it leaves its releases at the location, as a local one does
(R259, R261, R263). -/
def State.remoteStore (s : State) (dest off : Nat) (y : Word) (n : Nat) (c : Cls) (v : Word) : Except Act State := do
  if s.collecting then .error (trapOf cEFSYNC 1 y s) else
  s.remoteCheck dest c false y
  s.unpinned (Loc.remote dest off).key
  let s1 ← s.remoteIssue (.store false) dest off y n c.isStrong false (field v (8 * n - 1) 0)
  .ok (s1.writeOrder (Loc.remote dest off).key n c false)

/-- A store to global memory by a stream (R246, R256). -/
def State.globalStore (s : State) (a : Nat) (y : Word) (n : Nat) (c : Cls) (v : Word) : Except Act State := do
  let (loc, s1) ← s.locate s.curCl s.curCtx a true
  s1.guardStore s.curCl s.curCtx false a n y
  match loc with
  | .remote dest off => s1.remoteStore dest off y n c v
  | _ =>
    if s1.collecting then
      s1.arenaAppend (s1.me.lists.opened.headD 0) [captured (BitVec.ofNat 64 (a / 64 * 64)) (storeBytes a n v)]
    else s1.storeLoc loc a (storeBytes a n v) c

/-- A store by a station core (R362). -/
def State.stationStore (s : State) (tileForm : Bool) (y : Word) (n : Nat) (c : Cls) (v : Word) : Except Act State := do
  if tileForm then .error (trapOf cACCESS 0 y s) else
  match ← s.stationLoc y n with
  | .inl o => .ok (s.regWrite o v)
  | .inr pa => s.storeLoc (.home pa) pa (storeBytes pa n v) c

/-- ST with an offset more than the word's (R53, R256). -/
def actStAt (extra : Nat) (g : Guard) (tile : Bool) (cls : StClass) (sz : MemSize) (sc : Scope) (d a : XReg)
    (off : BitVec 17) (s : State) : Act :=
  s.memBegin g [a, d] [] fun vs =>
    let y := leaW (vs.getD 0 0) (sext64 off + BitVec.ofNat 64 extra)
    let v := vs.getD 1 0
    let n := sizeBytes sz
    let c := stCls cls sc
    if s.onStation then s.stationStore tile y n c v
    else if s.collecting && c.isStrong then .error (trapOf cEFSYNC 0 0 s)
    else do
      match ← s.resolve tile y n with
      | .tile t =>
        s.guardStore s.curCl s.curCtx true t n y
        s.unpinned (tileKey s.curCl t)
        s.releaseGate c.releases
        let s1 ← s.tileStore t ((upto n).map fun i => v.extractLsb' (8 * i) 8)
        .ok (s1.writeOrder (tileKey s.curCl t) n c false)
      | .global ga =>
        s.releaseGate c.releases
        s.globalStore ga y n c v

/-- ST (R255 to R257). -/
def actSt (g : Guard) (tile : Bool) (cls : StClass) (sz : MemSize) (sc : Scope) (d a : XReg) (off : BitVec 17)
    (s : State) : Act := actStAt 0 g tile cls sz sc d a off s

/-! ## ATOM -/

/-- The new value of an atomic (R258), on numbers of n bytes: old value, operand, comparand. -/
def atomNew (op : AtomOp) (n : Nat) (old o cmp : Nat) : Nat :=
  let k := 8 * n
  let w (x : Nat) : BitVec k := BitVec.ofNat k x
  match op with
  | .add => (old + o) % 2 ^ k
  | .and => (w old &&& w o).toNat
  | .or => (w old ||| w o).toNat
  | .xor => (w old ^^^ w o).toNat
  | .min => if (w old).toInt ≤ (w o).toInt then old else o
  | .max => if (w old).toInt ≤ (w o).toInt then o else old
  | .minu => min old o
  | .maxu => max old o
  | .swap => o
  | .cas => if old = cmp then o else old
  | .faddF32 => (fp32.fadd .rne old o).1
  | .faddBf16x2 =>
    (bf16.fadd .rne (old % 2 ^ 16) (o % 2 ^ 16)).1 + 2 ^ 16 * (bf16.fadd .rne (old / 2 ^ 16) (o / 2 ^ 16)).1

/-- Whether an operation is an fadd, which no remote request carries (R332). -/
def atomIsFadd : AtomOp → Bool
  | .faddF32 => true | .faddBf16x2 => true
  | .add => false | .and => false | .or => false | .xor => false | .min => false | .max => false
  | .minu => false | .maxu => false | .swap => false | .cas => false

/-- The class of an atomic (R52, R258). -/
def atomCls (ord : Order) (sc : Scope) (tier : Nat) : Cls :=
  match ord with
  | .relaxed => .strong sc tier false false | .acquire => .strong sc tier true false
  | .release => .strong sc tier false true | .acqRel => .strong sc tier true true

/-- An atomic at a local place: the old value, and the state with the new one; a cas that fails writes nothing (R258), and so publishes
no release either (DESIGN CHOICE log 104). -/
def State.atomLoc (s : State) (loc : Loc) (va n : Nat) (c : Cls) (op : AtomOp) (o cmp : Nat) : Except Act (Nat × State) := do
  let (bs, s1) ← s.readLoc loc va n c
  let old := leNat bs
  if op = .cas ∧ old ≠ cmp then .ok (old, s1)
  else
    let s2 ← s1.writeLoc loc (storeBytes (match loc with | .home p => p | .host h => h | .remote _ x => x) n
      (BitVec.ofNat 64 (atomNew op n old o cmp))) c true
    .ok (old, s2)

/-- A remote atomic issued (R307, R332): it waits until the stream has no remote transaction outstanding. Its releases stand at the
location from its issue, its acquire is made at its answer (R261, R263); one that writes nothing leaves none, which its answer shows
(DESIGN CHOICE log 104). -/
def State.remoteAtom (s : State) (dest off : Nat) (y : Word) (n : Nat) (c : Cls) (op : AtomOp) (o cmp : Nat) (d : XReg) :
    Except Act State := do
  s.remoteCheck dest c (atomIsFadd op) y
  s.unpinned (Loc.remote dest off).key
  let s1 ← s.remoteIssue (.atom op d c.acquires) dest off y n true true (o + 2 ^ 64 * cmp)
  let s2 := s1.writeOrder (Loc.remote dest off).key n c true
  let left := s2.releases.drop s1.releases.length
  let s3 := s2.updMe fun t => { t with remote := t.remote.map fun r => if r.tag = s.nextTag then { r with left := left } else r }
  if c.acquires || (s.port? d).isSome then .error (.wait (.remoteAnswer s.nextTag) s3) else .ok s3

/-- An atomic whose word waits for its remote answer goes on with it (R258, R333); until then, and until the data queue that it pushes has
room, it waits. -/
def State.atomBack (s : State) (r : RemoteReq) (c : Cls) (d : XReg) : Except Act State :=
  let waits : Act := .wait (.remoteAnswer r.tag) s
  match r.answer with
  | none => .error waits
  | some v =>
    match ((s.remoteOrder r c).remoteDone s.curCore s.curSt r.tag).writeReg d (BitVec.ofNat 64 v) with
    | .ok s1 => .ok s1
    | .error _ => .error waits

/-- ATOM (R258). -/
def actAtom (g : Guard) (op : AtomOp) (big : Bool) (ord : Order) (sc : Scope) (tier : BitVec 3) (d a b : XReg)
    (s : State) : Act :=
  s.memBegin g (if op = .cas then [a, b, d] else [a, b]) [d] fun vs =>
    let y := vs.getD 0 0
    let n := if big then 8 else 4
    let o := field (vs.getD 1 0) (8 * n - 1) 0
    let cmp := field (vs.getD 2 0) (8 * n - 1) 0
    let c := atomCls ord sc tier.toNat
    let put (s1 : State) (old : Nat) : Except Act State :=
      match s1.writeReg d (BitVec.ofNat 64 old) with | .ok s2 => .ok s2 | .error w => .error (.wait w s)
    if s.onStation then do
      match ← s.stationLoc y n with
      | .inl r =>
        let old := (s.regRead r).toNat
        put (if op = .cas ∧ old ≠ cmp then s else s.regWrite r (BitVec.ofNat 64 (atomNew op n old o cmp))) old
      | .inr pa =>
        let (old, s1) ← s.atomLoc (.home pa) pa n c op o cmp
        put s1 old
    else if s.collecting then .error (trapOf cEFSYNC 0 0 s)
    else if s.awaited.isNone && (s.port? d).any (fun q => !(s.dqOf q).closed && decide (64 ≤ (s.dqOf q).entries.length)) then
      .error (.wait (.dqSlot ((s.port? d).getD 0)) s)
    else do
      match ← s.resolve false y n with
      | .tile t =>
        s.guardStore s.curCl s.curCtx true t n y
        s.unpinned (tileKey s.curCl t)
        if s.storeBad s.curCl t n then .error (s.storeUe s.curCl y)
        else
          s.releaseGate c.releases
          let r := s.seeBytes (tileKey s.curCl t) (s.tileBytes s.curCl t n) c false
          let s1 := r.2
          let old := leNat r.1
          if op = .cas ∧ old ≠ cmp then put s1 old
          else
            let s2 ← s1.tileStore t (leBytes n (atomNew op n old o cmp))
            put (s2.writeOrder (tileKey s.curCl t) n c true) old
      | .global ga =>
        match s.awaited with
        | some r => s.atomBack r c d
        | none =>
          let (loc, s1) ← s.locate s.curCl s.curCtx ga true
          s1.guardStore s.curCl s.curCtx false ga n y
          s1.releaseGate c.releases
          match loc with
          | .remote dest off => s1.remoteAtom dest off y n c op o cmp d
          | .home _ =>
            let (old, s2) ← s1.atomLoc loc ga n c op o cmp
            put s2 old
          | .host _ =>
            let (old, s2) ← s1.atomLoc loc ga n c op o cmp
            put s2 old

/-! ## Fences -/

/-- An acquire fence: the loads before it that read from a release synchronise, as far as they have not (R259); a release that this fence is
too narrow for stays for a later, wider one. -/
def State.fenceAcquire (s : State) (sc : Scope) (tier : Nat) : State :=
  let rs := s.relSeen
  if rs.isEmpty then s
  else (s.syncAll s.party sc tier rs).setSeen (rs.filter fun r => r.party != s.party && (s.syncEpochs s.party sc tier r).isEmpty)

/-- A release fence: later weak and strong stores carry its release (R259), beside those of earlier fences at other scopes. -/
def State.fenceRelease (s : State) (sc : Scope) (tier : Nat) : State :=
  let (e, s1) := s.publish s.party (s.effScope sc tier s.curCore)
  let s2 := s1.widenPins s.party sc tier e
  let add (pin : Bool) (l : List FenceMark) : List FenceMark :=
    (l.filter fun f => !(f.scope == sc && f.tier == tier)) ++ [⟨sc, tier, e, pin⟩]
  match s2.cur with
  | .stream c k => s2.updStrm c k fun t => { t with relFences := add (smPin t.scopemode) t.relFences }
  | .station n => s2.updStation n fun t => { t with relFences := add false t.relFences }

/-- What a full fence adds: the load/store path sees what was performed there (R259). -/
def State.fenceFull (s : State) : State := if s.onStation then s else s.updMe fun t => t.seeAll s.stamp false

/-- The earlier remote loads of the current stream that an acquire fence waits for (R259). -/
def State.loadsOut (s : State) : List Nat :=
  if s.onStation then []
  else
    (s.me.remote.filter fun r => match r.kind with
      | .load _ _ _ _ => true | .vload _ _ => true | .atom _ _ _ => true | .store _ => false | .copy _ => false | .coll _ => false
      | .line _ _ _ _ => false).map (·.tag)

/-- FENCE (R259). -/
def actFence (g : Guard) (kind : FenceKind) (sc : Scope) (tier : BitVec 3) (s : State) : Act :=
  if !s.guardOn g then .done s
  else if s.collecting then trapOf cEFSYNC 0 0 s
  else
    let acq (k : State → Act) : Act := if s.loadsOut.isEmpty then k (s.fenceAcquire sc tier.toNat) else .wait (.requests s.loadsOut false) s
    let rel (k : State) : Act :=
      match s.releaseWait sc tier.toNat with | some w => .wait w s | none => .done (k.fenceRelease sc tier.toNat)
    match kind with
    | .acquire => acq .done
    | .release => rel s
    | .acqRel => acq rel
    | .full => acq fun k => rel k.fenceFull

/-- The path of a remote request (R260). -/
def remotePath : RemoteKind → Nat
  | .load _ _ _ _ => 0 | .vload _ g => if g then 3 else 0 | .store g => if g then 3 else 0 | .atom _ _ _ => 0 | .copy _ => 1 | .coll _ => 4
  | .line coll _ _ _ => if coll then 4 else 1

/-- XFENCE: the stream's load buffer drains, its remote accesses on the FROM paths are performed, and what the FROM paths wrote is seen by
what it issues on the TO paths (R260; DESIGN CHOICE log 2, log 72). Of the commands of a FROM path every line that is written counts as
performed. -/
def actXfence (g : Guard) (pfrom pto : BitVec 5) (s : State) : Act :=
  if !s.guardOn g then .done s
  else if s.collecting then trapOf cEFSYNC 0 0 s
  else if s.onStation then .done s
  else if !s.me.loads.isEmpty then .wait (.loads []) s
  else
    let out := (s.me.remote.filter fun r => r.kind.isAccess && pfrom.getLsbD (remotePath r.kind)).map (·.tag)
    if !out.isEmpty then .wait (.requests out false) s else .done (s.carry pfrom pto)

/-! ## The instructions -/

/-- LD as an instruction (R51, R255, R256). -/
def execLd (g : Guard) (sx tile : Bool) (cls : LdClass) (sz : MemSize) (sc : Scope) (d a : XReg) (off : BitVec 17) (s : State) :
    Outcome State Fault Refusal :=
  finish 1 (actLd g sx tile cls sz sc d a off s)
/-- ST as an instruction (R51, R255, R256). -/
def execSt (g : Guard) (tile : Bool) (cls : StClass) (sz : MemSize) (sc : Scope) (d a : XReg) (off : BitVec 17) (s : State) :
    Outcome State Fault Refusal :=
  finish 1 (actSt g tile cls sz sc d a off s)
/-- ATOM as an instruction (R52, R258). -/
def execAtom (g : Guard) (op : AtomOp) (big : Bool) (ord : Order) (sc : Scope) (tier : BitVec 3) (d a b : XReg) (s : State) :
    Outcome State Fault Refusal :=
  finish 1 (actAtom g op big ord sc tier d a b s)
/-- FENCE as an instruction (R259). -/
def execFence (g : Guard) (kind : FenceKind) (sc : Scope) (tier : BitVec 3) (s : State) : Outcome State Fault Refusal :=
  finish 1 (actFence g kind sc tier s)
/-- XFENCE as an instruction (R260). -/
def execXfence (g : Guard) (pfrom pto : BitVec 5) (s : State) : Outcome State Fault Refusal :=
  finish 1 (actXfence g pfrom pto s)

end Sys2Proof.Machine
end

