-- ==== Sys2Proof/Machine/Multi.lean ====
section
/-! DEFINITION. Accesses of several elements by one instruction: every element is checked before any byte moves, in the ranks of
R101; lines are race-checked in ascending address (R264); captured stores append one entry per line of a run (R246). VLD, VST,
VGATH, VSCAT, QST, QLD, LVLD and EAPL are made of these. -/

namespace Sys2Proof.Machine

/-- One element access: its operand address and its bytes, which lie in one line. -/
structure Elt where
  y : Word
  n : Nat
  deriving DecidableEq, Repr

/-- Where an element lands. -/
inductive Spot where
  | tile (t : Nat)
  | mem (l : Loc)
  deriving DecidableEq, Repr

/-- The bytes from an address up, cut at line boundaries; a range of n bytes is at most n cuts. -/
def cutLines (y : Word) : Nat → Nat → List Elt
  | 0, _ => []
  | _, 0 => []
  | fuel + 1, n =>
    let k := min n (64 - addr56 y % 64)
    ⟨y, k⟩ :: cutLines (leaW y (BitVec.ofNat 64 k)) fuel (n - k)

/-! ## Checks -/

/-- The operand checks of an element (R101, rank 4): the space tag, the end of tile space, the bank's mode. -/
def State.eltOperand (s : State) (e : Elt) : Except Act Unit :=
  if spaceTag e.y = 1 then
    if tileEnd ≤ addr56 e.y || !s.tileMode s.curCl (addr56 e.y) (min e.n (tileEnd - addr56 e.y)) then .error (trapOf cACCESS 0 e.y s) else .ok ()
  else if spaceTag e.y ≠ 0 then .error (trapOf cACCESS 0 e.y s) else .ok ()

/-- The operand checks of elements, the first failing one's trap. -/
def State.eltsOperand (s : State) : List Elt → Except Act Unit
  | [] => .ok ()
  | e :: es => do s.eltOperand e; s.eltsOperand es

/-- An element located, with its permission checks (R135, R244, R317, R321); a read of store bytes with an error is UE. -/
def State.eltPlace (s : State) (write : Bool) (e : Elt) : Except Act (Spot × State) :=
  if spaceTag e.y = 1 then
    if !s.tileOwned s.curCl s.curCtx (addr56 e.y) e.n then .error (trapOf cACCESS 0 e.y s)
    else if write then do
      s.guardStore s.curCl s.curCtx true (addr56 e.y) e.n e.y
      s.unpinned (tileKey s.curCl (addr56 e.y))
      .ok (.tile (addr56 e.y), s)
    else do
      s.unpinned (tileKey s.curCl (addr56 e.y))
      if s.storeBad s.curCl (addr56 e.y) e.n then .error (s.storeUe s.curCl e.y) else .ok (.tile (addr56 e.y), s)
  else do
    let (l, s1) ← s.locate s.curCl s.curCtx (addr56 e.y) write
    if write then s1.guardStore s.curCl s.curCtx false (addr56 e.y) e.n e.y
    match l with
    | .host _ => s1.unpinned l.key
    | .home _ => .ok ()
    | .remote _ _ => s1.unpinned l.key
    .ok (.mem l, s1)

/-- Whether a trap is PAGE, which outranks the permission traps of every element (R101). -/
def isPage (t : Trap) : Bool := t.cause == cPAGE

/-- Every element located: a wait or a PAGE of any element comes before the first permission trap (R101). -/
def State.eltsPlace (s : State) (write : Bool) (bad : Option Act) : List Elt → Except Act (List (Elt × Spot) × State)
  | [] => match bad with | some a => .error a | none => .ok ([], s)
  | e :: es =>
    match s.eltPlace write e with
    | .ok (p, s1) =>
      (match s1.eltsPlace write bad es with
       | .ok (ps, s2) => .ok ((e, p) :: ps, s2)
       | .error a => .error a)
    | .error (.trap t s1) =>
      if isPage t then .error (.trap t s1) else s.eltsPlace write (some (bad.getD (.trap t s1))) es
    | .error a => .error a

/-- The ACCESS that a vector or a block access meets where its elements lie goes to the shadow handler first, as PAGE does; the access is made
whole again when it resumes (R189, R211; DEDUCED log 92). -/
def viaShadow {α : Type} (r : Except Act α) : Except Act α :=
  match r with
  | .error (.trap t s) => if t.cause = cACCESS then .error (.jump (s.hold s.curCore s.curSt t)) else r
  | _ => r

/-- The remote checks of elements: those of a captured store (R246), then those at issue (R332). -/
def State.eltsRemote (s : State) (c : Cls) (store : Bool) (l : List (Elt × Spot)) : Except Act Unit := do
  let rem := l.filterMap fun x => match x.2 with | .mem (.remote d _) => some (x.1, d) | _ => none
  match rem with
  | [] => .ok ()
  | x :: _ =>
    if s.collecting && store then .error (trapOf cEFSYNC 1 x.1.y s)
    else
      let own := (rem.find? fun r => r.2 == s.pkgId.toNat).getD x
      if c.isPlain then s.remoteCheck x.2 c false x.1.y else s.remoteCheck own.2 c false own.1.y

/-- The element's home line, if home memory serves it: its virtual line, its lowest virtual address, its place. -/
def homeLineOf (x : Elt × Spot) : Option (Nat × Nat × Loc) :=
  match x.2 with
  | .mem (.home pa) => some (addr56 x.1.y / 64, addr56 x.1.y, .home pa)
  | .mem (.host _) => none
  | .mem (.remote _ _) => none
  | .tile _ => none

/-- A line entered in a list of lines in ascending address; a line that stands keeps its lowest byte. -/
def insLine (x : Nat × Nat × Loc) : List (Nat × Nat × Loc) → List (Nat × Nat × Loc)
  | [] => [x]
  | y :: ys =>
    if x.1 < y.1 then x :: y :: ys
    else if x.1 = y.1 then (x.1, min x.2.1 y.2.1, if x.2.1 < y.2.1 then x.2.2 else y.2.2) :: ys
    else y :: insLine x ys

/-- The home lines that elements touch, in ascending address. -/
def homeLines (l : List (Elt × Spot)) : List (Nat × Nat × Loc) :=
  (l.filterMap homeLineOf).foldl (fun acc x => insLine x acc) []

/-- Lines made ready for a read, in ascending address (R101: UE before RACE). -/
def State.touchAll (s : State) : List (Nat × Nat × Loc) → Except Act State
  | [] => .ok s
  | (_, va, l) :: rest => do
    let s1 ← s.touch l va
    s1.touchAll rest

/-- The trap of the first line, in ascending address, that a race check refuses (R264): of a lower one with RACEU and a higher one with RACE,
the lower's (DESIGN CHOICE log 105). -/
def State.raceBad (s : State) (c : Cls) (store : Bool) (l : List (Nat × Nat × Loc)) : Option Act :=
  l.findSome? fun x => match s.race x.2.2 x.2.1 c store with | .error a => some a | .ok _ => none

/-- The record that a line which passes its race check leaves (R264). -/
def State.raceNote (s : State) (c : Cls) (store : Bool) (x : Nat × Nat × Loc) : State :=
  match s.race x.2.2 x.2.1 c store with | .ok s1 => s1 | .error _ => s

/-- Lines race-checked in ascending address: only when every line passes is any recorded (R264). -/
def State.raceAll (s : State) (c : Cls) (store : Bool) (l : List (Nat × Nat × Loc)) : Except Act State :=
  match s.raceBad c store l with
  | some a => .error a
  | none => .ok (l.foldl (fun s x => s.raceNote c store x) s)

/-- Lines that a store may not write now: pinned or lost (R266, R365). -/
def State.storeReady (s : State) : List (Nat × Nat × Loc) → Except Act Unit
  | [] => .ok ()
  | (_, _, .home pa) :: rest =>
    if s.pinnedFor s.party (pa / 64) then .error (.wait (.pinned (pa / 64)) s)
    else if s.isLost (pa / 64) then .error (.wait (.memory (pa / 64)) s) else s.storeReady rest
  | (_, _, .host _) :: rest => s.storeReady rest
  | (_, _, .remote _ _) :: rest => s.storeReady rest

/-! ## Loads -/

/-- The data that a remote element's request brought (R331). -/
def State.gotElt (s : State) (i n : Nat) : List Byte :=
  leBytes n (((s.me.vecGot.find? (·.1 == i)).map (·.2)).getD 0)

/-- The bytes that stand at element i, or that a remote package answered. -/
def State.eltRaw (s : State) (i : Nat) (x : Elt × Spot) : List Byte :=
  match x.2 with
  | .tile t => s.tileBytes s.curCl t x.1.n
  | .mem (.remote _ _) => s.gotElt i x.1.n
  | .mem l => s.bytesAt l x.1.n

/-- The name of an element's first byte, as locations are named. -/
def State.eltKey (s : State) (x : Elt × Spot) : Nat :=
  match x.2 with | .tile t => tileKey s.curCl t | .mem l => l.key

/-- What a read of element i sees, with the order it brings; a remote one's came with its answer. VLD and VGATH may miss writes, as a load
may; QLD, LVLD, EAPL and XPLAN read fresh (DESIGN CHOICE log 72). -/
def State.eltBytes (s : State) (c : Cls) (fresh : Bool) (i : Nat) (x : Elt × Spot) : List Byte × State :=
  if (match x.2 with | .mem (.remote _ _) => true | .mem _ => false | .tile _ => false) then (s.eltRaw i x, s)
  else s.seeBytes (s.eltKey x) (s.eltRaw i x) c fresh

/-- What reads of elements in order see, the first numbered i. -/
def State.eltsBytes (s : State) (c : Cls) (fresh : Bool) (i : Nat) : List (Elt × Spot) → List (List Byte) × State
  | [] => ([], s)
  | x :: xs =>
    let (b, s1) := s.eltBytes c fresh i x
    let (bs, s2) := s1.eltsBytes c fresh (i + 1) xs
    (b :: bs, s2)

/-- The bytes that open lists hold for an element; tile space is never captured (R247). -/
def listed (es : List AEntry) (opened : List Nat) (x : Elt × Spot) : List (Option Byte) :=
  match x.2 with
  | .tile _ => List.replicate x.1.n none
  | .mem _ => (upto x.1.n).map fun i => listByte es opened (addr56 x.1.y + i)

/-- The bytes that the open lists of the current stream hold for elements: none outside collecting mode (R247). -/
def State.listedAll (s : State) (l : List (Elt × Spot)) : Except Act (List (List (Option Byte)) × State) :=
  if s.collecting then do
    let (es, s1) ← s.arenaAll
    .ok (l.map (listed es s1.me.lists.opened), s1)
  else .ok (l.map fun x => List.replicate x.1.n none, s)

/-- Bytes of memory with those of the lists laid over them (R247). -/
def overlay (lb : List (Option Byte)) (bs : List Byte) : List Byte := (lb.zip bs).map fun x => x.1.getD x.2

/-- The bytes of located elements read, given what the lists hold: memory is touched and race-checked as a whole when it supplies at
least one byte (R247). -/
def State.gatherWith (s : State) (c : Cls) (fresh : Bool) (lb : List (List (Option Byte))) (l : List (Elt × Spot)) :
    Except Act (List (List Byte) × State) := do
  if lb.all fun x => x.all Option.isSome then .ok (lb.map fun x => x.map fun b => b.getD 0, s)
  else
    let lines := homeLines l
    let s2 ← s.touchAll lines
    let s3 ← s2.raceAll c false lines
    let (bs, s4) := s3.eltsBytes c fresh 0 l
    .ok ((lb.zip bs).map fun x => overlay x.1 x.2, s4)

/-- Whether an element's line holds no error that a read of it would find. -/
def State.cleanElt (s : State) (x : Elt × Spot) : Bool :=
  match x.2 with
  | .mem (.home pa) =>
    (match s.l2At (pa / 64) with
     | some l => !l.poisoned && l.inj != .l2ue && l.inj != .tague
     | none => !s.hbmBad (pa / 64))
  | .mem (.host _) => true
  | .mem (.remote _ _) => true
  | .tile t => !s.storeBad s.curCl t x.1.n

/-- The bytes of an element as far as a read that fails can supply them: the lists' first (R101, R247). -/
def State.readable (s : State) (lb : List (Option Byte)) (x : Elt × Spot) : Option (List Byte) :=
  if lb.all Option.isSome then some (lb.map fun b => b.getD 0)
  else if s.cleanElt x then some (overlay lb (s.eltRaw 0 x)) else none

/-- Elements checked, located and read, none remote, with a check of what they hold: its trap comes before the UE and RACE of
the access (R101), as far as the bytes can be read; what the check counts it counts even then (R197). `via` says that ACCESS goes to the
shadow handler (R211). -/
def State.readElts (s : State) (via : Bool) (l : List Elt) (chk : List (Option (List Byte)) → State → State × Option Act) :
    Except Act (List (List Byte) × State) := do
  let (ps, s1) ← if via then viaShadow (s.eltsPlace false none l) else s.eltsPlace false none l
  s1.eltsRemote .plain false ps
  let (lb, s2) ← s1.listedAll ps
  match s2.gatherWith .plain true lb ps with
  | .ok (bs, s3) =>
    (match chk (bs.map some) s3 with
     | (_, some a) => .error a
     | (s4, none) => .ok (bs, s4))
  | .error (.trap t s3) =>
    if t.cause = cUE ∨ t.cause = cRACE ∨ t.cause = cRACEU then
      match chk ((lb.zip ps).map fun x => s2.readable x.1 x.2) s3 with
      | (_, some a) => .error a
      | (s4, none) => .error (.trap t s4)
    else .error (.trap t s3)
  | .error a => .error a

/-! ## Stores -/

/-- A run of stored bytes of one line: its virtual line address, its place, the bytes by offset, the later one last. -/
structure Run where
  line : Word
  spot : Spot
  bytes : List (Nat × Byte)
  deriving DecidableEq, Repr

/-- The place of the line that holds an element. -/
def Spot.lineOf : Spot → Spot
  | .tile t => .tile (t / 64 * 64)
  | .mem (.home pa) => .mem (.home (pa / 64 * 64))
  | .mem (.host ha) => .mem (.host (ha / 64 * 64))
  | .mem (.remote d o) => .mem (.remote d o)

/-- Whether a run goes to another package. -/
def Spot.isRemote : Spot → Bool
  | .mem (.remote _ _) => true | .mem (.home _) => false | .mem (.host _) => false | .tile _ => false

/-- The runs of stored elements in their order: an element on another line than the one before it starts a new run; without
merging, every element does (R246). -/
def runsOf (merge : Bool) : List ((Elt × Spot) × List Byte) → List Run
  | [] => []
  | (x, bs) :: rest =>
    let r : Run := ⟨x.1.y &&& ~~~63, x.2.lineOf, bs.zipIdx.map fun b => (addr56 x.1.y % 64 + b.2, b.1)⟩
    match runsOf merge rest with
    | [] => [r]
    | q :: qs =>
      if merge ∧ q.line = r.line ∧ q.spot = r.spot ∧ !r.spot.isRemote then { r with bytes := r.bytes ++ q.bytes } :: qs
      else r :: q :: qs

/-- A run in tile space stored byte by byte in order. -/
def State.tileRun (s : State) (t : Nat) (c : Cls) : List (Nat × Byte) → Except Act State
  | [] => .ok s
  | bs =>
    let old := bs.map fun b => (b.1, memByte (s.cluster s.curCl).store (t + b.1))
    match s.journalAdd s.curCore s.curSt true (t / 64) old with
    | .error e => .error e
    | .ok s1 =>
      let lo := bs.foldl (fun m b => min m b.1) 63
      let hi := bs.foldl (fun m b => max m b.1) 0
      let s2 := (((s1.noteStore (tileKey s.curCl t) old c).retireWindows s.curCl (t + lo) (t + hi)).updCluster s.curCl fun x =>
        { x with store := bs.foldl (fun m b => memPut m (t + b.1) b.2) x.store })
      .ok (s2.writeOrder (tileKey s.curCl (t + lo)) (hi + 1 - lo) c false)

/-- Runs stored in order, their lines ready and race-checked; a remote run is issued elsewhere. -/
def State.storeRuns (s : State) (c : Cls) : List Run → Except Act State
  | [] => .ok s
  | r :: rest => do
    let s1 ← match r.spot with
      | .tile t => s.tileRun t c r.bytes
      | .mem l => s.writeLoc l r.bytes c false
    s1.storeRuns c rest

/-- Whether the journal of the current stream has room for the runs, when its mark stands (R307). -/
def State.runsRoom (s : State) (n : Nat) : Bool :=
  s.onStation || s.me.remote.isEmpty || decide (s.me.journal.length + n ≤ s.journalRoom s.curCtx)

/-- Runs made ready to be stored: pinned and lost lines and a full journal wait, captured global runs are appended to the innermost
list (R246), and the lines of the others are race-checked. The answer is the runs that are left to store. -/
def State.runsBegin (s : State) (c : Cls) (l : List (Elt × Spot)) (runs : List Run) : Except Act (List Run × State) := do
  let mem := runs.filter fun r => match r.spot with | .mem _ => true | .tile _ => false
  let tile := runs.filter fun r => match r.spot with | .mem _ => false | .tile _ => true
  let (cap, put) := if s.collecting then (mem, tile) else ([], runs)
  let lines := if s.collecting then [] else homeLines l
  s.storeReady lines
  if !s.runsRoom put.length then .error (.wait .journalFull s)
  else
    let s1 ← if cap.isEmpty then .ok s
      else s.arenaAppend (s.me.lists.opened.headD 0) (cap.map fun r => captured r.line r.bytes)
    let s2 ← s1.raceAll c true lines
    .ok (put, s2)

/-- Elements checked, located and stored, none remote (R189, R211). -/
def State.writeElts (s : State) (merge : Bool) (c : Cls) (l : List (Elt × List Byte)) : Except Act State := do
  let (ps, s1) ← viaShadow (s.eltsPlace true none (l.map (·.1)))
  s1.eltsRemote c true ps
  let (put, s2) ← s1.runsBegin c ps (runsOf merge (ps.zip (l.map (·.2))))
  s2.storeRuns c put

end Sys2Proof.Machine
end

