-- ==== Sys2Proof/Machine/Vector.lean ====
section
/-! DEFINITION. Vector arithmetic: majors 0x11 to 0x15 (R153 to R174). Each instruction reads every source before it writes
(R157); a mask bit governs a whole element. -/

namespace Sys2Proof.Machine

open Host (Outcome)

/-! ## Registers and masks of the current core -/

/-- Vector register r of the current core (R153). -/
def State.vreg (s : State) (r : VReg) : VRegs := (s.core s.curCore).v[r.toFin]
/-- Vector register r written. -/
def State.setVreg (s : State) (r : VReg) (v : VRegs) : State :=
  s.updCore s.curCore fun c => { c with v := c.v.set r.toFin v }
/-- Mask n of the current core: m0 reads all ones (R154). -/
def State.mask (s : State) (n : MReg) : VMask := if n = 0 then BitVec.allOnes 1024 else (s.core s.curCore).masks[n.toFin]
/-- Mask n written: m0 discards (R154). -/
def State.setMask (s : State) (n : MReg) (m : VMask) : State :=
  if n = 0 then s else s.updCore s.curCore fun c => { c with masks := c.masks.set n.toFin m }

/-- The rounding mode of an instruction (R49, R64). -/
def State.vrnd (s : State) (rm : RmField) : Rnd := modeOf rm s.me.fpm
/-- Flags ORed into FPM (R66). -/
def State.vflags (s : State) (fl : FFlags) : State := s.updMe fun t => { t with fpm := fpmOr t.fpm fl }

/-- A masked write of a register, one element at a time (R157). -/
def State.vecPut (s : State) (m : MReg) (vd : VReg) (f : Nat → Elem) : Act :=
  .done (s.setVreg vd (maskMap (s.mask m) (s.vreg vd) f))

/-- A masked write of a register with flags: those of every element it writes (R66, R157). -/
def State.vecPutFl (s : State) (m : MReg) (vd : VReg) (f : Nat → Elem × FFlags) : Act :=
  let k := s.mask m
  let r : Vector (Elem × FFlags) 1024 :=
    Vector.ofFn fun (i : Fin 1024) => if k.getLsbD i.val then f i.val else ((s.vreg vd)[i], 0)
  .done ((s.setVreg vd (r.map (·.1))).vflags (r.foldl (fun acc x => acc ||| x.2) 0))

/-- A two-source lane function with flags (R157). -/
def vop2 (w : LaneW) (vd va vb : VReg) (amod bmod : Modifier) (m : MReg) (f : Nat → Nat → Nat × FFlags) (s : State) : Act :=
  s.vecPutFl m vd fun e =>
    laneFl w fun i => f (subMod w amod (velem (s.vreg va) e) i) (subMod w bmod (velem (s.vreg vb) e) i)

/-- A three-source lane function with flags; vc is read at identity (R156, R157). -/
def vop3 (w : LaneW) (vd va vb vc : VReg) (amod bmod : Modifier) (m : MReg) (f : Nat → Nat → Nat → Nat × FFlags)
    (s : State) : Act :=
  s.vecPutFl m vd fun e =>
    laneFl w fun i =>
      f (subMod w amod (velem (s.vreg va) e) i) (subMod w bmod (velem (s.vreg vb) e) i) (subAt w (velem (s.vreg vc) e) i)

/-- A two-source integer lane function, which touches no flag (R157, R161). -/
def iop2 (w : LaneW) (vd va vb : VReg) (amod bmod : Modifier) (m : MReg) (f : Nat → Nat → Nat) (s : State) : Act :=
  s.vecPut m vd fun e =>
    joinLanes w fun i => f (subMod w amod (velem (s.vreg va) e) i) (subMod w bmod (velem (s.vreg vb) e) i)

/-! ## Floating point (R159, R160) -/

/-- VADD (R159). -/
def actVadd (ty : FType) (vd : VReg) (va : VReg) (vb : VReg) (amod : Modifier) (bmod : Modifier) (m : BitVec 3) (rm : RmField) (s : State) : Act :=
  vop2 ty.lane vd va vb amod bmod m ((ftypeFmt ty).fadd (s.vrnd rm)) s
/-- VSUB (R159). -/
def actVsub (ty : FType) (vd : VReg) (va : VReg) (vb : VReg) (amod : Modifier) (bmod : Modifier) (m : BitVec 3) (rm : RmField) (s : State) : Act :=
  vop2 ty.lane vd va vb amod bmod m ((ftypeFmt ty).fsub (s.vrnd rm)) s
/-- VMUL (R159). -/
def actVmul (ty : FType) (vd : VReg) (va : VReg) (vb : VReg) (amod : Modifier) (bmod : Modifier) (m : BitVec 3) (rm : RmField) (s : State) : Act :=
  vop2 ty.lane vd va vb amod bmod m ((ftypeFmt ty).fmul (s.vrnd rm)) s
/-- VFMA: one rounding (R159). -/
def actVfma (ty : FType) (vd : VReg) (va : VReg) (vb : VReg) (vc : VReg) (amod : Modifier) (bmod : Modifier) (m : BitVec 3) (rm : RmField) (s : State) : Act :=
  vop3 ty.lane vd va vb vc amod bmod m ((ftypeFmt ty).ffma (s.vrnd rm)) s
/-- VFMS: one rounding (R159). -/
def actVfms (ty : FType) (vd : VReg) (va : VReg) (vb : VReg) (vc : VReg) (amod : Modifier) (bmod : Modifier) (m : BitVec 3) (rm : RmField) (s : State) : Act :=
  vop3 ty.lane vd va vb vc amod bmod m ((ftypeFmt ty).ffms (s.vrnd rm)) s
/-- VMIN: no flag (R160). -/
def actVmin (ty : FType) (vd : VReg) (va : VReg) (vb : VReg) (amod : Modifier) (bmod : Modifier) (m : BitVec 3) (s : State) : Act :=
  iop2 ty.lane vd va vb amod bmod m ((ftypeFmt ty).minMax false) s
/-- VMAX: no flag (R160). -/
def actVmax (ty : FType) (vd : VReg) (va : VReg) (vb : VReg) (amod : Modifier) (bmod : Modifier) (m : BitVec 3) (s : State) : Act :=
  iop2 ty.lane vd va vb amod bmod m ((ftypeFmt ty).minMax true) s
/-- VABS (R160). -/
def actVabs (ty : FType) (vd : VReg) (va : VReg) (amod : Modifier) (m : BitVec 3) (s : State) : Act :=
  s.vecPut m vd fun e => joinLanes ty.lane fun i => (ftypeFmt ty).absNeg false (subMod ty.lane amod (velem (s.vreg va) e) i)
/-- VNEG (R160). -/
def actVneg (ty : FType) (vd : VReg) (va : VReg) (amod : Modifier) (m : BitVec 3) (s : State) : Act :=
  s.vecPut m vd fun e => joinLanes ty.lane fun i => (ftypeFmt ty).absNeg true (subMod ty.lane amod (velem (s.vreg va) e) i)

/-! ## Integers (R161 to R163) -/

/-- VIADD (R161, R162). -/
def actViadd (w : LaneW) (mode : SatMode) (vd : VReg) (va : VReg) (vb : VReg) (amod : Modifier) (bmod : Modifier) (m : BitVec 3) (s : State) : Act :=
  iop2 w vd va vb amod bmod m (satOp w mode (fun x y => x + y)) s
/-- VISUB (R161, R162). -/
def actVisub (w : LaneW) (mode : SatMode) (vd : VReg) (va : VReg) (vb : VReg) (amod : Modifier) (bmod : Modifier) (m : BitVec 3) (s : State) : Act :=
  iop2 w vd va vb amod bmod m (satOp w mode (fun x y => x - y)) s
/-- VIMUL: the full product, then wrapped or clamped (R161, R162). -/
def actVimul (w : LaneW) (mode : SatMode) (vd : VReg) (va : VReg) (vb : VReg) (amod : Modifier) (bmod : Modifier) (m : BitVec 3) (s : State) : Act :=
  iop2 w vd va vb amod bmod m (satOp w mode (fun x y => x * y)) s
/-- VIMAD (R161). -/
def actVimad (w : LaneW) (vd : VReg) (va : VReg) (vb : VReg) (vc : VReg) (amod : Modifier) (bmod : Modifier) (m : BitVec 3) (s : State) : Act :=
  vop3 w vd va vb vc amod bmod m (fun x y z => ((x * y + z) % 2 ^ w.bits, 0)) s
/-- VSHL (R162). -/
def actVshl (w : LaneW) (vd : VReg) (va : VReg) (vb : VReg) (amod : Modifier) (bmod : Modifier) (m : BitVec 3) (s : State) : Act :=
  iop2 w vd va vb amod bmod m (laneShl w) s
/-- VSHR (R162). -/
def actVshr (w : LaneW) (vd : VReg) (va : VReg) (vb : VReg) (amod : Modifier) (bmod : Modifier) (m : BitVec 3) (s : State) : Act :=
  iop2 w vd va vb amod bmod m (laneShr w) s
/-- VSRA (R162). -/
def actVsra (w : LaneW) (vd : VReg) (va : VReg) (vb : VReg) (amod : Modifier) (bmod : Modifier) (m : BitVec 3) (s : State) : Act :=
  iop2 w vd va vb amod bmod m (laneSra w) s
/-- A three-input truth table on every bit of an element (R163). -/
def logt32 (tt : BitVec 8) (a b c : Elem) : Elem :=
  (List.range 32).foldl (fun r j => setBit r j (ttBit tt (a.getLsbD j) (b.getLsbD j) (c.getLsbD j))) 0
/-- VLOGT (R163). -/
def actVlogt (vd va vb vc : VReg) (tt : BitVec 8) (m : MReg) (s : State) : Act :=
  s.vecPut m vd fun e => logt32 tt (velem (s.vreg va) e) (velem (s.vreg vb) e) (velem (s.vreg vc) e)
/-- VIMIN (R161). -/
def actVimin (w : LaneW) (uns : Bool) (vd : VReg) (va : VReg) (vb : VReg) (amod : Modifier) (bmod : Modifier) (m : BitVec 3) (s : State) : Act :=
  iop2 w vd va vb amod bmod m (laneMinMax w uns false) s
/-- VIMAX (R161). -/
def actVimax (w : LaneW) (uns : Bool) (vd : VReg) (va : VReg) (vb : VReg) (amod : Modifier) (bmod : Modifier) (m : BitVec 3) (s : State) : Act :=
  iop2 w vd va vb amod bmod m (laneMinMax w uns true) s

/-! ## Compare, select, masks (R164 to R166) -/

/-- A mask with the bits under another mask replaced by a condition (R164, R166). -/
def maskBits (k old : VMask) (f : Nat → Bool) : VMask :=
  (List.range 1024).foldl (fun r e => if k.getLsbD e then setBit r e (f e) else r) old

/-- VCMP (R164). -/
def actVcmp (ty : VCmpType) (cc : VCmpCond) (md : BitVec 3) (va : VReg) (vb : VReg) (m : BitVec 3) (s : State) : Act :=
  .done (s.setMask md (maskBits (s.mask m) (s.mask md) fun e => vcmpHolds ty cc (velem (s.vreg va) e) (velem (s.vreg vb) e)))
/-- VSEL: the mask selects for every element (R165). -/
def actVsel (vd : VReg) (va : VReg) (vb : VReg) (m : BitVec 3) (s : State) : Act :=
  .done (s.setVreg vd (Vector.ofFn fun (i : Fin 1024) => if (s.mask m).getLsbD i.val then (s.vreg va)[i] else (s.vreg vb)[i]))
/-- VMSK (R166). -/
def actVmsk (md : BitVec 3) (ma : BitVec 3) (mb : BitVec 3) (tt : BitVec 4) (m : BitVec 3) (s : State) : Act :=
  .done (s.setMask md (maskBits (s.mask m) (s.mask md) fun e =>
    ttBit tt false ((s.mask ma).getLsbD e) ((s.mask mb).getLsbD e)))

/-! ## Estimates and functions (R167 to R170) -/

/-- A one-source F32 function with flags. -/
def vfun1 (vd va : VReg) (m : MReg) (f : Nat → Nat × FFlags) (s : State) : Act :=
  s.vecPutFl m vd fun e => laneFl .w32 fun _ => f (velem (s.vreg va) e).toNat
/-- VRCP (R75 to R77, R167). -/
def actVrcp (vd : VReg) (va : VReg) (m : BitVec 3) (s : State) : Act := vfun1 vd va m vrcp s
/-- VRSQ (R75 to R77, R167). -/
def actVrsq (vd : VReg) (va : VReg) (m : BitVec 3) (s : State) : Act := vfun1 vd va m vrsq s
/-- VRCPR (R167, R168). -/
def actVrcpr (vd : VReg) (va : VReg) (vb : VReg) (m : BitVec 3) (rm : RmField) (s : State) : Act :=
  vop2 .w32 vd va vb Modifier.identity Modifier.identity m (refine false (s.vrnd rm)) s
/-- VRSQR (R167, R168). -/
def actVrsqr (vd : VReg) (va : VReg) (vb : VReg) (m : BitVec 3) (rm : RmField) (s : State) : Act :=
  vop2 .w32 vd va vb Modifier.identity Modifier.identity m (refine true (s.vrnd rm)) s
/-- VEXP2 (R169, R170; DEDUCED log 11). -/
def actVexp2 (vd : VReg) (va : VReg) (m : BitVec 3) (s : State) : Act := vfun1 vd va m vexp2 s
/-- VLOG2 (R169, R170; DEDUCED log 11). -/
def actVlog2 (vd : VReg) (va : VReg) (m : BitVec 3) (s : State) : Act := vfun1 vd va m vlog2 s
/-- VTANH (R169, R170; DEDUCED log 11). -/
def actVtanh (vd : VReg) (va : VReg) (m : BitVec 3) (s : State) : Act := vfun1 vd va m vtanh s

/-! ## Conversions and packing (R171 to R174) -/

/-- VCVT (R172). -/
def actVcvt (src : CvtType) (dst : CvtType) (inf : Bool) (vd : VReg) (va : VReg) (amod : Modifier) (m : BitVec 3) (rm : RmField) (s : State) : Act :=
  s.vecPutFl m vd fun e => cvtElem src dst inf (s.vrnd rm) (cvtSource src amod (velem (s.vreg va) e))
/-- VPACK (R173). -/
def actVpack (w : LaneW) (vd : VReg) (va : VReg) (vb : VReg) (m : BitVec 3) (s : State) : Act :=
  s.vecPut m vd fun e => packElem w (s.vreg va) (s.vreg vb) e
/-- VUNPK (R174). -/
def actVunpk (w : LaneW) (sx : Bool) (vd : VReg) (va : VReg) (part : BitVec 3) (m : BitVec 3) (s : State) : Act :=
  s.vecPut m vd fun e => unpackElem w sx part.toNat (s.vreg va) e

/-! ## The instructions -/

/-- VADD as an instruction (R159). -/
def execVadd (ty : FType) (vd : VReg) (va : VReg) (vb : VReg) (amod : Modifier) (bmod : Modifier) (m : BitVec 3) (rm : RmField) (s : State) :
    Outcome State Fault Refusal :=
  finish 1 (actVadd ty vd va vb amod bmod m rm s)
/-- VSUB as an instruction (R159). -/
def execVsub (ty : FType) (vd : VReg) (va : VReg) (vb : VReg) (amod : Modifier) (bmod : Modifier) (m : BitVec 3) (rm : RmField) (s : State) :
    Outcome State Fault Refusal :=
  finish 1 (actVsub ty vd va vb amod bmod m rm s)
/-- VMUL as an instruction (R159). -/
def execVmul (ty : FType) (vd : VReg) (va : VReg) (vb : VReg) (amod : Modifier) (bmod : Modifier) (m : BitVec 3) (rm : RmField) (s : State) :
    Outcome State Fault Refusal :=
  finish 1 (actVmul ty vd va vb amod bmod m rm s)
/-- VFMA as an instruction (R159). -/
def execVfma (ty : FType) (vd : VReg) (va : VReg) (vb : VReg) (vc : VReg) (amod : Modifier) (bmod : Modifier) (m : BitVec 3) (rm : RmField) (s : State) : Outcome State Fault Refusal :=
  finish 1 (actVfma ty vd va vb vc amod bmod m rm s)
/-- VFMS as an instruction (R159). -/
def execVfms (ty : FType) (vd : VReg) (va : VReg) (vb : VReg) (vc : VReg) (amod : Modifier) (bmod : Modifier) (m : BitVec 3) (rm : RmField) (s : State) : Outcome State Fault Refusal :=
  finish 1 (actVfms ty vd va vb vc amod bmod m rm s)
/-- VMIN as an instruction (R160). -/
def execVmin (ty : FType) (vd : VReg) (va : VReg) (vb : VReg) (amod : Modifier) (bmod : Modifier) (m : BitVec 3) (s : State) :
    Outcome State Fault Refusal :=
  finish 1 (actVmin ty vd va vb amod bmod m s)
/-- VMAX as an instruction (R160). -/
def execVmax (ty : FType) (vd : VReg) (va : VReg) (vb : VReg) (amod : Modifier) (bmod : Modifier) (m : BitVec 3) (s : State) :
    Outcome State Fault Refusal :=
  finish 1 (actVmax ty vd va vb amod bmod m s)
/-- VABS as an instruction (R160). -/
def execVabs (ty : FType) (vd : VReg) (va : VReg) (amod : Modifier) (m : BitVec 3) (s : State) : Outcome State Fault Refusal :=
  finish 1 (actVabs ty vd va amod m s)
/-- VNEG as an instruction (R160). -/
def execVneg (ty : FType) (vd : VReg) (va : VReg) (amod : Modifier) (m : BitVec 3) (s : State) : Outcome State Fault Refusal :=
  finish 1 (actVneg ty vd va amod m s)
/-- VIADD as an instruction (R161, R162). -/
def execViadd (w : LaneW) (mode : SatMode) (vd : VReg) (va : VReg) (vb : VReg) (amod : Modifier) (bmod : Modifier) (m : BitVec 3) (s : State) :
    Outcome State Fault Refusal :=
  finish 1 (actViadd w mode vd va vb amod bmod m s)
/-- VISUB as an instruction (R161, R162). -/
def execVisub (w : LaneW) (mode : SatMode) (vd : VReg) (va : VReg) (vb : VReg) (amod : Modifier) (bmod : Modifier) (m : BitVec 3) (s : State) :
    Outcome State Fault Refusal :=
  finish 1 (actVisub w mode vd va vb amod bmod m s)
/-- VIMUL as an instruction (R161, R162). -/
def execVimul (w : LaneW) (mode : SatMode) (vd : VReg) (va : VReg) (vb : VReg) (amod : Modifier) (bmod : Modifier) (m : BitVec 3) (s : State) :
    Outcome State Fault Refusal :=
  finish 1 (actVimul w mode vd va vb amod bmod m s)
/-- VIMAD as an instruction (R161). -/
def execVimad (w : LaneW) (vd : VReg) (va : VReg) (vb : VReg) (vc : VReg) (amod : Modifier) (bmod : Modifier) (m : BitVec 3) (s : State) :
    Outcome State Fault Refusal :=
  finish 1 (actVimad w vd va vb vc amod bmod m s)
/-- VSHL as an instruction (R162). -/
def execVshl (w : LaneW) (vd : VReg) (va : VReg) (vb : VReg) (amod : Modifier) (bmod : Modifier) (m : BitVec 3) (s : State) :
    Outcome State Fault Refusal :=
  finish 1 (actVshl w vd va vb amod bmod m s)
/-- VSHR as an instruction (R162). -/
def execVshr (w : LaneW) (vd : VReg) (va : VReg) (vb : VReg) (amod : Modifier) (bmod : Modifier) (m : BitVec 3) (s : State) :
    Outcome State Fault Refusal :=
  finish 1 (actVshr w vd va vb amod bmod m s)
/-- VSRA as an instruction (R162). -/
def execVsra (w : LaneW) (vd : VReg) (va : VReg) (vb : VReg) (amod : Modifier) (bmod : Modifier) (m : BitVec 3) (s : State) :
    Outcome State Fault Refusal :=
  finish 1 (actVsra w vd va vb amod bmod m s)
/-- VLOGT as an instruction (R163). -/
def execVlogt (vd va vb vc : VReg) (tt : BitVec 8) (m : MReg) (s : State) : Outcome State Fault Refusal :=
  finish 1 (actVlogt vd va vb vc tt m s)
/-- VIMIN as an instruction (R161). -/
def execVimin (w : LaneW) (uns : Bool) (vd : VReg) (va : VReg) (vb : VReg) (amod : Modifier) (bmod : Modifier) (m : BitVec 3) (s : State) :
    Outcome State Fault Refusal :=
  finish 1 (actVimin w uns vd va vb amod bmod m s)
/-- VIMAX as an instruction (R161). -/
def execVimax (w : LaneW) (uns : Bool) (vd : VReg) (va : VReg) (vb : VReg) (amod : Modifier) (bmod : Modifier) (m : BitVec 3) (s : State) :
    Outcome State Fault Refusal :=
  finish 1 (actVimax w uns vd va vb amod bmod m s)
/-- VCMP as an instruction (R164). -/
def execVcmp (ty : VCmpType) (cc : VCmpCond) (md : BitVec 3) (va : VReg) (vb : VReg) (m : BitVec 3) (s : State) : Outcome State Fault Refusal :=
  finish 1 (actVcmp ty cc md va vb m s)
/-- VSEL as an instruction (R165). -/
def execVsel (vd : VReg) (va : VReg) (vb : VReg) (m : BitVec 3) (s : State) : Outcome State Fault Refusal :=
  finish 1 (actVsel vd va vb m s)
/-- VMSK as an instruction (R166). -/
def execVmsk (md : BitVec 3) (ma : BitVec 3) (mb : BitVec 3) (tt : BitVec 4) (m : BitVec 3) (s : State) : Outcome State Fault Refusal :=
  finish 1 (actVmsk md ma mb tt m s)
/-- VRCP as an instruction (R167, R75, R76, R77). -/
def execVrcp (vd : VReg) (va : VReg) (m : BitVec 3) (s : State) : Outcome State Fault Refusal := finish 1 (actVrcp vd va m s)
/-- VRSQ as an instruction (R167, R75, R76, R77). -/
def execVrsq (vd : VReg) (va : VReg) (m : BitVec 3) (s : State) : Outcome State Fault Refusal := finish 1 (actVrsq vd va m s)
/-- VRCPR as an instruction (R167, R168). -/
def execVrcpr (vd : VReg) (va : VReg) (vb : VReg) (m : BitVec 3) (rm : RmField) (s : State) : Outcome State Fault Refusal :=
  finish 1 (actVrcpr vd va vb m rm s)
/-- VRSQR as an instruction (R167, R168). -/
def execVrsqr (vd : VReg) (va : VReg) (vb : VReg) (m : BitVec 3) (rm : RmField) (s : State) : Outcome State Fault Refusal :=
  finish 1 (actVrsqr vd va vb m rm s)
/-- VEXP2 as an instruction (R167, R169, R170). -/
def execVexp2 (vd : VReg) (va : VReg) (m : BitVec 3) (s : State) : Outcome State Fault Refusal :=
  finish 1 (actVexp2 vd va m s)
/-- VLOG2 as an instruction (R167, R169, R170). -/
def execVlog2 (vd : VReg) (va : VReg) (m : BitVec 3) (s : State) : Outcome State Fault Refusal :=
  finish 1 (actVlog2 vd va m s)
/-- VTANH as an instruction (R167, R169, R170). -/
def execVtanh (vd : VReg) (va : VReg) (m : BitVec 3) (s : State) : Outcome State Fault Refusal :=
  finish 1 (actVtanh vd va m s)
/-- VCVT as an instruction (R171, R172). -/
def execVcvt (src : CvtType) (dst : CvtType) (inf : Bool) (vd : VReg) (va : VReg) (amod : Modifier) (m : BitVec 3) (rm : RmField) (s : State) :
    Outcome State Fault Refusal :=
  finish 1 (actVcvt src dst inf vd va amod m rm s)
/-- VPACK as an instruction (R173). -/
def execVpack (w : LaneW) (vd : VReg) (va : VReg) (vb : VReg) (m : BitVec 3) (s : State) : Outcome State Fault Refusal :=
  finish 1 (actVpack w vd va vb m s)
/-- VUNPK as an instruction (R174). -/
def execVunpk (w : LaneW) (sx : Bool) (vd : VReg) (va : VReg) (part : BitVec 3) (m : BitVec 3) (s : State) : Outcome State Fault Refusal :=
  finish 1 (actVunpk w sx vd va part m s)

end Sys2Proof.Machine
end

