-- ==== Sys2Proof/Machine/Motion.lean ====
section
/-! DEFINITION. Vector motion: majors 0x16 to 0x1B (R178 to R193): motion along an axis, reductions and scans, permutes and
scalar exchanges, transpose tiles, deferral rings, and vector memory accesses. -/

namespace Sys2Proof.Machine

open Host (Outcome)

/-- The guard of a word that has none: it always reads true. -/
def gTrue : Guard := ⟨0, false⟩

/-! ## Along a row and along a column (R180 to R182) -/

/-- VROTR: element (r, c) from (r, c + k) (R180). -/
def actVrotr (vd : VReg) (va : VReg) (k : BitVec 6) (m : MReg) (s : State) : Act :=
  s.vecPut m vd fun e => velem (s.vreg va) (64 * (e / 64) + (e % 64 + k.toNat) % 64)
/-- VBCR: element (r, c) from (r, k) (R180). -/
def actVbcr (vd : VReg) (va : VReg) (k : BitVec 6) (m : MReg) (s : State) : Act :=
  s.vecPut m vd fun e => velem (s.vreg va) (64 * (e / 64) + k.toNat)
/-- VROTC: element (r, c) from (r + k, c) (R180). -/
def actVrotc (vd : VReg) (va : VReg) (k : BitVec 4) (m : MReg) (s : State) : Act :=
  s.vecPut m vd fun e => velem (s.vreg va) (64 * ((e / 64 + k.toNat) % 16) + e % 64)
/-- VBCC: element (r, c) from (k, c) (R180). -/
def actVbcc (vd : VReg) (va : VReg) (k : BitVec 4) (m : MReg) (s : State) : Act :=
  s.vecPut m vd fun e => velem (s.vreg va) (64 * k.toNat + e % 64)

/-- The indices of a line: a row, or a column (R180). -/
def lineIdx (row : Bool) (i : Nat) : List Nat := if row then (upto 64).map (64 * i + ·) else (upto 16).map (64 * · + i)
/-- The line of an element. -/
def lineOfElem (row : Bool) (e : Nat) : Nat := if row then e / 64 else e % 64
/-- The position of an element in its line. -/
def posInLine (row : Bool) (e : Nat) : Nat := if row then e % 64 else e / 64

/-- A masked write of what each line's combination gives at each position; a line's flags count when it has an enabled element
(R182). -/
def State.lineOp (s : State) (row : Bool) (m : MReg) (vd va : VReg) (f : List Elem → List Elem × FFlags) : Act :=
  let k := s.mask m
  let src := s.vreg va
  let res : List (List Elem × FFlags) :=
    (upto (if row then 16 else 64)).map fun i => f ((lineIdx row i).map (velem src))
  let used := fun (i : Nat) => (lineIdx row i).any fun e => k.getLsbD e
  let fl := res.zipIdx.foldl (fun (acc : FFlags) (x, i) => if used i then acc ||| x.2 else acc) 0
  .done ((s.setVreg vd (maskMap k (s.vreg vd) fun e =>
    (res.getD (lineOfElem row e) ([], 0)).1.getD (posInLine row e) 0)).vflags fl)

/-- A reduction of every line (R182). -/
def State.redOf (s : State) (row : Bool) (op : RedOp) (vd va : VReg) (m : MReg) (rm : RmField) : Act :=
  s.lineOp row m vd va fun y =>
    let (v, fl) := reduceLine op (s.vrnd rm) (if row then 6 else 4) y 0
    (y.map fun _ => v, fl)
/-- A scan of every line (R182). -/
def State.scanOf (s : State) (row : Bool) (op : RedOp) (vd va : VReg) (m : MReg) (rm : RmField) : Act :=
  s.lineOp row m vd va fun y => scanLine op (s.vrnd rm) (if row then 6 else 4) 0 y 0

/-- VREDR (R180 to R182). -/
def actVredr (op : RedOp) (vd : VReg) (va : VReg) (m : MReg) (rm : RmField) (s : State) : Act := s.redOf true op vd va m rm
/-- VSCNR (R180 to R182). -/
def actVscnr (op : RedOp) (vd : VReg) (va : VReg) (m : MReg) (rm : RmField) (s : State) : Act := s.scanOf true op vd va m rm
/-- VREDC (R180 to R182). -/
def actVredc (op : RedOp) (vd : VReg) (va : VReg) (m : MReg) (rm : RmField) (s : State) : Act := s.redOf false op vd va m rm
/-- VSCNC (R180 to R182). -/
def actVscnc (op : RedOp) (vd : VReg) (va : VReg) (m : MReg) (rm : RmField) (s : State) : Act := s.scanOf false op vd va m rm

/-! ## Permute and exchange with scalars (R183) -/

/-- VPERM: bit 31 of an index gives zero, bits 9 to 0 name the element (R183). -/
def actVperm (vd : VReg) (va : VReg) (vb : VReg) (m : MReg) (s : State) : Act :=
  s.vecPut m vd fun e =>
    let i := velem (s.vreg vb) e
    if i.getLsbD 31 then 0 else velem (s.vreg va) (i.toNat % 1024)
/-- VMOV: each element read through amod (R183). -/
def actVmov (vd : VReg) (va : VReg) (amod : Modifier) (m : MReg) (s : State) : Act :=
  s.vecPut m vd fun e => joinLanes amod.w fun i => subMod amod.w amod (velem (s.vreg va) e) i
/-- VMOVS: the low half of x[n]; a port is popped even when no element is enabled (R183). -/
def actVmovs (vd : VReg) (n : BitVec 6) (m : MReg) (s : State) : Act :=
  s.begin gTrue [n] [] fun vs s1 => s1.vecPut m vd fun _ => (vs.getD 0 0).setWidth 32
/-- The lowest set bit of a mask. -/
def firstSet (m : VMask) : Option Nat := (upto 1024).find? fun e => m.getLsbD e
/-- VMOVX: the lowest enabled element, extended; zero when there is none (R183). -/
def actVmovx (n : BitVec 6) (va : VReg) (sx : Bool) (m : MReg) (s : State) : Act :=
  s.begin gTrue [] [n] fun _ s1 =>
    s.retire s1 n
      (match firstSet (s1.mask m) with
       | none => 0
       | some e => if sx then (velem (s1.vreg va) e).signExtend 64 else (velem (s1.vreg va) e).setWidth 64)

/-! ## Transpose tiles (R184, R185) -/

/-- Transpose tile z of the current core. -/
def State.ztile (s : State) (z : BitVec 2) : Vector Elem 4096 := (s.core s.curCore).z[z.toFin]
/-- Transpose tile z replaced. -/
def State.setZ (s : State) (z : BitVec 2) (t : Vector Elem 4096) : State :=
  s.updCore s.curCore fun c => { c with z := c.z.set z.toFin t }
/-- ZWR: rows 16q to 16q + 15 of the tile (R184). -/
def actZwr (z : BitVec 2) (va : VReg) (q : BitVec 2) (m : MReg) (s : State) : Act :=
  let k := s.mask m
  let old := s.ztile z
  .done (s.setZ z (Vector.ofFn fun (i : Fin 4096) =>
    if i.val / 1024 = q.toNat && k.getLsbD (i.val % 1024) then velem (s.vreg va) (i.val % 1024) else old[i]))
/-- ZRD: element (r, c) from column 16q + r, row c of the tile, converted unless the codes are equal (R184, R185). -/
def actZrd (src : CvtType) (dst : CvtType) (inf : Bool) (vd : VReg) (z : BitVec 2) (q : BitVec 2) (m : MReg) (rm : RmField)
    (s : State) : Act :=
  let at_ (e : Nat) : Elem := (s.ztile z).getD (64 * (e % 64) + 16 * q.toNat + e / 64) 0
  if src = dst then s.vecPut m vd at_
  else s.vecPutFl m vd fun e => cvtElem src dst inf (s.vrnd rm) ((at_ e).toNat % 2 ^ src.width)
/-- ZCLR (R184). -/
def actZclr (z : BitVec 2) (s : State) : Act := .done (s.setZ z (Vector.replicate 4096 0))

/-! ## The deferral ring (R186, R187) -/

/-- The ring of a bank of the current cluster. -/
def State.ring (s : State) (b : Nat) : Ring := (s.cluster s.curCl).rings.getD b ⟨none, []⟩
/-- The ring of a bank replaced; it is bound to the current core (R186). -/
def State.setRing (s : State) (b : Nat) (es : List Elem) : State :=
  s.updCluster s.curCl fun c => { c with rings := c.rings.setIfInBounds b ⟨some s.curCore, es⟩ }
/-- Whether the current core may use a bank as its ring: owned, in fifo mode, bound to no other core (R187). -/
def State.ringOk (s : State) (b : Nat) : Bool :=
  (s.owner s.curCl s.curCtx).bank.getLsbD b && (s.cluster s.curCl).modes.getD b .cache == .fifo &&
    ((s.ring b).bound == none || (s.ring b).bound == some s.curCore)
/-- The enabled elements, ascending. -/
def enabled (m : VMask) : List Nat := (upto 1024).filter fun e => m.getLsbD e
/-- DEFER: the enabled elements pushed in ascending order, or TILE 0x0A (R187). -/
def actDefer (va : VReg) (b : BitVec 6) (m : MReg) (s : State) : Act :=
  if !s.ringOk b.toNat then trapOf cACCESS 0 (b.setWidth 64) s
  else
    let es := enabled (s.mask m)
    let held := (s.ring b.toNat).entries
    if 32768 < held.length + es.length then trapOf cTILE 0x0A 0 s
    else .done (s.setRing b.toNat (held ++ es.map (velem (s.vreg va))))
/-- DRAIN: entries popped into the first enabled elements; the other enabled ones become zero (R187). -/
def actDrain (vd : VReg) (b : BitVec 6) (m : MReg) (s : State) : Act :=
  if !s.ringOk b.toNat then trapOf cACCESS 0 (b.setWidth 64) s
  else
    let es := enabled (s.mask m)
    let held := (s.ring b.toNat).entries
    let v := es.zipIdx.foldl (fun (v : VRegs) (e, i) => v.setIfInBounds e (held.getD i 0)) (s.vreg vd)
    .done ((s.setRing b.toNat (held.drop es.length)).setVreg vd v)
/-- DFCNT: the entries held (R187). -/
def actDfcnt (n : BitVec 6) (b : BitVec 6) (s : State) : Act :=
  s.begin gTrue [] [n] fun _ s1 =>
    if !s1.ringOk b.toNat then trapOf cACCESS 0 (b.setWidth 64) s
    else s.retire (s1.setRing b.toNat (s1.ring b.toNat).entries) n (BitVec.ofNat 64 (s1.ring b.toNat).entries.length)

/-! ## Vector memory access (R188 to R192) -/

/-- The class of VLD and VST (R188). -/
def vecCls (weak : Bool) : Cls := if weak then .weak else .plain

/-- The enabled elements of VLD and VST with their addresses (R188). -/
def pitchElts (k : VMask) (a b : Word) : List (Nat × Elt) :=
  (enabled k).map fun e => (e, ⟨leaW a (BitVec.ofNat 64 (e / 64) * b + BitVec.ofNat 64 (4 * (e % 64))), 4⟩)
/-- The enabled elements of VGATH and VSCAT with their addresses (R188). -/
def indexElts (k : VMask) (a : Word) (v : VRegs) : List (Nat × Elt) :=
  (enabled k).map fun e => (e, ⟨leaW a ((velem v e).setWidth 64), 4⟩)

/-- The operand and alignment checks of VLD and VST (R189). -/
def State.pitchCheck (s : State) (a b : Word) (l : List (Nat × Elt)) : Except Act Unit := do
  if 1 < spaceTag a then .error (trapOf cACCESS 0 a s)
  s.eltsOperand (l.map (·.2))
  if a.toNat % 64 ≠ 0 then .error (trapOf cALIGN 0 a s)
  else if b.toNat % 64 ≠ 0 then .error (trapOf cALIGN 0 (leaW a b) s) else .ok ()
/-- The operand and alignment checks of VGATH and VSCAT (R189). -/
def State.indexCheck (s : State) (a : Word) (l : List (Nat × Elt)) : Except Act Unit := do
  if 1 < spaceTag a then .error (trapOf cACCESS 0 a s)
  s.eltsOperand (l.map (·.2))
  match l.find? fun x => addr56 x.2.y % 4 != 0 with
  | some x => .error (trapOf cALIGN 0 x.2.y s)
  | none => .ok ()

/-- The remote elements of an access, numbered by their place in it, with destination and offset. -/
def remoteElts (ps : List (Elt × Spot)) : List (Nat × Elt × Nat × Nat) :=
  ps.zipIdx.filterMap fun (x, i) => match x.2 with
    | .mem (.remote d o) => some (i, x.1, d, o)
    | .mem (.home _) => none
    | .mem (.host _) => none
    | .tile _ => none

/-- The requests of a vector load's remote elements issued in order, as far as the limits let them (R335; DEDUCED log 21). -/
def State.vecIssue (s : State) (gth : Bool) : List (Nat × Elt × Nat × Nat) → Except Act State
  | [] => .ok s
  | (i, e, d, o) :: rest =>
    if s.remoteRoom s.curCore s.curSt d false then
      ((s.remoteAdd s.curCore s.curSt (.vload i gth) d o e.y e.n false 0).updMe fun t =>
        { t with vecPos := t.vecPos + 1 }).vecIssue gth rest
    else .error (.wait (.remoteLimit d false) s)

/-- The progress of a vector access ended. -/
def State.vecEnd (s : State) : State := s.updMe fun t => { t with vecPos := 0, vecGot := [], vstPos := 0 }

/-- Whether a request is for an element of a vector load. -/
def RemoteKind.isVload : RemoteKind → Bool
  | .vload _ _ => true | .load _ _ _ _ => false | .store _ => false | .atom _ _ _ => false | .copy _ => false | .coll _ => false
  | .line _ _ _ _ => false

/-- The remote elements of a vector load issued and answered (R331): those that the lists do not supply whole (R247). -/
def State.vecAwait (s : State) (gth : Bool) (lb : List (List (Option Byte))) (ps : List (Elt × Spot)) : Except Act State := do
  let need := (remoteElts ps).filter fun x => !(lb.getD x.1 []).all Option.isSome
  let s1 ← s.vecIssue gth (need.drop s.me.vecPos)
  match s1.me.remote.find? fun r => r.kind.isVload with
  | some r => .error (.wait (.remoteAnswer r.tag) s1)
  | none => .ok s1

/-- A vector load (R188 to R192): the elements read, the enabled ones written. -/
def State.vecLoad (s : State) (vd : VReg) (c : Cls) (l : List (Nat × Elt)) : Except Act State := do
  let (ps, s1) ← viaShadow (s.eltsPlace false none (l.map (·.2)))
  s1.eltsRemote c false ps
  let (lb, s2) ← s1.listedAll ps
  let s3 ← s2.vecAwait c.isGather lb ps
  let (bs, s4) ← s3.gatherWith c false lb ps
  let v := (l.zip bs).foldl (fun (v : VRegs) x => v.setIfInBounds x.1.1 (BitVec.ofNat 32 (leNat x.2))) (s4.vreg vd)
  .ok ((s4.setVreg vd v).vecEnd)

/-- The runs of a vector store performed in ascending element, a remote element as a request of its own; a run that must wait keeps
the progress of those before it (R190, R335; DEDUCED log 21). -/
def State.vecRuns (s : State) (gth : Bool) (c : Cls) : List Run → Except Act State
  | [] => .ok s
  | r :: rest => do
    let s1 ← match r.spot with
      | .tile t => s.tileRun t c r.bytes
      | .mem (.remote d o) => do
        let s1 ← s.remoteIssue (.store gth) d o (r.line + BitVec.ofNat 64 ((r.bytes.map (·.1)).headD 0)) r.bytes.length false false
          (leNat (r.bytes.map (·.2)))
        .ok (s1.writeOrder (Loc.remote d o).key r.bytes.length c false)
      | .mem l => s.writeLoc l r.bytes c false
    (s1.updMe fun t => { t with vstPos := t.vstPos + 1 }).vecRuns gth c rest

/-- A vector store (R188 to R192): checked whole, then the enabled elements in ascending order. One that has begun goes on where it
stood. -/
def State.vecStore (s : State) (vd : VReg) (gth : Bool) (c : Cls) (l : List (Nat × Elt)) : Except Act State := do
  let (ps, s1) ← viaShadow (s.eltsPlace true none (l.map (·.2)))
  let runs := runsOf true (ps.zip (l.map fun x => leBytes 4 (velem (s.vreg vd) x.1).toNat))
  if s.me.vstPos = 0 then
    s1.eltsRemote c true ps
    let (put, s2) ← s1.runsBegin c ps runs
    let s3 ← s2.vecRuns gth c put
    .ok s3.vecEnd
  else
    let s2 ← s1.vecRuns gth c (runs.drop s.me.vstPos)
    .ok s2.vecEnd

/-- VLD (R188 to R192). -/
def actVld (g : Guard) (vd : VReg) (a : XReg) (b : XReg) (m : MReg) (weak : Bool) (s : State) : Act :=
  s.memBegin g [a, b] [] fun vs => do
    let l := pitchElts (s.mask m) (vs.getD 0 0) (vs.getD 1 0)
    s.pitchCheck (vs.getD 0 0) (vs.getD 1 0) l
    s.vecLoad vd (vecCls weak) l
/-- VST (R188 to R192). -/
def actVst (g : Guard) (vd : VReg) (a : XReg) (b : XReg) (m : MReg) (weak : Bool) (s : State) : Act :=
  s.memBegin g [a, b] [] fun vs => do
    let l := pitchElts (s.mask m) (vs.getD 0 0) (vs.getD 1 0)
    s.pitchCheck (vs.getD 0 0) (vs.getD 1 0) l
    s.vecStore vd false (vecCls weak) l
/-- VGATH (R188 to R192). -/
def actVgath (g : Guard) (vd : VReg) (a : XReg) (vb : VReg) (m : MReg) (weak : Bool) (s : State) : Act :=
  s.memBegin g [a] [] fun vs => do
    let l := indexElts (s.mask m) (vs.getD 0 0) (s.vreg vb)
    s.indexCheck (vs.getD 0 0) l
    s.vecLoad vd (.gather weak) l
/-- VSCAT (R188 to R192). -/
def actVscat (g : Guard) (vd : VReg) (a : XReg) (vb : VReg) (m : MReg) (weak : Bool) (s : State) : Act :=
  s.memBegin g [a] [] fun vs => do
    let l := indexElts (s.mask m) (vs.getD 0 0) (s.vreg vb)
    s.indexCheck (vs.getD 0 0) l
    s.vecStore vd true (.gather weak) l

/-! ## The instructions -/

/-- VROTR as an instruction (R180). -/
def execVrotr (vd : VReg) (va : VReg) (k : BitVec 6) (m : MReg) (s : State) : Outcome State Fault Refusal :=
  finish 1 (actVrotr vd va k m s)
/-- VBCR as an instruction (R180). -/
def execVbcr (vd : VReg) (va : VReg) (k : BitVec 6) (m : MReg) (s : State) : Outcome State Fault Refusal :=
  finish 1 (actVbcr vd va k m s)
/-- VROTC as an instruction (R180). -/
def execVrotc (vd : VReg) (va : VReg) (k : BitVec 4) (m : MReg) (s : State) : Outcome State Fault Refusal :=
  finish 1 (actVrotc vd va k m s)
/-- VBCC as an instruction (R180). -/
def execVbcc (vd : VReg) (va : VReg) (k : BitVec 4) (m : MReg) (s : State) : Outcome State Fault Refusal :=
  finish 1 (actVbcc vd va k m s)
/-- VREDR as an instruction (R180, R181, R182). -/
def execVredr (op : RedOp) (vd : VReg) (va : VReg) (m : MReg) (rm : RmField) (s : State) : Outcome State Fault Refusal :=
  finish 1 (actVredr op vd va m rm s)
/-- VSCNR as an instruction (R180, R181, R182). -/
def execVscnr (op : RedOp) (vd : VReg) (va : VReg) (m : MReg) (rm : RmField) (s : State) : Outcome State Fault Refusal :=
  finish 1 (actVscnr op vd va m rm s)
/-- VREDC as an instruction (R180, R181, R182). -/
def execVredc (op : RedOp) (vd : VReg) (va : VReg) (m : MReg) (rm : RmField) (s : State) : Outcome State Fault Refusal :=
  finish 1 (actVredc op vd va m rm s)
/-- VSCNC as an instruction (R180, R181, R182). -/
def execVscnc (op : RedOp) (vd : VReg) (va : VReg) (m : MReg) (rm : RmField) (s : State) : Outcome State Fault Refusal :=
  finish 1 (actVscnc op vd va m rm s)
/-- VPERM as an instruction (R183). -/
def execVperm (vd : VReg) (va : VReg) (vb : VReg) (m : MReg) (s : State) : Outcome State Fault Refusal :=
  finish 1 (actVperm vd va vb m s)
/-- VMOV as an instruction (R183). -/
def execVmov (vd : VReg) (va : VReg) (amod : Modifier) (m : MReg) (s : State) : Outcome State Fault Refusal :=
  finish 1 (actVmov vd va amod m s)
/-- VMOVS as an instruction (R183). -/
def execVmovs (vd : VReg) (n : BitVec 6) (m : MReg) (s : State) : Outcome State Fault Refusal := finish 1 (actVmovs vd n m s)
/-- VMOVX as an instruction (R183). -/
def execVmovx (n : BitVec 6) (va : VReg) (sx : Bool) (m : MReg) (s : State) : Outcome State Fault Refusal :=
  finish 1 (actVmovx n va sx m s)
/-- ZWR as an instruction (R184). -/
def execZwr (z : BitVec 2) (va : VReg) (q : BitVec 2) (m : MReg) (s : State) : Outcome State Fault Refusal :=
  finish 1 (actZwr z va q m s)
/-- ZRD as an instruction (R184, R185). -/
def execZrd (src : CvtType) (dst : CvtType) (inf : Bool) (vd : VReg) (z : BitVec 2) (q : BitVec 2) (m : MReg) (rm : RmField) (s : State) :
    Outcome State Fault Refusal :=
  finish 1 (actZrd src dst inf vd z q m rm s)
/-- ZCLR as an instruction (R184). -/
def execZclr (z : BitVec 2) (s : State) : Outcome State Fault Refusal := finish 1 (actZclr z s)
/-- DEFER as an instruction (R187). -/
def execDefer (va : VReg) (b : BitVec 6) (m : MReg) (s : State) : Outcome State Fault Refusal := finish 1 (actDefer va b m s)
/-- DRAIN as an instruction (R187). -/
def execDrain (vd : VReg) (b : BitVec 6) (m : MReg) (s : State) : Outcome State Fault Refusal := finish 1 (actDrain vd b m s)
/-- DFCNT as an instruction (R187). -/
def execDfcnt (n : BitVec 6) (b : BitVec 6) (s : State) : Outcome State Fault Refusal := finish 1 (actDfcnt n b s)
/-- VLD as an instruction (R188). -/
def execVld (g : Guard) (vd : VReg) (a : XReg) (b : XReg) (m : MReg) (weak : Bool) (s : State) : Outcome State Fault Refusal :=
  finish 1 (actVld g vd a b m weak s)
/-- VST as an instruction (R188). -/
def execVst (g : Guard) (vd : VReg) (a : XReg) (b : XReg) (m : MReg) (weak : Bool) (s : State) : Outcome State Fault Refusal :=
  finish 1 (actVst g vd a b m weak s)
/-- VGATH as an instruction (R188). -/
def execVgath (g : Guard) (vd : VReg) (a : XReg) (vb : VReg) (m : MReg) (weak : Bool) (s : State) : Outcome State Fault Refusal :=
  finish 1 (actVgath g vd a vb m weak s)
/-- VSCAT as an instruction (R188). -/
def execVscat (g : Guard) (vd : VReg) (a : XReg) (vb : VReg) (m : MReg) (weak : Bool) (s : State) : Outcome State Fault Refusal :=
  finish 1 (actVscat g vd a vb m weak s)

end Sys2Proof.Machine
end

