-- ==== Sys2Proof/Machine/Block.lean ====
section
/-! DEFINITION. Quantised blocks: major 0x1C (R201, R207 to R212). -/

namespace Sys2Proof.Machine

open Host (Outcome)

/-- The blocks that a mask enables, ascending: each by its first element (R207). -/
def enabledBlocks (k : VMask) : List Nat := (upto 32).filter fun j => k.getLsbD (32 * j)
/-- The address of block j (R207). -/
def blockAddr (k : BlkClass) (a : Word) (j : Nat) : Word := leaW a (BitVec.ofNat 64 (j * blkBytes k))
/-- The pieces of a block, by line. -/
def blockElts (k : BlkClass) (a : Word) (j : Nat) : List Elt := cutLines (blockAddr k a j) (blkBytes k) (blkBytes k)

/-- The operand and alignment checks of QST, QLD and LVLD (R211). -/
def State.blockCheck (s : State) (a : Word) (l : List Elt) : Except Act Unit := do
  if 1 < spaceTag a then .error (trapOf cACCESS 0 a s)
  s.eltsOperand l
  if a.getLsbD 0 then .error (trapOf cALIGN 0 a s) else .ok ()

/-- The block state of the current context, read once (R202). -/
def State.blk (s : State) : BlkCtx := (s.ctx s.curCtx).blk

/-- The 32 inputs of block j of a register (R207). -/
def blockInputs (v : VRegs) (j : Nat) : List Nat := (upto 32).map fun i => (velem v (32 * j + i)).toNat

/-- Bytes laid on pieces. -/
def onElts : List Elt → List Byte → List (Elt × List Byte)
  | [], _ => []
  | e :: es, bs => (e, bs.take e.n) :: onElts es (bs.drop e.n)

/-- QST: every enabled block chosen and written in carriage form (R207 to R209). -/
def actQst (g : Guard) (k : BlkClass) (vd : VReg) (a : XReg) (m : MReg) (s : State) : Act :=
  s.memBegin g [a] [] fun vs => do
    let y := vs.getD 0 0
    let js := enabledBlocks (s.mask m)
    s.blockCheck y (js.flatMap (blockElts k y))
    s.writeElts false .plain (js.flatMap fun j =>
      onElts (blockElts k y j) (blockBytes k (pickBlock s.blk k (blockInputs (s.vreg vd) j))))

/-- A corrected header counted (R197). -/
def State.countHdr (s : State) (core : Nat) : State :=
  s.updCore core fun c => { c with hdrCorr := if c.hdrCorr = BitVec.allOnes 32 then c.hdrCorr else c.hdrCorr + 1 }

/-- A header checked: corrections are counted; SELF with the header's address (R196, R197). -/
def State.headerCheck (s : State) (core : Nat) (x : BlkCtx) (k : BlkClass) (h : BitVec 16) : State × Option Nat :=
  let v := hdrCheck h
  let s1 := match v with | .ok _ true => s.countHdr core | .ok _ false => s | .double => s
  (s1, hdrSelf x k v)

/-- The headers of blocks checked in ascending order: the state with its counts, and the first SELF. -/
def State.headersCheck (s : State) (core : Nat) (x : BlkCtx) (k : BlkClass) : List (Word × BitVec 16) → State × Option Trap
  | [] => (s, none)
  | (a, h) :: rest =>
    match s.headerCheck core x k h with
    | (s1, some sub) => (s1, some ⟨cSELF, BitVec.ofNat 8 sub, a⟩)
    | (s1, none) => s1.headersCheck core x k rest

/-- The header a reader uses: the corrected copy (R197). -/
def hdrUsed (h : BitVec 16) : BitVec 16 := match hdrCheck h with | .ok h' _ => h' | .double => h

/-- The FP32 code of element i of a block in carriage form (R199, R210). -/
def blockElem (x : BlkCtx) (k : BlkClass) (bs : List Byte) (i : Nat) : Elem :=
  let h := hdrUsed (BitVec.ofNat 16 (leNat (bs.take 2)))
  let v := elemValue x k h (payCode k (leNat (bs.drop 2)) i)
  BitVec.ofNat 32 (fp32.ofVal .rne v).1

/-- QLD: every enabled block's header checked, then its elements decoded (R210). -/
def actQld (g : Guard) (k : BlkClass) (vd : VReg) (a : XReg) (m : MReg) (s : State) : Act :=
  s.memBegin g [a] [] fun vs => do
    let y := vs.getD 0 0
    let x := s.blk
    let js := enabledBlocks (s.mask m)
    let el := js.flatMap fun j => (blockElts k y j).zipIdx.map fun e => (j, e.2, e.1)
    s.blockCheck y (el.map (·.2.2))
    let hdrs (bs : List (Option (List Byte))) : List (Word × BitVec 16) :=
      (el.zip bs).filterMap fun p =>
        if p.1.2.1 = 0 then p.2.map fun b => (p.1.2.2.y, BitVec.ofNat 16 (leNat (b.take 2))) else none
    let (bs, s2) ← s.readElts true (el.map (·.2.2)) fun bs s1 =>
      match s1.headersCheck s.curCore x k (hdrs bs) with
      | (s2, some t) => (s2, some (.trap t (s.updCore s.curCore fun c => { c with hdrCorr := (s2.core s.curCore).hdrCorr })))
      | (s2, none) => (s2, none)
    let body (j : Nat) : List Byte := ((el.zip bs).filter fun p => p.1.1 == j).flatMap (·.2)
    let blocks := js.map fun j => (j, body j)
    let v := blocks.foldl
      (fun (v : VRegs) (jb : Nat × List Byte) =>
        (upto 32).foldl (fun v i => v.setIfInBounds (32 * jb.1 + i) (blockElem x k jb.2 i)) v) (s2.vreg vd)
    .ok (s2.setVreg vd v)

/-! ## Level tables (R200, R201) -/

/-- Whether an entry may not stand in a level table: NaN, infinite, or nonzero beyond the limits (R201). -/
def badLevel (e : BitVec 16) : Bool :=
  let mag := e.toNat % 2 ^ 15
  mag != 0 && (decide (mag / 128 < 63) || decide (191 ≤ mag / 128))
/-- The index of the entry at which a table is refused: the lowest bad one, else 0 when every entry is zero (R201). -/
def refusedLevel (t : List (BitVec 16)) : Option Nat :=
  match t.findIdx? badLevel with
  | some j => some j
  | none => if t.all fun e => e.toNat % 2 ^ 15 == 0 then some 0 else none
/-- The entries that bytes hold. -/
def levelsOf : List Byte → List (BitVec 16)
  | a :: b :: rest => BitVec.ofNat 16 (leNat [a, b]) :: levelsOf rest
  | _ => []

/-- LVLD: 2^K entries read as plain loads, checked, installed (R201). -/
def actLvld (g : Guard) (k : BlkClass) (tb : Bool) (a : XReg) (s : State) : Act :=
  s.memBegin g [a] [] fun vs => do
    let y := vs.getD 0 0
    let n := 2 * 2 ^ blkK k
    let el := cutLines y 20 n
    s.blockCheck y el
    let self (j : Nat) (s1 : State) : Act := trapOf cSELF 4 (leaW y (BitVec.ofNat 64 (2 * j))) s1
    let (bs, s1) ← s.readElts true el fun bs s1 =>
      (s1, if bs.all Option.isSome then (refusedLevel (levelsOf (bs.flatMap (·.getD [])))).map fun j => self j s1
        else none)
    let t := (levelsOf bs.flatten).map fun e => if e = 0x8000 then 0 else e
    let i := lvlIndex k tb
    .ok (s1.updCtx s1.curCtx fun c =>
      { c with blk := { c.blk with lvlbase := setBit c.blk.lvlbase i true, tables := c.blk.tables.setIfInBounds i t } })

/-! ## QCFG (R212) -/

/-- The word of an enabled plat of a partition that a context owns and that covers a physical address (R212). -/
def State.platWord (s : State) (p ctx pa : Nat) : Word :=
  match (upto 32).find? fun k =>
      let x := s.plat p k
      x.en && field x.ctl 41 32 == ctx && decide (x.base ≤ pa) && decide (pa < x.base + x.blocks * x.blk) with
  | none => 0
  | some k =>
    let x := s.plat p k
    BitVec.ofNat 64 (2 ^ 63 + (if x.ctl.getLsbD 3 then 2 ^ 11 else 0) + (if x.hp then 2 ^ 10 else 0) +
      field x.ctl 1 0 * 2 ^ 8 + k)

/-- QCFG: the plat that covers a translated address (R212). -/
def actQcfg (g : Guard) (d : XReg) (a : XReg) (s : State) : Act :=
  s.memBegin g [a] [d] fun vs => do
    let y := vs.getD 0 0
    if spaceTag y ≠ 0 then .error (trapOf cACCESS 0 y s) else
    let (l, s1) ← s.locate s.curCl s.curCtx (addr56 y) false
    let w := match l with
      | .home pa => s1.platWord s1.curPart s1.curCtx pa
      | .host _ => 0
      | .remote _ _ => 0
    match s1.writeReg d w with
    | .ok s2 => .ok s2
    | .error e => .error (.wait e s)

/-! ## The instructions -/

/-- QST as an instruction (R207). -/
def execQst (g : Guard) (k : BlkClass) (vd : VReg) (a : XReg) (m : MReg) (s : State) : Outcome State Fault Refusal :=
  finish 1 (actQst g k vd a m s)
/-- QLD as an instruction (R210). -/
def execQld (g : Guard) (k : BlkClass) (vd : VReg) (a : XReg) (m : MReg) (s : State) : Outcome State Fault Refusal :=
  finish 1 (actQld g k vd a m s)
/-- LVLD as an instruction (R201). -/
def execLvld (g : Guard) (k : BlkClass) (tb : Bool) (a : XReg) (s : State) : Outcome State Fault Refusal :=
  finish 1 (actLvld g k tb a s)
/-- QCFG as an instruction (R212). -/
def execQcfg (g : Guard) (d : XReg) (a : XReg) (s : State) : Outcome State Fault Refusal := finish 1 (actQcfg g d a s)

end Sys2Proof.Machine
end

