-- ==== Sys2Proof/Machine/Flagq.lean ====
section
/-! DEFINITION. Engine command queues and flags: major 0x22 and what the pushing instructions share (R126 to R131). -/

namespace Sys2Proof.Machine

open Host (Outcome)

/-- A target's queue of a core. -/
def Core.queueOf (c : Core) (t : FlagTarget) : List QEntry :=
  match t with | .self => [] | .copy => c.copyQ | .matrix => c.matQ | .collective => c.colQ
/-- A target's queue replaced. -/
def Core.setQueue (c : Core) (t : FlagTarget) (q : List QEntry) : Core :=
  match t with
  | .self => c | .copy => { c with copyQ := q } | .matrix => { c with matQ := q } | .collective => { c with colQ := q }
/-- A queue's depth (R126). -/
def queueDepth : FlagTarget → Nat
  | .self => 1 | .copy => 32 | .matrix => 16 | .collective => 16

/-- Whether a queue of the current core has room for a push: an entry occupies it until it completes, and the matrix queue
accepts none while a fault of the array has not reached M's handler (R126, R223, R237; DEDUCED log 52). -/
def State.queueRoom (s : State) (t : FlagTarget) : Bool :=
  decide (((s.core s.curCore).queueOf t).length < queueDepth t) && (t != .matrix || (s.core s.curCore).array.pendFault.isNone)

/-- The core's next push sequence number taken (R127). -/
def State.takeSeq (s : State) : Nat × State :=
  ((s.core s.curCore).push, s.updCore s.curCore fun c => { c with push := c.push + 1 })

/-- The command of a replay that a stream pushes again, if it is the next of that stream's that have issued since the mark, and the
backsight without it (R350). -/
def Backsight.repush (b : Backsight) (k : StreamId) (cmd : EngineCmd) : Option (Nat × Backsight) :=
  match b.again.find? (·.by_ == k) with
  | some q => if q.cmd = cmd then some (q.seq, { b with again := b.again.filter (·.seq != q.seq) }) else none
  | none => none

/-- The push of the current stream that a replay repeats, if it is one. -/
def State.repush (s : State) (cmd : EngineCmd) : Option (Nat × Backsight) := (s.core s.curCore).back.repush s.curSt cmd

/-- The number that a push of the current stream receives: the next one, or in a replay the one that the command had (R127, R350). -/
def State.pushNumber (s : State) (cmd : EngineCmd) : Nat :=
  match s.repush cmd with | some r => r.1 | none => (s.core s.curCore).push

/-- A command pushed by the current stream with the next number (R127); one that has issued already is not pushed again (R350). -/
def State.pushCmd (s : State) (t : FlagTarget) (cmd : EngineCmd) : State :=
  match s.repush cmd with
  | some r => s.updCore s.curCore fun c => { c with back := r.2 }
  | none =>
    let (n, s1) := s.takeSeq
    s1.updCore s.curCore fun c => c.setQueue t (c.queueOf t ++ [⟨n, s.curSt, cmd, false, [], ⟨none, 0⟩⟩])

/-- Flag n of a core. -/
def Core.flag (c : Core) (n : Nat) : EFlag := c.flags.getD n default
/-- Flag n of a core updated. -/
def State.updFlag (s : State) (core n : Nat) (f : EFlag → EFlag) : State :=
  s.updCore core fun c => { c with flags := c.flags.setIfInBounds n (f (c.flag n)) }
/-- A flag fires with a number, set by a stream (R131). -/
def State.fireFlag (s : State) (core n seq : Nat) (k : StreamId) : State :=
  s.updFlag core n fun f => { f with fire := max f.fire seq, by_ := k }
/-- A flag is cleared with a number by a stream (R131). -/
def State.clearFlag (s : State) (core n seq : Nat) (k : StreamId) : State :=
  s.updFlag core n fun f => { f with clr := max f.clr seq, by_ := k }
/-- Whether a flag is set (R130). -/
def EFlag.isSet (f : EFlag) : Bool := decide (f.clr < f.fire)

/-- FSET: ARM takes the number; the flag fires at once for the stream itself, else a marker is pushed (R131). -/
def actFset (g : Guard) (n : BitVec 6) (tg : FlagTarget) (s : State) : Act :=
  if !s.guardOn g then .done s
  else if tg = .self then
    let (k, s1) := s.takeSeq
    .done ((s1.updFlag s.curCore n.toNat fun f => { f with arm := k }).fireFlag s.curCore n.toNat k s.curSt)
  else if !s.queueRoom tg then .wait (.engineQueue tg) s
  else
    .done ((s.pushCmd tg (.fset n.toNat)).updFlag s.curCore n.toNat fun f =>
      { f with arm := s.pushNumber (.fset n.toNat), by_ := s.curSt })

/-- FCLR (R131). -/
def actFclr (g : Guard) (n : BitVec 6) (tg : FlagTarget) (s : State) : Act :=
  if !s.guardOn g then .done s
  else if tg = .self then
    let (k, s1) := s.takeSeq
    .done (s1.clearFlag s.curCore n.toNat k s.curSt)
  else if !s.queueRoom tg then .wait (.engineQueue tg) s
  else .done (s.pushCmd tg (.fclr n.toNat))

/-- FWAIT: the stream waits until the flag is set; for a queue, FWDW when no earlier setter stands, else a marker (R131). A queue
that is full is waited for first (DESIGN CHOICE log 81: the spec gives no order of that wait and the test). -/
def actFwait (g : Guard) (n : BitVec 6) (tg : FlagTarget) (s : State) : Act :=
  let f := (s.core s.curCore).flag n.toNat
  if !s.guardOn g then .done s
  else if tg = .self then
    if f.isSet then .done s.takeSeq.2 else .wait (.flag n.toNat) s
  else if !s.queueRoom tg then .wait (.engineQueue tg) s
  else if f.arm ≤ f.clr then trapOf cFWDW 0 (n.setWidth 64) s
  else .done (s.pushCmd tg (.fwait n.toNat f.arm))

/-! ## The instructions -/

/-- FSET as an instruction (R131). -/
def execFset (g : Guard) (n : BitVec 6) (tg : FlagTarget) (s : State) : Outcome State Fault Refusal :=
  finish 1 (actFset g n tg s)
/-- FCLR as an instruction (R131). -/
def execFclr (g : Guard) (n : BitVec 6) (tg : FlagTarget) (s : State) : Outcome State Fault Refusal :=
  finish 1 (actFclr g n tg s)
/-- FWAIT as an instruction (R131). -/
def execFwait (g : Guard) (n : BitVec 6) (tg : FlagTarget) (s : State) : Outcome State Fault Refusal :=
  finish 1 (actFwait g n tg s)

end Sys2Proof.Machine
end

