-- ==== Sys2Proof/Machine/Tiles.lean ====
section
/-! DEFINITION. Bank modes, the tile table and copy commands: majors 0x20 and 0x21 (R135 to R146). -/

namespace Sys2Proof.Machine

open Host (Outcome)

/-! ## Tile descriptors (R137) -/

/-- BANK0 of a descriptor. -/
def tdBank (d : Word) : Nat := field d 57 52
/-- The number of banks. -/
def tdBanks (d : Word) : Nat := field d 51 46 + 1
/-- ELEM. -/
def tdElem (d : Word) : Nat := field d 39 36
/-- Rows. -/
def tdRows (d : Word) : Nat := field d 35 24 + 1
/-- Columns. -/
def tdCols (d : Word) : Nat := field d 23 12 + 1
/-- The bytes of a row of elements. -/
def tdRowBytes (d : Word) : Nat :=
  match tdElem d with
  | 0 => 4 * tdCols d | 1 => 2 * tdCols d | 2 => 2 * tdCols d | 3 => 8 * tdCols d | 4 => tdCols d | 5 => 2 * tdCols d
  | 6 => 4 * tdCols d | 7 => 34 * (tdCols d / 32) | 8 => 26 * (tdCols d / 32) | _ => 18 * (tdCols d / 32)
/-- The pitch P: a row's bytes rounded up to 64. -/
def tdPitch (d : Word) : Nat := (tdRowBytes d + 63) / 64 * 64
/-- The tile's bytes. -/
def tdSize (d : Word) : Nat := tdRows d * tdPitch d
/-- The tile's first offset in tile space. -/
def tdBase (d : Word) : Nat := tdBank d * 0x20000
/-- Whether a descriptor's own fields are refused (R139, SUB 0x02). -/
def tdBad (d : Word) : Bool :=
  field d 63 58 != 0 || field d 45 40 != 0 || field d 11 0 != 0 || decide (9 < tdElem d) ||
    (decide (7 ≤ tdElem d) && tdCols d % 32 != 0)
/-- Whether two tiles' ranges overlap. -/
def tdMeets (a b : Word) : Bool := meets (tdBase a) (tdBase a + tdSize a - 1) (tdBase b) (tdBase b + tdSize b - 1)
/-- Whether a tile's range covers a byte of a bank: a tile covers the banks in which its bytes lie, not all that BANK0 and NB name
(R136; DESIGN CHOICE log 82). -/
def tdCovers (d : Word) (b : Nat) : Bool := meets (tdBase d) (tdBase d + tdSize d - 1) (b * 0x20000) (b * 0x20000 + 0x1FFFF)

/-- A tile entry of a cluster. -/
def Cluster.tile (c : Cluster) (t : Nat) : Option Tile := c.tiles.getD t none
/-- A tile entry of a cluster replaced. -/
def State.setTile (s : State) (cl t : Nat) (x : Option Tile) : State :=
  s.updCluster cl fun c => { c with tiles := c.tiles.setIfInBounds t x }

/-- Whether a range held in a cluster's tile space meets an interval: none for any range, else write ranges only. -/
def Cluster.holds (c : Cluster) (lo hi : Nat) : Bool := c.ranges.any fun r => r.slice.isNone && meets r.lo r.hi lo hi

/-! ## BANKCFG (R136) -/

/-- A bank's mode changed at one instant (R136): its bytes become zero on entry to tile mode, its ring is empty on entry to fifo
mode; lines of a cache way that departs are in L2 already. What the bank held no reader sees any more. -/
def State.switchBank (s : State) (cl b : Nat) (mode : BankMode) : State :=
  (s.settleLines fun l => decide (tileKey cl (b * 0x20000) ≤ 64 * l) && decide (64 * l < tileKey cl (b * 0x20000 + 0x20000))).updCluster cl fun c =>
    { c with
      modes := c.modes.setIfInBounds b mode
      store := if mode = .tile then c.store.filter fun x => x.1 / 0x20000 != b else c.store
      badStore := if mode = .tile then c.badStore.filter fun l => l / 0x800 != b else c.badStore
      rings := if mode = .fifo then c.rings.setIfInBounds b ⟨none, []⟩ else c.rings }

/-- The code of a bank mode as x[d] receives it (R136). -/
def modeWord (m : BankMode) : Word := m.code.setWidth 64

/-- BANKCFG on bank b: c is a field of the word that an RPT stride moves (R136). -/
def actBankcfg (g : Guard) (d : XReg) (b : XReg) (mode : BankMode) (s : State) : Act :=
  s.begin g [] [d] fun _ s1 =>
    let n := b.toNat
    let c := s1.cluster s1.curCl
    let cur := c.modes.getD n .cache
    if !(s1.owner s1.curCl s1.curCtx).bank.getLsbD n then trapOf cACCESS 0 (b.setWidth 64) s
    else if mode = cur then s.retire s1 d (modeWord cur)
    else if cur = .tile && c.tiles.toList.any (fun t => t.any fun x => tdCovers x.desc n) then trapOf cTILE 0x0C 0 s
    else if cur = .fifo && (c.rings.getD n ⟨none, []⟩).bound.isSome then trapOf cTILE 0x06 0 s
    else if c.holds (n * 0x20000) (n * 0x20000 + 0x1FFFF) then .wait (.bankRange n) s
    else s.retire (s1.switchBank s1.curCl n mode) d (modeWord cur)

/-! ## TDEF, TSET, TREL (R138 to R140) -/

/-- The TILE subcause of a TDEF, if it is refused (R139). -/
def State.tdefCase (s : State) (cl ctx t : Nat) (d : Word) : Option Nat :=
  let c := s.cluster cl
  if (c.tile t).isSome then some 1
  else if tdBad d then some 2
  else if 64 < tdBank d + tdBanks d then some 3
  else if (upto (tdBanks d)).any fun i =>
      c.modes.getD (tdBank d + i) .cache != .tile || !(s.owner cl ctx).bank.getLsbD (tdBank d + i) then some 4
  else if tdBanks d * 131072 < tdSize d then some 5
  else if c.tiles.toList.any fun x => x.any fun y => tdMeets y.desc d then some 7
  else none

/-- Whether a defined tile belongs to another context. -/
def Tile.foreign (x : Tile) (ctx : Nat) : Bool := x.owner != ctx

/-- TDEF (R139). -/
def actTdef (g : Guard) (d : XReg) (t : BitVec 8) (a : XReg) (s : State) : Act :=
  s.begin g [a] [d] fun vs s1 =>
    let n := t.toNat
    let v := vs.getD 0 0
    if ((s1.cluster s1.curCl).tile n).any (·.foreign s1.curCtx) then trapOf cACCESS 0 (t.setWidth 64) s
    else
      match s1.tdefCase s1.curCl s1.curCtx n v with
      | some k => trapOf cTILE k 0 s
      | none =>
        s.retire (s1.setTile s1.curCl n (some ⟨v, s1.curCtx, (s1.core s1.curCore).kernel, .empty⟩)) d
          (BitVec.ofNat 64 (2 ^ 56 + tdBase v))

/-- The state that TSET names. -/
def tsetTo : TsetState → TileState
  | .empty => .empty | .filling => .filling | .ready => .ready | .draining => .draining
/-- The code of a tile state (R139). -/
def tileCode : TileState → Nat
  | .empty => 0 | .filling => 1 | .ready => 2 | .draining => 3
/-- Whether R138 lets TSET move an entry from one state to another. -/
def tsetOk (a b : TileState) : Bool :=
  match a, b with
  | .empty, .ready => true | .filling, .ready => true | .empty, .filling => true | .ready, .draining => true
  | .filling, .empty => true | .ready, .empty => true | .draining, .empty => true
  | _, _ => false

/-- The write range in tile space of a copy command (R145, R149), as an interval, when its destination is there. -/
def CopyCmd.writeTile (c : CopyCmd) : Option (Nat × Nat) :=
  let e := 64 * 2 ^ c.sz
  if spaceTag c.a ≠ 1 then none
  else
    let last : Int := if c.kind = 1 then (c.cnt * e : Nat) else c.step * 64 * c.cnt
    let lo := (addr56 c.a : Int) + min 0 last
    let hi := (addr56 c.a : Int) + max 0 last + e - 1
    some (lo.toNat, hi.toNat)

/-- Whether a queue entry is a copy whose write range meets an interval of its core's tile space. -/
def QEntry.writesTile (q : QEntry) (lo hi : Nat) : Bool :=
  match q.cmd with
  | .copy c => (c.writeTile).any fun r => meets r.1 r.2 lo hi
  | .mgo _ _ => false | .coll _ => false | .collw _ _ => false | .fset _ => false | .fwait _ _ => false | .fclr _ => false

/-- The end of TSET's wait before a transition (R140). -/
def State.tsetReady (s : State) (d : Word) (dst : TileState) : Bool :=
  let lo := tdBase d
  let hi := tdBase d + tdSize d - 1
  match dst with
  | .ready => !(s.core s.curCore).copyQ.any fun q => q.writesTile lo hi
  | .empty => !(s.cluster s.curCl).ranges.any fun r => r.slice.isNone && !r.window && meets r.lo r.hi lo hi
  | .filling => !(s.cluster s.curCl).ranges.any fun r => r.slice.isNone && !r.window && meets r.lo r.hi lo hi
  | .draining => true

/-- TSET: the previous state in x[d]; the transitions of R138 after their waits (R139, R140). The commands that *to ready* waits
for are those pushed before it issued: while it waits they are named by their numbers. -/
def actTset (g : Guard) (d : XReg) (t : BitVec 8) (ts : TsetState) (s : State) : Act :=
  s.begin g [] [d] fun _ s1 =>
    let n := t.toNat
    match (s1.cluster s1.curCl).tile n with
    | none => trapOf cTILE 0 0 s
    | some x =>
      let dst := tsetTo ts
      let out := BitVec.ofNat 64 (tileCode x.state)
      if x.foreign s1.curCtx then trapOf cACCESS 0 (t.setWidth 64) s
      else if dst = x.state then s.retire s1 d out
      else if !tsetOk x.state dst then trapOf cTILE 8 0 s
      else
        let lo := tdBase x.desc
        let hi := tdBase x.desc + tdSize x.desc - 1
        let left : List Nat :=
          match s1.me.waiting with
          | some (.copies l) => l
          | _ => ((s1.core s1.curCore).copyQ.filter fun q => q.writesTile lo hi).map (·.seq)
        let pend := left.filter fun k => (s1.core s1.curCore).copyQ.any fun q => q.seq == k
        if dst = .ready && !pend.isEmpty then .wait (.copies left) s
        else if dst ≠ .ready ∧ !s1.tsetReady x.desc dst then .wait (.tileRange lo hi) s
        else s.retire (s1.setTile s1.curCl n (some { x with state := dst })) d out

/-- TREL (R138, R140). -/
def actTrel (g : Guard) (t : BitVec 8) (s : State) : Act :=
  if !s.guardOn g then .done s
  else
    match (s.cluster s.curCl).tile t.toNat with
    | none => trapOf cTILE 0 0 s
    | some x =>
      if x.foreign s.curCtx then trapOf cACCESS 0 (t.setWidth 64) s
      else if x.state ≠ .empty then trapOf cTILE 8 0 s
      else .done (s.setTile s.curCl t.toNat none)

/-! ## Copy commands (R143 to R146) -/

/-- The space that a copy address names (R143), if its tag is one of the four. -/
inductive CSpace where
  | global | tile | staging (slice : Nat) | peer (cl : Nat)
  deriving DecidableEq, Repr

/-- The space of a copy address. -/
def cspace (y : Word) : Option CSpace :=
  match spaceTag y with
  | 0 => some .global | 1 => some .tile | 2 => some (.staging (field y 55 50)) | 3 => some (.peer (field y 55 49))
  | _ => none
/-- The offset of a copy address in its space. -/
def coffset (y : Word) : Nat :=
  match spaceTag y with | 1 => field y 22 0 | 2 => field y 23 0 | 3 => field y 22 0 | _ => addr56 y
/-- Whether a field that the layout requires zero is not (R143). -/
def czero (y : Word) : Bool :=
  match spaceTag y with | 1 => field y 55 23 != 0 | 2 => field y 49 24 != 0 | 3 => field y 48 23 != 0 | _ => false
/-- The staging bytes of a slice (R151). -/
def State.stageBytes (s : State) (sl : Nat) : Nat :=
  match s.ownerOfSlice sl with | some p => (s.part p).pstage * 0x100000 | none => 0
/-- The limit of a space; global space has none here. -/
def State.climit (s : State) (c : CSpace) : Option Nat :=
  match c with
  | .global => none | .tile => some tileEnd | .staging sl => some (s.stageBytes sl) | .peer _ => some tileEnd

/-- Whether a tag is reserved, or names a slice that the partition does not own (R146). -/
def State.ctagBad (s : State) (part : Nat) (y : Word) : Bool :=
  match cspace y with
  | none => true
  | some (.staging sl) => !(s.part part).pslice.getLsbD sl
  | some .global => false | some .tile => false | some (.peer _) => false

/-- Whether some execution passes its space's limit, for an address, a step in bytes and a number of executions (R146). -/
def State.cpast (s : State) (y : Word) (step : Int) (cnt e : Nat) : Bool :=
  match (cspace y).bind s.climit with
  | none => false
  | some lim =>
    let last : Int := step * cnt
    decide ((coffset y : Int) + min 0 last < 0) || decide ((lim : Int) < (coffset y : Int) + max 0 last + e)

/-- The checks of a copy word, in the order of R146: nothing, or the trap. -/
def State.copyCheck (s : State) (kind : BitVec 2) (ya yb : Word) (e : Nat) (step : Int) (cnt : Nat) : Except Act Unit :=
  let bad (y : Word) : Except Act Unit := .error (trapOf cACCESS 0 y s)
  let two := kind == 0 || kind == 1
  let dstStep : Int := if kind == 1 then (e : Int) else step * 64
  if s.collecting && spaceTag ya == 0 then .error (trapOf cEFSYNC 0 0 s)
  else if s.ctagBad s.curPart ya then bad ya
  else if two && s.ctagBad s.curPart yb then bad yb
  else if czero ya || s.cpast ya dstStep cnt e then bad ya
  else if two && (czero yb || s.cpast yb (step * 64) cnt e) then bad yb
  else if kind == 2 && (spaceTag yb != 1 || czero yb || s.cpast yb 8 cnt 8) then bad yb
  else if ya.toNat % 64 ≠ 0 then .error (trapOf cALIGN 0 ya s)
  else if two && yb.toNat % 64 != 0 then .error (trapOf cALIGN 0 yb s)
  else if kind == 2 && yb.toNat % 8 != 0 then .error (trapOf cALIGN 0 yb s)
  else if kind == 3 then
    match (s.cluster s.curCl).tile (field yb 7 0) with
    | none => .error (trapOf cTILE 9 0 s)
    | some x =>
      if field yb 63 8 ≠ 0 ∨ x.foreign s.curCtx ∨ tdSize x.desc < (cnt + 1) * e then .error (trapOf cTILE 9 0 s) else .ok ()
  else .ok ()

/-- A copy word: checked, then pushed (R144 to R146). -/
def copyPush (kind : BitVec 2) (a b : XReg) (sz : BitVec 4) (step : BitVec 12) (cnt : BitVec 8) (s : State) : Act :=
  s.memBegin ⟨0, false⟩ [a, b] [] fun vs => do
    let ya := vs.getD 0 0
    let yb := vs.getD 1 0
    s.copyCheck kind ya yb (64 * 2 ^ sz.toNat) step.toInt cnt.toNat
    if !s.queueRoom .copy then .error (.wait (.engineQueue .copy) s)
    else
      let desc := if kind = 3 then ((s.cluster s.curCl).tile (field yb 7 0)).map (·.desc) else none
      .ok (s.pushCmd .copy (.copy ⟨kind, ya, yb, sz.toNat, step.toInt, cnt.toNat, desc, 0⟩))

/-- CPY (R144 to R146). -/
def actCpy (a b : XReg) (sz : BitVec 4) (step : BitVec 12) (cnt : BitVec 8) (s : State) : Act :=
  copyPush 0 a b sz step cnt s
/-- CPYS (R144 to R146). -/
def actCpys (a b : XReg) (sz : BitVec 4) (step : BitVec 12) (cnt : BitVec 8) (s : State) : Act :=
  copyPush 1 a b sz step cnt s
/-- CPYG (R144 to R146). -/
def actCpyg (a b : XReg) (sz : BitVec 4) (step : BitVec 12) (cnt : BitVec 8) (s : State) : Act :=
  copyPush 2 a b sz step cnt s
/-- CPYX (R144 to R146). -/
def actCpyx (a b : XReg) (sz : BitVec 4) (step : BitVec 12) (cnt : BitVec 8) (s : State) : Act :=
  copyPush 3 a b sz step cnt s

/-! ## The instructions -/

/-- BANKCFG as an instruction (R136). -/
def execBankcfg (g : Guard) (d : XReg) (b : XReg) (mode : BankMode) (s : State) : Outcome State Fault Refusal :=
  finish 1 (actBankcfg g d b mode s)
/-- TDEF as an instruction (R139). -/
def execTdef (g : Guard) (d : XReg) (t : BitVec 8) (a : XReg) (s : State) : Outcome State Fault Refusal :=
  finish 1 (actTdef g d t a s)
/-- TSET as an instruction (R139, R140). -/
def execTset (g : Guard) (d : XReg) (t : BitVec 8) (ts : TsetState) (s : State) : Outcome State Fault Refusal :=
  finish 1 (actTset g d t ts s)
/-- TREL as an instruction (R139, R140). -/
def execTrel (g : Guard) (t : BitVec 8) (s : State) : Outcome State Fault Refusal := finish 1 (actTrel g t s)
/-- CPY as an instruction (R144, R145, R146). -/
def execCpy (a b : XReg) (sz : BitVec 4) (step : BitVec 12) (cnt : BitVec 8) (s : State) : Outcome State Fault Refusal :=
  finish 1 (actCpy a b sz step cnt s)
/-- CPYS as an instruction (R144, R145, R146). -/
def execCpys (a b : XReg) (sz : BitVec 4) (step : BitVec 12) (cnt : BitVec 8) (s : State) : Outcome State Fault Refusal :=
  finish 1 (actCpys a b sz step cnt s)
/-- CPYG as an instruction (R144, R145, R146). -/
def execCpyg (a b : XReg) (sz : BitVec 4) (step : BitVec 12) (cnt : BitVec 8) (s : State) : Outcome State Fault Refusal :=
  finish 1 (actCpyg a b sz step cnt s)
/-- CPYX as an instruction (R144, R145, R146). -/
def execCpyx (a b : XReg) (sz : BitVec 4) (step : BitVec 12) (cnt : BitVec 8) (s : State) : Outcome State Fault Refusal :=
  finish 1 (actCpyx a b sz step cnt s)

end Sys2Proof.Machine
end

