-- ==== Sys2Proof/Machine/Copying.lean ====
section
/-! DEFINITION. What the engines share, and the copy engine: reads and writes of an engine, held ranges (R149), tile-start marks and
replay windows (R150, R310), and the executions of a copy command (R143 to R148). -/

namespace Sys2Proof.Machine

/-! ## Held ranges and windows (R149, R150) -/

/-- Whether a range conflicts with a held one (R149). -/
def HeldRange.conflicts (a b : HeldRange) : Bool := a.slice == b.slice && (a.write || b.write) && meets a.lo a.hi b.lo b.hi

/-- The ranges of a command claimed at its issue: none while one conflicts or an entry is lacking (R149). -/
def State.claim (s : State) (core : Nat) (rs : List HeldRange) : Option State :=
  let cl := clusterOf core
  let held := (s.cluster cl).ranges
  if rs.any (fun r => held.any r.conflicts) || decide (64 < held.length + rs.length) then none
  else some (s.updCluster cl fun c => { c with ranges := c.ranges ++ rs })

/-- The ranges of a command that has completed: its read ranges stay while a window retains it (R149). -/
def State.releaseRanges (s : State) (core seq : Nat) : State :=
  let kept := (s.core core).window.any fun e => e.seq == seq
  let mine (r : HeldRange) : Bool := r.core == core && r.seq == seq
  s.updCluster (clusterOf core) fun c =>
    { c with
      ranges := (c.ranges.filter fun r => !(mine r && (r.write || !kept))).map fun r =>
        if mine r then { r with window := true } else r }

/-- A tile-start mark: the window before it retires and a new one begins (R150, R310). -/
def State.tileMark (s : State) (core : Nat) : State :=
  ((s.retireWindow core).updCore core fun c => { c with winHold := true }).backMark core

/-- A command that issues joins the window that a mark began, and is noted by the backsight (R310, R350). -/
def State.joinWindow (s : State) (core : Nat) (e : QEntry) : State :=
  (if (s.core core).winHold then s.updCore core fun c => { c with window := c.window ++ [e] } else s).noteIssue core e

/-- The first entry of a queue that has not issued. -/
def headOf (q : List QEntry) : Option QEntry := q.find? fun e => !e.issued

/-- An entry of a queue replaced. -/
def setEntry (q : List QEntry) (e : QEntry) : List QEntry := q.map fun x => if x.seq == e.seq then e else x
/-- An entry taken off a queue. -/
def dropEntry (q : List QEntry) (seq : Nat) : List QEntry := q.filter fun x => x.seq != seq

/-- Whether a fault is an error of a cluster store, this cluster's or a peer's, which replay treats (R310). -/
def ueTrap (t : Trap) : Bool := t.cause == cUE && (spaceTag t.tval == 1 || spaceTag t.tval == 3)

/-- Whether the engines of a core are held by an error of the cluster store that replay treats (R310). -/
def Core.ueHeld (c : Core) : Bool :=
  !c.replay.isEmpty || c.copyStopped.any ueTrap || c.collHeld.any ueTrap || c.array.running.any fun r => r.held.any ueTrap

/-! ## Reads of an engine -/

/-- The party that an engine of the current core is (R253). -/
def State.engine (s : State) : Party := ⟨s.curCore, s.curSt, .engine⟩

/-- Whether the line of an engine's access lets it in: a pinned line makes it wait (R266). -/
def State.engUnpinned (s : State) (p : Party) (key : Nat) : Except Act Unit :=
  if s.pinnedFor p (key / 64) then .error (.wait (.pinned (key / 64)) s) else .ok ()

/-- One element read by an engine of the current core (R148, R222, R237): a remote line is no home line. -/
def State.engPiece (s : State) (e : Elt) : Except Act (List Byte × State) :=
  if spaceTag e.y = 1 then do
    s.engUnpinned s.engine (tileKey s.curCl (addr56 e.y))
    if s.storeBad s.curCl (addr56 e.y) e.n then .error (s.storeUe s.curCl e.y)
    else .ok (s.tileBytes s.curCl (addr56 e.y) e.n, s)
  else do
    let (l, s1) ← s.locate s.curCl s.curCtx (addr56 e.y) false
    match l with
    | .remote _ _ => .error (trapOf cACCESS 0 e.y s1)
    | _ =>
      let s2 ← s1.touchAs s.engine l (addr56 e.y)
      .ok (s2.bytesAt l e.n, s2)

/-- Elements read by an engine, in order. -/
def State.engPieces (s : State) : List Elt → Except Act (List Byte × State)
  | [] => .ok ([], s)
  | e :: es => do
    let (b, s1) ← s.engPiece e
    let (bs, s2) ← s1.engPieces es
    .ok (b ++ bs, s2)

/-- Bytes of global or tile space read by an engine. -/
def State.engBytes (s : State) (y : Word) (n : Nat) : Except Act (List Byte × State) := s.engPieces (cutLines y n n)

/-! ## The addresses of a copy (R145) -/

/-- E. -/
def CopyCmd.e (c : CopyCmd) : Nat := 64 * 2 ^ c.sz
/-- t_i. -/
def CopyCmd.dstAt (c : CopyCmd) (i : Nat) : Word :=
  if c.kind = 1 then leaW c.a (BitVec.ofNat 64 (i * c.e)) else leaW c.a (BitVec.ofInt 64 (i * (c.step * 64)))
/-- The address of entry i of a CPYG list. -/
def CopyCmd.listAt (c : CopyCmd) (i : Nat) : Word := leaW c.b (BitVec.ofNat 64 (8 * i))

/-- What a transfer reads: zero bytes, or a source address. -/
inductive CopySrc where
  | zeros
  | addr (y : Word)
  deriving DecidableEq, Repr

/-- s_i of a command; a list entry is read from tile space (R145). The whole list is read at the issue, for the ranges and the checks, and
each entry again at its own execution: when it is read the spec leaves open (DESIGN CHOICE log 95). -/
def State.copySrc (s : State) (c : CopyCmd) (i : Nat) : CopySrc :=
  if c.kind = 2 then
    let v : Word := BitVec.ofNat 64 (leNat (s.tileBytes s.curCl (addr56 (c.listAt i)) 8))
    if v = BitVec.allOnes 64 then .zeros else .addr (v &&& ~~~63)
  else if c.kind = 3 then
    match c.tile with
    | none => .zeros
    | some d => .addr (BitVec.ofNat 64 (2 ^ 56 + tdBase d + i * c.e))
  else .addr (leaW c.b (BitVec.ofInt 64 (i * (c.step * 64))))

/-- Every execution's source and destination. -/
def State.copyPairs (s : State) (c : CopyCmd) : List (CopySrc × Word) := (upto (c.cnt + 1)).map fun i => (s.copySrc c i, c.dstAt i)

/-- A range in the issuing cluster's tile space or a staging part, widened by bytes at an address (R149). -/
def widen (core seq n : Nat) (write : Bool) (rs : List HeldRange) (y : Word) : List HeldRange :=
  let add (sl : Option Nat) : List HeldRange :=
    let lo := coffset y
    let hi := coffset y + n - 1
    if rs.any fun r => r.slice == sl && r.write == write then
      rs.map fun r => if r.slice == sl && r.write == write then { r with lo := min r.lo lo, hi := max r.hi hi } else r
    else rs ++ [⟨sl, write, lo, hi, core, seq, false⟩]
  match cspace y with
  | some .tile => add none
  | some (.staging sl) => add (some sl)
  | some .global => rs
  | some (.peer _) => rs
  | none => rs

/-- The ranges that a copy command claims (R149). -/
def State.copyRanges (s : State) (c : CopyCmd) (core seq : Nat) : List HeldRange :=
  let ps := s.copyPairs c
  let w := ps.foldl (fun rs p => widen core seq c.e true rs p.2) []
  let r := ps.foldl (fun rs p => match p.1 with | .addr y => widen core seq c.e false rs y | .zeros => rs) []
  let l := if c.kind = 2 then widen core seq (8 * (c.cnt + 1)) false [] c.b else []
  w ++ r ++ l

/-- The spaces that a copy command touches. -/
def State.copyAddrs (s : State) (c : CopyCmd) : List Word :=
  (s.copyPairs c).flatMap fun p => match p.1 with | .addr y => [y, p.2] | .zeros => [p.2]

/-- Whether a transfer cannot run on n bytes at an address (R143, R148): a tag, a field or a limit that R143 refuses, a bank that is not
in tile mode, a peer bank that the context does not own. -/
def State.spaceBroken (s : State) (y : Word) (n : Nat) : Bool :=
  s.ctagBad s.curPart y || czero y || s.cpast y 0 0 n ||
    match cspace y with
    | some .tile => !s.tileMode s.curCl (coffset y) n
    | some (.peer cl) => !s.tileMode cl (coffset y) n || !s.tileOwned cl s.curCtx (coffset y) n
    | some .global => false
    | some (.staging _) => false
    | none => true

/-- The address for which a copy command cannot run at its issue (R148): a list in a bank that is not in tile mode, a list entry whose
address R143 refuses, a tile-space range in such a bank, a peer bank that the context does not own. -/
def State.copyBroken (s : State) (c : CopyCmd) : Option Word :=
  if c.kind = 2 ∧ !s.tileMode s.curCl (addr56 c.b) (8 * (c.cnt + 1)) then some c.b
  else (s.copyAddrs c).find? fun y => s.spaceBroken y c.e

/-- Whether the tile of a CPYX is as it was at the push (R148). -/
def State.tileSame (s : State) (c : CopyCmd) : Bool :=
  c.kind != 3 ||
    match (s.cluster s.curCl).tile (field c.b 7 0) with
    | some x => some x.desc == c.tile && !x.foreign s.curCtx
    | none => false

/-- Whether the tile of a CPYX is READY, or is no more, which is a fault (R18, R128, R138, R148). -/
def State.tileReadable (s : State) (c : CopyCmd) : Bool :=
  c.kind != 3 ||
    match (s.cluster s.curCl).tile (field c.b 7 0) with
    | some x => x.state == .ready
    | none => true

/-- Whether a copy names a peer bank whose cluster the context has stopped (R304). -/
def State.peerStopped (s : State) (c : CopyCmd) : Bool :=
  (s.copyAddrs c).any fun y =>
    match cspace y with
    | some (.peer cl) => (s.cluster cl).stopped.contains s.curCtx
    | some .tile => false | some .global => false | some (.staging _) => false | none => false

/-- Whether a global address leads to a remote page (R331). -/
def State.remoteAt (s : State) (y : Word) : Bool :=
  spaceTag y == 0 && match s.physOf s.curCl s.curCtx (addr56 y) with | some pa => placeOf pa == .remote | none => false

/-- Whether a copy command addresses a remote page as far as translation shows it: an execution crosses at most two pages (R306,
R331; DEDUCED log 23). -/
def State.copyRemote (s : State) (c : CopyCmd) : Bool :=
  (s.copyAddrs c).any fun y => s.remoteAt y || s.remoteAt (leaW y (BitVec.ofNat 64 (c.e - 1)))

/-- The walks by which those addresses are translated, as far as they find an error (R318). -/
def State.copyWalks (s : State) (c : CopyCmd) : State :=
  (s.copyAddrs c).foldl (fun s y => if spaceTag y == 0 then s.lookWalk s.curCl s.curCtx (addr56 y) else s) s

/-- The largest naturally aligned request at an offset, of at most n bytes and 64 (R330). -/
def pieceAt (o n : Nat) : Nat := ([64, 32, 16, 8, 4, 2].find? fun p => o % p == 0 && decide (p ≤ n)).getD 1

/-- The bytes from an address up, cut into naturally aligned pieces of at most 64 bytes (R330); a range of n bytes is at most n pieces. -/
def cutPieces (y : Word) : Nat → Nat → List Elt
  | 0, _ => []
  | _, 0 => []
  | fuel + 1, n =>
    let k := pieceAt (addr56 y) n
    ⟨y, k⟩ :: cutPieces (leaW y (BitVec.ofNat 64 k)) fuel (n - k)

/-! ## The transfers of an engine (R147, R273, R282)

A transfer reads the whole of its source, then writes its destination line by line. A line on a remote page is a request of its own,
numbered by its place in the source or the destination (R331 to R335). -/

/-- Whose transfer it is: the collective engine's or a core engine's, and of which command; the transfers of a plan are number 0. -/
structure Xfer where
  coll : Bool
  seq : Nat
  deriving DecidableEq, Repr

/-- The party that makes a transfer (R253). -/
def State.xferParty (s : State) (x : Xfer) : Party := ⟨s.curCore, s.curSt, if x.coll then .collective else .engine⟩

/-- The request of a line of a transfer. -/
def State.xferReq (s : State) (x : Xfer) (write : Bool) (n : Nat) : Option RemoteReq :=
  s.me.remote.find? fun r => r.kind == .line x.coll write x.seq n
/-- Whether a write of a transfer is not yet answered. -/
def State.xferOut (s : State) (x : Xfer) : Bool :=
  s.me.remote.any fun r => match r.kind with
    | .line c w q _ => c == x.coll && w && q == x.seq && r.answer.isNone
    | .load _ _ _ _ => false | .vload _ _ => false | .store _ => false | .atom _ _ _ => false | .copy _ => false | .coll _ => false

/-- A line's request issued, after the checks of R332; a limit makes the engine wait (R335). The transfers of a plan take no mark
(R306). -/
def State.xferIssue (s : State) (x : Xfer) (write : Bool) (n dest off : Nat) (y : Word) (size data : Nat) : Except Act State := do
  s.remoteCheck dest .weak false y
  if !s.tagRoom s.curPart dest then .error (.wait (.remoteLimit dest false) s)
  else
    let s1 := s.remoteAdd s.curCore s.curSt (.line x.coll write x.seq n) dest off y size false data
    .ok (if x.seq = 0 then s1.updMe fun t => { t with mark := s.me.mark } else s1)

/-- The lines of a source on remote pages asked for: whether all have been answered. -/
def State.xferAsk (s : State) (x : Xfer) : Nat → List Elt → Except Act (Bool × State)
  | _, [] => .ok (true, s)
  | n, e :: es => do
    let (l, s1) ← s.locate s.curCl s.curCtx (addr56 e.y) false
    match l with
    | .remote dest off =>
      match s1.xferReq x false n with
      | some r =>
        let (b, s2) ← s1.xferAsk x (n + 1) es
        .ok (r.answer.isSome && b, s2)
      | none =>
        let s2 ← s1.xferIssue x false n dest off e.y e.n 0
        let (_, s3) ← s2.xferAsk x (n + 1) es
        .ok (false, s3)
    | .home _ => s1.xferAsk x (n + 1) es
    | .host _ => s1.xferAsk x (n + 1) es

/-- The lines of a global source read, those of remote pages from their answers. -/
def State.xferLines (s : State) (x : Xfer) : Nat → List Elt → Except Act (List Byte × State)
  | _, [] => .ok ([], s)
  | n, e :: es => do
    let (l, s1) ← s.locate s.curCl s.curCtx (addr56 e.y) false
    let (b, s2) ← match l with
      | .remote _ _ =>
        (match s1.xferReq x false n with
         | some r => Except.ok (leBytes e.n (r.answer.getD 0), s1.remoteDone s.curCore s.curSt r.tag)
         | none => .error (.wait (.remoteAnswer 0) s1))
      | _ => do
        let s2 ← s1.touchAs (s.xferParty x) l (addr56 e.y)
        Except.ok (s2.bytesAt l e.n, s2)
    let (bs, s3) ← s2.xferLines x (n + 1) es
    .ok (b ++ bs, s3)

/-- n bytes read at a copy address; a wait while answers are outstanding. -/
def State.xferRead (s : State) (x : Xfer) (y : Word) (n : Nat) : Except Act (List Byte × State) :=
  let tile (cl : Nat) : Except Act (List Byte × State) := do
    s.engUnpinned (s.xferParty x) (tileKey cl (coffset y))
    if s.storeBad cl (coffset y) n then .error (s.storeUe cl y) else .ok (s.tileBytes cl (coffset y) n, s)
  match cspace y with
  | some .tile => tile s.curCl
  | some (.staging sl) => .ok (memBytes (s.slice sl).staging (coffset y) n, s)
  | some (.peer cl) => tile cl
  | some .global => do
    let (b, s1) ← s.xferAsk x 0 (cutPieces y n n)
    if b then s1.xferLines x 0 (cutPieces y n n) else .error (.wait (.requests [] true) s1)
  | none => .error (trapOf cACCESS 0 y s)

/-- The line number under which a journal names a tile-space or staging line (R306): the stream's own cluster first, then every
cluster, then every slice. -/
def peerLine (cl t : Nat) : Nat := (cl + 1) * 0x20000 + t / 64
/-- The journal's number of a staging line. -/
def stageLine (sl t : Nat) : Nat := 2 ^ 40 + sl * 0x40000 + t / 64

/-- A journal entry of an engine's write for the stream that pushed its command (R306). A full journal makes the engine wait, unless
what the mark waits for is transfers alone, its own among them (R307; DESIGN CHOICE log 18). -/
def State.xferLog (s : State) (x : Xfer) (tile : Bool) (line : Nat) (old : List (Nat × Byte)) : Except Act State :=
  let own : RemoteKind := if x.coll then .coll x.seq else .copy x.seq
  if s.journalFull s.curCore s.curSt && !s.me.remote.any (·.kind.isAccess) && s.me.remote.any (·.kind == own) then .ok s
  else s.journalAdd s.curCore s.curSt tile line old

/-- Bytes of tile space of a cluster written by an engine, in whole lines' parts: the line is no longer in error (R310). -/
def State.engTile (s : State) (cl t : Nat) (bs : List Byte) : State :=
  (s.tilePuts cl t bs).updCluster cl fun c => { c with badStore := c.badStore.filter (· != t / 64) }

/-- An engine's write noted for the readers that may miss it, on its path, for the stream whose command it is (R260, R376; DESIGN CHOICE
log 72): with the bytes that stood, at a base of the names of locations. -/
def State.noteXfer (s : State) (x : Xfer) (key : Nat) (old : List Byte) : State :=
  s.notePast (if x.coll then 4 else 1) s.curCore s.curSt (old.zipIdx.map fun b => (key + b.2, b.1))

/-- Bytes of one line written by an engine, as one unit, untracked (R147): a protected range is a fault (R244), a pinned line waits
(R266), the write is journalled (R306). -/
def State.xferLine (s : State) (x : Xfer) (n : Nat) (y : Word) (bs : List Byte) : Except Act State :=
  let t := coffset y
  let old (m : Memory) : List (Nat × Byte) := (upto bs.length).map fun i => (t % 64 + i, memByte m (t + i))
  let tile (cl line : Nat) : Except Act State := do
    s.guardStore cl s.curCtx true t bs.length y
    s.engUnpinned (s.xferParty x) (tileKey cl t)
    let s1 ← s.xferLog x true line (old (s.cluster cl).store)
    .ok (((s1.noteXfer x (tileKey cl t) (s1.tileBytes cl t bs.length)).engTile cl t bs).dropReleases (tileKey cl t) bs.length)
  match cspace y with
  | some .tile => tile s.curCl (t / 64)
  | some (.peer cl) => tile cl (peerLine cl t)
  | some (.staging sl) => do
    let s1 ← s.xferLog x true (stageLine sl t) (old (s.slice sl).staging)
    .ok (s1.updSlice sl fun z => { z with staging := memPuts z.staging t bs })
  | some .global => do
    let (l, s1) ← s.locate s.curCl s.curCtx (addr56 y) true
    s1.guardStore s.curCl s.curCtx false (addr56 y) bs.length y
    match l with
    | .remote dest off => if (s1.xferReq x true n).isSome then .ok s1 else s1.xferIssue x true n dest off y bs.length (leNat bs)
    | .home pa => do
      s1.engUnpinned (s.xferParty x) pa
      if s1.isLost (pa / 64) then .error (.wait (.memory (pa / 64)) s1)
      else
        let bz := bs.zipIdx.map fun b => (pa % 64 + b.2, b.1)
        let s2 ← s1.xferLog x false (pa / 64) (oldBytes (s1.lineData (pa / 64)) bz)
        match (s2.noteXfer x pa (oldBytes (s2.lineData (pa / 64)) bz |>.map (·.2))).homeWrite (pa / 64) s.ownTag bz with
        | .ok s3 => .ok (s3.dropReleases pa bs.length)
        | .error (_, s3) => .error (.wait (.memory (pa / 64)) s3)
    | .host ha => do
      s1.engUnpinned (s.xferParty x) l.key
      let s2 := s1.noteXfer x l.key (memBytes s1.host ha bs.length)
      .ok ({ s2 with host := memPuts s2.host ha bs }.dropReleases l.key bs.length)
  | none => .error (trapOf cACCESS 0 y s)

/-- How an engine's transfer stands when it can go no further now: over, still at work, or at a fault. -/
inductive XferEnd where
  | over | busy
  | fault (t : Trap)
  deriving DecidableEq, Repr

/-- The end that an access which did not go through gives. -/
def Act.xferEnd : Act → XferEnd × State
  | .trap t s => (.fault t, s) | .wait _ s => (.busy, s) | .done s => (.busy, s) | .jump s => (.busy, s)

/-- The lines of a destination from number n on written; over when every answer to a write has come. -/
def State.xferWrite (s : State) (x : Xfer) (n : Nat) : List Elt → List Byte → Nat × XferEnd × State
  | [], _ => (n, if s.xferOut x then .busy else .over, s)
  | e :: es, bs =>
    match s.xferLine x n e.y (bs.take e.n) with
    | .ok s1 => s1.xferWrite x (n + 1) es (bs.drop e.n)
    | .error a => (n, a.xferEnd)

/-- The source of a transfer read. -/
def State.xferSource (s : State) (x : Xfer) (src : CopySrc) (n : Nat) : Except Act (List Byte × State) :=
  match src with | .zeros => .ok (List.replicate n 0, s) | .addr y => s.xferRead x y n

/-- The answers to the writes of a transfer taken off the stream's requests. -/
def State.xferClear (s : State) (x : Xfer) : State :=
  (s.me.remote.filter fun r => match r.kind with
    | .line c w q _ => c == x.coll && w && q == x.seq
    | .load _ _ _ _ => false | .vload _ _ => false | .store _ => false | .atom _ _ _ => false | .copy _ => false
    | .coll _ => false).foldl (fun s r => s.remoteDone s.curCore s.curSt r.tag) s

/-- The destination of a transfer written from line `lines` on, of bytes that are read. -/
def State.xferPut (s : State) (x : Xfer) (dst : Word) (bs : List Byte) (lines : Nat) : Prog × XferEnd × State :=
  let es := cutPieces dst bs.length bs.length
  let done := (es.take lines).foldl (fun n e => n + e.n) 0
  match s.xferWrite x lines (es.drop lines) (bs.drop done) with
  | (_, .over, s1) => (⟨none, 0⟩, .over, s1.xferClear x)
  | (n, r, s1) => (⟨some bs, n⟩, r, s1)

/-- A transfer of n bytes goes on from where it stands (R147): its source, read whole, then its destination. -/
def State.xfer (s : State) (x : Xfer) (src : CopySrc) (dst : Word) (n : Nat) (p : Prog) : Prog × XferEnd × State :=
  match p.data with
  | some bs => s.xferPut x dst bs p.lines
  | none =>
    match s.xferSource x src n with
    | .ok (bs, s1) => s1.xferPut x dst bs 0
    | .error a => (⟨none, 0⟩, a.xferEnd)

/-! ## Executions (R147) -/

/-- The executions of a command from the one it stands at on. -/
def State.copyRun (s : State) (x : Xfer) (c : CopyCmd) (p : Prog) : Nat → CopyCmd × Prog × XferEnd × State
  | 0 => (c, p, .over, s)
  | n + 1 =>
    if c.kind = 2 ∧ s.storeBad s.curCl (coffset (c.listAt c.stepsDone)) 8 then
      (c, p, .fault ⟨cUE, 0, c.listAt c.stepsDone⟩, s.countErr (.cluster s.curCl) true)
    else
      match s.xfer x (s.copySrc c c.stepsDone) (c.dstAt c.stepsDone) c.e p with
      | (_, .over, s1) => s1.copyRun x { c with stepsDone := c.stepsDone + 1 } ⟨none, 0⟩ n
      | (p1, r, s1) => (c, p1, r, s1)

/-- At most n further executions of a command, after which it is still at work unless they were the last (R147; DESIGN CHOICE log 18). -/
def State.copyPart (s : State) (x : Xfer) (c : CopyCmd) (p : Prog) (n : Nat) : CopyCmd × Prog × XferEnd × State :=
  match s.copyRun x c p (min n (c.cnt + 1 - c.stepsDone)) with
  | (c1, p1, .over, s1) => (c1, p1, if c1.stepsDone ≤ c.cnt then .busy else .over, s1)
  | r => r

/-! ## Issue and completion -/

/-- Whether an issued copy has been expanded: its last execution is written or on its way, and the engine fetches the next word
(R55; DEDUCED log 85). -/
def QEntry.expanded (q : QEntry) : Bool :=
  match q.cmd with
  | .copy c => !q.issued || (c.stepsDone == c.cnt && q.prog.data.isSome && q.prog.lines == 2 ^ c.sz)
  | .mgo _ _ => true | .coll _ => true | .collw _ _ => true | .fset _ => true | .fwait _ _ => true | .fclr _ => true

/-- The copy queue of a core replaced. -/
def State.setCopyQ (s : State) (core : Nat) (f : List QEntry → List QEntry) : State :=
  s.updCore core fun c => { c with copyQ := f c.copyQ }

/-- The copy engine stops for good: its queue issues nothing more, and the pushing context faults (R148). -/
def State.copyFault (s : State) (core : Nat) (t : Trap) : State :=
  (s.updCore core fun c => { c with copyStopped := some t }).contextFault (s.ctxOf core) (some t)

/-- The tile entries that a copy's issue fills (R138): EMPTY ones that its write range overlaps become FILLING; whether there
were any. -/
def State.fillTiles (s : State) (c : CopyCmd) : Bool × State :=
  match c.writeTile with
  | none => (false, s)
  | some (lo, hi) =>
    let hit (x : Tile) : Bool := x.state == .empty && meets (tdBase x.desc) (tdBase x.desc + tdSize x.desc - 1) lo hi
    let ts := (s.cluster s.curCl).tiles
    (ts.toList.any fun o => o.any hit,
      s.updCluster s.curCl fun cl => { cl with tiles := ts.map fun o => o.map fun x => if hit x then { x with state := .filling } else x })

/-- The tile of a CPYX that issues is DRAINING (R138). -/
def State.drainTile (s : State) (c : CopyCmd) : State :=
  if c.kind ≠ 3 then s
  else match (s.cluster s.curCl).tile (field c.b 7 0) with
    | some x => s.setTile s.curCl (field c.b 7 0) (some { x with state := .draining })
    | none => s

/-- The copy commands of a cluster that have issued and drain a tile. -/
def State.drainers (s : State) (cl tn : Nat) : Nat :=
  ((upto 4).flatMap fun k => (s.core (4 * cl + k)).copyQ.filter fun q => q.issued && match q.cmd with
    | .copy c => c.kind == 3 && field c.b 7 0 == tn
    | .mgo _ _ => false | .coll _ => false | .collw _ _ => false | .fset _ => false | .fwait _ _ => false
    | .fclr _ => false).length

/-- The last CPYX of a DRAINING tile has completed: the tile is EMPTY (R138). -/
def State.drainEnd (s : State) (c : CopyCmd) : State :=
  if c.kind ≠ 3 then s
  else
    let tn := field c.b 7 0
    match (s.cluster s.curCl).tile tn with
    | some x => if x.state = .draining ∧ s.drainers s.curCl tn = 0 then s.setTile s.curCl tn (some { x with state := .empty }) else s
    | none => s

/-- Why a command that could issue now does not run: the tile of a CPYX changed since the push, or an address of it is broken (R148). -/
def State.issueFault (s : State) (c : CopyCmd) : Option Trap :=
  if !s.tileSame c then some ⟨cTILE, 9, 0⟩ else (s.copyBroken c).map fun y => ⟨cACCESS, 0, y⟩

/-- The copy at the head of a core's queue issues, once nothing of what it waits for stands in its way: a fault at issue stops it (R55,
R128, R138, R147 to R149, R306, R310). -/
def State.copyIssue (s : State) (core : Nat) : State :=
  match headOf (s.core core).copyQ with
  | none => s
  | some q =>
    match q.cmd with
    | .copy c =>
      let s1 := ({ s with cur := .stream core q.by_ } : State).copyWalks c
      if (s.core core).copyStopped.isSome || (s.core core).ueHeld || !(s.core core).copyQ.all QEntry.expanded || !s1.tileReadable c ||
          s1.peerStopped c || (s1.copyRemote c && !s1.markRoom core q.by_) then s
      else
        match s1.claim core (s1.copyRanges c core q.seq), s1.issueFault c with
        | none, _ => s
        | some _, some t => s1.copyFault core t
        | some s2, none =>
          let (filled, s3) := s2.fillTiles c
          let s4 := if filled then s3.tileMark core else s3
          let s5 := s4.drainTile c
          let s6 := if s1.copyRemote c then s5.remoteAdd core q.by_ (.copy q.seq) 0 0 0 0 false 0 else s5
          let q' := { q with issued := true, ranges := s1.copyRanges c core q.seq }
          (s6.joinWindow core q').setCopyQ core fun l => setEntry l q'
    | .mgo _ _ => s | .coll _ => s | .collw _ _ => s | .fset _ => s | .fwait _ _ => s | .fclr _ => s

/-- The remote transaction of a copy is over. -/
def State.copyAnswered (s : State) (core : Nat) (k : StreamId) (seq : Nat) : State :=
  match (s.strm core k).remote.find? fun r => r.kind == .copy seq with
  | some r => s.remoteDone core k r.tag
  | none => s

/-- Whether a fault leaves an engine's command to be taken up again: a page fault, or an error of the cluster store that replay treats
(R148, R310). -/
def faultHolds (t : Trap) : Bool := t.cause == cPAGE || ueTrap t

/-- An issued copy goes on with at most n of its executions; it completes, stays at work or waits for answers, or is held or stopped by a
fault, after which an execution restarts at its first byte (R147, R148). -/
def State.copyComplete (s : State) (core seq n : Nat) : State :=
  match (s.core core).copyQ.find? fun q => q.seq == seq && q.issued with
  | none => s
  | some q =>
    match q.cmd with
    | .copy c =>
      if (s.core core).copyStopped.isSome || (s.core core).ueHeld then s
      else
        let (c1, p, r, s1) := ({ s with cur := .stream core q.by_ } : State).copyPart ⟨false, seq⟩ c q.prog n
        let keep (p : Prog) : State := s1.setCopyQ core fun l => setEntry l { q with cmd := .copy c1, prog := p }
        match r with
        | .over =>
          (((s1.copyAnswered core q.by_ seq).setCopyQ core fun l => dropEntry l seq).releaseRanges core seq).drainEnd c
        | .busy => keep p
        | .fault t =>
          if faultHolds t then (keep ⟨none, 0⟩).updCore core fun x => { x with copyStopped := some t }
          else (keep ⟨none, 0⟩).copyFault core t
    | .mgo _ _ => s | .coll _ => s | .collw _ _ => s | .fset _ => s | .fwait _ _ => s | .fclr _ => s

end Sys2Proof.Machine
end

