-- ==== Sys2Proof/Machine/Matrix.lean ====
section
/-! DEFINITION. The product table and the accumulator instructions: majors 0x23 and 0x24 (R215 to R224, R233 to R235). -/

namespace Sys2Proof.Machine

open Host (Outcome)

/-! ## ACM elements and banks (R215, R216) -/

/-- The key of an element: 160 elements in a row. -/
def acmKey (row col : Nat) : Nat := 160 * row + col
/-- An element of an ACM; an unlisted one is zero. -/
def acmGet (m : List (Nat × AccElem)) (k : Nat) : AccElem := match m.find? (·.1 == k) with | some x => x.2 | none => 0
/-- An element stored; zero elements are not listed, keys rise. -/
def acmPut (m : List (Nat × AccElem)) (k : Nat) (v : AccElem) : List (Nat × AccElem) :=
  match m with
  | [] => if v = 0 then [] else [(k, v)]
  | (a, w) :: rest =>
    if a < k then (a, w) :: acmPut rest k v
    else if a = k then (if v = 0 then rest else (k, v) :: rest)
    else (if v = 0 then (a, w) :: rest else (k, v) :: (a, w) :: rest)

/-- An element of a cluster. -/
def Cluster.elem (c : Cluster) (row col : Nat) : AccElem := acmGet c.acm (acmKey row col)
/-- An element of a cluster replaced. -/
def Cluster.setElem (c : Cluster) (row col : Nat) (v : AccElem) : Cluster := { c with acm := acmPut c.acm (acmKey row col) v }

/-- The state of an ACM bank with respect to a context (R215). -/
inductive BankState where
  | notOwned | free | allocated
  deriving DecidableEq, Repr

/-- The state of bank b for a context. -/
def State.acmState (s : State) (cl ctx b : Nat) : BankState :=
  if !(s.owner cl ctx).acm.getLsbD b then .notOwned
  else if ((s.cluster cl).acmAlloc.getD b none).isSome then .allocated else .free

/-- The kernel of the current core, which an allocation names. -/
def State.curKernel (s : State) : Nat := (s.core s.curCore).kernel.getD 0

/-- The first ACMB trap of the banks of rows lo to hi (R216); `wr` for an instruction that writes. -/
def State.bankCheck (s : State) (wr : Bool) (lo hi : Nat) : Option Trap :=
  (upto (hi / 32 - lo / 32 + 1)).findSome? fun i =>
    let b := lo / 32 + i
    match s.acmState s.curCl s.curCtx b with
    | .notOwned => some ⟨cACMB, 0, BitVec.ofNat 64 b⟩
    | .free => if wr then some ⟨cACMB, 1, BitVec.ofNat 64 b⟩ else none
    | .allocated => none

/-- The checks of an instruction that names rows lo to hi (R216): a row past 2 047, then the banks (DEDUCED log 53). -/
def State.rowCheck (s : State) (wr : Bool) (lo hi : Nat) : Option Trap :=
  if 2047 < hi then some ⟨cACMB, 2, BitVec.ofNat 64 (max lo 2048)⟩ else s.bankCheck wr lo hi

/-! ## The product table (R218 to R221) -/

/-- LINES of an operand descriptor: the last line's number. -/
def OpDesc.lines (o : OpDesc) : Nat := field o.desc 59 48
/-- DEPTH: the last k. -/
def OpDesc.depth (o : OpDesc) : Nat := field o.desc 47 40
/-- FMT. -/
def OpDesc.fmt (o : OpDesc) : Nat := field o.desc 63 60
/-- PITCH. -/
def OpDesc.pitch (o : OpDesc) : Nat := field o.desc 22 0
/-- The width class of a block format. -/
def fmtClass (f : Nat) : Option BlkClass :=
  match f with | 1 => some .c8 | 2 => some .c6 | 3 => some .c4 | _ => none
/-- The bytes of a line (R219). -/
def OpDesc.lineBytes (o : OpDesc) : Nat :=
  match fmtClass o.fmt with
  | some k => blkBytes k * ((o.depth + 1) / 32)
  | none => if o.fmt = 4 then 8 * (o.depth + 1) else 2 * (o.depth + 1)
/-- The lanes of a format (R219). -/
def fmtLanes (f : Nat) : Nat := match f with | 1 => 2 | 2 => 2 | 3 => 4 | _ => 1
/-- The alignment unit of a format (R219). -/
def fmtUnit (f : Nat) : Nat := if f = 4 then 8 else 2

/-- COUNT of a level. -/
def LoopLevel.count (l : LoopLevel) : Nat := field l.xa 51 40
/-- DC of a level. -/
def LoopLevel.dc (l : LoopLevel) : Int := (l.xa.extractLsb' 0 16).toInt
/-- DA of a level. -/
def LoopLevel.da (l : LoopLevel) : Int := (l.xb.extractLsb' 32 32).toInt
/-- DB of a level. -/
def LoopLevel.db (l : LoopLevel) : Int := (l.xb.extractLsb' 0 32).toInt

/-- The levels that MGO nlev uses, those that are set, innermost first. -/
def ProdTable.used (t : ProdTable) (nlev : Nat) : List LoopLevel := (t.levels.toList.take nlev).filterMap id

/-- The least and greatest sum of steps over all passes. -/
def stepSpan (ls : List LoopLevel) (f : LoopLevel → Int) : Int × Int :=
  ls.foldl (fun r l => (r.1 + min 0 (f l * l.count), r.2 + max 0 (f l * l.count))) (0, 0)

/-- A step added to an address without carrying into its tag (R222). -/
def addrStep (y : Word) (d : Int) : Word := leaW y (BitVec.ofInt 64 d)

/-- The byte range that an operand or the index list takes over all passes, as offsets of its space (R222). -/
structure OpSpan where
  y : Word
  lo : Int
  hi : Int
  deriving DecidableEq, Repr

/-- The spans of A, B and the index list. -/
def ProdTable.spans (t : ProdTable) (nlev : Nat) : List OpSpan :=
  let ls := t.used nlev
  let op (o : Option OpDesc) (f : LoopLevel → Int) : List OpSpan :=
    match o with
    | none => []
    | some d =>
      let r := stepSpan ls f
      [⟨d.base, (addr56 d.base : Int) + r.1, (addr56 d.base : Int) + r.2 + d.lines * d.pitch + d.lineBytes - 1⟩]
  op t.opA LoopLevel.da ++ op t.opB LoopLevel.db ++
    match t.opA with
    | some a => if t.idx = 0 then [] else [⟨t.idx, addr56 t.idx, (addr56 t.idx : Int) + 2 * (a.lines + 1) - 1⟩]
    | none => []

/-- The tile of a cluster that holds a range wholly. -/
def Cluster.tileOver (c : Cluster) (lo hi : Int) : Option Tile :=
  (c.tiles.toList.filterMap id).find? fun x =>
    decide ((tdBase x.desc : Int) ≤ lo) && decide (hi ≤ (tdBase x.desc : Int) + tdSize x.desc - 1)

/-- Whether a span's tag is refused or its tile-space range is not in one tile of the context (R222, SUB 0x0B). An index list with tag 0x00 is
accepted, and read from global memory (R220, R222; DESIGN CHOICE log 102). -/
def State.spanBad (s : State) (cl ctx : Nat) (o : OpSpan) : Bool :=
  if spaceTag o.y = 0 then false
  else if spaceTag o.y ≠ 1 then true
  else match (s.cluster cl).tileOver o.lo o.hi with | none => true | some x => x.foreign ctx

/-- An integer entered once in a list. -/
def insInt (x : Int) (l : List Int) : List Int := if l.contains x then l else l ++ [x]

/-- The first rows r0 of every pass (R222). -/
def ProdTable.rowStarts (t : ProdTable) (nlev : Nat) : List Int :=
  match t.tgt with
  | none => []
  | some c =>
    (t.used nlev).foldl
      (fun rs l => rs.foldl (fun acc r => (upto (l.count + 1)).foldl (fun acc i => insInt (r + i * l.dc) acc) acc) [])
      [(field c 10 0 : Int)]

/-- The least and greatest target row over all passes (R222, R234). -/
def ProdTable.rowSpan (t : ProdTable) (nlev : Nat) : Int × Int :=
  let r := stepSpan (t.used nlev) LoopLevel.dc
  let r0 : Int := match t.tgt with | some c => (field c 10 0 : Int) | none => 0
  (r0 + r.1, r0 + r.2 + (match t.opA with | some a => (a.lines : Int) | none => 0))

/-- The ACMB trap of the target rows from 0 to 2 047 of every pass, the lowest bank first (R222). -/
def State.mgoBanks (s : State) (t : ProdTable) (nlev : Nat) : Option Trap :=
  match t.opA with
  | none => none
  | some a =>
    let rs := t.rowStarts nlev
    (upto 64).findSome? fun b =>
      if rs.any fun r => decide (r ≤ (32 * b + 31 : Nat)) && decide (((32 * b : Nat) : Int) ≤ r + a.lines) then
        s.bankCheck true (32 * b) (32 * b)
      else none

/-- The first LNT subcause of a product, if any (R222). -/
def ProdTable.lntCase (t : ProdTable) (nlev : Nat) : Option Nat :=
  match t.opA, t.opB, t.tgt with
  | some a, some b, some c =>
    if (t.levels.toList.take nlev).any Option.isNone then some 1
    else if field a.desc 39 23 != 0 || field b.desc 39 23 != 0 || field c 63 11 != 0 ||
        (t.used nlev).any (fun l => field l.xa 63 52 != 0 || field l.xa 39 16 != 0) ||
        decide (4 < a.fmt) || decide (4 < b.fmt) || (a.fmt == 4) != (b.fmt == 4) then some 2
    else if a.depth ≠ b.depth then some 3
    else
      let lim := if a.fmt = 4 then 20 else 160
      if lim < a.depth + 1 || lim < b.lines + 1 ||
          (((fmtClass a.fmt).isSome || (fmtClass b.fmt).isSome) && (a.depth + 1) % 32 != 0) then some 4
      else if (t.rowSpan nlev).1 < 0 || 2047 < (t.rowSpan nlev).2 then some 6 else none
  | _, _, _ => some 1

/-- The ALIGN value of a product, if one of its addresses is misaligned (R222). -/
def ProdTable.alignCase (t : ProdTable) : Option Word :=
  let op (o : Option OpDesc) : Option Word :=
    o.bind fun d => if d.base.toNat % fmtUnit d.fmt ≠ 0 ∨ d.pitch % fmtUnit d.fmt ≠ 0 then some d.base else none
  match op t.opA with
  | some y => some y
  | none =>
    match op t.opB with
    | some y => some y
    | none => if t.idx.getLsbD 0 then some t.idx else none

/-- The checks of MGO in the order of R222 and R101. -/
def State.mgoCheck (s : State) (t : ProdTable) (nlev : Nat) : Except Act Unit :=
  match t.alignCase with
  | some y => .error (trapOf cALIGN 0 y s)
  | none =>
    match (t.spans nlev).find? (s.spanBad s.curCl s.curCtx) with
    | some o => .error (trapOf cTILE 0x0B o.y s)
    | none =>
      match s.mgoBanks t nlev with
      | some tr => .error (.trap tr s)
      | none =>
        match t.lntCase nlev with
        | some k => .error (trapOf cLNT k 0 s)
        | none => .ok ()

/-- The product table of the current core updated. -/
def State.updTable (s : State) (f : ProdTable → ProdTable) : State :=
  s.updCore s.curCore fun c => { c with table := f c.table }

/-- LNT (R221). -/
def actLnt (g : Guard) (a b : XReg) (lv : BitVec 3) (s : State) : Act :=
  s.begin g [a, b] [] fun vs s1 =>
    .done (s1.updTable fun t => { t with levels := t.levels.setIfInBounds lv.toNat (some ⟨vs.getD 0 0, vs.getD 1 0⟩) })
/-- MOPA (R219). -/
def actMopa (g : Guard) (a b : XReg) (s : State) : Act :=
  s.begin g [a, b] [] fun vs s1 => .done (s1.updTable fun t => { t with opA := some ⟨vs.getD 0 0, vs.getD 1 0⟩ })
/-- MOPB (R219). -/
def actMopb (g : Guard) (a b : XReg) (s : State) : Act :=
  s.begin g [a, b] [] fun vs s1 => .done (s1.updTable fun t => { t with opB := some ⟨vs.getD 0 0, vs.getD 1 0⟩ })
/-- MOPC (R220). -/
def actMopc (g : Guard) (a : XReg) (s : State) : Act :=
  s.begin g [a] [] fun vs s1 => .done (s1.updTable fun t => { t with tgt := some (vs.getD 0 0) })
/-- IDXV (R220). -/
def actIdxv (g : Guard) (a : XReg) (s : State) : Act :=
  s.begin g [a] [] fun vs s1 => .done (s1.updTable fun t => { t with idx := vs.getD 0 0 })

/-- The array of the current core updated. -/
def State.updArray (s : State) (core : Nat) (f : MatArray → MatArray) : State :=
  s.updCore core fun c => { c with array := f c.array }

/-- Whether a queue entry is an MGO. -/
def QEntry.isMgo (q : QEntry) : Bool :=
  match q.cmd with
  | .mgo _ _ => true
  | .copy _ => false | .coll _ => false | .collw _ _ => false | .fset _ => false | .fwait _ _ => false | .fclr _ => false

/-- The MGOs of a core that are pushed and not complete (R223). -/
def Core.pendMgos (c : Core) : Nat := (c.matQ.filter QEntry.isMgo).length

/-- The fault of the array that M's next MGO or MWAIT raises; it stands until M's handler is given it (R237). -/
def State.arrayTrap (s : State) : Option Trap := (s.core s.curCore).array.pendFault

/-- MGO: checked, then pushed with a copy of the table (R222). -/
def actMgo (g : Guard) (nlev : BitVec 3) (s : State) : Act :=
  if !s.guardOn g then .done s
  else match s.arrayTrap with
    | some t => .trap t s
    | none =>
      let t := (s.core s.curCore).table
      match s.mgoCheck t nlev.toNat with
      | .error a => a
      | .ok _ =>
        if !s.queueRoom .matrix then .wait (.engineQueue .matrix) s
        else .done (s.pushCmd .matrix (.mgo t nlev.toNat))

/-- MWAIT: at most n incomplete MGOs (R223). -/
def actMwait (g : Guard) (n : BitVec 4) (s : State) : Act :=
  if !s.guardOn g then .done s
  else match s.arrayTrap with
    | some t => .trap t s
    | none => if n.toNat < (s.core s.curCore).pendMgos then .wait (.matrix n.toNat) s else .done s

/-- The word of MSTAT (R223). -/
def Core.mstatWord (c : Core) : Word :=
  BitVec.ofNat 64 (c.array.last.toNat * 2 ^ 32 + (if c.array.fault then 2 ^ 31 else 0) + c.array.fsub.toNat * 2 ^ 16 +
    min 255 c.array.disc * 2 ^ 8 + min 31 c.pendMgos)

/-- MSTAT (R223). -/
def actMstat (g : Guard) (d : XReg) (s : State) : Act :=
  s.begin g [] [d] fun _ s1 => s.retire s1 d (s1.core s1.curCore).mstatWord
/-- MSTAT.CLR: FAULT, FSUB and DISC become zero (R223). -/
def actMstatClr (g : Guard) (d : XReg) (s : State) : Act :=
  s.begin g [] [d] fun _ s1 =>
    s.retire (s1.updArray s1.curCore fun a => { a with fault := false, fsub := 0, disc := 0 }) d
      (s1.core s1.curCore).mstatWord

/-! ## The interlock with running products (R234) -/

/-- The incomplete MGOs of the cluster whose target rows meet rows lo to hi. -/
def State.mgosOver (s : State) (lo hi : Nat) : List (Nat × Nat) :=
  (upto 4).flatMap fun k =>
    let n := 4 * s.curCl + k
    (s.core n).matQ.filterMap fun q => match q.cmd with
      | .mgo t nlev =>
        let r := t.rowSpan nlev
        if decide (r.1 ≤ (hi : Int)) && decide ((lo : Int) ≤ r.2) then some (n, q.seq) else none
      | .copy _ => none | .coll _ => none | .collw _ _ => none | .fset _ => none | .fwait _ _ => none | .fclr _ => none

/-- What an accumulator instruction on rows lo to hi still waits for: the MGOs that were pushed before it issued. -/
def State.rowsPending (s : State) (lo hi : Nat) : List (Nat × Nat) :=
  let now := s.mgosOver lo hi
  match s.me.waiting with
  | some (.acmRows _ _ l) => l.filter now.contains
  | _ => now

/-- The rest of an accumulator instruction once the interlock lets it act; s is the state before its sources were read, so that a wait
pops no port (R92, R234). -/
def State.interlock (s : State) (lo hi : Nat) (k : Act) : Act :=
  let l := s.rowsPending lo hi
  if l.isEmpty then k else .wait (.acmRows lo hi l) s

/-! ## ABAL and ABFR (R217) -/

/-- The lowest run of n FREE banks. -/
def State.freeRun (s : State) (n : Nat) : Option Nat :=
  (upto (65 - n)).find? fun b => (upto n).all fun i => s.acmState s.curCl s.curCtx (b + i) == .free

/-- ABAL: n banks taken and zeroed, or all ones (R217). -/
def actAbal (g : Guard) (d : XReg) (n : BitVec 6) (s : State) : Act :=
  s.begin g [] [d] fun _ s1 =>
    let k := n.toNat + 1
    match s1.freeRun k with
    | none => s.retire s1 d (BitVec.allOnes 64)
    | some b =>
      let s2 := s1.updCluster s1.curCl fun c =>
        { c with
          acm := c.acm.filter fun x => !(decide (5120 * b ≤ x.1) && decide (x.1 < 5120 * (b + k)))
          acmAlloc := (upto k).foldl (fun v i => v.setIfInBounds (b + i) (some s1.curKernel)) c.acmAlloc }
      s.retire s2 d (BitVec.ofNat 64 b)

/-- ABFR: the ALLOCATED banks of a run become FREE (R217). Of a run past bank 63 TVAL is x[a] (DESIGN CHOICE log 101). -/
def actAbfr (g : Guard) (a : XReg) (n : BitVec 6) (s : State) : Act :=
  s.begin g [a] [] fun vs s1 =>
    let k := n.toNat + 1
    let b := (vs.getD 0 0).toNat
    if 63 < b + k - 1 then trapOf cACMB 2 (vs.getD 0 0) s
    else match (upto k).find? fun i => s1.acmState s1.curCl s1.curCtx (b + i) == .notOwned with
      | some i => trapOf cACMB 0 (BitVec.ofNat 64 (b + i)) s
      | none =>
        s.interlock (32 * b) (32 * (b + k) - 1) (.done (s1.updCluster s1.curCl fun c =>
          { c with acmAlloc := (upto k).foldl (fun v i => v.setIfInBounds (b + i) none) c.acmAlloc }))

/-! ## AINIT and ANRM (R233) -/

/-- Every element of some rows replaced by a function of its column and value, or pair by pair. -/
def Cluster.mapRows (c : Cluster) (lo n : Nat) (f : Nat → AccElem → AccElem) : Cluster :=
  (upto n).foldl (fun c i => (upto 160).foldl (fun c j => c.setElem (lo + i) j (f j (c.elem (lo + i) j))) c) c
/-- Every pair of some rows replaced (R74); X and S of an odd element are no part of the pair. -/
def Cluster.mapPairs (c : Cluster) (lo n : Nat) (f : AccVal → AccVal) : Cluster :=
  (upto n).foldl
    (fun c i => (upto 80).foldl
      (fun c h =>
        let od := c.elem (lo + i) (2 * h + 1)
        let v := f (accGetPair (c.elem (lo + i) (2 * h)) od)
        (c.setElem (lo + i) (2 * h) (accPutEven v)).setElem (lo + i) (2 * h + 1)
          (accMk (accS od) (accX od) (accTw (accPutOdd v)))) c) c

/-- The row checks of AINIT and ANRM: reserved bits of x[a], then R216 (R233). -/
def State.initCheck (s : State) (v : Word) (n : Nat) : Option Trap :=
  if field v 63 11 ≠ 0 then some ⟨cACMB, 2, v⟩ else s.rowCheck true v.toNat (v.toNat + n - 1)

/-- AINIT (R233). -/
def actAinit (g : Guard) (a b : XReg) (n : BitVec 6) (pr : Bool) (s : State) : Act :=
  s.begin g [a, b] [] fun vs s1 =>
    let k := n.toNat + 1
    let v := vs.getD 0 0
    let x : Int := ((vs.getD 1 0).extractLsb' 0 16).toInt
    match s1.initCheck v k with
    | some t => .trap t s
    | none =>
      s.interlock v.toNat (v.toNat + k - 1) (.done (s1.updCluster s1.curCl fun c =>
        c.mapRows v.toNat k fun j _ => if pr && j % 2 == 1 then 0 else accMk 0 x 0))

/-- ANRM (R233). -/
def actAnrm (g : Guard) (a : XReg) (n : BitVec 6) (pr : Bool) (s : State) : Act :=
  s.begin g [a] [] fun vs s1 =>
    let k := n.toNat + 1
    let v := vs.getD 0 0
    match s1.initCheck v k with
    | some t => .trap t s
    | none =>
      s.interlock v.toNat (v.toNat + k - 1) (.done (s1.updCluster s1.curCl fun c =>
        if pr then
          c.mapPairs v.toNat k fun w => accNormalise true w
        else c.mapRows v.toNat k fun _ e => accPut (accNormalise false (accGet e))))

/-! ## ARD and AWR (R235) -/

/-- An element as ARD reads it: zero past column 159 and in a FREE bank (R216, R235). -/
def State.ardElem (s : State) (row col : Nat) : AccElem :=
  if 160 ≤ col then 0
  else if s.acmState s.curCl s.curCtx (row / 32) = .free then 0 else (s.cluster s.curCl).elem row col

/-- Element (i, j) of an ARD window with the flags of its rounding (R235). -/
def State.ardAt (s : State) (fmt : AccFmt) (row0 col0 i j : Nat) : Elem × FFlags :=
  let one (f : Fmt) : Elem × FFlags :=
    let (c, fl) := f.ofVal .rne ((accGet (s.ardElem (row0 + i) (col0 + j))).value false)
    (BitVec.ofNat 32 c, fl)
  match fmt with
  | .f32 => one fp32
  | .bf16 => one Machine.bf16
  | .f64 =>
    let h := col0 + j / 2 * 2
    let (c, fl) := fp64.ofVal .rne ((accGetPair (s.ardElem (row0 + i) h) (s.ardElem (row0 + i) (h + 1))).value true)
    (BitVec.ofNat 32 (if j % 2 = 0 then c else c / 2 ^ 32), fl)
  | .raw =>
    if j = 63 then (0, 0)
    else ((s.ardElem (row0 + i) (col0 + j / 3)).extractLsb' (32 * (j % 3)) 32, 0)

/-- The checks of ARD and AWR, in the order of R101 (R216, R235). -/
def State.windowCheck (s : State) (wr : Bool) (fmt : AccFmt) (v : Word) : Option Trap :=
  if fmt = .f64 ∧ v.getLsbD 16 then some ⟨cALIGN, 0, v⟩
  else if field v 63 24 ≠ 0 ∨ field v 15 11 ≠ 0 then some ⟨cACMB, 2, v⟩
  else s.rowCheck wr (field v 10 0) (field v 10 0 + 15)

/-- ARD (R235): STAT.ACMU for a FREE bank (R216). -/
def actArd (g : Guard) (fmt : AccFmt) (vd : VReg) (a : XReg) (m : MReg) (s : State) : Act :=
  s.begin g [a] [] fun vs s1 =>
    let v := vs.getD 0 0
    match s1.windowCheck false fmt v with
    | some t => .trap t s
    | none =>
      let r0 := field v 10 0
      let c0 := field v 23 16
      let isFree := (upto 16).any fun i => s1.acmState s1.curCl s1.curCtx ((r0 + i) / 32) == .free
      let s2 := if isFree then s1.setStat statACMU else s1
      s.interlock r0 (r0 + 15) (s2.vecPutFl m vd fun e => s1.ardAt fmt r0 c0 (e / 64) (e % 64))

/-- AWR (R235): positions past column 159 are ignored. -/
def actAwr (g : Guard) (fmt : AccFmt) (vd : VReg) (a : XReg) (m : MReg) (s : State) : Act :=
  s.begin g [a] [] fun vs s1 =>
    let v := vs.getD 0 0
    match s1.windowCheck true fmt v with
    | some t => .trap t s
    | none =>
      let r0 := field v 10 0
      let c0 := field v 23 16
      let k := s1.mask m
      let src := s1.vreg vd
      let raw (i h : Nat) : AccElem :=
        let w := velem src (64 * i + 3 * h + 2) ++ velem src (64 * i + 3 * h + 1) ++ velem src (64 * i + 3 * h)
        w &&& ~~~((0xFFE0 : AccElem) <<< 80)
      let put (c : Cluster) (i j : Nat) : Cluster :=
        match fmt with
        | .raw =>
          if j < 21 && k.getLsbD (64 * i + 3 * j) && decide (c0 + j < 160) then c.setElem (r0 + i) (c0 + j) (raw i j) else c
        | .f32 | .bf16 | .f64 =>
          if k.getLsbD (64 * i + j) && decide (c0 + j < 160) then
            c.setElem (r0 + i) (c0 + j)
              (accPut (accWriteF32 (accGet (c.elem (r0 + i) (c0 + j))) (velem src (64 * i + j)).toNat))
          else c
      s.interlock r0 (r0 + 15) (.done (s1.updCluster s1.curCl fun c =>
        (upto 16).foldl (fun c i => (upto 64).foldl (fun c j => put c i j) c) c))

/-! ## The instructions -/

/-- LNT as an instruction (R221). -/
def execLnt (g : Guard) (a b : XReg) (lv : BitVec 3) (s : State) : Outcome State Fault Refusal :=
  finish 1 (actLnt g a b lv s)
/-- MOPA as an instruction (R219). -/
def execMopa (g : Guard) (a b : XReg) (s : State) : Outcome State Fault Refusal := finish 1 (actMopa g a b s)
/-- MOPB as an instruction (R219). -/
def execMopb (g : Guard) (a b : XReg) (s : State) : Outcome State Fault Refusal := finish 1 (actMopb g a b s)
/-- MOPC as an instruction (R220). -/
def execMopc (g : Guard) (a : XReg) (s : State) : Outcome State Fault Refusal := finish 1 (actMopc g a s)
/-- IDXV as an instruction (R220). -/
def execIdxv (g : Guard) (a : XReg) (s : State) : Outcome State Fault Refusal := finish 1 (actIdxv g a s)
/-- MGO as an instruction (R222). -/
def execMgo (g : Guard) (nlev : BitVec 3) (s : State) : Outcome State Fault Refusal := finish 1 (actMgo g nlev s)
/-- MWAIT as an instruction (R223). -/
def execMwait (g : Guard) (n : BitVec 4) (s : State) : Outcome State Fault Refusal := finish 1 (actMwait g n s)
/-- MSTAT as an instruction (R223). -/
def execMstat (g : Guard) (d : XReg) (s : State) : Outcome State Fault Refusal := finish 1 (actMstat g d s)
/-- MSTAT_CLR as an instruction (R223). -/
def execMstatClr (g : Guard) (d : XReg) (s : State) : Outcome State Fault Refusal := finish 1 (actMstatClr g d s)
/-- ABAL as an instruction (R217). -/
def execAbal (g : Guard) (d : XReg) (n : BitVec 6) (s : State) : Outcome State Fault Refusal := finish 1 (actAbal g d n s)
/-- ABFR as an instruction (R217). -/
def execAbfr (g : Guard) (a : XReg) (n : BitVec 6) (s : State) : Outcome State Fault Refusal := finish 1 (actAbfr g a n s)
/-- AINIT as an instruction (R233). -/
def execAinit (g : Guard) (a b : XReg) (n : BitVec 6) (pr : Bool) (s : State) : Outcome State Fault Refusal :=
  finish 1 (actAinit g a b n pr s)
/-- ANRM as an instruction (R233). -/
def execAnrm (g : Guard) (a : XReg) (n : BitVec 6) (pr : Bool) (s : State) : Outcome State Fault Refusal :=
  finish 1 (actAnrm g a n pr s)
/-- ARD as an instruction (R235). -/
def execArd (g : Guard) (fmt : AccFmt) (vd : VReg) (a : XReg) (m : MReg) (s : State) : Outcome State Fault Refusal :=
  finish 1 (actArd g fmt vd a m s)
/-- AWR as an instruction (R235). -/
def execAwr (g : Guard) (fmt : AccFmt) (vd : VReg) (a : XReg) (m : MReg) (s : State) : Outcome State Fault Refusal :=
  finish 1 (actAwr g fmt vd a m s)

end Sys2Proof.Machine
end

