-- ==== Sys2Proof/Machine/Array.lean ====
section
/-! DEFINITION. The matrix array at work: issue of an MGO, passes and array cycles, operand fetch, folds and their entries (R220 to
R232), its held clocks and its faults (R236, R237). -/

namespace Sys2Proof.Machine

/-! ## The shape of a product (R219, R222, R225) -/

/-- Whether a product runs in FP64 composed mode (R232). -/
def ProdTable.pair (t : ProdTable) : Bool := t.opA.any fun a => a.fmt == 4
/-- The lanes L of a product: the smaller L of its operands (R222). -/
def ProdTable.lanes (t : ProdTable) : Nat :=
  match t.opA, t.opB with
  | some a, some b => min (fmtLanes a.fmt) (fmtLanes b.fmt)
  | _, _ => 1
/-- The lines of A. -/
def ProdTable.aLines (t : ProdTable) : Nat := match t.opA with | some a => a.lines + 1 | none => 0
/-- The lines of B. -/
def ProdTable.bLines (t : ProdTable) : Nat := match t.opB with | some b => b.lines + 1 | none => 0
/-- The elements of a line. -/
def ProdTable.depth1 (t : ProdTable) : Nat := match t.opA with | some a => a.depth + 1 | none => 0
/-- The groups of A lines (R225). -/
def ProdTable.groups (t : ProdTable) : Nat := (t.aLines + t.lanes - 1) / t.lanes
/-- The array cycles that loading the B elements of a pass takes (R225). -/
def ProdTable.loadCycles (t : ProdTable) : Nat := if t.pair then 20 else t.depth1
/-- The array cycles from a pass's cycle 0 to the next one's (R225). -/
def ProdTable.stride (t : ProdTable) : Nat := max 1 (max t.groups t.loadCycles)
/-- The rows of a band (R225, R232). -/
def ProdTable.bandRows (t : ProdTable) : Nat := if t.pair then 4 else 32
/-- The bands that hold some k of a line. -/
def ProdTable.bands (t : ProdTable) : Nat := (t.depth1 + t.bandRows - 1) / t.bandRows
/-- The passes of a product. -/
def ProdTable.passCount (t : ProdTable) (nlev : Nat) : Nat := (t.used nlev).foldl (fun n l => n * (l.count + 1)) 1
/-- The array cycle at which pass p of a running MGO begins, counted from its issue. -/
def RunMgo.passStart (r : RunMgo) (p : Nat) : Nat := r.first + p * r.table.stride
/-- The array cycle at which the last pass of a running MGO begins. -/
def RunMgo.lastStart (r : RunMgo) : Nat := r.passStart (r.table.passCount r.nlev - 1)

/-- The index vector of pass p, innermost first (R222). -/
def passIndex : List LoopLevel → Nat → List (LoopLevel × Nat)
  | [], _ => []
  | l :: ls, p => (l, p % (l.count + 1)) :: passIndex ls (p / (l.count + 1))

/-- a0, b0 and r0 of pass p (R222). -/
def ProdTable.passAt (t : ProdTable) (nlev p : Nat) : Word × Word × Nat :=
  let ix := passIndex (t.used nlev) p
  let sum (f : LoopLevel → Int) : Int := ix.foldl (fun a x => a + f x.1 * x.2) 0
  let base (o : Option OpDesc) : Word := match o with | some d => d.base | none => 0
  (addrStep (base t.opA) (sum LoopLevel.da), addrStep (base t.opB) (sum LoopLevel.db),
    ((match t.tgt with | some c => (field c 10 0 : Int) | none => 0) + sum LoopLevel.dc).toNat)

/-! ## Operand fetch -/

/-- The elements that the bytes of a line hold, in the internal sense: exact values (R199, R219). -/
def lineVals (x : BlkCtx) (o : OpDesc) (bs : List Byte) : List FVal :=
  let n := leNat bs
  match fmtClass o.fmt with
  | some k =>
    (upto ((o.depth + 1) / 32)).flatMap fun b =>
      let blk := (bs.drop (b * blkBytes k)).take (blkBytes k)
      let h := hdrUsed (BitVec.ofNat 16 (leNat (blk.take 2)))
      (upto 32).map fun i => elemValue x k h (payCode k (leNat (blk.drop 2)) i)
  | none =>
    if o.fmt = 4 then (upto (o.depth + 1)).map fun i => fp64.value (n / 2 ^ (64 * i) % 2 ^ 64)
    else (upto (o.depth + 1)).map fun i => bf16.value (n / 2 ^ (16 * i) % 2 ^ 16)

/-- Line j of an operand from a base, its headers checked (R197, R219, R237; DEDUCED log 62); the width class is FMT's for a tile
operand too (R195, R219; DEDUCED log 83). -/
def State.fetchLine (s : State) (x : BlkCtx) (o : OpDesc) (base : Word) (j : Nat) : Except Act (List FVal × State) := do
  let y := addrStep base (j * o.pitch)
  let (bs, s1) ← s.engBytes y o.lineBytes
  match fmtClass o.fmt with
  | none => .ok (lineVals x o bs, s1)
  | some k =>
    let hs := (upto ((o.depth + 1) / 32)).map fun b =>
      (blockAddr k y b, BitVec.ofNat 16 (leNat ((bs.drop (b * blkBytes k)).take 2)))
    match s1.headersCheck s1.curCore x k hs with
    | (s2, some t) => .error (.trap t s2)
    | (s2, none) => .ok (lineVals x o bs, s2)

/-- Lines of an operand; none is a line of zeros (R220). -/
def State.fetchLines (s : State) (x : BlkCtx) (o : OpDesc) (base : Word) :
    List (Option Nat) → Except Act (List (Option (List FVal)) × State)
  | [] => .ok ([], s)
  | none :: js => do
    let (ls, s1) ← s.fetchLines x o base js
    .ok (none :: ls, s1)
  | some j :: js => do
    let (l, s1) ← s.fetchLine x o base j
    let (ls, s2) ← s1.fetchLines x o base js
    .ok (some l :: ls, s2)

/-- The operand line that A line m of a pass is read from; an index at or above the line count is a line of zeros (R220). -/
def State.lineOf (s : State) (t : ProdTable) (m : Nat) : Except Act (Option Nat × State) := do
  if t.idx = 0 then .ok (some m, s)
  else
    let (bs, s1) ← s.engBytes (leaW t.idx (BitVec.ofNat 64 (2 * m))) 2
    .ok (if leNat bs < t.aLines then some (leNat bs) else none, s1)

/-- The operand lines of A lines. -/
def State.linesOf (s : State) (t : ProdTable) : List Nat → Except Act (List (Option Nat) × State)
  | [] => .ok ([], s)
  | m :: ms => do
    let (j, s1) ← s.lineOf t m
    let (js, s2) ← s1.linesOf t ms
    .ok (j :: js, s2)

/-! ## Folds on their way (R225, R228) -/

/-- The factor pairs of band β. -/
def bandPairs (t : ProdTable) (a b : List FVal) (β : Nat) : List (FVal × FVal) :=
  ((a.zip b).drop (β * t.bandRows)).take t.bandRows

/-- The array cycle at whose end the fold of band β for line m and column n enters its element (R225). -/
def ProdTable.entryAt (t : ProdTable) (start m n β : Nat) : Nat :=
  if t.pair then start + m + n + 4 * β + 7 else start + m / t.lanes + n + 32 * β + 35

/-- The first cycle, from one on, by which the folds of an element that are on their way have entered. -/
def pendAfter (l : List PendEntry) (row col from_ : Nat) : Nat :=
  l.foldl (fun m x => if x.row = row ∧ x.col = col then max m x.at_ else m) from_

/-- A fold put behind those of its element (R230): its MGO's, and `prev`, those of the MGOs before it. -/
def addPend (prev l : List PendEntry) (e : PendEntry) : List PendEntry :=
  l ++ [{ e with at_ := pendAfter l e.row e.col (pendAfter prev e.row e.col e.at_) }]

/-- The folds of one A line of a pass put on their way. -/
def pendLine (t : ProdTable) (start r0 m : Nat) (bl : List (List FVal)) (a : List FVal) (prev l : List PendEntry) : List PendEntry :=
  (upto t.bands).foldl
    (fun l β => bl.zipIdx.foldl
      (fun l b => addPend prev l ⟨t.entryAt start m b.2 β, start, m, β, r0 + m, b.2, foldBand t.pair (bandPairs t a b.1 β)⟩) l) l

/-- A fold entered into its element, or in composed mode into its pair (R229, R232). -/
def Cluster.enter (c : Cluster) (pair : Bool) (e : PendEntry) : Cluster :=
  if pair then
    let v := accEnter true (accGetPair (c.elem e.row (2 * e.col)) (c.elem e.row (2 * e.col + 1))) e.fold
    (c.setElem e.row (2 * e.col) (accPutEven v)).setElem e.row (2 * e.col + 1) (accPutOdd v)
  else c.setElem e.row e.col (accPut (accEnter false (accGet (c.elem e.row e.col)) e.fold))

/-! ## One array cycle -/

/-- The pass whose B lines begin to load in a cycle: the first at the issue, each later one as its predecessor streams (R225). -/
def RunMgo.loadsAt (r : RunMgo) (c : Nat) : Option Nat :=
  if c = 0 then some 0
  else if r.first ≤ c ∧ (c - r.first) % r.table.stride = 0 then some ((c - r.first) / r.table.stride + 1) else none

/-- The B lines of a pass fetched. -/
def State.loadPass (s : State) (r : RunMgo) (p : Nat) : Except Act (RunMgo × State) := do
  match r.table.opB with
  | none => .ok (r, s)
  | some b =>
    if p < r.table.passCount r.nlev then
      let (ls, s1) ← s.fetchLines r.blk b (r.table.passAt r.nlev p).2.1 ((upto r.table.bLines).map some)
      .ok ({ r with passes := r.passes ++ [⟨r.passStart p, ls.map fun l => l.getD [], []⟩] }, s1)
    else .ok (r, s)

/-- The A lines that enter in a cycle fetched, and their folds put on their way behind those of the MGOs before. In composed mode a
line of zeros makes no fold, so that it writes no X and S of an odd element (R220, R232; DESIGN CHOICE log 97). -/
def State.injectGroup (s : State) (prev : List PendEntry) (r : RunMgo) : Except Act (RunMgo × State) := do
  let t := r.table
  match t.opA with
  | none => .ok (r, s)
  | some a =>
    let p := (r.cycle - r.first) / t.stride
    let g := (r.cycle - r.first) % t.stride
    if r.cycle < r.first ∨ t.passCount r.nlev ≤ p ∨ t.groups ≤ g then .ok (r, s)
    else
      let ms := (upto t.lanes).filterMap fun i => if g * t.lanes + i < t.aLines then some (g * t.lanes + i) else none
      let (js, s1) ← s.linesOf t ms
      let at0 := t.passAt r.nlev p
      let (ls, s2) ← s1.fetchLines r.blk a at0.1 js
      let start := r.passStart p
      let bl := match r.passes.find? (·.start == start) with | some q => q.b | none => []
      let pend := (ms.zip ls).foldl
        (fun l x => match x.2 with | some v => pendLine t start at0.2.2 x.1 bl v prev l | none => l) r.pend
      .ok ({ r with
        passes := r.passes.map fun q => if q.start == start then { q with a := q.a ++ ls } else q
        pend := pend }, s2)

/-- The folds on their way of an MGO, at the array cycles of one behind it, and at the columns of that one's product: a composed mode's
column is a pair of elements (R232). -/
def RunMgo.pendFor (r r' : RunMgo) : List PendEntry :=
  r.pend.flatMap fun e =>
    let e1 := { e with at_ := e.at_ - r.cycle + r'.cycle }
    if r.table.pair == r'.table.pair then [e1]
    else if r.table.pair then [{ e1 with col := 2 * e.col }, { e1 with col := 2 * e.col + 1 }] else [{ e1 with col := e.col / 2 }]

/-- What the running MGOs of a core load and inject in an array cycle (R225), or the number of the one that a fault meets. -/
def State.arrayFetch (s : State) (prev : List RunMgo) : List RunMgo → Except (Nat × Act) (List RunMgo × State)
  | [] => .ok ([], s)
  | r :: rs =>
    let one : Except Act (RunMgo × State) := do
      let (r1, s1) ← match r.loadsAt r.cycle with | some p => s.loadPass r p | none => Except.ok (r, s)
      s1.injectGroup (prev.flatMap fun q => q.pendFor r) r1
    match one with
    | .error a => .error (r.seq, a)
    | .ok (r2, s2) =>
      match s2.arrayFetch (prev ++ [r2]) rs with
      | .ok (l, s3) => .ok (r2 :: l, s3)
      | .error e => .error e

/-- The end of an array cycle of an MGO: the folds that are due enter their elements (R225, R229). -/
def State.arrayEnter (s : State) (cl : Nat) (r : RunMgo) : RunMgo × State :=
  ({ r with
     cycle := r.cycle + 1
     pend := r.pend.filter fun e => !decide (e.at_ ≤ r.cycle)
     passes := r.passes.filter fun q => decide (r.cycle < q.start + r.table.stride + 400) },
   s.updCluster cl fun c => (r.pend.filter fun e => decide (e.at_ ≤ r.cycle)).foldl (fun c e => c.enter r.table.pair e) c)

/-- The end of an array cycle of the running MGOs, in issue order (R230). -/
def State.arrayEnterAll (s : State) (cl : Nat) : List RunMgo → List RunMgo × State
  | [] => ([], s)
  | r :: rs =>
    let (r1, s1) := s.arrayEnter cl r
    let (l, s2) := s1.arrayEnterAll cl rs
    (r1 :: l, s2)

/-- Whether every pass has been injected and every fold has entered. -/
def RunMgo.finished (r : RunMgo) : Bool :=
  decide (r.lastStart + r.table.groups ≤ r.cycle) && r.pend.isEmpty

/-! ## Issue, completion, abandonment -/

/-- The ranges that an MGO claims: read ranges of its tile-space operands and index list (R222). -/
def mgoRanges (t : ProdTable) (nlev core seq : Nat) : List HeldRange :=
  ((t.spans nlev).filter fun o => spaceTag o.y == 1).map fun o => ⟨none, false, o.lo.toNat, o.hi.toNat, core, seq, false⟩

/-- Whether the tiles of an MGO's tile-space operands are READY (R18, R128). -/
def State.mgoTiles (s : State) (cl : Nat) (t : ProdTable) (nlev : Nat) : Bool :=
  ((t.spans nlev).filter fun o => spaceTag o.y == 1).all fun o =>
    match (s.cluster cl).tileOver o.lo o.hi with
    | some x => x.state == .ready
    | none => false

/-- Whether an issued accumulator instruction of the cluster that does not itself wait for this MGO touches its rows (R234). -/
def State.rowsBusy (s : State) (core seq : Nat) (t : ProdTable) (nlev : Nat) : Bool :=
  let sp := t.rowSpan nlev
  (upto 4).any fun k =>
    let n := 4 * clusterOf core + k
    [StreamId.A, .X, .M, .C].any fun st =>
      match (s.strm n st).waiting with
      | some (.acmRows lo hi l) => !l.contains (core, seq) && decide (sp.1 ≤ (hi : Int)) && decide ((lo : Int) ≤ sp.2)
      | _ => false

/-- The array cycle, counted from its issue, at which the first pass of an MGO begins: its B elements load first, and over the last pass
of the MGO before it, whose last injection it follows (R225); none while that one's last pass has not begun. -/
def MatArray.firstFor (a : MatArray) (t : ProdTable) : Option Nat :=
  match a.running.getLast? with
  | none => some t.loadCycles
  | some r =>
    if r.lastStart ≤ r.cycle then some (max t.loadCycles (r.lastStart + r.table.groups - r.cycle)) else none

/-- The B elements that stand in the cells behind the running MGOs: the last pass of each, the last MGO's first (R225). -/
def MatArray.leaves (a : MatArray) : List (List (List FVal)) :=
  match a.running.getLast? with
  | none => []
  | some r => ((r.passes.filter fun q => q.start == r.lastStart).map (·.b)) ++ r.under

/-- The MGO at the head of a core's queue issues; the level tables are read now (R128, R202, R222, R225). -/
def State.mgoIssue (s : State) (core : Nat) : State :=
  match headOf (s.core core).matQ with
  | none => s
  | some q =>
    match q.cmd with
    | .mgo t nlev =>
      if (s.core core).array.running.any (·.held.isSome) || (s.core core).ueHeld || s.rowsBusy core q.seq t nlev ||
          !s.mgoTiles (clusterOf core) t nlev then s
      else
        match (s.core core).array.firstFor t with
        | none => s
        | some first =>
          match s.claim core (mgoRanges t nlev core q.seq) with
          | none => s
          | some s1 =>
            let q' := { q with issued := true, ranges := mgoRanges t nlev core q.seq }
            let run : RunMgo :=
              { seq := q.seq, table := t, nlev := nlev, blk := (s.ctx (s.ctxOf core)).blk, cycle := 0, first := first, passes := [], pend := [],
                held := none, under := (s.core core).array.leaves, sums := [] }
            (s1.joinWindow core q').updCore core fun c =>
              { c with matQ := setEntry c.matQ q', array := { c.array with running := c.array.running ++ [run] } }
    | .copy _ => s | .coll _ => s | .collw _ _ => s | .fset _ => s | .fwait _ _ => s | .fclr _ => s

/-- A running MGO completes (R223). -/
def State.mgoComplete (s : State) (core seq : Nat) : State :=
  (s.releaseRanges core seq).updCore core fun c =>
    { c with
      matQ := dropEntry c.matQ seq
      array := { c.array with running := c.array.running.filter (·.seq != seq), last := BitVec.ofNat 32 seq } }

/-- A running MGO is abandoned: its later entries are not made, the MGOs behind it are discarded, MSTAT and M's next trap record
the fault (R237). A second one before MSTAT.CLR leaves its own DISC and FSUB (R223; DESIGN CHOICE log 96). -/
def State.mgoAbandon (s : State) (core seq : Nat) (t : Trap) : State :=
  let c := s.core core
  let gone := (c.matQ.filter QEntry.isMgo).dropWhile (·.seq != seq)
  let isGone (n : Nat) : Bool := gone.any fun q => q.seq == n
  let s1 := s.updCluster (clusterOf core) fun x => { x with ranges := x.ranges.filter fun r => !(r.core == core && isGone r.seq) }
  s1.updCore core fun c =>
    { c with
      matQ := c.matQ.filter fun q => !isGone q.seq
      window := c.window.filter fun q => !isGone q.seq
      array := { c.array with
        running := c.array.running.filter fun r => !isGone r.seq, fault := true, fsub := t.cause, pendFault := some t
        disc := min 255 (gone.length - 1) } }

/-- The running MGOs replaced. -/
def State.setRuns (s : State) (core : Nat) (l : List RunMgo) : State :=
  s.updCore core fun c => { c with array := { c.array with running := l } }

/-- A running MGO held at a fault, or no longer held. -/
def State.holdRun (s : State) (core seq : Nat) (t : Option Trap) : State :=
  s.setRuns core ((s.core core).array.running.map fun r => if r.seq = seq then { r with held := t } else r)

/-- An array cycle of a core (R225): a page fault or an error of the cluster store holds the clocks (R236, R310), any other fault
abandons the MGO that meets it (R237; DESIGN CHOICE log 3). -/
def State.foldEntry (s : State) (core : Nat) : State :=
  let rs := (s.core core).array.running
  if rs.isEmpty || rs.any (·.held.isSome) || (s.core core).ueHeld then s
  else
    match ({ s with cur := .stream core .M }).arrayFetch [] rs with
    | .ok (l, s1) =>
      let (l1, s2) := s1.arrayEnterAll (clusterOf core) l
      (l1.filter RunMgo.finished).foldl (fun s r => s.mgoComplete core r.seq) (s2.setRuns core l1)
    | .error (seq, .trap t s1) => if faultHolds t then s1.holdRun core seq (some t) else s1.mgoAbandon core seq t
    | .error (_, .wait _ s1) => s1
    | .error (_, .done s1) => s1
    | .error (_, .jump s1) => s1

/-- The shadow handler ends a page fault of the array: the clocks restart, or the MGO is abandoned (R236, R237). -/
def State.arrayResume (s : State) (core : Nat) (ok : Bool) : State :=
  match (s.core core).array.running.find? (·.held.isSome) with
  | none => s
  | some r =>
    match r.held with
    | none => s
    | some t =>
      if t.cause ≠ cPAGE then s
      else if ok then (if pageResolvable t then s.holdRun core r.seq none else s)
      else if s.pageAsked (clusterOf core) (s.ctxOf core) t then s else s.mgoAbandon core r.seq t

/-! ## Replay after an error of the cluster store (R310) -/

/-- The cluster and the line of its store that a line number of a core names: its own cluster's below 0x20000, else a peer's, as a journal
numbers them. -/
def storeAt (core line : Nat) : Nat × Nat := if line < 0x20000 then (clusterOf core, line) else (line / 0x20000 - 1, line % 0x20000)

/-- The cluster and the line of its store that holds a copy address of a core, if it is one of a cluster store (R143). -/
def storeLine (core : Nat) (y : Word) : Option (Nat × Nat) :=
  match cspace y with
  | some .tile => some (clusterOf core, coffset y / 64)
  | some (.peer cl) => some (cl, coffset y / 64)
  | some .global => none | some (.staging _) => none | none => none

/-- Whether a command reads a line of its own cluster's store: a running MGO or an issued copy or collective. -/
def QEntry.readsLine (q : QEntry) (line : Nat) : Bool :=
  q.issued && q.ranges.any fun r => r.slice.isNone && !r.write && meets r.lo r.hi (64 * line) (64 * line + 63)

/-- Whether a fault is an error of a line of a cluster store. -/
def ueAt (core line : Nat) (t : Trap) : Bool := ueTrap t && storeLine core t.tval == some (storeAt core line)

/-- Whether the engines of a core read a line of the cluster store, or are held at it. -/
def Core.readsLine (c : Core) (core line : Nat) : Bool :=
  (c.copyQ ++ c.matQ ++ c.colQ).any (·.readsLine line) || c.copyStopped.any (ueAt core line) || c.collHeld.any (ueAt core line) ||
    c.array.running.any fun r => r.held.any (ueAt core line)

/-- Whether a command of the window wrote a line of a cluster store: an execution's destination holds it. -/
def QEntry.wroteLine (q : QEntry) (core line : Nat) : Bool :=
  match q.cmd with
  | .copy c =>
    (upto (c.cnt + 1)).any fun i =>
      match storeLine core (c.dstAt i) with
      | some (cl, l) => cl == (storeAt core line).1 && decide (l ≤ (storeAt core line).2) && decide ((storeAt core line).2 < l + 2 ^ c.sz)
      | none => false
  | .mgo _ _ => false | .coll _ => false | .collw _ _ => false | .fset _ => false | .fwait _ _ => false | .fclr _ => false

/-- A command of the window as it runs again, from its first execution on. -/
def QEntry.afresh (q : QEntry) : QEntry :=
  match q.cmd with
  | .copy c => { q with cmd := .copy { c with stepsDone := 0 }, prog := ⟨none, 0⟩ }
  | .mgo _ _ => q | .coll _ => q | .collw _ _ => q | .fset _ => q | .fwait _ _ => q | .fclr _ => q

/-- How a replay goes on: it is over, it waits for an answer or a page, or it cannot clear the error. -/
inductive ReplayEnd where
  | over | busy | lost
  deriving DecidableEq, Repr

/-- The copies that run again, in push order, each whole and from its own sources (R25, R310). -/
def State.replayCopies (s : State) (core : Nat) : List QEntry → List QEntry × ReplayEnd × State
  | [] => ([], .over, s)
  | q :: qs =>
    match q.cmd with
    | .copy c =>
      (match ({ s with cur := .stream core q.by_ } : State).copyRun ⟨false, q.seq⟩ c q.prog (c.cnt + 1 - c.stepsDone) with
       | (_, _, .over, s1) => s1.replayCopies core qs
       | (c1, p, .busy, s1) => ({ q with cmd := .copy c1, prog := p } :: qs, .busy, s1)
       | (c1, _, .fault t, s1) =>
         ({ q with cmd := .copy c1, prog := ⟨none, 0⟩ } :: qs, if t.cause == cPAGE then .busy else .lost, s1))
    | .mgo _ _ => s.replayCopies core qs | .coll _ => s.replayCopies core qs | .collw _ _ => s.replayCopies core qs
    | .fset _ => s.replayCopies core qs | .fwait _ _ => s.replayCopies core qs | .fclr _ => s.replayCopies core qs

/-- A core's engines go on after an error of the cluster store. -/
def State.ueGo (s : State) (core : Nat) : State :=
  s.updCore core fun c =>
    { c with
      replay := []
      copyStopped := c.copyStopped.filter fun t => !ueTrap t, collHeld := c.collHeld.filter fun t => !ueTrap t
      array := { c.array with running := c.array.running.map fun r =>
        { r with held := r.held.filter fun t => !ueTrap t } } }

/-- An error that replay cannot clear: the MGO that met it is abandoned, any other command is a context fault (R148, R237, R310). An error
that no engine is held at yet is that of the copy or the collective that reads the line, else the array's (DESIGN CHOICE log 98). -/
def State.ueLost (s : State) (core line : Nat) : State :=
  let t : Trap := ⟨cUE, 0, BitVec.ofNat 64 (2 ^ 56 + 64 * line)⟩
  let c := s.core core
  match c.array.running.find? fun r => r.held.any ueTrap with
  | some r => (s.ueGo core).mgoAbandon core r.seq (r.held.getD t)
  | none =>
    match (c.copyStopped.filter ueTrap).or (c.collHeld.filter ueTrap) with
    | some u => (s.ueGo core).copyFault core u
    | none =>
      if (c.copyQ ++ c.colQ).any (·.readsLine line) then (s.ueGo core).copyFault core t
      else match c.array.running.head? with
        | some r => (s.ueGo core).mgoAbandon core r.seq t
        | none => s.ueGo core

/-- An engine's error found in a line of a cluster store: counted when no engine has met it (R310, R351). -/
def State.ueFound (s : State) (core line : Nat) : State :=
  let a := storeAt core line
  if (s.cluster a.1).badStore.contains a.2 then s
  else (s.updCluster a.1 fun x => { x with badStore := x.badStore ++ [a.2] }).countErr (.cluster a.1) true

/-- An engine of a core finds an error in a line that it reads, or its replay goes on: the window's copies rewrite the line and the
engines go on, or the MGO is abandoned, or the context faults (R25, R148, R237, R310). -/
def State.ueReplay (s : State) (core line : Nat) : State :=
  let c := s.core core
  if c.replay.isEmpty && !c.readsLine core line then s
  else
    let s0 := if c.replay.isEmpty then s.ueFound core line else s
    let todo := if c.replay.isEmpty then (c.window.filter (·.wroteLine core line)).map QEntry.afresh else c.replay
    match s0.replayCopies core todo with
    | (_, .over, s1) =>
      if (s1.cluster (storeAt core line).1).badStore.contains (storeAt core line).2 then s1.ueLost core line else s1.ueGo core
    | (l, .busy, s1) => s1.updCore core fun c => { c with replay := l }
    | (_, .lost, s1) => s1.ueLost core line

end Sys2Proof.Machine
end

