-- ==== Sys2Proof/Machine/Policy.lean ====
section
/-! DEFINITION. Scheduling policies: the policy machine, the checks of an image, and what an event of a context's policy answers (R132 to
R134). -/

namespace Sys2Proof.Machine

/-! ## The policy machine (R132) -/

/-- The policy machine: eight registers and sixteen state words (R132). -/
structure PolMachine where
  g : Vector (BitVec 32) 8
  st : Vector (BitVec 32) 16

/-- A register of the policy machine. -/
def PolMachine.reg (m : PolMachine) (n : Nat) : BitVec 32 := m.g.getD n 0
/-- A register of the policy machine written. -/
def PolMachine.setReg (m : PolMachine) (n : Nat) (v : BitVec 32) : PolMachine := { m with g := m.g.setIfInBounds n v }

/-- A number saturated to 32 bits (R134). -/
def sat32 (n : Nat) : BitVec 32 := BitVec.ofNat 32 (min n 0xFFFFFFFF)
/-- A sum that saturates. -/
def satAdd (a b : BitVec 32) : BitVec 32 := sat32 (a.toNat + b.toNat)
/-- A difference that stops at zero. -/
def satSub (a b : BitVec 32) : BitVec 32 := BitVec.ofNat 32 (a.toNat - b.toNat)

/-- A program run from a word on (R132): a skip drops words; END, or the end of the words, stops it. -/
def PolMachine.run (inputs : List (BitVec 32)) : Nat → List (BitVec 32) → PolMachine → PolMachine
  | 0, _, m => m
  | _, [], m => m
  | fuel + 1, w :: ws, m =>
    let d := field w 23 20
    let a := field w 19 16
    let imm := field w 15 0
    let x := m.reg d
    let y := m.reg a
    match field w 31 24 with
    | 0x01 => run inputs fuel ws (m.setReg d (BitVec.ofNat 32 imm))
    | 0x02 => run inputs fuel ws (m.setReg d (inputs.getD imm 0))
    | 0x03 => run inputs fuel ws (m.setReg d (satAdd x y))
    | 0x04 => run inputs fuel ws (m.setReg d (satSub x y))
    | 0x05 => run inputs fuel ws (m.setReg d (if x ≤ y then x else y))
    | 0x06 => run inputs fuel ws (m.setReg d (if x ≤ y then y else x))
    | 0x07 => run inputs fuel ws (m.setReg d (x >>> imm))
    | 0x08 => run inputs fuel (if x < y then ws.drop imm else ws) m
    | 0x09 => run inputs fuel (if x = y then ws.drop imm else ws) m
    | 0x0A => run inputs fuel ws (m.setReg d (m.st.getD imm 0))
    | 0x0B => run inputs fuel ws { m with st := m.st.setIfInBounds imm y }
    | _ => m

/-! ## The check of an image (R133) -/

/-- Whether a word of a policy program is one that R133 accepts, n words before the program's last one. -/
def polWordOk (w : BitVec 32) (n : Nat) : Bool :=
  let gd := field w 23 20
  let ga := field w 19 16
  let imm := field w 15 0
  decide (gd ≤ 7) && decide (ga ≤ 7) &&
    match field w 31 24 with
    | 0x01 => ga == 0
    | 0x02 => ga == 0 && decide (imm ≤ 4)
    | 0x03 => imm == 0
    | 0x04 => imm == 0
    | 0x05 => imm == 0
    | 0x06 => imm == 0
    | 0x07 => ga == 0 && decide (imm ≤ 31)
    | 0x08 => decide (imm + 1 ≤ n)
    | 0x09 => decide (imm + 1 ≤ n)
    | 0x0A => ga == 0 && decide (imm ≤ 15)
    | 0x0B => gd == 0 && decide (imm ≤ 15)
    | 0x0C => gd == 0 && ga == 0 && imm == 0
    | _ => false

/-- Whether a policy program passes the checks of R133. -/
def polProgramOk (ws : List (BitVec 32)) : Bool :=
  decide (ws.length ≤ 256) && (ws.getLast?).any (fun w => field w 31 24 == 0x0C) &&
    ws.zipIdx.all fun x => polWordOk x.1 (ws.length - 1 - x.2)

/-- A policy image loaded for a context: one that R133 rejects leaves the default policy (R132, R133). -/
def Context.load (c : Context) (p : Policy) : Context :=
  if polProgramOk p.enq && polProgramOk p.pick && polProgramOk p.slice then
    { c with policy := some p, polState := Vector.replicate 16 0 }
  else { c with policy := none }

/-! ## The events (R134) -/

/-- The program of an event (R132, R294). -/
def Policy.program (p : Policy) (ev : Nat) : List (BitVec 32) := match ev with | 0 => p.enq | 1 => p.pick | _ => p.slice

/-- The outputs of the default policy: it accepts at priority 0, scores by the waiting time, and continues (R134). -/
def defaultPolicy (ev : Nat) (inputs : List (BitVec 32)) : Word :=
  match ev with | 0 => 1 | 1 => (inputs.getD 2 0).setWidth 64 | _ => 0

/-- One event of a context's policy, or of the default one: (g1 << 32) | g0, the state words kept (R132, R134, R294). -/
def State.polRun (s : State) (ctx ev : Nat) (ins : List (BitVec 32)) : Word × State :=
  match (s.ctx ctx).policy with
  | none => (defaultPolicy ev ins, s)
  | some p =>
    let m := PolMachine.run ins 256 (p.program ev) ⟨Vector.replicate 8 0, (s.ctx ctx).polState⟩
    ((m.reg 1).setWidth 64 <<< 32 ||| (m.reg 0).setWidth 64, s.updCtx ctx fun c => { c with polState := m.st })

end Sys2Proof.Machine
end

