-- ==== Sys2Proof/Machine/Fetch.lean ====
section
/-! DEFINITION. Fetching and decoding the word at the program counter (R45, R46, R58, R85, R362). -/

namespace Sys2Proof.Machine

/-- The trap of a fetch that is refused (R85, R362). -/
def fetchTrap (a : Word) : Trap := ⟨cACCESS, 0, a⟩

/-- Six bytes read at a pinned global address of a context, each through its own page. -/
def State.pinnedBytes (s : State) (cl ctx va : Nat) : Nat → Option (List Byte)
  | 0 => some []
  | k + 1 =>
    match s.pinned cl ctx va, s.pinnedBytes cl ctx (va + 1) k with
    | some pa, some bs => some (s.physByte pa :: bs)
    | _, _ => none

/-- The 48-bit word of six bytes. -/
def wordOf (bs : List Byte) : IWord := BitVec.ofNat 48 (leNat bs)

/-- The word at a code address of the current agent: word n of the object lies 6n bytes past CODE (R45, R284); a station core
names memory physically, at an even address in no plane (R205, R362; DEDUCED log 9). -/
def State.fetchAt (s : State) (a : Word) : Except Trap IWord :=
  match s.cur with
  | .stream c _ =>
    if !s.codeOk a then .error (fetchTrap a)
    else
      let e := s.slotEntry (s.partOf c) (codeSlot a)
      (match s.pinnedBytes (clusterOf c) (s.ctxOf c) (e.code.toNat + 6 * codeWord a) 6 with
       | some bs => .ok (wordOf bs)
       | none => .error (fetchTrap a))
  | .station _ =>
    if a.toNat % 2 = 0 ∧ a.toNat + 6 ≤ hbmEnd ∧ !(upto 6).any (fun i => s.inPlane (a.toNat + i)) then .ok (wordOf (s.physBytes a.toNat 6)) else .error (fetchTrap a)

/-- The trap of a decode error at the program counter (R58, R100). -/
def decodeTrap (d : DecodeTrap) : Trap := ⟨d.cause, 0, 0⟩

/-- The words that are unassigned at this moment (R81, R104): FORK while X, M or C is not IDLE, and TRET outside a handler. -/
def State.unassignedNow (s : State) (maj min : Nat) : Bool :=
  match s.cur with
  | .stream c k =>
    (maj == 0x0A && min == 0 && !((s.strm c .X).st == .idle && (s.strm c .M).st == .idle && (s.strm c .C).st == .idle)) ||
      (maj == 0x10 && min == 1 && !tcauseIn (s.strm c k).tcause)
  | .station _ => false

/-- The words of a unit decoded by the current agent: what is unassigned at this moment fails step 5 of R58, before step 6. -/
def State.decodeNow (s : State) (w0 w1 : IWord) : Except DecodeTrap Instr :=
  match decodeIn s.role w0 w1 with
  | .error .reserved =>
    if s.unassignedNow (wordMaj w0) (wordMin w0) then .error .minUnassigned else .error .reserved
  | r => r

/-- The instruction at a code address: word 0 decodes, then word 1 of a long form is fetched (R46, R58, R85). -/
def State.instrAt (s : State) (a : Word) : Except Trap Instr :=
  match s.fetchAt a with
  | .error t => .error t
  | .ok w0 =>
    match s.decodeNow w0 0 with
    | .error d => .error (decodeTrap d)
    | .ok i =>
      if wordCount w0 = 1 then .ok i
      else
        match s.fetchAt (if s.onStation then a + 6 else a + 1) with
        | .error t => .error t
        | .ok w1 => match s.decodeNow w0 w1 with | .error d => .error (decodeTrap d) | .ok j => .ok j

/-- The lines that the word at a code address is read through, each with the owner of the access: the slot entry's, which the hardware
reads for no context, and the code's (R20, R284, R322). -/
def State.codeLines (s : State) (a : Word) : List (Nat × Option Nat) :=
  match s.cur with
  | .stream c _ =>
    let slot := ((s.part (s.partOf c)).slotTable + 64 * codeSlot a) / 64
    let va := (s.slotEntry (s.partOf c) (codeSlot a)).code.toNat + 6 * codeWord a
    (slot, none) ::
      if s.codeOk a then
        [va, va + 5].filterMap fun v => (s.pinned (clusterOf c) (s.ctxOf c) v).map fun pa => (pa / 64, some (s.ctxOf c))
      else []
  | .station _ => [(a.toNat / 64, none), ((a.toNat + 5) / 64, none)]

/-- Lines read by a fetch at a code address: a lost one makes the agent wait, a poisoned one is UE (R323, R365; DEDUCED log 90). A line
without an error is read without any effect that a program can see. -/
def State.lookAt (s : State) (a : Word) : List (Nat × Option Nat) → Except Act State
  | [] => .ok s
  | x :: l =>
    match s.lookLine x.1 x.2 with
    | .ok s1 => s1.lookAt a l
    | .error (.lost, s1) => .error (.wait (.memory x.1) s1)
    | .error (.poison, s1) => .error (trapOf cUE 0 a (match x.2 with | some c => s1.reportPoison x.1 c | none => s1))

/-- The words of the unit at a code address: an RPT pair and a long form are two (R104). -/
def State.unitWords (s : State) (a : Word) : Nat :=
  match s.fetchAt a with
  | .error _ => 1
  | .ok w => if wordCount w = 2 then 2 else if wordMaj w = 0x0A ∧ wordMin w = 2 then 2 else 1

/-- The walks through which the word at a code address is reached (R318). -/
def State.codeWalks (s : State) (a : Word) : State :=
  match s.cur with
  | .station _ => s
  | .stream c _ =>
    if !s.codeOk a then s
    else
      let va := (s.slotEntry (s.partOf c) (codeSlot a)).code.toNat + 6 * codeWord a
      (s.lookWalk (clusterOf c) (s.ctxOf c) va).lookWalk (clusterOf c) (s.ctxOf c) (va + 5)

/-- The slot entry, the walks and the lines of the word at a code address looked at. -/
def State.lookWord (s : State) (a : Word) : Except Act State := do
  let s1 ← s.lookAt a ((s.codeLines a).take 1)
  let s2 := s1.codeWalks a
  s2.lookAt a (s2.codeLines a)

/-- Every word of the unit at the current agent's pc looked at. -/
def State.lookUnit (s : State) : Except Act State := do
  let s1 ← s.lookWord s.pc
  if s1.unitWords s1.pc = 2 then s1.lookWord (s1.pcAfter 1) else .ok s1

end Sys2Proof.Machine
end

