-- ==== Sys2Proof/Machine/Lists.lean ====
section
/-! DEFINITION. Effect-list slots: handles, generations, USED, opening and closing a level (R238 to R243). -/

namespace Sys2Proof.Machine

/-- A list slot of a stream. -/
def Lists.slot (l : Lists) (n : Nat) : ListSlot := l.slots.getD n ⟨1, .free⟩
/-- A list slot replaced. -/
def Lists.setSlot (l : Lists) (n : Nat) (x : ListSlot) : Lists := { l with slots := l.slots.setIfInBounds n x }

/-- The generation after one that is freed: 255 is followed by 1 (R239). -/
def nextGen (g : BitVec 8) : BitVec 8 := if g = 255 then 1 else g + 1

/-- The handle of a slot (R239). -/
def Lists.handle (l : Lists) (n : Nat) : Word := BitVec.ofNat 64 ((l.slot n).gen.toNat * 256 + n)

/-- The slot that a live nonzero handle names (R239). -/
def Lists.live (l : Lists) (h : Word) : Option Nat :=
  let n := field h 5 0
  if field h 63 16 = 0 ∧ field h 7 6 = 0 ∧ (l.slot n).use = .closed ∧ (l.slot n).gen.toNat = field h 15 8 then some n else none

/-- A free slot, the lowest (R240). -/
def Lists.freeSlot (l : Lists) : Option Nat := (upto 64).find? fun n => (l.slot n).use == .free

/-- The live handles (R249). -/
def Lists.liveCount (l : Lists) : Nat := ((upto 64).filter fun n => (l.slot n).use == .closed).length

/-- A slot freed: its generation advances (R239). -/
def Lists.free (l : Lists) (n : Nat) : Lists := l.setSlot n ⟨nextGen (l.slot n).gen, .free⟩

/-- A level opened on a free slot (R240). -/
def Lists.openLevel (l : Lists) (n : Nat) : Lists :=
  { l.setSlot n { l.slot n with use := .opened } with opened := n :: l.opened }

/-- USED after entries were freed: just past the highest entry still in a list; 0 with no list and depth 0 (R243). -/
def Lists.settle (l : Lists) (es : List AEntry) : Lists :=
  if l.liveCount = 0 ∧ l.opened = [] then { l with used := 0 }
  else
    let top := es.foldl (fun m e => if e.be != 0 && (l.slot e.own).use != .free then max m (e.idx + 1) else m) 0
    { l with used := 80 * top }

/-- The innermost level closed (R241): x3's handle and the lists after, for the entries of the arena. -/
def Lists.closeLevel (l : Lists) (es : List AEntry) : Word × Lists :=
  match l.opened with
  | [] => (0, l)
  | n :: rest =>
    let l1 := { l with opened := rest }
    if (listOf es n).isEmpty then (0, (l1.free n).settle es)
    else (l1.handle n, l1.setSlot n { l1.slot n with use := .closed })

/-- Every list discarded, the depth, USED and EFARENA zero (R238); the generation of a slot in use advances (R239). -/
def Lists.discard (l : Lists) : Lists :=
  { arena := 0, opened := [], used := 0, slots := l.slots.map fun x => if x.use == .free then x else ⟨nextGen x.gen, .free⟩ }

end Sys2Proof.Machine
end

