-- ==== Sys2Proof/Machine/Control.lean ====
section
/-! DEFINITION. Stream control: transfers, the shadow stack, FORK, RDV, HALT, YIELD, data and branch-outcome queues, control
words, TRAP, TRET, SYSC and NOP (R81 to R106). -/

namespace Sys2Proof.Machine

open Host (Outcome)

/-! ## Transfers of control -/

/-- The target of a relative transfer: words counted within the object (R86); bytes on a station core (DEDUCED log 9). -/
def State.relTarget (s : State) (disp : BitVec 32) : Word :=
  if s.onStation then s.pc + 6 * sext64 disp
  else (s.pc &&& 0xFFFF000000000000) ||| ((s.pc + sext64 disp) &&& 0x0000FFFFFFFFFFFF)

/-- The link of a call: the code address of the next word (R86, R87). -/
def State.link (s : State) : Word := s.pcAfter 1

/-- A transfer's common beginning and end: as a memory instruction's, with the pc left to the transfer. -/
def State.jumpBegin (s : State) (g : Guard) (srcs dsts : List XReg) (k : List Word → Except Act State) : Act :=
  if !s.guardOn g then .done s
  else match s.memBegin g srcs dsts k with | .done s1 => .jump s1 | a => a

/-- The pc written after the checks of R85. -/
def State.goTo (s : State) (t : Word) : Except Act State :=
  match s.targetOk t with | .ok s1 => .ok (s1.setPc t) | .error a => .error a

/-- A call to t: CINT when the shadow stack is full, ACCESS for the target, then the push and x1 (R86, R87, R89). -/
def State.callTo (s : State) (t : Word) : Except Act State :=
  if s.shadowRoom ≤ s.hart.shadow.length then .error (trapOf cCINT 0 1 s)
  else match s.targetOk t with
    | .ok s1 =>
      let s2 := s1.shadowPush s.link false
      .ok ((s2.setHart (s2.hart.put 1 s.link)).setPc t)
    | .error a => .error a

/-- A collecting call to t: as a call, then one collecting level is entered (R86, R240). -/
def State.collectTo (s : State) (t : Word) : Except Act State :=
  if s.shadowRoom ≤ s.hart.shadow.length then .error (trapOf cCINT 0 1 s)
  else if 4 ≤ s.me.lists.opened.length then .error (trapOf cEFSYNC 2 0 s)
  else
    match s.targetOk t with
    | .error a => .error a
    | .ok s1 =>
      match s.me.lists.freeSlot with
      | none => .error (trapOf cEFCAP 1 0 s1)
      | some n =>
        let s2 := s1.shadowPush s.link true
        .ok (((s2.setHart (s2.hart.put 1 s.link)).updLists fun l => l.openLevel n).setPc t)

/-- BR (R86). -/
def actBr (g : Guard) (disp : BitVec 32) (s : State) : Act := s.jumpBegin g [] [] fun _ => s.goTo (s.relTarget disp)
/-- CALL (R86, R89). -/
def actCall (g : Guard) (disp : BitVec 32) (s : State) : Act := s.jumpBegin g [] [1] fun _ => s.callTo (s.relTarget disp)
/-- CALLC (R86, R240). -/
def actCallc (g : Guard) (disp : BitVec 32) (s : State) : Act :=
  s.jumpBegin g [] [1] fun _ => s.collectTo (s.relTarget disp)
/-- JMPR (R87). -/
def actJmpr (g : Guard) (a : XReg) (s : State) : Act := s.jumpBegin g [a] [] fun vs => s.goTo (vs.getD 0 0)
/-- CALLR: x[a] is read before x1 is written (R87). -/
def actCallr (g : Guard) (a : XReg) (s : State) : Act := s.jumpBegin g [a] [1] fun vs => s.callTo (vs.getD 0 0)
/-- CALLCR (R87, R240). -/
def actCallcr (g : Guard) (a : XReg) (s : State) : Act := s.jumpBegin g [a] [1] fun vs => s.collectTo (vs.getD 0 0)
/-- RET: the top entry must be x[a]'s, and not a collecting one (R87, R89, R240). -/
def actRet (g : Guard) (a : XReg) (s : State) : Act :=
  s.jumpBegin g [a] [] fun vs =>
    match s.returnCase (vs.getD 0 0) false with
    | some k => .error (trapOf cCINT 0 (BitVec.ofNat 64 k) s)
    | none =>
      match s.targetOk (vs.getD 0 0) with
      | .ok s1 => .ok (s1.shadowPop.setPc (vs.getD 0 0))
      | .error a => .error a
/-- RETC: as RET on a collecting entry; the innermost level closes and x3 holds its handle (R87, R241). -/
def actRetc (g : Guard) (a : XReg) (s : State) : Act :=
  s.jumpBegin g [a] [3] fun vs =>
    match s.returnCase (vs.getD 0 0) true with
    | some k => .error (trapOf cCINT 0 (BitVec.ofNat 64 k) s)
    | none =>
      if s.me.lists.opened.isEmpty then .error (trapOf cEFSYNC 3 0 s)
      else do
        let s0 ← s.targetOk (vs.getD 0 0)
        let (es, s1) ← s0.arenaAll
        let r := s1.me.lists.closeLevel es
        let s2 := (s1.updLists fun _ => r.2).shadowPop
        .ok ((s2.setHart (s2.hart.put 3 r.1)).setPc (vs.getD 0 0))
/-- JMPL: the two words' code address, checked by R85 (R88). -/
def actJmpl (g : Guard) (imm : BitVec 64) (s : State) : Act := s.jumpBegin g [] [] fun _ => s.goTo imm

/-! ## The life of a stream -/

/-- A stream started at a word of an object (R81): everything at its start value, its list slots free in the generations that they have
reached (R239); it sees what was written before (R375; DESIGN CHOICE log 72). -/
def startStream (stamp : Nat) (w : Vector (BitVec 8) 16) (l : Lists) (allot : Allot) (pc : Word) : Stream :=
  { streamReset with
    st := .run, allot := allot, hart := { hartReset with pc := pc }, w := w, lists := l.discard, lsView := stamp, gthView := stamp }

/-- FORK: X, M and C start at their sections, the queues, flags, lists, vector state and product table as R81 and the rules it
names give them; unassigned while one of them is not IDLE (DEDUCED log 56). -/
def actFork (g : Guard) (ax am ac : Allot) (s : State) : Act :=
  let c := s.core s.curCore
  if c.x.st != .idle || c.m.st != .idle || c.c.st != .idle then illop .minUnassigned s
  else if !s.guardOn g then .done s
  else
    let slot := codeSlot s.pc
    let e := s.slotEntry s.curPart slot
    let at_ (k : Nat) : Word := codeAddr slot (field (e.streams.getD k 0) 29 0)
    .done ((s.updCore s.curCore fun c =>
      { c with
        a := { c.a with lists := c.a.lists.discard, bqAt := ⟨0, 0, []⟩ }
        x := startStream s.stamp c.x.w c.x.lists ax (at_ 1)
        m := startStream s.stamp c.m.w c.m.lists am (at_ 2)
        c := startStream s.stamp c.c.w c.c.lists ac (at_ 3)
        dq := c.dq.map DataQueue.cleared, bq := [], flags := coreReset.flags, v := coreReset.v, masks := coreReset.masks,
        z := coreReset.z, table := tableReset, back := backReset }).backMark s.curCore)

/-- RDV: the stream is ARRIVED (R82). -/
def actRdv (g : Guard) (s : State) : Act :=
  if s.guardOn g then .done (s.updMe fun t => { t with st := .arrived }) else .done s

/-- HALT: the stream is HALTED; on a station core the run of the event ends (R83, R106). -/
def actHalt (g : Guard) (s : State) : Act :=
  if !s.guardOn g then .done s
  else match s.cur with
    | .stream _ _ => .done (s.updMe fun t => { t with st := .halted })
    | .station n => .jump (s.endRun n)

/-- Whether the current stream has neither a load nor a remote transaction outstanding (R84). -/
def State.quiet (s : State) : Bool := s.me.loads.isEmpty && s.me.remote.isEmpty

/-- YIELD: no effect without a request; with one the stream is YIELDED once its loads and remote transactions have completed
(R84). -/
def actYield (g : Guard) (s : State) : Act :=
  if !s.guardOn g || !s.hart.stat.getLsbD statYR then .done s
  else if s.quiet then .done (s.updMe fun t => { t with st := .yielded, waiting := none })
  else .wait .yielding s

/-! ## Data queues and bq -/

/-- DQPUT (R93). -/
def actDqput (g : Guard) (a : XReg) (q : BitVec 3) (s : State) : Act :=
  s.begin g [a] [] fun vs s1 => match s1.pushDq q.toNat (vs.getD 0 0) with | .ok s2 => .done s2 | .error w => .wait w s

/-- The entries of a queue that are filled in an unbroken run from the head (R93). -/
def readyRun : List DqEntry → Nat
  | .filled _ :: rest => 1 + readyRun rest
  | [] => 0
  | .reserved _ :: _ => 0
  | .heldSlot _ :: _ => 0

/-- The status word of DQGET (R93). -/
def DataQueue.status (q : DataQueue) : Word :=
  BitVec.ofNat 64 ((if q.closed then 2 ^ 16 else 0) + q.entries.length * 2 ^ 8 + readyRun q.entries)

/-- DQGET: the status of a queue; nothing is popped (R93). -/
def actDqget (g : Guard) (d : XReg) (q : BitVec 3) (s : State) : Act :=
  s.begin g [] [d] fun _ s1 => s.retire s1 d (s1.dqOf q.toNat).status

/-- DQCLS (R93). -/
def actDqcls (g : Guard) (q : BitVec 3) (s : State) : Act :=
  if s.guardOn g then .done (s.setDq q.toNat { s.dqOf q.toNat with closed := true }) else .done s

/-- The stream at the other end of bq (R95). -/
def bqPeer (k : StreamId) : StreamId := match k with | .A => .X | .X => .A | .M => .A | .C => .A

/-- An outcome pushed to bq; one that the other stream popped before this one was cut back is not pushed again (R95, R306; DEDUCED
log 42). -/
def Core.bqPush (c : Core) (k : StreamId) (b : Bool) : Core :=
  let p := (c.strm k).bqAt
  let c1 := c.setStrm k { c.strm k with bqAt := { p with pushes := p.pushes + 1 } }
  if p.pushes < (c.strm (bqPeer k)).bqAt.pops then c1 else { c1 with bq := c.bq ++ [(k, b)] }

/-- An outcome popped from bq, which leaves the rest (R95, R306). -/
def Core.bqTake (c : Core) (k : StreamId) (b : Bool) (rest : List (StreamId × Bool)) : Core :=
  let p := (c.strm k).bqAt
  { c.setStrm k { c.strm k with bqAt := { p with pops := p.pops + 1, popped := (b :: p.popped).take 64 } } with bq := rest }

/-- BQPUT: a predicate, inverted or not, pushed to bq (R95). -/
def actBqput (g : Guard) (n : BitVec 3) (inv : Bool) (s : State) : Act :=
  if !s.guardOn g then .done s
  else if 64 ≤ (s.core s.curCore).bq.length then .wait .bqSlot s
  else .done (s.updCore s.curCore fun c => c.bqPush s.curSt (s.hart.pred n != inv))

/-- The oldest entry of bq that another stream pushed: its bit and the queue without it (R95). -/
def bqPop (who : StreamId) : List (StreamId × Bool) → Option (Bool × List (StreamId × Bool))
  | [] => none
  | (w, b) :: rest =>
    if w = who then (bqPop who rest).map fun x => (x.1, (w, b) :: x.2) else some (b, rest)

/-- BQBR: pops an outcome and branches on 1; the pop takes effect only if the target passes R85 (R95). -/
def actBqbr (g : Guard) (disp : BitVec 32) (s : State) : Act :=
  if !s.guardOn g then .done s
  else
    match bqPop s.curSt (s.core s.curCore).bq with
    | none => .wait .bqEntry s
    | some (b, rest) =>
      let take (s : State) : State := s.updCore s.curCore fun c => c.bqTake s.curSt b rest
      if !b then .done (take s)
      else match s.targetOk (s.relTarget disp) with
        | .ok s1 => .jump ((take s1).setPc (s.relTarget disp))
        | .error a => a

/-! ## Traps -/

/-- TRAP: raises USER with n (R105). -/
def actTrap (g : Guard) (n : BitVec 8) (s : State) : Act :=
  if s.guardOn g then trapOf cUSER 0 (n.setWidth 64) s else .done s

/-- SYSC: raises SYSC; the record of the trap holds the service number for Ramner (R99, R105). -/
def actSysc (g : Guard) (n : BitVec 8) (s : State) : Act :=
  if s.guardOn g then trapOf cSYSC 0 (n.setWidth 64) s else .done s

/-- NOP (R105). -/
def actNop (_g : Guard) (s : State) : Act := .done s

/-- TRET: unassigned while no handler runs; else PRC and the pc come back (R104). -/
def actTret (g : Guard) (s : State) : Act :=
  if s.onStation || !tcauseIn s.me.tcause then illop .minUnassigned s
  else if !s.guardOn g then .done s
  else
    let t := s.me
    .jump ((s.updMe fun x => { x with tcause := setBit x.tcause 63 false }).setHart
      { s.hart with prc := t.tprc, pc := t.tepc })

/-- The held slots that a load of A at an address left, filled with zero (R94). -/
def State.dropHeld (s : State) (pc : Word) : State :=
  if s.curSt != .A then s
  else [0, 1, 2, 3].foldl
    (fun s q =>
      let d := s.dqOf q
      if d.entries.contains (.heldSlot pc.toNat) then
        (s.setDq q { d with entries := d.entries.map fun e => if e = .heldSlot pc.toNat then .filled 0 else e }).setStat statDQE
      else s) s

/-- TRET.SKIP: resumes past the trapping unit, PRC zero; a held data-queue slot is filled with zero (R94, R104). After USER or
SYSC it is as TRET. -/
def actTretSkip (g : Guard) (s : State) : Act :=
  if s.onStation || !tcauseIn s.me.tcause then illop .minUnassigned s
  else if !s.guardOn g then .done s
  else
    let t := s.me
    let cause := t.tcause.setWidth 8
    let s1 := s.updMe fun x => { x with tcause := setBit x.tcause 63 false }
    if cause = cUSER ∨ cause = cSYSC then .jump (s1.setHart { s.hart with prc := t.tprc, pc := t.tepc })
    else
      let s2 := s1.dropHeld t.tepc
      .jump (s2.setHart { s2.hart with prc := 0, pc := t.tepc + BitVec.ofNat 64 (s.unitWords t.tepc) })

/-! ## Control words -/

/-- The allotment code as ALLOT holds it (R80, R106). -/
def allotWord (n : Nat) : Word := if n = 16 then 0 else if n = 32 then 1 else 2

/-- A control word read (R96 to R98). -/
def State.ctlRead (s : State) (w : CtlWord) : Word :=
  match w with
  | .stat => s.hart.stat
  | .fpm => s.me.fpm
  | .qsel => (s.ctx s.curCtx).blk.qsel
  | .lvlbase => (s.ctx s.curCtx).blk.lvlbase
  | .efarena => s.me.lists.arena
  | .trapvec => s.me.trapvec
  | .prc => s.hart.prc
  | .allot => allotWord s.allotOf
  | .scopemode => s.me.scopemode
  | .tierinfo n => match s.kernelOf s.curCore with | some k => k.tierInfo n.toNat s.curCore s.curSt | none => 0
  | .tcause => s.me.tcause
  | .tepc => s.me.tepc
  | .tval => s.me.tval
  | .tprc => s.me.tprc
  | .buf i => match s.kernelOf s.curCore with | some k => k.buf.getD i.toNat 0 | none => 0

/-- QSEL after a write: PRI only when it is a permutation of 0 to 6 (R206). -/
def qselWrite (old v : Word) : Word :=
  let pri := (upto 7).map fun i => field v (10 + 3 * i) (8 + 3 * i)
  let en := v &&& 0x7F
  if (upto 7).all pri.contains then (v &&& 0x1FFFFF00) ||| en else (old &&& 0x1FFFFF00) ||| en

/-- A control word written; reserved bits are ignored (R6, R96 to R98, R200, R206, R242). A read-only word is not written: its
CWWR does not decode (R96). -/
def State.ctlWrite (s : State) (w : CtlWord) (v : Word) : State :=
  match w with
  | .stat => s.setHart { s.hart with stat := statWrite s.hart.stat v }
  | .fpm => s.updMe fun t => { t with fpm := fpmWrite t.fpm v }
  | .qsel => s.updCtx s.curCtx fun c => { c with blk := { c.blk with qsel := qselWrite c.blk.qsel v } }
  | .lvlbase => s.updCtx s.curCtx fun c => { c with blk := { c.blk with lvlbase := c.blk.lvlbase &&& v } }
  | .efarena =>
    if s.me.lists.opened.isEmpty && s.me.lists.liveCount == 0 then s.updLists fun l => { l with arena := v } else s
  | .trapvec => s.updMe fun t => { t with trapvec := v &&& 0x0FFFFFFFFFFFFFFF }
  | .prc => s.setHart { s.hart with prc := prcWrite v }
  | .scopemode => s.updMe fun t => { t with scopemode := v &&& 3 }
  | .tprc => s.updMe fun t => { t with tprc := prcWrite v }
  | .allot => s | .tierinfo _ => s | .tcause => s | .tepc => s | .tval => s | .buf _ => s

/-- CWRD (R98). -/
def actCwrd (g : Guard) (d : XReg) (w : CtlWord) (s : State) : Act :=
  s.begin g [] [d] fun _ s1 => s.retire s1 d (s1.ctlRead w)

/-- CWWR (R98). -/
def actCwwr (g : Guard) (w : CtlWord) (a : XReg) (s : State) : Act :=
  s.begin g [a] [] fun vs s1 => .done (s1.ctlWrite w (vs.getD 0 0))

/-! ## The instructions -/

/-- BR as an instruction (R86). -/
def execBr (g : Guard) (disp : BitVec 32) (s : State) : Outcome State Fault Refusal := finish 1 (actBr g disp s)
/-- CALL as an instruction (R86). -/
def execCall (g : Guard) (disp : BitVec 32) (s : State) : Outcome State Fault Refusal := finish 1 (actCall g disp s)
/-- CALLC as an instruction (R86). -/
def execCallc (g : Guard) (disp : BitVec 32) (s : State) : Outcome State Fault Refusal := finish 1 (actCallc g disp s)
/-- JMPR as an instruction (R87). -/
def execJmpr (g : Guard) (a : XReg) (s : State) : Outcome State Fault Refusal := finish 1 (actJmpr g a s)
/-- CALLR as an instruction (R87). -/
def execCallr (g : Guard) (a : XReg) (s : State) : Outcome State Fault Refusal := finish 1 (actCallr g a s)
/-- CALLCR as an instruction (R87). -/
def execCallcr (g : Guard) (a : XReg) (s : State) : Outcome State Fault Refusal := finish 1 (actCallcr g a s)
/-- RET as an instruction (R87). -/
def execRet (g : Guard) (a : XReg) (s : State) : Outcome State Fault Refusal := finish 1 (actRet g a s)
/-- RETC as an instruction (R87). -/
def execRetc (g : Guard) (a : XReg) (s : State) : Outcome State Fault Refusal := finish 1 (actRetc g a s)
/-- JMPL as an instruction (R88). -/
def execJmpl (g : Guard) (imm : BitVec 64) (s : State) : Outcome State Fault Refusal := finish 2 (actJmpl g imm s)
/-- FORK as an instruction (R81). -/
def execFork (g : Guard) (ax am ac : Allot) (s : State) : Outcome State Fault Refusal := finish 1 (actFork g ax am ac s)
/-- RDV as an instruction (R82). -/
def execRdv (g : Guard) (s : State) : Outcome State Fault Refusal := finish 1 (actRdv g s)
/-- HALT as an instruction (R83). -/
def execHalt (g : Guard) (s : State) : Outcome State Fault Refusal := finish 1 (actHalt g s)
/-- YIELD as an instruction (R84). -/
def execYield (g : Guard) (s : State) : Outcome State Fault Refusal := finish 1 (actYield g s)
/-- DQPUT as an instruction (R93). -/
def execDqput (g : Guard) (a : XReg) (q : BitVec 3) (s : State) : Outcome State Fault Refusal := finish 1 (actDqput g a q s)
/-- DQGET as an instruction (R93). -/
def execDqget (g : Guard) (d : XReg) (q : BitVec 3) (s : State) : Outcome State Fault Refusal := finish 1 (actDqget g d q s)
/-- DQCLS as an instruction (R93). -/
def execDqcls (g : Guard) (q : BitVec 3) (s : State) : Outcome State Fault Refusal := finish 1 (actDqcls g q s)
/-- BQPUT as an instruction (R95). -/
def execBqput (g : Guard) (n : BitVec 3) (inv : Bool) (s : State) : Outcome State Fault Refusal :=
  finish 1 (actBqput g n inv s)
/-- BQBR as an instruction (R95). -/
def execBqbr (g : Guard) (disp : BitVec 32) (s : State) : Outcome State Fault Refusal := finish 1 (actBqbr g disp s)
/-- TRAP as an instruction (R105). -/
def execTrap (g : Guard) (n : BitVec 8) (s : State) : Outcome State Fault Refusal := finish 1 (actTrap g n s)
/-- SYSC as an instruction (R105). -/
def execSysc (g : Guard) (n : BitVec 8) (s : State) : Outcome State Fault Refusal := finish 1 (actSysc g n s)
/-- NOP as an instruction (R105). -/
def execNop (_g : Guard) (s : State) : Outcome State Fault Refusal := finish 1 (actNop _g s)
/-- TRET as an instruction (R104). -/
def execTret (g : Guard) (s : State) : Outcome State Fault Refusal := finish 1 (actTret g s)
/-- TRET_SKIP as an instruction (R104). -/
def execTretSkip (g : Guard) (s : State) : Outcome State Fault Refusal := finish 1 (actTretSkip g s)
/-- CWRD as an instruction (R96, R98). -/
def execCwrd (g : Guard) (d : XReg) (w : CtlWord) (s : State) : Outcome State Fault Refusal := finish 1 (actCwrd g d w s)
/-- CWWR as an instruction (R96, R98). -/
def execCwwr (g : Guard) (w : CtlWord) (a : XReg) (s : State) : Outcome State Fault Refusal := finish 1 (actCwwr g w a s)

end Sys2Proof.Machine
end

