-- ==== Sys2Proof/Machine/Keccak.lean ====
section
/-! DEFINITION. SHAKE256 with 256 bits of output (FIPS 202), the digest of a field book (R301) and of an image (R347). -/

namespace Sys2Proof.Machine

/-- The round constants of Keccak-f[1600]. -/
def keccakRc : List (BitVec 64) :=
  [0x0000000000000001, 0x0000000000008082, 0x800000000000808A, 0x8000000080008000, 0x000000000000808B, 0x0000000080000001,
   0x8000000080008081, 0x8000000000008009, 0x000000000000008A, 0x0000000000000088, 0x0000000080008009, 0x000000008000000A] ++
  [0x000000008000808B, 0x800000000000008B, 0x8000000000008089, 0x8000000000008003, 0x8000000000008002, 0x8000000000000080,
   0x000000000000800A, 0x800000008000000A, 0x8000000080008081, 0x8000000000008080, 0x0000000080000001, 0x8000000080008008]

/-- The rotation of lane x + 5y. -/
def keccakRot : List Nat :=
  [0, 1, 62, 28, 27, 36, 44, 6, 55, 20, 3, 10, 43, 25, 39, 41, 45, 15, 21, 8, 18, 2, 61, 56, 14]

/-- Lane (x, y) of a state of 25 lanes. -/
def klane (a : List (BitVec 64)) (x y : Nat) : BitVec 64 := a.getD (x % 5 + 5 * (y % 5)) 0

/-- One round. -/
def keccakRound (a : List (BitVec 64)) (rc : BitVec 64) : List (BitVec 64) :=
  let c := (upto 5).map fun x => klane a x 0 ^^^ klane a x 1 ^^^ klane a x 2 ^^^ klane a x 3 ^^^ klane a x 4
  let d := (upto 5).map fun x => c.getD ((x + 4) % 5) 0 ^^^ (c.getD ((x + 1) % 5) 0).rotateLeft 1
  let t := a.zipIdx.map fun l => l.1 ^^^ d.getD (l.2 % 5) 0
  let b := (upto 25).map fun i =>
    let x := i % 5
    let y := i / 5
    let u := (x + 3 * y) % 5
    (klane t u x).rotateLeft (keccakRot.getD (u + 5 * x) 0)
  let e := (upto 25).map fun i => klane b i (i / 5) ^^^ (~~~klane b (i % 5 + 1) (i / 5) &&& klane b (i % 5 + 2) (i / 5))
  match e with
  | l :: ls => (l ^^^ rc) :: ls
  | [] => []

/-- The permutation. -/
def keccakF (a : List (BitVec 64)) : List (BitVec 64) := keccakRc.foldl keccakRound a

/-- A block of 136 bytes absorbed. -/
def keccakAbsorb (a : List (BitVec 64)) (blk : List Byte) : List (BitVec 64) :=
  keccakF (a.zipIdx.map fun l => l.1 ^^^ BitVec.ofNat 64 (leNat ((blk.drop (8 * l.2)).take 8)))

/-- Whole blocks absorbed. -/
def keccakBlocks (a : List (BitVec 64)) (bs : List Byte) : Nat → List (BitVec 64)
  | 0 => a
  | n + 1 => keccakBlocks (keccakAbsorb a (bs.take 136)) (bs.drop 136) n

/-- A message padded to whole blocks. -/
def shakePad (bs : List Byte) : List Byte :=
  let z := 135 - bs.length % 136
  if z = 0 then bs ++ [0x9F] else bs ++ [0x1F] ++ List.replicate (z - 1) 0 ++ [0x80]

/-- SHAKE256 of some bytes, 32 bytes of output. -/
def shake256 (bs : List Byte) : List Byte :=
  let p := shakePad bs
  (keccakBlocks (List.replicate 25 0) p (p.length / 136)).take 4 |>.flatMap fun l => leBytes 8 l.toNat

end Sys2Proof.Machine
end

