-- ==== Sys2Proof/Machine/Book.lean ====
section
/-! DEFINITION. The field book: segments and their bytes (R299, R300), the array's cells (R226, R358, R359), the image (R301, R357)
and its check, and what an image gives back (R305; DESIGN CHOICE log 12). -/

namespace Sys2Proof.Config

/-- What an image that this part did not write, or that was altered, holds in the bytes that the spec does not lay out (DESIGN CHOICE log 12). -/
opaque foreignBook : BitVec 256 → Machine.Saved

end Sys2Proof.Config

namespace Sys2Proof.Machine

/-! ## The internal operand format (R300, R358) -/

/-- A nonzero number as an odd number times a power of two; the fuel is its bit length. -/
def oddPart : Nat → Nat → Int → Nat × Int
  | 0, m, e => (m, e)
  | n + 1, m, e => if m % 2 = 0 then oddPart n (m / 2) (e + 1) else (m, e)

/-- A value in the 20-bit internal format, canonically (R358). -/
def opnd20 (v : FVal) : Nat :=
  match v with
  | .nan => 0x1FF * 2 ^ 10 + 1
  | .inf neg => (if neg then 2 ^ 19 else 0) + 0x1FF * 2 ^ 10
  | .fin neg m e =>
    if m = 0 then 0
    else
      let o := oddPart (bitLen m) m e
      (if neg then 2 ^ 19 else 0) + (o.2 + 256).toNat % 512 * 2 ^ 10 + o.1 % 1024

/-! ## The cells of an array (R225, R226, R300, R359) -/

/-- What a lane of a cell holds: the A value in flight and the partial sum; none when it multiplied nothing (R359). -/
structure LaneCell where
  a : FVal
  f : Fold
  deriving DecidableEq, Repr

/-- The B element that an MGO before it leaves in a cell (R225). -/
def RunMgo.before (r : RunMgo) (k n : Nat) : Option FVal := r.under.findSome? fun b => (b[n]?).bind (·[k]?)

/-- The pass whose b a cell holds after array cycle c: the last that has reached it (R225). From its cycle 0 on the first pass is also in every
cell that no MGO before it used (R359; DEDUCED log 84). -/
def RunMgo.bPass (r : RunMgo) (c k n : Nat) : Option Pass :=
  r.passes.foldl
    (fun o q => if ((r.before k n).isNone ∧ q.start = r.first ∧ q.start ≤ c) ∨ q.start + k + n ≤ c then some q else o) none

/-- The pass whose element stands in a cell's shadow after array cycle c: the one after its b's, once its row is loaded (R225). -/
def RunMgo.shadowPass (r : RunMgo) (c k n : Nat) : Option Pass :=
  match r.bPass c k n with
  | some q => if q.start + k ≤ c then r.passes.find? (·.start == q.start + r.table.stride) else none
  | none => if k ≤ c then r.passes.find? (·.start == r.first) else none

/-- The fold of an A line and a column of a pass over the rows of its band up to row k: from the partial sum that a field book gave back, where
one stands for it (R228, R305). -/
def RunMgo.bandSum (r : RunMgo) (start m n β k : Nat) (a b : List FVal) : Fold :=
  let lo := β * r.table.bandRows
  match r.sums.find? fun x => x.start == start && x.line == m && x.col == n && decide (lo ≤ x.row) && decide (x.row ≤ k) with
  | some x => (((a.zip b).drop (x.row + 1)).take (k - x.row)).foldl (fun f p => foldStep r.table.pair f p.1 p.2) x.fold
  | none => foldBand r.table.pair (((a.zip b).drop lo).take (k + 1 - lo))

/-- The lane of a cell after array cycle c: row k, column n, lane i. A line of zeros that an index past the operand gives meets no
element (R220). -/
def RunMgo.laneAt (r : RunMgo) (c k n i : Nat) : Option LaneCell :=
  match r.passes.find? fun q => decide (q.start + k + n ≤ c) && decide (c < q.start + k + n + r.table.groups) with
  | none => none
  | some q =>
    let m := (c - q.start - k - n) * r.table.lanes + i
    if r.table.lanes ≤ i ∨ r.table.aLines ≤ m then none
    else
      let zeros := List.replicate r.table.depth1 (.fin false 0 0)
      let (a, b) := match q.a.getD m none with
        | some l => (l, q.b.getD n [])
        | none => (zeros, zeros)
      some ⟨a.getD k (.fin false 0 0), r.bandSum q.start m n (k / r.table.bandRows) k a b⟩

/-- B[n, k] of a pass. -/
def Pass.elem (q : Pass) (k n : Nat) : FVal := (q.b.getD n []).getD k (.fin false 0 0)

/-- What a cell latched: its b and its shadow, where they hold a value, and its four lanes (R226, R300). -/
structure Cell where
  b : Option FVal
  sh : Option FVal
  lanes : List (Option LaneCell)
  deriving DecidableEq, Repr

/-- What an MGO whose operands reach cell (k, n) has put there. -/
def RunMgo.cell (r : RunMgo) (k n : Nat) : Option Cell :=
  if r.cycle = 0 ∨ r.table.depth1 ≤ k ∨ r.table.bLines ≤ n then none
  else
    let c := r.cycle - 1
    some ⟨(r.bPass c k n).map (·.elem k n), (r.shadowPass c k n).map (·.elem k n), (upto 4).map (r.laneAt c k n)⟩

/-- A cell over which an MGO and the one behind it run: b is the later's once it has come, a shadow is the earlier's until it has
gone, and a lane multiplies for one of them (R225, R359; DEDUCED log 84). -/
def Cell.join (x y : Cell) : Cell := ⟨y.b.or x.b, x.sh.or y.sh, List.zipWith (fun p q => p.or q) x.lanes y.lanes⟩

/-- Cell (k, n) of an array; none is outside the operands of every MGO that runs (R359). Until the first of these has come there, b is what an
MGO that has completed left (DEDUCED log 84). -/
def MatArray.cell (a : MatArray) (k n : Nat) : Option Cell :=
  match a.running.filterMap fun r => (r.cell k n).map fun x => (r, x) with
  | [] => none
  | (r, x) :: xs => some ((xs.map (·.2)).foldl Cell.join { x with b := x.b.or (r.before k n) })

/-- The flags that a partial sum records, as bits 3 to 0 of the flags byte (R226). -/
def foldFlags (f : Fold) : Nat :=
  (if f.fl.getLsbD sINEX then 8 else 0) + (if f.fl.getLsbD sINFN then 4 else 0) + (if f.fl.getLsbD sINFP then 2 else 0) +
    (if f.fl.getLsbD sNAN then 1 else 0)

/-- Lane i of a cell. -/
def Cell.lane (x : Cell) (i : Nat) : Option LaneCell := x.lanes.getD i none

/-- The flags byte of a cell: SV, BV, and lane 0's AV and flags (R226). -/
def Cell.flags (x : Cell) : Nat :=
  (if x.sh.isSome then 0x40 else 0) + (if x.b.isSome then 0x20 else 0) +
    (match x.lane 0 with | some l => 0x10 + foldFlags l.f | none => 0)

/-- A value that may be absent, in internal operand format. -/
def opnd? (o : Option FVal) : Nat := match o with | some v => opnd20 v | none => 0

/-- The cell record of lane 0 as a number (R226). -/
def Cell.rec0 (x : Cell) : Nat :=
  x.flags * 2 ^ 152 + opnd? x.b * 2 ^ 132 + opnd? x.sh * 2 ^ 112 +
    match x.lane 0 with
    | some l => opnd20 l.a * 2 ^ 92 + (BitVec.ofInt 12 l.f.w).toNat * 2 ^ 80 + (BitVec.ofInt 80 l.f.t).toNat
    | none => 0

/-- The lane record of lane i, 1 to 3, as a number (R300). -/
def Cell.laneRec (x : Cell) (i : Nat) : Nat :=
  match x.lane i with
  | none => 0
  | some l =>
    2 ^ 124 + foldFlags l.f * 2 ^ 120 + opnd20 l.a * 2 ^ 92 + (BitVec.ofInt 12 l.f.w).toNat * 2 ^ 80 + (BitVec.ofInt 80 l.f.t).toNat

/-- The 68 bytes of a cell's slot (R300). -/
def Cell.slot (x : Cell) : List Byte := leBytes 20 x.rec0 ++ ([1, 2, 3].flatMap fun i => leBytes 16 (x.laneRec i))

/-- The bits of a value as FP64; an absent one reads as zero. -/
def bits64 (o : Option FVal) : Nat := match o with | some v => (fp64.ofVal .rne v).1 | none => 0

/-- The 68 bytes of a super-cell's slot in composed mode (R300). -/
def Cell.superSlot (x : Cell) : List Byte :=
  let l0 := x.lane 0
  leBytes 8 (bits64 x.b) ++ leBytes 8 (bits64 x.sh) ++ leBytes 8 (bits64 (l0.map (·.a))) ++
    leBytes 2 (match l0 with | some l => (BitVec.ofInt 16 l.f.w).toNat | none => 0) ++
    leBytes 16 (match l0 with | some l => (BitVec.ofInt 128 l.f.t).toNat | none => 0) ++
    leBytes 1 x.flags ++ List.replicate 25 0

/-- The slot of cell (k, n) of a core's array: zero outside the operands and when nothing runs (R300, R359). -/
def MatArray.slot (a : MatArray) (k n : Nat) : List Byte :=
  if a.running.any (·.table.pair) then
    match if k % 8 = 0 ∧ n % 8 = 0 then a.cell (k / 8) (n / 8) else none with
    | some x => x.superSlot
    | none => List.replicate 68 0
  else match a.cell k n with
    | some x => x.slot
    | none => List.replicate 68 0

/-! ## Cells shifted back in (R300, R305) -/

/-- The value that the 20-bit internal format holds (R300, R358). -/
def opndOf (x : Nat) : FVal :=
  let e : Nat := x / 2 ^ 10 % 512
  let m : Nat := x % 1024
  if e = 0x1FF then (if m = 0 then .inf (x.testBit 19) else .nan)
  else if m = 0 then .fin false 0 0 else .fin (x.testBit 19) m ((e : Int) - 256)

/-- The partial sum of a record: its flags, its weight and its count; with the weight of R226's empty one it has met no nonzero product yet. -/
def foldOf (pair : Bool) (fl : Nat) (w t : Int) : Fold :=
  let flag (i b : Nat) : BitVec 16 := if fl.testBit i then sBit b else 0
  ⟨w, t, if w = (foldInit pair).w then none else some (w + if pair then 120 else 60),
    flag 3 sINEX ||| flag 2 sINFN ||| flag 1 sINFP ||| flag 0 sNAN⟩

/-- The lane in a record whose AV is bit `av` and whose flags begin at bit `fl` (R226, R300). -/
def laneOf (x av fl : Nat) : Option LaneCell :=
  if x.testBit av then
    some ⟨opndOf (x / 2 ^ 92 % 2 ^ 20),
      foldOf false (x / 2 ^ fl % 16) (BitVec.ofNat 12 (x / 2 ^ 80)).toInt (BitVec.ofNat 80 x).toInt⟩
  else none

/-- The cell, or in composed mode the super-cell, that the 68 bytes of a slot hold (R226, R300). -/
def cellOf (pair : Bool) (bs : List Byte) : Cell :=
  let num (o n : Nat) : Nat := leNat ((bs.drop o).take n)
  let flag (f i : Nat) (v : FVal) : Option FVal := if f.testBit i then some v else none
  if pair then
    let f := num 42 1
    ⟨flag f 5 (fp64.value (num 0 8)), flag f 6 (fp64.value (num 8 8)),
      [if f.testBit 4 then some ⟨fp64.value (num 16 8), foldOf true f (BitVec.ofNat 16 (num 24 2)).toInt (BitVec.ofNat 128 (num 26 16)).toInt⟩
       else none, none, none, none]⟩
  else
    let x := num 0 20
    ⟨flag x 157 (opndOf (x / 2 ^ 132 % 2 ^ 20)), flag x 158 (opndOf (x / 2 ^ 112 % 2 ^ 20)),
      laneOf x 156 152 :: (upto 3).map fun i => laneOf (num (20 + 16 * i) 16) 124 120⟩

/-- The row at which A line m of a pass meets column n after array cycle c, once the line has entered (R225). -/
def ProdTable.rowAt (t : ProdTable) (start m n c : Nat) : Option Nat :=
  if start + m / t.lanes + n ≤ c then some (c - start - m / t.lanes - n) else none

/-- The partial sums that the cells hold of a pass after array cycle c. -/
def RunMgo.cellSums (r : RunMgo) (cell : Nat → Nat → Cell) (c : Nat) (q : Pass) : List BookSum :=
  q.a.zipIdx.flatMap fun l =>
    if l.1.isNone then []
    else (upto r.table.bLines).filterMap fun n =>
      match r.table.rowAt q.start l.2 n c with
      | none => none
      | some k =>
        if r.table.depth1 ≤ k then none
        else ((cell k n).lane (l.2 % r.table.lanes)).map fun x => ⟨q.start, l.2, n, k, x.f⟩

/-- The elements of a pass with those that the cells hold after array cycle c: of B in b or in the shadow, of A where they are in flight. -/
def RunMgo.cellPass (r : RunMgo) (cell : Nat → Nat → Cell) (c : Nat) (q : Pass) : Pass :=
  let is (o : Option Pass) : Bool := o.any fun p => p.start == q.start
  { q with
    b := q.b.mapIdx fun n l => l.mapIdx fun k v =>
      if is (r.bPass c k n) then (cell k n).b.getD v else if is (r.shadowPass c k n) then (cell k n).sh.getD v else v
    a := q.a.mapIdx fun m o => o.map fun l => l.mapIdx fun k v =>
      match r.table.rowAt q.start m k c with
      | some n => if r.table.bLines ≤ n then v else (((cell k n).lane (m % r.table.lanes)).map (·.a)).getD v
      | none => v }

/-- A fold on its way from the array, made of what the cells hold: one that is past its band stands. -/
def RunMgo.cellPend (r : RunMgo) (c : Nat) (e : PendEntry) : PendEntry :=
  let last := min ((e.band + 1) * r.table.bandRows) r.table.depth1 - 1
  match r.passes.find? (·.start == e.start) with
  | none => e
  | some q =>
    match q.a.getD e.line none with
    | none => e
    | some a =>
      if (r.table.rowAt e.start e.line e.col c).any fun k => decide (last < k) then e
      else { e with fold := r.bandSum e.start e.line e.col e.band last a (q.b.getD e.col []) }

/-- A running MGO with what the cells of an image hold. -/
def RunMgo.withCells (r : RunMgo) (cell : Nat → Nat → Cell) : RunMgo :=
  if r.cycle = 0 then r
  else
    let c := r.cycle - 1
    let r1 := { r with passes := r.passes.map (r.cellPass cell c), sums := r.passes.flatMap (r.cellSums cell c) }
    { r1 with pend := r1.pend.map (r1.cellPend c) }

/-- An array with what the cells of an image hold. -/
def MatArray.withCells (a : MatArray) (cell : Nat → Nat → Cell) : MatArray :=
  { a with running := a.running.map fun r => r.withCells cell }

/-! ## Segments (R299, R300) -/

/-- A segment of a field book. -/
structure Seg where
  kind : Nat
  index : Nat
  poison : Bool
  bytes : List Byte
  deriving DecidableEq, Repr

/-- The bytes of a segment of a kind (R299). -/
def segBytes (kind : Nat) : Nat :=
  match kind with | 1 => 69632 | 2 => 16384 | 3 => 135168 | 4 => 131136 | 5 => 61440 | _ => 8192

/-- The bytes that the spec does not lay out, from offset o of a segment, n of them (DESIGN CHOICE log 12). -/
def freeBytes (seed o n : Nat) : List Byte := (upto n).map fun i => Config.freeByte seed (o + i)

/-- Block j of a core's array: 5 blocks a row of 32 cell rows. -/
def blockSeg (a : MatArray) (j : Nat) : List Byte :=
  (upto 1024).flatMap fun i => a.slot (32 * (j / 5) + i / 32) (32 * (j % 5) + i % 32)

/-- The control words with codes 0x00 to 0x0D, in code order (R96). -/
def bookWords : List CtlWord :=
  [.stat, .fpm, .qsel, .lvlbase, .efarena, .trapvec, .prc, .allot, .scopemode, .tierinfo 0, .tcause, .tepc, .tval, .tprc]

/-- The number of a stream's state (R78, R300). -/
def runCode : RunState → Nat
  | .idle => 0 | .run => 1 | .wait => 2 | .held => 3 | .yielded => 4 | .halted => 5 | .arrived => 6 | .out => 7
/-- The state that a number names. -/
def runOf (n : Nat) : RunState :=
  match n with
  | 0 => .idle | 1 => .run | 2 => .wait | 3 => .held | 4 => .yielded | 5 => .halted | 6 => .arrived | _ => .out

/-- The levels of a stream's open lists, 1 the outermost. -/
def Lists.level (l : Lists) (i : Nat) : Nat := l.opened.length - l.opened.idxOf i

/-- A list slot in two bytes: its generation, and 0 for a free slot, 0xFF for a closed one, else the level of an open one (R300;
DESIGN CHOICE log 12). -/
def Lists.slotBytes (l : Lists) (i : Nat) : List Byte :=
  let x := l.slots.getD i ⟨1, .free⟩
  leBytes 1 x.gen.toNat ++ leBytes 1 (match x.use with | .free => 0 | .opened => l.level i | .closed => 0xFF)

/-- Bytes 2688 to 2831 of a stream's segment: the stack count, the spill pointer as the number of entries spilled, the list slots, and
USED (R300; DESIGN CHOICE log 12). -/
def Stream.stackBytes (t : Stream) : List Byte :=
  leBytes 4 t.hart.shadow.length ++ leBytes 4 (t.hart.shadow.length - 256) ++ ((upto 64).flatMap t.lists.slotBytes) ++
    leBytes 8 t.lists.used

/-- A stream's segment (R300). -/
def State.streamSeg (s : State) (core : Nat) (k : StreamId) (seed : Nat) : List Byte :=
  let t := s.strm core k
  let v := { s with cur := .stream core k }
  let cnt := allotCount t.allot
  ((upto 64).flatMap fun i => leBytes 8 (if i < cnt ∧ i ≠ 0 then (t.hart.x.getD i 0).toNat else 0)) ++
    leBytes 8 t.hart.pc.toNat ++ leBytes 1 (t.hart.p ||| 1).toNat ++ leBytes 1 (runCode t.saved) ++
    leBytes 1 t.lists.opened.length ++ freeBytes seed 523 5 ++
    (bookWords.flatMap fun w => leBytes 8 (v.ctlRead w).toNat) ++
    ((upto 256).flatMap fun i => match t.hart.shadow[i]? with | some e => leBytes 8 e.toNat | none => freeBytes seed (640 + 8 * i) 8) ++
    t.stackBytes ++
    (if t.mark.isSome then freeBytes seed 2832 5360 else List.replicate 5360 0) ++
    freeBytes seed 8192 8192

/-- A core's vector segment (R300). -/
def Core.vectorSeg (c : Core) (seed : Nat) : List Byte :=
  (c.v.toList.flatMap fun v => v.toList.flatMap fun e => leBytes 4 e.toNat) ++
    (c.z.toList.flatMap fun z => z.toList.flatMap fun e => leBytes 4 e.toNat) ++
    (c.masks.toList.flatMap fun m => leBytes 128 m.toNat) ++ freeBytes seed 132096 3072

/-- A bank's segment (R300): its bytes, in fifo mode the ring's entries from the oldest on; then its mode, the core that its ring is
bound to, 1 to 4, and the number of the ring's entries, and no other byte (DESIGN CHOICE log 12). -/
def Cluster.bankSeg (c : Cluster) (b : Nat) : List Byte :=
  let m := c.modes.getD b .cache
  let r := c.rings.getD b ⟨none, []⟩
  (if m = .fifo then
     (r.entries.flatMap fun e => leBytes 4 e.toNat) ++ List.replicate (0x20000 - 4 * r.entries.length) 0
   else memBytes c.store (b * 0x20000) 0x20000) ++
    leBytes 1 m.code.toNat ++ leBytes 1 (match r.bound with | some k => k % 4 + 1 | none => 0) ++ leBytes 2 0 ++
    leBytes 4 r.entries.length ++ List.replicate 56 0

/-- An ACM bank's segment: its elements in row order (R72, R300). -/
def Cluster.acmSeg (c : Cluster) (b : Nat) : List Byte :=
  (upto 5120).flatMap fun i => leBytes 12 (acmGet c.acm (5120 * b + i)).toNat

/-- The set bits of a mask of n bits, ascending. -/
def bitsOf {w : Nat} (m : BitVec w) : List Nat := (upto w).filter fun i => m.getLsbD i

/-- The segments of a context in a cluster, ascending in kind and index, each with POISON when it holds an error (R299, R314, R357). -/
def State.segments (s : State) (cl ctx : Nat) : List Seg :=
  let o := s.owner cl ctx
  let c := s.cluster cl
  let cores := bitsOf o.core
  let seed := s.tick
  let sd (kind i : Nat) : Nat := 2 ^ 40 * seed + 2 ^ 20 * kind + i
  let bad (kind i : Nat) : Bool := c.badSegs.contains (kind, i)
  (cores.flatMap fun k => (upto 25).map fun j => ⟨1, 25 * k + j, bad 1 (25 * k + j), blockSeg (s.core (4 * cl + k)).array j⟩) ++
    (cores.flatMap fun k => [StreamId.A, .X, .M, .C].map fun st =>
      ⟨2, 4 * k + stIndex st, bad 2 (4 * k + stIndex st), s.streamSeg (4 * cl + k) st (sd 2 (4 * k + stIndex st))⟩) ++
    (cores.map fun k => ⟨3, k, bad 3 k, (s.core (4 * cl + k)).vectorSeg (sd 3 k)⟩) ++
    (((bitsOf o.bank).filter fun b => c.modes.getD b .cache != .cache).map fun b =>
      ⟨4, b, bad 4 b || c.badStore.any (fun l => l / 0x800 == b), c.bankSeg b⟩) ++
    ((bitsOf o.acm).map fun b => ⟨5, b, bad 5 b, c.acmSeg b⟩) ++ [⟨6, 0, bad 6 0, freeBytes (sd 6 0) 0 8192⟩]

/-! ## The image (R301, R357) -/

/-- n rounded up to a multiple of 64. -/
def up64 (n : Nat) : Nat := (n + 63) / 64 * 64

/-- The map entries of segments that follow one another from an offset. -/
def mapBytes : Nat → List Seg → List Byte
  | _, [] => []
  | o, g :: gs =>
    leBytes 2 g.kind ++ leBytes 2 g.index ++ leBytes 1 (if g.poison then 1 else 0) ++ leBytes 3 0 ++ leBytes 4 o ++
      leBytes 4 g.bytes.length ++ mapBytes (o + up64 g.bytes.length) gs

/-- The image with a digest: header, map, segments. -/
def imageWith (ctx cl : Nat) (o : Owner) (gs : List Seg) (digest : List Byte) : List Byte :=
  let first := up64 (128 + 16 * gs.length)
  let body := gs.flatMap fun g => g.bytes ++ List.replicate (up64 g.bytes.length - g.bytes.length) 0
  leBytes 4 0x4B424446 ++ leBytes 4 0x00030001 ++ leBytes 2 ctx ++ leBytes 1 cl ++ leBytes 1 o.core.toNat ++
    leBytes 4 gs.length ++ leBytes 8 o.bank.toNat ++ leBytes 8 o.acm.toNat ++ leBytes 8 (first + body.length) ++
    leBytes 24 0 ++ digest ++ leBytes 32 0 ++ mapBytes first gs ++
    List.replicate (first - (128 + 16 * gs.length)) 0 ++ body

/-- The digest of an image whose DIGEST field reads as zero (PRESUMED log 66). -/
def digestOf (img : List Byte) : List Byte := shake256 (img.take 64 ++ List.replicate 32 0 ++ img.drop 96)

/-- The field book of a context in a cluster (R301). -/
def State.fieldBook (s : State) (cl ctx : Nat) : List Byte :=
  let gs := s.segments cl ctx
  let o := s.owner cl ctx
  imageWith ctx cl o gs (digestOf (imageWith ctx cl o gs (List.replicate 32 0)))

/-! ## The check of an image (R301) -/

/-- A field of the image at a physical base: k bytes at offset o. -/
def State.img (s : State) (base o k : Nat) : Nat := s.physNat (base + o) k

/-- A refusal of an image in the TCAUSE layout (R103, R301). -/
def imgRefusal (cause : BitVec 8) (sub idx : Nat) : Word := BitVec.ofNat 64 (2 ^ 63 + idx * 2 ^ 32 + sub * 2 ^ 8 + cause.toNat)

/-- The offset and length of map entry j. -/
def State.mapEntry (s : State) (base j : Nat) : Nat × Nat := (s.img base (128 + 16 * j + 8) 4, s.img base (128 + 16 * j + 12) 4)

/-- Whether LENGTH or NSEG breaks R301. -/
def State.lengthBad (s : State) (base : Nat) : Bool :=
  let n := s.img base 12 4
  let len := s.img base 32 8
  let last := s.mapEntry base (n - 1)
  len % 64 != 0 || n == 0 || len != up64 (last.1 + last.2) || decide ((s.mapEntry base 0).1 < 128 + 16 * n)

/-- How many segments of a kind a cluster can have (R299). -/
def segCount (kind : Nat) : Nat :=
  match kind with | 1 => 100 | 2 => 16 | 3 => 4 | 4 => 64 | 5 => 64 | 6 => 1 | _ => 0

/-- Whether map entry j is malformed, given where its segment must begin. -/
def State.entryMalformed (s : State) (base j o : Nat) : Bool :=
  let kind := s.img base (128 + 16 * j) 2
  let e := s.mapEntry base j
  decide (segCount kind ≤ s.img base (128 + 16 * j + 2) 2) || decide (1 < s.img base (128 + 16 * j + 4) 1) ||
    s.img base (128 + 16 * j + 5) 3 != 0 || e.1 != o || e.2 != segBytes kind

/-- Whether some entry of a map is malformed, from entry j on. -/
def State.mapMalformed (s : State) (base : Nat) : Nat → Nat → Nat → Bool
  | _, _, 0 => false
  | j, o, n + 1 => s.entryMalformed base j o || s.mapMalformed base (j + 1) (o + up64 (s.mapEntry base j).2) n

/-- Whether a reserved byte or bit of the header is nonzero, or the map is malformed. -/
def State.reservedBad (s : State) (base : Nat) : Bool :=
  let n := s.img base 12 4
  s.img base 40 24 != 0 || s.img base 96 32 != 0 || decide (1023 < s.img base 8 2) || decide (127 < s.img base 10 1) ||
    decide (15 < s.img base 11 1) || s.img base (128 + 16 * n) (up64 (128 + 16 * n) - (128 + 16 * n)) != 0 ||
    s.mapMalformed base 0 (up64 (128 + 16 * n)) n

/-- The first map entry with POISON. -/
def State.poisonAt (s : State) (base : Nat) : Option Nat :=
  (upto (s.img base 12 4)).find? fun j => s.img base (128 + 16 * j + 4) 1 % 2 == 1

/-- The check of an image, with the context and cluster that SCIN compares: its refusal, if any (R301). The digest is computed over
memory that the partition owns. -/
def State.imgCheck (s : State) (base : Nat) (who : Option (Nat × Nat)) : Option Word :=
  let len := s.img base 32 8
  if s.img base 0 4 ≠ 0x4B424446 then some (imgRefusal cACCESS 0x50 0)
  else if s.img base 6 2 ≠ 3 ∨ 1 < s.img base 4 2 then some (imgRefusal cACCESS 0x51 0)
  else if s.lengthBad base then some (imgRefusal cACCESS 0x53 0)
  else if leNat (digestOf (s.physBytes base len)) ≠ s.img base 64 32 then some (imgRefusal cACCESS 0x52 0)
  else if s.reservedBad base || who.any (fun w => s.img base 8 2 != w.1 || s.img base 10 1 != w.2) then
    some (imgRefusal cACCESS 0x53 0)
  else (s.poisonAt base).map fun j => imgRefusal cPOISON 0 j

/-! ## The lines of an image (R323, R365) -/

/-- Whether no line is lost, in error or poisoned. -/
def State.sound (s : State) : Bool :=
  s.badHbm.isEmpty && s.slices.all (fun x => x.lost.isEmpty) && s.l2.all fun l => l.2.inj == .none && !l.2.poisoned

/-- Some lines from one on looked at for no context; the error names the first at which the read stops. -/
def State.lookLines (s : State) (line : Nat) : Nat → Except (HomeFail × Nat × State) State
  | 0 => .ok s
  | n + 1 =>
    match s.lookLine line none with
    | .ok s1 => s1.lookLines (line + 1) n
    | .error (e, s1) => .error (e, line, s1)

/-- The lines of an image looked at, as far as the hardware reads it: its header, and all of it when the header is of this part's version and
the acting partition owns it. -/
def State.lookImage (s : State) (base : Nat) (owned : State → Nat → Bool) : Except (HomeFail × Nat × State) State := do
  if s.sound then .ok s
  else
    let s1 ← s.lookLines (base / 64) 2
    let len := s1.img base 32 8
    if s1.img base 0 4 ≠ 0x4B424446 ∨ s1.img base 6 2 ≠ 3 ∨ 1 < s1.img base 4 2 ∨ !owned s1 len then .ok s1
    else s1.lookLines (base / 64) ((len + 63) / 64)

/-! ## Saving and restoring (R303, R305; DESIGN CHOICE log 12) -/

/-- What a save keeps of a context in a cluster, under the digest of its book. -/
def State.saveOf (s : State) (cl ctx : Nat) (digest : BitVec 256) : Saved :=
  { digest := digest
    cores := (bitsOf (s.owner cl ctx).core).map fun k => (k, s.core (4 * cl + k))
    cluster := s.cluster cl
    blk := (s.ctx ctx).blk
    barriers := (s.kernels.filter fun k => k.ctx == ctx && k.placed).map fun k => (k.id, k.barriers) }

/-- The first offset of the segment of a kind and index. -/
def State.segAt (s : State) (base kind index : Nat) : Option Nat :=
  (upto (s.img base 12 4)).findSome? fun j =>
    if s.img base (128 + 16 * j) 2 = kind ∧ s.img base (128 + 16 * j + 2) 2 = index then some (s.mapEntry base j).1 else none

/-- List slot i as its two bytes read (R300; DESIGN CHOICE log 12). -/
def State.readSlot (s : State) (p i : Nat) : ListSlot × Nat :=
  let u := s.physNat (p + 2697 + 2 * i) 1
  (⟨BitVec.ofNat 8 (s.physNat (p + 2696 + 2 * i) 1), if u = 0 then .free else if u = 0xFF then .closed else .opened⟩,
    if u = 0xFF then 0 else u)

/-- The effect-list state in a stream segment (R300): as many open lists as the collecting depth says. -/
def State.readLists (s : State) (p : Nat) : Lists :=
  { arena := BitVec.ofNat 64 (s.physNat (p + 528 + 8 * 4) 8)
    opened := ((upto (s.physNat (p + 522) 1)).filterMap fun d => (upto 64).find? fun i => (s.readSlot p i).2 == d + 1).reverse
    slots := Vector.ofFn fun i => (s.readSlot p i.val).1
    used := s.physNat (p + 2824) 8 }

/-- A stream with the named bytes of a stream segment at a physical address (R300); the entries that are spilled are not in the image. -/
def State.readStream (s : State) (p : Nat) (t : Stream) : Stream :=
  let w (o : Nat) : Word := BitVec.ofNat 64 (s.physNat (p + o) 8)
  let cw (code : Nat) : Word := w (528 + 8 * code)
  let n := s.physNat (p + 2688) 4
  { t with
    saved := runOf (s.physNat (p + 521) 1)
    hart := { t.hart with
      x := Vector.ofFn fun i => w (8 * i.val)
      pc := w 512
      p := BitVec.ofNat 8 (s.physNat (p + 520) 1)
      stat := cw 0
      prc := cw 6
      shadow := (upto (min 256 n)).map (fun i => w (640 + 8 * i)) ++ (t.hart.shadow.drop 256).take (n - 256) }
    allot := if field (cw 7) 1 0 = 0 then .a16 else if field (cw 7) 1 0 = 1 then .a32 else .a64
    fpm := fpmWrite t.fpm (cw 1), trapvec := cw 5, tcause := cw 0x0A, tepc := cw 0x0B, tval := cw 0x0C, tprc := cw 0x0D, scopemode := cw 8
    lists := s.readLists p }

/-- A cell of a core's array, or in composed mode a super-cell, in the array blocks of an image (R300). -/
def State.readCell (s : State) (base core : Nat) (pair : Bool) (k n : Nat) : Cell :=
  let k' := if pair then 8 * k else k
  let n' := if pair then 8 * n else n
  match s.segAt base 1 (25 * core + 5 * (k' / 32) + n' / 32) with
  | some o => cellOf pair (s.physBytes (base + o + 68 * (32 * (k' % 32) + n' % 32)) 68)
  | none => ⟨none, none, []⟩

/-- A stream whose registers and control words hold what they can: reserved fields read zero (R6, R85, R97, R98, R103, R265). -/
def Stream.legal (t : Stream) : Stream :=
  { t with
    hart := { t.hart with stat := t.hart.stat &&& 0x77, prc := prcWrite t.hart.prc }
    fpm := fpmWrite fpmReset t.fpm, trapvec := t.trapvec &&& 0x0FFFFFFFFFFFFFFF, tcause := t.tcause &&& 0x800000000000FFFF
    tepc := t.tepc &&& 0x0FFFFFFFFFFFFFFF, tprc := prcWrite t.tprc, scopemode := t.scopemode &&& 3 }

/-- The level tables with what QSEL and LVLBASE can hold (R6, R200, R206). -/
def BlkCtx.legal (x : BlkCtx) : BlkCtx := { x with qsel := qselWrite qselReset x.qsel, lvlbase := x.lvlbase &&& 0x3F }

/-- A core with the named bytes of its segments (R300): its array runs on from what the cells of its blocks hold, at the cycle and the passes of
bytes that the spec does not lay out (R305; DESIGN CHOICE log 12). -/
def State.readCore (s : State) (base k : Nat) (c : Core) : Core :=
  let st (i : Nat) (t : Stream) : Stream :=
    (match s.segAt base 2 (4 * k + i) with | some o => s.readStream (base + o) t | none => t).legal
  let c1 := { c with
    a := st 0 c.a, x := st 1 c.x, m := st 2 c.m, c := st 3 c.c
    array := c.array.withCells (s.readCell base k (c.array.running.any (·.table.pair))) }
  match s.segAt base 3 k with
  | none => c1
  | some o =>
    let p := base + o
    { c1 with
      v := Vector.ofFn fun j => Vector.ofFn fun e => BitVec.ofNat 32 (s.physNat (p + 4096 * j.val + 4 * e.val) 4)
      z := Vector.ofFn fun n => Vector.ofFn fun e => BitVec.ofNat 32 (s.physNat (p + 65536 + 16384 * n.val + 4 * e.val) 4)
      masks := Vector.ofFn fun j => BitVec.ofNat 1024 (s.physNat (p + 131072 + 128 * j.val) 128) }

/-- A bank with the bytes of its segment at a physical address (R300). -/
def State.readBank (s : State) (cl b p : Nat) (c : Cluster) : Cluster :=
  let n := s.physNat (p + 0x20004) 4
  let k := s.physNat (p + 0x20001) 1
  if s.physNat (p + 0x20000) 1 = BankMode.fifo.code.toNat then
    { c with
      modes := c.modes.setIfInBounds b .fifo
      rings := c.rings.setIfInBounds b
        ⟨if k = 0 then none else some (4 * cl + (k - 1) % 4),
         (upto (min n 32768)).map fun i => BitVec.ofNat 32 (s.physNat (p + 4 * i) 4)⟩ }
  else
    { c with
      modes := c.modes.setIfInBounds b .tile
      store := memPuts (c.store.filter fun x => x.1 / 0x20000 != b) (b * 0x20000) (s.physBytes p 0x20000) }

/-- A cluster with the named bytes of its bank segments (R300); a bank without one is in cache mode (R299). -/
def State.readCluster (s : State) (cl base : Nat) (c : Cluster) : Cluster :=
  let c1 := (upto 64).foldl
    (fun c b => match s.segAt base 4 b with
      | some o => s.readBank cl b (base + o) c
      | none => { c with modes := c.modes.setIfInBounds b .cache }) c
  (upto 64).foldl
    (fun c b => match s.segAt base 5 b with
      | some o => (upto 5120).foldl
          (fun c i => { c with acm := acmPut c.acm (5120 * b + i) (BitVec.ofNat 96 (s.physNat (base + o + 12 * i) 12)) })
          { c with acm := c.acm.filter fun x => x.1 / 5120 != b }
      | none => c) c1

/-- The level tables with QSEL and LVLBASE as the first stream segment of an image holds them (R96, R300). -/
def State.readBlk (s : State) (base : Nat) (x : BlkCtx) : BlkCtx :=
  match (upto 16).findSome? (s.segAt base 2) with
  | some o =>
    { x with
      qsel := qselWrite x.qsel (BitVec.ofNat 64 (s.physNat (base + o + 544) 8))
      lvlbase := BitVec.ofNat 64 (s.physNat (base + o + 552) 8) }
  | none => x

/-- What an image gives back: what its digest was saved with, else its named bytes over what is open (DESIGN CHOICE log 12). -/
def State.savedOf (s : State) (base : Nat) : Saved :=
  let d : BitVec 256 := BitVec.ofNat 256 (s.img base 64 32)
  match s.vault.find? (·.digest == d) with
  | some v => v
  | none =>
    let f := Config.foreignBook d
    { f with
      digest := d
      cores := (bitsOf (BitVec.ofNat 4 (s.img base 11 1))).map fun k =>
        (k, s.readCore base k (match f.cores.find? (·.1 == k) with | some c => c.2 | none => coreReset))
      cluster := s.readCluster (s.img base 10 1) base f.cluster
      blk := (s.readBlk base f.blk).legal }

/-- A stream shifted back in: its clocks stand until the context restarts; STAT.YR is clear (R305). Its views end at the writes made until
now (DESIGN CHOICE log 72). -/
def Stream.shiftIn (t : Stream) (stamp : Nat) : Stream :=
  { t with
    st := .out, hart := { t.hart with stat := setBit t.hart.stat statYR false }
    lsView := min t.lsView stamp, gthView := min t.gthView stamp }
/-- A core shifted back in. -/
def Core.shiftIn (c : Core) (stamp : Nat) : Core :=
  { c with a := c.a.shiftIn stamp, x := c.x.shiftIn stamp, m := c.m.shiftIn stamp, c := c.c.shiftIn stamp }

/-- Whether a context owns a segment of a cluster (R299). -/
def Owner.ownsSeg (o : Owner) (kind i : Nat) : Bool :=
  match kind with
  | 1 => o.core.getLsbD (i / 25) | 2 => o.core.getLsbD (i / 4) | 3 => o.core.getLsbD i | 4 => o.bank.getLsbD i
  | 5 => o.acm.getLsbD i | _ => true

/-- A memory with a range of another: the bytes whose address satisfies a test come from it. -/
def mergeMem {α : Type} (old new : List (Nat × α)) (f : Nat → Bool) (put : List (Nat × α) → Nat → α → List (Nat × α)) :
    List (Nat × α) :=
  (new.filter fun x => f x.1).foldl (fun m x => put m x.1 x.2) (old.filter fun x => !f x.1)

/-- Every segment of a context shifted back into a cluster (R305). -/
def State.shiftIn (s : State) (cl ctx : Nat) (v : Saved) : State :=
  let o := s.owner cl ctx
  let s1 := v.cores.foldl
    (fun s c => if o.core.getLsbD c.1 then s.setCore (4 * cl + c.1) (c.2.shiftIn s.stamp) else s) s
  let mine (core : Nat) : Bool := clusterOf core == cl && o.core.getLsbD (core % 4)
  let bank (b : Nat) : Bool := o.bank.getLsbD b
  let s2 := s1.updCluster cl fun c =>
    { c with
      modes := c.modes.mapIdx fun b m => if bank b then v.cluster.modes.getD b .cache else m
      store := mergeMem c.store v.cluster.store (fun a => bank (a / 0x20000)) memPut
      badStore := c.badStore.filter fun l => !bank (l / 0x800)
      badSegs := c.badSegs.filter fun g => !o.ownsSeg g.1 g.2
      rings := c.rings.mapIdx fun b r => if bank b then v.cluster.rings.getD b ⟨none, []⟩ else r
      tiles := c.tiles.mapIdx fun i t =>
        match v.cluster.tiles.getD i none with
        | some x => if x.owner = ctx then some x else t
        | none => if t.any fun x => x.owner == ctx then none else t
      acm := mergeMem c.acm v.cluster.acm (fun a => o.acm.getLsbD (a / 5120)) acmPut
      acmAlloc := c.acmAlloc.mapIdx fun b a => if o.acm.getLsbD b then v.cluster.acmAlloc.getD b none else a
      ranges := (c.ranges.filter fun r => !mine r.core) ++ v.cluster.ranges.filter fun r => mine r.core }
  let s3 := s2.updCtx ctx fun c => { c with blk := v.blk }
  v.barriers.foldl (fun s b => s.updKernel b.1 fun k => if k.ctx = ctx then { k with barriers := b.2 } else k) s3

end Sys2Proof.Machine
end

