-- ==== Sys2Proof/Machine/Intake.lean ====
section
/-! DEFINITION. Submission queues: the intake, its registers, commits (R121 to R125, R286). -/

namespace Sys2Proof.Machine

/-- The created queue of a partition with an id. -/
def State.queue? (s : State) (part id : Nat) : Option SubQueue := s.queues.find? fun q => q.part == part && q.id == id
/-- A created queue updated. -/
def State.updQueue (s : State) (part id : Nat) (f : SubQueue → SubQueue) : State :=
  { s with queues := s.queues.map fun q => if q.part == part && q.id == id then f q else q }

/-- A queue as Ramner creates it (R121, R123). -/
def newQueue (part id ctx : Nat) (fast deviceFed : Bool) (ring : Nat) (bound : List Nat) : SubQueue :=
  { part := part, id := id, ctx := ctx, fast := fast, deviceFed := deviceFed, ring := ring, bound := bound, intake := [],
    next := 0, commit := 0xFFFFFFFF, ovf := false, lowdrop := 0, dcount := 0, handed := none }

/-- SQSTAT (R123). -/
def SubQueue.sqstat (q : SubQueue) : Word :=
  BitVec.ofNat 64 ((if q.ovf then 2 ^ 63 else 0) + q.intake.length * 2 ^ 32 + q.commit.toNat)
/-- SQDROP (R123). -/
def SubQueue.sqdrop (q : SubQueue) : Word := BitVec.ofNat 64 (q.dcount.toNat * 2 ^ 32 + q.lowdrop.toNat)

/-- DCOUNT plus one, saturating (R123). -/
def satInc (c : BitVec 32) : BitVec 32 := if c = 0xFFFFFFFF then c else c + 1

/-- A value accepted by the intake under the next number (R122). -/
def SubQueue.accept (q : SubQueue) (v : Word) : SubQueue := { q with intake := q.intake ++ [v], next := q.next + 1 }

/-- An SQSUB write offered to the intake (R122, R286). -/
def SubQueue.submit (q : SubQueue) (v : Word) : SubQueue :=
  if q.deviceFed then { q with dcount := satInc q.dcount }
  else if q.ovf then { q with next := q.next + 1, dcount := satInc q.dcount }
  else if 256 ≤ q.intake.length then { q with next := q.next + 1, ovf := true, lowdrop := q.next, dcount := 1 }
  else q.accept v

/-- A write of SQSTAT (R122, R123). -/
def SubQueue.clearOvf (q : SubQueue) (v : Word) : SubQueue :=
  if q.ovf && v.getLsbD 63 then { q with ovf := false, next := q.lowdrop } else q

/-- The number of the next entry to commit. -/
def SubQueue.head (q : SubQueue) : BitVec 32 := q.commit + 1

/-- The entries up to number s committed, when it names one of them (R125). -/
def SubQueue.commitTo (q : SubQueue) (n : BitVec 32) : Option SubQueue :=
  let k := (n - q.commit).toNat
  if 1 ≤ k ∧ k ≤ q.intake.length then some { q with intake := q.intake.drop k, commit := n } else none

/-- The memory of the packet of number s (R286). -/
def SubQueue.packetAt (q : SubQueue) (n : BitVec 32) : Nat := q.ring + 256 * (n.toNat % 256)

/-- A queue as an offer left it; an entry that a firmware-path intake took raises an INTAKE event (R122, R344). -/
def State.offered (s : State) (old new : SubQueue) : State :=
  let s1 := s.updQueue old.part old.id fun _ => new
  if !old.fast && decide (old.intake.length < new.intake.length) then
    let (p, s2) := s1.freePayload
    s2.raise ⟨0, old.part, old.id, p⟩
  else s1

end Sys2Proof.Machine
end

