-- ==== Sys2Proof/Machine/Plan.lean ====
section
/-! DEFINITION. Exchange plans (R272) and their check (R273), which XPLAN and the residency check of a launch share. -/

namespace Sys2Proof.Machine

/-- A field of a plan image: k bytes from offset o. -/
def planField (bs : List Byte) (o k : Nat) : Nat := leNat ((bs.drop o).take k)

/-- The transfer that 32 bytes hold (R272). -/
def transferOf (bs : List Byte) : Transfer :=
  { src := BitVec.ofNat 64 (planField bs 0 8), dst := BitVec.ofNat 64 (planField bs 8 8), slot := planField bs 16 4,
    bytes := planField bs 20 3, lane := planField bs 23 1 }

/-- The plan that an image of n entries holds (R272). -/
def planOf (bs : List Byte) (n : Nat) : Plan :=
  ⟨planField bs 4 4, (upto n).map fun i => transferOf (bs.drop (32 + 32 * i))⟩

/-- Whether a header breaks R272: a reserved byte, or more than 4 095 transfers. -/
def headerBad (h : List Byte) : Bool :=
  planField h 2 2 != 0 || planField h 8 24 != 0 || decide (4095 < planField h 0 2)

/-- Whether an address of a transfer fails the address checks of R146. -/
def State.planAddrBad (s : State) (part : Nat) (y : Word) (n : Nat) : Bool :=
  s.ctagBad part y || czero y || s.cpast y 0 0 n || y.toNat % 64 != 0

/-- The fabric cycle after a transfer's last (R272). -/
def Transfer.last (t : Transfer) : Nat := t.slot + t.bytes / 64

/-- Whether two transfers hold one lane at one time (R273). -/
def Transfer.clash (t u : Transfer) : Bool := t.lane == u.lane && decide (t.slot < u.last) && decide (u.slot < t.last)

/-- Whether an entry fails (R273), for a plan of length len and the transfers before it. -/
def State.entryBad (s : State) (part len : Nat) (before : List Transfer) (bs : List Byte) : Bool :=
  let t := transferOf bs
  planField bs 24 8 != 0 || t.bytes == 0 || t.bytes % 64 != 0 || decide (64 ≤ t.lane) ||
    !(s.part part).plane.getLsbD t.lane || before.any t.clash || decide (len < t.last) ||
    s.planAddrBad part t.src t.bytes || s.planAddrBad part t.dst t.bytes

/-- The offset in the image of the first failing entry, or of the header (R273); entries whose bytes are not known are passed. -/
def State.entriesBad (s : State) (part len : Nat) : Nat → List Transfer → List (Option (List Byte)) → Option Nat
  | _, _, [] => none
  | o, before, none :: rest => s.entriesBad part len (o + 32) before rest
  | o, before, some bs :: rest =>
    if s.entryBad part len before bs then some o else s.entriesBad part len (o + 32) (before ++ [transferOf bs]) rest

/-- The first failing place of an image, given its header and its entries as far as they are known. -/
def State.planBad (s : State) (part : Nat) (h : List Byte) (es : List (Option (List Byte))) : Option Nat :=
  if headerBad h then some 0 else s.entriesBad part (planField h 4 4) 32 [] es

end Sys2Proof.Machine
end

