-- ==== Sys2Proof/Machine/Sync.lean ====
section
/-! DEFINITION. Barriers, exchange plans, group queries and the collective queue: majors 0x26 and 0x27 (R267 to R273, R277 to
R282). -/

namespace Sys2Proof.Machine

open Host (Outcome)

/-! ## Named barriers (R267, R268) -/

/-- The named barriers of a group, by the code of its tier's domain (R267). -/
def barLimit (dom : Nat) : Nat :=
  match dom with | 0 => 16 | 1 => 16 | 2 => 16 | 3 => 16 | 4 => 8 | _ => 0

/-- The value of ACCESS at a barrier (R268). -/
def barVal (n : BitVec 3) (i : BitVec 4) : Word := BitVec.ofNat 64 (n.toNat * 256 + i.toNat)

/-- The kernel of the current stream when it may name barrier i of tier n (R268, SUB 0x30). -/
def State.barKernel (s : State) (n : BitVec 3) (i : BitVec 4) : Option Kernel :=
  match s.kernelOf s.curCore with
  | none => none
  | some k => if tierV (k.tier n.toNat) && decide (i.toNat < barLimit (tierDom (k.tier n.toNat))) then some k else none

/-- The barrier's key: its tier, the party's group, its index. -/
def State.barKey (s : State) (k : Kernel) (n : BitVec 3) (i : BitVec 4) : Nat × Nat × Nat :=
  (n.toNat, (k.groupOf n.toNat s.curCore s.curSt).1, i.toNat)

/-- A barrier of a kernel; all its fields are zero at the kernel's start (R267). -/
def Kernel.barrier (k : Kernel) (key : Nat × Nat × Nat) : Barrier :=
  match k.barriers.find? (·.1 == key) with | some b => b.2 | none => ⟨0, 0, 0, 0, [], []⟩
/-- A barrier of a kernel replaced. -/
def Kernel.setBarrier (k : Kernel) (key : Nat × Nat × Nat) (b : Barrier) : Kernel :=
  { k with barriers := (key, b) :: k.barriers.filter (·.1 != key) }

/-- The cores of a kernel that a core's group of tier n spans (R268, R279). -/
def Kernel.groupCores (k : Kernel) (n core : Nat) : List Nat :=
  k.cores.filter fun c => (k.groupOf n c .A).1 == (k.groupOf n core .A).1

/-- EXP of an arrival: C_g times the streams of the mask (R268). -/
def Kernel.barExp (k : Kernel) (n core : Nat) (mask : BitVec 4) : Nat :=
  (if tierDom (k.tier n) = 0 then 1 else (k.groupCores n core).length) *
    ((upto 4).filter fun j => mask.getLsbD j).length

/-- The next generation (R268). -/
def barNext (gen : Nat) : Nat := (gen + 1) % 65536

/-- A barrier after one arrival with a release (R268). -/
def Barrier.arrive (b : Barrier) (mask : BitVec 4) (exp : Nat) (who : Nat × StreamId) (r : Release) : Barrier :=
  let b1 := if b.count = 0 then { b with mask := mask, exp := exp, releases := b.releases.filter (·.1 != b.gen) } else b
  let b2 := { b1 with count := b1.count + 1, arrived := who :: b1.arrived, releases := (b1.gen, r) :: b1.releases }
  if b2.count = b2.exp then { b2 with count := 0, gen := barNext b2.gen, arrived := [] } else b2

/-- A release by the current stream at a scope: its epoch published and its pins widened (R261, R263, R266). -/
def State.releaseNow (s : State) (sc : Scope) (tier : Nat) : Release × State :=
  let p := s.party
  let (e, s1) := s.publish p (s.effScope sc tier p.core)
  (⟨0, 0, p.core, p.st, (s.kernelOf p.core).map (·.id), sc, tier, e, smPin s.me.scopemode, []⟩, s1.widenPins p sc tier e)

/-- `arrive` of R268 by the current stream: the token and the state after, or the trap or wait. -/
def State.barArrive (s : State) (n : BitVec 3) (sm : BitVec 4) (i : BitVec 4) : Except Act (Nat × State) :=
  if s.collecting then .error (trapOf cEFSYNC 0 0 s)
  else
    match s.barKernel n i with
    | none => .error (trapOf cACCESS 0x30 (barVal n i) s)
    | some k =>
      let b := k.barrier (s.barKey k n i)
      if !sm.getLsbD (stIndex s.curSt) || (b.count != 0 && b.mask != sm) then .error (trapOf cACCESS 0x32 (barVal n i) s)
      else if b.arrived.contains (s.curCore, s.curSt) then .error (.wait (.barrier n.toNat i.toNat none) s)
      else do
        s.releaseGate (some (.tier, n.toNat))
        let (r, s1) := s.releaseNow .tier n.toNat
        .ok (b.gen, s1.updKernel k.id fun x =>
          x.setBarrier (s.barKey k n i) (b.arrive sm (k.barExp n.toNat s.curCore sm) (s.curCore, s.curSt) r))

/-- A departure from generation `gen` of barrier i: an acquire of its members' releases (R269); none while it is current. -/
def State.barDepart (s : State) (n : BitVec 3) (i : BitVec 4) (gen : Nat) : Option State :=
  match s.barKernel n i with
  | none => some s
  | some k =>
    let b := k.barrier (s.barKey k n i)
    if b.gen = gen then none
    else
      some ((b.releases.filter fun r => r.1 == gen && ((r.2.core, r.2.st) != (s.curCore, s.curSt))).foldl
        (fun s r => s.gain s.party r.2 r.2.epoch) s)

/-- BARA: arrives and keeps the token (R268). -/
def actBara (g : Guard) (d : XReg) (n : BitVec 3) (sm : BitVec 4) (i : BitVec 4) (s : State) : Act :=
  s.begin g [] [d] fun _ s1 =>
    match s1.barArrive n sm i with
    | .error a => a
    | .ok (tok, s2) => s.retire s2 d (BitVec.ofNat 64 tok)

/-- BARW: waits for the token's generation, then acquires (R268). -/
def actBarw (g : Guard) (a : XReg) (n : BitVec 3) (i : BitVec 4) (s : State) : Act :=
  s.memBegin g [a] [] fun vs =>
    if s.collecting then .error (trapOf cEFSYNC 0 0 s)
    else if (s.barKernel n i).isNone then .error (trapOf cACCESS 0x30 (barVal n i) s)
    else match s.barDepart n i (field (vs.getD 0 0) 15 0) with
      | none => .error (.wait (.barrier n.toNat i.toNat (some (field (vs.getD 0 0) 15 0))) s)
      | some s1 => .ok s1

/-- BARAW: arrives once, then waits for its generation, then acquires (R268). -/
def actBaraw (g : Guard) (n : BitVec 3) (sm : BitVec 4) (i : BitVec 4) (s : State) : Act :=
  let leave (tok : Nat) (s : State) : Act :=
    match s.barDepart n i tok with
    | none => .wait (.barrier n.toNat i.toNat (some tok)) (s.updMe fun t => { t with barTok := some (n.toNat, i.toNat, tok) })
    | some s1 => .done (s1.updMe fun t => { t with barTok := none })
  if !s.guardOn g then .done s
  else match s.me.barTok with
    | some (_, _, tok) => leave tok s
    | none =>
      match s.barArrive n sm i with
      | .error a => a
      | .ok (tok, s1) => leave tok s1

/-! ## The superstep barrier (R271) -/

/-- SSYNC: a release at package scope, then the wait for the communication phase; x[d] is written at the departure (R271). -/
def actSsync (g : Guard) (d : XReg) (s : State) : Act :=
  s.begin g [] [d] fun _ s1 =>
    if s1.collecting then trapOf cEFSYNC 0 0 s
    else match s1.me.ssOut with
      | some v => s.retire (s1.updMe fun t => { t with ssOut := none, ssynced := false }) d v
      | none =>
        if s1.me.ssynced then .wait .ssync s1
        else .wait .ssync ((s1.releaseNow .package 0).2.updMe fun t => { t with ssynced := true })

/-! ## XPLAN (R273) -/

/-- The elements of a plan image of n entries. -/
def planElts (y : Word) (n : Nat) : List Elt := (upto (n + 1)).map fun i => ⟨leaW y (BitVec.ofNat 64 (32 * i)), 32⟩

/-- The entries that the header at an address announces, as far as it can be read. -/
def State.planCount (s : State) (y : Word) : Except Act (Nat × State) := do
  let (ps, s1) ← s.eltsPlace false none [⟨y, 32⟩]
  match ps with
  | x :: _ => .ok (if s1.cleanElt x then min 4095 (planField (s1.eltRaw 0 x) 0 2) else 0, s1)
  | [] => .ok (0, s1)

/-- The ACCESS trap of a failing image at an address; the access has left no race record and no deferred race (R102, R273). -/
def planChk (s0 : State) (part : Nat) (y : Word) (bs : List (Option (List Byte))) (s : State) : State × Option Act :=
  match bs with
  | some h :: es =>
    (s, (s.planBad part h es).map fun o =>
      trapOf cACCESS 0x31 (leaW y (BitVec.ofNat 64 o)) (({ s with recs := s0.recs } : State).setHart s0.hart))
  | _ => (s, none)

/-- XPLAN: reads the image, checks it, and binds a copy (R273). -/
def actXplan (g : Guard) (a : XReg) (s : State) : Act :=
  s.memBegin g [a] [] fun vs => do
    let y := vs.getD 0 0
    if s.collecting then .error (trapOf cEFSYNC 0 0 s)
    else
      s.eltOperand ⟨y, 32⟩
      if y.toNat % 32 ≠ 0 then .error (trapOf cALIGN 0 y s)
      else
        let (n, s1) ← s.planCount y
        s1.eltsOperand (planElts y n)
        let (bs, s2) ← s1.readElts false (planElts y n) (planChk s1 s.curPart y)
        match s.kernelOf s.curCore with
        | none => .ok s2
        | some k => .ok (s2.updKernel k.id fun x => { x with plan := planOf bs.flatten n })

/-! ## Group queries (R278) -/

/-- The kernel of the current stream when it declares tier n. -/
def State.tierKernel (s : State) (n : BitVec 3) : Option Kernel :=
  match s.kernelOf s.curCore with
  | none => none
  | some k => if tierV (k.tier n.toNat) then some k else none

/-- A group query: ACCESS for an undeclared tier, else a function of the kernel and the party's group and rank (R278). -/
def groupQuery (g : Guard) (d : XReg) (srcs : List XReg) (n : BitVec 3) (f : Kernel → Nat → Nat → List Word → Word)
    (s : State) : Act :=
  s.begin g srcs [d] fun vs s1 =>
    match s1.tierKernel n with
    | none => trapOf cACCESS 0x30 (BitVec.ofNat 64 (n.toNat * 256)) s
    | some k =>
      let r := k.groupOf n.toNat s.curCore s.curSt
      s.retire s1 d (f k r.1 r.2 vs)

/-- GRANK (R278). -/
def actGrank (g : Guard) (d : XReg) (n : BitVec 3) (s : State) : Act :=
  groupQuery g d [] n (fun _ grp r _ => BitVec.ofNat 64 (grp * 2 ^ 32 + r)) s
/-- GSIZE (R278). -/
def actGsize (g : Guard) (d : XReg) (n : BitVec 3) (s : State) : Act :=
  groupQuery g d [] n (fun k _ _ _ => BitVec.ofNat 64 (k.groupCount n.toNat * 2 ^ 32 + tierExt (k.tier n.toNat))) s
/-- The first unit and the count of a rank's share of w units among e (R278). -/
def shareOf (w r e : Nat) : Word := BitVec.ofNat 64 (r * w / e * 2 ^ 32 + ((r + 1) * w / e - r * w / e))
/-- GSIZE.SHR (R278). -/
def actGsizeShr (g : Guard) (d : XReg) (a : XReg) (n : BitVec 3) (s : State) : Act :=
  groupQuery g d [a] n (fun k _ r vs => shareOf (field (vs.getD 0 0) 31 0) r (tierExt (k.tier n.toNat))) s
/-- The neighbour of rank q: for a domain tier with its package's id (R278). -/
def Kernel.neighbour (k : Kernel) (n grp q : Nat) : Word :=
  BitVec.ofNat 64 (q + (if tierDom (k.tier n) = 5 then k.members.getD (grp * tierExt (k.tier n) + q) 0 * 2 ^ 32 else 0))
/-- GNBR.NEXT (R278). -/
def actGnbrNext (g : Guard) (d : XReg) (n : BitVec 3) (s : State) : Act :=
  groupQuery g d [] n (fun k grp r _ => k.neighbour n.toNat grp ((r + 1) % tierExt (k.tier n.toNat))) s
/-- GNBR.PREV (R278). -/
def actGnbrPrev (g : Guard) (d : XReg) (n : BitVec 3) (s : State) : Act :=
  groupQuery g d [] n
    (fun k grp r _ => k.neighbour n.toNat grp ((r + tierExt (k.tier n.toNat) - 1) % tierExt (k.tier n.toNat))) s
/-- GNBR.XOR (R278). -/
def actGnbrXor (g : Guard) (d : XReg) (n : BitVec 3) (j : BitVec 5) (s : State) : Act :=
  groupQuery g d [] n
    (fun k grp r _ =>
      if tierExt (k.tier n.toNat) ≤ r ^^^ 2 ^ j.toNat then BitVec.allOnes 64 else k.neighbour n.toNat grp (r ^^^ 2 ^ j.toNat)) s

/-! ## The collective queue (R279, R280, R282) -/

/-- The bytes of a collective's element (R279). -/
def collSize : CollType → Nat
  | .f32 => 4 | .bf16 => 2 | .i32 => 4 | .u32 => 4

/-- The members of a core's collectives at tier n: its group's cores, in every package for a domain tier (R279). -/
def Kernel.collMembers (k : Kernel) (n core : Nat) : Nat :=
  let t := k.tier n
  if tierDom t = 5 then tierExt t * k.cores.length else (k.groupCores n core).length

/-- The elements of the source and of the destination of a member (R279). -/
def collCounts (kind : CollKind) (count g : Nat) : Nat × Nat :=
  match kind with
  | .ar => (count, count) | .rs => (count * g, count) | .ag => (count, count * g) | .bc => (count, count)

/-- The checks of COLL at its push (R101, R146, R280). -/
def State.collCheck (s : State) (kind : CollKind) (ty : CollType) (ya yb cnt : Word) (n : BitVec 3) : Except Act Unit :=
  let bad (y : Word) : Except Act Unit := .error (trapOf cACCESS 0 y s)
  let tag (y : Word) : Bool := decide (2 < spaceTag y) || s.ctagBad s.curPart y
  if s.collecting then .error (trapOf cEFSYNC 0 0 s)
  else if tag ya then bad ya
  else if tag yb then bad yb
  else if czero ya then bad ya
  else if czero yb then bad yb
  else match s.tierKernel n with
    | none => .error (trapOf cACCESS 0x30 (BitVec.ofNat 64 (n.toNat * 256)) s)
    | some k =>
      let c := collCounts kind (field cnt 23 0) (k.collMembers n.toNat s.curCore)
      if tierDom (k.tier n.toNat) = 0 then .error (trapOf cACCESS 0x30 (BitVec.ofNat 64 (n.toNat * 256)) s)
      else if s.cpast ya 0 0 (c.1 * collSize ty) then bad ya
      else if s.cpast yb 0 0 (c.2 * collSize ty) then bad yb
      else if ya.toNat % collSize ty ≠ 0 then .error (trapOf cALIGN 0 ya s)
      else if yb.toNat % collSize ty ≠ 0 then .error (trapOf cALIGN 0 yb s)
      else if field cnt 23 0 = 0 ∨ field cnt 63 24 ≠ 0 then
        .error (trapOf cACCESS 0x33 (BitVec.ofNat 64 (n.toNat * 256)) s)
      else .ok ()

/-- COLL: checked, then pushed as the next collective of its tier, a remote transaction of its stream (R279, R280, R306). -/
def actColl (g : Guard) (kind : CollKind) (op : CollOp) (ty : CollType) (d a b : XReg) (n : BitVec 3) (s : State) : Act :=
  s.memBegin g [a, b, d] [] fun vs => do
    s.collCheck kind ty (vs.getD 0 0) (vs.getD 1 0) (vs.getD 2 0) n
    if !s.queueRoom .collective then .error (.wait (.engineQueue .collective) s)
    else if !s.markRoom s.curCore s.curSt then .error (.wait .markQuiet s)
    else
      let k := (s.core s.curCore).collPushed.getD n.toNat 0
      let cmd : CollCmd := ⟨kind, op, ty, vs.getD 0 0, vs.getD 1 0, field (vs.getD 2 0) 23 0, n.toNat, k⟩
      let s1 := if (s.repush (.coll cmd)).isSome then s
        else s.remoteAdd s.curCore s.curSt (.coll (s.core s.curCore).push) 0 0 0 0 false 0
      .ok ((s1.pushCmd .collective (.coll cmd)).updCore s.curCore fun c =>
        { c with collPushed := c.collPushed.setIfInBounds n.toNat (k + 1) })

/-- COLLW: a marker; the core remembers how many collectives of its tier stood before it (R282). -/
def actCollw (g : Guard) (n : BitVec 3) (s : State) : Act :=
  if !s.guardOn g then .done s
  else if s.collecting then trapOf cEFSYNC 0 0 s
  else if !s.queueRoom .collective then .wait (.engineQueue .collective) s
  else
    let c := s.core s.curCore
    let l := c.collwMarks.getD n.toNat []
    .done ((s.pushCmd .collective (.collw n.toNat l.length)).updCore s.curCore fun c =>
      { c with collwMarks := c.collwMarks.setIfInBounds n.toNat (l ++ [c.collPushed.getD n.toNat 0]) })

/-! ## The instructions -/

/-- BARA as an instruction (R268). -/
def execBara (g : Guard) (d : XReg) (n : BitVec 3) (sm : BitVec 4) (i : BitVec 4) (s : State) : Outcome State Fault Refusal :=
  finish 1 (actBara g d n sm i s)
/-- BARW as an instruction (R268). -/
def execBarw (g : Guard) (a : XReg) (n : BitVec 3) (i : BitVec 4) (s : State) : Outcome State Fault Refusal :=
  finish 1 (actBarw g a n i s)
/-- BARAW as an instruction (R268). -/
def execBaraw (g : Guard) (n : BitVec 3) (sm : BitVec 4) (i : BitVec 4) (s : State) : Outcome State Fault Refusal :=
  finish 1 (actBaraw g n sm i s)
/-- SSYNC as an instruction (R271). -/
def execSsync (g : Guard) (d : XReg) (s : State) : Outcome State Fault Refusal := finish 1 (actSsync g d s)
/-- XPLAN as an instruction (R273). -/
def execXplan (g : Guard) (a : XReg) (s : State) : Outcome State Fault Refusal := finish 1 (actXplan g a s)
/-- GRANK as an instruction (R278). -/
def execGrank (g : Guard) (d : XReg) (n : BitVec 3) (s : State) : Outcome State Fault Refusal := finish 1 (actGrank g d n s)
/-- GSIZE as an instruction (R278). -/
def execGsize (g : Guard) (d : XReg) (n : BitVec 3) (s : State) : Outcome State Fault Refusal := finish 1 (actGsize g d n s)
/-- GSIZE_SHR as an instruction (R278). -/
def execGsizeShr (g : Guard) (d : XReg) (a : XReg) (n : BitVec 3) (s : State) : Outcome State Fault Refusal :=
  finish 1 (actGsizeShr g d a n s)
/-- GNBR_NEXT as an instruction (R278). -/
def execGnbrNext (g : Guard) (d : XReg) (n : BitVec 3) (s : State) : Outcome State Fault Refusal :=
  finish 1 (actGnbrNext g d n s)
/-- GNBR_PREV as an instruction (R278). -/
def execGnbrPrev (g : Guard) (d : XReg) (n : BitVec 3) (s : State) : Outcome State Fault Refusal :=
  finish 1 (actGnbrPrev g d n s)
/-- GNBR_XOR as an instruction (R278). -/
def execGnbrXor (g : Guard) (d : XReg) (n : BitVec 3) (j : BitVec 5) (s : State) : Outcome State Fault Refusal :=
  finish 1 (actGnbrXor g d n j s)
/-- COLL as an instruction (R279, R280). -/
def execColl (g : Guard) (kind : CollKind) (op : CollOp) (ty : CollType) (d a b : XReg) (n : BitVec 3) (s : State) : Outcome State Fault Refusal :=
  finish 1 (actColl g kind op ty d a b n s)
/-- COLLW as an instruction (R282). -/
def execCollw (g : Guard) (n : BitVec 3) (s : State) : Outcome State Fault Refusal := finish 1 (actCollw g n s)

end Sys2Proof.Machine
end

