-- ==== Sys2Proof/Machine/Launch.lean ====
section
/-! DEFINITION. LAUNCH: major 0x28 (R293). -/

namespace Sys2Proof.Machine

open Host (Outcome)

/-- Bytes stored at a physical address, as a number of lines takes them. -/
def State.putLines (s : State) (own : Option Nat) : Nat → Nat → List Byte → Except Act State
  | 0, _, _ => .ok s
  | n + 1, pa, bs =>
    match s.homeWrite (pa / 64) own ((bs.take (64 - pa % 64)).zipIdx.map fun b => (pa % 64 + b.2, b.1)) with
    | .ok s1 => s1.putLines own n (pa + (64 - pa % 64)) (bs.drop (64 - pa % 64))
    | .error (_, s1) => .error (.wait (.memory (pa / 64)) s1)

/-- Bytes stored at a physical address for the current context, line by line, as a packet is (R293). -/
def State.putPhys (s : State) (own : Option Nat) (pa : Nat) (bs : List Byte) : Except Act State :=
  (s.settle ((upto bs.length).map (pa + ·))).putLines own ((pa % 64 + bs.length + 63) / 64) pa bs

/-- The four line accesses of a packet. -/
def packetElts (y : Word) : List Elt := (upto 4).map fun i => ⟨leaW y (BitVec.ofNat 64 (64 * i)), 64⟩

/-- LAUNCH (R293): a trap or a wait leaves the data queues of its operands as they were, and a port of x[d] must have room (R92, R102). A
packet is not written over a slot table (R284; DESIGN CHOICE log 94). -/
def actLaunch (g : Guard) (d a b : XReg) (s : State) : Act :=
  s.memBegin g [a, b] [d] fun vs => do
    let qa := vs.getD 0 0
    let y := vs.getD 1 0
    let put (s : State) (v : Word) : Except Act State :=
      match s.writeReg d v with | .ok s1 => .ok s1 | .error w => .error (.wait w s)
    if s.collecting then .error (trapOf cEFSYNC 0 0 s)
    else
      match if field qa 63 10 = 0 then s.queue? s.curPart qa.toNat else none with
      | none => .error (trapOf cACCESS 0x40 qa s)
      | some q =>
        if !q.deviceFed || q.ctx != s.curCtx then .error (trapOf cACCESS 0x40 qa s)
        else
          s.eltsOperand (packetElts y)
          if y.toNat % 64 ≠ 0 then .error (trapOf cALIGN 0 y s)
          else
            let (bs, s2) ← s.readElts false (packetElts y) fun _ s => (s, none)
            if (s2.writeReg d 0).toOption.isNone then .error (.wait (.dqSlot ((s.port? d).getD 0)) s)
            let s3 := (s2.releaseNow .package 0).2
            if 256 ≤ q.intake.length then put s3 (BitVec.allOnes 64)
            else if s3.meetsSlots (q.packetAt q.next) 256 then .error (trapOf cACCESS 0x60 (BitVec.ofNat 64 (q.packetAt q.next)) s)
            else
              let s4 ← s3.putPhys (some s.curCtx) (q.packetAt q.next) bs.flatten
              put (s4.offered q (q.accept (q.next.setWidth 64))) (q.next.setWidth 64)

/-! ## The instructions -/

/-- LAUNCH as an instruction (R293). -/
def execLaunch (g : Guard) (d a b : XReg) (s : State) : Outcome State Fault Refusal := finish 1 (actLaunch g d a b s)

end Sys2Proof.Machine
end

