-- ==== Sys2Proof/Machine/Page.lean ====
section
/-! DEFINITION. Station instructions of major 0x31: translation caches, retired pages, ways, injected errors and host translations
(R324 to R329); and what every privileged instruction shares: its event's partition and its refusals (R298, R344). -/

namespace Sys2Proof.Machine

open Host (Outcome)

/-! ## Privileged instructions -/

/-- What a privileged instruction comes to: a value, a refusal with a code, a wait (R298), or a trap that its read of memory meets. -/
inductive Priv where
  | ok (v : Word) (s : State)
  | refuse (code : Nat) (s : State)
  | wait (w : WaitFor) (s : State)
  | trap (t : Trap) (s : State)

/-- The value that a refusal writes (R298). -/
def refusal (code : Nat) : Word := BitVec.ofNat 64 (2 ^ 63 + code)

/-- A privileged instruction: its sources are read, and its value or its refusal is written (R298, R324). -/
def State.privBegin (s : State) (g : Guard) (srcs : List XReg) (d : XReg) (k : List Word → Priv) : Act :=
  s.begin g srcs [d] fun vs s1 =>
    match k vs with
    | .ok v s2 => s.retire s2 d v
    | .refuse c s2 => s1.retire s2 d (refusal c)
    | .wait w s2 => .wait w s2
    | .trap t s2 => .trap t s2

/-- The partition that a station core acts for in its event run (R344; DEDUCED log 61). -/
def State.actingPart (s : State) : Nat :=
  match s.cur with
  | .station n => (match (s.station n).event with | some e => e.part | none => 0)
  | .stream c _ => s.partOf c

/-- Whether a context lies in the acting partition (R298, code 0x01); one that termination freed still does (R329, R367). -/
def State.ctxMine (s : State) (ctx : Nat) : Bool := (s.ctx ctx).part == s.actingPart
/-- Whether a logical cluster lies in the acting partition (R298, code 0x01). -/
def State.cluMine (s : State) (cl : Nat) : Bool := (s.part s.actingPart).pclu.getLsbD cl

/-- What the current station core waits for. -/
def State.stationWait (s : State) : Option WaitFor :=
  match s.cur with | .station n => (s.station n).waiting | .stream _ _ => none

/-! ## TLBI (R325) -/

/-- Translations dropped in every cluster of a partition. -/
def State.dropTlb (s : State) (p : Nat) (f : TlbEntry → Bool) : State :=
  { s with clusters := s.clusters.mapIdx fun i c =>
      if (s.part p).pclu.getLsbD i then { c with tlb := c.tlb.filter fun e => !f e } else c }

/-- An entry address removed from the bad-entry lists of the dies that hold a cluster of a partition (R318, R325). -/
def State.dropBad (s : State) (p a : Nat) : State :=
  { s with dies := s.dies.mapIdx fun i d =>
      if (upto 16).any fun j => (s.part p).pclu.getLsbD (16 * i + j) then { d with bad := d.bad.filter (· != a) } else d }

/-- The translation requests in flight from a partition's host leaves that a drop meets: their answers are not used, and the accesses
that wait for them ask again (R325). -/
def State.staleAts (s : State) (p : Nat) (f : TlbEntry → Bool) : State :=
  { s with contexts := s.contexts.mapIdx fun i c =>
      if c.part == p then
        { c with atsStale := c.atsStale ++ c.ats.filter fun k => f ⟨i, k.2 / 16 * 65536, 65536, 0, false, false, true⟩ }
      else c }

/-- The tags of a partition's remote requests without an answer that used an entry to be dropped (R325). -/
def State.entryUsers (s : State) (p : Nat) (f : TlbEntry → Bool) : List Nat :=
  (s.allRemote.filter fun r =>
    s.partOf r.1 == p && spaceTag r.2.addr != 1 &&
      (s.cluster (clusterOf r.1)).tlb.any fun e =>
        f e && e.ctx == s.ctxOf r.1 && decide (e.va ≤ r.2.addr.toNat) && decide (r.2.addr.toNat < e.va + e.size)).map (·.2.tag)

/-- A TLBI: the matching entries are dropped and what is in flight from them restarts; it completes when the accesses that used
them have been performed (R325). A station core's earlier stores have been performed (log 2). -/
def State.tlbi (s : State) (f : TlbEntry → Bool) (drop : State → State) : Priv :=
  let p := s.actingPart
  let first := match s.stationWait with | some (.requests l _) => (l, s) | _ => (s.entryUsers p f, (drop (s.dropTlb p f)).staleAts p f)
  let left := first.1.filter fun t => s.allRemote.any (·.2.tag == t)
  if left.isEmpty then .ok 0 first.2 else .wait (.requests left false) first.2

/-- A TLBI of one context. -/
def State.tlbiCtx (s : State) (xa : Word) (f : TlbEntry → Bool) : Priv :=
  if field xa 63 10 ≠ 0 then .refuse 0x0B s
  else if !s.ctxMine (field xa 9 0) then .refuse 1 s
  else s.tlbi (fun e => e.ctx == field xa 9 0 && f e) id

/-- TLBI.PAGE (R325). -/
def actTlbiPage (g : Guard) (d a b : XReg) (s : State) : Act :=
  s.privBegin g [a, b] d fun vs =>
    s.tlbiCtx (vs.getD 0 0) fun e => decide (e.va ≤ (vs.getD 1 0).toNat) && decide ((vs.getD 1 0).toNat < e.va + e.size)
/-- TLBI.CTX (R325). -/
def actTlbiCtx (g : Guard) (d a : XReg) (s : State) : Act :=
  s.privBegin g [a] d fun vs => s.tlbiCtx (vs.getD 0 0) fun _ => true
/-- TLBI.ALL (R325). -/
def actTlbiAll (g : Guard) (d : XReg) (s : State) : Act :=
  s.privBegin g [] d fun _ => s.tlbi (fun _ => true) id
/-- TLBI.PTE (R325). -/
def actTlbiPte (g : Guard) (d b : XReg) (s : State) : Act :=
  s.privBegin g [b] d fun vs =>
    s.tlbi (fun _ => true) fun s => s.dropBad s.actingPart (vs.getD 0 0).toNat

/-! ## PGRET (R326) -/

/-- The stack of a physical address (R377). -/
def stackOf (pa : Nat) : Nat := pa / (16 * pairBytes)

/-- The resident lines with a byte in a 64 KiB page of HBM. -/
def State.pageLines (s : State) (pg : Nat) : List Nat :=
  (s.l2.map (·.1)).filter fun l => (upto 64).any fun j => s.hbmAddr (64 * l + j) / 65536 == pg

/-- A page's lines written back or discarded, and invalidated; what is held as lost in it is lost no longer (R326, R365). -/
def State.clearPage (s : State) (pg : Nat) (drop : Bool) : State :=
  let s1 := ((s.pageLines pg).foldl (fun s l => if drop then s.dropL2 l else s.evict l) s).settleLines fun l =>
    (upto 64).any fun j => s.hbmAddr (64 * l + j) / 65536 == pg
  { s1 with slices := s1.slices.map fun x =>
      { x with lost := x.lost.filter fun l => !(upto 64).any fun j => s1.hbmAddr (64 * l + j) / 65536 == pg } }

/-- PGRET of a page at x[a] (R326). -/
def State.retirePage (s : State) (xa : Word) (drop : Bool) : Priv :=
  let pa := xa.toNat
  let st := stackOf pa
  let old := s.retired.getD st []
  let known := old.contains (pa / 65536)
  if pa % 65536 ≠ 0 ∨ !s.ownsByte s.actingPart pa then .refuse 5 s
  else if 256 ≤ old.length then .refuse 7 s
  else
    let new := if known then old else old ++ [pa / 65536]
    let s1 := s.clearPage (pa / 65536) drop
    .ok (BitVec.ofNat 64 (256 - new.length)) { s1 with retired := s1.retired.setIfInBounds st new }

/-- PGRET (R326). -/
def actPgret (g : Guard) (d a : XReg) (s : State) : Act := s.privBegin g [a] d fun vs => s.retirePage (vs.getD 0 0) false
/-- PGRET.DROP (R326). -/
def actPgretDrop (g : Guard) (d a : XReg) (s : State) : Act := s.privBegin g [a] d fun vs => s.retirePage (vs.getD 0 0) true

/-! ## WAYQ (R327) -/

/-- A way quarantined: its lines written back, then invalid. -/
def State.quarantine (s : State) (sl w : Nat) : State :=
  let s1 := s.updSlice sl fun x =>
    { x with quarantined := if x.quarantined.contains w then x.quarantined else x.quarantined ++ [w] }
  ((s1.l2.filter fun x => x.2.slice == sl && x.2.way == w).map (·.1)).foldl (fun s l => s.evict l) s1

/-- WAYQ (R327, R368; DEDUCED log 43). -/
def actWayq (g : Guard) (d a : XReg) (s : State) : Act :=
  s.privBegin g [a] d fun vs =>
    let xa := vs.getD 0 0
    let sl := field xa 9 4
    let w := field xa 3 0
    if field xa 63 10 ≠ 0 then .refuse 0x0B s
    else if !(s.part s.actingPart).pslice.getLsbD sl then .refuse 1 s
    else if w < (s.part s.actingPart).pstage then .refuse 0x0A s
    else if 4 ≤ (s.slice sl).quarantined.length then
      .refuse 7 (if (s.slice sl).homeFenced then s else s.fenceHome sl)
    else
      let s1 := s.quarantine sl w
      .ok (BitVec.ofNat 64 (s1.homeWays sl).length) s1

/-! ## INJ (R328) -/

/-- The line that INJ names, when every byte of it lies in memory the acting partition owns. -/
def State.injLine (s : State) (xa : Word) : Option Nat :=
  if xa.toNat % 64 = 0 && (upto 64).all fun j => s.ownsByte s.actingPart (s.hbmAddr (xa.toNat + j)) then some (xa.toNat / 64) else none

/-- An error put into a resident line (R328). -/
def State.injectL2 (s : State) (xa : Word) (k : Injected) : Priv :=
  match s.injLine xa with
  | none => .refuse 5 s
  | some ln =>
    match s.l2At ln with
    | none => .refuse 8 s
    | some l => .ok 0 (s.setL2 ln { l with inj := k })

/-- INJ.L2CE (R328). -/
def actInjL2ce (g : Guard) (d a : XReg) (s : State) : Act := s.privBegin g [a] d fun vs => s.injectL2 (vs.getD 0 0) .l2ce
/-- INJ.L2UE (R328). -/
def actInjL2ue (g : Guard) (d a : XReg) (s : State) : Act := s.privBegin g [a] d fun vs => s.injectL2 (vs.getD 0 0) .l2ue
/-- INJ.HBMUE (R328). -/
def actInjHbmue (g : Guard) (d a : XReg) (s : State) : Act :=
  s.privBegin g [a] d fun vs =>
    match s.injLine (vs.getD 0 0) with
    | none => .refuse 5 s
    | some ln =>
      let h := s.hbmAddr (64 * ln) / 64
      .ok 0 { s with badHbm := if s.badHbm.contains h then s.badHbm else s.badHbm ++ [h] }

/-! ## ATSI (R329) -/

/-- The requests to the host that a context has outstanding. -/
def Context.asked (c : Context) : Nat := c.ats.length + c.pri.length

/-- ATSI.Q (R329). -/
def actAtsiQ (g : Guard) (d a : XReg) (s : State) : Act :=
  s.privBegin g [a] d fun vs =>
    let c := field (vs.getD 0 0) 9 0
    if field (vs.getD 0 0) 63 10 ≠ 0 then .refuse 0x0B s
    else if !s.ctxMine c then .refuse 1 s
    else .ok (BitVec.ofNat 64 ((s.ctx c).pri.length * 2 ^ 32 + (s.ctx c).ats.length)) s

/-- ATSI.F: the context's host translations dropped, then the wait for its requests; the count is that of the start (R329). -/
def actAtsiF (g : Guard) (d a : XReg) (s : State) : Act :=
  s.privBegin g [a] d fun vs =>
    let c := field (vs.getD 0 0) 9 0
    if field (vs.getD 0 0) 63 10 ≠ 0 then .refuse 0x0B s
    else if !s.ctxMine c then .refuse 1 s
    else
      let s1 := s.dropTlb s.actingPart fun e => e.ctx == c && e.host
      let n := match s.stationWait with | some (.atsAnswers n) => n | _ => (s.ctx c).asked
      if (s.ctx c).asked = 0 then .ok (BitVec.ofNat 64 n) s1 else .wait (.atsAnswers n) s1

/-! ## The instructions -/

/-- TLBI_PAGE as an instruction (R324, R325). -/
def execTlbiPage (g : Guard) (d a b : XReg) (s : State) : Outcome State Fault Refusal := finish 1 (actTlbiPage g d a b s)
/-- TLBI_CTX as an instruction (R324, R325). -/
def execTlbiCtx (g : Guard) (d a : XReg) (s : State) : Outcome State Fault Refusal := finish 1 (actTlbiCtx g d a s)
/-- TLBI_ALL as an instruction (R324, R325). -/
def execTlbiAll (g : Guard) (d : XReg) (s : State) : Outcome State Fault Refusal := finish 1 (actTlbiAll g d s)
/-- TLBI_PTE as an instruction (R324, R325). -/
def execTlbiPte (g : Guard) (d b : XReg) (s : State) : Outcome State Fault Refusal := finish 1 (actTlbiPte g d b s)
/-- PGRET as an instruction (R324, R326). -/
def execPgret (g : Guard) (d a : XReg) (s : State) : Outcome State Fault Refusal := finish 1 (actPgret g d a s)
/-- PGRET_DROP as an instruction (R324, R326). -/
def execPgretDrop (g : Guard) (d a : XReg) (s : State) : Outcome State Fault Refusal := finish 1 (actPgretDrop g d a s)
/-- WAYQ as an instruction (R324, R327). -/
def execWayq (g : Guard) (d a : XReg) (s : State) : Outcome State Fault Refusal := finish 1 (actWayq g d a s)
/-- INJ_L2CE as an instruction (R324, R328). -/
def execInjL2ce (g : Guard) (d a : XReg) (s : State) : Outcome State Fault Refusal := finish 1 (actInjL2ce g d a s)
/-- INJ_L2UE as an instruction (R324, R328). -/
def execInjL2ue (g : Guard) (d a : XReg) (s : State) : Outcome State Fault Refusal := finish 1 (actInjL2ue g d a s)
/-- INJ_HBMUE as an instruction (R324, R328). -/
def execInjHbmue (g : Guard) (d a : XReg) (s : State) : Outcome State Fault Refusal := finish 1 (actInjHbmue g d a s)
/-- ATSI_Q as an instruction (R324, R329). -/
def execAtsiQ (g : Guard) (d a : XReg) (s : State) : Outcome State Fault Refusal := finish 1 (actAtsiQ g d a s)
/-- ATSI_F as an instruction (R324, R329). -/
def execAtsiF (g : Guard) (d a : XReg) (s : State) : Outcome State Fault Refusal := finish 1 (actAtsiF g d a s)

end Sys2Proof.Machine
end

