-- ==== Sys2Proof/Machine/Tenancy.lean ====
section
/-! DEFINITION. Station instructions of major 0x30: stopping, saving and restoring a context, owner masks, pre-emption, cut-back,
journals and windows (R296 to R311, R378). -/

namespace Sys2Proof.Machine

open Host (Outcome)

/-! ## Operands, states and events (R296, R298, R378) -/

/-- The logical cluster that x[a] names. -/
def xaCluster (xa : Word) : Nat := field xa 22 16
/-- The context that x[a] names. -/
def xaCtx (xa : Word) : Nat := field xa 9 0
/-- Whether a reserved bit of an x[a] with a cluster and a context is nonzero. -/
def xaBad (xa : Word) : Bool := field xa 63 23 != 0 || field xa 15 10 != 0

/-- The SAVE event of a completed SCOUT, SCIN or CUTB (R378). -/
def State.saveEvent (s : State) (op : Nat) (xa v base : Word) : State :=
  s.raise ⟨4, s.actingPart, xaCtx xa,
    #v[BitVec.ofNat 64 (op * 2 ^ 56 + xaCluster xa * 2 ^ 16 + xaCtx xa), v, base, 0, 0, 0]⟩

/-- The answer of an instruction that raises a SAVE event, with that event. -/
def Priv.saving (r : Priv) (op : Nat) (xa base : Word) : Priv :=
  match r with
  | .ok v s => .ok v (s.saveEvent op xa v base)
  | .refuse c s => .refuse c (s.saveEvent op xa (refusal c) base)
  | .wait w s => .wait w s
  | .trap t s => .trap t s

/-- A cluster and a context named by x[a], with the checks of codes 0x0B and 0x01 (R298). -/
def State.target (s : State) (xa : Word) (k : Nat → Nat → Priv) : Priv :=
  if xaBad xa then .refuse 0x0B s
  else if !s.cluMine (xaCluster xa) || !s.ctxMine (xaCtx xa) then .refuse 1 s
  else k (xaCluster xa) (xaCtx xa)

/-- A context's state set. -/
def State.setCtxState (s : State) (ctx : Nat) (c : CtxState) : State := s.updCtx ctx fun x => { x with state := c }

/-- The cores of a context in a cluster (R297). -/
def State.ownedCores (s : State) (cl ctx : Nat) : List Nat := (bitsOf (s.owner cl ctx).core).map fun k => 4 * cl + k
/-- The clusters in which a context owns a core. -/
def State.ctxClusters (s : State) (ctx : Nat) : List Nat := (upto 128).filter fun cl => (s.owner cl ctx).core != 0

/-- The streams of a core. -/
def allStreams : List StreamId := [.A, .X, .M, .C]

/-- Every stream of a core updated. -/
def Core.mapStreams (c : Core) (f : Stream → Stream) : Core := { c with a := f c.a, x := f c.x, m := f c.m, c := f c.c }

/-! ## Stopping (R303, R309) -/

/-- Whether a vector store of a stream has issued and not completed, be the stream waiting or about to go on (R192). -/
def Stream.storing (t : Stream) : Bool := t.vstPos != 0

/-- A stream's clocks stopped: it is OUT, its state recorded; what a vector load has gathered is discarded for reissue (R79, R303). -/
def Stream.stop (t : Stream) : Stream :=
  if t.st = .out then t
  else { t with saved := t.st, st := if t.st = .idle then .idle else .out, vecPos := 0, vecGot := [], vstPos := 0 }
/-- A stream's clocks started again in its recorded state. -/
def Stream.restart (t : Stream) : Stream := if t.st = .out then { t with st := t.saved } else t

/-- Whether a context has a remote transaction outstanding in a cluster (R303, R306). -/
def State.remoteBusy (s : State) (cl ctx : Nat) : Bool :=
  (s.ownedCores cl ctx).any fun c => allStreams.any fun k => !(s.strm c k).remote.isEmpty

/-- The folds on their way that have left the array's last band, and those that have not, after a number of array cycles: a fold leaves its
band four cycles before it is due, and none passes an earlier one of its element (R225, R230, R303; DEDUCED log 86). -/
def pastArray (cycle : Nat) (l : List PendEntry) : List PendEntry × List PendEntry :=
  l.foldl
    (fun x e =>
      if e.band = 4 ∧ e.at_ ≤ cycle + 3 ∧ !(x.2.any fun o => o.row == e.row && o.col == e.col) then (x.1 ++ [e], x.2)
      else (x.1, x.2 ++ [e])) ([], [])

/-- The folds of a core's array past its last band enter the ACM (R303). -/
def State.drainArray (s : State) (core : Nat) : State :=
  (s.core core).array.running.foldl
    (fun s r =>
      let p := pastArray r.cycle r.pend
      (s.updCluster (clusterOf core) fun c => p.1.foldl (fun c e => c.enter r.table.pair e) c).setRuns core
        ((s.core core).array.running.map fun q => if q.seq == r.seq then { q with pend := p.2 } else q)) s

/-- The vector stores of a context in a cluster that a stop lets complete first; a cut-back undoes those of a stream with a mark (R192,
R303, R309). -/
def State.storesOut (s : State) (cl ctx : Nat) (cut : Bool) : Bool :=
  !(s.cluster cl).stopped.contains ctx &&
    (s.ownedCores cl ctx).any fun c => allStreams.any fun k => (s.strm c k).storing && !(cut && (s.strm c k).mark.isSome)

/-- The clocks of a context stopped in a cluster; a YIELDING context is SAVING (R296, R303). -/
def State.stopClocks (s : State) (cl ctx : Nat) : State :=
  let s0 := if (s.cluster cl).stopped.contains ctx then s else (s.ownedCores cl ctx).foldl State.drainArray s
  let s1 := (s.ownedCores cl ctx).foldl (fun s c => s.updCore c fun x => x.mapStreams Stream.stop) s0
  let s2 := s1.updCluster cl fun c =>
    { c with stopped := if c.stopped.contains ctx then c.stopped else c.stopped ++ [ctx], resumed := c.resumed.filter (· != ctx) }
  if (s2.ctx ctx).state = .yielding then s2.setCtxState ctx .saving else s2

/-- Whether SCOUT.STOP and CUTB accept a context (R303). -/
def State.mayStop (s : State) (ctx : Nat) : Bool := (s.ctx ctx).state == .yielding || (s.ctx ctx).state == .saving

/-- A value that the spec leaves open, with bit 63 clear as an accepted instruction's is (R298; DESIGN CHOICE log 6). -/
def State.accepted (s : State) : Priv := .ok (setBit s.free.1 63 false) s.free.2

/-- SCOUT.STOP (R303; DEDUCED log 41). -/
def actScoutStop (g : Guard) (d a : XReg) (s : State) : Act :=
  s.privBegin g [a] d fun vs =>
    (s.target (vs.getD 0 0) fun cl ctx =>
      if !s.mayStop ctx then .refuse 2 s
      else if s.remoteBusy cl ctx then .refuse 4 s
      else if s.storesOut cl ctx false then .wait (.vecStores ctx) s
      else (s.stopClocks cl ctx).accepted).saving 0 (vs.getD 0 0) 0

/-! ## Shifting out (R303, R314) -/

/-- A context's dirty home lines written back (R303). -/
def State.cleanOf (s : State) (ctx : Nat) : State :=
  ((s.l2.filter fun x => x.2.dirty && !x.2.nc && x.2.owner == ctx).map (·.1)).foldl (fun s l => (s.clean l).2) s

/-- Bytes stored at a physical address by no context, line by line; the line that is held as lost, for which the store waits (R365). -/
def State.physPut (s : State) (pa : Nat) (bs : List Byte) : Nat → Except (Nat × State) State
  | 0 => .ok s
  | n + 1 =>
    match s.homeWrite (pa / 64) none ((bs.take 64).zipIdx.map fun b => (b.2, b.1)) with
    | .ok s1 => s1.physPut (pa + 64) (bs.drop 64) n
    | .error (_, s1) => .error (pa / 64, s1)

/-- A field book stored: its header last (R303). -/
def State.bookPut (s : State) (pa : Nat) (book : List Byte) : Except (Nat × State) State := do
  let s1 ← s.physPut (pa + 128) (book.drop 128) (book.length / 64 - 2)
  s1.physPut pa (book.take 128) 2

/-- The release at package scope that a scan-out performs for a context's streams in a cluster; a stream that is scanned out pins no line
(R266, R303; DEDUCED log 41). -/
def State.scanRelease (s : State) (cl ctx : Nat) : State :=
  ((s.ownedCores cl ctx).flatMap fun c => allStreams.map fun k => (c, k)).foldl
    (fun s x =>
      let p : Party := ⟨x.1, x.2, .stream⟩
      let (e, s1) := s.publish p .package
      (s1.widenPins p .package 0 e).liftPins x.1 x.2) s

/-- SCOUT.SHIFT's work: the book written and kept; the context is SAVED when every cluster of it is shifted (R296, R303). -/
def State.shiftOut (s : State) (cl ctx : Nat) (base : Word) : Priv :=
  let s1 := (s.cleanOf ctx).scanRelease cl ctx
  let book := s1.fieldBook cl ctx
  let dg : BitVec 256 := BitVec.ofNat 256 (leNat ((book.drop 64).take 32))
  if base.toNat % 64 ≠ 0 ∨ !s.ownsRange s.actingPart base.toNat book.length then .refuse 5 s
  else
    match s1.bookPut base.toNat book with
    | .error (line, s2) => .wait (.memory line) s2
    | .ok s2 =>
      let s3 := { s2.settle ((upto book.length).map (base.toNat + ·)) with vault := s1.saveOf cl ctx dg :: s2.vault, tick := s2.tick + 1 }
      let s4 := s3.updCluster cl fun c => { c with shifted := if c.shifted.contains ctx then c.shifted else c.shifted ++ [ctx] }
      .ok (BitVec.ofNat 64 book.length)
        (if (s4.ctxClusters ctx).all fun c => (s4.cluster c).shifted.contains ctx then s4.setCtxState ctx .saved else s4)

/-- SCOUT.SHIFT (R303). -/
def actScoutShift (g : Guard) (d a b : XReg) (s : State) : Act :=
  s.privBegin g [a, b] d fun vs =>
    (s.target (vs.getD 0 0) fun cl ctx =>
      if (s.ctx ctx).state ≠ .saving then .refuse 2 s
      else if !(s.ctxClusters ctx).all (fun c => (s.cluster c).stopped.contains ctx) then .refuse 6 s
      else s.shiftOut cl ctx (vs.getD 1 0)).saving 1 (vs.getD 0 0) (vs.getD 1 0)

/-- A context's clocks restarted in a cluster without a save; restarted in every cluster of it, the context is RUNNING (R296, R303). -/
def State.resumeClocks (s : State) (cl ctx : Nat) : State :=
  let s1 := if (s.cluster cl).stopped.contains ctx then
      (s.ownedCores cl ctx).foldl (fun s c => s.updCore c fun x => x.mapStreams Stream.restart) s else s
  let s2 := s1.updCluster cl fun c =>
    { c with stopped := c.stopped.filter (· != ctx), shifted := c.shifted.filter (· != ctx)
             resumed := if c.resumed.contains ctx then c.resumed else c.resumed ++ [ctx] }
  if (s2.ctxClusters ctx).all fun c => (s2.cluster c).resumed.contains ctx then
    ({ s2 with clusters := s2.clusters.map fun c => { c with resumed := c.resumed.filter (· != ctx) } } : State).setCtxState ctx .running
  else s2

/-- SCOUT.RESUME (R303). -/
def actScoutResume (g : Guard) (d a : XReg) (s : State) : Act :=
  s.privBegin g [a] d fun vs =>
    (s.target (vs.getD 0 0) fun cl ctx =>
      if (s.ctx ctx).state ≠ .saving then .refuse 2 s
      else (s.resumeClocks cl ctx).accepted).saving 2 (vs.getD 0 0) 0

/-! ## Shifting in (R301, R305) -/

/-- Whether a context owns what an image's masks name (R305). -/
def State.masksOwned (s : State) (cl ctx base : Nat) : Bool :=
  let o := s.owner cl ctx
  (BitVec.ofNat 4 (s.img base 11 1) &&& ~~~o.core) == 0 && (BitVec.ofNat 64 (s.img base 16 8) &&& ~~~o.bank) == 0 &&
    (BitVec.ofNat 64 (s.img base 24 8) &&& ~~~o.acm) == 0

/-- A stream of a restored context restarts: a YIELDED one resumes in RUN (R305). -/
def Stream.resumeIn (t : Stream) : Stream :=
  if t.st = .out then { t with st := if t.saved = .yielded then .run else t.saved } else t

/-- The marks of saving and restoring of a context removed in every cluster. -/
def State.clearMarks (s : State) (ctx : Nat) : State :=
  { s with clusters := s.clusters.map fun c =>
      { c with stopped := c.stopped.filter (· != ctx), shifted := c.shifted.filter (· != ctx),
               restored := c.restored.filter (· != ctx), resumed := c.resumed.filter (· != ctx) } }

/-- A context whose every cluster is restored restarts in all of them at once (R305). -/
def State.finishRestore (s : State) (ctx : Nat) : State :=
  if (s.ctxClusters ctx).all fun c => (s.cluster c).restored.contains ctx then
    let s1 := (s.ctxClusters ctx).foldl
      (fun s cl => (s.ownedCores cl ctx).foldl (fun s c => s.updCore c fun x => x.mapStreams Stream.resumeIn) s) s
    (s1.clearMarks ctx).setCtxState ctx .running
  else s

/-- SCIN's work on an image in a cluster of a SAVED or RESTORING context (R296, R301, R305). -/
def State.shiftBack (s : State) (cl ctx base : Nat) : Priv :=
  match s.imgCheck base (some (ctx, cl)) with
  | some w =>
    if (s.ctx ctx).state = .restoring then
      .ok w (({ s with clusters := s.clusters.map fun c =>
          { c with restored := c.restored.filter (· != ctx) } } : State).setCtxState ctx .saved)
    else .ok w s
  | none =>
    let s1 := (s.shiftIn cl ctx (s.savedOf base)).updCluster cl fun c =>
      { c with restored := if c.restored.contains ctx then c.restored else c.restored ++ [ctx] }
    .ok 0 ((s1.setCtxState ctx .restoring).finishRestore ctx)

/-- An instruction at a line of an image that it cannot read: it waits for one that is lost, and traps with UE at a poisoned one (R323, R365). -/
def imageTrouble (e : HomeFail) (line : Nat) (s : State) : Priv :=
  match e with
  | .lost => .wait (.memory line) s
  | .poison => .trap ⟨cUE, 0, BitVec.ofNat 64 (64 * line)⟩ s

/-- The lines of an image at a base looked at, as far as the acting partition owns them. -/
def State.lookBook (s : State) (base : Nat) : Except (HomeFail × Nat × State) State :=
  s.lookImage base fun s n => s.ownsRange s.actingPart base n

/-- SCIN (R305): its refusals in the order 0x0B, 0x01, 0x02, 0x05, 0x03, then the image's (DESIGN CHOICE log 40). -/
def actScin (g : Guard) (d a b : XReg) (s : State) : Act :=
  s.privBegin g [a, b] d fun vs =>
    let base := (vs.getD 1 0).toNat
    (s.target (vs.getD 0 0) fun cl ctx =>
      if (s.ctx ctx).state ≠ .saved ∧ (s.ctx ctx).state ≠ .restoring then .refuse 2 s
      else if base % 64 ≠ 0 ∨ !s.ownsRange s.actingPart base 128 then .refuse 5 s
      else match s.lookBook base with
        | .error (e, line, s1) => imageTrouble e line s1
        | .ok s1 =>
          if !s1.masksOwned cl ctx base then .refuse 3 s1
          else if (s1.imgCheck base none).isNone && !s1.ownsRange s1.actingPart base (s1.img base 32 8) then .refuse 5 s1
          else s1.shiftBack cl ctx base).saving 3 (vs.getD 0 0) (vs.getD 1 0)

/-- SCVER of an image (R298, R301). -/
def actScver (g : Guard) (d a : XReg) (s : State) : Act :=
  s.privBegin g [a] d fun vs =>
    let base := (vs.getD 0 0).toNat
    if base % 64 ≠ 0 ∨ !s.ownsRange s.actingPart base 128 then .refuse 5 s
    else match s.lookBook base with
      | .error (e, line, s1) => imageTrouble e line s1
      | .ok s1 =>
        match s1.imgCheck base none with
        | some w => .ok w s1
        | none => if s1.ownsRange s1.actingPart base (s1.img base 32 8) then .ok 0 s1 else .refuse 5 s1

/-- SCVER.PART (R298). -/
def actScverPart (g : Guard) (d : XReg) (s : State) : Act := s.privBegin g [] d fun _ => .ok 0x00030001 s

/-! ## Owner masks (R297, R298) -/

/-- The owner masks of a context in a cluster replaced; masks of zeros are not listed. -/
def State.setOwner (s : State) (cl ctx : Nat) (o : Owner) : State :=
  s.updCluster cl fun c =>
    let rest := c.owners.filter fun x => x.1 != ctx
    { c with owners := if o.core = 0 ∧ o.bank = 0 ∧ o.acm = 0 then rest else (ctx, o) :: rest }

/-- Whether another context owns a bit of a mask in a cluster. -/
def State.othersOwn (s : State) (cl ctx : Nat) (f : Owner → BitVec 64) (m : BitVec 64) : Bool :=
  (s.cluster cl).owners.any fun x => x.1 != ctx && (f x.2 &&& m) != 0

/-- Whether a context is RUNNING or YIELDING with a core of a kernel in a cluster. -/
def State.runsIn (s : State) (cl ctx : Nat) : Bool :=
  ((s.ctx ctx).state == .running || (s.ctx ctx).state == .yielding) &&
    s.kernels.any fun k => k.ctx == ctx && k.placed && k.cores.any fun c => clusterOf c == cl

/-- OWNSET of one mask: f reads it, put replaces it, gone is what the resources taken away come to. -/
def State.ownset (s : State) (xa m : Word) (f : Owner → BitVec 64) (put : Owner → BitVec 64 → Owner)
    (gone : State → Nat → Nat → BitVec 64 → State) : Priv :=
  s.target xa fun cl ctx =>
    let old := f (s.owner cl ctx)
    if s.othersOwn cl ctx f m then .refuse 3 s
    else if (old &&& ~~~m) != 0 && s.runsIn cl ctx then .refuse 2 s
    else .ok old (gone (s.setOwner cl ctx (put (s.owner cl ctx) m)) cl ctx (old &&& ~~~m))

/-- The core mask as a word. -/
def Owner.coreWord (o : Owner) : BitVec 64 := o.core.setWidth 64

/-- OWNSET.CORE: a core taken from a SAVED context is free for another one; its state is in the book (R298, R305). -/
def actOwnsetCore (g : Guard) (d a b : XReg) (s : State) : Act :=
  s.privBegin g [a, b] d fun vs =>
    if field (vs.getD 1 0) 63 4 ≠ 0 then .refuse 0x0B s
    else s.ownset (vs.getD 0 0) (vs.getD 1 0) Owner.coreWord (fun o m => { o with core := m.setWidth 4 }) fun s cl ctx m =>
      if (s.ctx ctx).state ≠ .saved then s
      else (upto 4).foldl
        (fun s k =>
          if m.getLsbD k then (s.setCore (4 * cl + k) coreReset).updCluster cl fun c =>
            { c with ranges := c.ranges.filter fun r => r.core != 4 * cl + k }
          else s) s
/-- OWNSET.BANK: a bank taken away keeps its bytes (R298). -/
def actOwnsetBank (g : Guard) (d a b : XReg) (s : State) : Act :=
  s.privBegin g [a, b] d fun vs =>
    s.ownset (vs.getD 0 0) (vs.getD 1 0) Owner.bank (fun o m => { o with bank := m }) fun s _ _ _ => s
/-- OWNSET.ACM: an ACM bank taken away is NOT OWNED (R215, R298). -/
def actOwnsetAcm (g : Guard) (d a b : XReg) (s : State) : Act :=
  s.privBegin g [a, b] d fun vs =>
    s.ownset (vs.getD 0 0) (vs.getD 1 0) Owner.acm (fun o m => { o with acm := m }) fun s cl _ m =>
      s.updCluster cl fun c => { c with acmAlloc := c.acmAlloc.mapIdx fun n x => if m.getLsbD n then none else x }

/-! ## Pre-emption (R84, R311) -/

/-- The cores of the kernels of a context. -/
def State.kernelCores (s : State) (ctx : Nat) : List Nat :=
  (s.kernels.filter fun k => k.ctx == ctx && k.placed).flatMap (·.cores)

/-- Whether a stream is at a safe point (R84). -/
def Stream.safe (t : Stream) : Bool :=
  (t.st == .yielded || t.st == .arrived || t.st == .halted || t.st == .idle) && t.loads.isEmpty && t.remote.isEmpty

/-- PREQ on a RUNNING or YIELDING context: STAT.YR of every stream set or cleared (R311). -/
def State.preq (s : State) (xa : Word) (k : Nat → List Nat → Priv) : Priv :=
  let ctx := xaCtx xa
  if field xa 63 10 ≠ 0 then .refuse 0x0B s
  else if !s.ctxMine ctx then .refuse 1 s
  else if (s.ctx ctx).state ≠ .running ∧ (s.ctx ctx).state ≠ .yielding then .refuse 2 s
  else k ctx (s.kernelCores ctx)

/-- Every stream of some cores updated. -/
def State.mapCores (s : State) (l : List Nat) (f : Stream → Stream) : State :=
  l.foldl (fun s c => s.updCore c fun x => x.mapStreams f) s

/-- PREQ.SET: x[d] is the number of streams short of a safe point; the context is YIELDING (R296, R311; DEDUCED log 22, log 67). -/
def actPreqSet (g : Guard) (d a : XReg) (s : State) : Act :=
  s.privBegin g [a] d fun vs =>
    s.preq (vs.getD 0 0) fun ctx cs =>
      let n := (cs.flatMap fun c => allStreams.filter fun k => !(s.strm c k).safe).length
      let s1 := s.mapCores cs fun t => { t with hart := { t.hart with stat := setBit t.hart.stat statYR true } }
      .ok (BitVec.ofNat 64 n) (s1.setCtxState ctx .yielding)

/-- PREQ.CLR: YIELDED streams return to RUN, and the context is RUNNING (R84, R296, R311). -/
def actPreqClr (g : Guard) (d a : XReg) (s : State) : Act :=
  s.privBegin g [a] d fun vs =>
    s.preq (vs.getD 0 0) fun ctx cs =>
      let s1 := s.mapCores cs fun t =>
        { t with st := if t.st = .yielded then .run else t.st, hart := { t.hart with stat := setBit t.hart.stat statYR false } }
      (s1.setCtxState ctx .running).accepted

/-! ## Cut-back (R309) -/

/-- A data queue returned to earlier positions: what was popped since stands again, what was pushed since does not (R306). -/
def DataQueue.back (q : DataQueue) (pops pushes : Nat) : DataQueue :=
  let es := ((q.popped.take (q.pops - pops)).reverse.map DqEntry.filled) ++ q.entries
  { q with entries := es.take (pushes - pops), pops := pops, pushes := pushes, popped := q.popped.drop (q.pops - pops) }

/-- Whether a stream pops a data queue (R92). -/
def popsDq (k : StreamId) (q : Nat) : Bool :=
  match k with | .A => decide (4 ≤ q) | .X => decide (q < 4) | .M => false | .C => false
/-- Whether a stream pushes a data queue (R92). -/
def pushesDq (k : StreamId) (q : Nat) : Bool :=
  match k with | .A => decide (q < 4) | .X => decide (4 ≤ q) | .M => false | .C => false

/-- A stream's own end of a data queue returned to where it stood; the other stream's end stays (R306). -/
def DataQueue.backFor (d : DataQueue) (k : StreamId) (q pops pushes : Nat) : DataQueue :=
  d.back (if popsDq k q then pops else d.pops) (if pushesDq k q then pushes else d.pushes)

/-- A stream's own end of bq returned to where it stood (R306). -/
def Core.bqBack (c : Core) (k : StreamId) (m : BqPos) : Core :=
  let p := (c.strm k).bqAt
  let o := (c.strm (bqPeer k)).bqAt
  let mine := (c.bq.filter fun e => e.1 == k).take (m.pushes - o.pops)
  let theirs := (((p.popped.take (p.pops - m.pops)).reverse.map fun b => (bqPeer k, b)) ++ c.bq.filter fun e => e.1 != k).take
    (o.pushes - m.pops)
  { c.setStrm k { c.strm k with bqAt := { m with popped := p.popped.drop (p.pops - m.pops) } } with bq := theirs ++ mine }

/-- An entry of a journal undone: every reader sees the bytes that it restores (R306, R309); the error is a state in which its line is held as
lost, for which the undo waits (R365). -/
def State.undo (s : State) (core : Nat) (e : JEntry) : Except State State :=
  let put (m : Memory) (o : Nat) : Memory := e.old.foldl (fun m b => memPut m (o + b.1) b.2) m
  let tile (cl line : Nat) : State :=
    (s.updCluster cl fun c => { c with store := put c.store (64 * line) }).settle (e.old.map fun b => tileKey cl (64 * line + b.1))
  if !e.tile then
    match s.homeWrite e.line (some (s.ctxOf core)) e.old with
    | .ok s1 => .ok (s1.settle (e.old.map fun b => 64 * e.line + b.1))
    | .error (_, s1) => .error s1
  else if e.line < 2 ^ 40 then .ok (tile (storeAt core e.line).1 (storeAt core e.line).2)
  else .ok (s.updSlice ((e.line - 2 ^ 40) / 0x40000) fun x => { x with staging := put x.staging (64 * ((e.line - 2 ^ 40) % 0x40000)) })

/-- Entries of journals undone in order, each with its core, or the one at which the undo waits. -/
def State.undoAll (s : State) : List (Nat × JEntry) → Except (Nat × JEntry) State
  | [] => .ok s
  | e :: l =>
    match s.undo e.1 e.2 with
    | .ok s1 => s1.undoAll l
    | .error _ => .error e

/-- A state in which an entry of a journal waits for its line. -/
def State.undoStuck (s : State) (e : Nat × JEntry) : State := match s.undo e.1 e.2 with | .ok _ => s | .error s1 => s1

/-- The journals of some streams, each newest entry first (R309). -/
def State.journals (s : State) (l : List (Nat × StreamId)) : List (Nat × JEntry) :=
  l.flatMap fun x => (s.strm x.1 x.2).journal.map fun e => (x.1, e)

/-- An engine queue of a core without what a stream pushed since its mark; an issued copy whose remote transaction is cancelled is
to issue again. -/
def backQueue (k : StreamId) (push : Nat) (cancelled : List Nat) (q : List QEntry) : List QEntry :=
  (q.filter fun e => !(e.by_ == k && decide (push ≤ e.seq))).map fun e =>
    if cancelled.contains e.seq then { e.afresh with issued := false, ranges := [], prog := ⟨none, 0⟩ } else e

/-- The copies and collectives among a stream's outstanding transactions. -/
def Stream.cancelled (t : Stream) : List Nat :=
  t.remote.filterMap fun r => match r.kind with
    | .copy seq => some seq
    | .coll seq => some seq
    | .load _ _ _ _ => none | .vload _ _ => none | .store _ => none | .atom _ _ _ => none | .line _ _ _ _ => none

/-- Whether a request is a line of a plan, which takes no mark (R273, R306). -/
def RemoteKind.isPlan : RemoteKind → Bool
  | .line _ _ q _ => q == 0
  | .load _ _ _ _ => false | .vload _ _ => false | .store _ => false | .atom _ _ _ => false | .copy _ => false | .coll _ => false

/-- A stream's requests of a plan cancelled; the transfer that they belong to starts again (R309). -/
def State.cancelPlan (s : State) (core : Nat) (k : StreamId) : State :=
  if !(s.strm core k).remote.any (·.kind.isPlan) then s
  else
    let s1 := s.updStrm core k fun t => { t with remote := t.remote.filter fun r => !r.kind.isPlan }
    match s1.kernelOf core with
    | some j => s1.updKernel j.id fun j => { j with commProg := ⟨none, 0⟩ }
    | none => s1

/-- A core's queues, engines and flags as a cut-back of a stream to a mark leaves them: what it pushed since is gone, its own ends of the
data queues and of bq and the flags that it moved last stand as they did (R306, R309; DEDUCED log 42). -/
def Core.cutBack (c : Core) (k : StreamId) (m : Snap) (gone : Nat → Bool) : Core :=
  let l := (c.strm k).cancelled
  { c.bqBack k m.bqPos with
    copyQ := backQueue k m.push l c.copyQ
    matQ := backQueue k m.push l c.matQ
    colQ := backQueue k m.push l c.colQ
    window := c.window.filter fun e => !gone e.seq
    array := { c.array with running := c.array.running.filter fun r => !gone r.seq }
    dq := c.dq.mapIdx fun i q => match m.dqPos[i]? with | some p => q.backFor k i p.1 p.2 | none => q
    flags := c.flags.mapIdx fun i f => if f.by_ = k then m.flags.getD i f else f
    table := if k = .M then m.table else c.table
    collPushed := if k = .C then m.collPushed else c.collPushed
    collwMarks := if k = .C then m.collwMarks else c.collwMarks }

/-- A stream whose journal is undone cut back to its mark: its transactions cancelled, its snapshot restored (R306, R309; DEDUCED log 42). The
loads that it had issued before the mark stand. -/
def State.cutBack (s : State) (core : Nat) (k : StreamId) : State :=
  let t := s.strm core k
  match t.mark with
  | none => s
  | some m =>
    let gone (seq : Nat) : Bool := t.cancelled.contains seq ||
      ((s.core core).copyQ ++ (s.core core).matQ ++ (s.core core).colQ).any fun e => e.seq == seq && e.by_ == k && decide (m.push ≤ seq)
    let s1 := s.updCluster (clusterOf core) fun c => { c with ranges := c.ranges.filter fun r => !(r.core == core && gone r.seq) }
    let s2 := s1.updCore core fun c => c.cutBack k m gone
    s2.updStrm core k fun t =>
      { t with
        hart := m.hart, fpm := m.fpm, trapvec := m.trapvec, tcause := m.tcause, tepc := m.tepc, tval := m.tval, tprc := m.tprc,
        scopemode := m.scopemode, lists := m.lists, held := none, heldArena := false, waiting := none
        loads := t.loads.filter fun l => l.slot.any fun x =>
          ((s2.core core).dq.getD x.1 dqReset).entries.contains (.reserved x.2)
        remote := [], mark := none, journal := [], barTok := none, ssynced := false, ssOut := none
        vecPos := 0, vecGot := [], vstPos := 0 }

/-- CUTB (R309): the context stopped in the cluster, the lines of its plan cancelled, its streams with a mark cut back; each resumes in RUN. -/
def actCutb (g : Guard) (d a : XReg) (s : State) : Act :=
  s.privBegin g [a] d fun vs =>
    (s.target (vs.getD 0 0) fun cl ctx =>
      if !s.mayStop ctx then .refuse 2 s
      else if s.storesOut cl ctx true then .wait (.vecStores ctx) s
      else
        let s1 := s.stopClocks cl ctx
        let all := (s1.ownedCores cl ctx).flatMap fun c => allStreams.map fun k => (c, k)
        let l := all.filter fun x => (s1.strm x.1 x.2).mark.isSome
        let s2 := all.foldl (fun s x => s.cancelPlan x.1 x.2) s1
        match s2.undoAll (s2.journals l) with
        | .error e => .wait (.memory e.2.line) (s2.undoStuck e)
        | .ok s3 =>
          .ok (BitVec.ofNat 64 l.length)
            (l.foldl (fun s x => (s.cutBack x.1 x.2).updStrm x.1 x.2 fun t => { t with saved := .run }) s3)).saving 4 (vs.getD 0 0) 0

/-! ## IDEM and TMARK (R308, R310) -/

/-- IDEM: the journal area placed (R308). -/
def actIdem (g : Guard) (d a b : XReg) (s : State) : Act :=
  s.privBegin g [a, b] d fun vs =>
    let xa := vs.getD 0 0
    let base := (vs.getD 1 0).toNat
    let k := field xa 18 16
    let ctx := xaCtx xa
    if field xa 63 19 ≠ 0 ∨ field xa 15 10 ≠ 0 ∨ 4 < k then .refuse 0x0B s
    else if !s.ctxMine ctx then .refuse 1 s
    else if (s.ctx ctx).state ≠ .idle then .refuse 2 s
    else if base % 65536 ≠ 0 ∨ (base ≠ 0 ∧ !s.ownsRange s.actingPart base (2048 * 4096 * 2 ^ k)) then .refuse 5 s
    else .ok (BitVec.ofNat 64 (s.ctx ctx).jbase) (s.updCtx ctx fun c => { c with jbase := base, jk := k })

/-- TMARK of the core that x[a] names (R310). -/
def State.tmark (s : State) (xa : Word) (force : Bool) : Priv :=
  let core := 4 * xaCluster xa + field xa 25 24
  if field xa 63 26 ≠ 0 ∨ xa.getLsbD 23 ∨ field xa 15 0 ≠ 0 then .refuse 0x0B s
  else if !s.cluMine (xaCluster xa) then .refuse 1 s
  else .ok (BitVec.ofNat 64 (s.core core).window.length) (if force then s.tileMark core else s)

/-- TMARK.Q (R310). -/
def actTmarkQ (g : Guard) (d a : XReg) (s : State) : Act := s.privBegin g [a] d fun vs => s.tmark (vs.getD 0 0) false
/-- TMARK.F (R310). -/
def actTmarkF (g : Guard) (d a : XReg) (s : State) : Act := s.privBegin g [a] d fun vs => s.tmark (vs.getD 0 0) true

/-! ## The instructions -/

/-- SCOUT_STOP as an instruction (R298, R303). -/
def execScoutStop (g : Guard) (d a : XReg) (s : State) : Outcome State Fault Refusal := finish 1 (actScoutStop g d a s)
/-- SCOUT_SHIFT as an instruction (R298, R303). -/
def execScoutShift (g : Guard) (d a b : XReg) (s : State) : Outcome State Fault Refusal := finish 1 (actScoutShift g d a b s)
/-- SCOUT_RESUME as an instruction (R298, R303). -/
def execScoutResume (g : Guard) (d a : XReg) (s : State) : Outcome State Fault Refusal := finish 1 (actScoutResume g d a s)
/-- SCIN as an instruction (R298, R305). -/
def execScin (g : Guard) (d a b : XReg) (s : State) : Outcome State Fault Refusal := finish 1 (actScin g d a b s)
/-- SCVER as an instruction (R298, R301). -/
def execScver (g : Guard) (d a : XReg) (s : State) : Outcome State Fault Refusal := finish 1 (actScver g d a s)
/-- SCVER_PART as an instruction (R298, R301). -/
def execScverPart (g : Guard) (d : XReg) (s : State) : Outcome State Fault Refusal := finish 1 (actScverPart g d s)
/-- OWNSET_CORE as an instruction (R298). -/
def execOwnsetCore (g : Guard) (d a b : XReg) (s : State) : Outcome State Fault Refusal := finish 1 (actOwnsetCore g d a b s)
/-- OWNSET_BANK as an instruction (R298). -/
def execOwnsetBank (g : Guard) (d a b : XReg) (s : State) : Outcome State Fault Refusal := finish 1 (actOwnsetBank g d a b s)
/-- OWNSET_ACM as an instruction (R298). -/
def execOwnsetAcm (g : Guard) (d a b : XReg) (s : State) : Outcome State Fault Refusal := finish 1 (actOwnsetAcm g d a b s)
/-- PREQ_SET as an instruction (R298, R311). -/
def execPreqSet (g : Guard) (d a : XReg) (s : State) : Outcome State Fault Refusal := finish 1 (actPreqSet g d a s)
/-- PREQ_CLR as an instruction (R298, R311). -/
def execPreqClr (g : Guard) (d a : XReg) (s : State) : Outcome State Fault Refusal := finish 1 (actPreqClr g d a s)
/-- CUTB as an instruction (R298, R309). -/
def execCutb (g : Guard) (d a : XReg) (s : State) : Outcome State Fault Refusal := finish 1 (actCutb g d a s)
/-- IDEM as an instruction (R298, R308). -/
def execIdem (g : Guard) (d a b : XReg) (s : State) : Outcome State Fault Refusal := finish 1 (actIdem g d a b s)
/-- TMARK_Q as an instruction (R298, R310). -/
def execTmarkQ (g : Guard) (d a : XReg) (s : State) : Outcome State Fault Refusal := finish 1 (actTmarkQ g d a s)
/-- TMARK_F as an instruction (R298, R310). -/
def execTmarkF (g : Guard) (d a : XReg) (s : State) : Outcome State Fault Refusal := finish 1 (actTmarkF g d a s)

end Sys2Proof.Machine
end

