-- ==== Sys2Proof/Machine/Residency.lean ====
section
/-! DEFINITION. Command packets, launch records, process-group tables, plans and configuration records, and the residency check
that the front end, SLOTCHK and RELOC share (R274, R276, R284, R287 to R289). -/

namespace Sys2Proof.Machine

/-! ## What a test comes to -/

/-- A part of the residency check: a value, or the failing code, or no code while a read must wait (R289). -/
abbrev Res (α : Type) := Except (Option Nat × State) α

/-- A read of the check, whose failure is code 0x0B (R289). -/
def resRead (s0 : State) (r : Except Act (Loc × State)) (n : Nat) : Res (List Byte × State) :=
  match r with
  | .error (.wait _ s1) => .error (none, s1)
  | .error (.trap _ s1) => .error (some 0x0B, s1)
  | .error (.done _) => .error (some 0x0B, s0)
  | .error (.jump _) => .error (some 0x0B, s0)
  | .ok (.remote _ _, s1) => .error (some 0x0B, s1)
  | .ok (.host ha, s1) => .ok (memBytes s1.host ha n, s1)
  | .ok (.home pa, s1) =>
    match s1.homeRead (pa / 64) none with
    | .ok s2 => .ok (s2.physBytes pa n, s2)
    | .error (.lost, s2) => .error (none, s2)
    | .error (.poison, s2) => .error (some 0x0B, s2)

/-- Bytes of one line of a context's global memory, translated in a cluster, read for no context (R289, R322). A page that the host has been
asked for is waited for (R320). -/
def State.ctxPiece (s : State) (cl ctx : Nat) (e : Elt) : Res (List Byte × State) :=
  if spaceTag e.y ≠ 0 then .error (some 0x0B, s)
  else
    match s.locate cl ctx (addr56 e.y) false with
    | .error (.trap t s1) => if s1.pageAsked cl ctx t then .error (none, s1) else .error (some 0x0B, s1)
    | r => resRead s r e.n

/-- Pieces read in order. -/
def State.ctxPieces (s : State) (cl ctx : Nat) : List Elt → Res (List Byte × State)
  | [] => .ok ([], s)
  | e :: es => do
    let (b, s1) ← s.ctxPiece cl ctx e
    let (bs, s2) ← s1.ctxPieces cl ctx es
    .ok (b ++ bs, s2)

/-- n bytes of a context's global memory. -/
def State.ctxBytes (s : State) (cl ctx : Nat) (y : Word) (n : Nat) : Res (List Byte × State) := s.ctxPieces cl ctx (cutLines y n n)

/-- Physical pieces read in order. -/
def State.physPieces (s : State) : List Elt → Res (List Byte × State)
  | [] => .ok ([], s)
  | e :: es => do
    let pa := e.y.toNat
    let loc : Except Act (Loc × State) :=
      match placeOf pa with
      | .hbm => if s.inPlane pa then .error (trapOf cACCESS 0 e.y s) else .ok (.home pa, s)
      | .aperture => if (s.platAt pa).isNone then .error (trapOf cACCESS 0 e.y s) else .ok (.home pa, s)
      | .regs => .error (trapOf cACCESS 0 e.y s)
      | .remote => .error (trapOf cACCESS 0 e.y s)
      | .none => .error (trapOf cACCESS 0 e.y s)
    let (b, s1) ← resRead s loc e.n
    let (bs, s2) ← s1.physPieces es
    .ok (b ++ bs, s2)

/-- A command packet, read at a physical address (R286, R294). -/
def State.readPacket (s : State) (pa : Word) : Res (List Byte × State) := s.physPieces (cutLines pa 256 256)

/-- The usable logical clusters of a partition: those that it owns and that a physical cluster stands for (R342, R348). -/
def State.partClusters (s : State) (p : Nat) : List Nat := bitsOf ((s.part p).pclu &&& s.cluUp)
/-- The cluster through whose translations the front end reads for a partition (DEDUCED log 24). -/
def State.frontCluster (s : State) (p : Nat) : Nat := (bitsOf (s.part p).pclu).headD 0

/-! ## Tiers of a launch record (R274, R288) -/

/-- The streams that a unit of a domain spans on the part. -/
def tierUnit (dom : Nat) : Nat :=
  match dom with | 0 => 1 | 1 => 4 | 2 => 16 | 3 => 256 | _ => 2048
/-- The streams that a group of a tier spans (DEDUCED log 26). -/
def tierSpan (t : Word) : Nat := tierExt t * tierUnit (tierDom t)
/-- Whether an extent is one that R274 lists for the domain; a domain tier's is tested with the table (R276). -/
def extOk (dom e : Nat) : Bool :=
  match dom with
  | 0 => e == 1 || e == 2 || e == 4
  | 1 => e == 1 || e == 2 || e == 4
  | 2 => e == 1 || e == 2 || e == 4 || e == 8 || e == 16
  | 3 => e == 1 || e == 2 || e == 4 || e == 8
  | 4 => e == 1
  | 5 => e != 0
  | _ => false
/-- The narrowest scope code that holds every party of a group (R253, R274). -/
def scopeNeed (dom e : Nat) : Nat :=
  match dom with
  | 0 => if e = 1 then 0 else 1
  | 1 => if e = 1 then 1 else 2
  | 2 => if e = 1 then 2 else 3
  | 3 => if e = 1 then 3 else 4
  | 4 => 4
  | _ => if e = 1 then 4 else 5
/-- Whether a TIER word is well-formed by itself (R274, R288). -/
def tierOk (t : Word) : Bool :=
  if tierV t then
    field t 56 16 == 0 && extOk (tierDom t) (tierExt t) && decide (scopeNeed (tierDom t) (tierExt t) ≤ field t 59 57) &&
      decide (field t 59 57 ≤ 6)
  else t == 0
/-- Whether each declared tier's groups hold whole groups of the one below it (R274). -/
def nestOk : List Nat → Bool
  | a :: b :: l => b % a == 0 && nestOk (b :: l)
  | _ => true
/-- Whether eight TIER words are well-formed (R274, R288). -/
def tiersOk (ts : List Word) : Bool := ts.all tierOk && nestOk ((ts.filter tierV).map tierSpan)

/-- The TIER words of a launch record. -/
def recTiers (r : List Byte) : List Word := (upto 8).map fun n => BitVec.ofNat 64 (planField r (32 + 8 * n) 8)
/-- Whether a launch record breaks R288 or R274. -/
def recordBad (r : List Byte) : Bool :=
  planField r 28 4 != 0 || planField r 96 32 != 0 || planField r 24 2 == 0 || decide (512 < planField r 24 2) ||
    !tiersOk (recTiers r) || (planField r 8 8 == 0 && (recTiers r).any fun t => tierV t && tierDom t == 5)

/-! ## Configuration records (R284, R289) -/

/-- The record that 16 bytes hold. -/
def cfgOf (b : List Byte) : CfgRec := ⟨planField b 0 1 == 1, planField b 1 1, BitVec.ofNat 64 (planField b 8 8)⟩
/-- Whether a record is malformed (R289). -/
def cfgBad (b : List Byte) : Bool :=
  let c := cfgOf b
  decide (1 < planField b 0 1) || planField b 2 6 != 0 ||
    (if c.tile then tdBad c.val || decide (64 < tdBank c.val + tdBanks c.val) || decide (tdBanks c.val * 131072 < tdSize c.val)
     else decide (63 < c.idx) || decide (3 ≤ c.val.toNat))
/-- Whether two tile records' ranges overlap (R289). -/
def cfgClash : List CfgRec → Bool
  | [] => false
  | c :: l => (c.tile && l.any fun d => d.tile && tdMeets c.val d.val) || cfgClash l

/-- The configuration records of a slot (R284, R289). -/
def State.readCfg (s : State) (cl : Nat) (e : SlotEntry) : Res (List CfgRec × State) := do
  if e.ncfg = 0 then .ok ([], s)
  else if 320 < e.ncfg then .error (some 0x05, s)
  else
    let (b, s1) ← s.ctxBytes cl e.ctx e.cfg (16 * e.ncfg)
    let rs := (upto e.ncfg).map fun i => (b.drop (16 * i)).take 16
    if rs.any cfgBad || cfgClash (rs.map cfgOf) then .error (some 0x05, s1) else .ok (rs.map cfgOf, s1)

/-- The bank mode of a code (R136). -/
def bankModeOf (v : Word) : BankMode := if v = 1 then .tile else if v = 2 then .fifo else .cache

/-- Whether a cluster qualifies for a context and its configuration records (R289, test 0x08). -/
def State.qualifies (s : State) (ctx : Nat) (cfg : List CfgRec) (cl : Nat) : Bool :=
  cfg.all fun c =>
    if c.tile then ((s.cluster cl).tile c.idx).all fun t => t.owner == ctx
    else (s.owner cl ctx).bank.getLsbD c.idx

/-! ## The process-group table and the plan (R273, R276, R289) -/

/-- The members of a process-group table; with none named, the package alone (R276, R288). -/
def State.readPgt (s : State) (cl ctx : Nat) (y : Word) (ts : List Word) : Res (List Nat × State) := do
  if y = 0 then .ok ([s.pkgId.toNat], s)
  else
    let (h, s1) ← s.ctxBytes cl ctx y 8
    let n := planField h 0 2
    if n = 0 ∨ 1024 < n ∨ planField h 2 6 ≠ 0 then .error (some 0x06, s1)
    else
      let (b, s2) ← s1.ctxBytes cl ctx (leaW y 8) (2 * n)
      let ms := (upto n).map fun i => planField b (2 * i) 2
      if ms.any (fun m => decide (1024 ≤ m)) || (nubNat ms).length != n || !ms.contains s.pkgId.toNat ||
          ts.any fun t => tierV t && tierDom t == 5 && n % tierExt t != 0 then .error (some 0x06, s2)
      else .ok (ms, s2)

/-- The plan that a launch record names; with none, the empty plan (R273, R288). -/
def State.readPlan (s : State) (part cl ctx : Nat) (y : Word) : Res (Plan × State) := do
  if y = 0 then .ok (⟨0, []⟩, s)
  else if spaceTag y ≠ 0 ∨ y.toNat % 32 ≠ 0 then .error (some 0x07, s)
  else
    let (h, s1) ← s.ctxBytes cl ctx y 32
    if headerBad h then .error (some 0x07, s1)
    else
      let n := planField h 0 2
      let (b, s2) ← s1.ctxBytes cl ctx (leaW y 32) (32 * n)
      let es := (upto n).map fun i => some ((b.drop (32 * i)).take 32)
      if (s2.planBad part h es).isSome then .error (some 0x07, s2) else .ok (planOf (h ++ b) n, s2)

/-! ## The check (R289) -/

/-- DONE of a packet. -/
def packetDone (pk : List Byte) : Word := BitVec.ofNat 64 (planField pk 144 8)

/-- What names a command: its partition and context, its queue and number, its priority. -/
structure CmdId where
  part : Nat
  ctx : Nat
  queue : Nat
  seq : BitVec 32
  priority : Nat
  deriving DecidableEq, Repr

/-- The tests 0x01 to 0x09 on a packet (R289): the kernel it describes. `value` is the intake's value of the entry, where one is
known (test 0x03), `bound` the bound core set of a fast-path queue (test 0x09; DEDUCED log 25). -/
def State.residency (s : State) (c : CmdId) (pk : List Byte) (value : Option Word) (bound : Option (List Nat)) :
    Res (Kernel × State) := do
  let (_, s) ← s.physPieces [⟨BitVec.ofNat 64 ((s.part c.part).slotTable + 64 * (planField pk 0 2 % 4096)), 64⟩]
  let e := s.slotEntry c.part (planField pk 0 2 % 4096)
  let cl := s.frontCluster c.part
  let y : Word := BitVec.ofNat 64 (planField pk 8 8)
  if !e.res then .error (some 0x01, s)
  else if e.ctx ≠ c.ctx then .error (some 0x02, s)
  else if value.any (· != c.seq.setWidth 64) then .error (some 0x03, s)
  else if planField pk 0 2 / 4096 != 0 || planField pk 2 6 != 0 || planField pk 152 104 != 0 || y.toNat % 64 != 0 ||
      (packetDone pk).toNat % 8 != 0 then .error (some 0x04, s)
  else
    let (r, s1) ← s.ctxBytes cl c.ctx y 128
    if recordBad r then .error (some 0x05, s1)
    else
      let (cfg, s2) ← s1.readCfg cl e
      let (ms, s3) ← s2.readPgt cl c.ctx (BitVec.ofNat 64 (planField r 8 8)) (recTiers r)
      let (plan, s4) ← s3.readPlan c.part cl c.ctx (BitVec.ofNat 64 (planField r 16 8))
      let n := planField r 24 2
      let cls := s4.partClusters c.part
      if (cls.filter (s4.qualifies c.ctx cfg)).length < (n + 3) / 4 then .error (some 0x08, s4)
      else if 4 * cls.length < n ∨ bound.any (fun b => decide (b.length < n)) then .error (some 0x09, s4)
      else
        .ok ({ id := s.nextKernel, ctx := c.ctx, part := c.part, queue := c.queue, seq := c.seq.toNat,
               slot := planField pk 0 2 % 4096,
               buf := Vector.ofFn fun i => BitVec.ofNat 64 (planField pk (16 + 8 * i.val) 8),
               done := packetDone pk, est := BitVec.ofNat 64 (planField r 0 8), tokens := planField r 26 2,
               priority := c.priority, ncores := n,
               tiers := Vector.ofFn fun i => (recTiers r).getD i.val 0,
               members := ms, rank := ms.idxOf s.pkgId.toNat, plan := plan, cfg := cfg, placed := false, cores := [], step := 0,
               barriers := [], race := [], comm := false, commAt := 0, commProg := ⟨none, 0⟩ }, s4)

/-- The packet at an address read and checked (R289). -/
def State.checkAt (s : State) (c : CmdId) (pa : Word) (value : Option Word) (bound : Option (List Nat)) : Res (Kernel × State) := do
  let (pk, s1) ← s.readPacket pa
  s1.residency c pk value bound

/-- An accepted kernel handed to the scheduler (R289, R290). -/
def State.addKernel (s : State) (k : Kernel) : State := { s with kernels := s.kernels ++ [k], nextKernel := s.nextKernel + 1 }

end Sys2Proof.Machine
end

