-- ==== Sys2Proof/Machine/Kernel.lean ====
section
/-! DEFINITION. The life of a kernel: the fast-path front end, placement and start, the end of a core's job, retirement with the
completion word, and the termination of a context (R82, R237, R287 to R292, R295, R296, R313). -/

namespace Sys2Proof.Machine

open Host (Outcome)

/-! ## The completion word (R295) -/

/-- A note in the partition's error log that a completion word was not written: the queue and the sequence number (R295). -/
def State.doneLost (s : State) (k : Kernel) : State := s.logErr (.done k.part k.queue k.seq)

/-- The completion word of a command written as a store of its context, which every reader sees; the error is a state in which the store still
waits, for the host's translation or page, or at a lost line (R295, R320, R365). A store that cannot be performed is noted and changes nothing else (DEDUCED log 60). -/
def State.doneStore (s : State) (k : Kernel) (cl : Nat) (status : Nat) : Except State State :=
  let bs := leBytes 8 (status * 2 ^ 56 + k.seq)
  if k.done = 0 then .ok s
  else if spaceTag k.done ≠ 0 ∨ k.done.toNat % 8 ≠ 0 then .ok (s.doneLost k)
  else
    match s.locate cl k.ctx (addr56 k.done) true with
    | .error (.wait _ s1) => .error s1
    | .error (.trap t s1) => if s1.pageAsked cl k.ctx t then .error s1 else .ok (s1.doneLost k)
    | .error (.done s1) => .ok (s1.doneLost k)
    | .error (.jump s1) => .ok (s1.doneLost k)
    | .ok (.remote _ _, s1) => .ok (s1.doneLost k)
    | .ok (.host ha, s1) =>
      .ok ((({ s1 with host := memPuts s1.host ha bs } : State).settle ((upto 8).map ((Loc.host ha).key + ·))).dropReleases (Loc.host ha).key 8)
    | .ok (.home pa, s1) =>
      match s1.homeWrite (pa / 64) (some k.ctx) (bs.zipIdx.map fun b => (pa % 64 + b.2, b.1)) with
      | .ok s2 => .ok ((s2.settle ((upto 8).map (pa + ·))).dropReleases pa 8)
      | .error (_, s2) => .error s2

/-! ## The fast-path front end (R292) -/

/-- A kernel record of a command that was refused or never read, for its completion word. -/
def refused (c : CmdId) (pk : List Byte) : Kernel :=
  { id := 0, ctx := c.ctx, part := c.part, queue := c.queue, seq := c.seq.toNat, slot := 0, buf := Vector.replicate 16 0,
    done := packetDone pk, est := 0, tokens := 0, priority := 0, ncores := 0, tiers := Vector.replicate 8 0, members := [], rank := 0,
    plan := ⟨0, []⟩, cfg := [], placed := false, cores := [], step := 0, barriers := [], race := [], comm := false, commAt := 0
    commProg := ⟨none, 0⟩ }

/-- The next entry of a queue committed (R289, R292). -/
def State.commitNext (s : State) (part id : Nat) : State :=
  s.updQueue part id fun q => (q.commitTo q.head).getD q

/-- The front end takes the next entry of a fast-path queue of a READY partition: it is committed, and its kernel is accepted or
its refusal is written at DONE (R289, R292, R295). -/
def State.frontEnd (s : State) (part id : Nat) : State :=
  match s.queue? part id with
  | none => s
  | some q =>
    if !q.fast || q.intake.isEmpty || (s.part part).pstat != 2 then s
    else
      let c : CmdId := ⟨part, q.ctx, id, q.head, 0⟩
      match s.readPacket (BitVec.ofNat 64 (q.packetAt q.head)) with
      | .error (none, s1) => s1
      | .error (some _, s1) => s1.commitNext part id
      | .ok (pk, s1) =>
        match s1.residency c pk q.intake.head? (some q.bound) with
        | .ok (k, s2) => (s2.commitNext part id).addKernel k
        | .error (none, s2) => s2
        | .error (some code, s2) =>
          match s2.doneStore (refused c pk) (s.frontCluster part) code with
          | .ok s3 => s3.commitNext part id
          | .error s3 => s3

/-! ## Placement (R290) -/

/-- Whether a core may take a kernel of a context: no kernel on it, its streams IDLE, no other context its owner. -/
def State.coreFree (s : State) (ctx core : Nat) : Bool :=
  (s.core core).kernel.isNone && allStreams.all (fun k => (s.strm core k).st == .idle) &&
    (s.cluster (clusterOf core)).owners.all fun o => o.1 == ctx || !o.2.core.getLsbD (core % 4)

/-- Whether a core set takes whole clusters and whole dies where a tier asks for it (R290). -/
def wholeUnits (ts : List Word) (cores : List Nat) : Bool :=
  (!(ts.any fun t => tierV t && tierDom t == 2) ||
      (cores.map clusterOf).all fun cl => (upto 4).all fun i => cores.contains (4 * cl + i)) &&
    (!(ts.any fun t => tierV t && tierDom t == 3) ||
      (nubNat (cores.map dieOf)).all fun d => (upto 64).all fun i => cores.contains (64 * d + i))

/-- Whether each declared tier's scope holds the cores of each of its groups, in the kernel's core set (R274). -/
def Kernel.scopesOk (k : Kernel) : Bool :=
  (upto 8).all fun n =>
    !tierV (k.tier n) ||
      k.cores.all fun a => k.cores.all fun b =>
        a == b || (k.groupOf n a .A).1 != (k.groupOf n b .A).1 || plainIncludes (tierScope (k.tier n)) ⟨a, .A, .stream⟩ ⟨b, .A, .stream⟩

/-- Whether a tile entry is held by another kernel of a kernel's context. -/
def Kernel.rival (k : Kernel) (x : Tile) : Bool := x.owner == k.ctx && x.kernel.any (· != k.id)

/-- Whether the configured banks and tile entries of a kernel are free in a cluster (R290): no other kernel of the context holds
them, has a ring of theirs bound, or has a tile that a configured one overlaps, and BANKCFG has no range to wait for. -/
def State.roomIn (s : State) (k : Kernel) (cl : Nat) : Bool :=
  let c := s.cluster cl
  let others := s.kernels.filter fun j => j.placed && j.id != k.id && j.ctx == k.ctx && j.cores.any fun x => clusterOf x == cl
  let rivals := c.tiles.toList.filterMap fun t => t.filter k.rival
  k.cfg.all fun r =>
    if r.tile then !(c.tile r.idx).any k.rival && !rivals.any fun x => tdMeets x.desc r.val
    else
      !(others.any fun j => j.cfg.any fun q => !q.tile && q.idx == r.idx) &&
        !((c.rings.getD r.idx ⟨none, []⟩).bound.any fun b => (s.core b).kernel.any (· != k.id)) && !rivals.any (fun x => tdCovers x.desc r.idx) &&
        (bankModeOf r.val == c.modes.getD r.idx .cache || !c.holds (r.idx * 0x20000) (r.idx * 0x20000 + 0x1FFFF))

/-- Whether a context takes kernels now (R290, R311). -/
def Context.takes (c : Context) : Bool := (c.state == .idle || c.state == .running) && !c.drain

/-- Whether a kernel is the next of its queue: the first that waits, and, on a fast-path queue, alone (R292). -/
def State.nextOfQueue (s : State) (k : Kernel) : Bool :=
  let same (j : Kernel) : Bool := j.part == k.part && j.queue == k.queue
  ((s.kernels.find? fun j => same j && !j.placed).map (·.id)) == some k.id &&
    match s.queue? k.part k.queue with
    | some q => !q.fast || !(s.kernels.any fun j => same j && j.placed)
    | none => true

/-- The waiting time of a kernel in microseconds, to its own partition's clock (R134; DESIGN CHOICE log 87). -/
def State.waited (s : State) (k : Kernel) : Nat :=
  ((upto (s.nextKernel - k.id)).map fun i => Config.acceptGap (k.id + i)).foldl (· + ·) 0

/-- The inputs of PICK for a waiting kernel (R134). -/
def State.pickInputs (s : State) (k : Kernel) : List (BitVec 32) :=
  [sat32 k.queue, sat32 k.priority, sat32 (s.waited k), sat32 k.est.toNat, sat32 k.tokens]

/-- The clusters in which a waiting kernel may have cores now (R289, R290). -/
def State.clustersFor (s : State) (k : Kernel) : List Nat :=
  (s.partClusters k.part).filter fun cl => s.qualifies k.ctx k.cfg cl && s.roomIn k cl

/-- Whether a queue's next kernel is ready: its context takes kernels, and enough cores are free (R134; DEDUCED log 28). -/
def State.readyKernel (s : State) (k : Kernel) : Bool :=
  !k.placed && (s.ctx k.ctx).takes && s.nextOfQueue k &&
    decide (k.ncores ≤ ((s.clustersFor k).flatMap fun cl => ((upto 4).map (4 * cl + ·)).filter (s.coreFree k.ctx)).length)

/-- Whether a kernel of a firmware-path queue, which PICK orders (R292). -/
def State.picked? (s : State) (k : Kernel) : Bool := (s.queue? k.part k.queue).all fun q => !q.fast

/-- Whether a scored kernel is before another: the higher score; on equal scores the older of two that the default policy scores, else the
lower queue id (R134). -/
def State.before (s : State) (a b : Nat × Kernel) : Bool :=
  decide (b.1 < a.1) ||
    (a.1 == b.1 &&
      if (s.ctx a.2.ctx).policy.isNone ∧ (s.ctx b.2.ctx).policy.isNone then decide (a.2.id < b.2.id)
      else decide (a.2.queue < b.2.queue))

/-- The score of a ready queue's kernel: its policy's, or how long it has waited (R134). -/
def State.scoreOf (s : State) (k : Kernel) : Nat × State :=
  let r := s.polRun k.ctx 1 (s.pickInputs k)
  ((if (s.ctx k.ctx).policy.isNone then s.waited k else field r.1 31 0), r.2)

/-- PICK run once for each ready queue of a partition in which a kernel waits, in the order of acceptance: whether that kernel runs
(R134; DESIGN CHOICE log 87). -/
def State.pick (s : State) (k : Kernel) : Bool × State :=
  let l := s.kernels.filter fun j => j.part == k.part && s.picked? j && (j.id == k.id || s.readyKernel j)
  let r := l.foldl
    (fun (x : Option (Nat × Kernel) × State) j =>
      let (v, s1) := x.2.scoreOf j
      (match x.1 with
       | some b => if s1.before (v, j) b then some (v, j) else some b
       | none => some (v, j), s1)) (none, s)
  (r.1.any fun b => b.2.id == k.id, r.2)

/-- Whether a core set is one that a waiting kernel may take now (R290, R292; DEDUCED log 28). -/
def State.mayPlace (s : State) (k : Kernel) (cores : List Nat) : Bool :=
  !k.placed && (s.part k.part).pstat == 2 && (s.ctx k.ctx).takes && s.nextOfQueue k && cores.length == k.ncores &&
    (cores.zip (cores.drop 1)).all (fun x => decide (x.1 < x.2)) && cores.all (fun c => decide (c < 512)) &&
    (nubNat (cores.map clusterOf)).all (fun cl =>
      (s.partClusters k.part).contains cl && s.qualifies k.ctx k.cfg cl && s.roomIn k cl) &&
    cores.all (s.coreFree k.ctx) &&
    (match s.queue? k.part k.queue with | some q => !q.fast || cores.all q.bound.contains | none => true) &&
    wholeUnits k.tiers.toList cores && ({ k with cores := cores } : Kernel).scopesOk

/-- A configuration record applied in a cluster as BANKCFG or TDEF; none when that would fault (R136, R139, R290). -/
def State.applyRec (s : State) (k : Kernel) (cl : Nat) (r : CfgRec) : Option State :=
  let c := s.cluster cl
  let cur := c.modes.getD r.idx .cache
  if r.tile then
    if (s.tdefCase cl k.ctx r.idx r.val).isSome then none else some (s.setTile cl r.idx (some ⟨r.val, k.ctx, some k.id, .empty⟩))
  else if bankModeOf r.val = cur then some s
  else if cur = .tile && c.tiles.toList.any (fun t => t.any fun x => tdCovers x.desc r.idx) then none
  else if cur = .fifo && (c.rings.getD r.idx ⟨none, []⟩).bound.isSome then none
  else some (s.switchBank cl r.idx (bankModeOf r.val))

/-- The records of a kernel applied in a cluster, banks before tiles; none when one would fault (R290). -/
def State.applyCfg (s : State) (k : Kernel) (cl : Nat) : Option State :=
  ((k.cfg.filter fun r => !r.tile) ++ k.cfg.filter (·.tile)).foldl (fun o r => o.bind fun s => s.applyRec k cl r) (some s)

/-- The records of a kernel applied in some clusters; none when one would fault (R290). -/
def State.applyAll (s : State) (k : Kernel) (cls : List Nat) : Option State :=
  cls.foldl (fun o cl => o.bind fun s => s.applyCfg k cl) (some s)

/-- The allotment of a code of a slot entry (R284). -/
def allotOf2 (n : Nat) : Allot := if n = 1 then .a32 else if n = 2 then .a64 else .a16

/-- An IDLE stream of a core that starts on a kernel (R81). -/
def idleStream (l : Lists) : Stream := { streamReset with lists := l.discard }

/-- A core started on a kernel: stream A at STREAM0 in the state of R81; the other streams IDLE; counts of collectives from zero
(R279, R291; DEDUCED log 29). -/
def startCore (stamp kid slot : Nat) (e : SlotEntry) (c : Core) : Core :=
  let w := e.streams.getD 0 0
  { c with
    a := startStream stamp (Vector.replicate 16 0) c.a.lists (allotOf2 (field w 31 30)) (codeAddr slot (field w 29 0))
    x := idleStream c.x.lists, m := idleStream c.m.lists, c := idleStream c.c.lists
    dq := coreReset.dq, bq := [], kernel := some kid, back := backReset
    array := { c.array with pendFault := none }
    collPushed := Vector.replicate 8 0, collwMarks := Vector.replicate 8 [] }

/-- A kernel leaves the list of kernels, and its cores are free (R290, R295). -/
def State.dropKernel (s : State) (id : Nat) : State :=
  { s with
    kernels := s.kernels.filter fun j => j.id != id
    cores := s.cores.map fun c => if c.kernel == some id then { c with kernel := none } else c }

/-- A kernel that may be placed is placed on a core set: its configuration is applied and its cores start, or it completes with status
0x0E (R290, R291, R295, R296). A slot entry whose line is lost is waited for; one that cannot be read is a context fault (R323, R365; DEDUCED
log 90). -/
def State.startKernel (s : State) (k : Kernel) (cores : List Nat) : State :=
  let cls := nubNat (cores.map clusterOf)
  match s.lookLine ((s.part k.part).slotTable / 64 + k.slot) none with
  | .error (.lost, s0) => s0
  | .error (.poison, s0) => s0.contextFault k.ctx (some ⟨cUE, 0, codeAddr k.slot 0⟩)
  | .ok s0 =>
  match s0.applyAll k cls with
  | none =>
    (match s0.doneStore k (cls.headD 0) 0x0E with
     | .ok s1 => s1.dropKernel k.id
     | .error s1 => s1)
  | some s1 =>
    let e := s0.slotEntry k.part k.slot
    let s2 := cores.foldl (fun s c => s.updCore c (startCore s0.stamp k.id k.slot e)) s1
    let s3 := s2.updKernel k.id fun k =>
      { k with placed := true, cores := cores, race := [], step := 0, barriers := [], comm := false, commAt := 0, commProg := ⟨none, 0⟩ }
    if (s3.ctx k.ctx).state = .idle then s3.setCtxState k.ctx .running else s3

/-- A waiting kernel placed on a core set: on a firmware-path queue it is the one that PICK chooses (R134, R290, R292). -/
def State.placeKernel (s : State) (kid : Nat) (cores : List Nat) : State :=
  match s.kernel? kid with
  | none => s
  | some k =>
    if !s.mayPlace k cores then s
    else if !s.picked? k then s.startKernel k cores
    else if (s.pick k).1 then (s.pick k).2.startKernel k cores else s

/-! ## The end of a job (R82) -/

/-- Whether a stream has nothing more to do in the job (R82). -/
def Stream.ended (t : Stream) : Bool := t.st == .arrived || t.st == .halted || t.st == .idle
/-- Whether a stream waits for no load and no remote transaction. -/
def Stream.calm (t : Stream) : Bool := t.loads.isEmpty && t.remote.isEmpty

/-- Whether the job of a core ends (R82): its streams have ended and its engines have completed all that was pushed. -/
def Core.jobEnds (c : Core) : Bool :=
  c.kernel.isSome && c.a.st != .idle && allStreams.all (fun k => (c.strm k).ended && (c.strm k).calm) && c.copyQ.isEmpty &&
    c.matQ.isEmpty && c.colQ.isEmpty

/-- A stream after the end of its job: its lists are discarded (R82, R238). -/
def Stream.toIdle (t : Stream) : Stream := { t with st := .idle, waiting := none, lists := t.lists.discard }

/-- The rings that a core has bound are unbound and empty (R186). -/
def Cluster.freeRings (c : Cluster) (core : Nat) : Cluster :=
  { c with rings := c.rings.map fun r => if r.bound == some core then ⟨none, []⟩ else r }

/-- The job of a core ends: every stream is IDLE, what the queues, the lists and the core's rings hold is discarded, and no line is pinned
for its streams (R82, R186, R238, R266). -/
def State.endJob (s : State) (core : Nat) : State :=
  if s.clocked core && (s.core core).jobEnds then
    let s1 := s.updCore core fun c =>
      { c.mapStreams Stream.toIdle with
        dq := c.dq.map DataQueue.cleared, bq := [], array := { c.array with pendFault := none } }
    allStreams.foldl (fun s k => s.liftPins core k) (s1.updCluster (clusterOf core) fun c => c.freeRings core)
  else s

/-! ## Retirement (R295) -/

/-- The ACM banks and tile entries of a kernel freed (R138, R215, R295). -/
def State.freeKernel (s : State) (kid : Nat) : State :=
  { s with clusters := s.clusters.map fun c =>
      { c with
        acmAlloc := c.acmAlloc.map fun a => if a == some kid then none else a
        tiles := c.tiles.map fun t => if t.any fun x => x.kernel == some kid then none else t } }

/-- A kernel completes with a status: its resources freed, its writes released on every path, DONE written, its cores free (R295); the error is
a state in which the store of DONE still waits. -/
def State.completeKernel (s : State) (k : Kernel) (status : Nat) : Except State State :=
  match ((s.freeKernel k.id).carryAll k.cores).doneStore k (clusterOf (k.cores.headD (4 * s.frontCluster k.part))) status with
  | .ok s1 => .ok (s1.dropKernel k.id)
  | .error s1 => .error s1

/-- A context whose last kernel has retired is IDLE (R296). -/
def State.afterRetire (s : State) (ctx : Nat) : State :=
  if (s.ctx ctx).state = .running ∧ !(s.kernels.any fun j => j.ctx == ctx && j.placed) then s.setCtxState ctx .idle else s

/-- Whether every job of a kernel has ended (R295). -/
def State.jobsEnded (s : State) (k : Kernel) : Bool :=
  k.placed && !k.comm && k.cores.all fun c =>
    s.clocked c && (s.core c).kernel == some k.id && allStreams.all fun t => (s.strm c t).st == .idle

/-- A kernel whose jobs have ended retires (R295). -/
def State.retireKernel (s : State) (kid : Nat) : State :=
  match s.kernel? kid with
  | none => s
  | some k =>
    if !s.jobsEnded k then s
    else
      match s.completeKernel k 0 with
      | .ok s1 => s1.afterRetire k.ctx
      | .error s1 => s1

/-! ## Termination (R313) -/

/-- A core of a context that is terminated: nothing of its state stands but its push counter, its counts and the generations of its list
slots (R127, R239, R313). -/
def Core.wipe (c : Core) : Core :=
  { coreReset with
    push := c.push, replays := c.replays, hdrCorr := c.hdrCorr
    a := idleStream c.a.lists, x := idleStream c.x.lists, m := idleStream c.m.lists, c := idleStream c.c.lists }

/-- The cores of a context: those that it owns and those of its kernels. -/
def State.coresOf (s : State) (ctx : Nat) : List Nat :=
  (upto 512).filter fun c =>
    (s.owner (clusterOf c) ctx).core.getLsbD (c % 4) ||
      s.kernels.any fun k => k.ctx == ctx && k.placed && k.cores.contains c && (s.core c).kernel == some k.id

/-- The L2 lines of a context invalidated without write-back: every reader sees their bytes as HBM holds them (R313). -/
def State.dropLinesOf (s : State) (ctx : Nat) : State :=
  let gone := (s.l2.filter fun x => !x.2.nc && x.2.owner == ctx).map (·.1)
  { s.settleLines gone.contains with l2 := s.l2.filter fun x => x.2.nc || x.2.owner != ctx }

/-- What a cluster keeps of a context that is terminated: no ACM bank, tile entry, held range, ring binding or mark of a save; its owner
masks are cleared last (R297, R313). -/
def Cluster.without (c : Cluster) (cl ctx : Nat) (cores : List Nat) : Cluster :=
  let o := match c.owners.find? (·.1 == ctx) with | some o => o.2 | none => ⟨0, 0, 0⟩
  { c with
    acmAlloc := c.acmAlloc.mapIdx fun n a => if o.acm.getLsbD n then none else a
    tiles := c.tiles.map fun t => if t.any fun x => x.owner == ctx then none else t
    ranges := c.ranges.filter fun r => !cores.contains r.core
    rings := c.rings.map fun r => if r.bound.any fun b => cores.contains b && clusterOf b == cl then ⟨none, []⟩ else r
    stopped := c.stopped.filter (· != ctx), shifted := c.shifted.filter (· != ctx), restored := c.restored.filter (· != ctx)
    resumed := c.resumed.filter (· != ctx), badSegs := c.badSegs.filter fun g => !(o != ⟨0, 0, 0⟩ && o.ownsSeg g.1 g.2) }

/-- A context with every field of its tenancy at its start value; its partition and its requests to the host stay (R329, R367). -/
def Context.freed (c : Context) : Context := { contextReset with part := c.part, ats := c.ats, pri := c.pri }

/-- The kernels of a context completed in order with a status; the error is a state in which a store of DONE waits. -/
def State.completeAll (s : State) (status : Nat) : List Kernel → Except State State
  | [] => .ok s
  | k :: ks =>
    match s.completeKernel k status with
    | .error s1 => .error s1
    | .ok s1 => s1.completeAll status ks

/-- PKILL of a partition when the termination of a context has completed (R367). -/
def Partition.killed (p : Partition) (ctx : Nat) : Partition :=
  if p.pkill.getLsbD 63 && field p.pkill 9 0 == ctx then { p with pkill := setBit p.pkill 63 false } else p

/-- The steps of a termination before its kernels complete: its cores stop and keep nothing, its transactions, journals, windows and lists
with them; its lines are invalid; its banks, entries, pins and intakes are free (R313). It is done once, however long a kernel's completion waits. -/
def State.dismantle (s : State) (ctx : Nat) : State :=
  let cores := s.coresOf ctx
  let s1 := (cores.foldl (fun s c => s.updCore c fun x => { x.wipe with kernel := x.kernel }) s).dropLinesOf ctx
  { s1.updCtx ctx fun c => { c with dismantled := true } with
    clusters := s1.clusters.mapIdx fun i c => Cluster.without c i ctx cores
    queues := s1.queues.filter fun q => q.ctx != ctx
    pins := s1.pins.filter fun q => !cores.contains q.core }

/-- The owner masks of a context cleared in every cluster (R297, R313). -/
def State.disown (s : State) (ctx : Nat) : State :=
  { s with clusters := s.clusters.map fun c => { c with owners := c.owners.filter fun x => x.1 != ctx } }

/-- The termination of a context completes: its steps in the order of R313, then the context is FREE and GO reads 0 (R296,
R313, R367; DEDUCED log 30). -/
def State.terminate (s : State) (ctx : Nat) : State :=
  if (s.ctx ctx).state ≠ .terminating then s
  else
    let status := match (s.ctx ctx).status with | some b => b.toNat | none => 0x0C
    let s1 := if (s.ctx ctx).dismantled then s else s.dismantle ctx
    match s1.completeAll status (s1.kernels.filter fun k => k.ctx == ctx) with
    | .error s2 => s2
    | .ok s2 => ((s2.disown ctx).updCtx ctx Context.freed).updPart (s.ctx ctx).part fun p => p.killed ctx

/-! ## The events -/

/-- FRONT_END_CONSUME (R292). -/
def execEvFrontEndConsume (part : BitVec 4) (queue : BitVec 10) (s : State) : Outcome State Fault Refusal :=
  .next (s.frontEnd part.toNat queue.toNat)
/-- KERNEL_PLACE (R290, R291). -/
def execEvKernelPlace (kid : Nat) (cores : List Nat) (s : State) : Outcome State Fault Refusal := .next (s.placeKernel kid cores)
/-- JOB_END (R82). -/
def execEvJobEnd (core : Nat) (s : State) : Outcome State Fault Refusal := .next (s.endJob core)
/-- KERNEL_RETIRE (R295). -/
def execEvKernelRetire (kid : Nat) (s : State) : Outcome State Fault Refusal := .next (s.retireKernel kid)
/-- TERMINATION_COMPLETE (R313). -/
def execEvTerminationComplete (ctx : Nat) (s : State) : Outcome State Fault Refusal := .next (s.terminate ctx)

end Sys2Proof.Machine
end

