-- ==== Sys2Proof/Machine/EngineEv.lean ====
section
/-! DEFINITION. The events of a core's engines: copies, products, markers, replay windows and the backsight (R128, R131, R147,
R150, R222, R225, R236, R310, R350). An event that its conditions do not allow leaves the state unchanged. -/

namespace Sys2Proof.Machine

open Host (Outcome)

/-- A change of the state that only a core with running clocks makes (DEDUCED log 65). -/
def State.whenClocked (s : State) (core : Nat) (f : State → State) : State := if s.clocked core then f s else s

/-! ## Markers (R131) -/

/-- A marker has acted: it leaves its queue, and the backsight notes it (R131, R350). -/
def State.markerOver (s : State) (core : Nat) (t : FlagTarget) (q : QEntry) : State :=
  (s.updCore core fun c => c.setQueue t (dropEntry (c.queueOf t) q.seq)).noteIssue core q

/-- The FSET or FCLR marker at the very front of a queue acts: every earlier entry has completed (R128, R131). -/
def State.markerAct (s : State) (core : Nat) (t : FlagTarget) (clear : Bool) : State :=
  match ((s.core core).queueOf t).head? with
  | none => s
  | some q =>
    let drop (s : State) : State := s.markerOver core t q
    match q.cmd with
    | .fset n => if clear then s else drop (s.fireFlag core n q.seq q.by_)
    | .fclr n => if clear then drop (s.clearFlag core n q.seq q.by_) else s
    | .copy _ => s | .mgo _ _ => s | .coll _ => s | .collw _ _ => s | .fwait _ _ => s

/-- The FWAIT marker at the head of a queue issues once its flag has fired far enough (R128, R131). -/
def State.fwaitIssue (s : State) (core : Nat) (t : FlagTarget) : State :=
  match headOf ((s.core core).queueOf t) with
  | none => s
  | some q =>
    match q.cmd with
    | .fwait n need =>
      if need ≤ ((s.core core).flag n).fire then s.markerOver core t q else s
    | .copy _ => s | .mgo _ _ => s | .coll _ => s | .collw _ _ => s | .fset _ => s | .fclr _ => s

/-! ## Replay windows and the backsight (R150, R350) -/

/-- Whether a command of a core has not completed. -/
def Core.pending (c : Core) (seq : Nat) : Bool := (c.copyQ ++ c.matQ ++ c.colQ).any fun q => q.seq == seq

/-- A replay window retires when no mark follows and its commands have completed (R150; DESIGN CHOICE log 3). -/
def State.windowRetire (s : State) (core : Nat) : State :=
  let c := s.core core
  if c.winHold && c.window.all fun q => !c.pending q.seq then s.retireWindow core else s

/-- The partition that owns a logical cluster. -/
def State.ownerOfCluster (s : State) (cl : Nat) : Option Nat := (upto 16).find? fun p => (s.part p).pclu.getLsbD cl

/-- A failure reported to Ramner by an ERROR event of the partition that has it, if any has (R344, R346). -/
def State.reportFor (s : State) (p : Option Nat) : State := match p with | some p => s.reportFault p | none => s

/-- The physical cluster that a logical cluster's entry names, when the entry is VALID (R348). -/
def State.mapped (s : State) (cl : Nat) : Option Nat :=
  let m := s.coreMap.getD cl 0
  if m.getLsbD 7 then some (m.setWidth 5).toNat else none

/-- The physical cluster that a whole one maps a logical cluster to. -/
def State.mappedWhole (s : State) (cl : Nat) : Option Nat := (s.mapped cl).filter fun p => !(s.die (cl / 16)).broken.contains p

/-- The physical cluster for a logical one: the mapped one when it is whole, else the die's lowest unused one (R9, R348). -/
def State.physFor (s : State) (cl : Nat) : Option Nat :=
  match s.mappedWhole cl with
  | some p => some p
  | none =>
    let used := (upto 16).filterMap fun i => s.mappedWhole (16 * (cl / 16) + i)
    (upto 17).find? fun p => !used.contains p && !(s.die (cl / 16)).broken.contains p

/-- A logical cluster whose physical cluster failed and for which the die has no unused one left: its map entry is invalid and the contexts
with cores there are terminated (R348). -/
def State.unmap (s : State) (cl : Nat) : State :=
  if (s.mapped cl).isNone || (s.physFor cl).isSome then s
  else
    (s.cluster cl).owners.foldl (fun s o => if o.2.core != 0 then s.contextFault o.1 else s)
      { s with coreMap := s.coreMap.setIfInBounds cl 0, cluUp := setBit s.cluUp cl false }

/-- A logical cluster fenced: the physical cluster that it has, or that is tested for it, is broken, its READY bit clears and an ERROR event
says so; with no unused cluster on the die its entry is invalid (R344, R346 to R349). -/
def State.fenceCluster (s : State) (cl : Nat) : State :=
  let s1 := { s with cluUp := setBit s.cluUp cl false }.reportFor (s.ownerOfCluster cl)
  match (s1.mapped cl).or (s1.physFor cl) with
  | some p => (s1.updDie (cl / 16) fun x => { x with broken := x.broken ++ [p] }).unmap cl
  | none => s1

/-! ## The backsight (R16, R350) -/

/-- Whether a stream is one that the backsight executes again (R16). -/
def backed (k : StreamId) : Bool := k == .M || k == .C

/-- The command that meets its twin: the head of an engine queue, pushed by M or C (R16; DEDUCED log 34). -/
def Core.twinHead (c : Core) : Option Nat :=
  ([c.matQ, c.copyQ, c.colQ].findSome? fun q => (headOf q).filter fun e => backed e.by_).map (·.seq)

/-- A command that a return to the mark takes off its queue: M or C pushed it since, and it has not issued (R350). -/
def Backsight.undoes (b : Backsight) (q : QEntry) : Bool :=
  !q.issued && match q.by_ with
    | .M => b.m.any fun m => decide (m.push ≤ q.seq)
    | .C => b.c.any fun m => decide (m.push ≤ q.seq)
    | .A => false
    | .X => false

/-- A command that M or C pushes again after a return to the mark, having issued since (R350). -/
def Backsight.repeats (b : Backsight) (q : QEntry) : Bool :=
  match q.by_ with
  | .M => b.m.any fun m => decide (m.push ≤ q.seq)
  | .C => b.c.any fun m => decide (m.push ≤ q.seq)
  | .A => false
  | .X => false

/-- A command put among others by its push number. -/
def insSeq (q : QEntry) : List QEntry → List QEntry
  | [] => [q]
  | e :: l => if q.seq < e.seq then q :: e :: l else e :: insSeq q l

/-- Commands in the order in which they were pushed, in which a replay pushes them again (R127, R350). -/
def bySeq (l : List QEntry) : List QEntry := l.foldl (fun l q => insSeq q l) []

/-- A stream returned to the mark (R350): in RUN, with no access in flight; its copies and collectives that stand go on. -/
def Stream.toMark (t : Stream) (m : Snap) (gone : Nat → Bool) : Stream :=
  let l := t.remote.filter fun r => match r.kind with
    | .coll seq => !gone seq
    | .copy _ => true | .line _ _ _ _ => true
    | .load _ _ _ _ => false | .vload _ _ => false | .store _ => false | .atom _ _ _ => false
  { t with
    st := .run, hart := m.hart, fpm := m.fpm, trapvec := m.trapvec, tcause := m.tcause, tepc := m.tepc, tval := m.tval, tprc := m.tprc,
    scopemode := m.scopemode, lists := m.lists, held := none, heldArena := false, waiting := none, loads := []
    remote := l, mark := if l.isEmpty then none else t.mark, journal := if l.isEmpty then [] else t.journal
    vecPos := 0, vecGot := [], vstPos := 0 }

/-- M, C and the backsight of a core returned to the mark, from which both re-execute; the command that failed to match is noted (R350;
DEDUCED log 34). -/
def Core.toMark (c : Core) (bad : Nat) : Core :=
  let b := c.back
  let gone (n : Nat) : Bool := (c.copyQ ++ c.matQ ++ c.colQ).any fun q => q.seq == n && b.undoes q
  let left (q : List QEntry) : List QEntry := q.filter fun e => !b.undoes e
  { c with
    m := match b.m with | some m => c.m.toMark m gone | none => c.m
    c := match b.c with | some m => c.c.toMark m gone | none => c.c
    table := match b.m with | some m => m.table | none => c.table
    collPushed := match b.c with | some m => m.collPushed | none => c.collPushed
    collwMarks := match b.c with | some m => m.collwMarks | none => c.collwMarks
    copyQ := left c.copyQ, matQ := left c.matQ, colQ := left c.colQ
    back := { b with again := bySeq (b.issued.filter b.repeats), fault := some bad }
    replays := c.replays + 1 }

/-- A command fails to match its backsight twin: it does not issue, and M and C return to the mark; a mismatch in that replay, or the
fourth replay in 10^9 cycles, terminates the context and fences the cluster (R350; DEDUCED log 34). The event says whether the
replays before it lie in that time (log 3). -/
def State.mismatch (s : State) (core : Nat) (escalate : Bool) : State :=
  let c := s.core core
  match c.twinHead with
  | none => s
  | some bad =>
    if c.back.fault.isSome || (escalate && decide (3 ≤ c.replays)) then
      ((s.contextFault (s.ctxOf core)).updCore core fun c => { c with replays := 0, back := backReset }).fenceCluster (clusterOf core)
    else s.updCore core fun c => c.toMark bad

/-! ## The events -/

/-- COPY_ISSUE (R128). -/
def execEvCopyIssue (core : Nat) (s : State) : Outcome State Fault Refusal := .next (s.whenClocked core fun s => s.copyIssue core)
/-- COPY_COMPLETE (R147). -/
def execEvCopyComplete (core seq n : Nat) (s : State) : Outcome State Fault Refusal :=
  .next (s.whenClocked core fun s => s.copyComplete core seq n)
/-- FLAG_FIRE (R131). -/
def execEvFlagFire (core : Nat) (t : FlagTarget) (s : State) : Outcome State Fault Refusal :=
  .next (s.whenClocked core fun s => s.markerAct core t false)
/-- FLAG_CLEAR_ACT (R131). -/
def execEvFlagClearAct (core : Nat) (t : FlagTarget) (s : State) : Outcome State Fault Refusal :=
  .next (s.whenClocked core fun s => s.markerAct core t true)
/-- FWAIT_MARKER_ISSUE (R131). -/
def execEvFwaitMarkerIssue (core : Nat) (t : FlagTarget) (s : State) : Outcome State Fault Refusal :=
  .next (s.whenClocked core fun s => s.fwaitIssue core t)
/-- MGO_ISSUE (R222). -/
def execEvMgoIssue (core : Nat) (s : State) : Outcome State Fault Refusal := .next (s.whenClocked core fun s => s.mgoIssue core)
/-- FOLD_ENTRY: an array cycle (R225, R229). -/
def execEvFoldEntry (core : Nat) (s : State) : Outcome State Fault Refusal := .next (s.whenClocked core fun s => s.foldEntry core)
/-- ARRAY_RESUME (R236, R237). -/
def execEvArrayResume (core : Nat) (ok : Bool) (s : State) : Outcome State Fault Refusal :=
  .next (s.whenClocked core fun s => s.arrayResume core ok)
/-- REPLAY_WINDOW_RETIRE (R150). -/
def execEvReplayWindowRetire (core : Nat) (s : State) : Outcome State Fault Refusal :=
  .next (s.whenClocked core fun s => s.windowRetire core)
/-- ENGINE_UE_REPLAY (R310). -/
def execEvEngineUeReplay (core line : Nat) (s : State) : Outcome State Fault Refusal :=
  .next (s.whenClocked core fun s => s.ueReplay core line)
/-- BACKSIGHT_MISMATCH (R350). -/
def execEvBacksightMismatch (core : Nat) (escalate : Bool) (s : State) : Outcome State Fault Refusal :=
  .next (s.whenClocked core fun s => s.mismatch core escalate)

end Sys2Proof.Machine
end

