-- ==== Sys2Proof/Machine/CollEv.lean ====
section
/-! DEFINITION. The events of a kernel's groups: collectives (R129, R279 to R283), the superstep barrier and the communication
phase of an exchange plan (R271 to R273). -/

namespace Sys2Proof.Machine

open Host (Outcome)

/-! ## Members (R279) -/

/-- The cores of this package among the members of a core's collectives at tier n, in member order. -/
def Kernel.localMembers (k : Kernel) (n core : Nat) : List Nat := k.groupCores n core
/-- The member index of a core of this package (R279): by PGT rank, then by logical core. -/
def Kernel.memberIndex (k : Kernel) (n core : Nat) : Nat :=
  (if tierDom (k.tier n) = 5 then (k.groupOf n core .A).2 * k.cores.length else 0) + (k.localMembers n core).idxOf core

/-- The collective that an entry holds. -/
def QEntry.coll? (q : QEntry) : Option CollCmd :=
  match q.cmd with
  | .coll c => some c
  | .copy _ => none | .mgo _ _ => none | .collw _ _ => none | .fset _ => none | .fwait _ _ => none | .fclr _ => none

/-! ## Issue (R129, R149, R280) -/

/-- The tile and staging ranges that a collective claims for a member (R149, R280); BC reads at member 0 only (R279; DEDUCED log 31). -/
def collRanges (k : Kernel) (c : CollCmd) (core seq : Nat) : List HeldRange :=
  let n := collCounts c.kind c.count (k.collMembers c.tier core)
  let w := widen core seq (n.2 * collSize c.ty) true [] c.dst
  if c.kind = .bc ∧ k.memberIndex c.tier core ≠ 0 then w else widen core seq (n.1 * collSize c.ty) false w c.src

/-- Whether the tiles that a collective reads are READY: a defined tile that its source in tile space meets (R18, R128; DEDUCED log 88). -/
def State.collTiles (s : State) (cl : Nat) (rs : List HeldRange) : Bool :=
  (rs.filter fun r => r.slice.isNone && !r.write).all fun r => (s.cluster cl).tiles.toList.all fun o => o.all fun x =>
    x.state == .ready || !meets (tdBase x.desc) (tdBase x.desc + tdSize x.desc - 1) r.lo r.hi

/-- A command of a core's collective queue taken by the engine: its core is the one last served (R129). -/
def State.collTaken (s : State) (core : Nat) (q : QEntry) : State :=
  (s.updCore core fun x => { x with colQ := setEntry x.colQ q }).updCluster (clusterOf core) fun x => { x with lastServed := core % 4 }

/-- The command at the head of a core's collective queue issued, if it can: a collective claims its ranges (R128, R149, R280); a COLLW,
which has none, takes its turn as a command of the queue (R126; DESIGN CHOICE log 80). -/
def State.collTake (s : State) (core : Nat) : Option State :=
  match headOf (s.core core).colQ with
  | none => none
  | some q =>
    if !s.clocked core || (s.core core).ueHeld then none
    else
      match q.cmd with
      | .coll c =>
        (match s.kernelOf core with
         | none => none
         | some k =>
           let rs := collRanges k c core q.seq
           if !s.collTiles (clusterOf core) rs then none
           else (s.claim core rs).map fun s1 =>
             let q' := { q with issued := true, ranges := rs }
             (s1.joinWindow core q').collTaken core q')
      | .collw _ _ =>
        let q' := { q with issued := true }
        some ((s.noteIssue core q').collTaken core q')
      | .copy _ => none | .mgo _ _ => none | .fset _ => none | .fwait _ _ => none | .fclr _ => none

/-- The cores of a cluster in the order in which the collective engine serves them now (R129). -/
def State.serveOrder (s : State) (cl : Nat) : List Nat := (upto 4).map fun i => 4 * cl + ((s.cluster cl).lastServed + 1 + i) % 4

/-- A core's command issues in its round-robin turn (R129). -/
def State.collIssue (s : State) (core : Nat) : State :=
  if (s.serveOrder (clusterOf core)).find? (fun c => (s.collTake c).isSome) = some core then (s.collTake core).getD s else s

/-! ## Combining (R279, R281) -/

/-- A fold of two elements of a type. -/
def collElem (op : CollOp) (ty : CollType) (a b : Nat) : Nat :=
  let lt : Bool :=
    match ty with
    | .i32 => decide ((BitVec.ofNat 32 a).toInt < (BitVec.ofNat 32 b).toInt)
    | .u32 => decide (a < b) | .f32 => false | .bf16 => false
  match ty, op with
  | .f32, .sum => (fp32.fadd .rne a b).1
  | .f32, .max => fp32.minMax true a b
  | .f32, .min => fp32.minMax false a b
  | .bf16, .sum => (bf16.fadd .rne a b).1
  | .bf16, .max => bf16.minMax true a b
  | .bf16, .min => bf16.minMax false a b
  | .i32, .sum => (a + b) % 2 ^ 32
  | .i32, .max => if lt then b else a
  | .i32, .min => if lt then a else b
  | .u32, .sum => (a + b) % 2 ^ 32
  | .u32, .max => if lt then b else a
  | .u32, .min => if lt then a else b

/-- The elements that bytes hold, n bytes each. -/
def elemsOf (n : Nat) : Nat → List Byte → List Nat
  | 0, _ => []
  | k + 1, bs => leNat (bs.take n) :: elemsOf n k (bs.drop n)

/-- Two rows of elements combined; the first one's length stands. -/
def combine (op : CollOp) (ty : CollType) (a b : List Nat) : List Nat := (a.zip b).map fun x => collElem op ty x.1 x.2

/-- Rows combined in their order. -/
def combineAll (op : CollOp) (ty : CollType) : List (List Nat) → List Nat
  | [] => []
  | a :: l => l.foldl (combine op ty) a

/-- The partial results of the clusters: each combines its members in ascending member index (R281). -/
def clusterPartials (op : CollOp) (ty : CollType) (rows : List (Nat × List Nat)) : List (List Nat) :=
  (nubNat (rows.map fun r => clusterOf r.1)).map fun cl =>
    combineAll op ty ((rows.filter fun r => clusterOf r.1 == cl).map (·.2))

/-- The reduction of partial results in an order of arrival, if it is an order of all of them (R281; DESIGN CHOICE log 13). -/
def reduceIn (op : CollOp) (ty : CollType) (parts : List (List Nat)) (order : List Nat) : Option (List Nat) :=
  if order.length = parts.length && (upto parts.length).all order.contains then
    some (combineAll op ty (order.map fun i => parts.getD i []))
  else none

/-- What each member of this package receives (R279), by member index: `mine` are this package's members with their elements, in
member order, `peers` what the other packages send (their clusters' partial results, or their members' sources), g the number of
members (DESIGN CHOICE log 13). -/
def collResult (c : CollCmd) (g : Nat) (mine : List (Nat × List Nat)) (idx : Nat → Nat) (peers : List (List Nat)) (order : List Nat) :
    Option (Nat → List Nat) :=
  match c.kind with
  | .ar => (reduceIn c.op c.ty (clusterPartials c.op c.ty mine ++ peers) order).map fun r _ => r
  | .rs => (reduceIn c.op c.ty (clusterPartials c.op c.ty mine ++ peers) order).map fun r m => (r.drop (m * c.count)).take c.count
  | .ag =>
    if mine.length + peers.length ≠ g then none
    else
      let first := idx ((mine.headD (0, [])).1)
      some fun _ => (peers.take first ++ mine.map (·.2) ++ peers.drop first).flatten
  | .bc =>
    match mine.find? fun m => idx m.1 == 0 with
    | some m => some fun _ => m.2
    | none => (match peers with | [p] => some fun _ => p | _ => none)

/-! ## Completion (R280, R282) -/

/-- A core's issued collective of a tier with an ordinal. -/
def Core.collAt (c : Core) (tier ordinal : Nat) : Option (QEntry × CollCmd) :=
  c.colQ.findSome? fun q =>
    match q.coll? with
    | some x => if q.issued && x.tier == tier && x.ordinal == ordinal then some (q, x) else none
    | none => none

/-- The remote transaction of a collective over (R306). -/
def State.collAnswered (s : State) (core : Nat) (seq : Nat) : State :=
  match (s.strm core .C).remote.find? fun r => r.kind == .coll seq with
  | some r => s.remoteDone core .C r.tag
  | none => s

/-- Whether two matching commands agree (R280). -/
def CollCmd.agrees (a b : CollCmd) : Bool := a.kind == b.kind && a.op == b.op && a.ty == b.ty && a.count == b.count

/-- The first collective that a core has issued and not completed. -/
def Core.firstColl (c : Core) : Option CollCmd := (c.colQ.filter (·.issued)).findSome? QEntry.coll?

/-- Whether other packages take part in a tier's collectives. -/
def Kernel.hasPeers (k : Kernel) (n : Nat) : Bool := tierDom (k.tier n) == 5 && decide (1 < tierExt (k.tier n))

/-- A member's matching entry of a collective: the core, the entry, the command. -/
structure CollPart where
  core : Nat
  q : QEntry
  cmd : CollCmd
  deriving DecidableEq, Repr

/-- The matching entries of some members that have issued. -/
def State.collParts (s : State) (ms : List Nat) (c : CollCmd) : List CollPart :=
  ms.filterMap fun m => ((s.core m).collAt c.tier c.ordinal).map fun x => ⟨m, x.1, x.2⟩

/-- The transfer of a member's collective. -/
def CollPart.xfer (p : CollPart) : Xfer := ⟨true, p.q.seq⟩
/-- The state in which the collective engine acts for a member. -/
def State.asMember (s : State) (p : CollPart) : State := { s with cur := .stream p.core .C }

/-- The bytes that a member's source has: none of a member that BC does not read (R279). -/
def CollPart.srcBytes (k : Kernel) (p : CollPart) : Nat :=
  if p.cmd.kind = .bc ∧ k.memberIndex p.cmd.tier p.core ≠ 0 then 0
  else (collCounts p.cmd.kind p.cmd.count (k.collMembers p.cmd.tier p.core)).1 * collSize p.cmd.ty

/-- The remote lines of every member's source asked for: whether all have been answered (R331). -/
def State.collAsk (s : State) (k : Kernel) : List CollPart → Except Act (Bool × State)
  | [] => .ok (true, s)
  | p :: l => do
    let n := p.srcBytes k
    let (b, s1) ← if cspace p.cmd.src = some .global then (s.asMember p).xferAsk p.xfer 0 (cutPieces p.cmd.src n n) else .ok (true, s)
    let (c, s2) ← s1.collAsk k l
    .ok (b && c, s2)

/-- The sources of members read in order, on the collective path (R282). -/
def State.collSources (s : State) (k : Kernel) : List CollPart → Except Act (List (Nat × List Nat) × State)
  | [] => .ok ([], s)
  | p :: l => do
    let (b, s1) ← if p.srcBytes k = 0 then Except.ok ([], s) else (s.asMember p).xferRead p.xfer p.cmd.src (p.srcBytes k)
    let (r, s2) ← s1.collSources k l
    .ok ((p.core, elemsOf (collSize p.cmd.ty) (p.srcBytes k / collSize p.cmd.ty) b) :: r, s2)

/-- A member's entry with the bytes that its destination receives, and how far they are written. -/
def State.setCollProg (s : State) (p : CollPart) (g : Prog) : State :=
  s.updCore p.core fun x => { x with colQ := setEntry x.colQ { p.q with prog := g } }

/-- The results of a collective combined from the members' sources and what the other packages send, and given to every member (R279,
R281): nothing while a source is not all there, no state when the event's order or partial results are not those of one (DESIGN
CHOICE log 13). A domain tier's reduction has a partial result of every other package at least. -/
def State.collGather (s : State) (k : Kernel) (c : CollCmd) (ps : List CollPart) (order : List Nat) (peers : List (List Byte)) :
    Except Act (Option State) :=
  let core := (ps.map (·.core)).headD 0
  let g := k.collMembers c.tier core
  let n := (collCounts c.kind c.count g).1
  if (c.kind = .ar ∨ c.kind = .rs) ∧ k.hasPeers c.tier ∧ peers.length + 1 < tierExt (k.tier c.tier) then .ok none
  else do
    let (there, s1) ← s.collAsk k ps
    if !there then .error (.wait (.requests [] true) s1)
    else
      let (mine, s2) ← s1.collSources k ps
      .ok ((collResult c g mine (k.memberIndex c.tier) (peers.map (elemsOf (collSize c.ty) n)) order).map fun f =>
        ps.foldl (fun s p =>
          s.setCollProg p ⟨some ((f (k.memberIndex c.tier p.core)).flatMap fun v => leBytes (collSize c.ty) v), 0⟩) s2)

/-- A collective is over at a member: its entry leaves the queue (R282). -/
def State.collOver (s : State) (p : CollPart) : State :=
  ((s.updCore p.core fun x => { x with colQ := dropEntry x.colQ p.q.seq }).releaseRanges p.core p.q.seq).collAnswered p.core p.q.seq

/-- A member's collective held at a fault that may be lifted (R148, R310, R321), or no longer held. -/
def State.holdColl (s : State) (core : Nat) (t : Option Trap) : State := s.updCore core fun x => { x with collHeld := t }

/-- Whether a collective may yet go on after a fault that it meets for a member (R148, R310, R320, R321). -/
def State.collWaits (s : State) (t : Trap) : Bool := s.pageWaits s.curCl s.curCtx t || ueTrap t

/-- Members' destinations written as far as they go: each member whose destination holds the result is over, one that meets a fault which
may be lifted is held (R148, R282). The fault that ends the collective, if one does. -/
def State.collScatter (s : State) : List CollPart → Option Trap × State
  | [] => (none, s)
  | p :: l =>
    if (s.core p.core).collHeld.isSome then s.collScatter l
    else
      match (s.asMember p).xferPut p.xfer p.cmd.dst (p.q.prog.data.getD []) p.q.prog.lines with
      | (_, .over, s1) => (s1.collOver p).collScatter l
      | (g, .busy, s1) => (s1.setCollProg p g).collScatter l
      | (_, .fault t, s1) =>
        let s2 := s1.setCollProg p ⟨p.q.prog.data, 0⟩
        if s1.collWaits t then (s2.holdColl p.core (some t)).collScatter l else (some t, s2)

/-- The destinations of a collective written as far as they go, a fault that cannot be lifted ending the context (R148, R282). -/
def State.collPut (s : State) (cur : Agent) (ctx : Nat) (ps : List CollPart) : State :=
  match s.collScatter ps with
  | (some t, s1) => ({ s1 with cur := cur } : State).contextFault ctx (some t)
  | (none, s1) => { s1 with cur := cur }

/-- The collective of a core and its matching ones go on: its sources are read and combined when every local member's has issued, then each
member's is over as soon as its own destination holds the result; a wait or a fault that may be lifted leaves them where they stand (R148,
R281, R282; DEDUCED log 31). -/
def State.collFinish (s : State) (k : Kernel) (core : Nat) (c : CollCmd) (order : List Nat) (peers : List (List Byte)) : State :=
  let ms := k.localMembers c.tier core
  let ps := s.collParts ms c
  if ms.any fun m => (s.core m).ueHeld then s
  else if ps.any fun p => p.q.prog.data.isSome then s.collPut s.cur k.ctx (ps.filter fun p => p.q.prog.data.isSome)
  else if ps.length ≠ ms.length ∨ (!k.hasPeers c.tier ∧ !peers.isEmpty) ∨ ms.any fun m => (s.core m).collHeld.isSome then s
  else if !ps.all fun p => c.agrees p.cmd then s.contextFault k.ctx
  else
    match s.collGather k c ps order peers with
    | .ok none => s
    | .ok (some s1) => s1.collPut s.cur k.ctx (s1.collParts ms c)
    | .error (.trap t s1) =>
      if s1.collWaits t then { s1.holdColl s1.curCore (some t) with cur := s.cur }
      else ({ s1 with cur := s.cur } : State).contextFault k.ctx (some t)
    | .error (.wait _ s1) => { s1 with cur := s.cur }
    | .error (.done _) => s
    | .error (.jump _) => s

/-- COLL_COMPLETE: with a result; or a peer passes the remote timeout or differs, which is a context fault (R280, R282). -/
def State.collComplete (s : State) (core : Nat) (how : CollEnd) : State :=
  match (s.core core).firstColl, s.kernelOf core with
  | some c, some k =>
    if !(k.localMembers c.tier core).all s.clocked then s
    else
      match how with
      | .result order peers => s.collFinish k core c order peers
      | .timeout => if k.hasPeers c.tier then s.contextFault k.ctx else s
      | .mismatch => if k.hasPeers c.tier then s.contextFault k.ctx else s
  | _, _ => s

/-- Whether a member has completed every collective at a tier that it pushed before its COLLW with an ordinal (R282). -/
def Core.collwDone (c : Core) (tier ordinal : Nat) : Bool :=
  match (c.collwMarks.getD tier [])[ordinal]? with
  | none => false
  | some m => !c.colQ.any fun q => match q.coll? with | some x => x.tier == tier && decide (x.ordinal < m) | none => false

/-- Whether a COLLW that has issued is complete (R282). -/
def State.collwOver (s : State) (core : Nat) (q : QEntry) : Bool :=
  match q.cmd, s.kernelOf core with
  | .collw tier ordinal, some k =>
    q.issued && (!tierV (k.tier tier) || (k.localMembers tier core).all fun m => (s.core m).collwDone tier ordinal)
  | _, _ => false

/-- The first COLLW of a core that is complete leaves its queue (R282). -/
def State.collwComplete (s : State) (core : Nat) : State :=
  match (s.core core).colQ.find? (s.collwOver core) with
  | some q => s.updCore core fun c => { c with colQ := dropEntry c.colQ q.seq }
  | none => s

/-! ## The superstep barrier (R271, R273) -/

/-- Whether a stream counts as arrived at the superstep barrier: it has executed SSYNC, or its job is over and it stays IDLE or ended, at the
later supersteps of its kernel too (R271; DESIGN CHOICE log 99). -/
def Stream.atSuperstep (t : Stream) : Bool := (t.ssynced && t.ssOut.isNone) || t.ended
/-- Whether a core has arrived (R271). -/
def Core.atSuperstep (c : Core) : Bool :=
  allStreams.all (fun k => (c.strm k).atSuperstep) && c.copyQ.isEmpty && c.matQ.isEmpty && c.colQ.isEmpty

/-- The last core has arrived: the communication phase opens (R271). -/
def State.superstep (s : State) (kid : Nat) : State :=
  match s.kernel? kid with
  | none => s
  | some k =>
    if k.placed && !k.comm && k.cores.all (fun c => s.clocked c && (s.core c).atSuperstep) &&
        k.cores.any (fun c => allStreams.any fun t => (s.strm c t).ssynced && (s.strm c t).ssOut.isNone) then
      s.updKernel kid fun k => { k with comm := true }
    else s

/-- The transfers of a plan in entry order, by the copy path of the kernel's first core (R273; DEDUCED log 32), from where the first of
them stands: how many are over, how far the next is, and why it goes no further. -/
def State.runPlan (s : State) (p : Prog) : List Transfer → Nat × Prog × XferEnd × State
  | [] => (0, p, .over, s)
  | t :: ts =>
    match [t.src, t.dst].find? fun y => s.spaceBroken y t.bytes with
    | some y => (0, p, .fault ⟨cACCESS, 0, y⟩, s)
    | none =>
      match s.xfer ⟨false, 0⟩ (.addr t.src) t.dst t.bytes p with
      | (_, .over, s1) =>
        let r := s1.runPlan ⟨none, 0⟩ ts
        (r.1 + 1, r.2)
      | (p1, r, s1) => (0, p1, r, s1)

/-- At most n further transfers of a kernel's plan, after which its phase is still at work unless they were the last (R273; DEDUCED log 32). -/
def State.planPart (s : State) (k : Kernel) (n : Nat) : Nat × Prog × XferEnd × State :=
  match s.runPlan k.commProg ((k.plan.transfers.drop k.commAt).take n) with
  | (m, p, .over, s1) => (m, p, if k.commAt + m < k.plan.transfers.length then .busy else .over, s1)
  | r => r

/-- A release as it stands after a superstep: its epochs are none of the new race state's (R263, R271). -/
def Release.past (r : Release) : Release := { r with epoch := 0, wider := r.wider.map fun x => (x.1, x.2.1, 0) }

/-- A stream that departs from the superstep barrier with a value for its register; its race state starts anew (R263, R271). -/
def Stream.depart (t : Stream) (v : Word) : Stream :=
  { t with
    w := Vector.replicate 16 0
    relFences := t.relFences.map fun f => { f with epoch := 0 }
    seen := t.seen.map Release.past
    ssOut := if t.ssynced && t.ssOut.isNone then some v else t.ssOut }

/-- The superstep of a kernel completes after its transfers: its race state is cleared, its number advances, its streams depart and
see on every path what its cores wrote (R271; DESIGN CHOICE log 72). The
overrun is open when the plan has a transfer (DESIGN CHOICE log 6). -/
def State.superstepOver (s : State) (k : Kernel) : State :=
  let late := if k.plan.transfers.isEmpty then 0 else s.free.1.toNat % 2 ^ 32
  let s1 := if k.plan.transfers.isEmpty then s else s.free.2
  let n := k.step + 1
  let s2 := s1.updKernel k.id fun k => { k with comm := false, step := n, race := [], commAt := 0, commProg := ⟨none, 0⟩ }
  let s3 := { s2 with releases := s2.releases.map fun (r : Release) => if r.kernel = some k.id then r.past else r }
  let s4 := s3.carryAll k.cores
  s4.mapCores k.cores fun t => (t.depart (BitVec.ofNat 64 (late * 2 ^ 32 + n % 2 ^ 32))).seeAll s4.stamp true

/-- The communication phase goes on with at most n transfers, and ends when all are done (R271, R273): a fault that may be lifted holds the
copy engine of the kernel's first core, and the transfer that meets it restarts; any other is a context fault. -/
def State.commEnd (s : State) (kid n : Nat) : State :=
  match s.kernel? kid with
  | none => s
  | some k =>
    let first := k.cores.headD 0
    if !k.comm || !k.cores.all s.clocked || (s.core first).copyStopped.isSome || (s.core first).ueHeld then s
    else
      let (m, p, r, s1) := ({ s with cur := .stream first .A } : State).planPart k n
      let keep (p : Prog) : State :=
        ({ s1 with cur := s.cur } : State).updKernel kid fun k => { k with commAt := k.commAt + m, commProg := p }
      match r with
      | .over => ({ s1 with cur := s.cur } : State).superstepOver k
      | .busy => keep p
      | .fault t =>
        if s1.collWaits t then (keep ⟨none, 0⟩).updCore first fun x => { x with copyStopped := some t }
        else (keep ⟨none, 0⟩).contextFault k.ctx (some t)

/-! ## The events -/

/-- COLL_ISSUE (R129, R280). -/
def execEvCollIssue (core : Nat) (s : State) : Outcome State Fault Refusal := .next (s.whenClocked core fun s => s.collIssue core)
/-- COLL_COMPLETE (R281, R282). -/
def execEvCollComplete (core : Nat) (how : CollEnd) (s : State) : Outcome State Fault Refusal :=
  .next (s.whenClocked core fun s => s.collComplete core how)
/-- COLLW_COMPLETE (R282). -/
def execEvCollwComplete (core : Nat) (s : State) : Outcome State Fault Refusal :=
  .next (s.whenClocked core fun s => s.collwComplete core)
/-- SUPERSTEP_COMPLETE (R271). -/
def execEvSuperstepComplete (kid : Nat) (s : State) : Outcome State Fault Refusal := .next (s.superstep kid)
/-- COMM_PHASE_END (R271, R273). -/
def execEvCommPhaseEnd (kid n : Nat) (s : State) : Outcome State Fault Refusal := .next (s.commEnd kid n)

end Sys2Proof.Machine
end

