-- ==== Sys2Proof/Machine/StreamEv.lean ====
section
/-! DEFINITION. The events that end a stream's wait, its loads and its held traps, and those of the walkers and the host's
translation service (R79, R84, R94, R99, R105, R319, R320). -/

namespace Sys2Proof.Machine

open Host (Outcome)

/-! ## Streams (R78, R79, R84, R94) -/

/-- Whether a named barrier lets a party arrive, or has left a generation (R268). -/
def State.barrierReady (s : State) (n i : Nat) (gen : Option Nat) : Bool :=
  match s.barKernel (BitVec.ofNat 3 n) (BitVec.ofNat 4 i) with
  | none => true
  | some k =>
    let b := k.barrier (s.barKey k (BitVec.ofNat 3 n) (BitVec.ofNat 4 i))
    match gen with
    | none => !b.arrived.contains (s.curCore, s.curSt)
    | some g => b.gen != g

/-- Whether what the current stream waits for is ready (R79). What only a station core waits for is no stream's. -/
def State.waitReady (s : State) (w : WaitFor) : Bool :=
  let t := s.me
  match w with
  | .dqEntry q => (s.dqOf q).pop.isSome
  | .dqSlot q => ((s.dqOf q).push 0).isSome
  | .bqEntry => (bqPop s.curSt (s.core s.curCore).bq).isSome
  | .bqSlot => decide ((s.core s.curCore).bq.length < 64)
  | .engineQueue tg => s.queueRoom tg
  | .flag n => ((s.core s.curCore).flag n).isSet
  | .memory line => !s.isLost line
  | .walk va =>
    !(s.die (dieOf s.curCore)).walks.contains ⟨s.curCtx, s.curCl, va / 65536⟩ && !(s.ctx s.curCtx).ats.contains (s.curCl, va / 4096)
  | .remoteLimit dest alone => s.remoteRoom s.curCore s.curSt dest alone
  | .markQuiet => s.markRoom s.curCore s.curSt
  | .journalFull => t.remote.isEmpty || decide (t.journal.length < s.journalRoom s.curCtx)
  | .remoteAnswer tag => !t.remote.any fun r => r.tag == tag && r.answer.isNone
  | .pinned line => !s.pinnedFor s.party line
  | .copies seqs => !(s.core s.curCore).copyQ.any fun q => seqs.contains q.seq
  | .tileRange lo hi => !(s.cluster s.curCl).ranges.any fun r => r.slice.isNone && !r.window && meets r.lo r.hi lo hi
  | .bankRange b => !(s.cluster s.curCl).holds (b * 0x20000) (b * 0x20000 + 0x1FFFF)
  | .matrix n => decide ((s.core s.curCore).pendMgos ≤ n)
  | .acmRows lo hi _ => (s.rowsPending lo hi).isEmpty
  | .barrier n i gen => s.barrierReady n i gen
  | .ssync => t.ssOut.isSome
  | .loads rs => if rs.isEmpty then t.loads.isEmpty else !rs.any s.regBusy
  | .requests tags reads =>
    !s.peerCores.any fun c => allStreams.any fun k =>
      (s.strm c k).remote.any (fun r => tags.contains r.tag) || (reads && (s.strm c k).loads.any (·.host))
  | .yielding => t.calm
  | .atsAnswers _ => true | .acceptedKey _ => true | .vecStores _ => true

/-- A waiting stream whose resource is ready is in RUN: its word is tried again (R79; DEDUCED log 65). -/
def State.waitEnd (s : State) (core : Nat) (k : StreamId) : State :=
  let t := s.strm core k
  if t.st = .wait ∧ t.waiting.all ({ s with cur := .stream core k } : State).waitReady then s.updStrm core k fun t => { t with st := .run } else s

/-- A stream that YIELD holds until its loads and remote transactions are over is YIELDED at the next word (R84). -/
def State.yielded (s : State) (core : Nat) (k : StreamId) : State :=
  s.updStrm core k fun t =>
    if t.st = .wait ∧ t.waiting = some .yielding ∧ t.calm ∧ t.hart.stat.getLsbD statYR then
      { t with st := .yielded, waiting := none, hart := { t.hart with pc := t.hart.pc + 1 } }
    else t

/-- The answer of a stream's load: its register or its slot is filled (R94). -/
def State.loadFill (s : State) (core : Nat) (k : StreamId) (i : Nat) : State :=
  match (s.strm core k).loads[i]? with
  | none => s
  | some l =>
    let s1 := s.updStrm core k fun t => { t with loads := t.loads.eraseIdx i }
    match l.slot with
    | none => s1.updStrm core k fun t => { t with hart := t.hart.put l.dst l.value }
    | some x => s1.fillSlot core x l.value

/-! ## The shadow handler (R79, R99, R105, R148, R244) -/

/-- A held stream resumes at a word with some registers. -/
def State.unhold (s : State) (core : Nat) (k : StreamId) (skip : Bool) (vs : List Word) : State :=
  s.updStrm core k fun t =>
    let x := (vs.take 7).zipIdx.foldl (fun (x : Vector Word 64) v => x.setIfInBounds (3 + v.2) v.1) t.hart.x
    { t with
      st := .run, held := none, heldArena := false
      hart := { t.hart with x := x, pc := if skip then t.hart.pc + 1 else t.hart.pc } }

/-- The trap that the shadow handler delivers: a page fault of the arena is ACCESS, SUB 0x21 (R244). -/
def Stream.deliverable (t : Stream) (u : Trap) : Trap := if t.heldArena then ⟨cACCESS, 0x21, u.tval⟩ else u

/-- The shadow handler ends its service of a held stream: a page fault that may be resolved resumes, any page fault may be delivered, but
one whose page request the host has still to answer; an ACCESS of a vector or block access is made again or delivered; a system call resumes
after the word with its results; UE is never ended so; a trap whose handler could not be read is delivered later (R99, R105, R211, R321, R365;
DEDUCED log 8, log 90). -/
def State.shadowStream (s : State) (core : Nat) (k : StreamId) (how : ShadowEnd) : State :=
  let t := s.strm core k
  match t.st, t.held with
  | .held, some u =>
    if u.cause = cPAGE then
      match how with
      | .resume => if pageResolvable u then s.unhold core k false [] else s
      | .deliver =>
        if s.pageAsked (clusterOf core) (s.ctxOf core) u then s
        else (s.updStrm core k fun t => { t with heldArena := false }).deliver core k (t.deliverable u) t.hart.pc
      | .results _ => s
    else if u.cause = cACCESS ∧ how = .resume then s.unhold core k false []
    else if u.cause = cSYSC then
      match how with
      | .resume => s.unhold core k true []
      | .results vs => s.unhold core k true vs
      | .deliver => s
    else if u.cause = cUE then s
    else match how with | .deliver => s.deliver core k u t.hart.pc | .resume => s | .results _ => s
  | _, _ => s

/-- The shadow handler ends its service of a page fault of the copy engine, which a communication phase uses too, or of a core's collective:
it resumes, or the context faults (R148, R273, R321; DEDUCED log 33). -/
def State.shadowCopy (s : State) (core : Nat) (how : ShadowEnd) : State :=
  let c := s.core core
  match (c.copyStopped.filter (·.cause == cPAGE)).or (c.collHeld.filter (·.cause == cPAGE)) with
  | none => s
  | some u =>
    match how with
    | .resume =>
      if !pageResolvable u then s
      else if c.copyStopped = some u then s.updCore core fun c => { c with copyStopped := none } else s.holdColl core none
    | .deliver =>
      if s.pageAsked (clusterOf core) (s.ctxOf core) u then s
      else if c.copyStopped = some u then s.copyFault core u else s.contextFault (s.ctxOf core) (some u)
    | .results _ => s

/-! ## Walks and host translations (R319, R320) -/

/-- A walk in flight finishes: its leaf enters the translation cache of every cluster that joined it, and it holds no walker
(R319). A fault or a host leaf is met by the accesses that waited, which translate again (DEDUCED log 36). -/
def State.walkDone (s : State) (die k : Nat) : State :=
  match (s.die die).walks[k]? with
  | none => s
  | some w =>
    let joined := (s.die die).walks.filter fun x => x.ctx == w.ctx && x.va == w.va
    let (r, s1) := s.walk die w.ctx (65536 * w.va)
    let s2 := s1.updDie die fun d => { d with walks := d.walks.filter fun x => !(x.ctx == w.ctx && x.va == w.va) }
    joined.foldl (fun s x => s.tlbFill x.cluster w.ctx (65536 * w.va) r) s2

/-- Whether a size is one that a host answers: a power of two from 4 KiB up (R320). -/
def atsSize (n : Nat) : Bool := decide (4096 ≤ n) && n == 2 ^ n.log2

/-- Whether an access that is held waits for the host to answer for a page of a context in a cluster (R320). -/
def heldFor (key : Nat × Nat) (t : Trap) : Bool := t.cause == cPAGE && t.sub == 4 && t.tval.toNat / 4096 == key.2

/-- Whether a stream or an engine of a core is held for a page. -/
def Core.heldFor (c : Core) (key : Nat × Nat) : Bool :=
  (allStreams.any fun k => (c.strm k).st == .held && (c.strm k).held.any (Machine.heldFor key)) ||
    c.copyStopped.any (Machine.heldFor key) || c.collHeld.any (Machine.heldFor key) || c.array.running.any fun r => r.held.any (Machine.heldFor key)

/-- The cores of a context in the cluster of a page's key. -/
def State.keyCores (s : State) (ctx : Nat) (key : Nat × Nat) : List Nat :=
  ((upto 4).map (4 * key.1 + ·)).filter fun c => s.ctxOf c == ctx

/-- The streams and engines of a core that are held for a page retry their accesses (R320). -/
def State.hostGo (s : State) (key : Nat × Nat) (core : Nat) : State :=
  let s1 := allStreams.foldl
    (fun s k => if (s.strm core k).st = .held ∧ (s.strm core k).held.any (heldFor key) then s.unhold core k false [] else s) s
  s1.updCore core fun c =>
    { c with
      copyStopped := c.copyStopped.filter fun t => !heldFor key t, collHeld := c.collHeld.filter fun t => !heldFor key t
      array := { c.array with running := c.array.running.map fun r => { r with held := r.held.filter fun t => !heldFor key t } } }

/-- A host's page refused for a context: an access that is held for it ends by its delivery, any other that asked ends with PAGE, SUB
0x04, when it tries again (R320; DEDUCED log 77). -/
def State.hostFail (s : State) (ctx : Nat) (key : Nat × Nat) : State :=
  if (s.ctx ctx).state = .free || (s.keyCores ctx key).any fun c => (s.core c).heldFor key then s
  else s.updCtx ctx fun c => { c with hostRefused := c.hostRefused ++ [key] }

/-- An ATS answer: a translation is cached with what the leaf and the host both permit; no permission makes a PRI request; any other answer
is a failure. A request from a leaf that was dropped meanwhile is made again (R317, R320, R325). -/
def State.atsAnswer (s : State) (ctx k ha size : Nat) (r w : Bool) : State :=
  match (s.ctx ctx).ats[k]? with
  | none => s
  | some key =>
    let s1 := s.updCtx ctx fun c => { c with ats := c.ats.eraseIdx k }
    if (s.ctx ctx).state = .free then s1
    else if (s.ctx ctx).atsStale.contains key then s.updCtx ctx fun c => { c with atsStale := c.atsStale.filter (· != key) }
    else if !atsSize size then s1.hostFail ctx key
    else
      match s1.walk (key.1 / 16) ctx (key.2 * 4096) with
      | (.host _ lr lw, s2) =>
        if !r && !w then s2.updCtx ctx fun c => { c with pri := if c.pri.contains key then c.pri else c.pri ++ [key] }
        else s2.tlbPut key.1 ⟨ctx, key.2 * 4096 / size * size, size, ha / size * size, r && lr, w && lw, true⟩
      | (.leaf _ _ _ _, s2) => s2
      | (.fault _, s2) => s2
      | (.plane, s2) => s2

/-- The page request of a context over: success lets the accesses held for it translate again, failure ends them (R320). -/
def State.priOver (s : State) (ctx k : Nat) (ok : Bool) : State :=
  match (s.ctx ctx).pri[k]? with
  | none => s
  | some key =>
    let s1 := s.updCtx ctx fun c => { c with pri := c.pri.eraseIdx k }
    if ok then (s1.keyCores ctx key).foldl (fun s c => s.hostGo key c) s1 else s1.hostFail ctx key

/-- A request to the host that passes PRITIME (R320). -/
def State.hostTimeout (s : State) (ctx k : Nat) (ats : Bool) : State :=
  if !ats then s.priOver ctx k false
  else match (s.ctx ctx).ats[k]? with
    | none => s
    | some key =>
      (s.updCtx ctx fun c => { c with ats := c.ats.eraseIdx k, atsStale := c.atsStale.filter (· != key) }).hostFail ctx key

/-- Whether an access of a context that used a host translation has not completed: a load of host memory not yet answered (R320). -/
def State.hostReading (s : State) (ctx : Nat) : Bool :=
  (upto 512).any fun c => s.ctxOf c == ctx && allStreams.any fun k => (s.strm c k).loads.any (·.host)

/-- A host's invalidation: matching host translations dropped in every cluster, and answers on their way not used; it completes once the
accesses that used them have (R320, R375). -/
def State.hostDrop (s : State) (ctx va size : Nat) : State :=
  if s.hostReading ctx then s
  else { s with
    clusters := s.clusters.map fun c =>
      { c with tlb := c.tlb.filter fun e => !(e.host && e.ctx == ctx && overlaps (e.va, e.size) (va, size)) }
    contexts := s.contexts.setIfInBounds ctx { s.ctx ctx with
      atsStale := (s.ctx ctx).atsStale ++ (s.ctx ctx).ats.filter fun k => overlaps (k.2 * 4096, 4096) (va, size) } }

/-! ## The events -/

/-- STREAM_WAIT_END (R79). -/
def execEvStreamWaitEnd (core : Nat) (st : StreamId) (s : State) : Outcome State Fault Refusal :=
  .next (s.whenClocked core fun s => s.waitEnd core st)
/-- STREAM_YIELDED (R84). -/
def execEvStreamYielded (core : Nat) (st : StreamId) (s : State) : Outcome State Fault Refusal :=
  .next (s.whenClocked core fun s => s.yielded core st)
/-- LOAD_FILL (R94). -/
def execEvLoadFill (core : Nat) (st : StreamId) (k : Nat) (s : State) : Outcome State Fault Refusal :=
  .next (s.whenClocked core fun s => s.loadFill core st k)
/-- SHADOW_RESUME (R79, R99). -/
def execEvShadowResume (core : Nat) (st : StreamId) (copy : Bool) (how : ShadowEnd) (s : State) : Outcome State Fault Refusal :=
  .next (s.whenClocked core fun s => if copy then s.shadowCopy core how else s.shadowStream core st how)
/-- WALK_COMPLETE (R319). -/
def execEvWalkComplete (die k : Nat) (s : State) : Outcome State Fault Refusal := .next (s.walkDone die k)
/-- ATS_RESPONSE (R320). -/
def execEvAtsResponse (ctx k ha size : Nat) (r w : Bool) (s : State) : Outcome State Fault Refusal :=
  .next (s.atsAnswer ctx k ha size r w)
/-- PRI_RESPONSE (R320). -/
def execEvPriResponse (ctx k : Nat) (ok : Bool) (s : State) : Outcome State Fault Refusal := .next (s.priOver ctx k ok)
/-- PRI_TIMEOUT (R320). -/
def execEvPriTimeout (ctx k : Nat) (ats : Bool) (s : State) : Outcome State Fault Refusal := .next (s.hostTimeout ctx k ats)
/-- ATS_INVALIDATION (R320). -/
def execEvAtsInvalidation (ctx va size : Nat) (s : State) : Outcome State Fault Refusal := .next (s.hostDrop ctx va size)

end Sys2Proof.Machine
end

