-- ==== Sys2Proof/Machine/DeviceEv.lean ====
section
/-! DEFINITION. The events of the host, the station cores' queue, the links and Ramner's own work: submissions, register writes, event
runs, remote requests, boot, fencing and power (R121 to R124, R203, R204, R330 to R351, R362, R363, R367). -/

namespace Sys2Proof.Machine

open Host (Outcome)

/-! ## The host's registers (R121 to R123, R203, R340, R342, R363, R367) -/

/-- The queue of a context with a local index. -/
def State.localQueue (s : State) (ctx q : Nat) : Option SubQueue :=
  ((s.ctx ctx).queues.getD q none).bind fun id => s.queue? (s.ctx ctx).part id

/-- A write of SQSUB (R121, R122, R286): an offset that no created queue uses ignores it. -/
def State.writeSqsub (s : State) (ctx q : Nat) (v : Word) : State :=
  match s.localQueue ctx q with
  | none => s
  | some x => s.offered x (x.submit v)

/-- A write of SQSTAT (R122, R123). -/
def State.writeSqstat (s : State) (ctx q : Nat) (v : Word) : State :=
  match s.localQueue ctx q with
  | none => s
  | some x => s.updQueue x.part x.id fun _ => x.clearOvf v

/-- A doubleword that the host reads in the BAR0 of a context's virtual function (R121, R123): SQSTAT and SQDROP of its queues; SQSUB is
write-only, and every other offset reads as zero. -/
def State.vfRead (s : State) (ctx o : Nat) : Word :=
  if 0x1000 ≤ o ∧ o < 0x1100 ∧ o % 16 = 8 then ((s.localQueue ctx ((o - 0x1000) / 16)).map (·.sqstat)).getD 0
  else if 0x2000 ≤ o ∧ o < 0x2080 ∧ o % 8 = 0 then ((s.localQueue ctx ((o - 0x2000) / 8)).map (·.sqdrop)).getD 0
  else 0

/-- Whether an offset is a PLATWIN register (R203). -/
def isPlatwin (o : Nat) : Bool := decide (0x200000 ≤ o) && decide (o < 0x204000) && o % 32 == 0
/-- Whether an offset is a mailbox's doorbell (R363). -/
def isDoorbell (o : Nat) : Bool := decide (0x500200 ≤ o) && decide (o < 0x500600) && (o - 0x500200) % 0x40 == 0x30
/-- Whether an offset is a PKILL register (R367). -/
def isPkill (o : Nat) : Bool := decide (0x400000 ≤ o) && decide (o < 0x410000) && (o - 0x400000) % 0x1000 == 0x90

/-- Whether an image was accepted and Ramner has started: nothing of Ramner runs before (R347). -/
def State.booted (s : State) : Bool := s.bootstat.getLsbD 31

/-- A doubleword written to a register that has no behaviour of its own, by the host or, once it runs, by Ramner (R340, R342, R347, R362). -/
def State.plainWrite (s : State) (host : Bool) (o : Nat) (v : Word) : State :=
  if o % 8 ≠ 0 || isPlatwin o || isDoorbell o || (isPkill o && v.getLsbD 63) then s
  else if host then s.hostWrite o v else if s.booted then s.regWrite o v else s

/-! ## The event queue and the station cores (R344, R345, R346) -/

/-- What a lock key names (R344): a queue of a partition, a partition, or a context. -/
def Event.lockKey (e : Event) : Nat × Nat × Nat :=
  match e.kind with
  | 0 => (0, e.part, e.key)
  | 4 => (2, 0, e.key)
  | _ => (1, 0, e.key)

/-- Whether a running event holds a key (R344). -/
def State.keyHeld (s : State) (k : Nat × Nat × Nat) : Bool :=
  s.stations.toList.any fun t => t.event.any fun e => e.lockKey == k

/-- A source's held event takes a place that became free in the queue (R345, R363). -/
def State.refillQueue (s : State) : State :=
  match s.heldEvents with
  | e :: rest => { s with events := s.events ++ [e], heldEvents := rest }
  | [] =>
    match (upto 16).find? fun p => (s.part p).mboxHeld.isSome with
    | none => s
    | some p =>
      match (s.part p).mboxHeld with
      | none => s
      | some m => { s.updPart p fun x => { x with mboxHeld := none } with events := s.events ++ [⟨3, p, p, m⟩] }

/-- An idle station core takes the oldest event whose key is free and starts its run at its kind's entry word (R344, R347, R362). -/
def State.dispatch (s : State) (n : Nat) : State :=
  if !s.booted || (s.station n).event.isSome || (s.station n).fenced then s
  else
    match s.events.findIdx? fun e => !s.keyHeld e.lockKey with
    | none => s
    | some i =>
      match s.events[i]? with
      | none => s
      | some e =>
        (({ s with events := s.events.eraseIdx i } : State).refillQueue).updStation n fun t =>
          { t with event := some e, fails := 0, waiting := none, hart := eventHart s.evvec e }

/-- A time slice of a context expires (R134, R344). -/
def State.sliceExpiry (s : State) (ctx : Nat) : State :=
  if (s.ctx ctx).state ≠ .running then s
  else
    let (p, s1) := s.freePayload
    s1.raise ⟨1, (s.ctx ctx).part, (s.ctx ctx).part, p⟩

/-- The watchdog of a partition whose event runs too long (R344, R346). -/
def State.watchdog (s : State) (p : Nat) : State :=
  if s.stations.toList.any fun t => t.event.any fun e => e.part == p then (s.fencePart p).reportFault p else s

/-! ## Remote requests (R306, R333 to R337) -/

/-- The stream that holds an outstanding request with a tag. -/
def State.holder (s : State) (tag : Nat) : Option (Nat × StreamId × RemoteReq) :=
  s.cores.toList.zipIdx.findSome? fun c =>
    allStreams.findSome? fun k => ((c.1.strm k).remote.find? (·.tag == tag)).map fun r => (c.2, k, r)

/-- What the answer of a request that its stream does not wait for brings by its order in a class (R259, R260; DESIGN CHOICE log 71). -/
def State.answerOrder (s : State) (c : Nat) (k : StreamId) (r : RemoteReq) (cls : Cls) : State :=
  { ({ s with cur := .stream c k } : State).remoteOrder r cls with cur := s.cur }

/-- Whether a request is a compare and swap that an old value fails: it wrote nothing (R258). -/
def RemoteReq.failed (r : RemoteReq) (old : Nat) : Bool :=
  match r.kind with
  | .atom op _ _ => op == .cas && old != r.data / 2 ^ 64
  | .load _ _ _ _ => false | .vload _ _ => false | .store _ => false | .copy _ => false | .coll _ => false | .line _ _ _ _ => false

/-- The releases that a request left at its location taken off again, and the pin that only they had there (R258, R261, R266). -/
def State.takeBack (s : State) (c : Nat) (k : StreamId) (r : RemoteReq) : State :=
  let line := (Loc.remote r.dest r.offset).key / 64
  let rs := s.releases.filter fun x => !r.left.contains x
  { s with
    releases := rs
    pins := s.pins.filter fun q =>
      !(r.left.any (·.pin) && q.line == line && q.core == c && q.st == k) ||
        rs.any fun x => x.pin && x.addr / 64 == line && x.core == c && x.st == k }

/-- The answer to an outstanding request (R333): a stream or an engine that waits for it finds it when it goes on; else the load's
register or data-queue slot is filled and the request is over. A second answer is discarded. `own` counts the releases of this package that
stand there, oldest first, from which the value was read (R261; DESIGN CHOICE log 71). Copies and collectives end with their own events. -/
def State.remoteAnswer (s : State) (tag data own : Nat) : State :=
  match s.holder tag with
  | none => s
  | some (c, k, r) =>
    if r.answer.isSome then s
    else
      let v := data % 2 ^ (8 * r.size)
      let s0 := if r.failed v then s.takeBack c k r else s
      let rs := (s0.releasesAt (Loc.remote r.dest r.offset).key r.size).take own
      let waits : Bool := (s.strm c k).waiting == some (.remoteAnswer tag)
      let note : State := s0.updStrm c k fun t =>
        { t with remote := t.remote.map fun x => if x.tag == tag then { x with answer := some v, own := rs } else x }
      let ends (cls : Cls) (f : State → State) : State := (f (s0.answerOrder c k { r with own := rs } cls)).remoteDone c k tag
      let put (d : XReg) (w : Word) : State := ends .weak fun s => s.updStrm c k fun t => { t with hart := t.hart.put d w }
      match r.kind with
      | .load d sx _ slot =>
        if waits then note
        else
          let w := extend sx r.size (leBytes r.size v)
          match slot with | some x => ends .weak fun s => s.fillSlot c x w | none => put d w
      | .atom _ d _ => if waits then note else put d (BitVec.ofNat 64 v)
      | .vload e g =>
        ends (if g then .gather true else .weak) fun s => s.updStrm c k fun t => { t with vecGot := (e, v) :: t.vecGot }
      | .store _ => s.remoteDone c k tag
      | .line _ _ _ _ => note
      | .copy _ => s
      | .coll _ => s

/-- The trap of a failed remote request (R334). -/
def remoteTrap (how : RemoteEnd) (addr : Word) : Trap :=
  match how with
  | .expired => ⟨cREMOTE, 0x10, addr⟩ | .error => ⟨cREMOTE, 0x11, addr⟩ | .keyRefused => ⟨cKEY, 0x02, addr⟩

/-- The data queue of a load at whose word its stream's mark stands, of stream A (R94, R306). -/
def RemoteReq.markQueue (r : RemoteReq) (k : StreamId) : Option Nat :=
  match k, r.kind with
  | .A, .load _ _ _ slot => if r.first then slot.map (·.1) else none
  | _, _ => none

/-- A stream cut back after a remote failure of a request, and trapped at the word of its mark; a load to a data queue that failed there leaves
its slot held (R94, R334). An undo that a lost line stops is tried again with the failure (R365). -/
def State.failCut (s : State) (c : Nat) (k : StreamId) (r : RemoteReq) (t : Trap) : State :=
  match s.undoAll (s.journals [(c, k)]) with
  | .error e => s.undoStuck e
  | .ok s0 =>
    let s1 := s0.cutBack c k
    let s2 := match r.markQueue k with
      | some q =>
        let s2 : State := { s1 with cur := .stream c k }
        if (s2.dqOf q).closed then s1 else { s2.putSlot q (.heldSlot s2.pc.toNat) with cur := s.cur }
      | none => s1
    s2.deliver c k t (s1.strm c k).hart.pc

/-- Whether a core's collective of a number has members in other packages (R279). -/
def State.collHasPeers (s : State) (core seq : Nat) : Bool :=
  match s.kernelOf core with
  | none => false
  | some k => (s.core core).colQ.any fun q => q.seq == seq && (q.coll?).any fun c => k.hasPeers c.tier

/-- A remote request that is not answered fails: its stream is cut back to its mark and traps at its next word; of a copy, a collective or a
plan it is a context fault (R148, R273, R280, R334). A copy as a transaction has no request of its own. -/
def State.remoteFail (s : State) (tag : Nat) (how : RemoteEnd) : State :=
  match s.holder tag with
  | none => s
  | some (c, k, r) =>
    let t := remoteTrap how r.addr
    if !s.clocked c || r.answer.isSome then s
    else
      match r.kind with
      | .copy _ => s
      | .coll seq => if s.collHasPeers c seq then s.contextFault (s.ctxOf c) (some t) else s
      | .line coll _ seq _ => if coll || seq == 0 then s.contextFault (s.ctxOf c) (some t) else s.copyFault c t
      | .load _ _ _ _ => s.failCut c k r t
      | .vload _ _ => s.failCut c k r t
      | .store _ => s.failCut c k r t
      | .atom _ _ _ => s.failCut c k r t

/-- The bytes of an incoming operation. -/
def inSize : InOp → Nat
  | .load n => n | .store bs => bs.length | .atom _ big _ _ => if big then 8 else 4 | .complete _ => 0

/-- Whether a range of bytes meets a plane of an enabled header-plane plat (R205). -/
def State.meetsPlane (s : State) (lo n : Nat) : Bool :=
  s.plats.any fun p => p.hp && (overlaps (p.payBase, p.blocks * (p.blk - 2)) (lo, n) || overlaps (p.hdrBase, 2 * p.blocks) (lo, n))

/-- The partition whose accept list and export window serve a request (R205, R337). -/
def State.exporter (s : State) (key : BitVec 9) (off n : Nat) : Option Nat :=
  (upto 16).find? fun p =>
    let x := s.part p
    x.accept.contains key && decide (off + n ≤ 65536 * x.expsize) && s.ownsRange p (x.expbase + off) n && !s.meetsPlane (x.expbase + off) n

/-- An incoming store performed at its home lines, for no context, which every reader sees (R322, R333); an atomic's value keeps the releases that it was made from
(R261). The error is the state in which a line is found lost: the request waits (R365). -/
def State.inStore (s : State) (atomic : Bool) : List Elt → List Byte → Except State State
  | [], _ => .ok s
  | e :: es, bs =>
    let pa := e.y.toNat
    match s.homeWrite (pa / 64) none ((bs.take e.n).zipIdx.map fun b => (pa % 64 + b.2, b.1)) with
    | .ok s1 =>
      let s2 := s1.settle ((upto e.n).map (pa + ·))
      (if atomic then s2 else s2.dropReleases pa e.n).inStore atomic es (bs.drop e.n)
    | .error (_, s1) => .error s1

/-- An incoming load makes its home lines resident (R333). -/
def State.inLoad (s : State) : List Elt → Except State State
  | [] => .ok s
  | e :: es =>
    match s.homeRead (e.y.toNat / 64) none with
    | .ok s1 => s1.inLoad es
    | .error (.poison, s1) => s1.inLoad es
    | .error (.lost, s1) => .error s1

/-- An incoming operation performed at a physical address; the error is a state in which it waits for a line (R333, R365). -/
def State.inPerform (s : State) (pa : Nat) (op : InOp) : Except State State :=
  let es := cutLines (BitVec.ofNat 64 pa) (inSize op) (inSize op)
  match op with
  | .load _ => s.inLoad es
  | .store bs => s.inStore false es bs
  | .atom a big o cmp =>
    let n := if big then 8 else 4
    match s.inLoad es with
    | .error s1 => .error s1
    | .ok s1 =>
      let old := s1.physNat pa n
      if a = .cas ∧ old ≠ cmp then .ok s1 else s1.inStore true es (leBytes n (atomNew a n old o cmp))
  | .complete _ => .ok s

/-- Whether an incoming operation may write. -/
def inWrites : InOp → Bool
  | .load _ => false | .store _ => true | .atom _ _ _ _ => true | .complete _ => false

/-- An incoming request is served by the partition that exports its window, or answered with an error and noted, as is a write of a slot table
(R284); it waits at a line that
is pinned against what is outside the package, or lost; a completion takes a served request off the list (R266, R333, R337, R365;
DEDUCED log 37). -/
def State.incomingReq (s : State) (key : BitVec 9) (off : Nat) (op : InOp) : State :=
  match op with
  | .complete tag => { s with incoming := s.incoming.filter (·.tag != tag) }
  | _ =>
    match s.exporter key off (inSize op) with
    | none => s.logErr (.request key.toNat (off % 2 ^ 40))
    | some p =>
      let pa := (s.part p).expbase + off
      if inWrites op && s.meetsSlots pa (inSize op) then s.logErr (.request key.toNat (off % 2 ^ 40))
      else if (cutLines (BitVec.ofNat 64 pa) (inSize op) (inSize op)).any fun e => s.pinnedOutside (e.y.toNat / 64) then s
      else
        match s.inPerform pa op with
        | .error s1 => s1
        | .ok s1 => { s1 with incoming := s1.incoming ++ [⟨s1.nextTag, p, key⟩], nextTag := s1.nextTag + 1 }

/-! ## Boot, bring-up and failures (R341, R346 to R349, R351) -/

/-- BOOTSTAT after an image is offered (R347): code 0 accepts it, codes 1 to 5 refuse it. -/
def bootAfter (b : Word) (src : BitVec 2) (code : BitVec 8) : Word :=
  let tries := field b 15 8
  if code = 0 then BitVec.ofNat 64 (2 ^ 31 + src.toNat * 2 ^ 16 + tries * 2 ^ 8 + field b 7 0)
  else BitVec.ofNat 64 (src.toNat * 2 ^ 16 + min 255 (tries + 1) * 2 ^ 8 + code.toNat)

/-- An image is offered to the boot ROM (R347); once one runs, no other is taken (DEDUCED log 38). -/
def State.bootOffer (s : State) (src : BitVec 2) (code : BitVec 8) (hash : BitVec 256) : State :=
  if s.bootstat.getLsbD 31 || (src != 1 && src != 2) || decide (5 < code.toNat) then s
  else
    let s1 := { s with bootstat := bootAfter s.bootstat src code }
    if code = 0 then { s1 with measurements := [hash] } else s1

/-- Whether no context that runs has a core in a cluster: each that had one is saved first, or the fault ends it (R348). -/
def State.cluQuiet (s : State) (cl : Nat) : Bool :=
  (s.cluster cl).owners.all fun o => o.2.core == 0 ||
    match (s.ctx o.1).state with
    | .saved => true | .terminating => true | .idle => true | .free => true
    | .running => false | .yielding => false | .saving => false | .restoring => false

/-- A logical cluster passes its scan test and is mapped; one whose physical cluster failed moves to the die's spare once its contexts are
saved, and they are restored there by SCIN (R347, R348). Any other failed one of the die for which none is left then loses its entry (R348). -/
def State.clusterUp (s : State) (cl : Nat) : State :=
  match s.physFor cl with
  | none => s.unmap cl
  | some p =>
    let entry : BitVec 8 := BitVec.ofNat 8 (128 + p)
    if s.cluTest.getLsbD cl || ((s.mapped cl).isSome && s.coreMap.getD cl 0 != entry && !s.cluQuiet cl) then s
    else
      (upto 16).foldl (fun s i => s.unmap (16 * (cl / 16) + i))
        { s with coreMap := s.coreMap.setIfInBounds cl entry, cluUp := setBit s.cluUp cl true }

/-- Whether a kernel of a slot is past the residency check and has not retired (R285, R289). -/
def State.slotBusy (s : State) (part slot : Nat) : Bool := s.kernels.any fun k => k.part == part && k.slot == slot

/-- The bytes of a slot entry, resident or free (R284, R285). -/
def slotBytesAs (res : Bool) (bs : List Byte) : List Byte := bs.set 13 (setBit (bs.getD 13 0) 7 res)

/-- A slot's entry replaced at the request of the host driver: refused while a kernel of the slot is past the check (R284, R285); a store to a
lost line waits (R365). Every reader sees it. -/
def State.putSlotEntry (s : State) (part slot : Nat) (res : Bool) (bs : List Byte) : State :=
  let b := (s.part part).slotTable
  if 4096 ≤ slot || b == 0 || s.slotBusy part slot || bs.length != 64 then s
  else match s.physPut (b + 64 * slot) (slotBytesAs res bs) 1 with
    | .ok s1 => s1.settleLines (· == b / 64 + slot)
    | .error (_, s1) => s1

/-- A slot's entry freed, its other fields as they stand; one that cannot be read is not (R285, R323, R365). -/
def State.freeSlot (s : State) (part slot : Nat) : State :=
  match s.lookLine ((s.part part).slotTable / 64 + slot) none with
  | .ok s1 => s1.putSlotEntry part slot false (s1.physBytes ((s1.part part).slotTable + 64 * slot) 64)
  | .error (_, s1) => s1

/-- Whether a size is one that a spill region may have (R89). -/
def spillOk (n : Nat) : Bool := n % 64 == 0 && decide (n ≤ 2 ^ 24)

/-- Ramner's work that no instruction of the manual does, once it runs (R89, R121, R133, R284, R285, R296, R311, R316, R347; DEDUCED
log 14). -/
def State.bringUp (s : State) (b : BringUp) : State :=
  if !s.booted then s
  else match b with
  | .hbm n => if n < 16 ∧ !s.hbmFenced.getLsbD n then { s with hbmUp := setBit s.hbmUp n true } else s
  | .cluster n => if n < 128 then s.clusterUp n else s
  | .bindContext ctx part root spillBase spillSize =>
    if (s.ctx ctx).state ≠ .free ∨ 16 ≤ part ∨ !spillOk spillSize then s
    else s.updCtx ctx fun c =>
      { c.freed with state := .idle, part := part, root := root, spillBase := spillBase, spillSize := spillSize }
  | .createQueue part id ctx index fast deviceFed ring bound =>
    if (s.ctx ctx).state = .free ∨ (s.ctx ctx).part ≠ part ∨ 1024 ≤ id ∨ 16 ≤ index ∨ ((s.ctx ctx).queues.getD index none).isSome ∨
        (s.queue? part id).isSome then s
    else
      ({ s with queues := s.queues ++ [newQueue part id ctx fast deviceFed ring bound] }).updCtx ctx fun c =>
        { c with queues := c.queues.setIfInBounds index (some id) }
  | .slotTable part base =>
    if base = 0 ∨ base % 64 ≠ 0 ∨ !s.ownsRange part base (64 * 4096) ∨ (s.kernels.any fun k => k.part == part) then s
    else s.updPart part fun p => { p with slotTable := base }
  | .makeResident part slot entry => s.putSlotEntry part slot true entry
  | .freeSlot part slot => s.freeSlot part slot
  | .loadPolicy ctx enq pick slice => s.updCtx ctx fun c => c.load ⟨enq, pick, slice⟩
  | .drain ctx on => s.updCtx ctx fun c => { c with drain := on }
  | .measure hash => { s with measurements := s.measurements ++ [hash] }

/-- An HBM stack fenced for good, with every partition that owns one of its pairs (R344, R346, R347, R351). -/
def State.stackFail (s : State) (h : Nat) : State :=
  (upto 16).foldl
    (fun s p => if (upto 16).any fun j => (s.part p).phbm.getLsbD (16 * h + j) then (s.fencePart p).reportFault p else s)
    { s with hbmUp := setBit s.hbmUp h false, hbmFenced := setBit s.hbmFenced h true }

/-- A port that cannot retrain is fenced, an error that is counted for it; no partition owns it, and every READY one is told (R341, R344, R346,
R351; DESIGN CHOICE log 89). -/
def State.portFail (s : State) (d2d : Bool) (n : Nat) : State :=
  let s1 := if d2d then { s with d2dFenced := setBit s.d2dFenced n true } else { s with portFenced := setBit s.portFenced n true }
  (upto 16).foldl (fun s p => if (s.part p).pstat = 2 then s.reportFault p else s) (s1.countErr (.port d2d n) true)

/-- The scan test of a cluster in two moves (DESIGN CHOICE log 103): it begins when the owner masks are all zero, and its READY bit clears; at
its end a cluster that passes is READY when a physical cluster that has not failed stands for it, and one that fails is fenced (R348, R349). -/
def State.scanTest (s : State) (cl : Nat) (pass : Bool) : State :=
  if 128 ≤ cl then s
  else if s.cluTest.getLsbD cl then
    let s1 := { s with cluTest := setBit s.cluTest cl false }
    if !pass then s1.fenceCluster cl
    else if (s1.mappedWhole cl).isSome then { s1 with cluUp := setBit s1.cluUp cl true } else s1
  else if !(s.cluster cl).owners.isEmpty then s
  else { s with cluUp := setBit s.cluUp cl false, cluTest := setBit s.cluTest cl true }

/-- A loss of power: all state of the package is lost; the host's memory, what the outside is yet to do, and the counter of free
values are not the package's (R326; DEDUCED log 39). -/
def State.powerLoss (s : State) : State :=
  { State.reset with host := s.host, moves := s.moves, tick := s.tick, vault := s.vault, powered := false }

/-! ## The events -/

/-- SQSUB (R122). -/
def execEvSqsub (ctx : Nat) (q : BitVec 4) (value : Word) (s : State) : Outcome State Fault Refusal :=
  .next (s.writeSqsub ctx q.toNat value)
/-- SQSTAT_CLEAR_OVF (R122). -/
def execEvSqstatClearOvf (ctx : Nat) (q : BitVec 4) (value : Word) (s : State) : Outcome State Fault Refusal :=
  .next (s.writeSqstat ctx q.toNat value)
/-- MBOX_DOORBELL (R363). -/
def execEvMboxDoorbell (part : BitVec 4) (s : State) : Outcome State Fault Refusal := .next (s.doorbell part.toNat)
/-- PLAT_ENABLE (R204). -/
def execEvPlatEnable (part : BitVec 4) (k : BitVec 5) (value : Word) (s : State) : Outcome State Fault Refusal :=
  .next (if value.getLsbD 63 then s.writePlatwin part.toNat k.toNat value else s)
/-- PLAT_DISABLE (R204). -/
def execEvPlatDisable (part : BitVec 4) (k : BitVec 5) (value : Word) (s : State) : Outcome State Fault Refusal :=
  .next (if value.getLsbD 63 then s else s.writePlatwin part.toNat k.toNat value)
/-- PKILL_GO (R367). -/
def execEvPkillGo (part : BitVec 4) (value : Word) (s : State) : Outcome State Fault Refusal :=
  .next (if value.getLsbD 63 then s.writePkill part.toNat value else s)
/-- REGISTER_WRITE (R342). -/
def execEvRegisterWrite (host : Bool) (off : Nat) (value : Word) (s : State) : Outcome State Fault Refusal :=
  .next (s.plainWrite host off value)
/-- EVENT_DISPATCH (R344). -/
def execEvEventDispatch (station : Nat) (s : State) : Outcome State Fault Refusal := .next (s.dispatch station)
/-- STATION_CORE_RESET (R345). -/
def execEvStationCoreReset (station : Nat) (s : State) : Outcome State Fault Refusal := .next (s.failRun station none)
/-- TIME_SLICE_EXPIRY (R134). -/
def execEvTimeSliceExpiry (ctx : Nat) (s : State) : Outcome State Fault Refusal := .next (s.sliceExpiry ctx)
/-- SCHEDULER_WATCHDOG (R346). -/
def execEvSchedulerWatchdog (part : BitVec 4) (s : State) : Outcome State Fault Refusal := .next (s.watchdog part.toNat)
/-- POWER_ON (R347). -/
def execEvPowerOn (s : State) : Outcome State Fault Refusal := .next { s with powered := true }
/-- BOOT_IMAGE_OFFER (R347). -/
def execEvBootImageOffer (src : BitVec 2) (code : BitVec 8) (hash : BitVec 256) (s : State) : Outcome State Fault Refusal :=
  .next (s.bootOffer src code hash)
/-- REMOTE_RESPONSE (R333). -/
def execEvRemoteResponse (tag : Nat) (data : Answer) (s : State) : Outcome State Fault Refusal :=
  .next (s.remoteAnswer tag data.value data.own)
/-- REMOTE_TIMEOUT (R334). -/
def execEvRemoteTimeout (tag : Nat) (how : RemoteEnd) (s : State) : Outcome State Fault Refusal := .next (s.remoteFail tag how)
/-- INCOMING_REQUEST (R337). -/
def execEvIncomingRequest (key : BitVec 9) (off : Nat) (op : InOp) (s : State) : Outcome State Fault Refusal :=
  .next (s.incomingReq key off op)
/-- PACKAGE_ID_ASSIGN (R330). -/
def execEvPackageIdAssign (id : BitVec 10) (s : State) : Outcome State Fault Refusal := .next { s with pkgId := id }
/-- D2D_FLIT_RETRY: no program can observe the retry (R341); telemetry counts the error that it corrects (R351). -/
def execEvD2dFlitRetry (port : Nat) (s : State) : Outcome State Fault Refusal := .next (s.countErr (.port true port) false)
/-- PORT_RETRAIN_FAIL (R341, R346). -/
def execEvPortRetrainFail (d2d : Bool) (port : Nat) (s : State) : Outcome State Fault Refusal := .next (s.portFail d2d port)
/-- HBM_STACK_FAIL (R346). -/
def execEvHbmStackFail (stack : Nat) (s : State) : Outcome State Fault Refusal := .next (s.stackFail stack)
/-- COOLANT_OVERLIMIT: the clock falls a step; no result changes (R351). -/
def execEvCoolantOverlimit (s : State) : Outcome State Fault Refusal := .next { s with throttle := s.throttle + 1 }
/-- POWER_LOSS (R326). -/
def execEvPowerLoss (s : State) : Outcome State Fault Refusal := .next s.powerLoss
/-- UALINK_PORT_TRAINED (R347). -/
def execEvUalinkPortTrained (port : Nat) (s : State) : Outcome State Fault Refusal :=
  .next (if !s.booted || s.portFenced.getLsbD port then s else { s with portUp := setBit s.portUp port true })
/-- FUNCTION_BRING_UP (R347). -/
def execEvFunctionBringUp (what : BringUp) (s : State) : Outcome State Fault Refusal := .next (s.bringUp what)
/-- IN_FIELD_SCAN_TEST (R349). -/
def execEvInFieldScanTest (cluster : Nat) (pass : Bool) (s : State) : Outcome State Fault Refusal := .next (s.scanTest cluster pass)

end Sys2Proof.Machine
end

