-- ==== Sys2Proof/Machine/Effects.lean ====
section
/-! DEFINITION. The list instructions of major 0x25 (R248 to R251). -/

namespace Sys2Proof.Machine

open Host (Outcome)

/-- The slot that a handle names: none for the empty handle; a nonzero handle that is not live traps (R239). -/
def State.handleSlot (s : State) (h : Word) : Except Act (Option Nat) :=
  if h = 0 then .ok none
  else match s.me.lists.live h with
    | some n => .ok (some n)
    | none => .error (trapOf cACCESS 0x20 h s)

/-- The entries of the list that a slot holds, among the arena's; the empty list has none (R243). -/
def entriesOf (es : List AEntry) (slot : Option Nat) : List AEntry :=
  match slot with | none => [] | some n => listOf es n

/-- The end of a list instruction that writes one register. -/
def State.putReg (s s0 : State) (d : XReg) (v : Word) : Except Act State :=
  match s.writeReg d v with | .ok s1 => .ok s1 | .error w => .error (.wait w s0)

/-- EFCAP: the capacity enlarged, its old value in x[d]; all ones when refused (R249). -/
def actEfcap (g : Guard) (d a : XReg) (s : State) : Act :=
  s.memBegin g [a] [d] fun vs =>
    let v := vs.getD 0 0
    let cap := field s.me.lists.arena 15 0
    if field v 63 16 = 0 ∧ cap ≤ v.toNat then
      (s.updLists fun l => { l with arena := setField l.arena 15 0 v.toNat }).putReg s d (BitVec.ofNat 64 cap)
    else s.putReg s d (BitVec.allOnes 64)

/-- The enabled bytes of entries. -/
def countBytes (es : List AEntry) : Nat := es.foldl (fun n e => n + popCount e.be 64) 0
/-- The word of ECNT (R249). -/
def ecntWord (es : List AEntry) : Word := BitVec.ofNat 64 (es.length * 2 ^ 32 + countBytes es)

/-- ECAT: copies of two lists' entries in a new list (R249). -/
def actEcat (g : Guard) (d a b : XReg) (s : State) : Act :=
  s.memBegin g [a, b] [d] fun vs => do
    let h1 ← s.handleSlot (vs.getD 0 0)
    let h2 ← s.handleSlot (vs.getD 1 0)
    let (es, s1) ← s.arenaAll
    let l := entriesOf es h1 ++ entriesOf es h2
    if l.isEmpty then s1.putReg s d 0
    else match s1.me.lists.freeSlot with
      | none => .error (trapOf cEFCAP 1 0 s)
      | some n =>
        let s2 ← s1.arenaAppend n (l.map fun e => (e.line, e.be, e.data))
        let s3 := s2.updLists fun l => l.setSlot n { l.slot n with use := .closed }
        s3.putReg s d (s3.me.lists.handle n)

/-- The byte enables of an entry replaced in the arena (R243). -/
def State.putBe (s : State) (e : AEntry) (be : BitVec 64) : Except Act State :=
  if be = e.be then .ok s else s.arenaPut (80 * e.idx + 8) be

/-- The byte enables that a filter keeps (R249). -/
def keepBytes (lo hi : Word) (keepInside : Bool) (e : AEntry) : BitVec 64 :=
  (upto 64).foldl
    (fun be j =>
      let y := e.line.toNat + j
      let inside := decide (lo.toNat ≤ y) && decide (y < hi.toNat)
      if inside != keepInside then setBit be j false else be) e.be

/-- Byte enables of several entries replaced, in order. -/
def State.putBes (s : State) (f : AEntry → BitVec 64) : List AEntry → Except Act State
  | [] => .ok s
  | e :: es => do
    let s1 ← s.putBe e (f e)
    s1.putBes f es

/-- The entries with the byte enables of one list replaced. -/
def mapList (f : AEntry → BitVec 64) (slot : Nat) (es : List AEntry) : List AEntry :=
  es.map fun e => if e.own == slot && e.be != 0 then { e with be := f e } else e

/-- EFLT: the bytes of a range kept, or those outside it; x[d] counts what is left (R249). -/
def actEflt (g : Guard) (d a b c : XReg) (out : Bool) (s : State) : Act :=
  s.memBegin g [a, b, c] [d] fun vs => do
    match ← s.handleSlot (vs.getD 0 0) with
    | none => s.putReg s d 0
    | some n =>
      let f := keepBytes (vs.getD 1 0) (vs.getD 2 0) (!out)
      let (es, s1) ← s.arenaAll
      let s2 ← s1.putBes f (listOf es n)
      let es' := mapList f n es
      (s2.updLists fun l => l.settle es').putReg s d (ecntWord (listOf es' n))

/-- Entries of a range moved by a delta (R249). -/
def State.moveLines (s : State) (lo hi delta : Word) : List AEntry → Except Act State
  | [] => .ok s
  | e :: es => do
    let s1 ← if lo.toNat ≤ e.line.toNat ∧ e.line.toNat < hi.toNat then
        s.arenaPut (80 * e.idx) ((leaW e.line delta &&& ~~~63) ||| BitVec.ofNat 64 e.own)
      else .ok s
    s1.moveLines lo hi delta es

/-- The doublewords at some offsets of the arena made ready to be written: a fault or a wait comes before any is. -/
def State.arenaReady (s : State) : List Nat → Except Act State
  | [] => .ok s
  | o :: os => do
    let (_, s1) ← s.arenaLoc o true
    s1.arenaReady os

/-- What is done whole or not at all: a wait or a trap part of the way leaves this state. -/
def State.whole (s : State) (r : Except Act State) : Except Act State :=
  match r with
  | .ok s1 => .ok s1
  | .error (.wait w _) => .error (.wait w s)
  | .error (.trap t _) => .error (.trap t s)
  | .error a => .error a

/-- EREB: the entries of a range of line addresses moved by x[d], all or none (R249). -/
def actEreb (g : Guard) (d a b c : XReg) (s : State) : Act :=
  s.memBegin g [a, b, c, d] [] fun vs => do
    let h ← s.handleSlot (vs.getD 0 0)
    if field (vs.getD 3 0) 5 0 ≠ 0 then .error (trapOf cALIGN 0 (vs.getD 3 0) s)
    else match h with
      | none => .ok s
      | some n =>
        let (es, s1) ← s.arenaAll
        let s2 ← s1.arenaReady ((listOf es n).map fun e => 80 * e.idx)
        s2.whole (s2.moveLines (vs.getD 1 0) (vs.getD 2 0) (vs.getD 3 0) (listOf es n))

/-- EDRP: every entry of the list and its slot freed (R249). -/
def actEdrp (g : Guard) (a : XReg) (s : State) : Act :=
  s.memBegin g [a] [] fun vs => do
    match ← s.handleSlot (vs.getD 0 0) with
    | none => .ok s
    | some n =>
      let (es, s1) ← s.arenaAll
      let s2 ← s1.putBes (fun _ => 0) (listOf es n)
      .ok (s2.updLists fun l => (l.free n).settle (mapList (fun _ => 0) n es))

/-- ECNT: the entries and enabled bytes of a list (R249). -/
def actEcnt (g : Guard) (d a : XReg) (s : State) : Act :=
  s.memBegin g [a] [d] fun vs => do
    match ← s.handleSlot (vs.getD 0 0) with
    | none => s.putReg s d 0
    | some n =>
      let (es, s1) ← s.arenaAll
      s1.putReg s d (ecntWord (listOf es n))

/-- ECNT.ARENA: live handles, depth, USED (R249). -/
def actEcntArena (g : Guard) (d : XReg) (s : State) : Act :=
  s.memBegin g [] [d] fun _ =>
    let l := s.me.lists
    s.putReg s d (BitVec.ofNat 64 (l.liveCount * 2 ^ 56 + l.opened.length * 2 ^ 48 + l.used))

/-! ## EAPL (R250) -/

/-- The offsets of an entry's enabled bytes, ascending. -/
def AEntry.offsets (e : AEntry) : List Nat := (upto 64).filter fun j => e.be.getLsbD j
/-- The element that an entry stores: from its lowest enabled byte to its highest. -/
def AEntry.elt (e : AEntry) : Elt :=
  let o := e.offsets
  let lo := o.headD 0
  ⟨e.line + BitVec.ofNat 64 lo, o.getLastD lo + 1 - lo⟩

/-- Entries stored in list order, each race-checked at its own store (R250). -/
def State.applyEntries (s : State) : List (AEntry × Elt × Spot) → Except Act State
  | [] => .ok s
  | (e, el, sp) :: rest => do
    let bs := e.offsets.map fun j => (j, lineByte e.data j)
    let s2 ← match sp.lineOf with
      | .tile t => s.tileRun t .plain bs
      | .mem l => do
        let s1 ← s.race l (addr56 el.y) .plain true
        s1.writeLoc l bs .plain false
    s2.applyEntries rest

/-- The list applied outside collecting mode: every entry checked, then stored (R250). -/
def State.applyList (s : State) (l : List AEntry) : Except Act State := do
  let (ps, s1) ← s.eltsPlace true none (l.map AEntry.elt)
  s1.eltsRemote .plain true ps
  s1.storeReady (homeLines ps)
  if !s1.runsRoom l.length then .error (.wait .journalFull s1)
  else s1.applyEntries ((l.zip ps).map fun x => (x.1, x.2.1, x.2.2))

/-- EAPL: the list stored; while collecting, appended to the innermost list (R250). -/
def actEapl (g : Guard) (a : XReg) (s : State) : Act :=
  s.memBegin g [a] [] fun vs => do
    let h ← s.handleSlot (vs.getD 0 0)
    let (es, s1) ← s.arenaAll
    let l := entriesOf es h
    if s.collecting then
      s1.arenaAppend (s1.me.lists.opened.headD 0) (l.map fun e => (e.line, e.be, e.data))
    else s1.applyList l

/-- EAPL.REL: the list stored, then a release at the scope (R250). -/
def actEaplRel (g : Guard) (a : XReg) (sc : Scope) (tier : BitVec 3) (s : State) : Act :=
  s.memBegin g [a] [] fun vs => do
    if s.collecting then .error (trapOf cEFSYNC 0 0 s) else
    let h ← s.handleSlot (vs.getD 0 0)
    let (es, s1) ← s.arenaAll
    s1.releaseGate (some (sc, tier.toNat))
    let s2 ← s1.applyList (entriesOf es h)
    .ok (s2.fenceRelease sc tier.toNat)

/-! ## The instructions -/

/-- EFCAP as an instruction (R248, R249). -/
def execEfcap (g : Guard) (d a : XReg) (s : State) : Outcome State Fault Refusal := finish 1 (actEfcap g d a s)
/-- ECAT as an instruction (R248, R249). -/
def execEcat (g : Guard) (d a b : XReg) (s : State) : Outcome State Fault Refusal := finish 1 (actEcat g d a b s)
/-- EFLT as an instruction (R248, R249). -/
def execEflt (g : Guard) (d a b c : XReg) (out : Bool) (s : State) : Outcome State Fault Refusal :=
  finish 1 (actEflt g d a b c out s)
/-- EREB as an instruction (R248, R249). -/
def execEreb (g : Guard) (d a b c : XReg) (s : State) : Outcome State Fault Refusal := finish 1 (actEreb g d a b c s)
/-- EDRP as an instruction (R248, R249). -/
def execEdrp (g : Guard) (a : XReg) (s : State) : Outcome State Fault Refusal := finish 1 (actEdrp g a s)
/-- ECNT as an instruction (R248, R249). -/
def execEcnt (g : Guard) (d a : XReg) (s : State) : Outcome State Fault Refusal := finish 1 (actEcnt g d a s)
/-- ECNT_ARENA as an instruction (R248, R249). -/
def execEcntArena (g : Guard) (d : XReg) (s : State) : Outcome State Fault Refusal := finish 1 (actEcntArena g d s)
/-- EAPL as an instruction (R248, R250). -/
def execEapl (g : Guard) (a : XReg) (s : State) : Outcome State Fault Refusal := finish 1 (actEapl g a s)
/-- EAPL_REL as an instruction (R248, R250). -/
def execEaplRel (g : Guard) (a : XReg) (sc : Scope) (tier : BitVec 3) (s : State) : Outcome State Fault Refusal :=
  finish 1 (actEaplRel g a sc tier s)

end Sys2Proof.Machine
end

