-- ==== Sys2Proof/Machine/Firmware.lean ====
section
/-! DEFINITION. Station instructions of major 0x32: the residency check, handoffs, intakes, scheduling policies and partition keys
(R124, R125, R132 to R134, R289, R294, R336 to R338). -/

namespace Sys2Proof.Machine

open Host (Outcome)

/-! ## SLOTCHK and RELOC (R124, R294) -/

/-- All ones: the answer of an intake instruction that names nothing (R125, R294). -/
def noQueue : Word := BitVec.allOnes 64

/-- SLOTCHK: the first failing code, or 0; neither a sequence number nor a bound core set is known (R294; DEDUCED log 27). -/
def actSlotchk (g : Guard) (d a b : XReg) (s : State) : Act :=
  s.privBegin g [a, b] d fun vs =>
    let xb := vs.getD 1 0
    match s.checkAt ⟨field xb 13 10, field xb 9 0, 0, 0, 0⟩ (vs.getD 0 0) none none with
    | .ok (_, s1) => .ok 0 { s1 with kernels := s.kernels }
    | .error (some c, s1) => .ok (BitVec.ofNat 64 c) s1
    | .error (none, s1) => .wait (.memory (vs.getD 0 0).toNat) s1

/-- The value of the uncommitted entry of a queue with a number. -/
def SubQueue.valueOf (q : SubQueue) (n : BitVec 32) : Option Word :=
  let k := (n - q.commit).toNat
  if 1 ≤ k then q.intake[k - 1]? else none

/-- Whether the scheduler discards a handoff: its number is at or below the last one handed off for the queue (R124), by the sign of their
32-bit difference, so that numbers may wrap (DESIGN CHOICE log 79). -/
def SubQueue.discards (q : SubQueue) (n : BitVec 32) : Bool := q.handed.any fun h => decide ((n - h).toInt ≤ 0)

/-- RELOC: the check and the handoff as one step (R294). -/
def actReloc (g : Guard) (d a b : XReg) (s : State) : Act :=
  s.privBegin g [a, b] d fun vs =>
    let xb := vs.getD 1 0
    let part := field xb 13 10
    let seq : BitVec 32 := xb.extractLsb' 32 32
    if field xb 31 30 ≠ 0 ∨ field xb 15 14 ≠ 0 then .ok noQueue s
    else
      match s.queue? part (field xb 29 20) with
      | none => .ok noQueue s
      | some q =>
        if q.ctx ≠ field xb 9 0 then .ok noQueue s
        else
          match s.checkAt ⟨part, q.ctx, q.id, seq, field xb 19 16⟩ (vs.getD 0 0) (q.valueOf seq) (if q.fast then some q.bound else none) with
          | .error (none, s1) => .wait (.memory (vs.getD 0 0).toNat) s1
          | .error (some c, s1) => .ok (refusal c) s1
          | .ok (k, s1) =>
            if q.discards seq then .ok 1 s1
            else .ok 0 ((s1.addKernel k).updQueue part q.id fun q => { q with handed := some seq })

/-! ## QPOP, QACK, QREF (R125) -/

/-- The queue of the acting partition that x[a] names; with a nonzero bit above the id it names none (R125; DESIGN CHOICE log 79). -/
def State.namedQueue (s : State) (xa : Word) : Option SubQueue :=
  if field xa 63 10 = 0 then s.queue? s.actingPart xa.toNat else none

/-- QPOP's two values: the next entry's value and number; an empty intake's number has bit 63 set (R125). -/
def SubQueue.popWords (q : SubQueue) : Word × Word :=
  match q.intake with
  | v :: _ => (v, q.head.setWidth 64)
  | [] => (0, setBit (q.head.setWidth 64) 63 true)

/-- QPOP: x[d] is written, then x[b] (R125; with d = b the number stays, DESIGN CHOICE log 79). -/
def actQpop (g : Guard) (d b a : XReg) (s : State) : Act :=
  s.begin g [a] [d, b] fun vs s1 =>
    let r := match s1.namedQueue (vs.getD 0 0) with | some q => q.popWords | none => (noQueue, noQueue)
    match s1.writeReg d r.1 with
    | .ok s2 => s.retire s2 b r.2
    | .error w => .wait w s

/-- QACK (R125). -/
def actQack (g : Guard) (d a b : XReg) (s : State) : Act :=
  s.privBegin g [a, b] d fun vs =>
    match s.namedQueue (vs.getD 0 0) with
    | none => .ok noQueue s
    | some q =>
      let n : BitVec 32 := (vs.getD 1 0).setWidth 32
      match q.commitTo n with
      | none => .ok noQueue s
      | some q1 => .ok (n.setWidth 64) (s.updQueue q.part q.id fun _ => q1)

/-- QREF: SQSTAT or SQDROP of an intake (R125). -/
def actQref (g : Guard) (d a : XReg) (drop : Bool) (s : State) : Act :=
  s.privBegin g [a] d fun vs =>
    match s.namedQueue (vs.getD 0 0) with
    | none => .ok noQueue s
    | some q => .ok (if drop then q.sqdrop else q.sqstat) s

/-! ## POLRUN (R132 to R134, R294) -/

/-- Five 32-bit inputs, read at a physical address as plain loads (R134, R294). -/
def State.polInputs (s : State) (y : Word) : Nat → Except Act (List (BitVec 32) × State)
  | 0 => .ok ([], s)
  | n + 1 => do
    match ← s.stationLoc y 4 with
    | .inl _ => .error (trapOf cACCESS 0 y s)
    | .inr pa =>
      let (bs, s1) ← s.readLoc (.home pa) pa 4 .plain
      let (vs, s2) ← s1.polInputs (y + 4) n
      .ok (BitVec.ofNat 32 (leNat bs) :: vs, s2)

/-- POLRUN: one event of a context's policy, or of the default one (R134, R294; DEDUCED log 57). -/
def actPolrun (g : Guard) (d a b : XReg) (s : State) : Act :=
  s.begin g [a, b] [d] fun vs s1 =>
    let ev := field (vs.getD 0 0) 13 12
    let ctx := field (vs.getD 0 0) 9 0
    if ev = 3 then s.retire s1 d noQueue
    else
      match s1.polInputs (vs.getD 1 0) 5 with
      | .error w => w
      | .ok (ins, s2) => s.retire (s2.polRun ctx ev ins).2 d (s2.polRun ctx ev ins).1

/-! ## Partition keys (R336 to R338) -/

/-- The partition and key that x[a] names, with the checks of codes 0x0B and 0x01 (R338; DEDUCED log 59). -/
def State.keyOperand (s : State) (xa : Word) (k : Nat → BitVec 9 → Priv) : Priv :=
  if field xa 63 14 ≠ 0 ∨ field xa 9 9 ≠ 0 then .refuse 0x0B s
  else if field xa 13 10 ≠ s.actingPart then .refuse 1 s
  else k (field xa 13 10) (xa.setWidth 9)

/-- Whether a pushed collective makes requests to other packages of its own accord: its tier has the domain `domain` (R280, R338). -/
def State.collRemote (s : State) (core seq : Nat) : Bool :=
  (s.core core).colQ.any fun q => q.seq == seq && match q.cmd with
    | .coll c => (s.kernelOf core).any fun k => tierDom (k.tier c.tier) == 5
    | .copy _ => false | .mgo _ _ => false | .collw _ _ => false | .fset _ => false | .fwait _ _ => false | .fclr _ => false

/-- Whether any remote request of a partition is outstanding (R338). -/
def State.requestsOut (s : State) (p : Nat) : Bool :=
  s.cores.toList.zipIdx.any fun c => allStreams.any fun k =>
    ((c.1.strm k).remote.any fun r => match r.kind with
      | .coll seq => s.collRemote c.2 seq | .load _ _ _ _ => true | .vload _ _ => true | .store _ => true | .atom _ _ _ => true
      | .copy _ => true | .line _ _ _ _ => true) &&
      s.partOf c.2 == p

/-- LKEY.OWN (R338). -/
def actLkeyOwn (g : Guard) (d a : XReg) (s : State) : Act :=
  s.privBegin g [a] d fun vs =>
    s.keyOperand (vs.getD 0 0) fun p k =>
      if s.requestsOut p then .refuse 2 s
      else
        let old : Word := match (s.part p).ownKey with | some q => q.setWidth 64 | none => 0x4000000000000000
        .ok old (s.updPart p fun x => { x with ownKey := some k })

/-- LKEY.ACC (R338). -/
def actLkeyAcc (g : Guard) (d a : XReg) (s : State) : Act :=
  s.privBegin g [a] d fun vs =>
    s.keyOperand (vs.getD 0 0) fun p k =>
      let l := (s.part p).accept
      if l.contains k then .ok (BitVec.ofNat 64 (16 - l.length)) s
      else if 16 ≤ l.length then .refuse 7 s
      else .ok (BitVec.ofNat 64 (16 - (l.length + 1))) (s.updPart p fun x => { x with accept := l ++ [k] })

/-- The requests of other packages with a key that a partition has accepted and not completed (R337, R338). -/
def State.accepted? (s : State) (p : Nat) (k : BitVec 9) : Nat := (s.incoming.filter fun r => r.part == p && r.key == k).length

/-- LREVK: the key leaves the list, then the accepted requests with it complete; x[d] is their count (R338). -/
def actLrevk (g : Guard) (d a : XReg) (s : State) : Act :=
  s.privBegin g [a] d fun vs =>
    s.keyOperand (vs.getD 0 0) fun p k =>
      match s.stationWait with
      | some (.acceptedKey n) =>
        if s.accepted? p k = 0 then .ok (BitVec.ofNat 64 n) s else .wait (.acceptedKey n) s
      | _ =>
        if !(s.part p).accept.contains k then .refuse 9 s
        else
          let s1 := s.updPart p fun x => { x with accept := x.accept.filter (· != k) }
          if s.accepted? p k = 0 then .ok 0 s1 else .wait (.acceptedKey (s.accepted? p k)) s1

/-! ## The instructions -/

/-- SLOTCHK as an instruction (R294). -/
def execSlotchk (g : Guard) (d a b : XReg) (s : State) : Outcome State Fault Refusal := finish 1 (actSlotchk g d a b s)
/-- RELOC as an instruction (R294). -/
def execReloc (g : Guard) (d a b : XReg) (s : State) : Outcome State Fault Refusal := finish 1 (actReloc g d a b s)
/-- QPOP as an instruction (R125). -/
def execQpop (g : Guard) (d b a : XReg) (s : State) : Outcome State Fault Refusal := finish 1 (actQpop g d b a s)
/-- QACK as an instruction (R125). -/
def execQack (g : Guard) (d a b : XReg) (s : State) : Outcome State Fault Refusal := finish 1 (actQack g d a b s)
/-- QREF as an instruction (R125). -/
def execQref (g : Guard) (d a : XReg) (drop : Bool) (s : State) : Outcome State Fault Refusal :=
  finish 1 (actQref g d a drop s)
/-- POLRUN as an instruction (R294). -/
def execPolrun (g : Guard) (d a b : XReg) (s : State) : Outcome State Fault Refusal := finish 1 (actPolrun g d a b s)
/-- LKEY_OWN as an instruction (R338). -/
def execLkeyOwn (g : Guard) (d a : XReg) (s : State) : Outcome State Fault Refusal := finish 1 (actLkeyOwn g d a s)
/-- LKEY_ACC as an instruction (R338). -/
def execLkeyAcc (g : Guard) (d a : XReg) (s : State) : Outcome State Fault Refusal := finish 1 (actLkeyAcc g d a s)
/-- LREVK as an instruction (R338). -/
def execLrevk (g : Guard) (d a : XReg) (s : State) : Outcome State Fault Refusal := finish 1 (actLrevk g d a s)

end Sys2Proof.Machine
end

