-- ==== Sys2Proof/Machine/Scalar.lean ====
section
/-! DEFINITION. Scalar and address arithmetic: majors 0x01 to 0x06 and LIL (R107 to R120). -/

namespace Sys2Proof.Machine

open Host (Outcome)

/-- ADD: d = a + b (R111). -/
def actAdd (g : Guard) (d a b : XReg) (s : State) : Act := op2 g d a b (fun x y => x + y) s
/-- SUB: d = a - b (R111). -/
def actSub (g : Guard) (d a b : XReg) (s : State) : Act := op2 g d a b (fun x y => x - y) s
/-- AND (R111). -/
def actAndR (g : Guard) (d a b : XReg) (s : State) : Act := op2 g d a b (fun x y => x &&& y) s
/-- OR (R111). -/
def actOrR (g : Guard) (d a b : XReg) (s : State) : Act := op2 g d a b (fun x y => x ||| y) s
/-- XOR (R111). -/
def actXorR (g : Guard) (d a b : XReg) (s : State) : Act := op2 g d a b (fun x y => x ^^^ y) s
/-- LOGT: the three-input truth table tt (R111). -/
def actLogt (g : Guard) (d a b c : XReg) (tt : BitVec 8) (s : State) : Act := op3 g d a b c (logt tt) s
/-- SHL (R111). -/
def actShl (g : Guard) (d a b : XReg) (s : State) : Act := op2 g d a b shlW s
/-- SHR (R111). -/
def actShr (g : Guard) (d a b : XReg) (s : State) : Act := op2 g d a b shrW s
/-- SRA (R111). -/
def actSra (g : Guard) (d a b : XReg) (s : State) : Act := op2 g d a b sraW s
/-- ROL (R111). -/
def actRol (g : Guard) (d a b : XReg) (s : State) : Act := op2 g d a b rolW s
/-- MIN (R111). -/
def actMinS (g : Guard) (d a b : XReg) (s : State) : Act := op2 g d a b minSW s
/-- MAX (R111). -/
def actMaxS (g : Guard) (d a b : XReg) (s : State) : Act := op2 g d a b maxSW s
/-- MINU (R111). -/
def actMinu (g : Guard) (d a b : XReg) (s : State) : Act := op2 g d a b minUW s
/-- MAXU (R111). -/
def actMaxu (g : Guard) (d a b : XReg) (s : State) : Act := op2 g d a b maxUW s
/-- SEL: d = p[n] ? a : b (R111). -/
def actSel (g : Guard) (d a b : XReg) (n : PReg) (s : State) : Act :=
  op2 g d a b (fun x y => if s.hart.pred n then x else y) s
/-- ABS (R111). -/
def actAbs (g : Guard) (d a : XReg) (s : State) : Act := op1 g d a absW s

/-- ADDI: d = a + sext(imm20) (R112). -/
def actAddi (g : Guard) (d a : XReg) (imm : BitVec 20) (s : State) : Act := op1 g d a (fun x => x + sext64 imm) s
/-- ANDI (R112). -/
def actAndi (g : Guard) (d a : XReg) (imm : BitVec 20) (s : State) : Act := op1 g d a (fun x => x &&& sext64 imm) s
/-- ORI (R112). -/
def actOri (g : Guard) (d a : XReg) (imm : BitVec 20) (s : State) : Act := op1 g d a (fun x => x ||| sext64 imm) s
/-- XORI (R112). -/
def actXori (g : Guard) (d a : XReg) (imm : BitVec 20) (s : State) : Act := op1 g d a (fun x => x ^^^ sext64 imm) s
/-- SHLI (R112). -/
def actShli (g : Guard) (d a : XReg) (n : BitVec 6) (s : State) : Act := op1 g d a (fun x => x <<< n.toNat) s
/-- SHRI (R112). -/
def actShri (g : Guard) (d a : XReg) (n : BitVec 6) (s : State) : Act := op1 g d a (fun x => x >>> n.toNat) s
/-- SRAI (R112). -/
def actSrai (g : Guard) (d a : XReg) (n : BitVec 6) (s : State) : Act := op1 g d a (fun x => x.sshiftRight n.toNat) s
/-- LI: d = sext(imm20) (R112). -/
def actLi (g : Guard) (d : XReg) (imm : BitVec 20) (s : State) : Act :=
  s.begin g [] [d] fun _ s1 => s.retire s1 d (sext64 imm)

/-- MUL (R113). -/
def actMul (g : Guard) (d a b : XReg) (s : State) : Act := op2 g d a b (fun x y => x * y) s
/-- MULH (R113). -/
def actMulh (g : Guard) (d a b : XReg) (s : State) : Act := op2 g d a b mulhW s
/-- MULHU (R113). -/
def actMulhu (g : Guard) (d a b : XReg) (s : State) : Act := op2 g d a b mulhuW s
/-- MADD: one wrap of a * b + c (R113). -/
def actMadd (g : Guard) (d a b c : XReg) (s : State) : Act := op3 g d a b c (fun x y z => x * y + z) s
/-- DIV (R113). -/
def actDiv (g : Guard) (d a b : XReg) (s : State) : Act := op2 g d a b divW s
/-- DIVU (R113). -/
def actDivu (g : Guard) (d a b : XReg) (s : State) : Act := op2 g d a b divuW s
/-- REM (R113). -/
def actRem (g : Guard) (d a b : XReg) (s : State) : Act := op2 g d a b remW s
/-- REMU (R113). -/
def actRemu (g : Guard) (d a b : XReg) (s : State) : Act := op2 g d a b remuW s

/-- CLZ (R114). -/
def actClz (g : Guard) (d a : XReg) (s : State) : Act := op1 g d a clzW s
/-- CTZ (R114). -/
def actCtz (g : Guard) (d a : XReg) (s : State) : Act := op1 g d a ctzW s
/-- POPC (R114). -/
def actPopc (g : Guard) (d a : XReg) (s : State) : Act := op1 g d a popcW s
/-- BREV (R114). -/
def actBrev (g : Guard) (d a : XReg) (s : State) : Act := op1 g d a brevW s
/-- BFX: len - 1 in the word (R114). -/
def actBfx (g : Guard) (d a : XReg) (pos len : BitVec 6) (s : State) : Act :=
  op1 g d a (fun x => bfxW x pos.toNat (len.toNat + 1)) s
/-- BFXU (R114). -/
def actBfxu (g : Guard) (d a : XReg) (pos len : BitVec 6) (s : State) : Act :=
  op1 g d a (fun x => bfxuW x pos.toNat (len.toNat + 1)) s
/-- BFI (R114). -/
def actBfi (g : Guard) (d a b : XReg) (pos len : BitVec 6) (s : State) : Act :=
  op2 g d a b (fun x y => bfiW x y pos.toNat (len.toNat + 1)) s
/-- SEXT (R114). -/
def actSext (g : Guard) (d a : XReg) (k : BitVec 6) (s : State) : Act := op1 g d a (fun x => signFrom x k.toNat) s

/-- CMP: p[pd] = the condition on a and b (R116). -/
def actCmp (g : Guard) (pd : PReg) (a b : XReg) (cc : CmpCond) (s : State) : Act :=
  s.begin g [a, b] [] fun vs s1 => .done (s1.setHart (s1.hart.putPred pd (cmpHolds cc (vs.getD 0 0) (vs.getD 1 0))))
/-- CMPI (R116). -/
def actCmpi (g : Guard) (cc : CmpCond) (pd : PReg) (a : XReg) (imm : BitVec 20) (s : State) : Act :=
  s.begin g [a] [] fun vs s1 => .done (s1.setHart (s1.hart.putPred pd (cmpHolds cc (vs.getD 0 0) (sext64 imm))))
/-- PLOG: the two-input truth table on predicates (R117). -/
def actPlog (g : Guard) (pd pa pb : PReg) (tt : BitVec 4) (s : State) : Act :=
  s.begin g [] [] fun _ s1 =>
    .done (s1.setHart (s1.hart.putPred pd (ttBit tt false (s1.hart.pred pa) (s1.hart.pred pb))))
/-- PMOV.GET: the predicates as a byte, bit 0 set (R118). -/
def actPmovGet (g : Guard) (d : XReg) (s : State) : Act :=
  s.begin g [] [d] fun _ s1 => s.retire s1 d ((s1.hart.p ||| 1).setWidth 64)
/-- PMOV.PUT: p1 to p7 from a (R118). -/
def actPmovPut (g : Guard) (a : XReg) (s : State) : Act :=
  s.begin g [a] [] fun vs s1 =>
    .done (s1.setHart { s1.hart with p := ((vs.getD 0 0).setWidth 8 &&& 0xFE) ||| (s1.hart.p &&& 1) })

/-- LEA: a plus b shifted, the tag kept (R119). -/
def actLea (g : Guard) (d a b : XReg) (sh : BitVec 2) (s : State) : Act :=
  op2 g d a b (fun x y => leaW x (y <<< sh.toNat)) s
/-- LEAI (R119). -/
def actLeai (g : Guard) (d a : XReg) (imm : BitVec 20) (s : State) : Act := op1 g d a (fun x => leaW x (sext64 imm)) s
/-- LIL: the 64-bit constant (R120). -/
def actLil (g : Guard) (d : XReg) (imm : BitVec 64) (s : State) : Act :=
  s.begin g [] [d] fun _ s1 => s.retire s1 d imm

/-! ## The instructions -/

/-- ADD as an instruction (R111). -/
def execAdd (g : Guard) (d a b : XReg) (s : State) : Outcome State Fault Refusal := finish 1 (actAdd g d a b s)
/-- SUB as an instruction (R111). -/
def execSub (g : Guard) (d a b : XReg) (s : State) : Outcome State Fault Refusal := finish 1 (actSub g d a b s)
/-- AND as an instruction (R111). -/
def execAndR (g : Guard) (d a b : XReg) (s : State) : Outcome State Fault Refusal := finish 1 (actAndR g d a b s)
/-- OR as an instruction (R111). -/
def execOrR (g : Guard) (d a b : XReg) (s : State) : Outcome State Fault Refusal := finish 1 (actOrR g d a b s)
/-- XOR as an instruction (R111). -/
def execXorR (g : Guard) (d a b : XReg) (s : State) : Outcome State Fault Refusal := finish 1 (actXorR g d a b s)
/-- LOGT as an instruction (R111). -/
def execLogt (g : Guard) (d a b c : XReg) (tt : BitVec 8) (s : State) : Outcome State Fault Refusal :=
  finish 1 (actLogt g d a b c tt s)
/-- SHL as an instruction (R111). -/
def execShl (g : Guard) (d a b : XReg) (s : State) : Outcome State Fault Refusal := finish 1 (actShl g d a b s)
/-- SHR as an instruction (R111). -/
def execShr (g : Guard) (d a b : XReg) (s : State) : Outcome State Fault Refusal := finish 1 (actShr g d a b s)
/-- SRA as an instruction (R111). -/
def execSra (g : Guard) (d a b : XReg) (s : State) : Outcome State Fault Refusal := finish 1 (actSra g d a b s)
/-- ROL as an instruction (R111). -/
def execRol (g : Guard) (d a b : XReg) (s : State) : Outcome State Fault Refusal := finish 1 (actRol g d a b s)
/-- MIN as an instruction (R111). -/
def execMinS (g : Guard) (d a b : XReg) (s : State) : Outcome State Fault Refusal := finish 1 (actMinS g d a b s)
/-- MAX as an instruction (R111). -/
def execMaxS (g : Guard) (d a b : XReg) (s : State) : Outcome State Fault Refusal := finish 1 (actMaxS g d a b s)
/-- MINU as an instruction (R111). -/
def execMinu (g : Guard) (d a b : XReg) (s : State) : Outcome State Fault Refusal := finish 1 (actMinu g d a b s)
/-- MAXU as an instruction (R111). -/
def execMaxu (g : Guard) (d a b : XReg) (s : State) : Outcome State Fault Refusal := finish 1 (actMaxu g d a b s)
/-- SEL as an instruction (R111). -/
def execSel (g : Guard) (d a b : XReg) (n : PReg) (s : State) : Outcome State Fault Refusal := finish 1 (actSel g d a b n s)
/-- ABS as an instruction (R111). -/
def execAbs (g : Guard) (d a : XReg) (s : State) : Outcome State Fault Refusal := finish 1 (actAbs g d a s)
/-- ADDI as an instruction (R112). -/
def execAddi (g : Guard) (d a : XReg) (imm : BitVec 20) (s : State) : Outcome State Fault Refusal :=
  finish 1 (actAddi g d a imm s)
/-- ANDI as an instruction (R112). -/
def execAndi (g : Guard) (d a : XReg) (imm : BitVec 20) (s : State) : Outcome State Fault Refusal :=
  finish 1 (actAndi g d a imm s)
/-- ORI as an instruction (R112). -/
def execOri (g : Guard) (d a : XReg) (imm : BitVec 20) (s : State) : Outcome State Fault Refusal :=
  finish 1 (actOri g d a imm s)
/-- XORI as an instruction (R112). -/
def execXori (g : Guard) (d a : XReg) (imm : BitVec 20) (s : State) : Outcome State Fault Refusal :=
  finish 1 (actXori g d a imm s)
/-- SHLI as an instruction (R112). -/
def execShli (g : Guard) (d a : XReg) (n : BitVec 6) (s : State) : Outcome State Fault Refusal :=
  finish 1 (actShli g d a n s)
/-- SHRI as an instruction (R112). -/
def execShri (g : Guard) (d a : XReg) (n : BitVec 6) (s : State) : Outcome State Fault Refusal :=
  finish 1 (actShri g d a n s)
/-- SRAI as an instruction (R112). -/
def execSrai (g : Guard) (d a : XReg) (n : BitVec 6) (s : State) : Outcome State Fault Refusal :=
  finish 1 (actSrai g d a n s)
/-- LI as an instruction (R112). -/
def execLi (g : Guard) (d : XReg) (imm : BitVec 20) (s : State) : Outcome State Fault Refusal := finish 1 (actLi g d imm s)
/-- MUL as an instruction (R113). -/
def execMul (g : Guard) (d a b : XReg) (s : State) : Outcome State Fault Refusal := finish 1 (actMul g d a b s)
/-- MULH as an instruction (R113). -/
def execMulh (g : Guard) (d a b : XReg) (s : State) : Outcome State Fault Refusal := finish 1 (actMulh g d a b s)
/-- MULHU as an instruction (R113). -/
def execMulhu (g : Guard) (d a b : XReg) (s : State) : Outcome State Fault Refusal := finish 1 (actMulhu g d a b s)
/-- MADD as an instruction (R113). -/
def execMadd (g : Guard) (d a b c : XReg) (s : State) : Outcome State Fault Refusal := finish 1 (actMadd g d a b c s)
/-- DIV as an instruction (R113). -/
def execDiv (g : Guard) (d a b : XReg) (s : State) : Outcome State Fault Refusal := finish 1 (actDiv g d a b s)
/-- DIVU as an instruction (R113). -/
def execDivu (g : Guard) (d a b : XReg) (s : State) : Outcome State Fault Refusal := finish 1 (actDivu g d a b s)
/-- REM as an instruction (R113). -/
def execRem (g : Guard) (d a b : XReg) (s : State) : Outcome State Fault Refusal := finish 1 (actRem g d a b s)
/-- REMU as an instruction (R113). -/
def execRemu (g : Guard) (d a b : XReg) (s : State) : Outcome State Fault Refusal := finish 1 (actRemu g d a b s)
/-- CLZ as an instruction (R114). -/
def execClz (g : Guard) (d a : XReg) (s : State) : Outcome State Fault Refusal := finish 1 (actClz g d a s)
/-- CTZ as an instruction (R114). -/
def execCtz (g : Guard) (d a : XReg) (s : State) : Outcome State Fault Refusal := finish 1 (actCtz g d a s)
/-- POPC as an instruction (R114). -/
def execPopc (g : Guard) (d a : XReg) (s : State) : Outcome State Fault Refusal := finish 1 (actPopc g d a s)
/-- BREV as an instruction (R114). -/
def execBrev (g : Guard) (d a : XReg) (s : State) : Outcome State Fault Refusal := finish 1 (actBrev g d a s)
/-- BFX as an instruction (R114). -/
def execBfx (g : Guard) (d a : XReg) (pos len : BitVec 6) (s : State) : Outcome State Fault Refusal :=
  finish 1 (actBfx g d a pos len s)
/-- BFXU as an instruction (R114). -/
def execBfxu (g : Guard) (d a : XReg) (pos len : BitVec 6) (s : State) : Outcome State Fault Refusal :=
  finish 1 (actBfxu g d a pos len s)
/-- BFI as an instruction (R114). -/
def execBfi (g : Guard) (d a b : XReg) (pos len : BitVec 6) (s : State) : Outcome State Fault Refusal :=
  finish 1 (actBfi g d a b pos len s)
/-- SEXT as an instruction (R114). -/
def execSext (g : Guard) (d a : XReg) (k : BitVec 6) (s : State) : Outcome State Fault Refusal :=
  finish 1 (actSext g d a k s)
/-- CMP as an instruction (R116). -/
def execCmp (g : Guard) (pd : PReg) (a b : XReg) (cc : CmpCond) (s : State) : Outcome State Fault Refusal :=
  finish 1 (actCmp g pd a b cc s)
/-- CMPI as an instruction (R116). -/
def execCmpi (g : Guard) (cc : CmpCond) (pd : PReg) (a : XReg) (imm : BitVec 20) (s : State) : Outcome State Fault Refusal :=
  finish 1 (actCmpi g cc pd a imm s)
/-- PLOG as an instruction (R117). -/
def execPlog (g : Guard) (pd pa pb : PReg) (tt : BitVec 4) (s : State) : Outcome State Fault Refusal :=
  finish 1 (actPlog g pd pa pb tt s)
/-- PMOV_GET as an instruction (R118). -/
def execPmovGet (g : Guard) (d : XReg) (s : State) : Outcome State Fault Refusal := finish 1 (actPmovGet g d s)
/-- PMOV_PUT as an instruction (R118). -/
def execPmovPut (g : Guard) (a : XReg) (s : State) : Outcome State Fault Refusal := finish 1 (actPmovPut g a s)
/-- LEA as an instruction (R119). -/
def execLea (g : Guard) (d a b : XReg) (sh : BitVec 2) (s : State) : Outcome State Fault Refusal :=
  finish 1 (actLea g d a b sh s)
/-- LEAI as an instruction (R119). -/
def execLeai (g : Guard) (d a : XReg) (imm : BitVec 20) (s : State) : Outcome State Fault Refusal :=
  finish 1 (actLeai g d a imm s)
/-- LIL as an instruction (R120). -/
def execLil (g : Guard) (d : XReg) (imm : BitVec 64) (s : State) : Outcome State Fault Refusal := finish 2 (actLil g d imm s)

end Sys2Proof.Machine
end

