-- ==== Sys2Proof/Machine/Rpt.lean ====
section
/-! DEFINITION. RPT: a repetition of the next word, one iteration at a time (R53, R54, R90, R91, R109; DEDUCED log 10). -/

namespace Sys2Proof.Machine

open Host (Outcome)

/-- The stride of a code (R53). -/
def strideOf (c : BitVec 2) : Nat := if c = 0 then 0 else 2 ^ (c.toNat - 1)

/-- A field of a governed word with a stride, at iteration i: its new value, or none past its limit, at iteration 0 too (R90,
R109; DEDUCED log 19). A field with stride 0 is not strided. -/
def moveField (allot : Nat) (k : StrideKind) (f : BitVec 6) (stride i : Nat) : Option (BitVec 6) :=
  let n := i * stride
  if stride = 0 then some f
  else
    match k with
    | .reg => if f.toNat + n < allot then some (f + BitVec.ofNat 6 n) else none
    | .small lim => if f.toNat + n ≤ lim then some (f + BitVec.ofNat 6 n) else none
    | .predLow => if f.toNat % 8 + n ≤ 7 then some (f + BitVec.ofNat 6 n) else none
    | .off => some f | .ignored => some f | .reserved => some f

/-- A governed word laid out at iteration i: none when a strided field passes its limit (R90). -/
def moveEnc (allot : Nat) (k : StrideKinds) (st : Nat × Nat × Nat × Nat) (i : Nat) (e : Enc) : Option Enc :=
  let mv (k : StrideKind) (f : BitVec 6) (n : Nat) : Option (BitVec 6) := moveField allot k f n i
  let mv4 (k : StrideKind) (f : BitVec 4) (n : Nat) : Option (BitVec 4) :=
    (moveField allot k (f.setWidth 6) n i).map fun x => x.setWidth 4
  match e with
  | .s maj min f => do
    let d ← mv k.d f.d st.1
    let a ← mv k.a f.a st.2.1
    let b ← mv k.b f.b st.2.2.1
    let c ← mv k.c f.c st.2.2.2
    some (.s maj min { f with d := d, a := a, b := b, c := c })
  | .i maj min f => do
    let d ← mv k.d f.d st.1
    let a ← mv k.a f.a st.2.1
    some (.i maj min { f with d := d, a := a })
  | .m maj min f => do
    let d ← mv k.d f.d st.1
    let a ← mv k.a f.a st.2.1
    some (.m maj min { f with d := d, a := a })
  | .v maj min f => do
    let d ← mv4 k.d f.vd st.1
    let a ← mv4 k.a f.va st.2.1
    let b ← mv4 k.b f.vb st.2.2.1
    let c ← mv4 k.c f.vc st.2.2.2
    some (.v maj min { f with vd := d, va := a, vb := b, vc := c })
  | .b maj min f => some (.b maj min f)
  | .l maj min f => some (.l maj min f)
  | .e maj min f => some (.e maj min f)
  | .none => some .none

/-- The word of a laid-out governed instruction. -/
def encWord (e : Enc) : IWord :=
  match e with
  | .s maj min f => f.toWord maj min
  | .i maj min f => f.toWord maj min
  | .m maj min f => f.toWord maj min
  | .v maj min f => f.toWord maj min
  | .b maj min f => f.toWord maj min
  | .l maj min f => f.toWord0 maj min
  | .e maj min f => f.toWord maj min
  | .none => 0

/-- What a governed word does at an iteration, its register fields moved; k is the iteration when its offset advances, else 0. -/
def governedAct (i : Instr) (k : Nat) (s : State) : Act :=
  match i with
  | .add g d a b => actAdd g d a b s
  | .sub g d a b => actSub g d a b s
  | .andR g d a b => actAndR g d a b s
  | .orR g d a b => actOrR g d a b s
  | .xorR g d a b => actXorR g d a b s
  | .logt g d a b c tt => actLogt g d a b c tt s
  | .shl g d a b => actShl g d a b s
  | .shr g d a b => actShr g d a b s
  | .sra g d a b => actSra g d a b s
  | .rol g d a b => actRol g d a b s
  | .minS g d a b => actMinS g d a b s
  | .maxS g d a b => actMaxS g d a b s
  | .minu g d a b => actMinu g d a b s
  | .maxu g d a b => actMaxu g d a b s
  | .sel g d a b n => actSel g d a b n s
  | .abs g d a => actAbs g d a s
  | .addi g d a imm => actAddi g d a imm s
  | .andi g d a imm => actAndi g d a imm s
  | .ori g d a imm => actOri g d a imm s
  | .xori g d a imm => actXori g d a imm s
  | .shli g d a n => actShli g d a n s
  | .shri g d a n => actShri g d a n s
  | .srai g d a n => actSrai g d a n s
  | .li g d imm => actLi g d imm s
  | .mul g d a b => actMul g d a b s
  | .mulh g d a b => actMulh g d a b s
  | .mulhu g d a b => actMulhu g d a b s
  | .madd g d a b c => actMadd g d a b c s
  | .div g d a b => actDiv g d a b s
  | .divu g d a b => actDivu g d a b s
  | .rem g d a b => actRem g d a b s
  | .remu g d a b => actRemu g d a b s
  | .clz g d a => actClz g d a s
  | .ctz g d a => actCtz g d a s
  | .popc g d a => actPopc g d a s
  | .brev g d a => actBrev g d a s
  | .bfx g d a pos len => actBfx g d a pos len s
  | .bfxu g d a pos len => actBfxu g d a pos len s
  | .bfi g d a b pos len => actBfi g d a b pos len s
  | .sext g d a k => actSext g d a k s
  | .cmp g pd a b cc => actCmp g pd a b cc s
  | .plog g pd pa pb tt => actPlog g pd pa pb tt s
  | .pmovGet g d => actPmovGet g d s
  | .pmovPut g a => actPmovPut g a s
  | .cmpi g cc pd a imm => actCmpi g cc pd a imm s
  | .lea g d a b sh => actLea g d a b sh s
  | .leai g d a imm => actLeai g d a imm s
  | .lil _ _ _ => illop .minUnassigned s
  | .jmpl _ _ => illop .minUnassigned s
  | .br _ _ => illop .minUnassigned s
  | .call _ _ => illop .minUnassigned s
  | .callc _ _ => illop .minUnassigned s
  | .jmpr _ _ => illop .minUnassigned s
  | .callr _ _ => illop .minUnassigned s
  | .callcr _ _ => illop .minUnassigned s
  | .ret _ _ => illop .minUnassigned s
  | .retc _ _ => illop .minUnassigned s
  | .fork _ _ _ _ => illop .minUnassigned s
  | .rdv _ => illop .minUnassigned s
  | .rpt _ _ _ _ _ _ => illop .minUnassigned s
  | .halt _ => illop .minUnassigned s
  | .yield _ => illop .minUnassigned s
  | .dqput g a q => actDqput g a q s
  | .dqget g d q => actDqget g d q s
  | .dqcls g q => actDqcls g q s
  | .bqput g n inv => actBqput g n inv s
  | .bqbr _ _ => illop .minUnassigned s
  | .ld g sx tile cls sz sc d a off => actLdAt (k * sizeBytes sz) g sx tile cls sz sc d a off s
  | .st g tile cls sz sc d a off => actStAt (k * sizeBytes sz) g tile cls sz sc d a off s
  | .atom g op big ord sc tier d a b => actAtom g op big ord sc tier d a b s
  | .fence g kind sc tier => actFence g kind sc tier s
  | .xfence g pfrom pto => actXfence g pfrom pto s
  | .trap _ _ => illop .minUnassigned s
  | .tret _ => illop .minUnassigned s
  | .tretSkip _ => illop .minUnassigned s
  | .sysc _ _ => illop .minUnassigned s
  | .cwrd _ _ _ => illop .minUnassigned s
  | .cwwr _ _ _ => illop .minUnassigned s
  | .nop _ => illop .minUnassigned s
  | .vadd ty vd va vb amod bmod m rm => actVadd ty vd va vb amod bmod m rm s
  | .vsub ty vd va vb amod bmod m rm => actVsub ty vd va vb amod bmod m rm s
  | .vmul ty vd va vb amod bmod m rm => actVmul ty vd va vb amod bmod m rm s
  | .vfma ty vd va vb vc amod bmod m rm => actVfma ty vd va vb vc amod bmod m rm s
  | .vfms ty vd va vb vc amod bmod m rm => actVfms ty vd va vb vc amod bmod m rm s
  | .vmin ty vd va vb amod bmod m => actVmin ty vd va vb amod bmod m s
  | .vmax ty vd va vb amod bmod m => actVmax ty vd va vb amod bmod m s
  | .vabs ty vd va amod m => actVabs ty vd va amod m s
  | .vneg ty vd va amod m => actVneg ty vd va amod m s
  | .viadd w mode vd va vb amod bmod m => actViadd w mode vd va vb amod bmod m s
  | .visub w mode vd va vb amod bmod m => actVisub w mode vd va vb amod bmod m s
  | .vimul w mode vd va vb amod bmod m => actVimul w mode vd va vb amod bmod m s
  | .vimad w vd va vb vc amod bmod m => actVimad w vd va vb vc amod bmod m s
  | .vshl w vd va vb amod bmod m => actVshl w vd va vb amod bmod m s
  | .vshr w vd va vb amod bmod m => actVshr w vd va vb amod bmod m s
  | .vsra w vd va vb amod bmod m => actVsra w vd va vb amod bmod m s
  | .vlogt vd va vb vc tt m => actVlogt vd va vb vc tt m s
  | .vimin w uns vd va vb amod bmod m => actVimin w uns vd va vb amod bmod m s
  | .vimax w uns vd va vb amod bmod m => actVimax w uns vd va vb amod bmod m s
  | .vcmp ty cc md va vb m => actVcmp ty cc md va vb m s
  | .vsel vd va vb m => actVsel vd va vb m s
  | .vmsk md ma mb tt m => actVmsk md ma mb tt m s
  | .vrcp vd va m => actVrcp vd va m s
  | .vrsq vd va m => actVrsq vd va m s
  | .vrcpr vd va vb m rm => actVrcpr vd va vb m rm s
  | .vrsqr vd va vb m rm => actVrsqr vd va vb m rm s
  | .vexp2 vd va m => actVexp2 vd va m s
  | .vlog2 vd va m => actVlog2 vd va m s
  | .vtanh vd va m => actVtanh vd va m s
  | .vcvt src dst inf vd va amod m rm => actVcvt src dst inf vd va amod m rm s
  | .vpack w vd va vb m => actVpack w vd va vb m s
  | .vunpk w sx vd va part m => actVunpk w sx vd va part m s
  | .vrotr vd va k m => actVrotr vd va k m s
  | .vbcr vd va k m => actVbcr vd va k m s
  | .vredr op vd va m rm => actVredr op vd va m rm s
  | .vscnr op vd va m rm => actVscnr op vd va m rm s
  | .vrotc vd va k m => actVrotc vd va k m s
  | .vbcc vd va k m => actVbcc vd va k m s
  | .vredc op vd va m rm => actVredc op vd va m rm s
  | .vscnc op vd va m rm => actVscnc op vd va m rm s
  | .vperm vd va vb m => actVperm vd va vb m s
  | .vmov vd va amod m => actVmov vd va amod m s
  | .vmovs vd n m => actVmovs vd n m s
  | .vmovx n va sx m => actVmovx n va sx m s
  | .zwr z va q m => actZwr z va q m s
  | .zrd src dst inf vd z q m rm => actZrd src dst inf vd z q m rm s
  | .zclr z => actZclr z s
  | .defer va b m => actDefer va b m s
  | .drain vd b m => actDrain vd b m s
  | .dfcnt n b => actDfcnt n b s
  | .vld g vd a b m weak => actVld g vd a b m weak s
  | .vst g vd a b m weak => actVst g vd a b m weak s
  | .vgath g vd a vb m weak => actVgath g vd a vb m weak s
  | .vscat g vd a vb m weak => actVscat g vd a vb m weak s
  | .qst g k vd a m => actQst g k vd a m s
  | .qld g k vd a m => actQld g k vd a m s
  | .lvld g k tb a => actLvld g k tb a s
  | .qcfg g d a => actQcfg g d a s
  | .cpy _ _ _ _ _ => illop .minUnassigned s
  | .cpys _ _ _ _ _ => illop .minUnassigned s
  | .cpyg _ _ _ _ _ => illop .minUnassigned s
  | .cpyx _ _ _ _ _ => illop .minUnassigned s
  | .tdef g d t a => actTdef g d t a s
  | .tset g d t ts => actTset g d t ts s
  | .trel g t => actTrel g t s
  | .bankcfg g d b mode => actBankcfg g d b mode s
  | .fset g n tg => actFset g n tg s
  | .fwait g n tg => actFwait g n tg s
  | .fclr g n tg => actFclr g n tg s
  | .lnt g a b lv => actLnt g a b lv s
  | .mopa g a b => actMopa g a b s
  | .mopb g a b => actMopb g a b s
  | .mopc g a => actMopc g a s
  | .idxv g a => actIdxv g a s
  | .mgo g nlev => actMgo g nlev s
  | .mwait g n => actMwait g n s
  | .mstat g d => actMstat g d s
  | .mstatClr g d => actMstatClr g d s
  | .abal g d n => actAbal g d n s
  | .abfr g a n => actAbfr g a n s
  | .ainit g a b n pr => actAinit g a b n pr s
  | .anrm g a n pr => actAnrm g a n pr s
  | .ard g fmt vd a m => actArd g fmt vd a m s
  | .awr g fmt vd a m => actAwr g fmt vd a m s
  | .efcap g d a => actEfcap g d a s
  | .ecat g d a b => actEcat g d a b s
  | .eflt g d a b c out => actEflt g d a b c out s
  | .ereb g d a b c => actEreb g d a b c s
  | .eapl g a => actEapl g a s
  | .eaplRel g a sc tier => actEaplRel g a sc tier s
  | .edrp g a => actEdrp g a s
  | .ecnt g d a => actEcnt g d a s
  | .ecntArena g d => actEcntArena g d s
  | .ssync g d => actSsync g d s
  | .bara g d n sm i => actBara g d n sm i s
  | .barw g a n i => actBarw g a n i s
  | .baraw g n sm i => actBaraw g n sm i s
  | .xplan g a => actXplan g a s
  | .grank g d n => actGrank g d n s
  | .gsize g d n => actGsize g d n s
  | .gsizeShr g d a n => actGsizeShr g d a n s
  | .gnbrNext g d n => actGnbrNext g d n s
  | .gnbrPrev g d n => actGnbrPrev g d n s
  | .gnbrXor g d n j => actGnbrXor g d n j s
  | .coll g kind op ty d a b n => actColl g kind op ty d a b n s
  | .collw g n => actCollw g n s
  | .launch g d a b => actLaunch g d a b s
  | .scoutStop _ _ _ => illop .minUnassigned s
  | .scoutShift _ _ _ _ => illop .minUnassigned s
  | .scoutResume _ _ _ => illop .minUnassigned s
  | .scin _ _ _ _ => illop .minUnassigned s
  | .scver _ _ _ => illop .minUnassigned s
  | .scverPart _ _ => illop .minUnassigned s
  | .ownsetCore _ _ _ _ => illop .minUnassigned s
  | .ownsetBank _ _ _ _ => illop .minUnassigned s
  | .ownsetAcm _ _ _ _ => illop .minUnassigned s
  | .preqClr _ _ _ => illop .minUnassigned s
  | .preqSet _ _ _ => illop .minUnassigned s
  | .cutb _ _ _ => illop .minUnassigned s
  | .idem _ _ _ _ => illop .minUnassigned s
  | .tmarkQ _ _ _ => illop .minUnassigned s
  | .tmarkF _ _ _ => illop .minUnassigned s
  | .tlbiPage _ _ _ _ => illop .minUnassigned s
  | .tlbiCtx _ _ _ => illop .minUnassigned s
  | .tlbiAll _ _ => illop .minUnassigned s
  | .tlbiPte _ _ _ => illop .minUnassigned s
  | .pgret _ _ _ => illop .minUnassigned s
  | .pgretDrop _ _ _ => illop .minUnassigned s
  | .wayq _ _ _ => illop .minUnassigned s
  | .injL2ce _ _ _ => illop .minUnassigned s
  | .injL2ue _ _ _ => illop .minUnassigned s
  | .injHbmue _ _ _ => illop .minUnassigned s
  | .atsiQ _ _ _ => illop .minUnassigned s
  | .atsiF _ _ _ => illop .minUnassigned s
  | .slotchk _ _ _ _ => illop .minUnassigned s
  | .reloc _ _ _ _ => illop .minUnassigned s
  | .qpop _ _ _ _ => illop .minUnassigned s
  | .qack _ _ _ _ => illop .minUnassigned s
  | .polrun _ _ _ _ => illop .minUnassigned s
  | .lkeyOwn _ _ _ => illop .minUnassigned s
  | .lkeyAcc _ _ _ => illop .minUnassigned s
  | .lrevk _ _ _ => illop .minUnassigned s
  | .qref _ _ _ _ => illop .minUnassigned s
  | .evSqsub _ _ _ => illop .minUnassigned s
  | .evSqstatClearOvf _ _ _ => illop .minUnassigned s
  | .evMboxDoorbell _ => illop .minUnassigned s
  | .evPlatEnable _ _ _ => illop .minUnassigned s
  | .evPlatDisable _ _ _ => illop .minUnassigned s
  | .evPkillGo _ _ => illop .minUnassigned s
  | .evRegisterWrite _ _ _ => illop .minUnassigned s
  | .evFrontEndConsume _ _ => illop .minUnassigned s
  | .evKernelPlace _ _ => illop .minUnassigned s
  | .evJobEnd _ => illop .minUnassigned s
  | .evKernelRetire _ => illop .minUnassigned s
  | .evStreamWaitEnd _ _ => illop .minUnassigned s
  | .evStreamYielded _ _ => illop .minUnassigned s
  | .evLoadFill _ _ _ => illop .minUnassigned s
  | .evShadowResume _ _ _ _ => illop .minUnassigned s
  | .evWalkComplete _ _ => illop .minUnassigned s
  | .evCopyIssue _ => illop .minUnassigned s
  | .evCopyComplete _ _ _ => illop .minUnassigned s
  | .evFlagFire _ _ => illop .minUnassigned s
  | .evFlagClearAct _ _ => illop .minUnassigned s
  | .evFwaitMarkerIssue _ _ => illop .minUnassigned s
  | .evMgoIssue _ => illop .minUnassigned s
  | .evFoldEntry _ => illop .minUnassigned s
  | .evArrayResume _ _ => illop .minUnassigned s
  | .evCollIssue _ => illop .minUnassigned s
  | .evCollComplete _ _ => illop .minUnassigned s
  | .evCollwComplete _ => illop .minUnassigned s
  | .evSuperstepComplete _ => illop .minUnassigned s
  | .evCommPhaseEnd _ _ => illop .minUnassigned s
  | .evReplayWindowRetire _ => illop .minUnassigned s
  | .evEngineUeReplay _ _ => illop .minUnassigned s
  | .evBacksightMismatch _ _ => illop .minUnassigned s
  | .evTerminationComplete _ => illop .minUnassigned s
  | .evEventDispatch _ => illop .minUnassigned s
  | .evStationCoreReset _ => illop .minUnassigned s
  | .evTimeSliceExpiry _ => illop .minUnassigned s
  | .evSchedulerWatchdog _ => illop .minUnassigned s
  | .evPowerOn => illop .minUnassigned s
  | .evBootImageOffer _ _ _ => illop .minUnassigned s
  | .evRemoteResponse _ _ => illop .minUnassigned s
  | .evRemoteTimeout _ _ => illop .minUnassigned s
  | .evIncomingRequest _ _ _ => illop .minUnassigned s
  | .evAtsResponse _ _ _ _ _ _ => illop .minUnassigned s
  | .evPriResponse _ _ _ => illop .minUnassigned s
  | .evPriTimeout _ _ _ => illop .minUnassigned s
  | .evAtsInvalidation _ _ _ => illop .minUnassigned s
  | .evPackageIdAssign _ => illop .minUnassigned s
  | .evD2dFlitRetry _ => illop .minUnassigned s
  | .evPortRetrainFail _ _ => illop .minUnassigned s
  | .evHbmStackFail _ => illop .minUnassigned s
  | .evCoolantOverlimit => illop .minUnassigned s
  | .evPowerLoss => illop .minUnassigned s
  | .evUalinkPortTrained _ => illop .minUnassigned s
  | .evFunctionBringUp _ => illop .minUnassigned s
  | .evInFieldScanTest _ _ => illop .minUnassigned s

/-- The end of a repetition: PRC is clear, the pc is past both words (R90). -/
def State.rptDone (s : State) : State := (s.setHart { s.hart with prc := 0, rptOn := false }).setPc (s.pcAfter 2)

/-- The end of iteration i of n: the next one is at hand, or the pair is done (R90; DEDUCED log 10). -/
def State.rptNext (s : State) (i n : Nat) : State :=
  if i + 1 < n then s.setHart { s.hart with prc := prcOf true (i + 1) n } else s.rptDone

/-- Iteration PRC.ITER of a governed word (R90, R91): the limits first, then the wrong end of a queue, then the word. -/
def State.rptRun (s : State) (gov : Instr) (sd sa sb sc : BitVec 2) : Act :=
  let i := prcIter s.hart.prc
  let n := prcCount s.hart.prc
  let k := gov.strides
  if n ≤ i then .jump s.rptDone
  else
    match moveEnc s.allotOf k (strideOf sd, strideOf sa, strideOf sb, strideOf sc) i gov.enc with
    | none => trapOf cALLOT 0 0 s
    | some e =>
      match decodeFields (encWord e) 0 with
      | .error d => illop d s
      | .ok j =>
        if j.reservedIn s.role then illop .reserved s
        else
          match governedAct j (if k.b = .off ∧ sb ≠ 0 then i else 0) s with
          | .done s1 => .jump (s1.rptNext i n)
          | a => a

/-- RPT: the pair decodes, the guard is read unless this repetition is under way, a fresh start reads the count, and one
iteration runs (R48, R54, R90; DEDUCED log 10). -/
def actRpt (g : Guard) (a : XReg) (sd : BitVec 2) (sa : BitVec 2) (sb : BitVec 2) (sc : BitVec 2) (s : State) : Act :=
  match s.fetchAt (s.pcAfter 1) with
  | .error t => .trap t s
  | .ok w =>
    match decodeGoverned s.role sd sa sb sc w with
    | .error d => illop d s
    | .ok gov =>
      if s.hart.rptOn then s.rptRun gov sd sa sb sc
      else if !s.guardOn g then .done s
      else if prcAct s.hart.prc then (s.setHart { s.hart with rptOn := true }).rptRun gov sd sa sb sc
      else
        s.begin g [a] [] fun vs s1 =>
          let v := (vs.getD 0 0).toNat
          let s2 := if 65535 < v then s1.setStat statRPTSAT else s1
          (s2.setHart { s2.hart with prc := prcOf true 0 (min v 65535), rptOn := true }).rptRun gov sd sa sb sc

/-- RPT as an instruction (R53, R90). -/
def execRpt (g : Guard) (a : XReg) (sd : BitVec 2) (sa : BitVec 2) (sb : BitVec 2) (sc : BitVec 2) (s : State) :
    Outcome State Fault Refusal :=
  finish 1 (actRpt g a sd sa sb sc s)

end Sys2Proof.Machine
end

