-- ==== Sys2Proof/Machine/Dispatch.lean ====
section
/-! DEFINITION. The meaning of every instruction: one arm per constructor of Instr (DESIGN CHOICE log 1). -/

namespace Sys2Proof.Machine

open Host (Outcome)

/-- An instruction executed by the current agent, or a device event taken. -/
def exec (i : Instr) (s : State) : Host.Outcome State Fault Refusal :=
  match i with
  | .add g d a b => Sys2Proof.Machine.execAdd g d a b s
  | .sub g d a b => Sys2Proof.Machine.execSub g d a b s
  | .andR g d a b => Sys2Proof.Machine.execAndR g d a b s
  | .orR g d a b => Sys2Proof.Machine.execOrR g d a b s
  | .xorR g d a b => Sys2Proof.Machine.execXorR g d a b s
  | .logt g d a b c tt => Sys2Proof.Machine.execLogt g d a b c tt s
  | .shl g d a b => Sys2Proof.Machine.execShl g d a b s
  | .shr g d a b => Sys2Proof.Machine.execShr g d a b s
  | .sra g d a b => Sys2Proof.Machine.execSra g d a b s
  | .rol g d a b => Sys2Proof.Machine.execRol g d a b s
  | .minS g d a b => Sys2Proof.Machine.execMinS g d a b s
  | .maxS g d a b => Sys2Proof.Machine.execMaxS g d a b s
  | .minu g d a b => Sys2Proof.Machine.execMinu g d a b s
  | .maxu g d a b => Sys2Proof.Machine.execMaxu g d a b s
  | .sel g d a b n => Sys2Proof.Machine.execSel g d a b n s
  | .abs g d a => Sys2Proof.Machine.execAbs g d a s
  | .addi g d a imm => Sys2Proof.Machine.execAddi g d a imm s
  | .andi g d a imm => Sys2Proof.Machine.execAndi g d a imm s
  | .ori g d a imm => Sys2Proof.Machine.execOri g d a imm s
  | .xori g d a imm => Sys2Proof.Machine.execXori g d a imm s
  | .shli g d a n => Sys2Proof.Machine.execShli g d a n s
  | .shri g d a n => Sys2Proof.Machine.execShri g d a n s
  | .srai g d a n => Sys2Proof.Machine.execSrai g d a n s
  | .li g d imm => Sys2Proof.Machine.execLi g d imm s
  | .mul g d a b => Sys2Proof.Machine.execMul g d a b s
  | .mulh g d a b => Sys2Proof.Machine.execMulh g d a b s
  | .mulhu g d a b => Sys2Proof.Machine.execMulhu g d a b s
  | .madd g d a b c => Sys2Proof.Machine.execMadd g d a b c s
  | .div g d a b => Sys2Proof.Machine.execDiv g d a b s
  | .divu g d a b => Sys2Proof.Machine.execDivu g d a b s
  | .rem g d a b => Sys2Proof.Machine.execRem g d a b s
  | .remu g d a b => Sys2Proof.Machine.execRemu g d a b s
  | .clz g d a => Sys2Proof.Machine.execClz g d a s
  | .ctz g d a => Sys2Proof.Machine.execCtz g d a s
  | .popc g d a => Sys2Proof.Machine.execPopc g d a s
  | .brev g d a => Sys2Proof.Machine.execBrev g d a s
  | .bfx g d a pos len => Sys2Proof.Machine.execBfx g d a pos len s
  | .bfxu g d a pos len => Sys2Proof.Machine.execBfxu g d a pos len s
  | .bfi g d a b pos len => Sys2Proof.Machine.execBfi g d a b pos len s
  | .sext g d a k => Sys2Proof.Machine.execSext g d a k s
  | .cmp g pd a b cc => Sys2Proof.Machine.execCmp g pd a b cc s
  | .plog g pd pa pb tt => Sys2Proof.Machine.execPlog g pd pa pb tt s
  | .pmovGet g d => Sys2Proof.Machine.execPmovGet g d s
  | .pmovPut g a => Sys2Proof.Machine.execPmovPut g a s
  | .cmpi g cc pd a imm => Sys2Proof.Machine.execCmpi g cc pd a imm s
  | .lea g d a b sh => Sys2Proof.Machine.execLea g d a b sh s
  | .leai g d a imm => Sys2Proof.Machine.execLeai g d a imm s
  | .lil g d imm => Sys2Proof.Machine.execLil g d imm s
  | .jmpl g imm => Sys2Proof.Machine.execJmpl g imm s
  | .br g disp => Sys2Proof.Machine.execBr g disp s
  | .call g disp => Sys2Proof.Machine.execCall g disp s
  | .callc g disp => Sys2Proof.Machine.execCallc g disp s
  | .jmpr g a => Sys2Proof.Machine.execJmpr g a s
  | .callr g a => Sys2Proof.Machine.execCallr g a s
  | .callcr g a => Sys2Proof.Machine.execCallcr g a s
  | .ret g a => Sys2Proof.Machine.execRet g a s
  | .retc g a => Sys2Proof.Machine.execRetc g a s
  | .fork g ax am ac => Sys2Proof.Machine.execFork g ax am ac s
  | .rdv g => Sys2Proof.Machine.execRdv g s
  | .rpt g a sd sa sb sc => Sys2Proof.Machine.execRpt g a sd sa sb sc s
  | .halt g => Sys2Proof.Machine.execHalt g s
  | .yield g => Sys2Proof.Machine.execYield g s
  | .dqput g a q => Sys2Proof.Machine.execDqput g a q s
  | .dqget g d q => Sys2Proof.Machine.execDqget g d q s
  | .dqcls g q => Sys2Proof.Machine.execDqcls g q s
  | .bqput g n inv => Sys2Proof.Machine.execBqput g n inv s
  | .bqbr g disp => Sys2Proof.Machine.execBqbr g disp s
  | .ld g sx tile cls sz sc d a off => Sys2Proof.Machine.execLd g sx tile cls sz sc d a off s
  | .st g tile cls sz sc d a off => Sys2Proof.Machine.execSt g tile cls sz sc d a off s
  | .atom g op big ord sc tier d a b => Sys2Proof.Machine.execAtom g op big ord sc tier d a b s
  | .fence g kind sc tier => Sys2Proof.Machine.execFence g kind sc tier s
  | .xfence g pfrom pto => Sys2Proof.Machine.execXfence g pfrom pto s
  | .trap g n => Sys2Proof.Machine.execTrap g n s
  | .tret g => Sys2Proof.Machine.execTret g s
  | .tretSkip g => Sys2Proof.Machine.execTretSkip g s
  | .sysc g n => Sys2Proof.Machine.execSysc g n s
  | .cwrd g d w => Sys2Proof.Machine.execCwrd g d w s
  | .cwwr g w a => Sys2Proof.Machine.execCwwr g w a s
  | .nop g => Sys2Proof.Machine.execNop g s
  | .vadd ty vd va vb amod bmod m rm => Sys2Proof.Machine.execVadd ty vd va vb amod bmod m rm s
  | .vsub ty vd va vb amod bmod m rm => Sys2Proof.Machine.execVsub ty vd va vb amod bmod m rm s
  | .vmul ty vd va vb amod bmod m rm => Sys2Proof.Machine.execVmul ty vd va vb amod bmod m rm s
  | .vfma ty vd va vb vc amod bmod m rm => Sys2Proof.Machine.execVfma ty vd va vb vc amod bmod m rm s
  | .vfms ty vd va vb vc amod bmod m rm => Sys2Proof.Machine.execVfms ty vd va vb vc amod bmod m rm s
  | .vmin ty vd va vb amod bmod m => Sys2Proof.Machine.execVmin ty vd va vb amod bmod m s
  | .vmax ty vd va vb amod bmod m => Sys2Proof.Machine.execVmax ty vd va vb amod bmod m s
  | .vabs ty vd va amod m => Sys2Proof.Machine.execVabs ty vd va amod m s
  | .vneg ty vd va amod m => Sys2Proof.Machine.execVneg ty vd va amod m s
  | .viadd w mode vd va vb amod bmod m => Sys2Proof.Machine.execViadd w mode vd va vb amod bmod m s
  | .visub w mode vd va vb amod bmod m => Sys2Proof.Machine.execVisub w mode vd va vb amod bmod m s
  | .vimul w mode vd va vb amod bmod m => Sys2Proof.Machine.execVimul w mode vd va vb amod bmod m s
  | .vimad w vd va vb vc amod bmod m => Sys2Proof.Machine.execVimad w vd va vb vc amod bmod m s
  | .vshl w vd va vb amod bmod m => Sys2Proof.Machine.execVshl w vd va vb amod bmod m s
  | .vshr w vd va vb amod bmod m => Sys2Proof.Machine.execVshr w vd va vb amod bmod m s
  | .vsra w vd va vb amod bmod m => Sys2Proof.Machine.execVsra w vd va vb amod bmod m s
  | .vlogt vd va vb vc tt m => Sys2Proof.Machine.execVlogt vd va vb vc tt m s
  | .vimin w uns vd va vb amod bmod m => Sys2Proof.Machine.execVimin w uns vd va vb amod bmod m s
  | .vimax w uns vd va vb amod bmod m => Sys2Proof.Machine.execVimax w uns vd va vb amod bmod m s
  | .vcmp ty cc md va vb m => Sys2Proof.Machine.execVcmp ty cc md va vb m s
  | .vsel vd va vb m => Sys2Proof.Machine.execVsel vd va vb m s
  | .vmsk md ma mb tt m => Sys2Proof.Machine.execVmsk md ma mb tt m s
  | .vrcp vd va m => Sys2Proof.Machine.execVrcp vd va m s
  | .vrsq vd va m => Sys2Proof.Machine.execVrsq vd va m s
  | .vrcpr vd va vb m rm => Sys2Proof.Machine.execVrcpr vd va vb m rm s
  | .vrsqr vd va vb m rm => Sys2Proof.Machine.execVrsqr vd va vb m rm s
  | .vexp2 vd va m => Sys2Proof.Machine.execVexp2 vd va m s
  | .vlog2 vd va m => Sys2Proof.Machine.execVlog2 vd va m s
  | .vtanh vd va m => Sys2Proof.Machine.execVtanh vd va m s
  | .vcvt src dst inf vd va amod m rm => Sys2Proof.Machine.execVcvt src dst inf vd va amod m rm s
  | .vpack w vd va vb m => Sys2Proof.Machine.execVpack w vd va vb m s
  | .vunpk w sx vd va part m => Sys2Proof.Machine.execVunpk w sx vd va part m s
  | .vrotr vd va k m => Sys2Proof.Machine.execVrotr vd va k m s
  | .vbcr vd va k m => Sys2Proof.Machine.execVbcr vd va k m s
  | .vredr op vd va m rm => Sys2Proof.Machine.execVredr op vd va m rm s
  | .vscnr op vd va m rm => Sys2Proof.Machine.execVscnr op vd va m rm s
  | .vrotc vd va k m => Sys2Proof.Machine.execVrotc vd va k m s
  | .vbcc vd va k m => Sys2Proof.Machine.execVbcc vd va k m s
  | .vredc op vd va m rm => Sys2Proof.Machine.execVredc op vd va m rm s
  | .vscnc op vd va m rm => Sys2Proof.Machine.execVscnc op vd va m rm s
  | .vperm vd va vb m => Sys2Proof.Machine.execVperm vd va vb m s
  | .vmov vd va amod m => Sys2Proof.Machine.execVmov vd va amod m s
  | .vmovs vd n m => Sys2Proof.Machine.execVmovs vd n m s
  | .vmovx n va sx m => Sys2Proof.Machine.execVmovx n va sx m s
  | .zwr z va q m => Sys2Proof.Machine.execZwr z va q m s
  | .zrd src dst inf vd z q m rm => Sys2Proof.Machine.execZrd src dst inf vd z q m rm s
  | .zclr z => Sys2Proof.Machine.execZclr z s
  | .defer va b m => Sys2Proof.Machine.execDefer va b m s
  | .drain vd b m => Sys2Proof.Machine.execDrain vd b m s
  | .dfcnt n b => Sys2Proof.Machine.execDfcnt n b s
  | .vld g vd a b m weak => Sys2Proof.Machine.execVld g vd a b m weak s
  | .vst g vd a b m weak => Sys2Proof.Machine.execVst g vd a b m weak s
  | .vgath g vd a vb m weak => Sys2Proof.Machine.execVgath g vd a vb m weak s
  | .vscat g vd a vb m weak => Sys2Proof.Machine.execVscat g vd a vb m weak s
  | .qst g k vd a m => Sys2Proof.Machine.execQst g k vd a m s
  | .qld g k vd a m => Sys2Proof.Machine.execQld g k vd a m s
  | .lvld g k tb a => Sys2Proof.Machine.execLvld g k tb a s
  | .qcfg g d a => Sys2Proof.Machine.execQcfg g d a s
  | .cpy a b sz step cnt => Sys2Proof.Machine.execCpy a b sz step cnt s
  | .cpys a b sz step cnt => Sys2Proof.Machine.execCpys a b sz step cnt s
  | .cpyg a b sz step cnt => Sys2Proof.Machine.execCpyg a b sz step cnt s
  | .cpyx a b sz step cnt => Sys2Proof.Machine.execCpyx a b sz step cnt s
  | .tdef g d t a => Sys2Proof.Machine.execTdef g d t a s
  | .tset g d t ts => Sys2Proof.Machine.execTset g d t ts s
  | .trel g t => Sys2Proof.Machine.execTrel g t s
  | .bankcfg g d b mode => Sys2Proof.Machine.execBankcfg g d b mode s
  | .fset g n tg => Sys2Proof.Machine.execFset g n tg s
  | .fwait g n tg => Sys2Proof.Machine.execFwait g n tg s
  | .fclr g n tg => Sys2Proof.Machine.execFclr g n tg s
  | .lnt g a b lv => Sys2Proof.Machine.execLnt g a b lv s
  | .mopa g a b => Sys2Proof.Machine.execMopa g a b s
  | .mopb g a b => Sys2Proof.Machine.execMopb g a b s
  | .mopc g a => Sys2Proof.Machine.execMopc g a s
  | .idxv g a => Sys2Proof.Machine.execIdxv g a s
  | .mgo g nlev => Sys2Proof.Machine.execMgo g nlev s
  | .mwait g n => Sys2Proof.Machine.execMwait g n s
  | .mstat g d => Sys2Proof.Machine.execMstat g d s
  | .mstatClr g d => Sys2Proof.Machine.execMstatClr g d s
  | .abal g d n => Sys2Proof.Machine.execAbal g d n s
  | .abfr g a n => Sys2Proof.Machine.execAbfr g a n s
  | .ainit g a b n pr => Sys2Proof.Machine.execAinit g a b n pr s
  | .anrm g a n pr => Sys2Proof.Machine.execAnrm g a n pr s
  | .ard g fmt vd a m => Sys2Proof.Machine.execArd g fmt vd a m s
  | .awr g fmt vd a m => Sys2Proof.Machine.execAwr g fmt vd a m s
  | .efcap g d a => Sys2Proof.Machine.execEfcap g d a s
  | .ecat g d a b => Sys2Proof.Machine.execEcat g d a b s
  | .eflt g d a b c out => Sys2Proof.Machine.execEflt g d a b c out s
  | .ereb g d a b c => Sys2Proof.Machine.execEreb g d a b c s
  | .eapl g a => Sys2Proof.Machine.execEapl g a s
  | .eaplRel g a sc tier => Sys2Proof.Machine.execEaplRel g a sc tier s
  | .edrp g a => Sys2Proof.Machine.execEdrp g a s
  | .ecnt g d a => Sys2Proof.Machine.execEcnt g d a s
  | .ecntArena g d => Sys2Proof.Machine.execEcntArena g d s
  | .ssync g d => Sys2Proof.Machine.execSsync g d s
  | .bara g d n sm ix => Sys2Proof.Machine.execBara g d n sm ix s
  | .barw g a n ix => Sys2Proof.Machine.execBarw g a n ix s
  | .baraw g n sm ix => Sys2Proof.Machine.execBaraw g n sm ix s
  | .xplan g a => Sys2Proof.Machine.execXplan g a s
  | .grank g d n => Sys2Proof.Machine.execGrank g d n s
  | .gsize g d n => Sys2Proof.Machine.execGsize g d n s
  | .gsizeShr g d a n => Sys2Proof.Machine.execGsizeShr g d a n s
  | .gnbrNext g d n => Sys2Proof.Machine.execGnbrNext g d n s
  | .gnbrPrev g d n => Sys2Proof.Machine.execGnbrPrev g d n s
  | .gnbrXor g d n j => Sys2Proof.Machine.execGnbrXor g d n j s
  | .coll g kind op ty d a b n => Sys2Proof.Machine.execColl g kind op ty d a b n s
  | .collw g n => Sys2Proof.Machine.execCollw g n s
  | .launch g d a b => Sys2Proof.Machine.execLaunch g d a b s
  | .scoutStop g d a => Sys2Proof.Machine.execScoutStop g d a s
  | .scoutShift g d a b => Sys2Proof.Machine.execScoutShift g d a b s
  | .scoutResume g d a => Sys2Proof.Machine.execScoutResume g d a s
  | .scin g d a b => Sys2Proof.Machine.execScin g d a b s
  | .scver g d a => Sys2Proof.Machine.execScver g d a s
  | .scverPart g d => Sys2Proof.Machine.execScverPart g d s
  | .ownsetCore g d a b => Sys2Proof.Machine.execOwnsetCore g d a b s
  | .ownsetBank g d a b => Sys2Proof.Machine.execOwnsetBank g d a b s
  | .ownsetAcm g d a b => Sys2Proof.Machine.execOwnsetAcm g d a b s
  | .preqClr g d a => Sys2Proof.Machine.execPreqClr g d a s
  | .preqSet g d a => Sys2Proof.Machine.execPreqSet g d a s
  | .cutb g d a => Sys2Proof.Machine.execCutb g d a s
  | .idem g d a b => Sys2Proof.Machine.execIdem g d a b s
  | .tmarkQ g d a => Sys2Proof.Machine.execTmarkQ g d a s
  | .tmarkF g d a => Sys2Proof.Machine.execTmarkF g d a s
  | .tlbiPage g d a b => Sys2Proof.Machine.execTlbiPage g d a b s
  | .tlbiCtx g d a => Sys2Proof.Machine.execTlbiCtx g d a s
  | .tlbiAll g d => Sys2Proof.Machine.execTlbiAll g d s
  | .tlbiPte g d b => Sys2Proof.Machine.execTlbiPte g d b s
  | .pgret g d a => Sys2Proof.Machine.execPgret g d a s
  | .pgretDrop g d a => Sys2Proof.Machine.execPgretDrop g d a s
  | .wayq g d a => Sys2Proof.Machine.execWayq g d a s
  | .injL2ce g d a => Sys2Proof.Machine.execInjL2ce g d a s
  | .injL2ue g d a => Sys2Proof.Machine.execInjL2ue g d a s
  | .injHbmue g d a => Sys2Proof.Machine.execInjHbmue g d a s
  | .atsiQ g d a => Sys2Proof.Machine.execAtsiQ g d a s
  | .atsiF g d a => Sys2Proof.Machine.execAtsiF g d a s
  | .slotchk g d a b => Sys2Proof.Machine.execSlotchk g d a b s
  | .reloc g d a b => Sys2Proof.Machine.execReloc g d a b s
  | .qpop g d b a => Sys2Proof.Machine.execQpop g d b a s
  | .qack g d a b => Sys2Proof.Machine.execQack g d a b s
  | .polrun g d a b => Sys2Proof.Machine.execPolrun g d a b s
  | .lkeyOwn g d a => Sys2Proof.Machine.execLkeyOwn g d a s
  | .lkeyAcc g d a => Sys2Proof.Machine.execLkeyAcc g d a s
  | .lrevk g d a => Sys2Proof.Machine.execLrevk g d a s
  | .qref g d a drop => Sys2Proof.Machine.execQref g d a drop s
  | .evSqsub ctx q value => Sys2Proof.Machine.execEvSqsub ctx q value s
  | .evSqstatClearOvf ctx q value => Sys2Proof.Machine.execEvSqstatClearOvf ctx q value s
  | .evMboxDoorbell part => Sys2Proof.Machine.execEvMboxDoorbell part s
  | .evPlatEnable part k value => Sys2Proof.Machine.execEvPlatEnable part k value s
  | .evPlatDisable part k value => Sys2Proof.Machine.execEvPlatDisable part k value s
  | .evPkillGo part value => Sys2Proof.Machine.execEvPkillGo part value s
  | .evRegisterWrite host off value => Sys2Proof.Machine.execEvRegisterWrite host off value s
  | .evFrontEndConsume part queue => Sys2Proof.Machine.execEvFrontEndConsume part queue s
  | .evKernelPlace kid cores => Sys2Proof.Machine.execEvKernelPlace kid cores s
  | .evJobEnd core => Sys2Proof.Machine.execEvJobEnd core s
  | .evKernelRetire kid => Sys2Proof.Machine.execEvKernelRetire kid s
  | .evStreamWaitEnd core st => Sys2Proof.Machine.execEvStreamWaitEnd core st s
  | .evStreamYielded core st => Sys2Proof.Machine.execEvStreamYielded core st s
  | .evLoadFill core st k => Sys2Proof.Machine.execEvLoadFill core st k s
  | .evShadowResume core st copy how => Sys2Proof.Machine.execEvShadowResume core st copy how s
  | .evWalkComplete die k => Sys2Proof.Machine.execEvWalkComplete die k s
  | .evCopyIssue core => Sys2Proof.Machine.execEvCopyIssue core s
  | .evCopyComplete core seq n => Sys2Proof.Machine.execEvCopyComplete core seq n s
  | .evFlagFire core t => Sys2Proof.Machine.execEvFlagFire core t s
  | .evFlagClearAct core t => Sys2Proof.Machine.execEvFlagClearAct core t s
  | .evFwaitMarkerIssue core t => Sys2Proof.Machine.execEvFwaitMarkerIssue core t s
  | .evMgoIssue core => Sys2Proof.Machine.execEvMgoIssue core s
  | .evFoldEntry core => Sys2Proof.Machine.execEvFoldEntry core s
  | .evArrayResume core ok => Sys2Proof.Machine.execEvArrayResume core ok s
  | .evCollIssue core => Sys2Proof.Machine.execEvCollIssue core s
  | .evCollComplete core how => Sys2Proof.Machine.execEvCollComplete core how s
  | .evCollwComplete core => Sys2Proof.Machine.execEvCollwComplete core s
  | .evSuperstepComplete kid => Sys2Proof.Machine.execEvSuperstepComplete kid s
  | .evCommPhaseEnd kid n => Sys2Proof.Machine.execEvCommPhaseEnd kid n s
  | .evReplayWindowRetire core => Sys2Proof.Machine.execEvReplayWindowRetire core s
  | .evEngineUeReplay core line => Sys2Proof.Machine.execEvEngineUeReplay core line s
  | .evBacksightMismatch core escalate => Sys2Proof.Machine.execEvBacksightMismatch core escalate s
  | .evTerminationComplete ctx => Sys2Proof.Machine.execEvTerminationComplete ctx s
  | .evEventDispatch station => Sys2Proof.Machine.execEvEventDispatch station s
  | .evStationCoreReset station => Sys2Proof.Machine.execEvStationCoreReset station s
  | .evTimeSliceExpiry ctx => Sys2Proof.Machine.execEvTimeSliceExpiry ctx s
  | .evSchedulerWatchdog part => Sys2Proof.Machine.execEvSchedulerWatchdog part s
  | .evPowerOn => Sys2Proof.Machine.execEvPowerOn s
  | .evBootImageOffer src code hash => Sys2Proof.Machine.execEvBootImageOffer src code hash s
  | .evRemoteResponse tag data => Sys2Proof.Machine.execEvRemoteResponse tag data s
  | .evRemoteTimeout tag how => Sys2Proof.Machine.execEvRemoteTimeout tag how s
  | .evIncomingRequest key off op => Sys2Proof.Machine.execEvIncomingRequest key off op s
  | .evAtsResponse ctx k ha size r w => Sys2Proof.Machine.execEvAtsResponse ctx k ha size r w s
  | .evPriResponse ctx k ok => Sys2Proof.Machine.execEvPriResponse ctx k ok s
  | .evPriTimeout ctx k ats => Sys2Proof.Machine.execEvPriTimeout ctx k ats s
  | .evAtsInvalidation ctx va size => Sys2Proof.Machine.execEvAtsInvalidation ctx va size s
  | .evPackageIdAssign id => Sys2Proof.Machine.execEvPackageIdAssign id s
  | .evD2dFlitRetry port => Sys2Proof.Machine.execEvD2dFlitRetry port s
  | .evPortRetrainFail d2d port => Sys2Proof.Machine.execEvPortRetrainFail d2d port s
  | .evHbmStackFail stack => Sys2Proof.Machine.execEvHbmStackFail stack s
  | .evCoolantOverlimit => Sys2Proof.Machine.execEvCoolantOverlimit s
  | .evPowerLoss => Sys2Proof.Machine.execEvPowerLoss s
  | .evUalinkPortTrained port => Sys2Proof.Machine.execEvUalinkPortTrained port s
  | .evFunctionBringUp what => Sys2Proof.Machine.execEvFunctionBringUp what s
  | .evInFieldScanTest cluster pass => Sys2Proof.Machine.execEvInFieldScanTest cluster pass s

end Sys2Proof.Machine
end

