-- ==== Sys2Proof/Machine/Step.lean ====
section
/-! DEFINITION. One step: the next move, the agent's fetch, and `exec` (DESIGN CHOICE log 1, log 15). -/

namespace Sys2Proof.Machine

open Host (Outcome)

/-- The next move and the state without it: the head of the list, else a free one (DESIGN CHOICE log 1). -/
def State.nextMove (s : State) : Move × State :=
  match s.moves with
  | m :: rest => (m, { s with moves := rest })
  | [] => (Config.freeMove s.tick, { s with tick := s.tick + 1 })

/-- The instruction at the current agent's pc executed, or the trap of its fetch or decode taken. -/
def State.runAgent (s : State) : Outcome State Fault Refusal :=
  match s.lookUnit with
  | .error a => finish 0 a
  | .ok s1 =>
    match s1.instrAt s1.pc with
    | .error t => .next (s1.take t)
    | .ok i => exec i s1

/-- One step of the machine. -/
def step (s : State) : Outcome State Fault Refusal :=
  match s.nextMove with
  | (.stream core st late, s1) =>
    if 512 ≤ core then .fault .noAgent
    else if s1.clocked core && (s1.strm core st).active then ({ s1 with cur := .stream core st, late := late }).runAgent
    else .next s1
  | (.station n, s1) =>
    if 12 ≤ n then .fault .noAgent
    else if s1.powered && (s1.station n).event.isSome && !(s1.station n).fenced then
      ({ s1 with cur := .station n, late := false }).runAgent
    else .next s1
  | (.evict line, s1) => .next (s1.evict line)
  | (.upset u, s1) => .next (if s1.powered then s1.upset u else s1)
  | (.event e, s1) =>
    if e.enc = .none ∧ (s1.powered ∨ e = .evPowerOn) then exec e { s1 with late := false } else .next s1

/-! ## Placing an instruction for the next step (DESIGN CHOICE log 15) -/

/-- The stream or station core in whose context a word decodes. -/
def homeOf (w0 w1 : IWord) : Agent :=
  let ok (r : Role) : Bool := match decodeIn r w0 w1 with | .ok _ => true | .error _ => false
  if ok (.stream .A) then .stream 0 .A
  else if ok (.stream .X) then .stream 0 .X
  else if ok (.stream .M) then .stream 0 .M
  else if ok (.stream .C) then .stream 0 .C
  else if ok .station then .station 0 else .stream 0 .A

/-- The bytes of a slot entry that names code at 0x1000 of two words for a context (R284). -/
def slotBytes (ctx : Nat) : List Byte :=
  leBytes 8 0x1000 ++ leBytes 4 2 ++ leBytes 2 (0x8000 + ctx)

/-- An instruction stored where the next step fetches it (DESIGN CHOICE log 15). -/
def State.withFetchWord (s : State) (nbits w : Nat) : State :=
  let v := w % 2 ^ nbits
  let ag := homeOf (BitVec.ofNat 48 v) (BitVec.ofNat 48 (v / 2 ^ 48))
  let hbm := memPuts s.hbm 0x1000 (leBytes 12 v)
  let here (l : Nat) : Bool := l == 0 || l == 0x40
  let s1 := { s with
    hbm := hbm, powered := true, l2 := s.l2.filter fun x => !here x.1, badHbm := s.badHbm.filter fun l => !here l
    slices := s.slices.map fun (z : Slice) => { z with lost := z.lost.filter fun l => !here l } }
  match ag with
  | .station n =>
    { (s1.updStation n fun t =>
        { t with event := some ⟨3, 0, 0, Vector.replicate 6 0⟩, fenced := false, hart := { t.hart with pc := 0x1000 } }) with
      moves := .station n :: s.moves }
  | .stream c k =>
    let x := s.ctxOf c
    let s2 := { s1 with hbm := memPuts hbm 0 (slotBytes x) }
    let s3 := s2.updCtx x fun t => { t with state := .running }
    let s4 := s3.updPart (s.ctx x).part fun t => { t with slotTable := 0 }
    let s5 := s4.updCluster (clusterOf c) fun t => { t with tlb := ⟨x, 0, 65536, 0, true, false, false⟩ :: t.tlb, stopped := [] }
    let s6 := s5.updStrm c k fun t => { t with st := .run, waiting := none, hart := { t.hart with pc := 0 } }
    { s6 with moves := .stream c k false :: s.moves }

end Sys2Proof.Machine
end

