-- ==== Sys2Proof/Safety.lean ====
section
/-! DEFINITION. The terms in which statements are made: when a word begins without a trap or a wait, how it ends, and the
invariant that every step keeps. -/

namespace Sys2Proof.Machine

open Host (Outcome)

/-- The state after a word that completes: the agent no longer waits, and the pc is that many words on (R79, R102). -/
def State.advance (s : State) (words : Nat) : State := s.wake.setPc (s.pcAfter words)

/-- The guard reads true, every named register lies within the allotment and waits for no load (R48, R80, R110). -/
def State.clear (s : State) (g : Guard) (rs : List XReg) : Prop :=
  s.guardOn g = true ∧ (∀ r ∈ rs, r.toNat < s.allotOf) ∧ (∀ r ∈ rs, s.regBusy r = false)

/-- A word with register fields begins: it is clear, and its sources read as vs with state s1 after their pops (R92, R107). -/
def State.begins (s : State) (g : Guard) (srcs dsts : List XReg) (vs : List Word) (s1 : State) : Prop :=
  s.clear g (srcs ++ dsts) ∧ s.readAll srcs = .ok (vs, s1)

/-- The state of a word in which a load or store reads its sources, acts to give s1, and then pops them (R92, R102). -/
def State.memRuns (s : State) (g : Guard) (srcs dsts : List XReg) (vs : List Word) (s1 s2 : State) : Prop :=
  s.clear g (srcs ++ dsts) ∧ (∃ t, s.readAll srcs = .ok (vs, t)) ∧ ∃ ws, s1.readAll srcs = .ok (ws, s2)

/-- The agent that a step acts for exists: one of the 512 cores, or one of the twelve station cores (R3, R106). -/
def State.agentOk (s : State) : Prop :=
  match s.cur with
  | .stream c _ => c < 512
  | .station n => n < 12

/-- The accumulator elements that a list holds rise in key from lo on, and none is zero (R72, R215). -/
def elemsFrom : Nat → List (Nat × AccElem) → Bool
  | _, [] => true
  | lo, (k, v) :: rest => decide (lo ≤ k) && v != 0 && elemsFrom (k + 1) rest

/-- Every memory of the machine is in canonical form: HBM, host memory, each cluster's tile store and accumulator memory, each
staging part. -/
def State.Wf (s : State) : Prop :=
  Memory.wf s.hbm = true ∧ Memory.wf s.host = true ∧ (∀ c ∈ s.clusters.toList, Memory.wf c.store = true ∧ elemsFrom 0 c.acm = true) ∧
    ∀ x ∈ s.slices.toList, Memory.wf x.staging = true

/-- A run that is safe: from a state it takes, no step within n stops. -/
def safeFor : Nat → State → Prop
  | 0, _ => True
  | n + 1, s => ∃ t, step s = .next t ∧ safeFor n t

end Sys2Proof.Machine
end

