-- ==== Sys2Proof/Certificates/Slice0/Obligations.lean ====
section
/-! DEFINITION. The statements for the provers, written from the numbered rules of spec/, family by family. -/

namespace Sys2Proof.Statements
end Sys2Proof.Statements

open Sys2Proof Sys2Proof.Machine Sys2Proof.Statements

/-! ## Tables of results, written from the rules -/

namespace Sys2Proof.Statements

/-- The two-source instructions of R111 and R113 with the value each writes. -/
def twoSource : List ((Guard → XReg → XReg → XReg → Instr) × (Word → Word → Word)) :=
  [(.add, fun x y => x + y), (.sub, fun x y => x - y), (.andR, fun x y => x &&& y), (.orR, fun x y => x ||| y),
   (.xorR, fun x y => x ^^^ y),
   (.shl, fun x y => if 64 ≤ y.toNat then 0 else x <<< y.toNat),
   (.shr, fun x y => if 64 ≤ y.toNat then 0 else x >>> y.toNat),
   (.sra, fun x y => if 64 ≤ y.toNat then (if x.toInt < 0 then BitVec.allOnes 64 else 0) else x.sshiftRight y.toNat),
   (.rol, fun x y => (x <<< (y.toNat % 64)) ||| (x >>> (64 - y.toNat % 64))),
   (.minS, fun x y => if y.toInt < x.toInt then y else x), (.maxS, fun x y => if x.toInt < y.toInt then y else x),
   (.minu, fun x y => if y.toNat < x.toNat then y else x), (.maxu, fun x y => if x.toNat < y.toNat then y else x),
   (.mul, fun x y => x * y), (.mulh, fun x y => BitVec.ofInt 64 ((x.toInt * y.toInt).fdiv (2 ^ 64))),
   (.mulhu, fun x y => BitVec.ofNat 64 (x.toNat * y.toNat / 2 ^ 64)),
   (.div, fun x y =>
      if y = 0 then BitVec.allOnes 64
      else if x = BitVec.intMin 64 ∧ y = -1 then BitVec.intMin 64 else BitVec.ofInt 64 (x.toInt.tdiv y.toInt)),
   (.rem, fun x y =>
      if y = 0 then x
      else if x = BitVec.intMin 64 ∧ y = -1 then 0
      else x - y * BitVec.ofInt 64 (x.toInt.tdiv y.toInt)),
   (.divu, fun x y => if y = 0 then BitVec.allOnes 64 else BitVec.ofNat 64 (x.toNat / y.toNat)),
   (.remu, fun x y => if y = 0 then x else BitVec.ofNat 64 (x.toNat % y.toNat))]

/-- The instructions of R112 with an immediate, and the value each writes. -/
def immediate : List ((Guard → XReg → XReg → BitVec 20 → Instr) × (Word → Word → Word)) :=
  [(.addi, fun x i => x + i), (.andi, fun x i => x &&& i), (.ori, fun x i => x ||| i), (.xori, fun x i => x ^^^ i),
   (.leai, fun x i => (x &&& 0xFF00000000000000) ||| ((x + i) &&& 0x00FFFFFFFFFFFFFF))]

/-- The immediate shifts of R112 and the value each writes. -/
def immediateShift : List ((Guard → XReg → XReg → BitVec 6 → Instr) × (Word → Nat → Word)) :=
  [(.shli, fun x n => x <<< n), (.shri, fun x n => x >>> n), (.srai, fun x n => x.sshiftRight n)]

/-- The one-source instructions of R111 and R114 and the value each writes. -/
def oneSource : List ((Guard → XReg → XReg → Instr) × (Word → Word)) :=
  [(.abs, fun x => if x.toInt < 0 then 0 - x else x),
   (.clz, fun x => BitVec.ofNat 64 ((List.range 64).takeWhile fun i => !x.getLsbD (63 - i)).length),
   (.ctz, fun x => BitVec.ofNat 64 ((List.range 64).takeWhile fun i => !x.getLsbD i).length),
   (.popc, fun x => BitVec.ofNat 64 ((List.range 64).countP fun i => x.getLsbD i))]

/-- The field of len bits at pos of a 64-bit value, zeros above bit 63 (R114). -/
def rawField (x : Word) (pos len : Nat) : Nat := x.toNat / 2 ^ pos % 2 ^ len

/-- The bits above bit k of v are copies of bit k of x, and its other bits are x's (R114). -/
def signCopied (v x : Word) (k : Nat) : Prop := ∀ i < 64, v.getLsbD i = x.getLsbD (min i k)

end Sys2Proof.Statements

/-! ## Scalar results (majors 0x01 to 0x07) -/

namespace Sys2Proof.Statements

/-- R111, R113: each two-source instruction of majors 0x01 and 0x03 reads x[a] and x[b] in that order, writes the value its rule
gives to x[d], and the pc goes to the next word; a register field may be a data-queue port, whose pops and push are those of
`readAll` and `writeReg`. -/
def twoSourceResultsPart : Prop :=
  ∀ p ∈ twoSource, ∀ (g : Guard) (d a b : XReg) (s s1 s2 : State) (x y : Word),
    s.begins g [a, b] [d] [x, y] s1 → s1.writeReg d (p.2 x y) = .ok s2 →
      exec (p.1 g d a b) s = .next (s2.advance 1)

/-- R111 to R114, R119, R120: each instruction of one source or an immediate writes the value its rule gives to x[d]; LIL is two
words long. -/
def oneSourceResultsPart : Prop :=
  (∀ p ∈ oneSource, ∀ (g : Guard) (d a : XReg) (s s1 s2 : State) (x : Word),
    s.begins g [a] [d] [x] s1 → s1.writeReg d (p.2 x) = .ok s2 → exec (p.1 g d a) s = .next (s2.advance 1)) ∧
  (∀ p ∈ immediate, ∀ (g : Guard) (d a : XReg) (imm : BitVec 20) (s s1 s2 : State) (x : Word),
    s.begins g [a] [d] [x] s1 → s1.writeReg d (p.2 x (imm.signExtend 64)) = .ok s2 →
      exec (p.1 g d a imm) s = .next (s2.advance 1)) ∧
  (∀ p ∈ immediateShift, ∀ (g : Guard) (d a : XReg) (n : BitVec 6) (s s1 s2 : State) (x : Word),
    s.begins g [a] [d] [x] s1 → s1.writeReg d (p.2 x n.toNat) = .ok s2 → exec (p.1 g d a n) s = .next (s2.advance 1)) ∧
  (∀ (g : Guard) (d : XReg) (imm : BitVec 20) (s s2 : State),
    s.clear g [d] → s.writeReg d (imm.signExtend 64) = .ok s2 → exec (.li g d imm) s = .next (s2.advance 1)) ∧
  (∀ (g : Guard) (d : XReg) (imm : BitVec 64) (s s2 : State),
    s.clear g [d] → s.writeReg d imm = .ok s2 → exec (.lil g d imm) s = .next (s2.advance 2))

/-- R111, R113, R119: LOGT takes bit 4a + 2b + c of its table at each bit, SEL chooses by a predicate, MADD wraps once, LEA keeps
the space tag. -/
def threeSourceResultsPart : Prop :=
  (∀ (g : Guard) (d a b c : XReg) (tt : BitVec 8) (s s1 s2 : State) (x y z v : Word),
    s.begins g [a, b, c] [d] [x, y, z] s1 →
    (∀ i < 64, v.getLsbD i = tt.getLsbD (4 * (x.getLsbD i).toNat + 2 * (y.getLsbD i).toNat + (z.getLsbD i).toNat)) →
    s1.writeReg d v = .ok s2 → exec (.logt g d a b c tt) s = .next (s2.advance 1)) ∧
  (∀ (g : Guard) (d a b c : XReg) (s s1 s2 : State) (x y z : Word),
    s.begins g [a, b, c] [d] [x, y, z] s1 → s1.writeReg d (BitVec.ofNat 64 (x.toNat * y.toNat + z.toNat)) = .ok s2 →
      exec (.madd g d a b c) s = .next (s2.advance 1)) ∧
  (∀ (g : Guard) (d a b : XReg) (n : BitVec 3) (s s1 s2 : State) (x y : Word),
    s.begins g [a, b] [d] [x, y] s1 → s1.writeReg d (if s.hart.pred n then x else y) = .ok s2 →
      exec (.sel g d a b n) s = .next (s2.advance 1)) ∧
  (∀ (g : Guard) (d a b : XReg) (sh : BitVec 2) (s s1 s2 : State) (x y : Word),
    s.begins g [a, b] [d] [x, y] s1 →
    s1.writeReg d ((x &&& 0xFF00000000000000) ||| ((x + y * BitVec.ofNat 64 (2 ^ sh.toNat)) &&& 0x00FFFFFFFFFFFFFF)) = .ok s2 →
      exec (.lea g d a b sh) s = .next (s2.advance 1))

/-- R114: BREV reverses, BFXU extracts a field and BFX sign-extends it, BFI inserts one into a copy of b, SEXT extends from
bit k; len is the field's code plus one. -/
def bitFieldResultsPart : Prop :=
  (∀ (g : Guard) (d a : XReg) (s s1 s2 : State) (x v : Word),
    s.begins g [a] [d] [x] s1 → (∀ i < 64, v.getLsbD i = x.getLsbD (63 - i)) → s1.writeReg d v = .ok s2 →
      exec (.brev g d a) s = .next (s2.advance 1)) ∧
  (∀ (g : Guard) (d a : XReg) (pos len : BitVec 6) (s s1 s2 : State) (x : Word),
    s.begins g [a] [d] [x] s1 → s1.writeReg d (BitVec.ofNat 64 (rawField x pos.toNat (len.toNat + 1))) = .ok s2 →
      exec (.bfxu g d a pos len) s = .next (s2.advance 1)) ∧
  (∀ (g : Guard) (d a : XReg) (pos len : BitVec 6) (s s1 s2 : State) (x v : Word),
    s.begins g [a] [d] [x] s1 → signCopied v (BitVec.ofNat 64 (rawField x pos.toNat (len.toNat + 1))) len.toNat →
    s1.writeReg d v = .ok s2 → exec (.bfx g d a pos len) s = .next (s2.advance 1)) ∧
  (∀ (g : Guard) (d a b : XReg) (pos len : BitVec 6) (s s1 s2 : State) (x y v : Word),
    s.begins g [a, b] [d] [x, y] s1 →
    (∀ i < 64, v.getLsbD i =
      if pos.toNat ≤ i ∧ i < pos.toNat + len.toNat + 1 then x.getLsbD (i - pos.toNat) else y.getLsbD i) →
    s1.writeReg d v = .ok s2 → exec (.bfi g d a b pos len) s = .next (s2.advance 1)) ∧
  (∀ (g : Guard) (d a : XReg) (k : BitVec 6) (s s1 s2 : State) (x v : Word),
    s.begins g [a] [d] [x] s1 → signCopied v x k.toNat → s1.writeReg d v = .ok s2 →
      exec (.sext g d a k) s = .next (s2.advance 1))

end Sys2Proof.Statements

/-- R107 to R116, R119: what the scalar arithmetic of MAJ 0x01 to 0x04 and 0x06 writes to x[d], operation by operation. -/
def Obligations.ScalarResults : Prop := twoSourceResultsPart ∧ oneSourceResultsPart ∧ threeSourceResultsPart ∧ bitFieldResultsPart

namespace Sys2Proof.Statements

/-- A condition of R115 on two 64-bit values. -/
def condition (c : CmpCond) (x y : Word) : Prop :=
  match c with
  | .eq => x = y | .ne => x ≠ y | .lt => x.toInt < y.toInt | .ge => y.toInt ≤ x.toInt
  | .ltu => x.toNat < y.toNat | .geu => y.toNat ≤ x.toNat | .gt => y.toInt < x.toInt | .gtu => y.toNat < x.toNat

end Sys2Proof.Statements

/-- R115, R116: CMP and CMPI write p[d] with the condition; nothing else changes but the pc and the sources' pops. -/
def Obligations.CompareResults : Prop :=
  (∀ (g : Guard) (pd : PReg) (a b : XReg) (cc : CmpCond) (s s1 : State) (x y : Word) (r : Bool),
    s.begins g [a, b] [] [x, y] s1 → (r = true ↔ condition cc x y) →
      exec (.cmp g pd a b cc) s = .next ((s1.setHart (s1.hart.putPred pd r)).advance 1)) ∧
  (∀ (g : Guard) (cc : CmpCond) (pd : PReg) (a : XReg) (imm : BitVec 20) (s s1 : State) (x : Word) (r : Bool),
    s.begins g [a] [] [x] s1 → (r = true ↔ condition cc x (imm.signExtend 64)) →
      exec (.cmpi g cc pd a imm) s = .next ((s1.setHart (s1.hart.putPred pd r)).advance 1))

/-- R117, whole: PLOG is the Form S word of MAJ 0x05, MIN 0x01 whose d, a and b are predicate numbers and whose fx bits 3-0 are
tt; any other value of those fields, and a nonzero c or fx bits 7-4, is reserved. p[d] becomes bit 2 p[a] + p[b] of tt, both
read before the write. -/
def Obligations.PlogRule : Prop :=
  (∀ (g : Guard) (pd pa pb : PReg) (tt : BitVec 4),
    decode (0x05#6 ++ 0x01#6 ++ (0#3 ++ pd) ++ (0#3 ++ pa) ++ (0#3 ++ pb) ++ 0#6 ++ g.p ++ BitVec.ofBool g.inv ++ (0#4 ++ tt)) 0 =
      .ok (.plog g pd pa pb tt)) ∧
  (∀ (p : PReg) (ps : Bool) (d a b c : BitVec 6) (fx : BitVec 8),
    8 ≤ d.toNat ∨ 8 ≤ a.toNat ∨ 8 ≤ b.toNat ∨ c ≠ 0 ∨ 16 ≤ fx.toNat →
      decode (0x05#6 ++ 0x01#6 ++ d ++ a ++ b ++ c ++ p ++ BitVec.ofBool ps ++ fx) 0 = .error .reserved) ∧
  (∀ (g : Guard) (pd pa pb : PReg) (tt : BitVec 4) (s : State), s.guardOn g = true →
    exec (.plog g pd pa pb tt) s =
      .next ((s.setHart (s.hart.putPred pd
        (tt.getLsbD (2 * (s.hart.pred pa).toNat + (s.hart.pred pb).toNat)))).advance 1))

/-- R118, whole: fx bit 0 of MAJ 0x05, MIN 0x02 selects PMOV.GET, which names d alone, or PMOV.PUT, which names a alone; every
other field is reserved. GET writes the predicates as bits 7-0 with bit 0 set; PUT writes p1 to p7 from bits 1 to 7. -/
def Obligations.PmovRule : Prop :=
  (∀ (g : Guard) (d : XReg),
    decode (0x05#6 ++ 0x02#6 ++ d ++ 0#6 ++ 0#6 ++ 0#6 ++ g.p ++ BitVec.ofBool g.inv ++ 0#8) 0 = .ok (.pmovGet g d)) ∧
  (∀ (g : Guard) (a : XReg),
    decode (0x05#6 ++ 0x02#6 ++ 0#6 ++ a ++ 0#6 ++ 0#6 ++ g.p ++ BitVec.ofBool g.inv ++ 1#8) 0 = .ok (.pmovPut g a)) ∧
  (∀ (p : PReg) (ps : Bool) (d a b c : BitVec 6) (fx : BitVec 8),
    b ≠ 0 ∨ c ≠ 0 ∨ 2 ≤ fx.toNat ∨ (fx = 0 ∧ a ≠ 0) ∨ (fx = 1 ∧ d ≠ 0) →
      decode (0x05#6 ++ 0x02#6 ++ d ++ a ++ b ++ c ++ p ++ BitVec.ofBool ps ++ fx) 0 = .error .reserved) ∧
  (∀ (g : Guard) (d : XReg) (s s2 : State) (v : Word), s.clear g [d] →
    (∀ i < 64, v.getLsbD i = (decide (i < 8) && s.hart.pred (BitVec.ofNat 3 i))) → s.writeReg d v = .ok s2 →
      exec (.pmovGet g d) s = .next (s2.advance 1)) ∧
  (∀ (g : Guard) (a : XReg) (s s1 : State) (x : Word), s.begins g [a] [] [x] s1 →
    ∃ h, exec (.pmovPut g a) s = .next ((s1.setHart h).advance 1) ∧ h.x = s1.hart.x ∧ h.pc = s1.hart.pc ∧
      h.prc = s1.hart.prc ∧ h.stat = s1.hart.stat ∧ h.shadow = s1.hart.shadow ∧
      ∀ n : PReg, n ≠ 0 → h.pred n = x.getLsbD n.toNat)

/-- R120, whole: LIL's word 0 holds d, the guard and the high 16 bits, with a and bits 19-16 reserved, and word 1 the low 48; it
writes the constant, pushes it when d is a port, has no effect when its guard reads false, and may not follow RPT. -/
def Obligations.LilRule : Prop :=
  (∀ (g : Guard) (d : XReg) (hi : BitVec 16) (lo : IWord),
    decode (0x07#6 ++ 0x00#6 ++ d ++ 0#6 ++ g.p ++ BitVec.ofBool g.inv ++ 0#4 ++ hi) lo = .ok (.lil g d (hi ++ lo))) ∧
  (∀ (p : PReg) (ps : Bool) (d a : BitVec 6) (k : BitVec 4) (hi : BitVec 16) (lo : IWord), a ≠ 0 ∨ k ≠ 0 →
    decode (0x07#6 ++ 0x00#6 ++ d ++ a ++ p ++ BitVec.ofBool ps ++ k ++ hi) lo = .error .reserved) ∧
  (∀ (g : Guard) (d : XReg) (imm : Word) (s s2 : State), s.clear g [d] → s.writeReg d imm = .ok s2 →
    exec (.lil g d imm) s = .next (s2.advance 2)) ∧
  (∀ (g : Guard) (q : BitVec 2) (imm : Word) (s : State) (core : Nat), s.cur = .stream core .A → core < 512 →
    s.clear g [14#4 ++ q] → (s.dqOf q.toNat).closed = false → (s.dqOf q.toNat).entries.length < 64 →
    (s.dqOf q.toNat).pops ≤ (s.dqOf q.toNat).pushes →
      ∃ t, exec (.lil g (14#4 ++ q) imm) s = .next t ∧ (t.dqOf q.toNat).entries = (s.dqOf q.toNat).entries ++ [.filled imm] ∧
        t.hart.x = s.hart.x) ∧
  (∀ (g : Guard) (d : XReg) (imm : Word) (s : State), s.guardOn g = false → exec (.lil g d imm) s = .next (s.advance 2)) ∧
  (∀ (g : Guard) (d : XReg) (hi : BitVec 16) (k : StreamId) (sd sa sb sc : BitVec 2),
    decodeGoverned (.stream k) sd sa sb sc (0x07#6 ++ 0x00#6 ++ d ++ 0#6 ++ g.p ++ BitVec.ofBool g.inv ++ 0#4 ++ hi) =
      .error .minUnassigned)

namespace Sys2Proof.Statements

/-- R92, R107: a register that is no port reads its value, x0 reads zero; a source that is a port pops the head of its queue, and
a closed empty queue gives 0 and sets STAT.DQE; the pops are taken in field order. -/
def sourceReadsPart : Prop :=
  (∀ s : State, s.readAll [] = .ok ([], s)) ∧
  (∀ (s : State) (r : XReg) (rs : List XReg), s.port? r = none →
    s.readAll (r :: rs) = (s.readAll rs).map fun q => ((if r = 0 then 0 else s.hart.x[r.toFin]) :: q.1, q.2)) ∧
  (∀ (s : State) (r : XReg) (rs : List XReg) (q : Nat) (v : Word) (s1 : State), s.port? r = some q →
    s.popDq q = .ok (v, s1) → s.readAll (r :: rs) = (s1.readAll rs).map fun t => (v :: t.1, t.2)) ∧
  (∀ (s : State) (q : Nat) (v : Word) (es : List DqEntry), (s.dqOf q).entries = .filled v :: es →
    ∃ d : DataQueue, s.popDq q = .ok (v, s.setDq q d) ∧ d.entries = es ∧ d.closed = (s.dqOf q).closed) ∧
  (∀ (s : State) (q : Nat), (s.dqOf q).entries = [] → (s.dqOf q).closed = true →
    s.popDq q = .ok (0, (s.setDq q (s.dqOf q)).setStat 5)) ∧
  (∀ (s : State) (q : Nat), (s.dqOf q).entries = [] → (s.dqOf q).closed = false → s.popDq q = .error (.dqEntry q)) ∧
  (∀ (s : State) (q id : Nat) (es : List DqEntry),
    (s.dqOf q).entries = .reserved id :: es ∨ (s.dqOf q).entries = .heldSlot id :: es → s.popDq q = .error (.dqEntry q))

/-- R92, R107: a destination that is no port takes the value, x0 discards it; a port pushes it at the tail of its queue, waits while
64 entries are occupied, and a closed queue discards it and sets STAT.DQE; a push that repeats one whose value was popped before its
stream was cut back only counts (R306, R309; the model's reading, log 42); p0 discards. -/
def destinationWritesPart : Prop :=
  (∀ (s : State) (v : Word), s.port? 0 = none → s.writeReg 0 v = .ok (s.setHart s.hart)) ∧
  (∀ (s : State) (r : XReg) (v : Word), s.port? r = none → r ≠ 0 →
    s.writeReg r v = .ok (s.setHart { s.hart with x := s.hart.x.set r.toFin v })) ∧
  (∀ (s : State) (r : XReg) (v : Word) (q : Nat), s.port? r = some q → (s.dqOf q).closed = false →
    (s.dqOf q).pops ≤ (s.dqOf q).pushes → (s.dqOf q).entries.length < 64 →
      ∃ d : DataQueue, s.writeReg r v = .ok (s.setDq q d) ∧ d.entries = (s.dqOf q).entries ++ [.filled v] ∧ d.closed = false) ∧
  (∀ (s : State) (r : XReg) (v : Word) (q : Nat), s.port? r = some q → (s.dqOf q).closed = false →
    (s.dqOf q).pops ≤ (s.dqOf q).pushes → 64 ≤ (s.dqOf q).entries.length → s.writeReg r v = .error (.dqSlot q)) ∧
  (∀ (s : State) (r : XReg) (v : Word) (q : Nat), s.port? r = some q → (s.dqOf q).closed = false →
    (s.dqOf q).pushes < (s.dqOf q).pops →
      s.writeReg r v = .ok (s.setDq q { s.dqOf q with pushes := (s.dqOf q).pushes + 1 })) ∧
  (∀ (s : State) (r : XReg) (v : Word) (q : Nat), s.port? r = some q → (s.dqOf q).closed = true →
    s.writeReg r v = .ok ((s.setDq q (s.dqOf q)).setStat 5)) ∧
  (∀ (h : Hart) (b : Bool), h.putPred 0 b = h) ∧
  (∀ (h : Hart) (n m : PReg) (b : Bool), n ≠ 0 → (h.putPred n b).pred m = if m = n then b else h.pred m)

end Sys2Proof.Statements

/-- R92, R93, R107: what a source register field reads and a destination field writes, x0, p0 and the data-queue ports among them. -/
def Obligations.RegisterReadsAndWrites : Prop := sourceReadsPart ∧ destinationWritesPart

namespace Sys2Proof.Statements

/-- A register-only scalar instruction's guard, sources in field order, destination register and destination predicate (majors 0x01 to
0x06 and LIL). -/
def scalarShape (i : Instr) : Option (Guard × List XReg × Option XReg × Option PReg) :=
  match i with
  | .add g d a b | .sub g d a b | .andR g d a b | .orR g d a b | .xorR g d a b | .shl g d a b | .shr g d a b | .sra g d a b
  | .rol g d a b | .minS g d a b | .maxS g d a b | .minu g d a b | .maxu g d a b | .mul g d a b | .mulh g d a b
  | .mulhu g d a b | .div g d a b | .divu g d a b | .rem g d a b | .remu g d a b => some (g, [a, b], some d, none)
  | .sel g d a b _ | .lea g d a b _ | .bfi g d a b _ _ => some (g, [a, b], some d, none)
  | .logt g d a b c _ | .madd g d a b c => some (g, [a, b, c], some d, none)
  | .abs g d a | .clz g d a | .ctz g d a | .popc g d a | .brev g d a => some (g, [a], some d, none)
  | .addi g d a _ | .andi g d a _ | .ori g d a _ | .xori g d a _ | .leai g d a _ => some (g, [a], some d, none)
  | .shli g d a _ | .shri g d a _ | .srai g d a _ | .sext g d a _ => some (g, [a], some d, none)
  | .bfx g d a _ _ | .bfxu g d a _ _ => some (g, [a], some d, none)
  | .li g d _ | .lil g d _ | .pmovGet g d => some (g, [], some d, none)
  | .cmp g pd a b _ => some (g, [a, b], none, some pd)
  | .cmpi g _ pd a _ => some (g, [a], none, some pd)
  | .plog g pd _ _ _ => some (g, [], none, some pd)
  | _ => none

end Sys2Proof.Statements

/-- R107, the frame of every scalar instruction that names registers only: when it completes, every register but x[d], every
predicate but p[d], PRC, the shadow stack and every STAT bit but DQE are as before; the only other change in the machine is in
the data queues of the agent's core that its fields name, and in the agent's run state (WAIT becomes RUN). So no memory, no
other stream and no other core changes. -/
def Obligations.ScalarFrame : Prop :=
  ∀ (i : Instr) (g : Guard) (srcs : List XReg) (d : Option XReg) (pd : Option PReg), scalarShape i = some (g, srcs, d, pd) →
    ∀ (s s1 t : State) (vs : List Word), s.begins g srcs d.toList vs s1 →
      (∀ r ∈ d, ∀ v, ∃ u, s1.writeReg r v = .ok u) → exec i s = .next t →
        ∃ (h : Hart) (dq : Vector DataQueue 8),
          t = ((s.updCore s.curCore fun c => { c with dq := dq }).setHart h).wake ∧
          (∀ r : XReg, d ≠ some r → h.get r = s.hart.get r) ∧ (∀ n : PReg, pd ≠ some n → h.pred n = s.hart.pred n) ∧
          h.prc = s.hart.prc ∧ h.shadow = s.hart.shadow ∧ (h.stat = s.hart.stat ∨ h.stat = setBit s.hart.stat 5 true) ∧
          (∀ q < 8, (∀ r ∈ srcs ++ d.toList, s.port? r ≠ some q) → dq.getD q dqReset = s.dqOf q) ∧
          (∀ a, t.physByte a = s.physByte a) ∧ (∀ a, memByte t.host a = memByte s.host a) ∧
          (∀ cl a, memByte (t.cluster cl).store a = memByte (s.cluster cl).store a)

namespace Sys2Proof.Statements

/-- R48, R107: a scalar or control word whose guard reads false does nothing but advance the pc, whatever its registers are. -/
def guardFalseDoesNothingPart : Prop :=
  (∀ (i : Instr) (g : Guard) (srcs : List XReg) (d : Option XReg) (pd : Option PReg) (s : State),
    scalarShape i = some (g, srcs, d, pd) → s.guardOn g = false →
      exec i s = .next (s.advance (match i with | .lil _ _ _ => 2 | _ => 1))) ∧
  (∀ (g : Guard) (s : State), s.guardOn g = false →
    (∀ n, exec (.trap g n) s = .next (s.advance 1)) ∧ (∀ n, exec (.sysc g n) s = .next (s.advance 1)) ∧
    (∀ disp, exec (.br g disp) s = .next (s.advance 1)) ∧ (∀ disp, exec (.call g disp) s = .next (s.advance 1)) ∧
    (∀ disp, exec (.bqbr g disp) s = .next (s.advance 1)) ∧ exec (.halt g) s = .next (s.advance 1) ∧
    exec (.rdv g) s = .next (s.advance 1) ∧ exec (.yield g) s = .next (s.advance 1))

/-- R80, R99, R100: a scalar instruction that names a register at or past the allotment, with its guard true, takes ALLOT (cause
0x08, SUB 0, TVAL 0) and has no other effect; on a station core the run of the event ends in a failure instead (R106). -/
def allotTrapPart : Prop :=
  ∀ (i : Instr) (g : Guard) (srcs : List XReg) (d : Option XReg) (pd : Option PReg) (s : State),
    scalarShape i = some (g, srcs, d, pd) → s.guardOn g = true → (∃ r ∈ srcs ++ d.toList, s.allotOf ≤ r.toNat) →
      exec i s = .next (s.take ⟨0x08, 0, 0⟩)

end Sys2Proof.Statements

/-- R48, R80: a word whose guard reads false only advances the pc; a register beyond the allotment is a trap. -/
def Obligations.GuardAndAllotment : Prop := guardFalseDoesNothingPart ∧ allotTrapPart

/-! ## Taking a trap and returning (R99 to R105) -/

namespace Sys2Proof.Statements

/-- R99, R103: a trap of a stream-handler class is delivered: TEPC is the trapping word's address, or the next word's for USER and
SYSC; TCAUSE holds IN, SUB and CAUSE at their places; TVAL is the trap's value; PRC moves to TPRC and is zero; the pc is TRAPVEC;
the registers, predicates, STAT, the shadow stack and the queues keep their values. Nothing else of the core changes, but that a fault
of the array that its stream M now takes waits no longer (R237). TRAPVEC's slot entry is read for it: its line is neither lost nor in
error here (R365; log 90). -/
def trapDeliveryPart : Prop :=
  ∀ (s : State) (core : Nat) (k : StreamId) (t : Trap), core < 512 → s.cur = .stream core k → shadowClass t.cause = false →
    (s.strm core k).trapvec ≠ 0 → (s.strm core k).tcause.getLsbD 63 = false → s.codeOk (s.strm core k).trapvec = true →
    s.lineTrouble (s.slotLine core (s.strm core k).trapvec) = false →
      let me := s.strm core k
      let u := (s.take t).strm core k
      u.tepc = (if t.cause = 0x30 ∨ t.cause = 0x31 then me.hart.pc + 1 else me.hart.pc) ∧
      u.tcause = 1#1 ++ 0#47 ++ t.sub ++ t.cause ∧ u.tval = t.tval ∧ u.tprc = me.hart.prc ∧
      u.hart = { me.hart with prc := 0, pc := me.trapvec, rptOn := false } ∧ u.st = .run ∧ u.trapvec = me.trapvec ∧
      u.fpm = me.fpm ∧ u.lists = me.lists ∧ u.scopemode = me.scopemode ∧
      (k ≠ .M ∨ (s.core core).array.pendFault ≠ some t → (s.take t).core core = (s.core core).setStrm k u) ∧
      (k = .M → (s.core core).array.pendFault = some t →
        (s.take t).core core =
          { (s.core core).setStrm k u with array := { (s.core core).array with pendFault := none } }) ∧
      (∀ c, c ≠ core → (s.take t).core c = s.core c) ∧ (s.take t).hbm = s.hbm ∧ (s.take t).l2 = s.l2 ∧
      (s.take t).clusters = s.clusters ∧ (s.take t).contexts = s.contexts

/-- R85, R99, R365: while the line of TRAPVEC's slot entry is lost the stream is held with the trap (the model's reading, log 90):
its registers and its trap words are as they were. -/
def trapWaitsPart : Prop :=
  ∀ (s : State) (core : Nat) (k : StreamId) (t : Trap), core < 512 → s.cur = .stream core k → shadowClass t.cause = false →
    (s.strm core k).trapvec ≠ 0 → (s.strm core k).tcause.getLsbD 63 = false →
    s.isLost (s.slotLine core (s.strm core k).trapvec) = true →
      (s.take t).strm core k = { s.strm core k with st := .held, waiting := none, held := some t } ∧
      (∀ c, c ≠ core → (s.take t).core c = s.core c) ∧ (s.take t).contexts = s.contexts ∧ (s.take t).hbm = s.hbm

/-- R99, R296, R367: a trap of a stream-handler class with TRAPVEC zero, with a handler already running, or with a TRAPVEC that R85 refuses
(the model's reading, log 20) or whose slot entry lies in a poisoned line (log 90), is a context fault: no core changes, and the
context, unless FREE or already TERMINATING, is TERMINATING with a status (0x0C if it had none) and the trap as the cause that Ramner
reports. -/
def contextFaultPart : Prop :=
  ∀ (s : State) (core : Nat) (k : StreamId) (t : Trap), s.cur = .stream core k → shadowClass t.cause = false →
    (s.strm core k).trapvec = 0 ∨ (s.strm core k).tcause.getLsbD 63 = true ∨
      (s.lineTrouble (s.slotLine core (s.strm core k).trapvec) = false ∧ s.codeOk (s.strm core k).trapvec = false) ∨
      (∃ l, s.isLost (s.slotLine core (s.strm core k).trapvec) = false ∧
        s.l2At (s.slotLine core (s.strm core k).trapvec) = some l ∧ l.inj = .none ∧ l.poisoned = true) →
      (s.take t).cores = s.cores ∧ (s.take t).hbm = s.hbm ∧ (s.take t).clusters = s.clusters ∧
      (s.ctxOf core < 1024 → (s.ctx (s.ctxOf core)).state ≠ .free → (s.ctx (s.ctxOf core)).state ≠ .terminating →
        ((s.take t).ctx (s.ctxOf core)).state = .terminating ∧
        ((s.take t).ctx (s.ctxOf core)).status = some ((s.ctx (s.ctxOf core)).status.getD 0x0C) ∧
        ((s.take t).ctx (s.ctxOf core)).cause = some t) ∧
      ∀ c, c ≠ s.ctxOf core → (s.take t).ctx c = s.ctx c

end Sys2Proof.Statements

/-- R99, R103, R296: a trap of a stream-handler class is delivered to TRAPVEC, waits for its slot entry, or is a context fault. -/
def Obligations.StreamHandlerTraps : Prop := trapDeliveryPart ∧ trapWaitsPart ∧ contextFaultPart

namespace Sys2Proof.Statements

/-- R79, R99: PAGE, SYSC and UE hold the stream for the shadow handler: its state is HELD with the trap recorded, and its
registers, pc and trap words keep their values. -/
def shadowHoldPart : Prop :=
  ∀ (s : State) (core : Nat) (k : StreamId) (t : Trap), core < 512 → s.cur = .stream core k →
    t.cause = 0x10 ∨ t.cause = 0x31 ∨ t.cause = 0x18 →
      let me := s.strm core k
      let u := (s.take t).strm core k
      u.st = .held ∧ u.held = some t ∧ u.hart = me.hart ∧ u.tcause = me.tcause ∧ u.tepc = me.tepc ∧ u.tval = me.tval ∧
      u.tprc = me.tprc ∧ (∀ c, c ≠ core → (s.take t).core c = s.core c) ∧ (s.take t).hbm = s.hbm ∧
      (s.take t).clusters = s.clusters ∧ (s.take t).contexts = s.contexts

/-- R105: TRAP n raises USER with TVAL n, SYSC n raises SYSC for service n, and NOP only advances the pc, whatever its guard. -/
def trapSyscNopPart : Prop :=
  (∀ (g : Guard) (n : BitVec 8) (s : State), s.guardOn g = true →
    exec (.trap g n) s = .next (s.take ⟨0x30, 0, n.setWidth 64⟩)) ∧
  (∀ (g : Guard) (n : BitVec 8) (s : State), s.guardOn g = true →
    exec (.sysc g n) s = .next (s.take ⟨0x31, 0, n.setWidth 64⟩)) ∧
  (∀ (g : Guard) (s : State), exec (.nop g) s = .next (s.advance 1))

end Sys2Proof.Statements

/-- R79, R99, R105: a trap of a shadow-handler class holds its stream; TRAP and SYSC raise theirs, and NOP nothing. -/
def Obligations.ShadowHandlerTraps : Prop := shadowHoldPart ∧ trapSyscNopPart

/-- R104: with TCAUSE.IN set, TRET clears IN, brings PRC back from TPRC and goes to TEPC; TRET.SKIP clears IN and PRC and goes past
the trapping unit, except after USER or SYSC, where it is as TRET. With IN clear, both are ILLOP, cause 0x02. -/
def Obligations.TrapReturn : Prop :=
  (∀ (g : Guard) (s : State) (core : Nat) (k : StreamId), core < 512 → s.cur = .stream core k → s.guardOn g = true →
    (s.strm core k).tcause.getLsbD 63 = true →
      ∃ t, exec (.tret g) s = .next t ∧ (t.strm core k).tcause = setBit (s.strm core k).tcause 63 false ∧
        (t.strm core k).hart = { s.hart with prc := (s.strm core k).tprc, pc := (s.strm core k).tepc } ∧
        (t.strm core k).tepc = (s.strm core k).tepc ∧ (∀ c, c ≠ core → t.core c = s.core c)) ∧
  (∀ (g : Guard) (s : State) (core : Nat) (k : StreamId), core < 512 → s.cur = .stream core k → s.guardOn g = true →
    (s.strm core k).tcause.getLsbD 63 = true →
      ∃ t, exec (.tretSkip g) s = .next t ∧ (t.strm core k).tcause = setBit (s.strm core k).tcause 63 false ∧
        (((s.strm core k).tcause.setWidth 8 = 0x30#8 ∨ (s.strm core k).tcause.setWidth 8 = 0x31#8) →
          (t.strm core k).hart.prc = (s.strm core k).tprc ∧ (t.strm core k).hart.pc = (s.strm core k).tepc) ∧
        ((s.strm core k).tcause.setWidth 8 ≠ 0x30#8 → (s.strm core k).tcause.setWidth 8 ≠ 0x31#8 →
          (t.strm core k).hart.prc = 0 ∧
          (t.strm core k).hart.pc = (s.strm core k).tepc + BitVec.ofNat 64 (s.unitWords (s.strm core k).tepc)) ∧
        (t.strm core k).hart.x = s.hart.x ∧ (t.strm core k).hart.p = s.hart.p ∧ (∀ c, c ≠ core → t.core c = s.core c)) ∧
  (∀ (g : Guard) (s : State) (core : Nat) (k : StreamId), s.cur = .stream core k →
    (s.strm core k).tcause.getLsbD 63 = false →
      exec (.tret g) s = .next (s.take ⟨0x02, 0, 0⟩) ∧ exec (.tretSkip g) s = .next (s.take ⟨0x02, 0, 0⟩))

/-! ## Transfers of control (R85 to R89) -/

namespace Sys2Proof.Statements

/-- The conditions on which R85 accepts a code address: the reserved bits are zero, the slot is resident and of the stream's
context, and the word index lies below the object's word count. -/
def acceptable (s : State) (core : Nat) (t : Word) : Prop :=
  t.extractLsb' 60 4 = 0 ∧ (s.slotEntry (s.partOf core) (t.extractLsb' 48 12).toNat).res = true ∧
    (s.slotEntry (s.partOf core) (t.extractLsb' 48 12).toNat).ctx = s.ctxOf core ∧
    (t.extractLsb' 0 48).toNat < (s.slotEntry (s.partOf core) (t.extractLsb' 48 12).toNat).words

/-- A transfer reaches a code address: R85 accepts it, and the line of its slot entry is neither lost nor in error. -/
def reaches (s : State) (core : Nat) (t : Word) : Prop := s.lineTrouble (s.slotLine core t) = false ∧ acceptable s core t

/-- A transfer does not reach a code address: with a slot entry in a whole line it takes ACCESS with the address as TVAL (R85); while that
line is lost it waits (R365), and with the line poisoned it takes UE (R323), the model's readings of log 90. -/
def refuses (i : Instr) (s : State) (core : Nat) (t : Word) : Prop :=
  (s.lineTrouble (s.slotLine core t) = false → ¬acceptable s core t → exec i s = .next (s.take ⟨0x11, 0, t⟩)) ∧
  (s.isLost (s.slotLine core t) = true → exec i s = .next (s.toWait (.memory (s.slotLine core t)))) ∧
  (∀ l, s.isLost (s.slotLine core t) = false → s.l2At (s.slotLine core t) = some l → l.inj = .none → l.poisoned = true →
    exec i s = .next (s.take ⟨0x18, 0, t⟩))

/-- The code address disp32 words on in the same object (R86). -/
def wordsOn (pc : Word) (disp : BitVec 32) : Word :=
  pc.extractLsb' 48 16 ++ (pc.extractLsb' 0 48 + disp.signExtend 48)

end Sys2Proof.Statements

/-- R85 to R88, R323, R365: BR, JMPR and JMPL go to their target when R85 accepts it, and otherwise take ACCESS with the address as
TVAL and pop nothing. JMPR's x[a] may be a data-queue port, which is popped. A lost line of the target's slot entry makes the word wait
and a poisoned one is UE (the model's readings, log 90). -/
def Obligations.Jumps : Prop :=
  (∀ (g : Guard) (disp : BitVec 32) (s : State) (core : Nat) (k : StreamId), s.cur = .stream core k → s.guardOn g = true →
    (reaches s core (wordsOn s.pc disp) → exec (.br g disp) s = .next (s.setPc (wordsOn s.pc disp)).wake) ∧
    refuses (.br g disp) s core (wordsOn s.pc disp)) ∧
  (∀ (g : Guard) (imm : Word) (s : State) (core : Nat) (k : StreamId), s.cur = .stream core k → s.guardOn g = true →
    (reaches s core imm → exec (.jmpl g imm) s = .next (s.setPc imm).wake) ∧ refuses (.jmpl g imm) s core imm) ∧
  (∀ (g : Guard) (a : XReg) (s s1 : State) (core : Nat) (k : StreamId) (x : Word), s.cur = .stream core k →
    s.begins g [a] [] [x] s1 →
    (reaches s core x → exec (.jmpr g a) s = .next (s1.setPc x).wake) ∧ refuses (.jmpr g a) s core x)

namespace Sys2Proof.Statements

/-- R86, R87, R89: CALL and CALLR push the link, the next word's code address without a mark, on the shadow stack, write it to x1,
and go to the target; with the stack full they take CINT with TVAL 1, and to a target that R85 refuses ACCESS, and push nothing (a slot
entry that cannot be read as for a jump, log 90). CALLR reads x[a], which may be a data-queue port, before x1 is written. -/
def callsPart : Prop :=
  (∀ (g : Guard) (disp : BitVec 32) (s : State) (core : Nat) (k : StreamId), s.cur = .stream core k → s.clear g [1] →
    (s.hart.shadow.length < s.shadowRoom → reaches s core (wordsOn s.pc disp) →
      exec (.call g disp) s = .next (s.setHart
        { (s.hart.put 1 (s.pc + 1)) with
          shadow := setBit (s.pc + 1) 63 false :: s.hart.shadow, pc := wordsOn s.pc disp }).wake) ∧
    (s.hart.shadow.length < s.shadowRoom → refuses (.call g disp) s core (wordsOn s.pc disp)) ∧
    (s.shadowRoom ≤ s.hart.shadow.length → exec (.call g disp) s = .next (s.take ⟨0x09, 0, 1⟩))) ∧
  (∀ (g : Guard) (a : XReg) (s s1 : State) (core : Nat) (k : StreamId) (x : Word), s.cur = .stream core k →
    s.begins g [a] [1] [x] s1 →
    (s.hart.shadow.length < s.shadowRoom → reaches s core x →
      exec (.callr g a) s = .next (s1.setHart
        { (s1.hart.put 1 (s.pc + 1)) with shadow := setBit (s.pc + 1) 63 false :: s.hart.shadow, pc := x }).wake) ∧
    (s.hart.shadow.length < s.shadowRoom → refuses (.callr g a) s core x) ∧
    (s.shadowRoom ≤ s.hart.shadow.length → exec (.callr g a) s = .next (s.take ⟨0x09, 0, 1⟩)))

/-- R87, R89, R240: RET pops the top entry and goes to it when it is unmarked and equal to x[a]; else CINT with TVAL 2 for an empty
stack, 4 for a collecting mark, 3 for another address, in that order, and nothing changes. -/
def returnsPart : Prop :=
  ∀ (g : Guard) (a : XReg) (s s1 : State) (core : Nat) (k : StreamId) (x : Word), s.cur = .stream core k →
    s.begins g [a] [] [x] s1 →
    (s.hart.shadow = [] → exec (.ret g a) s = .next (s.take ⟨0x09, 0, 2⟩)) ∧
    (∀ e rest, s.hart.shadow = e :: rest →
      (e.getLsbD 63 = true → exec (.ret g a) s = .next (s.take ⟨0x09, 0, 4⟩)) ∧
      (e.getLsbD 63 = false → e ≠ x → exec (.ret g a) s = .next (s.take ⟨0x09, 0, 3⟩)) ∧
      (e.getLsbD 63 = false → e = x → reaches s core x →
        exec (.ret g a) s = .next (s1.setHart { s1.hart with shadow := rest, pc := x }).wake) ∧
      (e.getLsbD 63 = false → e = x → refuses (.ret g a) s core x))

/-- R86, R87, R89, R240: what CALLC and CALLCR do of a target, from the state s1 in which the sources have been popped: the link is
pushed with the collecting mark and written to x1, one collecting level is opened on the lowest free list slot, and the pc is the target. A
full stack, a fifth level, a target that R85 refuses and no free slot are CINT 1, EFSYNC 2, ACCESS and EFCAP 1, in the order of R101. -/
def entersLevel (i : Instr) (s s1 : State) (core : Nat) (t : Word) : Prop :=
  (∀ n, s.hart.shadow.length < s.shadowRoom → s.me.lists.opened.length < 4 → reaches s core t → s.me.lists.freeSlot = some n →
    exec i s = .next ((s1.updMe fun u => { u with lists := u.lists.openLevel n }).setHart
      { (s1.hart.put 1 (s.pc + 1)) with shadow := setBit (s.pc + 1) 63 true :: s.hart.shadow, pc := t }).wake) ∧
  (s.shadowRoom ≤ s.hart.shadow.length → exec i s = .next (s.take ⟨0x09, 0, 1⟩)) ∧
  (s.hart.shadow.length < s.shadowRoom → 4 ≤ s.me.lists.opened.length → exec i s = .next (s.take ⟨0x26, 2, 0⟩)) ∧
  (s.hart.shadow.length < s.shadowRoom → s.me.lists.opened.length < 4 → refuses i s core t) ∧
  (s.hart.shadow.length < s.shadowRoom → s.me.lists.opened.length < 4 → reaches s core t → s.me.lists.freeSlot = none →
    exec i s = .next (s.take ⟨0x25, 1, 0⟩))

/-- R86, R87, R89, R101, R238 to R241: CALLC and CALLCR enter a collecting level; RETC on a marked entry equal to x[a] pops it, closes the
innermost level, writes its handle to x3 and goes there, reading the arena's entries. RETC takes CINT with TVAL 2 on an empty stack, 5 on an
entry without the mark and 3 on another address, then EFSYNC 3 with no level open, then ACCESS for a target that R85 refuses. -/
def collectingCallsPart : Prop :=
  (∀ (g : Guard) (disp : BitVec 32) (s : State) (core : Nat) (k : StreamId), core < 512 → s.cur = .stream core k →
    s.clear g [1] → entersLevel (.callc g disp) s s core (wordsOn s.pc disp)) ∧
  (∀ (g : Guard) (a : XReg) (s s1 : State) (core : Nat) (k : StreamId) (x : Word), core < 512 → s.cur = .stream core k →
    s.begins g [a] [1] [x] s1 → entersLevel (.callcr g a) s s1 core x) ∧
  (∀ (g : Guard) (a : XReg) (s s1 : State) (core : Nat) (k : StreamId) (x : Word), s.cur = .stream core k →
    s.begins g [a] [3] [x] s1 →
    (s.hart.shadow = [] → exec (.retc g a) s = .next (s.take ⟨0x09, 0, 2⟩)) ∧
    (∀ e rest, s.hart.shadow = e :: rest →
      (e.getLsbD 63 = false → exec (.retc g a) s = .next (s.take ⟨0x09, 0, 5⟩)) ∧
      (e.getLsbD 63 = true → setBit e 63 false ≠ x → exec (.retc g a) s = .next (s.take ⟨0x09, 0, 3⟩)))) ∧
  (∀ (g : Guard) (a : XReg) (s s1 : State) (core : Nat) (k : StreamId) (x e : Word) (rest : List Word), core < 512 →
    s.cur = .stream core k → s.begins g [a] [3] [x] s1 → s.hart.shadow = e :: rest → e = setBit x 63 true → x.getLsbD 63 = false →
    (s.me.lists.opened = [] → exec (.retc g a) s = .next (s.take ⟨0x26, 3, 0⟩)) ∧
    (s.me.lists.opened ≠ [] → refuses (.retc g a) s core x) ∧
    (∀ lv lvs, s.me.lists.opened = lv :: lvs → reaches s core x →
      (s.me.lists.used < 80 →
        ∃ t, exec (.retc g a) s = .next t ∧ t.pc = x ∧ t.hart.shadow = rest ∧ t.me.lists.opened = lvs ∧ t.hart.get 3 = 0 ∧
          (t.me.lists.slot lv).use = .free) ∧
      (∀ es s2, s.arenaAll = .ok (es, s2) →
        ∃ t, exec (.retc g a) s = .next t ∧ t.pc = x ∧ t.hart.shadow = rest ∧
          t.me.lists = (s2.me.lists.closeLevel es).2 ∧ t.hart.get 3 = (s2.me.lists.closeLevel es).1)))

end Sys2Proof.Statements

/-- R85 to R89, R101, R238, R240, R241: what calls push, returns pop, and their collecting forms open and close. -/
def Obligations.CallsAndReturns : Prop := callsPart ∧ returnsPart ∧ collectingCallsPart

/-! ## The life of a stream and its queues (R81 to R84, R90 to R98) -/

namespace Sys2Proof.Statements

/-- R81: FORK in stream A with X, M and C IDLE starts each of the three at the first word of its section in the stream table, its
registers and control words at their start values and its allotment the one fx gives, and empties and reopens every data queue and
bq; every flag is clear (R130), and vector registers, masks and transposition tiles are zero (R153, R154, R184). While one of them is not
IDLE it is ILLOP, cause 0x02. -/
def forkPart : Prop :=
  (∀ (g : Guard) (ax am ac : Allot) (s : State) (core : Nat), core < 512 → s.cur = .stream core .A → s.guardOn g = true →
    (s.core core).x.st = .idle → (s.core core).m.st = .idle → (s.core core).c.st = .idle →
      ∃ t, exec (.fork g ax am ac) s = .next t ∧
        (∀ k ∈ [(StreamId.X, ax, 1), (.M, am, 2), (.C, ac, 3)],
          let u := t.strm core k.1
          let e := s.slotEntry (s.partOf core) (s.pc.extractLsb' 48 12).toNat
          u.st = .run ∧ u.allot = k.2.1 ∧ u.hart.x = Vector.replicate 64 0 ∧ (∀ n : PReg, n ≠ 0 → u.hart.pred n = false) ∧
          u.hart.pc = 0#4 ++ s.pc.extractLsb' 48 12 ++ 0#18 ++ (e.streams.getD k.2.2 0).extractLsb' 0 30 ∧
          u.hart.stat = 0 ∧ u.hart.prc = 0 ∧ u.hart.shadow = [] ∧ u.trapvec = 0 ∧ u.tcause = 0 ∧ u.tepc = 0 ∧ u.tval = 0 ∧
          u.tprc = 0 ∧ u.scopemode = 0 ∧ u.fpm = 0x100 ∧ u.lists.arena = 0 ∧ u.lists.opened = [] ∧
          ∀ n < 64, (u.lists.slots.getD n default).use = .free) ∧
        (∀ q < 8, ((t.core core).dq.getD q dqReset).entries = [] ∧ ((t.core core).dq.getD q dqReset).closed = false) ∧
        (t.core core).bq = [] ∧ (∀ n < 64, (t.core core).flags.getD n default = ⟨0, 0, 0, .A⟩) ∧
        (t.core core).v = Vector.replicate 16 vzero ∧ (t.core core).masks = Vector.replicate 8 0 ∧
        (t.core core).z = Vector.replicate 4 (Vector.replicate 4096 0) ∧ (t.core core).push = (s.core core).push) ∧
  (∀ (g : Guard) (ax am ac : Allot) (s : State) (core : Nat) (k : StreamId), s.cur = .stream core k →
    (s.core core).x.st ≠ .idle ∨ (s.core core).m.st ≠ .idle ∨ (s.core core).c.st ≠ .idle →
      exec (.fork g ax am ac) s = .next (s.take ⟨0x02, 0, 0⟩)) ∧
  (∀ (g : Guard) (ax am ac : Allot) (s : State) (core : Nat), s.cur = .stream core .A → s.guardOn g = false →
    (s.core core).x.st = .idle → (s.core core).m.st = .idle → (s.core core).c.st = .idle →
      exec (.fork g ax am ac) s = .next (s.advance 1))

/-- R82 to R84, R106: RDV makes the stream ARRIVED and HALT makes it HALTED at once, both with the pc past the word; YIELD does
nothing while STAT.YR is 0, and with it set makes a stream with nothing outstanding YIELDED at the next word, and waits at YIELD with
a load or a remote transaction outstanding; HALT on a station core
ends the event's run. -/
def streamEndsPart : Prop :=
  (∀ (g : Guard) (s : State) (core : Nat) (k : StreamId), core < 512 → s.cur = .stream core k → s.guardOn g = true →
    ∃ t, exec (.rdv g) s = .next t ∧ (t.strm core k).st = .arrived ∧ (t.strm core k).hart = { s.hart with pc := s.pc + 1 } ∧
      (t.core core).copyQ = (s.core core).copyQ) ∧
  (∀ (g : Guard) (s : State) (core : Nat) (k : StreamId), core < 512 → s.cur = .stream core k → s.guardOn g = true →
    ∃ t, exec (.halt g) s = .next t ∧ (t.strm core k).st = .halted ∧ (t.strm core k).hart = { s.hart with pc := s.pc + 1 } ∧
      (t.strm core k).loads = (s.strm core k).loads ∧ (t.core core).copyQ = (s.core core).copyQ ∧
      (t.core core).matQ = (s.core core).matQ ∧ (t.core core).colQ = (s.core core).colQ) ∧
  (∀ (g : Guard) (s : State), s.hart.stat.getLsbD 6 = false → exec (.yield g) s = .next (s.advance 1)) ∧
  (∀ (g : Guard) (s : State) (core : Nat) (k : StreamId), core < 512 → s.cur = .stream core k → s.guardOn g = true →
    s.hart.stat.getLsbD 6 = true →
    ((s.strm core k).loads = [] → (s.strm core k).remote = [] →
      ∃ t, exec (.yield g) s = .next t ∧ (t.strm core k).st = .yielded ∧
        (t.strm core k).hart = { s.hart with pc := s.pc + 1 }) ∧
    ((s.strm core k).loads ≠ [] ∨ (s.strm core k).remote ≠ [] → exec (.yield g) s = .next (s.toWait .yielding))) ∧
  (∀ (g : Guard) (s : State) (n : Nat), n < 12 → s.cur = .station n → s.guardOn g = true →
    ∃ t, exec (.halt g) s = .next t ∧ (t.station n).event = none ∧ t.cores = s.cores)

end Sys2Proof.Statements

/-- R81 to R84, R130, R153, R154, R184: FORK starts a stream; RDV, HALT and YIELD end or hold one. -/
def Obligations.ForkAndStreamEnds : Prop := forkPart ∧ streamEndsPart

/-- R93, R95: DQPUT pushes x[a]; DQGET reads CL, OCC and RDY at their places and pops nothing; DQCLS closes a queue and keeps its
entries; BQPUT appends the predicate or its inverse, and waits while 64 bits stand; BQBR pops the oldest bit the other stream pushed and
branches on 1, waits while there is none, and pops nothing where R85 refuses its target or its slot entry cannot be read (log 90). A bit that the
other stream popped before the pushing one was cut back is not pushed again (the model's reading of R306, log 42). -/
def Obligations.QueueInstructions : Prop :=
  (∀ (g : Guard) (a : XReg) (q : BitVec 3) (s s1 s2 : State) (x : Word), s.begins g [a] [] [x] s1 →
    s1.pushDq q.toNat x = .ok s2 → exec (.dqput g a q) s = .next (s2.advance 1)) ∧
  (∀ (g : Guard) (d : XReg) (q : BitVec 3) (s s2 : State) (n : Nat), s.clear g [d] →
    (s.dqOf q.toNat).entries.length ≤ 64 →
    n = ((s.dqOf q.toNat).entries.takeWhile fun e => match e with | .filled _ => true | _ => false).length →
    s.writeReg d (0#47 ++ BitVec.ofBool (s.dqOf q.toNat).closed ++ 0#1 ++ BitVec.ofNat 7 (s.dqOf q.toNat).entries.length ++ 0#1 ++
      BitVec.ofNat 7 n) = .ok s2 →
      exec (.dqget g d q) s = .next (s2.advance 1)) ∧
  (∀ (g : Guard) (q : BitVec 3) (s : State), s.guardOn g = true →
    exec (.dqcls g q) s = .next ((s.setDq q.toNat { s.dqOf q.toNat with closed := true }).advance 1)) ∧
  (∀ (g : Guard) (n : BitVec 3) (inv : Bool) (s : State) (core : Nat) (k : StreamId), core < 512 → s.cur = .stream core k →
    s.guardOn g = true →
    ((s.core core).bq.length < 64 →
      ∃ t, exec (.bqput g n inv) s = .next t ∧ (t.strm core k).hart = { s.hart with pc := s.pc + 1 } ∧
        ((s.strm core (bqPeer k)).bqAt.pops ≤ (s.strm core k).bqAt.pushes →
          (t.core core).bq = (s.core core).bq ++ [(k, s.hart.pred n != inv)]) ∧
        ((s.strm core k).bqAt.pushes < (s.strm core (bqPeer k)).bqAt.pops → (t.core core).bq = (s.core core).bq)) ∧
    (64 ≤ (s.core core).bq.length → exec (.bqput g n inv) s = .next (s.toWait .bqSlot))) ∧
  (∀ (g : Guard) (disp : BitVec 32) (s : State) (core : Nat) (k : StreamId) (b : Bool) (pre post : List (StreamId × Bool))
    (w : StreamId), core < 512 → s.cur = .stream core k → s.guardOn g = true → (s.core core).bq = pre ++ (w, b) :: post →
    (∀ e ∈ pre, e.1 = k) → w ≠ k →
      ((b = true → reaches s core (wordsOn s.pc disp)) →
        ∃ t, exec (.bqbr g disp) s = .next t ∧ (t.core core).bq = pre ++ post ∧
          (t.strm core k).hart = { s.hart with pc := if b then wordsOn s.pc disp else s.pc + 1 }) ∧
      (b = true → refuses (.bqbr g disp) s core (wordsOn s.pc disp))) ∧
  (∀ (g : Guard) (disp : BitVec 32) (s : State) (core : Nat) (k : StreamId), s.cur = .stream core k → s.guardOn g = true →
    (∀ e ∈ (s.core core).bq, e.1 = k) → exec (.bqbr g disp) s = .next (s.toWait .bqEntry))

namespace Sys2Proof.Statements

/-- R96 to R98: CWRD writes the named word to x[d], and CWWR writes x[a] into the named word by that word's own rule (the next
statement). -/
def controlWordAccessPart : Prop :=
  (∀ (g : Guard) (d : XReg) (w : CtlWord) (s s2 : State), s.clear g [d] → s.writeReg d (s.ctlRead w) = .ok s2 →
    exec (.cwrd g d w) s = .next (s2.advance 1)) ∧
  (∀ (g : Guard) (w : CtlWord) (a : XReg) (s s1 : State) (x : Word), s.begins g [a] [] [x] s1 →
    exec (.cwwr g w a) s = .next ((s1.ctlWrite w x).advance 1))

/-- R6, R65, R80, R91, R97, R103, R206, R265: what a write of a control word leaves to be read, its reserved bits dropped and read as zero
(R6; for STAT, TRAPVEC, SCOPEMODE, PRC and TPRC the model's reading, log 55): STAT keeps YR and takes bits 5, 4, 2, 1 and
0; FPM takes its flags, and RM unless the code is 000, 110 or 111; SCOPEMODE keeps bits 1 and 0; PRC and TPRC bits 32-0; TRAPVEC
bits 59-0, a code address; ALLOT reads its code. Every other stream keeps its words. -/
def controlWordValuesPart : Prop :=
  (∀ (s : State) (core : Nat) (k : StreamId) (v : Word), core < 512 → s.cur = .stream core k →
    ((s.ctlWrite .stat v).ctlRead .stat = (s.ctlRead .stat &&& 0x40) ||| (v &&& 0x37)) ∧
    ((s.ctlWrite .trapvec v).ctlRead .trapvec = 0#4 ++ v.extractLsb' 0 60) ∧
    ((s.ctlWrite .scopemode v).ctlRead .scopemode = v &&& 3) ∧
    ((s.ctlWrite .prc v).ctlRead .prc = v &&& 0x1FFFFFFFF) ∧ ((s.ctlWrite .tprc v).ctlRead .tprc = v &&& 0x1FFFFFFFF) ∧
    (∀ r, r = v.extractLsb' 8 3 → 1 ≤ r.toNat → r.toNat ≤ 5 →
      (s.ctlWrite .fpm v).ctlRead .fpm = 0#53 ++ r ++ 0#3 ++ v.extractLsb' 0 5) ∧
    (∀ r, r = v.extractLsb' 8 3 → r.toNat = 0 ∨ 6 ≤ r.toNat →
      (s.ctlWrite .fpm v).ctlRead .fpm = 0#53 ++ (s.ctlRead .fpm).extractLsb' 8 3 ++ 0#3 ++ v.extractLsb' 0 5) ∧
    (∀ k2, k2 ≠ k → ∀ w ∈ [CtlWord.stat, .fpm, .trapvec, .prc, .scopemode, .tprc],
      (s.ctlWrite w v).strm core k2 = s.strm core k2)) ∧
  (∀ s : State, s.ctlRead .allot = if s.allotOf = 16 then 0 else if s.allotOf = 32 then 1 else 2)

end Sys2Proof.Statements

/-- R6, R96, R97, R98: CWRD and CWWR, and the values of each control word. -/
def Obligations.ControlWords : Prop := controlWordAccessPart ∧ controlWordValuesPart

/-! ## RPT (R53, R54, R90, R91) -/

/-- R53, R54, R90, R91: with its guard false RPT does nothing, whatever PRC holds, unless its repetition is under way; a fresh count of
zero ends the pair with PRC zero, and one that is not zero becomes PRC's count, 65535 at most with STAT.RPTSAT set beyond it, and runs the
first iteration; with ACT set and the index below the count, RPT over ADD adds the registers that the strides reach and
moves to the next index, or past the pair after the last; a strided register at or past the allotment takes ALLOT, at the first iteration
too, before the governed word's guard is read, PRC keeping the index. That one step runs one iteration, and that the guard is read at the
first one alone (`rptOn` marks the later ones), are the model's readings (log 10). -/
def Obligations.Repetition : Prop :=
  (∀ (g : Guard) (a : XReg) (sd sa sb sc : BitVec 2) (s : State) (w : IWord) (i : Instr), s.fetchAt (s.pcAfter 1) = .ok w →
    decodeGoverned s.role sd sa sb sc w = .ok i → s.guardOn g = false → s.hart.rptOn = false →
      exec (.rpt g a sd sa sb sc) s = .next (s.advance 1)) ∧
  (∀ (g : Guard) (a : XReg) (sd sa sb sc : BitVec 2) (s s1 : State) (w : IWord) (i : Instr), s.agentOk →
    s.fetchAt (s.pcAfter 1) = .ok w → decodeGoverned s.role sd sa sb sc w = .ok i → prcAct s.hart.prc = false → s.hart.rptOn = false →
    s.begins g [a] [] [0] s1 → ∃ t, exec (.rpt g a sd sa sb sc) s = .next t ∧ t.hart.prc = 0 ∧ t.pc = s.pcAfter 2 ∧
      t.hart.x = s1.hart.x ∧ t.hart.p = s1.hart.p) ∧
  (∀ (g gi : Guard) (a d x y : XReg) (sd sa sb : BitVec 2) (s s1 : State) (w : IWord) (core : Nat) (k : StreamId) (v : Word) (n : Nat),
    core < 512 → s.cur = .stream core k → s.fetchAt (s.pcAfter 1) = .ok w →
    decodeGoverned s.role sd sa sb 0 w = .ok (.add gi d x y) → prcAct s.hart.prc = false → s.hart.rptOn = false →
    s.begins g [a] [] [v] s1 → n = min v.toNat 65535 → v ≠ 0 → s1.guardOn gi = true →
    (∀ r ∈ [d, x, y], r.toNat < s.allotOf ∧ r.toNat < 56 ∧ s.regBusy r = false) →
      ∃ t, exec (.rpt g a sd sa sb 0) s = .next t ∧ t.hart.x = (s1.hart.put d (s1.hart.get x + s1.hart.get y)).x ∧
        t.hart.prc = (if 1 < n then 0#31 ++ 1#1 ++ 1#16 ++ BitVec.ofNat 16 n else 0) ∧
        t.hart.stat.getLsbD 4 = (s1.hart.stat.getLsbD 4 || decide (65535 < v.toNat)) ∧
        t.pc = if 1 < n then s.pc else s.pc + 2) ∧
  (∀ (g gi : Guard) (a d x y : XReg) (sd sa sb : BitVec 2) (s : State) (w : IWord) (core : Nat) (k : StreamId) (i n : Nat),
    core < 512 → s.cur = .stream core k → s.fetchAt (s.pcAfter 1) = .ok w →
    decodeGoverned s.role sd sa sb 0 w = .ok (.add gi d x y) → s.hart.prc = 0#31 ++ 1#1 ++ BitVec.ofNat 16 i ++ BitVec.ofNat 16 n →
    i < n → n < 65536 → s.hart.rptOn = true ∨ s.guardOn g = true → s.guardOn gi = true →
    (∀ r ∈ [d.toNat + i * strideOf sd, x.toNat + i * strideOf sa, y.toNat + i * strideOf sb],
      r < s.allotOf ∧ r < 56 ∧ s.regBusy (BitVec.ofNat 6 r) = false) →
      ∃ t, exec (.rpt g a sd sa sb 0) s = .next t ∧
        t.hart.x = (s.hart.put (BitVec.ofNat 6 (d.toNat + i * strideOf sd))
          (s.hart.get (BitVec.ofNat 6 (x.toNat + i * strideOf sa)) +
            s.hart.get (BitVec.ofNat 6 (y.toNat + i * strideOf sb)))).x ∧
        t.hart.prc = (if i + 1 < n then 0#31 ++ 1#1 ++ BitVec.ofNat 16 (i + 1) ++ BitVec.ofNat 16 n else 0) ∧
        t.pc = if i + 1 < n then s.pc else s.pc + 2) ∧
  (∀ (g gi : Guard) (a d x y : XReg) (sd sa sb : BitVec 2) (s : State) (w : IWord) (core : Nat) (k : StreamId) (i n : Nat),
    s.cur = .stream core k → s.fetchAt (s.pcAfter 1) = .ok w → decodeGoverned s.role sd sa sb 0 w = .ok (.add gi d x y) →
    s.hart.prc = 0#31 ++ 1#1 ++ BitVec.ofNat 16 i ++ BitVec.ofNat 16 n → i < n → n < 65536 →
    s.hart.rptOn = true ∨ s.guardOn g = true →
    (sd ≠ 0 ∧ s.allotOf ≤ d.toNat + i * strideOf sd) ∨ (sa ≠ 0 ∧ s.allotOf ≤ x.toNat + i * strideOf sa) ∨
      (sb ≠ 0 ∧ s.allotOf ≤ y.toNat + i * strideOf sb) →
      exec (.rpt g a sd sa sb 0) s = .next ((s.setHart { s.hart with rptOn := true }).take ⟨0x08, 0, 0⟩))

/-! ## Vector arithmetic (R153 to R177) -/

namespace Sys2Proof.Statements

/-- A masked write: element e of vd is f e where bit e of mask m is set, and as before elsewhere. -/
def wrote (s t : State) (m : MReg) (vd : VReg) (f : Nat → Elem) : Prop :=
  ∀ e : Fin 1024, (t.vreg vd)[e] = if (s.mask m).getLsbD e.val then f e.val else (s.vreg vd)[e]

/-- An instruction that completes by writing one vector register under a mask, and nothing else but the pc. -/
def writesVector (i : Instr) (s : State) (m : MReg) (vd : VReg) (f : Nat → Elem) : Prop :=
  ∃ v : VRegs, exec i s = .next ((s.setVreg vd v).advance 1) ∧ wrote s ((s.setVreg vd v).advance 1) m vd f

/-- The same with flags ORed into FPM: those that some lane of some enabled element raises. -/
def writesFloat (i : Instr) (s : State) (m : MReg) (vd : VReg) (lanes : Nat) (f : Nat → Elem) (fl : Nat → Nat → FFlags) : Prop :=
  ∃ (v : VRegs) (k : FFlags), exec i s = .next (((s.setVreg vd v).vflags k).advance 1) ∧
    wrote s (((s.setVreg vd v).vflags k).advance 1) m vd f ∧
    ∀ b < 5, (k.getLsbD b = true ↔ ∃ e < 1024, (s.mask m).getLsbD e = true ∧ ∃ j < lanes, (fl e j).getLsbD b = true)

/-- Lane j of an element at a width (R50). -/
def lane (w : LaneW) (x : Elem) (j : Nat) : Nat := x.toNat / 2 ^ (w.bits * j) % 2 ^ w.bits
/-- An element made of lanes, lane 0 lowest. -/
def ofLanes (w : LaneW) (f : Nat → Nat) : Elem := joinLanes w f

/-- R157, R159, R66: VADD, VSUB, VMUL and the fused VFMA and VFMS apply their operation to every lane of every enabled element,
with the modifiers' views of a and b and c at identity, rounded once in the mode that rm or FPM gives; the flags of the enabled
lanes are ORed into FPM. -/
def vectorFloatPart : Prop :=
  ∀ (ty : FType) (vd va vb vc : VReg) (am bm : Modifier) (m : MReg) (rm : RmField) (s : State), s.curCore < 512 →
    let F := ftypeFmt ty
    let r := modeOf rm s.me.fpm
    let A (e j : Nat) : Nat := subMod ty.lane am (velem (s.vreg va) e) j
    let B (e j : Nat) : Nat := subMod ty.lane bm (velem (s.vreg vb) e) j
    let C (e j : Nat) : Nat := lane ty.lane (velem (s.vreg vc) e) j
    let put (i : Instr) (op : Nat → Nat → Nat × FFlags) : Prop :=
      writesFloat i s m vd ty.lane.count (fun e => ofLanes ty.lane fun j => (op e j).1) (fun e j => (op e j).2)
    put (.vadd ty vd va vb am bm m rm) (fun e j => F.fadd r (A e j) (B e j)) ∧
    put (.vsub ty vd va vb am bm m rm) (fun e j => F.fsub r (A e j) (B e j)) ∧
    put (.vmul ty vd va vb am bm m rm) (fun e j => F.fmul r (A e j) (B e j)) ∧
    put (.vfma ty vd va vb vc am bm m rm) (fun e j => F.ffma r (A e j) (B e j) (C e j)) ∧
    put (.vfms ty vd va vb vc am bm m rm) (fun e j => F.ffms r (A e j) (B e j) (C e j))

/-- A lane read as a signed number. -/
def signedLane (w : LaneW) (a : Nat) : Int := if a < 2 ^ (w.bits - 1) then a else (a : Int) - 2 ^ w.bits
/-- A number clamped to the signed or the unsigned range of a lane, as the lane's code. -/
def clampLane (w : LaneW) (uns : Bool) (v : Int) : Nat :=
  let lo : Int := if uns then 0 else -(2 ^ (w.bits - 1))
  let hi : Int := if uns then 2 ^ w.bits - 1 else 2 ^ (w.bits - 1) - 1
  ((if v < lo then lo else if hi < v then hi else v).emod (2 ^ w.bits)).toNat

/-- The two-operand lane functions of R161 and R162. -/
def laneTwo (w : LaneW) : List ((VReg → VReg → VReg → Modifier → Modifier → MReg → Instr) × (Nat → Nat → Nat)) :=
  [(.viadd w .wrap, fun a b => (a + b) % 2 ^ w.bits), (.visub w .wrap, fun a b => (a + (2 ^ w.bits - b)) % 2 ^ w.bits),
   (.vimul w .wrap, fun a b => a * b % 2 ^ w.bits),
   (.viadd w .ss, fun a b => clampLane w false (signedLane w a + signedLane w b)),
   (.visub w .ss, fun a b => clampLane w false (signedLane w a - signedLane w b)),
   (.vimul w .ss, fun a b => clampLane w false (signedLane w a * signedLane w b)),
   (.viadd w .us, fun a b => clampLane w true (a + b)), (.visub w .us, fun a b => clampLane w true ((a : Int) - b)),
   (.vimul w .us, fun a b => clampLane w true (a * b)),
   (.vshl w, fun a b => if w.bits ≤ b then 0 else a * 2 ^ b % 2 ^ w.bits), (.vshr w, fun a b => if w.bits ≤ b then 0 else a / 2 ^ b),
   (.vsra w, fun a b => ((signedLane w a).fdiv (2 ^ (min b w.bits)) |>.emod (2 ^ w.bits)).toNat),
   (.vimin w true, fun a b => min a b), (.vimax w true, fun a b => max a b),
   (.vimin w false, fun a b => if signedLane w b < signedLane w a then b else a),
   (.vimax w false, fun a b => if signedLane w a < signedLane w b then b else a)]

end Sys2Proof.Statements

/-- R157, R161 to R163: the integer instructions of major 0x12 write each lane of each enabled element with the wrapped or clamped
result, never touch FPM, and VLOGT takes bit 4a + 2b + c of its table at every bit. -/
def Obligations.VectorInteger : Prop :=
  (∀ (w : LaneW), ∀ p ∈ laneTwo w, ∀ (vd va vb : VReg) (am bm : Modifier) (m : MReg) (s : State), s.curCore < 512 →
    writesVector (p.1 vd va vb am bm m) s m vd fun e =>
      ofLanes w fun j => p.2 (subMod w am (velem (s.vreg va) e) j) (subMod w bm (velem (s.vreg vb) e) j)) ∧
  (∀ (w : LaneW) (vd va vb vc : VReg) (am bm : Modifier) (m : MReg) (s : State), s.curCore < 512 →
    writesFloat (.vimad w vd va vb vc am bm m) s m vd w.count (fun e => ofLanes w fun j =>
      (subMod w am (velem (s.vreg va) e) j * subMod w bm (velem (s.vreg vb) e) j + lane w (velem (s.vreg vc) e) j) % 2 ^ w.bits)
      (fun _ _ => 0)) ∧
  (∀ (vd va vb vc : VReg) (tt : BitVec 8) (m : MReg) (s : State), s.curCore < 512 →
    ∃ v : VRegs, exec (.vlogt vd va vb vc tt m) s = .next ((s.setVreg vd v).advance 1) ∧
      ∀ e : Fin 1024, ∀ b < 32, v[e].getLsbD b =
        if (s.mask m).getLsbD e.val then
          tt.getLsbD (4 * ((s.vreg va)[e].getLsbD b).toNat + 2 * ((s.vreg vb)[e].getLsbD b).toNat + ((s.vreg vc)[e].getLsbD b).toNat)
        else (s.vreg vd)[e].getLsbD b)

namespace Sys2Proof.Statements

/-- R160: VMIN, VMAX, VABS and VNEG act lane by lane with no rounding and leave FPM alone. -/
def vectorMinMaxSignPart : Prop :=
  ∀ (ty : FType) (vd va vb : VReg) (am bm : Modifier) (m : MReg) (s : State), s.curCore < 512 →
    let A (e j : Nat) : Nat := subMod ty.lane am (velem (s.vreg va) e) j
    let B (e j : Nat) : Nat := subMod ty.lane bm (velem (s.vreg vb) e) j
    writesVector (.vmin ty vd va vb am bm m) s m vd (fun e => ofLanes ty.lane fun j => (ftypeFmt ty).minMax false (A e j) (B e j)) ∧
    writesVector (.vmax ty vd va vb am bm m) s m vd (fun e => ofLanes ty.lane fun j => (ftypeFmt ty).minMax true (A e j) (B e j)) ∧
    writesVector (.vabs ty vd va am m) s m vd (fun e => ofLanes ty.lane fun j => (ftypeFmt ty).absNeg false (A e j)) ∧
    writesVector (.vneg ty vd va am m) s m vd (fun e => ofLanes ty.lane fun j => (ftypeFmt ty).absNeg true (A e j))

/-- An instruction that completes by writing one mask: bit e of md is f e where bit e of mask m is set, and as before elsewhere; m0
discards. Nothing else changes but the pc. -/
def writesMask (i : Instr) (s : State) (m md : MReg) (f : Nat → Bool) : Prop :=
  ∃ k : VMask, exec i s = .next ((s.setMask md k).advance 1) ∧
    ∀ e < 1024, k.getLsbD e = if (s.mask m).getLsbD e then f e else (s.mask md).getLsbD e

/-- R164: VCMP writes the condition at the enabled elements: for integers by signed or unsigned order, for F32 by value, an unordered
pair meeting NE and UN only. -/
def vectorComparePart : Prop :=
  ∀ (cc : VCmpCond) (md : MReg) (va vb : VReg) (m : MReg) (s : State), s.curCore < 512 →
    let A (e : Nat) : Elem := velem (s.vreg va) e
    let B (e : Nat) : Elem := velem (s.vreg vb) e
    let byOrder (lt : Nat → Bool) (eq : Nat → Bool) (e : Nat) : Bool :=
      match cc with
      | .eq => eq e | .ne => !eq e | .lt => lt e | .le => lt e || eq e | .gt => !lt e && !eq e | .ge => !lt e
      | .un => false | .ord => true
    writesMask (.vcmp .i32 cc md va vb m) s m md
      (byOrder (fun e => decide ((A e).toInt < (B e).toInt)) fun e => decide (A e = B e)) ∧
    writesMask (.vcmp .u32 cc md va vb m) s m md
      (byOrder (fun e => decide ((A e).toNat < (B e).toNat)) fun e => decide (A e = B e)) ∧
    writesMask (.vcmp .f32 cc md va vb m) s m md fun e =>
      let x := fp32.value (A e).toNat
      let y := fp32.value (B e).toNat
      let un := x.isNan || y.isNan
      match cc with
      | .eq => x.eq y | .ne => !x.eq y | .lt => x.lt y | .le => !un && !y.lt x | .gt => y.lt x | .ge => !un && !x.lt y
      | .un => un | .ord => !un

end Sys2Proof.Statements

/-- R159, R162, R164: vector minimum, maximum, sign operations and comparisons. -/
def Obligations.VectorComparisons : Prop := vectorMinMaxSignPart ∧ vectorComparePart

/-- R165, whole: VSEL is MAJ 0x13, MIN 0x01 with vx 00, identity modifiers and vc and rm reserved; it writes all 1 024 elements of vd,
va's where the mask bit is set and vb's elsewhere, and with m0 copies va. -/
def Obligations.VselRule : Prop :=
  (∀ (vd va vb : VReg) (m : MReg),
    decode (0x13#6 ++ 0x01#6 ++ vd ++ va ++ vb ++ 0#4 ++ 0#6 ++ 0#6 ++ m ++ 0#3 ++ 0#2) 0 = .ok (.vsel vd va vb m)) ∧
  (∀ (vd va vb vc : VReg) (am bm : BitVec 6) (m rm : BitVec 3) (vx : BitVec 2),
    vc ≠ 0 ∨ am ≠ 0 ∨ bm ≠ 0 ∨ rm ≠ 0 ∨ vx ≠ 0 →
      decode (0x13#6 ++ 0x01#6 ++ vd ++ va ++ vb ++ vc ++ am ++ bm ++ m ++ rm ++ vx) 0 = .error .reserved) ∧
  (∀ (vd va vb : VReg) (m : MReg) (s : State), s.curCore < 512 →
    ∃ v : VRegs, exec (.vsel vd va vb m) s = .next ((s.setVreg vd v).advance 1) ∧
      (∀ e : Fin 1024, v[e] = if (s.mask m).getLsbD e.val then (s.vreg va)[e] else (s.vreg vb)[e]) ∧
      (m = 0 → v = s.vreg va))

/-- R166, whole: VMSK is MAJ 0x13, MIN 0x02 whose vd, va and vb name masks 0 to 7, whose vc holds tt, with vx 00, modifiers 0 and rm 000;
where bit e of mN is set bit e of md becomes bit 2 ma[e] + mb[e] of tt, elsewhere md keeps it; both sources are read first. -/
def Obligations.VmskRule : Prop :=
  (∀ (md ma mb m : MReg) (tt : BitVec 4),
    decode (0x13#6 ++ 0x02#6 ++ (0#1 ++ md) ++ (0#1 ++ ma) ++ (0#1 ++ mb) ++ tt ++ 0#6 ++ 0#6 ++ m ++ 0#3 ++ 0#2) 0 =
      .ok (.vmsk md ma mb tt m)) ∧
  (∀ (vd va vb vc : VReg) (am bm : BitVec 6) (m rm : BitVec 3) (vx : BitVec 2),
    8 ≤ vd.toNat ∨ 8 ≤ va.toNat ∨ 8 ≤ vb.toNat ∨ am ≠ 0 ∨ bm ≠ 0 ∨ rm ≠ 0 ∨ vx ≠ 0 →
      decode (0x13#6 ++ 0x02#6 ++ vd ++ va ++ vb ++ vc ++ am ++ bm ++ m ++ rm ++ vx) 0 = .error .reserved) ∧
  (∀ (md ma mb m : MReg) (tt : BitVec 4) (s : State), s.curCore < 512 →
    writesMask (.vmsk md ma mb tt m) s m md fun e =>
      tt.getLsbD (2 * ((s.mask ma).getLsbD e).toNat + ((s.mask mb).getLsbD e).toNat))

namespace Sys2Proof.Statements

/-- R167 to R174: the estimates, refinements and functions of F32 act on each enabled element and OR their flags into FPM; VCVT converts
the low bits of each, or the sub-element that a broadcast modifier names; VPACK gathers the low W bits of a row of va and then of vb;
VUNPK spreads sub-elements of a row, sign- or zero-extended. -/
def vectorFunctionsPart : Prop :=
  (∀ p ∈ [((.vrcp : VReg → VReg → MReg → Instr), vrcp), (.vrsq, vrsq), (.vexp2, vexp2), (.vlog2, vlog2), (.vtanh, vtanh)],
    ∀ (vd va : VReg) (m : MReg) (s : State), s.curCore < 512 →
      writesFloat (p.1 vd va m) s m vd 1 (fun e => BitVec.ofNat 32 (p.2 (velem (s.vreg va) e).toNat).1)
        (fun e _ => (p.2 (velem (s.vreg va) e).toNat).2)) ∧
  (∀ p ∈ [((.vrcpr : VReg → VReg → VReg → MReg → RmField → Instr), false), (.vrsqr, true)],
    ∀ (vd va vb : VReg) (m : MReg) (rm : RmField) (s : State), s.curCore < 512 →
      let f (e : Nat) := refine p.2 (modeOf rm s.me.fpm) (velem (s.vreg va) e).toNat (velem (s.vreg vb) e).toNat
      writesFloat (p.1 vd va vb m rm) s m vd 1 (fun e => BitVec.ofNat 32 (f e).1) (fun e _ => (f e).2)) ∧
  (∀ (src dst : CvtType) (inf : Bool) (vd va : VReg) (am : Modifier) (m : MReg) (rm : RmField) (s : State), s.curCore < 512 →
    let f (e : Nat) := cvtElem src dst inf (modeOf rm s.me.fpm) (cvtSource src am (velem (s.vreg va) e))
    writesFloat (.vcvt src dst inf vd va am m rm) s m vd 1 (fun e => (f e).1) (fun e _ => (f e).2)) ∧
  (∀ (w : LaneW) (vd va vb : VReg) (m : MReg) (s : State), s.curCore < 512 → w ≠ .w32 →
    writesVector (.vpack w vd va vb m) s m vd fun e => ofLanes w fun i =>
      let j := w.count * (e % 64) + i
      if j < 64 then (velem (s.vreg va) (64 * (e / 64) + j)).toNat % 2 ^ w.bits
      else if j < 128 then (velem (s.vreg vb) (64 * (e / 64) + j - 64)).toNat % 2 ^ w.bits else 0) ∧
  (∀ (w : LaneW) (sx : Bool) (vd va : VReg) (part m : MReg) (s : State), s.curCore < 512 →
    writesVector (.vunpk w sx vd va part m) s m vd fun e =>
      let k := 64 * part.toNat + e % 64
      let x := lane w (velem (s.vreg va) (64 * (e / 64) + k / w.count)) (k % w.count)
      if sx then BitVec.ofInt 32 (signedLane w x) else BitVec.ofNat 32 x)

end Sys2Proof.Statements

/-- R159, R160, R167 to R174: the float arithmetic, functions and conversions of vectors. -/
def Obligations.VectorFloatResults : Prop := vectorFloatPart ∧ vectorFunctionsPart

/-! ## Vector motion (R178 to R193) -/

namespace Sys2Proof.Statements

/-- The instructions that move elements by their place, with the element that element e of vd receives (R180). -/
def motions : List ((VReg → VReg → MReg → Instr) × (Nat → Nat)) :=
  ((List.range 64).flatMap fun k =>
    [((fun vd va m => .vrotr vd va (BitVec.ofNat 6 k) m), fun e => 64 * (e / 64) + (e % 64 + k) % 64),
     ((fun vd va m => .vbcr vd va (BitVec.ofNat 6 k) m), fun e => 64 * (e / 64) + k)]) ++
  (List.range 16).flatMap fun k =>
    [((fun vd va m => .vrotc vd va (BitVec.ofNat 4 k) m), fun e => 64 * ((e / 64 + k) % 16) + e % 64),
     ((fun vd va m => .vbcc vd va (BitVec.ofNat 4 k) m), fun e => 64 * k + e % 64)]

/-- R180, R183: rotations and broadcasts along an axis, VPERM by index with bit 31 giving zero, VMOV through a modifier, VMOVS from a
scalar, VMOVX of the lowest enabled element, extended, or zero. -/
def vectorMovesPart : Prop :=
  (∀ p ∈ motions, ∀ (vd va : VReg) (m : MReg) (s : State), s.curCore < 512 →
    writesVector (p.1 vd va m) s m vd fun e => velem (s.vreg va) (p.2 e)) ∧
  (∀ (vd va vb : VReg) (m : MReg) (s : State), s.curCore < 512 →
    writesVector (.vperm vd va vb m) s m vd fun e =>
      if (velem (s.vreg vb) e).getLsbD 31 then 0 else velem (s.vreg va) ((velem (s.vreg vb) e).extractLsb' 0 10).toNat) ∧
  (∀ (vd va : VReg) (am : Modifier) (m : MReg) (s : State), s.curCore < 512 →
    writesVector (.vmov vd va am m) s m vd fun e => ofLanes am.w fun j => subMod am.w am (velem (s.vreg va) e) j) ∧
  (∀ (vd : VReg) (n : XReg) (m : MReg) (s s1 : State) (x : Word), s.curCore < 512 → s.begins ⟨0, false⟩ [n] [] [x] s1 →
    ∃ v : VRegs, exec (.vmovs vd n m) s = .next ((s1.setVreg vd v).advance 1) ∧
      ∀ e : Fin 1024, v[e] = if (s.mask m).getLsbD e.val then x.extractLsb' 0 32 else (s.vreg vd)[e]) ∧
  (∀ (n : XReg) (va : VReg) (sx : Bool) (m : MReg) (s s2 : State) (y : Word), s.clear ⟨0, false⟩ [n] →
    ((∀ e < 1024, (s.mask m).getLsbD e = false) ∧ y = 0 ∨
      ∃ e < 1024, (s.mask m).getLsbD e = true ∧ (∀ f < e, (s.mask m).getLsbD f = false) ∧
        y = if sx then (velem (s.vreg va) e).signExtend 64 else (velem (s.vreg va) e).setWidth 64) →
    s.writeReg n y = .ok s2 → exec (.vmovx n va sx m) s = .next (s2.advance 1))

/-- The value of a node of the pairwise tree of R182 over a line y: level 0 is the line. -/
def treeNode (op : RedOp) (r : Rnd) (y : Nat → Elem) : Nat → Nat → Elem
  | 0, i => y i
  | j + 1, i => (redOp op r (treeNode op r y j (2 * i)) (treeNode op r y j (2 * i + 1))).1
/-- The line after some steps of the scan of R182. -/
def scanNode (op : RedOp) (r : Rnd) (y : Nat → Elem) : Nat → Nat → Elem
  | 0, i => y i
  | j + 1, i => if i < 2 ^ j then scanNode op r y j i
    else (redOp op r (scanNode op r y j (i - 2 ^ j)) (scanNode op r y j i)).1

/-- R181, R182: VREDR and VREDC write the root of the pairwise tree of each line's elements, left operand first, to every enabled
element of the line, over 6 levels for a row and 4 for a column; VSCNR and VSCNC write the log-step scan. The whole line
takes part whatever the mask. -/
def vectorReductionsPart : Prop :=
  ∀ (op : RedOp) (vd va : VReg) (m : MReg) (rm : RmField) (s : State), s.curCore < 512 →
    let r := modeOf rm s.me.fpm
    let row (e i : Nat) : Elem := velem (s.vreg va) (64 * (e / 64) + i)
    let col (e i : Nat) : Elem := velem (s.vreg va) (64 * i + e % 64)
    let put (i : Instr) (f : Nat → Elem) : Prop :=
      ∃ (v : VRegs) (k : FFlags), exec i s = .next (((s.setVreg vd v).vflags k).advance 1) ∧
        wrote s (((s.setVreg vd v).vflags k).advance 1) m vd f
    put (.vredr op vd va m rm) (fun e => treeNode op r (row e) 6 0) ∧ put (.vredc op vd va m rm) (fun e => treeNode op r (col e) 4 0) ∧
    put (.vscnr op vd va m rm) (fun e => scanNode op r (row e) 6 (e % 64)) ∧
    put (.vscnc op vd va m rm) (fun e => scanNode op r (col e) 4 (e / 64))

/-- R184, R185: ZWR writes element (r, c) of va to row 16q + r, column c of the tile where the mask is set; ZRD reads row c, column
16q + r, raw when the codes are equal and converted otherwise; ZCLR clears the tile. -/
def transposeTilesPart : Prop :=
  (∀ (z q : BitVec 2) (va : VReg) (m : MReg) (s : State), s.curCore < 512 →
    ∃ t : Vector Elem 4096, exec (.zwr z va q m) s = .next ((s.setZ z t).advance 1) ∧
      ∀ (i j : Nat), i < 64 → j < 64 → t.getD (64 * i + j) 0 =
        if i / 16 = q.toNat ∧ (s.mask m).getLsbD (64 * (i % 16) + j) = true then velem (s.vreg va) (64 * (i % 16) + j)
        else (s.ztile z).getD (64 * i + j) 0) ∧
  (∀ (c : CvtType) (inf : Bool) (vd : VReg) (z q : BitVec 2) (m : MReg) (rm : RmField) (s : State), s.curCore < 512 →
    writesVector (.zrd c c inf vd z q m rm) s m vd fun e => (s.ztile z).getD (64 * (e % 64) + 16 * q.toNat + e / 64) 0) ∧
  (∀ (src dst : CvtType) (inf : Bool) (vd : VReg) (z q : BitVec 2) (m : MReg) (rm : RmField) (s : State), s.curCore < 512 →
    src ≠ dst →
      let f (e : Nat) := cvtElem src dst inf (modeOf rm s.me.fpm)
        (((s.ztile z).getD (64 * (e % 64) + 16 * q.toNat + e / 64) 0).toNat % 2 ^ src.width)
      writesFloat (.zrd src dst inf vd z q m rm) s m vd 1 (fun e => (f e).1) (fun e _ => (f e).2)) ∧
  (∀ (z : BitVec 2) (s : State), exec (.zclr z) s = .next ((s.setZ z (Vector.replicate 4096 0)).advance 1))

end Sys2Proof.Statements

/-- R175 to R185: moves of vector elements, reductions and scans, and the transposition tiles. -/
def Obligations.VectorMotion : Prop := vectorMovesPart ∧ vectorReductionsPart ∧ transposeTilesPart

namespace Sys2Proof.Statements

/-- The indices of the enabled elements, ascending (R187). -/
def enabledOf (m : VMask) : List Nat := (List.range 1024).filter fun e => m.getLsbD e

end Sys2Proof.Statements

/-- R186, R187: on a bank that the context owns, in fifo mode and bound to no other core, DEFER appends the enabled elements in
ascending order and binds the ring to the core, unless it would pass 32 768 entries (TILE 0x0A); DRAIN moves the oldest entries to
the enabled elements in ascending order, zeros past the last, and DFCNT counts. Any other bank is ACCESS with TVAL b. -/
def Obligations.DeferralRing : Prop :=
  ∀ (b : BitVec 6) (m : MReg) (s : State), s.curCore < 512 →
    let ok : Prop := (s.owner s.curCl s.curCtx).bank.getLsbD b.toNat = true ∧
      (s.cluster s.curCl).modes.getD b.toNat .cache = .fifo ∧
      ((s.ring b.toNat).bound = none ∨ (s.ring b.toNat).bound = some s.curCore)
    let es := enabledOf (s.mask m)
    let q := (s.ring b.toNat).entries
    (ok → ∀ va, q.length + es.length ≤ 32768 →
      exec (.defer va b m) s = .next ((s.setRing b.toNat (q ++ es.map (velem (s.vreg va)))).advance 1)) ∧
    (ok → ∀ va, 32768 < q.length + es.length → exec (.defer va b m) s = .next (s.take ⟨0x29, 0x0A, 0⟩)) ∧
    (ok → ∀ vd, ∃ v : VRegs, exec (.drain vd b m) s = .next (((s.setRing b.toNat (q.drop es.length)).setVreg vd v).advance 1) ∧
      (∀ (i : Nat) (e : Fin 1024), es[i]? = some e.val → v[e] = q.getD i 0) ∧
      ∀ e : Fin 1024, (s.mask m).getLsbD e.val = false → v[e] = (s.vreg vd)[e]) ∧
    (ok → ∀ (n : XReg) (s2 : State), s.clear ⟨0, false⟩ [n] → (s.setRing b.toNat q).writeReg n (BitVec.ofNat 64 q.length) = .ok s2 →
      exec (.dfcnt n b) s = .next (s2.advance 1)) ∧
    (¬ok → ∀ va vd, exec (.defer va b m) s = .next (s.take ⟨0x11, 0, b.setWidth 64⟩) ∧
      exec (.drain vd b m) s = .next (s.take ⟨0x11, 0, b.setWidth 64⟩) ∧
      ∀ n, s.clear ⟨0, false⟩ [n] → exec (.dfcnt n b) s = .next (s.take ⟨0x11, 0, b.setWidth 64⟩))

/-! ## Loads, stores, atomics and fences (R252 to R261) -/

namespace Sys2Proof.Statements

/-- The number that n bytes hold, the first least significant (R2). -/
def numberOf (f : Nat → Byte) : Nat → Nat
  | 0 => 0
  | n + 1 => numberOf f n + (f n).toNat * 2 ^ (8 * n)

/-- A loaded value: n bytes sign- or zero-extended to 64 bits (R256). -/
def loaded (sx : Bool) (n : Nat) (f : Nat → Byte) : Word :=
  if sx then BitVec.ofInt 64 (BitVec.ofNat (8 * n) (numberOf f n)).toInt else BitVec.ofNat 64 (numberOf f n)

/-- The address operand of LD and ST: the tag of x[a] with the sum of its low 56 bits and the offset (R20, R256). -/
def operandAddr (x : Word) (off : BitVec 17) : Word :=
  x.extractLsb' 56 8 ++ (x.extractLsb' 0 56 + off.signExtend 56)

/-- A home line is resident, or its way has room: with none, replacement writes a line of that way back first (R21, R151, R377). -/
def hasRoom (s : State) (line : Nat) : Prop :=
  s.l2At line = none →
    (s.l2.filter fun x => x.2.slice == s.sliceFor line && x.2.way == s.wayFor (s.sliceFor line) line).length < 16384

/-- A home line that an access of the acting agent may use: HBM, no loss, no pin against it, no error, offsets aligned, room for it. -/
def usable (s : State) (ga pa : Nat) : Prop :=
  placeOf pa = .hbm ∧ pa % 64 = ga % 64 ∧ s.isLost (pa / 64) = false ∧ s.pinnedFor s.party (pa / 64) = false ∧
    (s.l2At (pa / 64) = none → s.hbmBad (pa / 64) = false) ∧ hasRoom s (pa / 64) ∧
    ∀ l, s.l2At (pa / 64) = some l → l.inj = .none ∧ l.poisoned = false

/-- No line of a tile-space range of up to 64 aligned bytes is pinned against the acting stream (R266). -/
def unpinnedTile (s : State) (t : Nat) : Prop := s.pinnedFor s.party (tileKey s.curCl t / 64) = false

/-- A plain access of a home line meets no race; other classes are not checked (R252, R264). -/
def unraced (s : State) (pa : Nat) (c : Cls) (store : Bool) : Prop :=
  c.isPlain = true → ∀ k, s.kernelOf s.curCore = some k → s.raceFind k s.party (pa / 64) store = none

/-- A class that does not release, or whose release finds every earlier remote access performed (R261). -/
def mayRelease (s : State) (c : Cls) : Prop := ∀ r, c.releases = some r → s.releaseReady r.1 r.2 = true

/-- No byte of memory differs. -/
def memSame (s t : State) : Prop :=
  (∀ a, t.physByte a = s.physByte a) ∧ (∀ a, memByte t.host a = memByte s.host a) ∧
    ∀ cl a, memByte (t.cluster cl).store a = memByte (s.cluster cl).store a

/-- Home memory takes new bytes in a range, which lie in one line; no other byte of memory differs. (An address of the plat aperture whose
stored byte lies in that line names a byte of it a second time, R205: of it nothing is said.) -/
def homeStored (s t : State) (pa n : Nat) (f : Nat → Byte) : Prop :=
  (∀ i < n, t.physByte (pa + i) = f i) ∧
    (∀ a, a < pa ∨ pa + n ≤ a → a < 2 ^ 51 ∨ s.hbmAddr a / 64 ≠ pa / 64 → t.physByte a = s.physByte a) ∧
    (∀ a, memByte t.host a = memByte s.host a) ∧ ∀ cl a, memByte (t.cluster cl).store a = memByte (s.cluster cl).store a

/-- A cluster's tile store takes new bytes in a range; no other byte of memory differs. -/
def tileStored (s t : State) (cl a0 n : Nat) (f : Nat → Byte) : Prop :=
  (∀ i < n, memByte (t.cluster cl).store (a0 + i) = f i) ∧
    (∀ c a, c ≠ cl ∨ a < a0 ∨ a0 + n ≤ a → memByte (t.cluster c).store a = memByte (s.cluster c).store a) ∧
    (∀ a, t.physByte a = s.physByte a) ∧ ∀ a, memByte t.host a = memByte s.host a

/-- A destination takes a value now: a port's queue is closed, or has a free entry (R92, R93). -/
def hasSlot (s : State) (d : XReg) : Prop :=
  ∀ q, s.port? d = some q → (s.dqOf q).closed = true ∨
    ((s.dqOf q).entries.length < 64 ∧ (s.dqOf q).pops ≤ (s.dqOf q).pushes)

/-- A destination takes a value: the register, nothing for x0; a port's queue at its tail, nothing when it is closed (R92, R93). -/
def takes (s t : State) (d : XReg) (v : Word) : Prop :=
  (s.port? d = none → t.hart.get d = if d = 0 then 0 else v) ∧
    ∀ q, s.port? d = some q →
      (t.dqOf q).entries = (s.dqOf q).entries ++ (if (s.dqOf q).closed then [] else [.filled v])

/-- The registers of the acting agent but some are as before, its pc is at the next word, and its control words are as before. -/
def onlyRegs (s t : State) (ds : List XReg) : Prop :=
  (∀ r, r ∉ ds → t.hart.get r = s.hart.get r) ∧ (∀ n, t.hart.pred n = s.hart.pred n) ∧ t.hart.prc = s.hart.prc ∧
    t.hart.shadow = s.hart.shadow ∧ t.pc = s.pcAfter 1 ∧ t.me.fpm = s.me.fpm ∧ t.me.trapvec = s.me.trapvec ∧
    t.me.tcause = s.me.tcause ∧ t.me.tepc = s.me.tepc ∧ t.me.tval = s.me.tval ∧ t.me.tprc = s.me.tprc ∧
    t.me.scopemode = s.me.scopemode ∧ t.me.lists = s.me.lists

end Sys2Proof.Statements

namespace Sys2Proof.Statements

/-- A read in a class by the acting stream may miss the newest k of the writes that nothing orders before it: none of them with a
strong class, nor with the memory system answering at once (R262, R375, R376; DESIGN CHOICE log 72). -/
def mayMiss (s : State) (c : Cls) (key n k : Nat) : Prop :=
  k ≤ (s.unseen c.isGather key n).length ∧ (c.isStrong = true ∨ s.late = false → k = 0)

/-- Byte i of a read that misses the newest k of those writes: the one that stood before them (log 72). -/
def missed (s : State) (c : Cls) (key n k : Nat) (f : Nat → Byte) (i : Nat) : Byte :=
  byteBefore ((s.unseen c.isGather key n).take k) (key + i) (f i)

/-- The bytes of an access by its size code (R51). -/
def accessBytes (sz : MemSize) : Nat := 2 ^ (match sz with | .b1 => 0 | .b2 => 1 | .b4 => 2 | .b8 => 3)

/-- R51, R256, R262: LD by a stream that is not collecting writes the bytes at its address, extended, to x[d]: from its cluster's tile store
in tile space, and else from home memory or host memory, where translation leads in a state s1; every other register and all memory are as
before. A plain or weak load may miss the newest writes that nothing orders before it (DESIGN CHOICE log 72), and with the memory system
answering later (DESIGN CHOICE log 2) a load that does not acquire leaves its value in the load buffer. -/
def streamLoadsPart : Prop :=
  ∀ (g : Guard) (sx tile : Bool) (cls : LdClass) (sz : MemSize) (sc : Scope) (d a : XReg) (off : BitVec 17) (s s0 s1 : State)
    (x : Word) (core : Nat) (k : StreamId) (ga : Nat), s.Wf → core < 512 → s.cur = .stream core k → s.collecting = false →
    s.awaited = none → s.begins g [a] [d] [x] s0 → s.port? d = none →
      let n := accessBytes sz
      let y := operandAddr x off
      let c := ldCls cls sc
      let i : Instr := .ld g sx tile cls sz sc d a off
      let atOnce : Prop := s.late = false ∨ cls = .acquire ∨ d = 0
      (∀ t0, s.resolve tile y n = .ok (.tile t0) → s.storeBad s.curCl t0 n = false → unpinnedTile s t0 →
        ∃ t m, mayMiss s c (tileKey s.curCl t0) n m ∧ exec i s = .next t ∧ memSame s t ∧ onlyRegs s t [d] ∧
          t.hart.get d = if d = 0 then 0 else
            loaded sx n (missed s c (tileKey s.curCl t0) n m fun j => memByte (s.cluster s.curCl).store (t0 + j))) ∧
      (∀ pa, s.resolve tile y n = .ok (.global ga) → s.locate s.curCl s.curCtx ga false = .ok (.home pa, s1) → usable s1 ga pa →
        unraced s1 pa c false → ∃ t m, mayMiss s1 c pa n m ∧ exec i s = .next t ∧ memSame s1 t ∧
          (atOnce → onlyRegs s t [d] ∧ t.hart.get d = if d = 0 then 0 else loaded sx n (missed s1 c pa n m fun j => s1.physByte (pa + j))) ∧
          (¬atOnce → onlyRegs s t [] ∧
            t.me.loads = s.me.loads ++ [⟨d, none, loaded sx n (missed s1 c pa n m fun j => s1.physByte (pa + j)), false⟩])) ∧
      (∀ ha key, s.resolve tile y n = .ok (.global ga) → s.locate s.curCl s.curCtx ga false = .ok (.host ha, s1) →
        key = (Loc.host ha).key → s1.pinnedFor s1.party (key / 64) = false →
          ∃ t m, mayMiss s1 c key n m ∧ exec i s = .next t ∧ memSame s1 t ∧
            (atOnce → onlyRegs s t [d] ∧
              t.hart.get d = if d = 0 then 0 else loaded sx n (missed s1 c key n m fun j => memByte s1.host (ha + j))) ∧
            (¬atOnce → onlyRegs s t [] ∧
              t.me.loads = s.me.loads ++ [⟨d, none, loaded sx n (missed s1 c key n m fun j => memByte s1.host (ha + j)), true⟩]))

/-- R92, R93, R94, R256: LD with a data-queue port as its destination puts the value at the tail of the queue, which has room: from tile space
and from home memory at once, or, when the memory system answers later (DESIGN CHOICE log 2), a reserved place that the answer fills. A closed
queue takes none, and STAT.DQE is set. What the value may miss is log 72's, as for a register. -/
def queueLoadsPart : Prop :=
  ∀ (g : Guard) (sx tile : Bool) (cls : LdClass) (sz : MemSize) (sc : Scope) (d a : XReg) (off : BitVec 17) (s s0 s1 : State)
    (x : Word) (core : Nat) (k : StreamId) (q : Nat), s.Wf → core < 512 → s.cur = .stream core k → s.collecting = false →
    s.awaited = none → s.begins g [a] [d] [x] s0 → s.port? d = some q → s.port? a ≠ some q →
      let n := accessBytes sz
      let c := ldCls cls sc
      let i : Instr := .ld g sx tile cls sz sc d a off
      let old := (s.dqOf q).entries
      let room : Prop := (s.dqOf q).closed = false ∧ old.length < 64 ∧ (s.dqOf q).pops ≤ (s.dqOf q).pushes ∧ ∀ id, .heldSlot id ∉ old
      (∀ t0, s.resolve tile (operandAddr x off) n = .ok (.tile t0) → s.storeBad s.curCl t0 n = false → unpinnedTile s t0 →
        (room → ∃ t m, mayMiss s c (tileKey s.curCl t0) n m ∧ exec i s = .next t ∧ memSame s t ∧ onlyRegs s t [] ∧
          (t.dqOf q).entries = old ++
            [.filled (loaded sx n (missed s c (tileKey s.curCl t0) n m fun j => memByte (s.cluster s.curCl).store (t0 + j)))]) ∧
        ((s.dqOf q).closed = true → ∃ t, exec i s = .next t ∧ memSame s t ∧ onlyRegs s t [] ∧ (t.dqOf q).entries = old ∧
          t.hart.stat.getLsbD 5 = true)) ∧
      ∀ ga pa, s.resolve tile (operandAddr x off) n = .ok (.global ga) → s.locate s.curCl s.curCtx ga false = .ok (.home pa, s1) →
        usable s1 ga pa → unraced s1 pa c false → room →
          ∃ t m, mayMiss s1 c pa n m ∧ exec i s = .next t ∧ memSame s1 t ∧ onlyRegs s t [] ∧
            let v := loaded sx n (missed s1 c pa n m fun j => s1.physByte (pa + j))
            (s.late = false ∨ cls = .acquire → (t.dqOf q).entries = old ++ [.filled v]) ∧
            (s.late = true → cls ≠ .acquire → ∃ id, (t.dqOf q).entries = old ++ [.reserved id] ∧
              t.me.loads = s.me.loads ++ [⟨d, some (q, id), v, false⟩])

/-- R94, R330 to R335: a weak LD of a remote page, or a strong one at domain or system scope, issues one request with the page's destination
and offset, when its checks pass and the limits have room: it goes on, and one that acquires waits; with the answer there it completes. One
into a data queue reserves its place at the tail, which the answer fills. A plain one is REMOTE, SUB 1. -/
def remoteLoadsPart : Prop :=
  ∀ (g : Guard) (sx tile : Bool) (cls : LdClass) (sz : MemSize) (sc : Scope) (d a : XReg) (off : BitVec 17) (s s0 : State)
    (x : Word) (core : Nat) (k : StreamId) (ga : Nat), core < 512 → s.cur = .stream core k → s.collecting = false →
    s.begins g [a] [d] [x] s0 →
      let n := accessBytes sz
      let i : Instr := .ld g sx tile cls sz sc d a off
      s.resolve tile (operandAddr x off) n = .ok (.global ga) →
        (∀ s1 dest o, s.locate s.curCl s.curCtx ga false = .ok (.remote dest o, s1) → s.me.waiting = none →
          (cls = .plain → s.port? d = none → exec i s = .next (s1.take ⟨0x12, 1, operandAddr x off⟩)) ∧
          (cls = .weak ∨ ((cls = .strong ∨ cls = .acquire) ∧ domainScope (s.effScope sc 0 core) = true) → dest ≠ s.pkgId.toNat →
            (s.part s.curPart).ownKey.isSome = true → s.remoteRoom core k dest false = true →
            s1.pinnedFor s1.party ((Loc.remote dest o).key / 64) = false →
            (s.port? d = none → ∃ t r, exec i s = .next t ∧ memSame s1 t ∧ t.me.remote = s.me.remote ++ [r] ∧
              r.kind = .load d sx (cls == .acquire) none ∧ r.dest = dest ∧ r.offset = o ∧ r.size = n ∧
              some r.key = ((s.part s.curPart).ownKey.map fun q => q.toNat) ∧ (cls ≠ .acquire → onlyRegs s t []) ∧
              (cls = .acquire → t.hart = s.hart ∧ t.me.st = .wait ∧ t.me.waiting = some (.remoteAnswer r.tag))) ∧
            ∀ q, s.port? d = some q → s.port? a ≠ some q → (s.dqOf q).closed = false → (s.dqOf q).entries.length < 64 →
              (s.dqOf q).pops ≤ (s.dqOf q).pushes → (∀ id, .heldSlot id ∉ (s.dqOf q).entries) →
              ∃ t r id, exec i s = .next t ∧ memSame s1 t ∧ t.me.remote = s.me.remote ++ [r] ∧
                r.kind = .load d sx (cls == .acquire) (some (q, id)) ∧ (t.dqOf q).entries = (s.dqOf q).entries ++ [.reserved id] ∧
                (cls ≠ .acquire → onlyRegs s t []) ∧ (cls = .acquire → t.me.waiting = some (.remoteAnswer r.tag)))) ∧
        (∀ r, s.awaited = some r → r.answer = none → exec i s = .next (s.toWait (.remoteAnswer r.tag))) ∧
        ∀ r v, s.awaited = some r → r.answer = some v →
          (r.kind = .load d sx true none → s.port? d = none →
            ∃ t, exec i s = .next t ∧ memSame s t ∧ onlyRegs s t [d] ∧ (∀ q ∈ t.me.remote, q.tag ≠ r.tag) ∧
              t.hart.get d = if d = 0 then 0 else extend sx n (leBytes n v)) ∧
          ∀ q id, r.kind = .load d sx true (some (q, id)) → s.port? d = some q → q < 8 → s.port? a ≠ some q →
            ∃ t, exec i s = .next t ∧ memSame s t ∧ onlyRegs s t [] ∧ (∀ u ∈ t.me.remote, u.tag ≠ r.tag) ∧
              (t.dqOf q).entries =
                (s.dqOf q).entries.map fun e => if e = .reserved id then .filled (extend sx n (leBytes n v)) else e

/-- The byte that the open lists of a stream hold for a global address: the innermost level's newest entry first, then the enclosing ones'
(R247); none where memory supplies it. -/
def fromLists (es : List AEntry) (opened : List Nat) (a : Nat) : Option Byte :=
  (opened.flatMap fun slot => es.reverse.filter fun e => e.own == slot && e.be.getLsbD (a % 64) && e.line.toNat == 64 * (a / 64)).head?.map
    fun e => e.data.extractLsb' (8 * (a % 64)) 8

/-- R246, R247: a plain or weak LD while its stream collects takes each byte from the innermost open list that has it, newest entry first,
and the rest from memory; with every byte from lists it reaches no memory. In tile space it is as outside collection. A strong one is EFSYNC. -/
def collectingLoadsPart : Prop :=
  ∀ (g : Guard) (sx tile : Bool) (cls : LdClass) (sz : MemSize) (sc : Scope) (d a : XReg) (off : BitVec 17) (s s0 : State)
    (x : Word) (core : Nat) (k : StreamId), s.Wf → core < 512 → s.cur = .stream core k → s.collecting = true →
    s.begins g [a] [d] [x] s0 → s.port? d = none →
      let n := accessBytes sz
      let y := operandAddr x off
      let c := ldCls cls sc
      let i : Instr := .ld g sx tile cls sz sc d a off
      (cls = .strong ∨ cls = .acquire → exec i s = .next (s.take ⟨0x26, 0, 0⟩)) ∧
      (cls = .plain ∨ cls = .weak → s.awaited = none →
        (∀ t0, s.resolve tile y n = .ok (.tile t0) → s.storeBad s.curCl t0 n = false → unpinnedTile s t0 →
          ∃ t m, mayMiss s c (tileKey s.curCl t0) n m ∧ exec i s = .next t ∧ memSame s t ∧ onlyRegs s t [d] ∧
            t.hart.get d = if d = 0 then 0 else
              loaded sx n (missed s c (tileKey s.curCl t0) n m fun j => memByte (s.cluster s.curCl).store (t0 + j))) ∧
        ∀ ga pa s1 s2 es, s.resolve tile y n = .ok (.global ga) → s.locate s.curCl s.curCtx ga false = .ok (.home pa, s1) →
          s1.arenaAll = .ok (es, s2) →
          let lb (j : Nat) : Option Byte := fromLists es s.me.lists.opened (ga + j)
          ((∀ j < n, (lb j).isSome = true) → ∃ t, exec i s = .next t ∧ memSame s2 t ∧ onlyRegs s t [d] ∧ t.recs = s2.recs ∧
            t.hart.get d = if d = 0 then 0 else loaded sx n fun j => (lb j).getD 0) ∧
          ((∃ j < n, lb j = none) → usable s2 ga pa → unraced s2 pa c false → s.late = false ∨ d = 0 →
            ∃ t m, mayMiss s2 c pa n m ∧ exec i s = .next t ∧ memSame s2 t ∧ onlyRegs s t [d] ∧
              t.hart.get d = if d = 0 then 0 else loaded sx n fun j => (lb j).getD (missed s2 c pa n m (fun i => s2.physByte (pa + i)) j)))

/-- R362: LD by a station core names memory physically: an aligned doubleword of the register window reads that register, and an aligned
address of home memory its bytes. -/
def stationLoadsPart : Prop :=
  ∀ (g : Guard) (sx : Bool) (cls : LdClass) (sz : MemSize) (sc : Scope) (d a : XReg) (off : BitVec 17) (s s0 : State) (x : Word)
    (n : Nat), n < 12 → s.cur = .station n → s.begins g [a] [d] [x] s0 →
      let y := (operandAddr x off).toNat
      (placeOf y = .regs → sz = .b8 → y % 8 = 0 →
        exec (.ld g sx false cls sz sc d a off) s = .next ((s.setHart (s.hart.put d (s.regRead (y - regBase)))).advance 1)) ∧
      (placeOf y = .hbm → y % accessBytes sz = 0 → s.inPlane y = false → usable s y y →
        ∃ t, exec (.ld g sx false cls sz sc d a off) s = .next t ∧ memSame s t ∧ t.pc = s.pcAfter 1 ∧
          (∀ r, r ≠ d → t.hart.get r = s.hart.get r) ∧
          t.hart.get d = if d = 0 then 0 else loaded sx (accessBytes sz) fun i => s.physByte (y + i))

end Sys2Proof.Statements

/-- R51, R92, R94, R247, R256, R262, R331, R362: what LD reads and writes: from tile space, home, host and remote memory, to a register or
a data queue, on a core, while collecting too, and on a station core. -/
def Obligations.Loads : Prop := streamLoadsPart ∧ queueLoadsPart ∧ remoteLoadsPart ∧ collectingLoadsPart ∧ stationLoadsPart

namespace Sys2Proof.Statements

/-- R51, R256: ST by a stream that is not collecting stores the low bytes of x[d] at its address, in its cluster's tile store or, where
translation leads in a state s1, in home memory or host memory; every other byte of memory and every register are as before. -/
def streamStoresPart : Prop :=
  ∀ (g : Guard) (tile : Bool) (cls : StClass) (sz : MemSize) (sc : Scope) (d a : XReg) (off : BitVec 17) (s s0 s1 : State)
    (x v : Word) (core : Nat) (k : StreamId) (ga : Nat), s.Wf → core < 512 → s.cur = .stream core k → s.collecting = false →
    s.begins g [a, d] [] [x, v] s0 → s.me.remote = [] → mayRelease s (stCls cls sc) →
      let n := accessBytes sz
      let y := operandAddr x off
      (∀ t0, s.resolve tile y n = .ok (.tile t0) → s.guardStore s.curCl s.curCtx true t0 n y = .ok () → unpinnedTile s t0 →
        ∃ t, exec (.st g tile cls sz sc d a off) s = .next t ∧ onlyRegs s t [] ∧
          tileStored s t s.curCl t0 n fun i => v.extractLsb' (8 * i) 8) ∧
      (∀ pa, s.resolve tile y n = .ok (.global ga) → s.locate s.curCl s.curCtx ga true = .ok (.home pa, s1) →
        s1.guardStore s1.curCl s1.curCtx false ga n y = .ok () → usable s1 ga pa → unraced s1 pa (stCls cls sc) true →
          ∃ t, exec (.st g tile cls sz sc d a off) s = .next t ∧ onlyRegs s t [] ∧
            homeStored s1 t pa n fun i => v.extractLsb' (8 * i) 8) ∧
      (∀ ha, s.resolve tile y n = .ok (.global ga) → s.locate s.curCl s.curCtx ga true = .ok (.host ha, s1) → ha % 64 = ga % 64 →
        s1.guardStore s1.curCl s1.curCtx false ga n y = .ok () → s1.pinnedFor s1.party ((Loc.host ha).key / 64) = false →
          ∃ t, exec (.st g tile cls sz sc d a off) s = .next t ∧ onlyRegs s t [] ∧
            (∀ i < n, memByte t.host (ha + i) = v.extractLsb' (8 * i) 8) ∧
            (∀ b, b < ha ∨ ha + n ≤ b → memByte t.host b = memByte s1.host b) ∧ (∀ b, t.physByte b = s1.physByte b) ∧
            ∀ cl b, memByte (t.cluster cl).store b = memByte (s1.cluster cl).store b)

/-- R330 to R335: a weak ST to a remote page, or a strong one at domain or system scope, issues one request with the bytes, when its checks
pass and the limits have room, and goes on; a plain one is REMOTE, SUB 1; while its stream collects it is EFSYNC, SUB 1 (R246). -/
def remoteStoresPart : Prop :=
  ∀ (g : Guard) (tile : Bool) (cls : StClass) (sz : MemSize) (sc : Scope) (d a : XReg) (off : BitVec 17) (s s0 s1 : State)
    (x v : Word) (core : Nat) (k : StreamId) (ga dest o : Nat), core < 512 → s.cur = .stream core k →
    s.begins g [a, d] [] [x, v] s0 → mayRelease s (stCls cls sc) →
      let n := accessBytes sz
      let y := operandAddr x off
      let i : Instr := .st g tile cls sz sc d a off
      s.resolve tile y n = .ok (.global ga) → s.locate s.curCl s.curCtx ga true = .ok (.remote dest o, s1) →
      s1.guardStore s1.curCl s1.curCtx false ga n y = .ok () →
        (s.collecting = true → cls = .plain ∨ cls = .weak → exec i s = .next (s1.take ⟨0x26, 1, y⟩)) ∧
        (s.collecting = false → cls = .plain → exec i s = .next (s1.take ⟨0x12, 1, y⟩)) ∧
        (s.collecting = false → cls = .weak ∨ ((cls = .strong ∨ cls = .release) ∧ domainScope (s.effScope sc 0 core) = true) →
          dest ≠ s.pkgId.toNat → (s.part s.curPart).ownKey.isSome = true → s.remoteRoom core k dest false = true →
          s1.pinnedFor s1.party ((Loc.remote dest o).key / 64) = false →
            ∃ t r, exec i s = .next t ∧ memSame s1 t ∧ onlyRegs s t [] ∧ t.me.remote = s.me.remote ++ [r] ∧ r.kind = .store false ∧
              r.dest = dest ∧ r.offset = o ∧ r.size = n ∧ r.data = v.toNat % 2 ^ (8 * n) ∧ r.answer = none ∧
              some r.key = ((s.part s.curPart).ownKey.map fun q => q.toNat))

/-- R306, R307, R331: while a remote transaction of its stream is outstanding, a store enters the line's old bytes in the stream's journal
first, newest entry first, which lies in the area of its context in memory too; with the journal full it waits. (The three lines of the new
entry hold no error here.) -/
def markedStoresPart : Prop :=
  ∀ (g : Guard) (tile : Bool) (cls : StClass) (sz : MemSize) (sc : Scope) (d a : XReg) (off : BitVec 17) (s s0 : State)
    (x v : Word) (core : Nat) (k : StreamId), s.Wf → core < 512 → s.cur = .stream core k → s.collecting = false →
    s.begins g [a, d] [] [x, v] s0 → s.me.remote ≠ [] → mayRelease s (stCls cls sc) →
      let n := accessBytes sz
      let y := operandAddr x off
      let i : Instr := .st g tile cls sz sc d a off
      let at_ := s.journalAt core k + 80 * s.me.journal.length
      let whole (u : State) : Prop := u.l2.length + 4 ≤ 16384 ∧ ∀ l, at_ / 64 ≤ l → l ≤ at_ / 64 + 2 → u.isLost l = false ∧
        ∀ z, u.l2At l = some z → z.inj = .none
      let entered (t : State) (e : JEntry) : Prop := t.me.journal = e :: s.me.journal ∧ onlyRegs s t []
      (∀ t0, s.resolve tile y n = .ok (.tile t0) → s.guardStore s.curCl s.curCtx true t0 n y = .ok () → unpinnedTile s t0 →
        (s.journalFull core k = false → whole s →
          ∃ t e, exec i s = .next t ∧ entered t e ∧
            e = ⟨true, t0 / 64, (List.range n).map fun j => (t0 % 64 + j, memByte (s.cluster s.curCl).store (t0 + j))⟩ ∧
            (∀ j < 80, t.physByte (at_ + j) = e.bytes.getD j 0) ∧
            (∀ j < n, memByte (t.cluster s.curCl).store (t0 + j) = v.extractLsb' (8 * j) 8) ∧
            ∀ cl b, cl ≠ s.curCl ∨ b < t0 ∨ t0 + n ≤ b → memByte (t.cluster cl).store b = memByte (s.cluster cl).store b) ∧
        (s.journalFull core k = true → exec i s = .next (s.toWait .journalFull))) ∧
      ∀ ga pa s1, s.resolve tile y n = .ok (.global ga) → s.locate s.curCl s.curCtx ga true = .ok (.home pa, s1) →
        s1.guardStore s1.curCl s1.curCtx false ga n y = .ok () → usable s1 ga pa → unraced s1 pa (stCls cls sc) true →
        s.journalFull core k = false → whole s1 →
          ∃ t, exec i s = .next t ∧
            entered t ⟨false, pa / 64, (List.range n).map fun j => (pa % 64 + j, s1.physByte (pa + j))⟩ ∧
            ∀ j < n, t.physByte (pa + j) = v.extractLsb' (8 * j) 8

/-- R243, R246: a plain or weak ST to global memory while its stream collects appends one entry to the innermost open list: the line it
writes, its bytes enabled; memory beyond the arena and the registers are as before. With no room for the entry it is EFCAP, SUB 0, with the
bytes needed as TVAL, and nothing is appended. A strong one is EFSYNC, SUB 0. In tile space it is as outside collection. -/
def collectingStoresPart : Prop :=
  ∀ (g : Guard) (tile : Bool) (cls : StClass) (sz : MemSize) (sc : Scope) (d a : XReg) (off : BitVec 17) (s s0 : State)
    (x v : Word) (core : Nat) (k : StreamId) (lv : Nat) (lvs : List Nat), s.Wf → core < 512 → s.cur = .stream core k →
    s.collecting = true → s.me.lists.opened = lv :: lvs → lv < 64 → s.begins g [a, d] [] [x, v] s0 →
      let n := accessBytes sz
      let y := operandAddr x off
      let i : Instr := .st g tile cls sz sc d a off
      (cls = .strong ∨ cls = .release → exec i s = .next (s.take ⟨0x26, 0, 0⟩)) ∧
      (cls = .plain ∨ cls = .weak →
        (∀ t0, s.resolve tile y n = .ok (.tile t0) → s.guardStore s.curCl s.curCtx true t0 n y = .ok () → unpinnedTile s t0 →
          s.me.remote = [] → ∃ t, exec i s = .next t ∧ onlyRegs s t [] ∧
            tileStored s t s.curCl t0 n fun j => v.extractLsb' (8 * j) 8) ∧
        ∀ ga loc s1, s.resolve tile y n = .ok (.global ga) → s.locate s.curCl s.curCtx ga true = .ok (loc, s1) →
          (∀ dest o, loc ≠ .remote dest o) → s1.guardStore s1.curCl s1.curCtx false ga n y = .ok () →
          (4096 * (s.me.lists.arena.extractLsb' 0 16).toNat < s.me.lists.used + 80 →
            exec i s = .next (s1.take ⟨0x25, 0, BitVec.ofNat 64 (s.me.lists.used + 80)⟩)) ∧
          ∀ (be : BitVec 64) (data : BitVec 512) (s2 : State),
            s.me.lists.used + 80 ≤ 4096 * (s.me.lists.arena.extractLsb' 0 16).toNat →
            (∀ j < 64, be.getLsbD j = decide (ga % 64 ≤ j ∧ j < ga % 64 + n)) →
            (∀ j < 64, data.extractLsb' (8 * j) 8 =
              if ga % 64 ≤ j ∧ j < ga % 64 + n then v.extractLsb' (8 * (j - ga % 64)) 8 else 0) →
            s1.arenaPuts s.me.lists.used (entryWords ⟨0, BitVec.ofNat 64 (64 * (ga / 64)), lv, be, data⟩) = .ok s2 →
              ∃ t, exec i s = .next t ∧ memSame s2 t ∧ t.me.lists = { s.me.lists with used := s.me.lists.used + 80 } ∧
                (∀ r, t.hart.get r = s.hart.get r) ∧ t.pc = s.pc + 1)

/-- R362: ST by a station core stores in home memory by physical address, and an aligned doubleword of the register window writes that
register. -/
def stationStoresPart : Prop :=
  ∀ (g : Guard) (cls : StClass) (sz : MemSize) (sc : Scope) (d a : XReg) (off : BitVec 17) (s s0 : State) (x v : Word) (n : Nat),
    s.Wf → n < 12 → s.cur = .station n → s.begins g [a, d] [] [x, v] s0 →
      let y := (operandAddr x off).toNat
      (placeOf y = .regs → sz = .b8 → y % 8 = 0 →
        exec (.st g false cls sz sc d a off) s = .next ((s.regWrite (y - regBase) v).advance 1)) ∧
      (placeOf y = .hbm → y % accessBytes sz = 0 → s.inPlane y = false → usable s y y →
        ∃ t, exec (.st g false cls sz sc d a off) s = .next t ∧ (t.station n).hart = { s.hart with pc := s.pcAfter 1 } ∧
          homeStored s t y (accessBytes sz) fun i => v.extractLsb' (8 * i) 8)

end Sys2Proof.Statements

/-- R51, R246, R256, R306, R331, R362: where ST stores, on a core, under a mark, while collecting and to another package, and on a station
core. -/
def Obligations.Stores : Prop :=
  streamStoresPart ∧ remoteStoresPart ∧ markedStoresPart ∧ collectingStoresPart ∧ stationStoresPart

/-- R101, R135, R254, R256: the operand checks of an access in their order: a tile-space offset of 8 MiB or more, a bank not in tile
mode, ALIGN, a bank that the context does not own; a tag other than 0 and 1 is ACCESS, and so TVAL is the operand. A trap of LD or ST
changes no memory and no register: what happens is the taking of the trap. -/
def Obligations.AccessChecks : Prop :=
  ∀ (g : Guard) (sx tile : Bool) (cls : LdClass) (sc2 : StClass) (sz : MemSize) (sc : Scope) (d a : XReg) (off : BitVec 17)
    (s s0 s1 : State) (x v : Word) (core : Nat) (k : StreamId), s.cur = .stream core k → s.collecting = false →
    s.begins g [a] [d] [x] s0 → s.begins g [a, d] [] [x, v] s1 → s.port? d = none →
      let n := accessBytes sz
      let y := operandAddr x off
      let tag := (y.extractLsb' 56 8).toNat
      let o := (y.extractLsb' 0 56).toNat
      let traps (c : BitVec 8) : Prop :=
        exec (.ld g sx tile cls sz sc d a off) s = .next (s.take ⟨c, 0, y⟩) ∧
          exec (.st g tile sc2 sz sc d a off) s = .next (s.take ⟨c, 0, y⟩)
      (tile = false → 2 ≤ tag → traps 0x11) ∧
      (tile = true ∨ tag = 1 → 0x800000 ≤ o → traps 0x11) ∧
      (tile = true ∨ tag = 1 → o + n ≤ 0x800000 → (∃ b, (b = o / 0x20000 ∨ b = (o + n - 1) / 0x20000) ∧
        (s.cluster s.curCl).modes.getD b .cache ≠ .tile) → traps 0x11) ∧
      (tile = true ∨ tag = 1 → o + n ≤ 0x800000 → o % n ≠ 0 → (∀ b, o / 0x20000 ≤ b → b ≤ (o + n - 1) / 0x20000 →
        (s.cluster s.curCl).modes.getD b .cache = .tile) → traps 0x0A) ∧
      (tile = true ∨ tag = 1 → o + n ≤ 0x800000 → o % n = 0 → (s.cluster s.curCl).modes.getD (o / 0x20000) .cache = .tile →
        (s.owner s.curCl s.curCtx).bank.getLsbD (o / 0x20000) = false → traps 0x11) ∧
      (tile = false → tag = 0 → o % n ≠ 0 → traps 0x0A)

namespace Sys2Proof.Statements

/-- The integer atomics of R258 on numbers of w bits: the new value from the old one, the operand and the comparand. -/
def atomics (w : Nat) : List (AtomOp × (BitVec w → BitVec w → BitVec w → BitVec w)) :=
  [(.add, fun m o _ => m + o), (.and, fun m o _ => m &&& o), (.or, fun m o _ => m ||| o), (.xor, fun m o _ => m ^^^ o),
   (.min, fun m o _ => if o.toInt < m.toInt then o else m), (.max, fun m o _ => if m.toInt < o.toInt then o else m),
   (.minu, fun m o _ => if o.toNat < m.toNat then o else m), (.maxu, fun m o _ => if m.toNat < o.toNat then o else m),
   (.swap, fun _ o _ => o), (.cas, fun m o c => if m = c then o else m)]

end Sys2Proof.Statements

namespace Sys2Proof.Statements

/-- The sources of ATOM: the comparand of CAS is x[d] (R258). -/
def atomSources (op : AtomOp) (d a b : XReg) : List XReg := if op = .cas then [a, b, d] else [a, b]
/-- Their values. -/
def atomValues (op : AtomOp) (x y c : Word) : List Word := if op = .cas then [x, y, c] else [x, y]

/-- R52, R258: ATOM by a stream outside collection, on 4 or 8 bytes of home memory, host memory or tile space: the location takes the
operation's value and x[d], or a data queue that it names, the old one, zero-extended; CAS stores only on a match, its comparand being
x[d] before the instruction, which is no data-queue port (R58, step 6); an fadd stores the sum rounded to nearest. Every other byte and
register is as before. -/
def localAtomsPart : Prop :=
  ∀ (g : Guard) (op : AtomOp) (big : Bool) (ord : Order) (sc : Scope) (tier : BitVec 3) (d a b : XReg) (s s0 : State) (x y c : Word)
    (core : Nat) (k : StreamId) (s1 : State), s.Wf → core < 512 → s.cur = .stream core k → s.collecting = false →
    s.begins g (atomSources op d a b) [d] (atomValues op x y c) s0 → hasSlot s d → (op = .cas → s.port? d = none) → s.awaited = none →
    (∀ r ∈ [a, b], s.port? d ≠ none → s.port? r ≠ s.port? d) → s.me.remote = [] → mayRelease s (atomCls ord sc tier.toNat) →
      let n := if big then 8 else 4
      let i : Instr := .atom g op big ord sc tier d a b
      let next (m : Nat) (r : Nat) : Prop :=
        (∀ p ∈ atomics (8 * n), p.1 = op → r = (p.2 (BitVec.ofNat _ m) (y.setWidth _) (c.setWidth _)).toNat) ∧
        (op = .faddF32 → r = (fp32.fadd .rne m (y.toNat % 2 ^ 32)).1) ∧
        (op = .faddBf16x2 → r = (bf16.fadd .rne (m % 2 ^ 16) (y.toNat % 2 ^ 16)).1 +
          2 ^ 16 * (bf16.fadd .rne (m / 2 ^ 16) (y.toNat / 2 ^ 16 % 2 ^ 16)).1)
      (op = .faddF32 ∨ op = .faddBf16x2 → big = false) →
      (∀ t0 r, s.resolve false x n = .ok (.tile t0) → s.guardStore s.curCl s.curCtx true t0 n x = .ok () →
        s.storeBad s.curCl t0 n = false → unpinnedTile s t0 →
        let m := numberOf (fun i => memByte (s.cluster s.curCl).store (t0 + i)) n
        next m r → r < 2 ^ (8 * n) →
          ∃ t, exec i s = .next t ∧ onlyRegs s t [d] ∧ takes s t d (BitVec.ofNat 64 m) ∧
            tileStored s t s.curCl t0 n fun i => (BitVec.ofNat 64 r).extractLsb' (8 * i) 8) ∧
      (∀ ga pa r, s.resolve false x n = .ok (.global ga) → s.locate s.curCl s.curCtx ga true = .ok (.home pa, s1) →
        s1.guardStore s1.curCl s1.curCtx false ga n x = .ok () → usable s1 ga pa →
        let m := numberOf (fun i => s1.physByte (pa + i)) n
        next m r → r < 2 ^ (8 * n) →
          ∃ t, exec i s = .next t ∧ onlyRegs s t [d] ∧ takes s t d (BitVec.ofNat 64 m) ∧
            homeStored s1 t pa n fun i => (BitVec.ofNat 64 r).extractLsb' (8 * i) 8) ∧
      (∀ ga ha r, s.resolve false x n = .ok (.global ga) → s.locate s.curCl s.curCtx ga true = .ok (.host ha, s1) → ha % 64 = ga % 64 →
        s1.guardStore s1.curCl s1.curCtx false ga n x = .ok () → s1.pinnedFor s1.party ((Loc.host ha).key / 64) = false →
        let m := numberOf (fun i => memByte s1.host (ha + i)) n
        next m r → r < 2 ^ (8 * n) →
          ∃ t, exec i s = .next t ∧ onlyRegs s t [d] ∧ takes s t d (BitVec.ofNat 64 m) ∧
            (∀ j < n, memByte t.host (ha + j) = (BitVec.ofNat 64 r).extractLsb' (8 * j) 8) ∧
            (∀ j, j < ha ∨ ha + n ≤ j → memByte t.host j = memByte s1.host j) ∧ (∀ j, t.physByte j = s1.physByte j) ∧
            ∀ cl j, memByte (t.cluster cl).store j = memByte (s1.cluster cl).store j)

/-- R307, R331 to R335: ATOM of a remote page at domain or system scope, no fadd, with no remote transaction of its stream outstanding,
issues one request; without acquire and with a register for its value it goes on, else it waits; with the answer there it completes. CAS
names no data-queue port as x[d] (R58, step 6). -/
def remoteAtomsPart : Prop :=
  ∀ (g : Guard) (op : AtomOp) (big : Bool) (ord : Order) (sc : Scope) (tier : BitVec 3) (d a b : XReg) (s s0 : State) (x y c : Word)
    (core : Nat) (k : StreamId) (ga : Nat), core < 512 → s.cur = .stream core k → s.collecting = false →
    s.begins g (atomSources op d a b) [d] (atomValues op x y c) s0 → hasSlot s d → (op = .cas → s.port? d = none) →
      let n := if big then 8 else 4
      let i : Instr := .atom g op big ord sc tier d a b
      let acquires : Bool := ord == .acquire || ord == .acqRel
      s.resolve false x n = .ok (.global ga) →
        (∀ s1 dest o, s.locate s.curCl s.curCtx ga true = .ok (.remote dest o, s1) → mayRelease s (atomCls ord sc tier.toNat) →
          s1.guardStore s1.curCl s1.curCtx false ga n x = .ok () → domainScope (s.effScope sc tier.toNat core) = true →
          op ≠ .faddF32 → op ≠ .faddBf16x2 → dest ≠ s.pkgId.toNat → (s.part s.curPart).ownKey.isSome = true →
          s1.pinnedFor s1.party ((Loc.remote dest o).key / 64) = false →
          s.me.waiting = none → s.me.remote = [] → s.remoteRoom core k dest true = true →
          ∃ t r, exec i s = .next t ∧ memSame s1 t ∧ t.me.remote = [r] ∧ r.kind = .atom op d acquires ∧ r.dest = dest ∧ r.offset = o ∧
            r.size = n ∧ r.data = y.toNat % 2 ^ (8 * n) + 2 ^ 64 * ((atomValues op x y c).getD 2 0).toNat.mod (2 ^ (8 * n)) ∧
            (acquires = false → s.port? d = none → onlyRegs s t []) ∧
            (acquires = true ∨ s.port? d ≠ none → t.hart = s.hart ∧ t.me.st = .wait ∧ t.me.waiting = some (.remoteAnswer r.tag))) ∧
        (∀ r, s.awaited = some r → r.answer = none → exec i s = .next (s.toWait (.remoteAnswer r.tag))) ∧
        ∀ r v, s.awaited = some r → r.answer = some v → (∀ q ∈ [a, b], s.port? d ≠ none → s.port? q ≠ s.port? d) →
          ∃ t, exec i s = .next t ∧ memSame s t ∧ onlyRegs s t [d] ∧ takes s t d (BitVec.ofNat 64 v) ∧ ∀ q ∈ t.me.remote, q.tag ≠ r.tag

end Sys2Proof.Statements

/-- R52, R258, R307, R331 to R335: what ATOM does to a place of this package, and to one of another. -/
def Obligations.Atomics : Prop := localAtomsPart ∧ remoteAtomsPart

namespace Sys2Proof.Statements

/-- Whether a remote transaction brings a value to its stream, which an acquire fence waits for (R259). -/
def bringsValue (r : RemoteReq) : Bool :=
  match r.kind with
  | .load _ _ _ _ => true | .vload _ _ => true | .atom _ _ _ => true
  | .store _ => false | .copy _ => false | .coll _ => false | .line _ _ _ _ => false

end Sys2Proof.Statements

/-- R259, R260: outside collection FENCE and XFENCE change no memory and no register but the pc: a fence that acquires completes when
no earlier remote load or atomic of the stream is outstanding, one that releases when the earlier remote accesses that its scope waits for
are performed (R261, R333), XFENCE when the stream's load buffer is empty and no remote access on a FROM path is outstanding; until then each
waits. A fence that releases adds its scope to those that the stream's later weak and strong stores carry, one that acquires synchronises with
the releases that earlier loads read from and that its scope reaches, a full one lets the load/store path see what was performed there.
After XFENCE what the FROM paths wrote, of the stream and of its core's engines, is seen on the TO paths. While collecting both are EFSYNC,
cause 0x26. On a station core FENCE orders its stores too. (What a path may miss, and what an XFENCE shows, are the model's, DESIGN CHOICE
log 72.) -/
def Obligations.Fences : Prop :=
  (∀ (g : Guard) (kind : FenceKind) (sc : Scope) (tier : BitVec 3) (s : State) (core : Nat) (k : StreamId), core < 512 →
    s.cur = .stream core k → s.guardOn g = true → s.collecting = false →
    (kind = .release ∨ ∀ r ∈ s.me.remote, bringsValue r = false) →
      (kind = .acquire ∨ s.releaseReady sc tier.toNat = true →
        ∃ t, exec (.fence g kind sc tier) s = .next t ∧ memSame s t ∧ onlyRegs s t [] ∧
          (kind = .acquire → t.me.relFences = s.me.relFences) ∧
          (kind ≠ .acquire → (∃ e, ⟨sc, tier.toNat, e, s.me.scopemode.getLsbD 0⟩ ∈ t.me.relFences) ∧
            ∀ f ∈ s.me.relFences, ¬(f.scope = sc ∧ f.tier = tier.toNat) → f ∈ t.me.relFences) ∧
          (kind = .release → t.me.seen = s.me.seen) ∧
          (kind ≠ .release → t.me.seen =
            s.me.seen.filter fun r => r.party != s.party && (s.syncEpochs s.party sc tier.toNat r).isEmpty) ∧
          (kind = .full → t.me.lsView = s.stamp)) ∧
      (kind ≠ .acquire → domainScope (s.effScope sc tier.toNat core) = true →
        (∃ r ∈ s.me.remote, r.kind.isAccess = true ∧ s.me.waiting ≠ some (.remoteAnswer r.tag)) →
        exec (.fence g kind sc tier) s =
          .next (s.toWait (.requests (s.releasePending sc tier.toNat) (s.hostReadsOut sc tier.toNat))))) ∧
  (∀ (g : Guard) (kind : FenceKind) (sc : Scope) (tier : BitVec 3) (s : State) (core : Nat) (k : StreamId), s.cur = .stream core k →
    s.guardOn g = true → s.collecting = false → kind ≠ .release → (∃ r ∈ s.me.remote, bringsValue r = true) →
      exec (.fence g kind sc tier) s = .next (s.toWait (.requests ((s.me.remote.filter bringsValue).map (·.tag)) false))) ∧
  (∀ (g : Guard) (pfrom pto : BitVec 5) (s : State) (core : Nat) (k : StreamId), core < 512 → s.cur = .stream core k →
    s.guardOn g = true → s.collecting = false →
    let out := s.me.remote.filter fun r => r.kind.isAccess && pfrom.getLsbD (remotePath r.kind)
    (s.me.loads = [] → out = [] → ∃ t f, exec (.xfence g pfrom pto) s = .next t ∧ memSame s t ∧ onlyRegs s t [] ∧
      t.past = s.past.map f ∧ ∀ e ∈ s.past, (f e).old = e.old ∧
        (e.core = core → e.path ∈ [0, 1, 3, 4] → (e.path = 0 ∨ e.path = 3 → e.st = k) → pfrom.getLsbD e.path = true →
          (pto.getLsbD 0 = true → t.seesPast false (f e) = true) ∧ (pto.getLsbD 3 = true → t.seesPast true (f e) = true))) ∧
    (s.me.loads = [] → out ≠ [] → exec (.xfence g pfrom pto) s = .next (s.toWait (.requests (out.map (·.tag)) false))) ∧
    (s.me.loads ≠ [] → exec (.xfence g pfrom pto) s = .next (s.toWait (.loads [])))) ∧
  (∀ (g : Guard) (kind : FenceKind) (sc : Scope) (tier : BitVec 3) (pfrom pto : BitVec 5) (s : State), s.guardOn g = true →
    s.collecting = true → exec (.fence g kind sc tier) s = .next (s.take ⟨0x26, 0, 0⟩) ∧
      exec (.xfence g pfrom pto) s = .next (s.take ⟨0x26, 0, 0⟩)) ∧
  (∀ (g : Guard) (kind : FenceKind) (sc : Scope) (tier : BitVec 3) (s : State) (n : Nat), n < 12 → s.cur = .station n →
    s.guardOn g = true → ∃ t, exec (.fence g kind sc tier) s = .next t ∧ memSame s t ∧ (t.station n).hart.x = s.hart.x ∧
      t.pc = s.pcAfter 1 ∧ (kind ≠ .acquire → ∃ e, ⟨sc, tier.toNat, e, false⟩ ∈ (t.station n).relFences))

/-! ## Vector memory and blocks (R188 to R192, R200 to R212) -/

namespace Sys2Proof.Statements

/-- A range of bytes at an operand lies in tile space, in banks in tile mode that the context of the acting stream owns (R135, R256). -/
def inTile (s : State) (y : Word) (n : Nat) : Prop :=
  y.extractLsb' 56 8 = 1#8 ∧ (y.extractLsb' 0 56).toNat + n ≤ 0x800000 ∧
    ∀ i < n, (s.cluster s.curCl).modes.getD (((y.extractLsb' 0 56).toNat + i) / 0x20000) .cache = .tile ∧
      (s.owner s.curCl s.curCtx).bank.getLsbD (((y.extractLsb' 0 56).toNat + i) / 0x20000) = true

/-- The byte at a place past a tile-space operand. -/
def tileAt (s : State) (y : Word) (i : Nat) : Byte := memByte (s.cluster s.curCl).store ((y.extractLsb' 0 56).toNat + i)

/-- The operand that lies an offset past an operand: the tag stays (R119). -/
def past (y : Word) (k : BitVec 56) : Word := y.extractLsb' 56 8 ++ (y.extractLsb' 0 56 + k)

/-- The address of element e of VLD and VST: x[a] + r x[b] + 4c (R188). -/
def pitchAddr (x y : Word) (e : Nat) : Word :=
  past x (BitVec.ofNat 56 (e / 64) * y.extractLsb' 0 56 + BitVec.ofNat 56 (4 * (e % 64)))

/-- The line and offset that serve a global address when the lines of an instruction's addresses lie at pl (R316). -/
def lineAt (pl : Nat → Nat) (va : Nat) : Nat := 64 * pl (va / 64) + va % 64

/-- A global address of an access is served by home memory at its place: translation leads there with no effect, the line may be used,
and a plain access meets no race. -/
def servedAt (s : State) (write : Bool) (c : Cls) (pl : Nat → Nat) (va : Nat) : Prop :=
  s.locate s.curCl s.curCtx va write = .ok (.home (lineAt pl va), s) ∧ usable s va (lineAt pl va) ∧ unraced s (lineAt pl va) c write

/-- The byte at a place past an operand, in tile space or in home memory. -/
def byteAt (s : State) (pl : Nat → Nat) (y : Word) (i : Nat) : Byte :=
  if y.extractLsb' 56 8 = 1#8 then tileAt s y i else s.physByte (lineAt pl ((y.extractLsb' 0 56).toNat + i))

/-- The bytes at an operand can be read: in tile space that the context owns, with no error and no pin there; or in home memory. -/
def readable (s : State) (c : Cls) (pl : Nat → Nat) (y : Word) (n : Nat) : Prop :=
  (inTile s y n ∧ s.storeBad s.curCl (y.extractLsb' 0 56).toNat n = false ∧ ∀ i < n, unpinnedTile s ((y.extractLsb' 0 56).toNat + i)) ∨
    (y.extractLsb' 56 8 = 0#8 ∧ (y.extractLsb' 0 56).toNat + n ≤ 2 ^ 56 ∧
      ∀ i < n, servedAt s false c pl ((y.extractLsb' 0 56).toNat + i))

/-- The bytes at an operand can be written: as for reading, and they lie in no arena and no spill region (R89, R244). -/
def writable (s : State) (c : Cls) (pl : Nat → Nat) (y : Word) (n : Nat) : Prop :=
  (inTile s y n ∧ ∀ i < n, unpinnedTile s ((y.extractLsb' 0 56).toNat + i) ∧
      s.inArena s.curCtx s.curCl true ((y.extractLsb' 0 56).toNat + i) 1 = false) ∨
    (y.extractLsb' 56 8 = 0#8 ∧ (y.extractLsb' 0 56).toNat + n ≤ 2 ^ 56 ∧
      ∀ i < n, servedAt s true c pl ((y.extractLsb' 0 56).toNat + i) ∧
        s.inArena s.curCtx s.curCl false ((y.extractLsb' 0 56).toNat + i) 1 = false ∧
        s.inSpill s.curCtx ((y.extractLsb' 0 56).toNat + i) 1 = false)

/-- The L2 has room for every line that one instruction can touch (R21). -/
def roomForAll (s : State) : Prop := s.l2.length + 1024 ≤ 16384

/-- Two operands name one location: the same tile-space offset, or home bytes at one place. -/
def sameSpot (pl : Nat → Nat) (y z : Word) : Prop :=
  if y.extractLsb' 56 8 = 1#8 then y.extractLsb' 0 56 = z.extractLsb' 0 56
  else lineAt pl (y.extractLsb' 0 56).toNat = lineAt pl (z.extractLsb' 0 56).toNat

/-- Memory is as before but for the bytes at some operands, n of each: tile-space bytes of the acting cluster, or bytes of home memory
(where an aperture address names a byte of a line stored to a second time, nothing is said of it). -/
def storesOnly (s t : State) (pl : Nat → Nat) (ys : List Word) (n : Nat) : Prop :=
  (∀ c a, (c = s.curCl → ∀ y ∈ ys, y.extractLsb' 56 8 = 1#8 →
      a < (y.extractLsb' 0 56).toNat ∨ (y.extractLsb' 0 56).toNat + n ≤ a) →
        memByte (t.cluster c).store a = memByte (s.cluster c).store a) ∧
    (∀ a, (∀ y ∈ ys, y.extractLsb' 56 8 = 0#8 → ∀ i < n, a ≠ lineAt pl ((y.extractLsb' 0 56).toNat + i) ∧
        (a < 2 ^ 51 ∨ s.hbmAddr a / 64 ≠ lineAt pl ((y.extractLsb' 0 56).toNat + i) / 64)) → t.physByte a = s.physByte a) ∧
    ∀ a, memByte t.host a = memByte s.host a

/-- The addresses of the enabled elements. -/
def spots (s : State) (m : MReg) (addr : Nat → Word) : List Word := (enabledOf (s.mask m)).map addr

/-- The enabled elements' addresses are multiples of 4 whose bytes can be read. -/
def elementsReady (s : State) (c : Cls) (pl : Nat → Nat) (m : MReg) (addr : Nat → Word) : Prop :=
  ∀ y ∈ spots s m addr, readable s c pl y 4 ∧ y.toNat % 4 = 0

/-- The name of the location at an operand, as locations are named. -/
def keyAt (s : State) (pl : Nat → Nat) (y : Word) : Nat :=
  if y.extractLsb' 56 8 = 1#8 then tileKey s.curCl (y.extractLsb' 0 56).toNat else lineAt pl (y.extractLsb' 0 56).toNat

/-- A vector load that completes: each enabled element of vd is the four bytes at its address, of which a read of its class may miss the
newest writes that nothing orders before it (R191, R262; DESIGN CHOICE log 72), and nothing else differs. -/
def loadsElements (i : Instr) (s : State) (c : Cls) (pl : Nat → Nat) (m : MReg) (vd : VReg) (addr : Nat → Word) : Prop :=
  ∃ t, exec i s = .next t ∧ memSame s t ∧ onlyRegs s t [] ∧
    (∀ e : Fin 1024, (s.mask m).getLsbD e.val = false → (t.vreg vd)[e] = (s.vreg vd)[e]) ∧
    (∀ e : Fin 1024, (s.mask m).getLsbD e.val = true → ∃ k, mayMiss s c (keyAt s pl (addr e.val)) 4 k ∧
      (t.vreg vd)[e] = BitVec.ofNat 32 (numberOf (missed s c (keyAt s pl (addr e.val)) 4 k (byteAt s pl (addr e.val))) 4)) ∧
    ∀ v, v ≠ vd → t.vreg v = s.vreg v

/-- A vector store that completes: each address an enabled element names holds the element, of two that name one location the
higher, and no other byte of memory differs. -/
def storesElements (i : Instr) (s : State) (pl : Nat → Nat) (m : MReg) (vd : VReg) (addr : Nat → Word) : Prop :=
  ∃ t, exec i s = .next t ∧ onlyRegs s t [] ∧ (∀ v, t.vreg v = s.vreg v) ∧
    (∀ e < 1024, (s.mask m).getLsbD e = true →
      (∀ f < 1024, e < f → (s.mask m).getLsbD f = true → ¬sameSpot pl (addr e) (addr f)) →
        ∀ b < 4, byteAt t pl (addr e) b = (velem (s.vreg vd) e).extractLsb' (8 * b) 8) ∧
    storesOnly s t pl (spots s m addr) 4

/-- R188 to R191: VLD and VGATH write the four bytes at each enabled element's address to it, VST and VSCAT store each enabled element in
ascending order, in tile space or in home memory, with no list and no remote transaction of the stream in the way. What a plain or weak
element may miss of writes that nothing orders before it, on the gather path those of the load/store path too, is log 72's (DESIGN CHOICE). -/
def vectorMemoryPart : Prop :=
  ∀ (g : Guard) (vd : VReg) (a : XReg) (m : MReg) (weak : Bool) (s : State) (core : Nat) (pl : Nat → Nat), s.Wf → core < 512 →
    s.cur = .stream core .X → s.collecting = false → s.me.remote = [] → s.me.vecPos = 0 → s.me.vstPos = 0 → roomForAll s →
    let c : Cls := if weak then .weak else .plain
    (∀ (b : XReg) (s0 : State) (x y : Word), s.begins g [a, b] [] [x, y] s0 → x.toNat % 64 = 0 → y.toNat % 64 = 0 →
      x.extractLsb' 56 8 = 0#8 ∨ x.extractLsb' 56 8 = 1#8 →
        (elementsReady s c pl m (pitchAddr x y) → loadsElements (.vld g vd a b m weak) s c pl m vd (pitchAddr x y)) ∧
        ((∀ z ∈ spots s m (pitchAddr x y), writable s c pl z 4) →
          storesElements (.vst g vd a b m weak) s pl m vd (pitchAddr x y))) ∧
    (∀ (vb : VReg) (s0 : State) (x : Word), s.begins g [a] [] [x] s0 → x.extractLsb' 56 8 = 0#8 ∨ x.extractLsb' 56 8 = 1#8 →
      let addr (e : Nat) : Word := past x ((velem (s.vreg vb) e).setWidth 56)
      (elementsReady s (.gather weak) pl m addr → loadsElements (.vgath g vd a vb m weak) s (.gather weak) pl m vd addr) ∧
      ((∀ z ∈ spots s m addr, writable s (.gather weak) pl z 4 ∧ z.toNat % 4 = 0) →
        storesElements (.vscat g vd a vb m weak) s pl m vd addr))

/-- The tile-space check of an element fails: its offset lies past tile space, or one of its bytes in a bank that is not in tile mode. -/
def noTile (s : State) (z : Word) : Prop :=
  0x800000 ≤ (z.extractLsb' 0 56).toNat ∨ ∃ i < 4, (z.extractLsb' 0 56).toNat + i < 0x800000 ∧
    (s.cluster s.curCl).modes.getD (((z.extractLsb' 0 56).toNat + i) / 0x20000) .cache ≠ .tile

/-- R101, R189: in VLD and VST the tag of x[a] is checked first, then every enabled element's tile space, then the alignment of x[a] and of
x[b]; a failing instruction takes the trap and changes nothing. An element in a bank that the context does not own is ACCESS through the
shadow handler (the order of R99's classes is the model's reading, log 92): the stream is held and the access restarts whole. -/
def vectorMemoryChecksPart : Prop :=
  ∀ (g : Guard) (vd : VReg) (a b : XReg) (m : MReg) (weak : Bool) (s s0 : State) (x y : Word),
    s.begins g [a, b] [] [x, y] s0 →
      let both (t : State) : Prop := exec (.vld g vd a b m weak) s = .next t ∧ exec (.vst g vd a b m weak) s = .next t
      let traps (c : BitVec 8) (v : Word) : Prop := both (s.take ⟨c, 0, v⟩)
      let tag := (x.extractLsb' 56 8).toNat
      let on (e : Nat) : Prop := e < 1024 ∧ (s.mask m).getLsbD e = true
      let z := pitchAddr x y
      let passed : Prop := tag = 0 ∨ (tag = 1 ∧ ∀ e, on e → ¬noTile s (z e))
      (2 ≤ tag → traps 0x11 x) ∧
      (∀ e, tag = 1 → on e → noTile s (z e) → (∀ f < e, on f → ¬noTile s (z f)) → traps 0x11 (z e)) ∧
      (passed → x.toNat % 64 ≠ 0 → traps 0x0A x) ∧
      (passed → x.toNat % 64 = 0 → y.toNat % 64 ≠ 0 → traps 0x0A (past x (y.extractLsb' 0 56))) ∧
      ∀ core k e, s.cur = .stream core k → tag = 1 → passed → x.toNat % 64 = 0 → y.toNat % 64 = 0 → on e → (∀ f < e, ¬on f) →
        (∀ f, on f → (s.owner s.curCl s.curCtx).bank.getLsbD (((z f).extractLsb' 0 56).toNat / 0x20000) = false) →
          both (s.hold core k ⟨0x11, 0, z e⟩)

end Sys2Proof.Statements

/-- R101, R188 to R191, R262: the vector loads and stores, and the checks of their elements. -/
def Obligations.VectorMemory : Prop := vectorMemoryPart ∧ vectorMemoryChecksPart

namespace Sys2Proof.Statements

/-- The bytes of a block of a class: 34, 26 or 18 (R194). -/
def classBytes : BlkClass → Nat
  | .c8 => 34 | .c6 => 26 | .c4 => 18
/-- The operand of block j (R207). -/
def blockAt (k : BlkClass) (y : Word) (j : Nat) : Word := past y (BitVec.ofNat 56 (j * classBytes k))

end Sys2Proof.Statements

/-- R196, R197, R200, R201, R207 to R212: QST writes each enabled block of vd, chosen and laid out, at its place; QLD checks the header of
each enabled block (R196, R197) and writes its 32 decoded elements; LVLD reads 2^K entries, a negative zero becoming zero, installs the table
and sets its VALID bit (R200, R201); in tile space or in home memory, where QST's lines lie apart. Where the bytes lie in a bank that the
context does not own, the stream is held with ACCESS for the shadow handler (R211; that R99's classes do not forbid it is log 92). QCFG writes
the word of the plat at the translated address, 0 for a page of host memory or of another package. -/
def Obligations.Blocks : Prop :=
  ∀ (g : Guard) (k : BlkClass) (vd : VReg) (a : XReg) (m : MReg) (s s0 : State) (y : Word) (core : Nat) (pl : Nat → Nat), s.Wf →
    core < 512 → s.cur = .stream core .X → s.collecting = false → s.me.remote = [] → s.begins g [a] [] [y] s0 →
      let js := (List.range 32).filter fun j => (s.mask m).getLsbD (32 * j)
      (roomForAll s → y.getLsbD 0 = false → y.extractLsb' 56 8 = 0#8 ∨ y.extractLsb' 56 8 = 1#8 →
        ((∀ u v, pl u = pl v → u = v) → (∀ j ∈ js, writable s .plain pl (blockAt k y j) (classBytes k)) →
          ∃ t, exec (.qst g k vd a m) s = .next t ∧ onlyRegs s t [] ∧ (∀ v, t.vreg v = s.vreg v) ∧
            (∀ j ∈ js, ∀ i < classBytes k, byteAt t pl (blockAt k y j) i =
              (blockBytes k (pickBlock s.blk k ((List.range 32).map fun e => (velem (s.vreg vd) (32 * j + e)).toNat))).getD i 0) ∧
            storesOnly s t pl (js.map (blockAt k y)) (classBytes k)) ∧
        ((∀ j ∈ js, readable s .plain pl (blockAt k y j) (classBytes k) ∧
            hdrSelf s.blk k (hdrCheck (BitVec.ofNat 16 (numberOf (byteAt s pl (blockAt k y j)) 2))) = none) →
          ∃ t, exec (.qld g k vd a m) s = .next t ∧ memSame s t ∧ onlyRegs s t [] ∧ (∀ v, v ≠ vd → t.vreg v = s.vreg v) ∧
            ∀ (j : Nat) (i : Fin 1024), i.val / 32 = j → (t.vreg vd)[i] =
              if j ∈ js then blockElem s.blk k ((List.range (classBytes k)).map (byteAt s pl (blockAt k y j))) (i.val % 32)
              else (s.vreg vd)[i]) ∧
        (∀ tb, s.curCtx < 1024 → readable s .plain pl y (2 * 2 ^ blkK k) →
          let es := (List.range (2 ^ blkK k)).map fun i => byteAt s pl y (2 * i + 1) ++ byteAt s pl y (2 * i)
          (∀ e ∈ es, e.extractLsb' 0 15 = 0 ∨ 63 ≤ (e.extractLsb' 7 8).toNat ∧ (e.extractLsb' 7 8).toNat < 191) →
          (∃ e ∈ es, e.extractLsb' 0 15 ≠ 0) →
            let i := 2 * (match k with | .c8 => 0 | .c6 => 1 | .c4 => 2) + (if tb then 1 else 0)
            ∃ t, exec (.lvld g k tb a) s = .next t ∧ memSame s t ∧ onlyRegs s t [] ∧
              (t.ctx s.curCtx).blk.tables.getD i [] = es.map (fun e => if e = 0x8000#16 then 0 else e) ∧
              (t.ctx s.curCtx).blk.lvlbase = setBit (s.ctx s.curCtx).blk.lvlbase i true ∧
              (t.ctx s.curCtx).blk.qsel = (s.ctx s.curCtx).blk.qsel)) ∧
      (∀ tb n, n = 2 * 2 ^ blkK k → y.getLsbD 0 = false → y.extractLsb' 56 8 = 1#8 → (y.extractLsb' 0 56).toNat + n ≤ 0x800000 →
        (∀ i < n, (s.cluster s.curCl).modes.getD (((y.extractLsb' 0 56).toNat + i) / 0x20000) .cache = .tile ∧
          (s.owner s.curCl s.curCtx).bank.getLsbD (((y.extractLsb' 0 56).toNat + i) / 0x20000) = false) →
          exec (.lvld g k tb a) s = .next (s.hold core .X ⟨0x11, 0, y⟩)) ∧
      (∀ (d : XReg) (l : Loc) (s1 : State), s.clear g [a, d] → s.port? d = none → y.extractLsb' 56 8 = 0#8 →
        s.locate s.curCl s.curCtx (y.extractLsb' 0 56).toNat false = .ok (l, s1) →
          ∃ t, exec (.qcfg g d a) s = .next t ∧ memSame s1 t ∧ onlyRegs s t [d] ∧
            t.hart.get d = if d = 0 then 0 else
              match l with | .home pa => s.platWord s.curPart s.curCtx pa | .host _ => 0 | .remote _ _ => 0)

/-! ## Flags, banks, tiles and copies (R126 to R146) -/

namespace Sys2Proof.Statements

/-- The state in which the acting stream has pushed a command with the core's next number to an engine's queue; nothing else differs
(R127). -/
def pushedTo (s : State) (tg : FlagTarget) (cmd : EngineCmd) : State :=
  s.updCore s.curCore fun c =>
    let e : QEntry := ⟨c.push, s.curSt, cmd, false, [], ⟨none, 0⟩⟩
    match tg with
    | .self => { c with push := c.push + 1 }
    | .copy => { c with push := c.push + 1, copyQ := c.copyQ ++ [e] }
    | .matrix => { c with push := c.push + 1, matQ := c.matQ ++ [e] }
    | .collective => { c with push := c.push + 1, colQ := c.colQ ++ [e] }

/-- The entries of an engine's queue are fewer than its depth: 32, 16 and 16 (R126); and the matrix queue takes none while a fault of the
array has not reached M's handler (R237). -/
def roomIn (c : Core) (tg : FlagTarget) : Prop :=
  match tg with
  | .self => True
  | .copy => c.copyQ.length < 32
  | .matrix => c.matQ.length < 16 ∧ c.array.pendFault = none
  | .collective => c.colQ.length < 16

/-- No replay of the backsight is under way, in which a command that has issued is pushed again as the one it is (R350). -/
def noReplay (s : State) : Prop := (s.core s.curCore).back.again = []

/-- Flag n of a core with new numbers. -/
def withFlag (c : Core) (n : Nat) (f : EFlag) : Core := { c with flags := c.flags.setIfInBounds n f }

end Sys2Proof.Statements

/-- R126, R127, R130, R131: FSET takes the core's next number as ARM and fires the flag with it, at once for the stream itself and else by a
marker in the engine's queue; FCLR clears it likewise; FWAIT on the stream itself completes once FIRE exceeds CLR and waits until
then, on an engine it pushes a marker for ARM, and is FWDW, cause 0x24, with TVAL n when no setter later than the last clear was pushed. A
full queue makes each wait (FWAIT's wait before its test is the model's choice, log 81). -/
def Obligations.Flags : Prop :=
  ∀ (g : Guard) (n : BitVec 6) (s : State) (core : Nat) (k : StreamId), core < 512 → s.cur = .stream core k → s.guardOn g = true →
    let f := (s.core core).flags.getD n.toNat default
    let q := (s.core core).push
    exec (.fset g n .self) s =
      .next ((s.updCore core fun c => withFlag { c with push := q + 1 } n.toNat ⟨q, max f.fire q, f.clr, k⟩).advance 1) ∧
    exec (.fclr g n .self) s =
      .next ((s.updCore core fun c => withFlag { c with push := q + 1 } n.toNat ⟨f.arm, f.fire, max f.clr q, k⟩).advance 1) ∧
    (f.clr < f.fire → exec (.fwait g n .self) s = .next ((pushedTo s .self (.fclr 0)).advance 1)) ∧
    (f.fire ≤ f.clr → exec (.fwait g n .self) s = .next (s.toWait (.flag n.toNat))) ∧
    ∀ tg, tg ≠ .self →
      (roomIn (s.core core) tg → noReplay s →
        exec (.fset g n tg) s = .next (((pushedTo s tg (.fset n.toNat)).updCore core fun c =>
          withFlag c n.toNat ⟨q, f.fire, f.clr, k⟩).advance 1) ∧
        exec (.fclr g n tg) s = .next ((pushedTo s tg (.fclr n.toNat)).advance 1) ∧
        (f.clr < f.arm → exec (.fwait g n tg) s = .next ((pushedTo s tg (.fwait n.toNat f.arm)).advance 1))) ∧
      (roomIn (s.core core) tg → f.arm ≤ f.clr → exec (.fwait g n tg) s = .next (s.take ⟨0x24, 0, n.setWidth 64⟩)) ∧
      (¬roomIn (s.core core) tg → exec (.fset g n tg) s = .next (s.toWait (.engineQueue tg)) ∧
        exec (.fclr g n tg) s = .next (s.toWait (.engineQueue tg)) ∧ exec (.fwait g n tg) s = .next (s.toWait (.engineQueue tg)))

namespace Sys2Proof.Statements

/-- The bytes of one element row of a tile (R137): by ELEM code, 32-element blocks for codes 7 to 9. -/
def rowBytes (elem cols : Nat) : Nat :=
  match elem with
  | 0 => 4 * cols | 1 => 2 * cols | 2 => 2 * cols | 3 => 8 * cols | 4 => cols | 5 => 2 * cols | 6 => 4 * cols
  | 7 => 34 * (cols / 32) | 8 => 26 * (cols / 32) | _ => 18 * (cols / 32)

/-- The extent of a tile descriptor: its first byte in tile space and its bytes (R137). -/
def extentOf (d : Word) : Nat × Nat :=
  ((d.extractLsb' 52 6).toNat * 131072,
    ((d.extractLsb' 24 12).toNat + 1) *
      ((rowBytes (d.extractLsb' 36 4).toNat ((d.extractLsb' 12 12).toNat + 1) + 63) / 64 * 64))

/-- Two extents overlap: neither's first byte lies past the other's last. -/
def overlap (a b : Nat × Nat) : Prop := a.1 ≤ b.1 + b.2 - 1 ∧ b.1 ≤ a.1 + a.2 - 1

/-- A descriptor that R139 accepts for a context: reserved fields zero, ELEM up to 9, whole blocks, its banks in the bank range, in tile
mode and owned, holding its bytes, and no defined tile of the cluster overlapped. -/
def goodTile (s : State) (d : Word) : Prop :=
  let b0 := (d.extractLsb' 52 6).toNat
  let nb := (d.extractLsb' 46 6).toNat + 1
  d.extractLsb' 58 6 = 0 ∧ d.extractLsb' 40 6 = 0 ∧ d.extractLsb' 0 12 = 0 ∧ (d.extractLsb' 36 4).toNat ≤ 9 ∧
    (7 ≤ (d.extractLsb' 36 4).toNat → ((d.extractLsb' 12 12).toNat + 1) % 32 = 0) ∧ b0 + nb ≤ 64 ∧
    (∀ i < nb, (s.cluster s.curCl).modes.getD (b0 + i) .cache = .tile ∧
      (s.owner s.curCl s.curCtx).bank.getLsbD (b0 + i) = true) ∧
    (extentOf d).2 ≤ nb * 131072 ∧
    ∀ n x, (s.cluster s.curCl).tiles.getD n none = some x → ¬overlap (extentOf x.desc) (extentOf d)

/-- An entry of the cluster's tile table replaced. -/
def withTile (s : State) (n : Nat) (x : Option Tile) : State :=
  s.updCluster s.curCl fun c => { c with tiles := c.tiles.setIfInBounds n x }

/-- The transitions of R138 that TSET makes. -/
def tileMoves : List (TileState × TsetState × TileState) :=
  [(.empty, .filling, .filling), (.empty, .ready, .ready), (.filling, .ready, .ready), (.ready, .draining, .draining),
   (.filling, .empty, .empty), (.ready, .empty, .empty), (.draining, .empty, .empty)]

/-- R138 to R140: TDEF of an undefined entry with a good descriptor defines it, EMPTY and owned by the context, and writes its tile-space
operand to x[d]; TSET writes the old state's code to x[d] and makes the transitions of R138 when no command or held range is in
the way, and none to the state that the entry has; TREL of an EMPTY entry undefines it; an undefined entry is TILE 0x00, a transition that
is not listed TILE 0x08, another context's entry ACCESS with TVAL n. -/
def tileTablePart : Prop :=
  ∀ (g : Guard) (t : BitVec 8) (s : State) (core : Nat) (k : StreamId), core < 512 → s.cur = .stream core k →
    let at_ := (s.cluster s.curCl).tiles.getD t.toNat none
    (∀ (d a : XReg) (s1 s2 : State) (x : Word), s.begins g [a] [d] [x] s1 → at_ = none → goodTile s x →
      (withTile s1 t.toNat (some ⟨x, s.curCtx, (s.core core).kernel, .empty⟩)).writeReg d
        (1#8 ++ BitVec.ofNat 56 (extentOf x).1) = .ok s2 → exec (.tdef g d t a) s = .next (s2.advance 1)) ∧
    (∀ (d a : XReg) (s1 : State) (v : Word) (x : Tile), s.begins g [a] [d] [v] s1 → at_ = some x →
      (x.owner ≠ s.curCtx → exec (.tdef g d t a) s = .next (s.take ⟨0x11, 0, t.setWidth 64⟩)) ∧
      (x.owner = s.curCtx → exec (.tdef g d t a) s = .next (s.take ⟨0x29, 1, 0⟩))) ∧
    (∀ (d : XReg) (p : TileState × TsetState × TileState) (x : Tile) (s2 : State), p ∈ tileMoves → s.clear g [d] → at_ = some x →
      x.owner = s.curCtx → x.state = p.1 → s.me.waiting = none →
      (∀ q ∈ (s.core core).copyQ, q.writesTile (extentOf x.desc).1 ((extentOf x.desc).1 + (extentOf x.desc).2 - 1) = false) →
      (∀ r ∈ (s.cluster s.curCl).ranges, r.slice = none →
        r.hi < (extentOf x.desc).1 ∨ (extentOf x.desc).1 + (extentOf x.desc).2 - 1 < r.lo) →
      (withTile s t.toNat (some { x with state := p.2.2 })).writeReg d
        (match p.1 with | .empty => 0 | .filling => 1 | .ready => 2 | .draining => 3) = .ok s2 →
        exec (.tset g d t p.2.1) s = .next (s2.advance 1)) ∧
    (∀ (d : XReg) (ts : TsetState), s.clear g [d] → at_ = none → exec (.tset g d t ts) s = .next (s.take ⟨0x29, 0, 0⟩)) ∧
    (∀ (d : XReg) (ts : TsetState) (x : Tile) (s2 : State), s.clear g [d] → at_ = some x → x.owner = s.curCtx →
      let named : TileState := match ts with | .empty => .empty | .filling => .filling | .ready => .ready | .draining => .draining
      (x.state = named → s.writeReg d (match named with | .empty => 0 | .filling => 1 | .ready => 2 | .draining => 3) = .ok s2 →
        exec (.tset g d t ts) s = .next (s2.advance 1)) ∧
      (x.state ≠ named → (x.state, ts, named) ∉ tileMoves → exec (.tset g d t ts) s = .next (s.take ⟨0x29, 8, 0⟩))) ∧
    (∀ (d : XReg) (ts : TsetState) (x : Tile), s.clear g [d] → at_ = some x → x.owner ≠ s.curCtx →
      exec (.tset g d t ts) s = .next (s.take ⟨0x11, 0, t.setWidth 64⟩) ∧
        exec (.trel g t) s = .next (s.take ⟨0x11, 0, t.setWidth 64⟩)) ∧
    (∀ x : Tile, s.guardOn g = true → at_ = some x → x.owner = s.curCtx →
      (x.state = .empty → exec (.trel g t) s = .next ((withTile s t.toNat none).advance 1)) ∧
      (x.state ≠ .empty → exec (.trel g t) s = .next (s.take ⟨0x29, 8, 0⟩))) ∧
    (s.guardOn g = true → at_ = none → exec (.trel g t) s = .next (s.take ⟨0x29, 0, 0⟩))

/-- R136: BANKCFG writes the bank's old mode to x[d] and gives it the new one: its bytes are zero on entry to tile mode, its ring is empty
and unbound on entry to fifo mode, every other bank keeps its mode, bytes and ring. (That a tile covers the banks in which its bytes lie is the
model's, DESIGN CHOICE log 82.) A bank that the context does not own is ACCESS
with TVAL b, one that a tile covers TILE 0x0C, one whose ring is bound TILE 0x06; to the mode it has, nothing but x[d] changes. -/
def bankModesPart : Prop :=
  ∀ (g : Guard) (d b : XReg) (mode : BankMode) (s : State) (core : Nat) (k : StreamId), core < 512 → s.cur = .stream core k →
    s.clear g [d] →
      let c := s.cluster s.curCl
      let old := c.modes.getD b.toNat .cache
      let mine := (s.owner s.curCl s.curCtx).bank.getLsbD b.toNat
      let code : Word := match old with | .cache => 0 | .tile => 1 | .fifo => 2
      let lo := b.toNat * 131072
      let tiled : Prop := ∃ n x, c.tiles.getD n none = some x ∧ overlap (extentOf x.desc) (lo, 131072)
      (mine = false → exec (.bankcfg g d b mode) s = .next (s.take ⟨0x11, 0, b.setWidth 64⟩)) ∧
      (∀ s2, mine = true → mode = old → s.writeReg d code = .ok s2 → exec (.bankcfg g d b mode) s = .next (s2.advance 1)) ∧
      (mine = true → mode ≠ old → old = .tile → tiled → exec (.bankcfg g d b mode) s = .next (s.take ⟨0x29, 0x0C, 0⟩)) ∧
      (mine = true → mode ≠ old → old = .fifo → (c.rings.getD b.toNat ⟨none, []⟩).bound ≠ none →
        exec (.bankcfg g d b mode) s = .next (s.take ⟨0x29, 0x06, 0⟩)) ∧
      (mine = true → mode ≠ old → (old = .tile → ¬tiled) →
        (old = .fifo → (c.rings.getD b.toNat ⟨none, []⟩).bound = none) →
        (∀ r ∈ c.ranges, r.slice = none → r.hi < lo ∨ lo + 131071 < r.lo) → hasSlot s d →
          ∃ t, exec (.bankcfg g d b mode) s = .next t ∧ onlyRegs s t [d] ∧ takes s t d code ∧
            (∀ n < 64, (t.cluster s.curCl).modes.getD n .cache = if n = b.toNat then mode else c.modes.getD n .cache) ∧
            (∀ a, memByte (t.cluster s.curCl).store a =
              if mode = .tile ∧ a / 131072 = b.toNat then 0 else memByte c.store a) ∧
            (∀ n < 64, (t.cluster s.curCl).rings.getD n ⟨none, []⟩ =
              if mode = .fifo ∧ n = b.toNat then ⟨none, []⟩ else c.rings.getD n ⟨none, []⟩) ∧
            (∀ x, x ≠ s.curCl → t.cluster x = s.cluster x) ∧ t.hbm = s.hbm ∧ t.l2 = s.l2)

end Sys2Proof.Statements

/-- R135 to R140: the tile table and the modes of the banks; which banks a tile covers is log 82's (DESIGN CHOICE). -/
def Obligations.TilesAndBanks : Prop := tileTablePart ∧ bankModesPart

/-- R126, R143 to R146: CPY, CPYS, CPYG and CPYX read x[a] and x[b], check them, and push one command with the core's next number to the
copy queue; nothing moves then. A full queue makes them wait. A reserved space tag is ACCESS before a misaligned operand is ALIGN, x[a] before
x[b]. -/
def Obligations.CopyCommands : Prop :=
  ∀ (a b : XReg) (sz : BitVec 4) (step : BitVec 12) (cnt : BitVec 8) (s : State) (core : Nat) (k : StreamId) (ya yb : Word),
    core < 512 → s.cur = .stream core k →
      let words : List (BitVec 2 × Instr) :=
        [(0, .cpy a b sz step cnt), (1, .cpys a b sz step cnt), (2, .cpyg a b sz step cnt), (3, .cpyx a b sz step cnt)]
      (∀ p ∈ words, ∀ s2 : State,
        let desc := if p.1 = 3 then ((s.cluster s.curCl).tiles.getD (yb.extractLsb' 0 8).toNat none).map (·.desc) else none
        let s1 := pushedTo s .copy (.copy ⟨p.1, ya, yb, sz.toNat, step.toInt, cnt.toNat, desc, 0⟩)
        s.memRuns ⟨0, false⟩ [a, b] [] [ya, yb] s1 s2 → s.copyCheck p.1 ya yb (64 * 2 ^ sz.toNat) step.toInt cnt.toNat = .ok () →
        (roomIn (s.core core) .copy → noReplay s → exec p.2 s = .next (s2.advance 1)) ∧
        (¬roomIn (s.core core) .copy → exec p.2 s = .next (s.toWait (.engineQueue .copy)))) ∧
      (∀ s0 : State, s.begins ⟨0, false⟩ [a, b] [] [ya, yb] s0 → s.collecting = false →
        (∀ p ∈ words, 4 ≤ (ya.extractLsb' 56 8).toNat → exec p.2 s = .next (s.take ⟨0x11, 0, ya⟩)) ∧
        (∀ p ∈ words, p.1 = 0 ∨ p.1 = 1 → (ya.extractLsb' 56 8).toNat = 0 → 4 ≤ (yb.extractLsb' 56 8).toNat →
          exec p.2 s = .next (s.take ⟨0x11, 0, yb⟩)) ∧
        (∀ p ∈ words, p.1 = 0 ∨ p.1 = 1 → (ya.extractLsb' 56 8).toNat = 0 → (yb.extractLsb' 56 8).toNat = 0 →
          ya.toNat % 64 ≠ 0 → exec p.2 s = .next (s.take ⟨0x0A, 0, ya⟩)) ∧
        (∀ p ∈ words, p.1 = 0 ∨ p.1 = 1 → (ya.extractLsb' 56 8).toNat = 0 → (yb.extractLsb' 56 8).toNat = 0 →
          ya.toNat % 64 = 0 → yb.toNat % 64 ≠ 0 → exec p.2 s = .next (s.take ⟨0x0A, 0, yb⟩))) ∧
      (∀ s0 : State, s.begins ⟨0, false⟩ [a, b] [] [ya, yb] s0 → s.collecting = true → (ya.extractLsb' 56 8).toNat = 0 →
        ∀ p ∈ words, exec p.2 s = .next (s.take ⟨0x26, 0, 0⟩))

/-! ## The product table and the accumulators (R215 to R224, R233 to R235) -/

namespace Sys2Proof.Statements

/-- The core of the acting stream with a part replaced. -/
def ofCore (s : State) (f : Machine.Core → Machine.Core) : State := s.updCore s.curCore f

end Sys2Proof.Statements

/-- R218 to R221: LNT sets a loop level of stream M's product table, MOPA and MOPB an operand with its descriptor, MOPC the target and
IDXV the index list, from the registers named, and nothing else in the machine changes but the pc. -/
def Obligations.ProductTable : Prop :=
  (∀ (g : Guard) (a b : XReg) (lv : BitVec 3) (s s1 : State) (x y : Word), s.begins g [a, b] [] [x, y] s1 →
    exec (.lnt g a b lv) s = .next ((ofCore s1 fun c =>
      { c with table := { c.table with levels := c.table.levels.setIfInBounds lv.toNat (some ⟨x, y⟩) } }).advance 1) ∧
    exec (.mopa g a b) s = .next ((ofCore s1 fun c => { c with table := { c.table with opA := some ⟨x, y⟩ } }).advance 1) ∧
    exec (.mopb g a b) s = .next ((ofCore s1 fun c => { c with table := { c.table with opB := some ⟨x, y⟩ } }).advance 1)) ∧
  (∀ (g : Guard) (a : XReg) (s s1 : State) (x : Word), s.begins g [a] [] [x] s1 →
    exec (.mopc g a) s = .next ((ofCore s1 fun c => { c with table := { c.table with tgt := some x } }).advance 1) ∧
    exec (.idxv g a) s = .next ((ofCore s1 fun c => { c with table := { c.table with idx := x } }).advance 1))

namespace Sys2Proof.Statements

/-- The MGOs of a core that are pushed and not complete (R223). -/
def openMgos (c : Machine.Core) : Nat := (c.matQ.filter fun q => match q.cmd with | .mgo _ _ => true | _ => false).length

end Sys2Proof.Statements

/-- R101, R222, R223, R237: MGO whose product passes the checks pushes a copy of the table with the core's next number; MWAIT completes with at
most n MGOs incomplete; MSTAT writes LAST, FAULT, FSUB, DISC and the MGO count at their places, DISC held at 255 and the count at 31,
and MSTAT.CLR also clears FAULT, FSUB and DISC. A fault that the array has kept for stream M is taken by its next MGO or MWAIT. An
unset A, B, target or used level, each alone, is LNT, SUB 0x01, once the checks that R101 ranks before it pass. MGO waits for a full queue, MWAIT for
the MGOs. -/
def Obligations.MatrixCommands : Prop :=
  ∀ (g : Guard) (s : State) (core : Nat), core < 512 → s.cur = .stream core .M → s.guardOn g = true →
    let c := s.core core
    (∀ nlev : BitVec 3, c.array.pendFault = none → s.mgoCheck c.table nlev.toNat = .ok () → 
      (roomIn c .matrix → noReplay s → exec (.mgo g nlev) s = .next ((pushedTo s .matrix (.mgo c.table nlev.toNat)).advance 1)) ∧
      (¬roomIn c .matrix → exec (.mgo g nlev) s = .next (s.toWait (.engineQueue .matrix)))) ∧
    (∀ nlev : BitVec 3, c.array.pendFault = none → c.table.opA = none → c.table.opB = none → c.table.idx = 0 →
      exec (.mgo g nlev) s = .next (s.take ⟨0x2A, 1, 0⟩)) ∧
    (∀ nlev : BitVec 3, c.array.pendFault = none → c.table.alignCase = none →
      (∀ o ∈ c.table.spans nlev.toNat, s.spanBad s.curCl s.curCtx o = false) → s.mgoBanks c.table nlev.toNat = none →
      c.table.opA = none ∨ c.table.opB = none ∨ c.table.tgt = none ∨
        (∃ l, l < nlev.toNat ∧ l < 6 ∧ c.table.levels.getD l none = none) →
      exec (.mgo g nlev) s = .next (s.take ⟨0x2A, 1, 0⟩)) ∧
    (∀ n : BitVec 4, c.array.pendFault = none → openMgos c ≤ n.toNat → exec (.mwait g n) s = .next (s.advance 1)) ∧
    (∀ n : BitVec 4, c.array.pendFault = none → n.toNat < openMgos c → exec (.mwait g n) s = .next (s.toWait (.matrix n.toNat))) ∧
    (∀ (t : Trap) (nlev : BitVec 3) (n : BitVec 4), c.array.pendFault = some t →
      exec (.mgo g nlev) s = .next (s.take t) ∧ exec (.mwait g n) s = .next (s.take t)) ∧
    (∀ (d : XReg) (s2 : State), s.clear g [d] →
      let w : Word := c.array.last ++ BitVec.ofBool c.array.fault ++ 0#7 ++ c.array.fsub ++
        BitVec.ofNat 8 (min 255 c.array.disc) ++ BitVec.ofNat 8 (min 31 (openMgos c))
      (s.writeReg d w = .ok s2 → exec (.mstat g d) s = .next (s2.advance 1)) ∧
      ((s.updCore core fun c => { c with array := { c.array with fault := false, fsub := 0, disc := 0 } }).writeReg d w = .ok s2 →
        exec (.mstatClr g d) s = .next (s2.advance 1)))

namespace Sys2Proof.Statements

/-- An ACM bank that the context owns, and whether it is allocated (R215). -/
def bankIs (s : State) (b : Nat) (allocated : Bool) : Prop :=
  (s.owner s.curCl s.curCtx).acm.getLsbD b = true ∧ ((s.cluster s.curCl).acmAlloc.getD b none).isSome = allocated

/-- No incomplete MGO of the cluster targets rows lo to hi, so that an accumulator instruction need not wait (R234). -/
def rowsFree (s : State) (lo hi : Nat) : Prop :=
  s.me.waiting = none ∧ ∀ n, clusterOf n = s.curCl → ∀ q ∈ (s.core n).matQ, ∀ t nlev, q.cmd = .mgo t nlev →
    (t.rowSpan nlev).2 < (lo : Int) ∨ (hi : Int) < (t.rowSpan nlev).1

/-- Only the elements of the acting cluster's accumulator memory differ, as a function gives them; row 0 to 2 047, column 0 to 159. -/
def elements (s t : State) (f : Nat → Nat → AccElem) : Prop :=
  (∀ row < 2048, ∀ col < 160, (t.cluster s.curCl).elem row col = f row col) ∧ (∀ c, c ≠ s.curCl → t.cluster c = s.cluster c) ∧
    (t.cluster s.curCl).store = (s.cluster s.curCl).store ∧ (t.cluster s.curCl).tiles = (s.cluster s.curCl).tiles ∧
    t.hbm = s.hbm ∧ t.l2 = s.l2

/-- R217: ABAL takes the lowest run of free banks, zeroes their elements and writes the first one's number to x[d], or all ones when there
is none; ABFR frees the banks it names, their elements kept, and is ACMB, SUB 0x02, past bank 63 (with x[a] as TVAL, which the rule does not
give: DESIGN CHOICE log 101) and SUB 0x00 for a bank that the context does not own. -/
def accumulatorBanksPart : Prop :=
  ∀ (g : Guard) (n : BitVec 6) (s : State) (core : Nat) (k : StreamId), s.Wf → core < 512 → s.cur = .stream core k →
    (∀ (d : XReg) (b : Nat), s.clear g [d] → hasSlot s d → b + n.toNat + 1 ≤ 64 →
      (∀ i ≤ n.toNat, bankIs s (b + i) false) → (∀ c < b, ∃ i ≤ n.toNat, ¬bankIs s (c + i) false) →
        ∃ t, exec (.abal g d n) s = .next t ∧ onlyRegs s t [d] ∧ takes s t d (BitVec.ofNat 64 b) ∧
          (elements s t fun row col => if b ≤ row / 32 ∧ row / 32 ≤ b + n.toNat then 0 else (s.cluster s.curCl).elem row col) ∧
          ∀ i < 64, (t.cluster s.curCl).acmAlloc.getD i none =
            if b ≤ i ∧ i ≤ b + n.toNat then some ((s.core core).kernel.getD 0) else (s.cluster s.curCl).acmAlloc.getD i none) ∧
    (∀ (d : XReg) (s2 : State), s.clear g [d] → (∀ b, b + n.toNat + 1 ≤ 64 → ∃ i ≤ n.toNat, ¬bankIs s (b + i) false) →
      s.writeReg d (BitVec.allOnes 64) = .ok s2 → exec (.abal g d n) s = .next (s2.advance 1)) ∧
    (∀ (a : XReg) (s1 : State) (x : Word), s.begins g [a] [] [x] s1 →
      (63 < x.toNat + n.toNat → exec (.abfr g a n) s = .next (s.take ⟨0x28, 2, x⟩)) ∧
      (x.toNat + n.toNat ≤ 63 → (s.owner s.curCl s.curCtx).acm.getLsbD x.toNat = false →
        exec (.abfr g a n) s = .next (s.take ⟨0x28, 0, x⟩)) ∧
      (x.toNat + n.toNat ≤ 63 → (∀ i ≤ n.toNat, (s.owner s.curCl s.curCtx).acm.getLsbD (x.toNat + i) = true) →
        rowsFree s (32 * x.toNat) (32 * (x.toNat + n.toNat) + 31) →
          ∃ t, exec (.abfr g a n) s = .next t ∧ onlyRegs s t [] ∧ (elements s t fun row col => (s.cluster s.curCl).elem row col) ∧
            ∀ i < 64, (t.cluster s.curCl).acmAlloc.getD i none =
              if x.toNat ≤ i ∧ i ≤ x.toNat + n.toNat then none else (s.cluster s.curCl).acmAlloc.getD i none))

/-- An element made of S, X and G:M (R72). -/
def element (st : BitVec 16) (x : BitVec 16) (t : BitVec 64) : AccElem := st ++ x ++ t

/-- The normalising of an element by R233: the bits of T shifted so that bit 46 is the highest that differs from the sign. -/
def normalised (e : AccElem) : AccElem := accPut (accNormalise false (accGet e))

/-- R216, R233, R235: on allocated banks of the context with no product in the way, AINIT gives every element of its rows T and S zero and
the X of x[b], with P the odd ones X zero; ANRM normalises every element of its rows; AWR.F32 and AWR.RAW store the enabled positions
of vd that lie below column 160, and ARD reads, rounded, the elements of its window, zero from column 160 on. A row past 2 047 is
ACMB, SUB 0x02; a bank not owned SUB 0x00, and a free one SUB 0x01 for a writer, with the bank's number. -/
def accumulatorRowsPart : Prop :=
  ∀ (g : Guard) (a : XReg) (s : State) (core : Nat) (k : StreamId), s.Wf → core < 512 → s.cur = .stream core k →
    (∀ (b : XReg) (n : BitVec 6) (pr : Bool) (s1 : State) (x y : Word), s.begins g [a, b] [] [x, y] s1 →
      x.toNat + n.toNat ≤ 2047 → (∀ r, x.toNat ≤ r → r ≤ x.toNat + n.toNat → bankIs s (r / 32) true) →
      rowsFree s x.toNat (x.toNat + n.toNat) →
        ∃ t, exec (.ainit g a b n pr) s = .next t ∧ onlyRegs s t [] ∧
          elements s t fun row col => if x.toNat ≤ row ∧ row ≤ x.toNat + n.toNat then
            (if pr = true ∧ col % 2 = 1 then 0 else element 0 (y.extractLsb' 0 16) 0) else (s.cluster s.curCl).elem row col) ∧
    (∀ (n : BitVec 6) (s1 : State) (x : Word), s.begins g [a] [] [x] s1 → x.toNat + n.toNat ≤ 2047 →
      (∀ r, x.toNat ≤ r → r ≤ x.toNat + n.toNat → bankIs s (r / 32) true) → rowsFree s x.toNat (x.toNat + n.toNat) →
        (∃ t, exec (.anrm g a n false) s = .next t ∧ onlyRegs s t [] ∧
          elements s t fun row col => if x.toNat ≤ row ∧ row ≤ x.toNat + n.toNat then normalised ((s.cluster s.curCl).elem row col)
            else (s.cluster s.curCl).elem row col) ∧
        ∃ t, exec (.anrm g a n true) s = .next t ∧ onlyRegs s t [] ∧
          elements s t fun row col => if x.toNat ≤ row ∧ row ≤ x.toNat + n.toNat then
            (let od := (s.cluster s.curCl).elem row (col / 2 * 2 + 1)
             let v := accNormalise true (accGetPair ((s.cluster s.curCl).elem row (col / 2 * 2)) od)
             if col % 2 = 0 then accPutEven v else element (accS od) (od.extractLsb' 64 16) (accTw (accPutOdd v)))
            else (s.cluster s.curCl).elem row col) ∧
    (∀ (vd : VReg) (m : MReg) (s1 : State) (x : Word), s.begins g [a] [] [x] s1 →
      x.extractLsb' 24 40 = 0 → x.extractLsb' 11 5 = 0 →
      let r0 := (x.extractLsb' 0 11).toNat
      let c0 := (x.extractLsb' 16 8).toNat
      r0 + 15 ≤ 2047 → (∀ i ≤ 15, bankIs s ((r0 + i) / 32) true) → rowsFree s r0 (r0 + 15) →
        (∃ t, exec (.awr g .f32 vd a m) s = .next t ∧ onlyRegs s t [] ∧
          elements s t fun row col =>
            if r0 ≤ row ∧ row ≤ r0 + 15 ∧ c0 ≤ col ∧ col < c0 + 64 ∧ (s.mask m).getLsbD (64 * (row - r0) + (col - c0)) = true then
              accPut (accWriteF32 (accGet ((s.cluster s.curCl).elem row col)) (velem (s.vreg vd) (64 * (row - r0) + (col - c0))).toNat)
            else (s.cluster s.curCl).elem row col) ∧
        (∃ t, exec (.awr g .raw vd a m) s = .next t ∧ onlyRegs s t [] ∧
          elements s t fun row col =>
            let p := 64 * (row - r0) + 3 * (col - c0)
            if r0 ≤ row ∧ row ≤ r0 + 15 ∧ c0 ≤ col ∧ col < c0 + 21 ∧ (s.mask m).getLsbD p = true then
              (velem (s.vreg vd) (p + 2) ++ velem (s.vreg vd) (p + 1) ++ velem (s.vreg vd) p : BitVec 96) &&&
                ((0x001FFFFF#32 : BitVec 32) ++ BitVec.allOnes 64)
            else (s.cluster s.curCl).elem row col) ∧
        (∃ t, exec (.ard g .raw vd a m) s = .next t ∧ memSame s t ∧ onlyRegs s t [] ∧
          ∀ e : Fin 1024, (t.vreg vd)[e] = if (s.mask m).getLsbD e.val then
            (let j := e.val % 64
             if j = 63 ∨ 160 ≤ c0 + j / 3 then 0
             else ((s.cluster s.curCl).elem (r0 + e.val / 64) (c0 + j / 3)).extractLsb' (32 * (j % 3)) 32) else (s.vreg vd)[e]) ∧
        (∀ p ∈ [(AccFmt.f32, fp32), (.bf16, bf16)], ∃ t, exec (.ard g p.1 vd a m) s = .next t ∧ memSame s t ∧
          t.hart.x = s.hart.x ∧ t.pc = s.pcAfter 1 ∧
          ∀ e : Fin 1024, (t.vreg vd)[e] = if (s.mask m).getLsbD e.val then
            BitVec.ofNat 32 (p.2.ofVal .rne ((accGet (if 160 ≤ c0 + e.val % 64 then 0 else
              (s.cluster s.curCl).elem (r0 + e.val / 64) (c0 + e.val % 64))).value false)).1 else (s.vreg vd)[e]) ∧
        (x.getLsbD 16 = true → exec (.ard g .f64 vd a m) s = .next (s.take ⟨0x0A, 0, x⟩)) ∧
        (x.getLsbD 16 = false → ∃ t, exec (.ard g .f64 vd a m) s = .next t ∧ memSame s t ∧
          t.hart.x = s.hart.x ∧ t.pc = s.pcAfter 1 ∧
          ∀ e : Fin 1024, (t.vreg vd)[e] = if (s.mask m).getLsbD e.val then
            (let h := c0 + e.val % 64 / 2 * 2
             let el (c : Nat) : AccElem := if 160 ≤ c then 0 else (s.cluster s.curCl).elem (r0 + e.val / 64) c
             let v := (fp64.ofVal .rne ((accGetPair (el h) (el (h + 1))).value true)).1
             BitVec.ofNat 32 (if e.val % 2 = 0 then v else v / 2 ^ 32)) else (s.vreg vd)[e])) ∧
    (∀ (vd : VReg) (m : MReg) (s1 : State) (x : Word), s.begins g [a] [] [x] s1 →
      x.extractLsb' 24 40 = 0 → x.extractLsb' 11 5 = 0 →
      let r0 := (x.extractLsb' 0 11).toNat
      (2047 < r0 + 15 → exec (.awr g .f32 vd a m) s = .next (s.take ⟨0x28, 2, 2048⟩)) ∧
      (r0 + 15 ≤ 2047 → (s.owner s.curCl s.curCtx).acm.getLsbD (r0 / 32) = false →
        exec (.awr g .f32 vd a m) s = .next (s.take ⟨0x28, 0, BitVec.ofNat 64 (r0 / 32)⟩)) ∧
      (r0 + 15 ≤ 2047 → bankIs s (r0 / 32) false →
        exec (.awr g .f32 vd a m) s = .next (s.take ⟨0x28, 1, BitVec.ofNat 64 (r0 / 32)⟩)))

end Sys2Proof.Statements

/-- R215, R216, R230 to R235: allotting, clearing, normalising, reading and writing accumulator rows. -/
def Obligations.AccumulatorMemory : Prop := accumulatorBanksPart ∧ accumulatorRowsPart

/-! ## Effect lists (R238 to R250) -/

namespace Sys2Proof.Statements

/-- The slot that a nonzero handle names: bits 5-0 a closed slot, bits 15-8 its generation, every other bit zero (R239). -/
def names (l : Lists) (h : Word) (n : Nat) : Prop :=
  h.extractLsb' 16 48 = 0 ∧ h.extractLsb' 6 2 = 0 ∧ n = (h.extractLsb' 0 6).toNat ∧ (l.slots.getD n ⟨1, .free⟩).use = .closed ∧
    (l.slots.getD n ⟨1, .free⟩).gen = h.extractLsb' 8 8

/-- The entries of an arena that belong to the list that a handle names, in list order; the empty list has none (R239, R243). -/
def listIs (s : State) (es : List AEntry) (h : Word) (l : List AEntry) : Prop :=
  (h = 0 ∧ l = []) ∨ (h ≠ 0 ∧ ∃ n, names s.me.lists h n ∧ l = es.filter fun e => e.own == n && e.be != 0)

/-- The word of ECNT: entries and enabled bytes (R249). -/
def countWord (l : List AEntry) : Word :=
  BitVec.ofNat 64 (l.length * 2 ^ 32 + (l.map fun e => ((List.range 64).filter fun j => e.be.getLsbD j).length).sum)

/-- The acting stream's lists replaced. -/
def withLists (s : State) (f : Lists → Lists) : State := s.updMe fun t => { t with lists := f t.lists }

/-- The USED of lists whose arena holds entries: 0 with no live handle and depth 0, else just past the highest entry with an enabled
byte whose slot is not free (R243). -/
def usedIs (l : Lists) (es : List AEntry) (n : Nat) : Prop :=
  let held := es.filter fun e => e.be != 0 && (l.slots.getD e.own ⟨1, .free⟩).use != .free
  let idle : Prop := (∀ i < 64, (l.slots.getD i ⟨1, .free⟩).use ≠ .closed) ∧ l.opened = []
  (idle → n = 0) ∧ (¬idle → (∀ e ∈ held, 80 * (e.idx + 1) ≤ n) ∧ (n = 0 ∨ ∃ e ∈ held, n = 80 * (e.idx + 1)))

/-- R239, R242, R249: EFCAP sets a greater or equal capacity and writes the old one, or all ones; ECNT writes the entries and enabled bytes of
a list, zero for the empty one; ECNT.ARENA the live handles, the depth and USED; a nonzero handle that is not live is ACCESS with SUB
0x20 in each instruction that takes one. -/
def listQueriesPart : Prop :=
  ∀ (g : Guard) (s : State) (core : Nat) (k : StreamId), core < 512 → s.cur = .stream core k →
    (∀ (d a : XReg) (x : Word) (s1 s2 : State), s.memRuns g [a] [d] [x] s1 s2 →
      let cap := (s.me.lists.arena.extractLsb' 0 16).toNat
      (x.toNat < 65536 → cap ≤ x.toNat →
        (withLists s fun l => { l with arena := l.arena.extractLsb' 16 48 ++ x.extractLsb' 0 16 }).writeReg d (BitVec.ofNat 64 cap) =
          .ok s1 → exec (.efcap g d a) s = .next (s2.advance 1)) ∧
      (65536 ≤ x.toNat ∨ x.toNat < cap → s.writeReg d (BitVec.allOnes 64) = .ok s1 →
        exec (.efcap g d a) s = .next (s2.advance 1)) ∧
      (∀ es l u, x ≠ 0 → s.arenaAll = .ok (es, u) → listIs s es x l → u.writeReg d (countWord l) = .ok s1 →
        exec (.ecnt g d a) s = .next (s2.advance 1)) ∧
      (x = 0 → s.writeReg d 0 = .ok s1 → exec (.ecnt g d a) s = .next (s2.advance 1))) ∧
    (∀ (d : XReg) (s1 : State), s.clear g [d] → s.me.lists.used < 2 ^ 48 → s.me.lists.opened.length < 256 →
      s.writeReg d
        (BitVec.ofNat 8 ((List.range 64).filter fun n => (s.me.lists.slots.getD n ⟨1, .free⟩).use == .closed).length ++
          BitVec.ofNat 8 s.me.lists.opened.length ++ BitVec.ofNat 48 s.me.lists.used) = .ok s1 →
        exec (.ecntArena g d) s = .next (s1.advance 1)) ∧
    ∀ (d a b c : XReg) (x y z w : Word) (s0 : State), x ≠ 0 → (∀ n, ¬names s.me.lists x n) →
      (s.begins g [a] [d] [x] s0 → exec (.ecnt g d a) s = .next (s.take ⟨0x11, 0x20, x⟩)) ∧
      (s.begins g [a] [] [x] s0 → exec (.edrp g a) s = .next (s.take ⟨0x11, 0x20, x⟩) ∧
        exec (.eapl g a) s = .next (s.take ⟨0x11, 0x20, x⟩) ∧
        ∀ sc tier, s.collecting = false → exec (.eaplRel g a sc tier) s = .next (s.take ⟨0x11, 0x20, x⟩)) ∧
      (s.begins g [a, b] [d] [x, y] s0 → exec (.ecat g d a b) s = .next (s.take ⟨0x11, 0x20, x⟩)) ∧
      (s.begins g [a, b, c] [d] [x, y, z] s0 → ∀ out, exec (.eflt g d a b c out) s = .next (s.take ⟨0x11, 0x20, x⟩)) ∧
      (s.begins g [a, b, c, d] [] [x, y, z, w] s0 → exec (.ereb g d a b c) s = .next (s.take ⟨0x11, 0x20, x⟩))

/-- R249: ECAT appends copies of two lists, in order, as a new list and writes its handle, zero when both are empty and EFCAP, SUB 1, when no
slot is free; EFLT keeps the enabled bytes inside or outside a range and writes what is left as ECNT does; EREB moves the entries whose
line lies in a range by x[d], a multiple of 64; EDRP disables every byte of the list and frees its slot. Each acts on the arena as read
and written by `arenaAll`, `arenaAppend`, `putBes` and `moveLines`, the model's reads and writes of arena doublewords (R243, R244). -/
def listTransformsPart : Prop :=
  ∀ (g : Guard) (s u : State) (es : List AEntry) (core : Nat) (k : StreamId), core < 512 → s.cur = .stream core k →
    s.arenaAll = .ok (es, u) →
    (∀ (d a b : XReg) (x y : Word) (l m : List AEntry), listIs s es x l → listIs s es y m →
        (∀ s1 s2, l ++ m = [] → u.writeReg d 0 = .ok s1 → s.memRuns g [a, b] [d] [x, y] s1 s2 →
          exec (.ecat g d a b) s = .next (s2.advance 1)) ∧
        (∀ s0, l ++ m ≠ [] → u.me.lists.freeSlot = none → s.begins g [a, b] [d] [x, y] s0 →
          exec (.ecat g d a b) s = .next (s.take ⟨0x25, 1, 0⟩)) ∧
        (∀ n v s1 s2, l ++ m ≠ [] → u.me.lists.freeSlot = some n →
          u.arenaAppend n ((l ++ m).map fun e => (e.line, e.be, e.data)) = .ok v →
          let gen := (v.me.lists.slots.getD n ⟨1, .free⟩).gen
          (withLists v fun l => { l with slots := l.slots.setIfInBounds n ⟨gen, .closed⟩ }).writeReg d
            (0#48 ++ gen ++ BitVec.ofNat 8 n) = .ok s1 →
          s.memRuns g [a, b] [d] [x, y] s1 s2 → exec (.ecat g d a b) s = .next (s2.advance 1))) ∧
    (∀ (d a b c : XReg) (out : Bool) (x lo hi : Word) (n used : Nat) (f : AEntry → BitVec 64) (v s1 s2 : State),
      x ≠ 0 → names s.me.lists x n →
      (∀ e, ∀ j < 64, (f e).getLsbD j = (e.be.getLsbD j &&
        (decide (lo.toNat ≤ e.line.toNat + j ∧ e.line.toNat + j < hi.toNat) != out))) →
      u.putBes f (es.filter fun e => e.own == n && e.be != 0) = .ok v →
      let es2 := es.map fun e => if e.own == n && e.be != 0 then { e with be := f e } else e
      usedIs v.me.lists es2 used →
      (withLists v fun l => { l with used := used }).writeReg d (countWord (es2.filter fun e => e.own == n && e.be != 0)) = .ok s1 →
      s.memRuns g [a, b, c] [d] [x, lo, hi] s1 s2 → exec (.eflt g d a b c out) s = .next (s2.advance 1)) ∧
    (∀ (d a b c : XReg) (x lo hi dt : Word) (n : Nat), x ≠ 0 → names s.me.lists x n →
        let l := es.filter fun e => e.own == n && e.be != 0
        ∀ v s1 s2, dt.toNat % 64 = 0 → u.arenaReady (l.map fun e => 80 * e.idx) = .ok v → v.moveLines lo hi dt l = .ok s1 →
          s.memRuns g [a, b, c, d] [] [x, lo, hi, dt] s1 s2 → exec (.ereb g d a b c) s = .next (s2.advance 1)) ∧
    ∀ (a : XReg) (x : Word) (n used : Nat) (v s2 : State), x ≠ 0 → names s.me.lists x n →
      u.putBes (fun _ => 0) (es.filter fun e => e.own == n && e.be != 0) = .ok v →
      let gen := (v.me.lists.slots.getD n ⟨1, .free⟩).gen
      let freed (l : Lists) : Lists := { l with slots := l.slots.setIfInBounds n ⟨if gen = 255 then 1 else gen + 1, .free⟩ }
      usedIs (freed v.me.lists) (es.map fun e => if e.own == n && e.be != 0 then { e with be := 0 } else e) used →
      s.memRuns g [a] [] [x] (withLists v fun l => { freed l with used := used }) s2 → exec (.edrp g a) s = .next (s2.advance 1)

/-- R239, R249: the empty list, handle 0, has no entries: EFLT writes 0, EREB checks its delta and EDRP only advance. -/
def emptyListPart : Prop :=
  ∀ (g : Guard) (s s1 s2 : State) (core : Nat) (k : StreamId) (d a b c : XReg), core < 512 → s.cur = .stream core k →
    (∀ (out : Bool) (lo hi : Word), s.writeReg d 0 = .ok s1 → s.memRuns g [a, b, c] [d] [0, lo, hi] s1 s2 →
      exec (.eflt g d a b c out) s = .next (s2.advance 1)) ∧
    (∀ lo hi dt : Word, dt.toNat % 64 = 0 → s.memRuns g [a, b, c, d] [] [0, lo, hi, dt] s s2 →
      exec (.ereb g d a b c) s = .next (s2.advance 1)) ∧
    (∀ (x lo hi dt : Word) (s0 : State), x = 0 ∨ (∃ n, names s.me.lists x n) → dt.toNat % 64 ≠ 0 →
      s.begins g [a, b, c, d] [] [x, lo, hi, dt] s0 → exec (.ereb g d a b c) s = .next (s.take ⟨0x0A, 0, dt⟩)) ∧
    (s.memRuns g [a] [] [0] s s2 → exec (.edrp g a) s = .next (s2.advance 1))

/-- R243, R250: EAPL outside collection checks and stores the entries of its list in order, and with the empty list only advances; while
collecting it appends them to the innermost list; EAPL.REL stores them and then releases at its scope, and is EFSYNC while collecting. -/
def listApplyPart : Prop :=
  ∀ (g : Guard) (a : XReg) (s : State) (x : Word) (core : Nat) (k : StreamId), core < 512 → s.cur = .stream core k →
    (∀ (u s1 s2 : State) (es l : List AEntry), s.arenaAll = .ok (es, u) → listIs s es x l → s.memRuns g [a] [] [x] s1 s2 →
      (s.collecting = false → l = [] → s1 = u → u.me.remote = [] → exec (.eapl g a) s = .next (s2.advance 1)) ∧
      (s.collecting = false → u.applyList l = .ok s1 → exec (.eapl g a) s = .next (s2.advance 1)) ∧
      (s.collecting = true → u.arenaAppend (u.me.lists.opened.headD 0) (l.map fun e => (e.line, e.be, e.data)) = .ok s1 →
        exec (.eapl g a) s = .next (s2.advance 1)) ∧
      ∀ sc (tier : BitVec 3) v, s.collecting = false → u.releaseReady sc tier.toNat = true → u.applyList l = .ok v →
        s1 = v.fenceRelease sc tier.toNat → exec (.eaplRel g a sc tier) s = .next (s2.advance 1)) ∧
    ∀ sc tier s0, s.begins g [a] [] [x] s0 → s.collecting = true → exec (.eaplRel g a sc tier) s = .next (s.take ⟨0x26, 0, 0⟩)

end Sys2Proof.Statements

/-- R238 to R251: effect lists counted, captured, joined, filtered, rebased, applied and dropped. -/
def Obligations.Lists : Prop := listQueriesPart ∧ listTransformsPart ∧ emptyListPart ∧ listApplyPart

/-! ## Barriers, plans, groups, collectives and launches (R267 to R282, R293) -/

namespace Sys2Proof.Statements

/-- A stream may name barrier i of tier n of its kernel: the tier is declared, and i lies below its domain's count (R267, R268). -/
def barrierOf (s : State) (n : BitVec 3) (i : BitVec 4) (k : Kernel) : Prop :=
  s.kernelOf s.curCore = some k ∧ (k.tiers.getD n.toNat 0).getLsbD 63 = true ∧
    i.toNat < (match ((k.tiers.getD n.toNat 0).extractLsb' 60 3).toNat with | 0 => 16 | 1 => 16 | 2 => 16 | 3 => 16 | 4 => 8 | _ => 0)

/-- The stream may arrive now: it is in the mask, the barrier does not fill under another mask, the stream has not arrived in this
generation, and its release need not wait. -/
def mayArrive (s : State) (n : BitVec 3) (sm i : BitVec 4) (k : Kernel) : Prop :=
  let b := k.barrier (s.barKey k n i)
  s.collecting = false ∧ sm.getLsbD (stIndex s.curSt) = true ∧ (b.count = 0 ∨ b.mask = sm) ∧ (s.curCore, s.curSt) ∉ b.arrived ∧
    s.releaseReady .tier n.toNat = true

/-- The participants that an arrival which opens a generation expects: the group's cores, or 1 for a stream tier, times the streams
of the mask (R268). -/
def expected (s : State) (n : BitVec 3) (sm : BitVec 4) (k : Kernel) : Nat :=
  (if ((k.tiers.getD n.toNat 0).extractLsb' 60 3).toNat = 0 then 1 else (k.groupCores n.toNat s.curCore).length) *
    ((List.range 4).filter fun j => sm.getLsbD j).length

/-- A barrier's GEN and COUNT after one arrival (R268). -/
def afterArrival (s : State) (n : BitVec 3) (sm : BitVec 4) (k : Kernel) (b b2 : Barrier) : Prop :=
  let e := if b.count = 0 then expected s n sm k else b.exp
  (b.count + 1 = e → b2.gen = (b.gen + 1) % 65536 ∧ b2.count = 0 ∧ b2.arrived = []) ∧
    (b.count + 1 ≠ e → b2.gen = b.gen ∧ b2.count = b.count + 1 ∧ b2.exp = e ∧ b2.arrived = (s.curCore, s.curSt) :: b.arrived) ∧
    b2.mask = if b.count = 0 then sm else b.mask

/-- R268: BARA arrives and writes the generation it arrived in to x[d]; BARW completes when its token names another generation and waits
while it names the current one; BARAW completes when its arrival completes the generation, and else waits, until then. A stream that
has arrived in a generation waits before it arrives in the next. A barrier that the tier does not have is ACCESS, SUB 0x30, a mask without the stream
SUB 0x32, TVAL (n << 8) | i. -/
def barriersPart : Prop :=
  ∀ (g : Guard) (n : BitVec 3) (sm i : BitVec 4) (s : State) (core : Nat) (st : StreamId), core < 512 → s.cur = .stream core st →
    s.guardOn g = true → s.collecting = false →
    let v : Word := BitVec.ofNat 64 (n.toNat * 256 + i.toNat)
    (∀ (d : XReg) (k : Kernel), s.clear g [d] → hasSlot s d → barrierOf s n i k → mayArrive s n sm i k →
      let b := k.barrier (s.barKey k n i)
      ∃ t k2, exec (.bara g d n sm i) s = .next t ∧ memSame s t ∧ onlyRegs s t [d] ∧ takes s t d (BitVec.ofNat 64 b.gen) ∧
        t.kernelOf core = some k2 ∧ afterArrival s n sm k b (k2.barrier (s.barKey k n i)) ∧
        ∀ key, key ≠ s.barKey k n i → k2.barrier key = k.barrier key) ∧
    (∀ (a : XReg) (s0 : State) (x : Word) (k : Kernel), s.begins g [a] [] [x] s0 → barrierOf s n i k →
      let b := k.barrier (s.barKey k n i)
      (b.gen ≠ (x.extractLsb' 0 16).toNat → ∃ t, exec (.barw g a n i) s = .next t ∧ memSame s t ∧ onlyRegs s t []) ∧
      (b.gen = (x.extractLsb' 0 16).toNat →
        exec (.barw g a n i) s = .next (s.toWait (.barrier n.toNat i.toNat (some (x.extractLsb' 0 16).toNat))))) ∧
    (∀ k : Kernel, s.me.barTok = none → barrierOf s n i k → mayArrive s n sm i k →
      let b := k.barrier (s.barKey k n i)
      ∃ t k2, exec (.baraw g n sm i) s = .next t ∧ memSame s t ∧ t.kernelOf core = some k2 ∧
        afterArrival s n sm k b (k2.barrier (s.barKey k n i)) ∧
        (b.count + 1 = (if b.count = 0 then expected s n sm k else b.exp) → onlyRegs s t []) ∧
        (b.count + 1 ≠ (if b.count = 0 then expected s n sm k else b.exp) →
          t.me.st = .wait ∧ t.me.waiting = some (.barrier n.toNat i.toNat (some b.gen)) ∧ t.pc = s.pc ∧
            t.me.barTok = some (n.toNat, i.toNat, b.gen))) ∧
    (∀ (k : Kernel) (tok : Nat), s.me.barTok = some (n.toNat, i.toNat, tok) → barrierOf s n i k →
      (k.barrier (s.barKey k n i)).gen ≠ tok →
        ∃ t, exec (.baraw g n sm i) s = .next t ∧ memSame s t ∧ onlyRegs s t [] ∧ t.me.barTok = none) ∧
    (∀ k : Kernel, barrierOf s n i k → sm.getLsbD (stIndex s.curSt) = true →
      let b := k.barrier (s.barKey k n i)
      b.count = 0 ∨ b.mask = sm → (s.curCore, s.curSt) ∈ b.arrived →
        (∀ d, s.clear g [d] → exec (.bara g d n sm i) s = .next (s.toWait (.barrier n.toNat i.toNat none))) ∧
        (s.me.barTok = none → exec (.baraw g n sm i) s = .next (s.toWait (.barrier n.toNat i.toNat none)))) ∧
    ((∀ k, ¬barrierOf s n i k) → s.me.barTok = none → exec (.baraw g n sm i) s = .next (s.take ⟨0x11, 0x30, v⟩) ∧
      (∀ d, s.clear g [d] → exec (.bara g d n sm i) s = .next (s.take ⟨0x11, 0x30, v⟩)) ∧
      ∀ a s0 x, s.begins g [a] [] [x] s0 → exec (.barw g a n i) s = .next (s.take ⟨0x11, 0x30, v⟩)) ∧
    (∀ k : Kernel, barrierOf s n i k → sm.getLsbD (stIndex s.curSt) = false →
      (s.me.barTok = none → exec (.baraw g n sm i) s = .next (s.take ⟨0x11, 0x32, v⟩)) ∧
      ∀ d, s.clear g [d] → exec (.bara g d n sm i) s = .next (s.take ⟨0x11, 0x32, v⟩))

/-- R271, R273: SSYNC waits at first, its release recorded once, and completes by writing the word that the end of the communication phase
left for it; XPLAN reads its image, checks it, and binds the plan that its bytes hold to the kernel; an image that fails is ACCESS, SUB 0x31,
with the address of the first failing entry, and the reads leave no race behind. -/
def superstepsPart : Prop :=
  (∀ (g : Guard) (d : XReg) (s : State) (core : Nat) (k : StreamId) (v : Word), core < 512 → s.cur = .stream core k →
    s.clear g [d] → hasSlot s d → s.collecting = false → s.me.ssOut = some v →
      ∃ t, exec (.ssync g d) s = .next t ∧ memSame s t ∧ onlyRegs s t [d] ∧ takes s t d v ∧
        t.me.ssOut = none ∧ t.me.ssynced = false) ∧
  (∀ (g : Guard) (d : XReg) (s : State) (core : Nat) (k : StreamId), core < 512 → s.cur = .stream core k →
    s.clear g [d] → s.collecting = false → s.me.ssOut = none →
      ∃ t, exec (.ssync g d) s = .next t ∧ memSame s t ∧ t.me.st = .wait ∧ t.me.ssynced = true ∧ t.pc = s.pc) ∧
  (∀ (g : Guard) (d a : XReg) (s s0 : State) (y : Word) (core : Nat) (k : StreamId), core < 512 → s.cur = .stream core k →
    s.collecting = true → (s.clear g [d] → exec (.ssync g d) s = .next (s.take ⟨0x26, 0, 0⟩)) ∧
      (s.begins g [a] [] [y] s0 → exec (.xplan g a) s = .next (s.take ⟨0x26, 0, 0⟩))) ∧
  (∀ (g : Guard) (a : XReg) (s u s1 s2 : State) (y : Word) (n : Nat) (bs : List (List Byte)),
    s.collecting = false → s.eltOperand ⟨y, 32⟩ = .ok () → y.toNat % 32 = 0 →
    s.planCount y = .ok (n, u) → u.eltsOperand (planElts y n) = .ok () →
    u.readElts false (planElts y n) (planChk u s.curPart y) = .ok (bs, s1) →
      (∀ k : Kernel, s.kernelOf s.curCore = some k →
        s.memRuns g [a] [] [y] (s1.updKernel k.id fun x => { x with plan := planOf bs.flatten n }) s2 →
          exec (.xplan g a) s = .next (s2.advance 1)) ∧
      (s.kernelOf s.curCore = none → s.memRuns g [a] [] [y] s1 s2 → exec (.xplan g a) s = .next (s2.advance 1))) ∧
  (∀ (g : Guard) (a : XReg) (s s0 u s1 : State) (y : Word) (n o : Nat) (h : List Byte) (es : List (List Byte)),
    s.begins g [a] [] [y] s0 → s.collecting = false → s.eltOperand ⟨y, 32⟩ = .ok () → y.toNat % 32 = 0 →
    s.planCount y = .ok (n, u) → u.eltsOperand (planElts y n) = .ok () →
    u.readElts false (planElts y n) (fun _ x => (x, none)) = .ok (h :: es, s1) →
    s1.planBad s.curPart h (es.map some) = some o →
      exec (.xplan g a) s =
        .next ((({ s1 with recs := u.recs } : State).setHart u.hart).take ⟨0x11, 0x31, leaW y (BitVec.ofNat 64 o)⟩))

end Sys2Proof.Statements

/-- R267 to R273: the named barriers and the superstep barrier. -/
def Obligations.BarriersAndSupersteps : Prop := barriersPart ∧ superstepsPart

namespace Sys2Proof.Statements

/-- R274, R275, R278: GRANK writes the stream's group and rank, GSIZE the groups and the extent, GSIZE.SHR the rank's share of w units, and
GNBR the rank after, before or across, of a domain tier with its package's id; an undeclared tier is ACCESS, SUB 0x30. -/
def groupQueriesPart : Prop :=
  ∀ (g : Guard) (d : XReg) (n : BitVec 3) (s : State) (k : Kernel), s.kernelOf s.curCore = some k →
    let w := k.tiers.getD n.toNat 0
    let e := (w.extractLsb' 0 16).toNat
    let grp := (k.groupOf n.toNat s.curCore s.curSt).1
    let r := (k.groupOf n.toNat s.curCore s.curSt).2
    let nbr (q : Nat) : Word :=
      BitVec.ofNat 64 (q + if (w.extractLsb' 60 3).toNat = 5 then k.members.getD (grp * e + q) 0 * 2 ^ 32 else 0)
    (w.getLsbD 63 = true → s.clear g [d] →
      (∀ p ∈ [((Instr.grank : Guard → XReg → BitVec 3 → Instr), BitVec.ofNat 64 (grp * 2 ^ 32 + r)),
          (.gsize, BitVec.ofNat 64 (k.groupCount n.toNat * 2 ^ 32 + e)), (.gnbrNext, nbr ((r + 1) % e)),
          (.gnbrPrev, nbr ((r + e - 1) % e))],
        ∀ s2, s.writeReg d p.2 = .ok s2 → exec (p.1 g d n) s = .next (s2.advance 1)) ∧
      (∀ (j : BitVec 5) (s2 : State),
        s.writeReg d (if e ≤ r ^^^ 2 ^ j.toNat then BitVec.allOnes 64 else nbr (r ^^^ 2 ^ j.toNat)) = .ok s2 →
          exec (.gnbrXor g d n j) s = .next (s2.advance 1))) ∧
    (∀ (a : XReg) (s1 s2 : State) (x : Word), w.getLsbD 63 = true → s.begins g [a] [d] [x] s1 →
      let u := (x.extractLsb' 0 32).toNat
      s1.writeReg d (BitVec.ofNat 64 (r * u / e * 2 ^ 32 + ((r + 1) * u / e - r * u / e))) = .ok s2 →
        exec (.gsizeShr g d a n) s = .next (s2.advance 1)) ∧
    (w.getLsbD 63 = false → s.clear g [d] →
      (∀ p ∈ [(Instr.grank : Guard → XReg → BitVec 3 → Instr), .gsize, .gnbrNext, .gnbrPrev],
        exec (p g d n) s = .next (s.take ⟨0x11, 0x30, BitVec.ofNat 64 (n.toNat * 256)⟩)) ∧
      (∀ j, exec (.gnbrXor g d n j) s = .next (s.take ⟨0x11, 0x30, BitVec.ofNat 64 (n.toNat * 256)⟩)) ∧
      ∀ a s1 x, s.begins g [a] [d] [x] s1 →
        exec (.gsizeShr g d a n) s = .next (s.take ⟨0x11, 0x30, BitVec.ofNat 64 (n.toNat * 256)⟩))

/-- R279, R280, R282, R306: COLL that passes its checks pushes a collective with the next number of its tier and counts as a remote
transaction of its stream, whose mark it takes when none stood; COLLW pushes a marker that remembers how many collectives stood
before it; both wait for a full queue, and are EFSYNC while collecting (COLLW's EFSYNC is R245's table). -/
def collectivesPart : Prop :=
  ∀ (g : Guard) (n : BitVec 3) (s : State) (core : Nat) (k : StreamId), core < 512 → s.cur = .stream core k →
    let c := s.core core
    (∀ (kind : CollKind) (op : CollOp) (ty : CollType) (d a b : XReg) (s0 : State) (x y z : Word),
      s.begins g [a, b, d] [] [x, y, z] s0 →
      (s.collCheck kind ty x y z n = .ok () → ¬roomIn c .collective →
        exec (.coll g kind op ty d a b n) s = .next (s.toWait (.engineQueue .collective))) ∧
      (s.collCheck kind ty x y z n = .ok () → roomIn c .collective → noReplay s → s.markRoom core k = true →
        ∃ t, exec (.coll g kind op ty d a b n) s = .next t ∧ memSame s t ∧ onlyRegs s t [] ∧
          (∃ e, (t.core core).colQ = c.colQ ++ [e] ∧ e.seq = c.push ∧ e.by_ = k ∧ e.issued = false ∧
            e.cmd = .coll ⟨kind, op, ty, x, y, (z.extractLsb' 0 24).toNat, n.toNat, c.collPushed.getD n.toNat 0⟩) ∧
          (t.core core).collPushed.getD n.toNat 0 = c.collPushed.getD n.toNat 0 + 1 ∧ (t.core core).push = c.push + 1 ∧
          t.me.remote.length = s.me.remote.length + 1 ∧ (s.me.remote = [] → t.me.mark = some (s.snapshot core k))) ∧
      (s.collecting = true → exec (.coll g kind op ty d a b n) s = .next (s.take ⟨0x26, 0, 0⟩))) ∧
    (s.guardOn g = true → s.collecting = false → ¬roomIn c .collective →
      exec (.collw g n) s = .next (s.toWait (.engineQueue .collective))) ∧
    (s.guardOn g = true → s.collecting = false → roomIn c .collective → noReplay s →
      let l := c.collwMarks.getD n.toNat []
      exec (.collw g n) s = .next (((pushedTo s .collective (.collw n.toNat l.length)).updCore core fun x =>
        { x with collwMarks := x.collwMarks.setIfInBounds n.toNat (l ++ [x.collPushed.getD n.toNat 0]) }).advance 1)) ∧
    (s.guardOn g = true → s.collecting = true → exec (.collw g n) s = .next (s.take ⟨0x26, 0, 0⟩))

end Sys2Proof.Statements

/-- R274 to R282, R245, R306: what a stream asks of its group, and the collectives it pushes. -/
def Obligations.GroupsAndCollectives : Prop := groupQueriesPart ∧ collectivesPart

/-- R293: LAUNCH to a device-fed queue of its context with a packet that it can read stores the packet in the queue's ring, offers it to
the intake and writes its number to x[d]; with 256 entries held it writes all ones; a full data-queue port in x[d] makes it wait with
nothing stored or offered (R92); a queue id of more than ten bits, an absent queue, one that is not device-fed or of another context
is ACCESS, SUB 0x40; so is, with SUB 0x60, a ring entry that lies over a slot table (R284; DESIGN CHOICE log 94). -/
def Obligations.Launches : Prop :=
  ∀ (g : Guard) (d a b : XReg) (s s0 : State) (x y : Word), s.begins g [a, b] [d] [x, y] s0 →
    (∀ (q : SubQueue) (bs : List (List Byte)) (s1 : State), s.collecting = false → x.toNat < 1024 →
      s.queue? s.curPart x.toNat = some q → q.deviceFed = true → q.ctx = s.curCtx →
      s.eltsOperand (packetElts y) = .ok () → y.toNat % 64 = 0 → s.readElts false (packetElts y) (fun _ s => (s, none)) = .ok (bs, s1) →
        let s2 := (s1.releaseNow .package 0).2
        let at_ := q.ring + 256 * (q.next.toNat % 256)
        ((s1.writeReg d 0).toOption = none → exec (.launch g d a b) s = .next (s.toWait (.dqSlot ((s.port? d).getD 0)))) ∧
        (256 ≤ q.intake.length → ∀ s4 s5, s2.writeReg d (BitVec.allOnes 64) = .ok s4 → s.memRuns g [a, b] [d] [x, y] s4 s5 →
          exec (.launch g d a b) s = .next (s5.advance 1)) ∧
        (q.intake.length < 256 → (s1.writeReg d 0).toOption ≠ none → s2.meetsSlots at_ 256 = true →
          exec (.launch g d a b) s = .next (s.take ⟨0x11, 0x60, BitVec.ofNat 64 at_⟩)) ∧
        (q.intake.length < 256 → s2.meetsSlots at_ 256 = false → ∀ s3 s4 s5, s2.putPhys (some s.curCtx) at_ bs.flatten = .ok s3 →
          (s3.offered q { q with intake := q.intake ++ [q.next.setWidth 64], next := q.next + 1 }).writeReg d
            (q.next.setWidth 64) = .ok s4 → s.memRuns g [a, b] [d] [x, y] s4 s5 →
              exec (.launch g d a b) s = .next (s5.advance 1))) ∧
    (s.collecting = false → 1024 ≤ x.toNat ∨ s.queue? s.curPart x.toNat = none →
      exec (.launch g d a b) s = .next (s.take ⟨0x11, 0x40, x⟩)) ∧
    (∀ q : SubQueue, s.collecting = false → x.toNat < 1024 → s.queue? s.curPart x.toNat = some q →
      q.deviceFed = false ∨ q.ctx ≠ s.curCtx → exec (.launch g d a b) s = .next (s.take ⟨0x11, 0x40, x⟩)) ∧
    (s.collecting = true → exec (.launch g d a b) s = .next (s.take ⟨0x26, 0, 0⟩))

/-! ## Privileged instructions of the station cores (R296 to R311, R324 to R329, R336 to R338) -/

namespace Sys2Proof.Statements

/-- A station core acts, its guard true, and its source registers hold the values (R106). -/
def station (s : State) (g : Guard) (rs : List XReg) (vs : List Word) : Prop :=
  (∃ n, n < 12 ∧ s.cur = .station n) ∧ s.guardOn g = true ∧ vs = rs.map fun r => s.hart.get r

/-- An instruction completes with the state s1 but for x[d], which takes v, and the pc, which goes six bytes on. -/
def answers (i : Instr) (s s1 : State) (d : XReg) (v : Word) : Prop :=
  exec i s = .next ((s1.setHart (s1.hart.put d v)).advance 1)

/-- The word of a refusal: bit 63 and the code (R298). -/
def refused (code : BitVec 8) : Word := 1#1 ++ 0#55 ++ code

/-- x[a] names a cluster (bits 22-16) and a context (bits 9-0), both of the acting partition, its other bits zero (R298). -/
def targets (s : State) (x : Word) (cl ctx : Nat) : Prop :=
  x.extractLsb' 23 41 = 0 ∧ x.extractLsb' 10 6 = 0 ∧ cl = (x.extractLsb' 16 7).toNat ∧ ctx = (x.extractLsb' 0 10).toNat ∧
    (s.part s.actingPart).pclu.getLsbD cl = true ∧ (s.ctx ctx).part = s.actingPart

/-- x[a] names a context alone (bits 9-0), of the acting partition. -/
def targetsCtx (s : State) (x : Word) (ctx : Nat) : Prop :=
  x.extractLsb' 10 54 = 0 ∧ ctx = (x.extractLsb' 0 10).toNat ∧ (s.ctx ctx).part = s.actingPart

/-- A privileged instruction is refused with a code, what it looked at having led to the state s1: x[d] takes the refusal and nothing else of the
machine changes but its SAVE event, if it leaves one (R298, R378). -/
def refusedFrom (i : Instr) (s s1 : State) (d : XReg) (code : BitVec 8) : Prop :=
  ∃ t, exec i s = .next t ∧ t.hart.get d = (if d = 0 then 0 else refused code) ∧ t.cores = s1.cores ∧ t.contexts = s1.contexts ∧
    t.clusters = s1.clusters ∧ t.hbm = s1.hbm ∧ t.l2 = s1.l2
/-- A privileged instruction is refused with a code, and nothing was looked at. -/
def refusedWith (i : Instr) (s : State) (d : XReg) (code : BitVec 8) : Prop := refusedFrom i s s d code

/-- The SAVE event that an instruction leaves at the tail of the event queue (R378). -/
def leavesSave (s t : State) (op cl ctx : Nat) (v base : Word) : Prop :=
  s.events.length < 4096 → ∃ e, t.events = s.events ++ [e] ∧ e.kind = 4 ∧ e.part = s.actingPart ∧ e.key = ctx ∧
    e.payload[0] = BitVec.ofNat 64 (op * 2 ^ 56 + cl * 2 ^ 16 + ctx) ∧ e.payload[1] = v ∧ e.payload[2] = base

/-- R296, R298, R303, R378: SCOUT.STOP of a YIELDING or SAVING context with no remote transaction in the cluster stops its cores there: each
stream but an IDLE one is OUT, and the context SAVING; it waits while a vector store of the context there has issued and not completed
(R192). SCOUT.RESUME of a SAVING one restarts a stopped cluster, and the context is RUNNING once every cluster of it has been resumed.
Each leaves a SAVE event and an answer with bit 63 clear. A context in another state is refused with code 0x02, one with a remote
transaction with 0x04. The model's own here: the answer's clear bit 63, and that RESUME takes a cluster that is not stopped (DEDUCED log
41). -/
def stopAndResumePart : Prop :=
  ∀ (g : Guard) (d a : XReg) (s : State) (x : Word) (cl ctx : Nat), station s g [a] [x] → targets s x cl ctx →
    ((s.ctx ctx).state = .yielding ∨ (s.ctx ctx).state = .saving → s.remoteBusy cl ctx = false →
      (s.storesOut cl ctx false = true → exec (.scoutStop g d a) s = .next (s.toWait (.vecStores ctx))) ∧
      (s.storesOut cl ctx false = false →
      ∃ t v, exec (.scoutStop g d a) s = .next t ∧ v.getLsbD 63 = false ∧ t.hart.get d = (if d = 0 then 0 else v) ∧
        leavesSave s t 0 cl ctx v 0 ∧ (t.ctx ctx).state = .saving ∧ ctx ∈ (t.cluster cl).stopped ∧
        (∀ k < 4, (s.owner cl ctx).core.getLsbD k = true → ∀ st, (t.strm (4 * cl + k) st).hart = (s.strm (4 * cl + k) st).hart ∧
          (t.strm (4 * cl + k) st).st = if (s.strm (4 * cl + k) st).st = .idle then .idle else .out) ∧
        (∀ c, (∀ k < 4, (s.owner cl ctx).core.getLsbD k = true → c ≠ 4 * cl + k) → t.core c = s.core c))) ∧
    ((s.ctx ctx).state = .yielding ∨ (s.ctx ctx).state = .saving → s.remoteBusy cl ctx = true →
      ∃ t, exec (.scoutStop g d a) s = .next t ∧ t.hart.get d = (if d = 0 then 0 else refused 4) ∧
        leavesSave s t 0 cl ctx (refused 4) 0 ∧ t.cores = s.cores ∧ t.contexts = s.contexts) ∧
    ((s.ctx ctx).state ≠ .yielding → (s.ctx ctx).state ≠ .saving →
      ∃ t, exec (.scoutStop g d a) s = .next t ∧ t.hart.get d = (if d = 0 then 0 else refused 2) ∧
        leavesSave s t 0 cl ctx (refused 2) 0 ∧ t.cores = s.cores ∧ t.contexts = s.contexts) ∧
    ((s.ctx ctx).state = .saving →
      ∃ t v, exec (.scoutResume g d a) s = .next t ∧ v.getLsbD 63 = false ∧ t.hart.get d = (if d = 0 then 0 else v) ∧
        leavesSave s t 2 cl ctx v 0 ∧ ctx ∉ (t.cluster cl).stopped ∧
        ((∀ c < 128, (s.owner c ctx).core ≠ 0 → c = cl ∨ ctx ∈ (s.cluster c).resumed) → (t.ctx ctx).state = .running) ∧
        ((∃ c < 128, (s.owner c ctx).core ≠ 0 ∧ c ≠ cl ∧ ctx ∉ (s.cluster c).resumed) →
          (t.ctx ctx).state = .saving ∧ ctx ∈ (t.cluster cl).resumed) ∧
        (∀ k < 4, (s.owner cl ctx).core.getLsbD k = true → ∀ st, (t.strm (4 * cl + k) st).hart = (s.strm (4 * cl + k) st).hart ∧
          (t.strm (4 * cl + k) st).st =
            if (s.strm (4 * cl + k) st).st = .out ∧ ctx ∈ (s.cluster cl).stopped then (s.strm (4 * cl + k) st).saved
            else (s.strm (4 * cl + k) st).st)) ∧
    ((s.ctx ctx).state ≠ .saving → refusedWith (.scoutResume g d a) s d 2)

/-- Number o of n bytes in a field book, least significant first (R301). -/
def bookField (b : List Byte) (o n : Nat) : Nat := leNat ((b.drop o).take n)

/-- A field book's map has a segment of this kind and index, at a 64-byte boundary behind the map, whose bytes satisfy p (R299, R301). -/
def hasSegment (b : List Byte) (kind index : Nat) (p : List Byte → Prop) : Prop :=
  ∃ j < bookField b 12 4,
    let off := bookField b (128 + 16 * j + 8) 4
    let len := bookField b (128 + 16 * j + 12) 4
    bookField b (128 + 16 * j) 2 = kind ∧ bookField b (128 + 16 * j + 2) 2 = index ∧ off % 64 = 0 ∧
      128 + 16 * bookField b 12 4 ≤ off ∧ off + len ≤ b.length ∧ p ((b.drop off).take len)

/-- R299 to R301: the field book of a context in a cluster. Its header holds the magic, the version, the context, the cluster, the masks, the
number of segments, its length and its digest; its segments are the array blocks, the streams and the vector state of each core that
the context owns, each bank of its that is not in cache mode, each ACM bank of its, and the cluster; the bytes that R300 lays out in them
are the machine's state. -/
def fieldBookPart : Prop :=
  ∀ (s : State) (cl ctx : Nat), cl < 128 → ctx < 1024 →
    let b := s.fieldBook cl ctx
    let o := s.owner cl ctx
    let c := s.cluster cl
    (bookField b 0 4 = 0x4B424446 ∧ bookField b 4 4 = 0x00030001 ∧ bookField b 8 2 = ctx ∧ bookField b 10 1 = cl ∧
      bookField b 11 1 = o.core.toNat ∧ bookField b 16 8 = o.bank.toNat ∧ bookField b 24 8 = o.acm.toNat ∧
      bookField b 32 8 = b.length ∧ b.length % 64 = 0 ∧ bookField b 40 24 = 0 ∧ bookField b 96 32 = 0 ∧
      (b.drop 64).take 32 = shake256 (b.take 64 ++ List.replicate 32 0 ++ b.drop 96)) ∧
    (∀ k < 4, o.core.getLsbD k = true →
      let x := s.core (4 * cl + k)
      (∀ j < 25, hasSegment b 1 (25 * k + j) fun bs =>
        bs.length = 69632 ∧ (x.array.running = [] → bs = List.replicate 69632 0)) ∧
      (∀ st : StreamId, let t := s.strm (4 * cl + k) st
        hasSegment b 2 (4 * k + stIndex st) fun bs => bs.length = 16384 ∧
          (∀ i : Fin 64, bookField bs (8 * i) 8 =
            if i ≠ 0 ∧ i.val < (match t.allot with | .a16 => 16 | .a32 => 32 | .a64 => 64) then t.hart.x[i].toNat else 0) ∧
          bookField bs 512 8 = t.hart.pc.toNat ∧ bookField bs 520 1 = (t.hart.p ||| 1).toNat ∧
          (∀ p ∈ [(0, t.hart.stat), (1, t.fpm), (5, t.trapvec), (6, t.hart.prc), (8, t.scopemode), (10, t.tcause), (11, t.tepc),
            (12, t.tval), (13, t.tprc)], bookField bs (528 + 8 * p.1) 8 = (p.2 : Word).toNat) ∧
          (∀ i < 256, ∀ e, t.hart.shadow[i]? = some e → bookField bs (640 + 8 * i) 8 = e.toNat) ∧
          (t.mark = none → (bs.drop 2832).take 5360 = List.replicate 5360 0)) ∧
      (hasSegment b 3 k fun bs => bs.length = 135168 ∧
        (∀ (j : Fin 16) (e : Fin 1024), bookField bs (4096 * j + 4 * e) 4 = x.v[j][e].toNat) ∧
        (∀ (n : Fin 4) (e : Fin 4096), bookField bs (65536 + 16384 * n + 4 * e) 4 = x.z[n][e].toNat) ∧
        ∀ j : Fin 8, bookField bs (131072 + 128 * j) 128 = x.masks[j].toNat)) ∧
    (∀ n : Fin 64, o.bank.getLsbD n = true →
      (c.modes[n] ≠ .cache → hasSegment b 4 n fun bs => bs.length = 131136 ∧
        (c.modes[n] = .tile → ∀ j < 0x20000, bs[j]? = some (memByte c.store (n * 0x20000 + j)))) ∧
      (c.modes[n] = .cache → ∀ j < bookField b 12 4, ¬(bookField b (128 + 16 * j) 2 = 4 ∧ bookField b (128 + 16 * j + 2) 2 = n))) ∧
    (∀ n < 64, o.acm.getLsbD n = true → hasSegment b 5 n fun bs => bs.length = 61440 ∧
      ∀ i < 5120, bookField bs (12 * i) 12 = (acmGet c.acm (5120 * n + i)).toNat) ∧
    hasSegment b 6 0 fun bs => bs.length = 8192

/-- R296, R303, R309: SCOUT.SHIFT of a SAVING context stopped in all its clusters writes back its lines, releases at package scope, writes
its field book at x[b], the header last, and answers the book's bytes; the context is SAVED when every cluster of it is shifted. It
is refused with code 0x02 in another state, 0x06 with a cluster not stopped, 0x05 for a base that it may not use (in this order: DESIGN
CHOICE log 40); the vault, which keeps under the book's digest what its open bytes stand for, is the model's (DESIGN CHOICE log 12). CUTB stops the
cluster and returns each stream that has a mark to it, its remote requests and journal gone, and answers their number; the journals' old
bytes stand again, newest entry first, and where the line of one is lost it waits; no remote transaction is outstanding afterwards. -/
def savesAndCutsPart : Prop :=
  (∀ (g : Guard) (d a b : XReg) (s : State) (x y : Word) (cl ctx : Nat), station s g [a, b] [x, y] → targets s x cl ctx →
    ((s.ctx ctx).state ≠ .saving → refusedWith (.scoutShift g d a b) s d 2) ∧
    ((s.ctx ctx).state = .saving → (∃ c < 128, (s.owner c ctx).core ≠ 0 ∧ ctx ∉ (s.cluster c).stopped) →
      refusedWith (.scoutShift g d a b) s d 6) ∧
    ((s.ctx ctx).state = .saving → (∀ c < 128, (s.owner c ctx).core ≠ 0 → ctx ∈ (s.cluster c).stopped) →
      let s1 := (s.cleanOf ctx).scanRelease cl ctx
      let book := s1.fieldBook cl ctx
      (y.toNat % 64 ≠ 0 ∨ s.ownsRange s.actingPart y.toNat book.length = false → refusedWith (.scoutShift g d a b) s d 5) ∧
      (y.toNat % 64 = 0 → s.ownsRange s.actingPart y.toNat book.length = true →
        (∀ line s2, s1.bookPut y.toNat book = .error (line, s2) →
          exec (.scoutShift g d a b) s = .next (s2.toWait (.memory line))) ∧
        ∀ s2, s1.bookPut y.toNat book = .ok s2 → s2.cur = s.cur →
          ∃ t, exec (.scoutShift g d a b) s = .next t ∧ t.hart.get d = (if d = 0 then 0 else BitVec.ofNat 64 book.length) ∧
            ctx ∈ (t.cluster cl).shifted ∧ t.hbm = s2.hbm ∧ t.l2 = s2.l2 ∧
            (∃ v, t.vault = v :: s2.vault ∧ v.digest = BitVec.ofNat 256 (bookField book 64 32) ∧
              ∀ k < 4, (s1.owner cl ctx).core.getLsbD k = true → (k, s1.core (4 * cl + k)) ∈ v.cores) ∧
            ((∀ c ∈ s2.ctxClusters ctx, c = cl ∨ ctx ∈ (s2.cluster c).shifted) → (t.ctx ctx).state = .saved)))) ∧
  (∀ (g : Guard) (d a : XReg) (s : State) (x : Word) (cl ctx : Nat), station s g [a] [x] → targets s x cl ctx →
    ((s.ctx ctx).state ≠ .yielding → (s.ctx ctx).state ≠ .saving → refusedWith (.cutb g d a) s d 2) ∧
    ((s.ctx ctx).state = .yielding ∨ (s.ctx ctx).state = .saving →
      (s.storesOut cl ctx true = true → exec (.cutb g d a) s = .next (s.toWait (.vecStores ctx))) ∧
      (s.storesOut cl ctx true = false →
        let all := ((List.range 4).filter fun k => (s.owner cl ctx).core.getLsbD k).flatMap fun k =>
          [StreamId.A, .X, .M, .C].map fun st => (4 * cl + k, st)
        let marked := all.filter fun p => (s.strm p.1 p.2).mark.isSome
        let s2 := all.foldl (fun u p => u.cancelPlan p.1 p.2) (s.stopClocks cl ctx)
        (∀ e, s2.undoAll (s2.journals marked) = .error e → exec (.cutb g d a) s = .next ((s2.undoStuck e).toWait (.memory e.2.line))) ∧
        ∀ s3, s2.undoAll (s2.journals marked) = .ok s3 → ∃ t, exec (.cutb g d a) s = .next t ∧ ctx ∈ (t.cluster cl).stopped ∧
          t.hbm = s3.hbm ∧ t.l2 = s3.l2 ∧ (∀ c, (t.cluster c).store = (s3.cluster c).store) ∧
          (∀ p ∈ marked, ∀ m, (s.strm p.1 p.2).mark = some m →
            let u := t.strm p.1 p.2
            u.hart = m.hart ∧ u.fpm = m.fpm ∧ u.lists = m.lists ∧ u.remote = [] ∧ u.journal = [] ∧ u.mark = none ∧ u.saved = .run) ∧
          ((∀ p ∈ all, p ∉ marked → ∀ r ∈ (s.strm p.1 p.2).remote, r.kind.isPlan = true) → t.remoteBusy cl ctx = false) ∧
          t.hart.get d = if d = 0 then 0 else BitVec.ofNat 64 marked.length))) ∧
  (∀ (s : State) (core : Nat) (e : JEntry), core < 512 → (e.old.map (·.1)).Nodup →
    (e.tile = true → e.line < 0x20000 → Memory.wf (s.cluster (core / 4)).store = true →
      ∃ u, s.undo core e = .ok u ∧ u.hbm = s.hbm ∧ u.l2 = s.l2 ∧
        ∀ b ∈ e.old, memByte (u.cluster (core / 4)).store (64 * e.line + b.1) = b.2) ∧
    (e.tile = false → ∀ v, s.homeWrite e.line (some (s.ctxOf core)) e.old = .ok v →
      ∃ u, s.undo core e = .ok u ∧ u.hbm = v.hbm ∧ u.l2 = v.l2))

/-- A stream as it stands after SCIN: what it was saved as with STAT.YR clear, its clocks standing until every cluster of the context is back,
and then in its recorded state, a YIELDED one in RUN (R305). -/
def backIn (last : Bool) (saved : RunState) (st : RunState) : Prop :=
  st = if last then (if saved = .yielded then .run else saved) else .out

/-- R296, R301, R305: SCIN of a good image into a SAVED or RESTORING context shifts it in and answers 0, and the context is RUNNING when
its last cluster is back, RESTORING before; an image that fails its check answers the refusal and leaves the context SAVED. What comes
back is what the bytes laid out by R300 hold, STAT.YR clear; for a book of this part that is what its save kept, and what an image of
another leaves open is free (DESIGN CHOICE log 12). Codes 0x02, 0x05 and 0x03 refuse another state, a base that it may not use and masks that
are not owned (in this order: DESIGN CHOICE log 40). SCVER answers 0 for a good image and the image's refusal for another; SCVER.PART answers
the part's version. An image with a line that is lost makes each wait, one with a line in error is UE (R323, R365). -/
def restoresPart : Prop :=
  (∀ (g : Guard) (d a b : XReg) (s : State) (x y : Word) (cl ctx : Nat), station s g [a, b] [x, y] → targets s x cl ctx →
    ((s.ctx ctx).state ≠ .saved → (s.ctx ctx).state ≠ .restoring → refusedWith (.scin g d a b) s d 2) ∧
    ((s.ctx ctx).state = .saved ∨ (s.ctx ctx).state = .restoring →
      (y.toNat % 64 ≠ 0 ∨ s.ownsRange s.actingPart y.toNat 128 = false → refusedWith (.scin g d a b) s d 5) ∧
      (y.toNat % 64 = 0 → s.ownsRange s.actingPart y.toNat 128 = true →
        (∀ line s1, s.lookBook y.toNat = .error (.lost, line, s1) → exec (.scin g d a b) s = .next (s1.toWait (.memory line))) ∧
        (∀ line s1, s.lookBook y.toNat = .error (.poison, line, s1) →
          exec (.scin g d a b) s = .next (s1.take ⟨0x18, 0, BitVec.ofNat 64 (64 * line)⟩)) ∧
        ∀ s1, s.lookBook y.toNat = .ok s1 →
          (s1.masksOwned cl ctx y.toNat = false → refusedFrom (.scin g d a b) s s1 d 3) ∧
          (s1.masksOwned cl ctx y.toNat = true → s1.imgCheck y.toNat none = none →
            s1.ownsRange s1.actingPart y.toNat (s1.img y.toNat 32 8) = false → refusedFrom (.scin g d a b) s s1 d 5) ∧
          (s1.masksOwned cl ctx y.toNat = true →
            (s1.imgCheck y.toNat none = none → s1.ownsRange s1.actingPart y.toNat (s1.img y.toNat 32 8) = true) →
            (s1.imgCheck y.toNat (some (ctx, cl)) = none → ∀ last : Bool,
              (last = true ↔ ∀ c < 128, (s1.owner c ctx).core ≠ 0 → c = cl ∨ ctx ∈ (s1.cluster c).restored) →
              ∃ t, exec (.scin g d a b) s = .next t ∧ t.hart.get d = 0 ∧
                (t.ctx ctx).state = (if last then .running else .restoring) ∧
                (∀ v, s1.vault.find? (·.digest == BitVec.ofNat 256 (s1.img y.toNat 64 32)) = some v → (v.cores.map (·.1)).Nodup →
                  ∀ p ∈ v.cores, (s1.owner cl ctx).core.getLsbD p.1 = true → p.1 < 4 → ∀ st,
                    let u := t.strm (4 * cl + p.1) st
                    u.hart = { (p.2.strm st).hart with stat := setBit (p.2.strm st).hart.stat 6 false } ∧
                      u.lists = (p.2.strm st).lists ∧ backIn last (p.2.strm st).saved u.st) ∧
                (s1.vault.find? (·.digest == BitVec.ofNat 256 (s1.img y.toNat 64 32)) = none → s1.Wf →
                  (∀ k < 4, (s1.img y.toNat 11 1).testBit k = true →
                    (∀ st o, s1.segAt y.toNat 2 (4 * k + stIndex st) = some o →
                      let u := t.strm (4 * cl + k) st
                      let w (i : Nat) : Word := BitVec.ofNat 64 (s1.img y.toNat (o + i) 8)
                      (∀ i : Fin 64, u.hart.x[i] = w (8 * i)) ∧ u.hart.pc = w 512 ∧
                        u.hart.p = BitVec.ofNat 8 (s1.img y.toNat (o + 520) 1) ∧ u.hart.stat = w 528 &&& 0x37 ∧
                        u.tval = w 624 ∧ u.tepc = w 616 &&& 0x0FFFFFFFFFFFFFFF ∧
                        u.hart.shadow.take (min 256 (s1.img y.toNat (o + 2688) 4)) =
                          (List.range (min 256 (s1.img y.toNat (o + 2688) 4))).map (fun i => w (640 + 8 * i)) ∧
                        backIn last ([RunState.idle, .run, .wait, .held, .yielded, .halted, .arrived].getD
                          (s1.img y.toNat (o + 521) 1) .out) u.st) ∧
                    ∀ o, s1.segAt y.toNat 3 k = some o →
                      (∀ (j : Fin 16) (e : Fin 1024), (t.core (4 * cl + k)).v[j][e] =
                        BitVec.ofNat 32 (s1.img y.toNat (o + 4096 * j + 4 * e) 4)) ∧
                      ∀ j : Fin 8, (t.core (4 * cl + k)).masks[j] = BitVec.ofNat 1024 (s1.img y.toNat (o + 131072 + 128 * j) 128)) ∧
                  (∀ (n : Fin 64) (o : Nat), (s1.owner cl ctx).bank.getLsbD n = true → s1.segAt y.toNat 4 n = some o →
                    s1.img y.toNat (o + 0x20000) 1 ≠ 2 → (t.cluster cl).modes[n] = .tile ∧
                      ∀ j < 0x20000, (memByte (t.cluster cl).store (n * 0x20000 + j)).toNat = s1.img y.toNat (o + j) 1) ∧
                  (∀ n < 64, ∀ o, (s1.owner cl ctx).acm.getLsbD n = true → s1.segAt y.toNat 5 n = some o →
                    ∀ i < 5120, acmGet (t.cluster cl).acm (5120 * n + i) = BitVec.ofNat 96 (s1.img y.toNat (o + 12 * i) 12)))) ∧
            ∀ w, s1.imgCheck y.toNat (some (ctx, cl)) = some w →
              ∃ t, exec (.scin g d a b) s = .next t ∧ t.hart.get d = (if d = 0 then 0 else w) ∧ t.cores = s1.cores ∧
                (t.ctx ctx).state = .saved)))) ∧
  (∀ (g : Guard) (d a : XReg) (s : State) (x : Word), station s g [a] [x] →
    (x.toNat % 64 ≠ 0 ∨ s.ownsRange s.actingPart x.toNat 128 = false → answers (.scver g d a) s s d (refused 5)) ∧
    (x.toNat % 64 = 0 → s.ownsRange s.actingPart x.toNat 128 = true →
      (∀ line s1, s.lookBook x.toNat = .error (.lost, line, s1) → exec (.scver g d a) s = .next (s1.toWait (.memory line))) ∧
      (∀ line s1, s.lookBook x.toNat = .error (.poison, line, s1) →
        exec (.scver g d a) s = .next (s1.take ⟨0x18, 0, BitVec.ofNat 64 (64 * line)⟩)) ∧
      ∀ s1, s.lookBook x.toNat = .ok s1 →
        (∀ w, s1.imgCheck x.toNat none = some w → answers (.scver g d a) s s1 d w) ∧
        (s1.imgCheck x.toNat none = none → answers (.scver g d a) s s1 d
          (if s1.ownsRange s1.actingPart x.toNat (s1.img x.toNat 32 8) then 0 else refused 5))) ∧
    answers (.scverPart g d) s s d 0x00030001)

/-- R298: an x[a] with a nonzero reserved bit is refused with code 0x0B, and one that names a cluster or a context of another partition
with 0x01, by each instruction that takes a cluster and a context. -/
def targetRefusalsPart : Prop :=
  ∀ (g : Guard) (d a b : XReg) (s : State) (x y : Word), station s g [a, b] [x, y] →
    ∀ i ∈ [Instr.scoutStop g d a, .scoutResume g d a, .scoutShift g d a b, .scin g d a b, .cutb g d a, .ownsetBank g d a b,
        .ownsetAcm g d a b],
      (x.extractLsb' 23 41 ≠ 0 ∨ x.extractLsb' 10 6 ≠ 0 → refusedWith i s d 0x0B) ∧
      (x.extractLsb' 23 41 = 0 → x.extractLsb' 10 6 = 0 →
        (s.part s.actingPart).pclu.getLsbD (x.extractLsb' 16 7).toNat = false ∨ (s.ctx (x.extractLsb' 0 10).toNat).part ≠ s.actingPart →
          refusedWith i s d 1)

end Sys2Proof.Statements

/-- R192, R296, R298 to R301, R303, R305, R306, R309, R365, R378: a context's cores stopped, saved, restored and cut back. The model's own
choices among this are named in the parts (logs 12, 40 and 41). -/
def Obligations.StopSaveAndRestore : Prop :=
  stopAndResumePart ∧ fieldBookPart ∧ savesAndCutsPart ∧ restoresPart ∧ targetRefusalsPart

/-- R84, R297, R298, R308, R310, R311: OWNSET answers the old mask and replaces it, refusing a resource that another context owns (0x03) and one taken
from a kernel that runs (0x02); PREQ sets
or clears STAT.YR in every stream of the context's kernels and moves it between RUNNING and YIELDING, and PREQ.SET answers how many of
them are not at a safe point (R84); IDEM places the journal area of an IDLE context, of no other partition (0x01); TMARK answers the
commands in the core's replay window and TMARK.F begins a new one. The model's own here: OWNSET tests 0x03 before 0x02, IDEM 0x02 before
0x05 and no ownership at base 0 (DESIGN CHOICE log 40), and the clear bit 63 of PREQ.CLR's answer (DEDUCED log 41). -/
def Obligations.OwnersAndRequests : Prop :=
  (∀ (g : Guard) (d a b : XReg) (s : State) (x m : Word) (cl ctx : Nat), station s g [a, b] [x, m] → targets s x cl ctx →
    ((∀ o ∈ (s.cluster cl).owners, o.1 ≠ ctx → o.2.bank &&& m = 0) →
      ((s.owner cl ctx).bank &&& ~~~m ≠ 0 → s.runsIn cl ctx = true → answers (.ownsetBank g d a b) s s d (refused 2)) ∧
      ((s.owner cl ctx).bank &&& ~~~m = 0 ∨ s.runsIn cl ctx = false →
      ∃ t, exec (.ownsetBank g d a b) s = .next t ∧ t.hart.get d = (if d = 0 then 0 else (s.owner cl ctx).bank) ∧
        (t.owner cl ctx).bank = m ∧ (t.owner cl ctx).core = (s.owner cl ctx).core ∧ (t.owner cl ctx).acm = (s.owner cl ctx).acm ∧
        (∀ c, c ≠ ctx → t.owner cl c = s.owner cl c) ∧ t.cores = s.cores ∧ (t.cluster cl).tiles = (s.cluster cl).tiles ∧
        (t.cluster cl).store = (s.cluster cl).store)) ∧
    ((∃ o ∈ (s.cluster cl).owners, o.1 ≠ ctx ∧ o.2.bank &&& m ≠ 0) → answers (.ownsetBank g d a b) s s d (refused 3)) ∧
    ((∀ o ∈ (s.cluster cl).owners, o.1 ≠ ctx → o.2.acm &&& m = 0) →
      ((s.owner cl ctx).acm &&& ~~~m ≠ 0 → s.runsIn cl ctx = true → answers (.ownsetAcm g d a b) s s d (refused 2)) ∧
      ((s.owner cl ctx).acm &&& ~~~m = 0 ∨ s.runsIn cl ctx = false →
      ∃ t, exec (.ownsetAcm g d a b) s = .next t ∧ t.hart.get d = (if d = 0 then 0 else (s.owner cl ctx).acm) ∧
        (t.owner cl ctx).acm = m ∧ (t.owner cl ctx).core = (s.owner cl ctx).core ∧ (t.owner cl ctx).bank = (s.owner cl ctx).bank ∧
        (∀ c, c ≠ ctx → t.owner cl c = s.owner cl c) ∧ t.cores = s.cores)) ∧
    ((∃ o ∈ (s.cluster cl).owners, o.1 ≠ ctx ∧ o.2.acm &&& m ≠ 0) → answers (.ownsetAcm g d a b) s s d (refused 3)) ∧
    (16 ≤ m.toNat → answers (.ownsetCore g d a b) s s d (refused 0x0B)) ∧
    (m.toNat < 16 → (∃ o ∈ (s.cluster cl).owners, o.1 ≠ ctx ∧ o.2.core &&& m.setWidth 4 ≠ 0) →
      answers (.ownsetCore g d a b) s s d (refused 3)) ∧
    (m.toNat < 16 → (∀ o ∈ (s.cluster cl).owners, o.1 ≠ ctx → o.2.core &&& m.setWidth 4 = 0) →
      ((s.owner cl ctx).core &&& ~~~m.setWidth 4 ≠ 0 → s.runsIn cl ctx = true → answers (.ownsetCore g d a b) s s d (refused 2)) ∧
      ((s.owner cl ctx).core &&& ~~~m.setWidth 4 = 0 ∨ s.runsIn cl ctx = false →
      ∃ t, exec (.ownsetCore g d a b) s = .next t ∧ t.hart.get d = (if d = 0 then 0 else (s.owner cl ctx).core.setWidth 64) ∧
        (t.owner cl ctx).core = m.setWidth 4 ∧ (t.owner cl ctx).bank = (s.owner cl ctx).bank ∧
        (t.owner cl ctx).acm = (s.owner cl ctx).acm ∧ ∀ c, c ≠ ctx → t.owner cl c = s.owner cl c))) ∧
  (∀ (g : Guard) (d a : XReg) (s : State) (x : Word) (ctx : Nat), station s g [a] [x] → targetsCtx s x ctx →
    ((s.ctx ctx).state = .running ∨ (s.ctx ctx).state = .yielding →
      (∃ t, exec (.preqSet g d a) s = .next t ∧ (t.ctx ctx).state = .yielding ∧
        t.hart.get d = (if d = 0 then 0 else BitVec.ofNat 64 ((s.kernelCores ctx).flatMap fun c => [StreamId.A, .X, .M, .C].filter fun st =>
          !(decide ((s.strm c st).st ∈ [RunState.yielded, .arrived, .halted, .idle]) && (s.strm c st).loads.isEmpty &&
            (s.strm c st).remote.isEmpty)).length) ∧
        ∀ c < 512, c ∈ s.kernelCores ctx → ∀ st, (t.strm c st).hart.stat = setBit (s.strm c st).hart.stat 6 true ∧
          (t.strm c st).st = (s.strm c st).st) ∧
      ∃ t, exec (.preqClr g d a) s = .next t ∧ (t.ctx ctx).state = .running ∧ (d ≠ 0 → (t.hart.get d).getLsbD 63 = false) ∧
        ∀ c < 512, c ∈ s.kernelCores ctx → ∀ st, (t.strm c st).hart.stat = setBit (s.strm c st).hart.stat 6 false ∧
          (t.strm c st).st = if (s.strm c st).st = .yielded then .run else (s.strm c st).st) ∧
    ((s.ctx ctx).state ≠ .running → (s.ctx ctx).state ≠ .yielding → answers (.preqSet g d a) s s d (refused 2) ∧
      answers (.preqClr g d a) s s d (refused 2))) ∧
  (∀ (g : Guard) (d a b : XReg) (s : State) (x y : Word), station s g [a, b] [x, y] →
    let ctx := (x.extractLsb' 0 10).toNat
    let k := (x.extractLsb' 16 3).toNat
    (x.extractLsb' 19 45 ≠ 0 ∨ x.extractLsb' 10 6 ≠ 0 ∨ 4 < k → answers (.idem g d a b) s s d (refused 0x0B)) ∧
    (x.extractLsb' 19 45 = 0 → x.extractLsb' 10 6 = 0 → k ≤ 4 → (s.ctx ctx).part ≠ s.actingPart →
      answers (.idem g d a b) s s d (refused 1)) ∧
    (x.extractLsb' 19 45 = 0 → x.extractLsb' 10 6 = 0 → k ≤ 4 → (s.ctx ctx).part = s.actingPart →
      ((s.ctx ctx).state ≠ .idle → answers (.idem g d a b) s s d (refused 2)) ∧
      ((s.ctx ctx).state = .idle →
        (y.toNat % 65536 ≠ 0 ∨ (y ≠ 0 ∧ s.ownsRange s.actingPart y.toNat (2048 * 4096 * 2 ^ k) = false) →
          answers (.idem g d a b) s s d (refused 5)) ∧
    (y.toNat % 65536 = 0 → (y = 0 ∨ s.ownsRange s.actingPart y.toNat (2048 * 4096 * 2 ^ k) = true) →
      ∃ t, exec (.idem g d a b) s = .next t ∧ t.hart.get d = (if d = 0 then 0 else BitVec.ofNat 64 (s.ctx ctx).jbase) ∧
        (t.ctx ctx).jbase = y.toNat ∧ (t.ctx ctx).jk = k ∧ (∀ c, c ≠ ctx → t.ctx c = s.ctx c) ∧ t.cores = s.cores)))) ∧
  (∀ (g : Guard) (d a : XReg) (s : State) (x : Word), station s g [a] [x] → x.extractLsb' 26 38 = 0 → x.getLsbD 23 = false →
    x.extractLsb' 0 16 = 0 → (s.part s.actingPart).pclu.getLsbD (x.extractLsb' 16 7).toNat = true →
      let core := 4 * (x.extractLsb' 16 7).toNat + (x.extractLsb' 24 2).toNat
      answers (.tmarkQ g d a) s s d (BitVec.ofNat 64 (s.core core).window.length) ∧
      ∃ t, exec (.tmarkF g d a) s = .next t ∧ (t.core core).window = [] ∧ (t.core core).winHold = true ∧
        t.hart.get d = if d = 0 then 0 else BitVec.ofNat 64 (s.core core).window.length)

namespace Sys2Proof.Statements

/-- R318, R325, R329: the four TLBI drop the translations they name in the partition's clusters and no other, and answer 0 when no remote
request that used one of them is unanswered, and else wait; TLBI.PTE also takes the entry's address off the bad-entry lists of the
partition's dies; ATSI.Q counts a context's outstanding requests, and ATSI.F drops its host translations and completes when none is
outstanding. A context of another partition is refused with code 0x01, a nonzero reserved bit with 0x0B. -/
def translationControlPart : Prop :=
  (∀ (g : Guard) (d a b : XReg) (s : State) (x y : Word) (ctx : Nat), station s g [a, b] [x, y] → targetsCtx s x ctx → s.stationWait = none →
    let left (t : State) (f : TlbEntry → Bool) : Prop := t.cores = s.cores ∧
      (∀ c, { t.ctx c with atsStale := [] } = { s.ctx c with atsStale := [] }) ∧ ∀ cl < 128, (t.cluster cl).tlb =
        if (s.part s.actingPart).pclu.getLsbD cl then (s.cluster cl).tlb.filter (fun e => !f e) else (s.cluster cl).tlb
    let drops (i : Instr) (f : TlbEntry → Bool) : Prop :=
      (s.entryUsers s.actingPart f = [] → ∃ t, exec i s = .next t ∧ t.hart.get d = 0 ∧ left t f) ∧
      (s.entryUsers s.actingPart f ≠ [] → ∃ t, exec i s = .next t ∧ t.hart = s.hart ∧ left t f ∧
        t.stationWait = some (.requests (s.entryUsers s.actingPart f) false))
    drops (.tlbiPage g d a b) (fun e => decide (e.ctx = ctx) && (decide (e.va ≤ y.toNat) && decide (y.toNat < e.va + e.size))) ∧
    drops (.tlbiCtx g d a) (fun e => decide (e.ctx = ctx)) ∧ drops (.tlbiAll g d) (fun _ => true) ∧
    drops (.tlbiPte g d b) (fun _ => true) ∧
    (∃ t, exec (.tlbiPte g d b) s = .next t ∧ ∀ di < 8, (t.die di).bad =
      if (List.range 16).any fun j => (s.part s.actingPart).pclu.getLsbD (16 * di + j) then (s.die di).bad.filter (· ≠ y.toNat)
      else (s.die di).bad) ∧
    answers (.atsiQ g d a) s s d (BitVec.ofNat 64 ((s.ctx ctx).pri.length * 2 ^ 32 + (s.ctx ctx).ats.length)) ∧
    (let f (e : TlbEntry) : Bool := decide (e.ctx = ctx) && e.host
     ((s.ctx ctx).ats = [] → (s.ctx ctx).pri = [] → ∃ t, exec (.atsiF g d a) s = .next t ∧ t.hart.get d = 0 ∧ left t f) ∧
     ((s.ctx ctx).ats ≠ [] ∨ (s.ctx ctx).pri ≠ [] → ∃ t, exec (.atsiF g d a) s = .next t ∧ t.hart = s.hart ∧ left t f ∧
       t.stationWait = some (.atsAnswers ((s.ctx ctx).ats.length + (s.ctx ctx).pri.length))))) ∧
  (∀ (g : Guard) (d a b : XReg) (s : State) (x y : Word), station s g [a, b] [x, y] →
    ∀ i ∈ [Instr.tlbiPage g d a b, .tlbiCtx g d a, .atsiQ g d a, .atsiF g d a],
      (x.extractLsb' 10 54 ≠ 0 → answers i s s d (refused 0x0B)) ∧
      (x.extractLsb' 10 54 = 0 → (s.ctx (x.extractLsb' 0 10).toNat).part ≠ s.actingPart → answers i s s d (refused 1))) ∧
  (∀ (g : Guard) (d : XReg) (s : State) (l : List Nat) (h : Bool), station s g [] [] → s.stationWait = some (.requests l h) →
    (∀ t ∈ l, ∀ r ∈ s.allRemote, r.2.tag ≠ t) → answers (.tlbiAll g d) s s d 0)

/-- A dirty line whose data can be written back, HBM being in canonical form and no line of the plat aperture resident, which would share
its bytes (R205, R323, R366). -/
def writesBack (s : State) (l : L2Line) : Prop :=
  l.dirty = true ∧ l.inj ≠ .tague ∧ l.inj ≠ .l2ue ∧ Memory.wf s.hbm = true ∧ ∀ e ∈ s.l2, 64 * e.1 < 2 ^ 51

/-- R326 to R328, R368: PGRET enters a page of the partition's HBM in its stack's list of 256 and answers the entries left, its lines gone from
L2, written back or, with .DROP, discarded; WAYQ takes a home way of a slice of the partition out of use, its dirty lines written back, and
answers the ways left; it refuses a reserved bit (0x0B), a slice of another partition (0x01), a way of the staging part (0x0A) and a
slice with four ways gone (0x07), whose home part it fences; INJ puts an error in a line that is resident, or in HBM. That 0x07 answers
even a way that is gone already, and where in HBM INJ.HBMUE puts its error, is the model's reading (DEDUCED log 43). -/
def memoryRepairsPart : Prop :=
  ∀ (g : Guard) (d a : XReg) (s : State) (x : Word), station s g [a] [x] →
    let st := x.toNat / (16 * 0x140000000)
    let old := s.retired.getD st []
    (x.toNat % 65536 ≠ 0 → answers (.pgret g d a) s s d (refused 5) ∧ answers (.pgretDrop g d a) s s d (refused 5)) ∧
    (s.ownsByte s.actingPart x.toNat = false → answers (.pgret g d a) s s d (refused 5) ∧ answers (.pgretDrop g d a) s s d (refused 5)) ∧
    (x.toNat % 65536 = 0 → s.ownsByte s.actingPart x.toNat = true →
      (256 ≤ old.length → answers (.pgret g d a) s s d (refused 7) ∧ answers (.pgretDrop g d a) s s d (refused 7)) ∧
      (old.length < 256 → x.toNat / 65536 ∈ old → ∀ i ∈ [Instr.pgret g d a, .pgretDrop g d a], ∃ t, exec i s = .next t ∧
        t.retired.getD st [] = old ∧ t.hart.get d = if d = 0 then 0 else BitVec.ofNat 64 (256 - old.length)) ∧
      (old.length < 256 → x.toNat / 65536 ∉ old →
        (∃ t, exec (.pgret g d a) s = .next t ∧ t.retired.getD st [] = old ++ [x.toNat / 65536] ∧
          t.hart.get d = (if d = 0 then 0 else BitVec.ofNat 64 (255 - old.length)) ∧
          (∀ j < 1024, t.l2At (x.toNat / 64 + j) = none) ∧
          ∀ j < 1024, ∀ l, s.l2At (x.toNat / 64 + j) = some l → writesBack s l → ∀ i < 64,
            memByte t.hbm (x.toNat + 64 * j + i) = l.data.extractLsb' (8 * i) 8) ∧
        ∃ t, exec (.pgretDrop g d a) s = .next t ∧ t.retired.getD st [] = old ++ [x.toNat / 65536] ∧
          t.hart.get d = (if d = 0 then 0 else BitVec.ofNat 64 (255 - old.length)) ∧ t.hbm = s.hbm ∧
          ∀ j < 1024, t.l2At (x.toNat / 64 + j) = none)) ∧
    (∀ (sl w : Nat), x.extractLsb' 10 54 = 0 → sl = (x.extractLsb' 4 6).toNat → w = (x.extractLsb' 0 4).toNat →
      ((s.part s.actingPart).pslice.getLsbD sl = false → answers (.wayq g d a) s s d (refused 1)) ∧
      ((s.part s.actingPart).pslice.getLsbD sl = true →
      (w < (s.part s.actingPart).pstage → answers (.wayq g d a) s s d (refused 0x0A)) ∧
      ((s.part s.actingPart).pstage ≤ w → 4 ≤ (s.slice sl).quarantined.length →
        ∃ t, exec (.wayq g d a) s = .next t ∧ t.hart.get d = (if d = 0 then 0 else refused 7) ∧
          (t.slice sl).quarantined = (s.slice sl).quarantined ∧ (t.slice sl).homeFenced = true ∧
          ((s.slice sl).homeFenced = false → ∀ e ∈ t.l2, e.2.slice ≠ sl)) ∧
      ((s.part s.actingPart).pstage ≤ w → (s.slice sl).quarantined.length < 4 → s.ownerOfSlice sl = some s.actingPart →
        let gone := if w ∈ (s.slice sl).quarantined then (s.slice sl).quarantined else (s.slice sl).quarantined ++ [w]
        ∃ t, exec (.wayq g d a) s = .next t ∧ (t.slice sl).quarantined = gone ∧ (∀ e ∈ t.l2, ¬(e.2.slice = sl ∧ e.2.way = w)) ∧
          t.hart.get d = (if d = 0 then 0 else BitVec.ofNat 64
            ((List.range 16).filter fun v => decide ((s.part s.actingPart).pstage ≤ v) && !gone.contains v).length) ∧
          ∀ ln l, s.l2At ln = some l → l.slice = sl → l.way = w → writesBack s l → ∀ i < 64,
            memByte t.hbm (64 * ln + i) = l.data.extractLsb' (8 * i) 8) ∧
      ((s.part s.actingPart).pstage ≤ w → (s.slice sl).quarantined.length < 4 → w ∉ (s.slice sl).quarantined →
        (∀ l ∈ s.l2, ¬(l.2.slice = sl ∧ l.2.way = w)) →
          ∃ t, exec (.wayq g d a) s = .next t ∧ (t.slice sl).quarantined = (s.slice sl).quarantined ++ [w] ∧ t.l2 = s.l2))) ∧
    (x.extractLsb' 10 54 ≠ 0 → answers (.wayq g d a) s s d (refused 0x0B)) ∧
    (x.toNat % 64 ≠ 0 ∨ (∃ j < 64, s.ownsByte s.actingPart (s.hbmAddr (x.toNat + j)) = false) →
      ∀ i ∈ [Instr.injL2ce g d a, .injL2ue g d a, .injHbmue g d a], answers i s s d (refused 5)) ∧
    (x.toNat % 64 = 0 → (∀ j < 64, s.ownsByte s.actingPart (s.hbmAddr (x.toNat + j)) = true) →
      (s.l2At (x.toNat / 64) = none → answers (.injL2ce g d a) s s d (refused 8) ∧ answers (.injL2ue g d a) s s d (refused 8)) ∧
      (∀ l, s.l2At (x.toNat / 64) = some l →
        (∃ t, exec (.injL2ce g d a) s = .next t ∧ t.hart.get d = 0 ∧ t.l2At (x.toNat / 64) = some { l with inj := .l2ce }) ∧
        ∃ t, exec (.injL2ue g d a) s = .next t ∧ t.hart.get d = 0 ∧ t.l2At (x.toNat / 64) = some { l with inj := .l2ue }) ∧
      ∃ t, exec (.injHbmue g d a) s = .next t ∧ t.hart.get d = 0 ∧ s.hbmAddr x.toNat / 64 ∈ t.badHbm ∧ t.l2 = s.l2)

end Sys2Proof.Statements

/-- R318, R325 to R329, R368: translations dropped, pages and ways retired, errors injected. -/
def Obligations.TranslationAndRepairs : Prop := translationControlPart ∧ memoryRepairsPart

namespace Sys2Proof.Statements

/-- R125: QPOP writes an intake's next value to x[d] and its number to x[b], bit 63 set when the intake is empty; QACK commits the entries up
to a number that it names, and answers all ones for another; QREF answers SQSTAT or SQDROP; a queue that is not the partition's
answers all ones in each. That x[b]'s write is the later one where both name one register, and that a nonzero bit above the id names no
queue, is the model's choice (DESIGN CHOICE log 79). -/
def intakeInstructionsPart : Prop :=
  ∀ (g : Guard) (d a b : XReg) (s : State) (x y : Word), station s g [a, b] [x, y] →
    (∀ q : SubQueue, x.toNat < 1024 → s.queue? s.actingPart x.toNat = some q → q.part = s.actingPart → q.id = x.toNat →
      (∀ v rest, q.intake = v :: rest → exec (.qpop g d b a) s =
        .next ((s.setHart ((s.hart.put d v).put b ((q.commit + 1).setWidth 64))).advance 1)) ∧
      (q.intake = [] → exec (.qpop g d b a) s =
        .next ((s.setHart ((s.hart.put d 0).put b (1#1 ++ 0#31 ++ (q.commit + 1)))).advance 1)) ∧
      (∀ n : BitVec 32, n = y.setWidth 32 → 1 ≤ (n - q.commit).toNat → (n - q.commit).toNat ≤ q.intake.length →
        answers (.qack g d a b) s (s.updQueue q.part q.id fun _ =>
          { q with intake := q.intake.drop (n - q.commit).toNat, commit := n }) d (n.setWidth 64)) ∧
      (y.setWidth 32 = q.commit ∨ q.intake.length < (y.setWidth 32 - q.commit).toNat →
        answers (.qack g d a b) s s d (BitVec.allOnes 64)) ∧
      (q.intake.length ≤ 256 →
        answers (.qref g d a false) s s d (BitVec.ofBool q.ovf ++ BitVec.ofNat 31 q.intake.length ++ q.commit) ∧
        answers (.qref g d a true) s s d (q.dcount ++ q.lowdrop))) ∧
    (1024 ≤ x.toNat ∨ s.queue? s.actingPart x.toNat = none →
      answers (.qack g d a b) s s d (BitVec.allOnes 64) ∧ (∀ drop, answers (.qref g d a drop) s s d (BitVec.allOnes 64)) ∧
      exec (.qpop g d b a) s =
        .next ((s.setHart ((s.hart.put d (BitVec.allOnes 64)).put b (BitVec.allOnes 64))).advance 1))

/-- R124, R132 to R134, R294: SLOTCHK answers 0 for a packet that passes the residency check and the first failing code for another, with
no kernel added; RELOC of a packet that passes hands a kernel to the scheduler, remembers its number, and answers 0, and 1 when the
number was handed off before; one of a packet that fails answers the code with bit 63 set, and one that names no queue of the context
all ones; POLRUN runs one event of the context's policy, of the default one when it has none, and answers all
ones for event 3. The model's own here: that numbers compare by the sign of their difference (DESIGN CHOICE log 79), the answer of a RELOC
of a queue that is absent (DEDUCED log 27) and the form of POLRUN's inputs (DEDUCED log 57). -/
def handoffInstructionsPart : Prop :=
  ∀ (g : Guard) (d a b : XReg) (s : State) (x y : Word), station s g [a, b] [x, y] →
    let part := (y.extractLsb' 10 4).toNat
    let ctx := (y.extractLsb' 0 10).toNat
    (∀ k s1, s.checkAt ⟨part, ctx, 0, 0, 0⟩ x none none = .ok (k, s1) → s1.cur = s.cur →
      answers (.slotchk g d a b) s { s1 with kernels := s.kernels } d 0) ∧
    (∀ c s1, s.checkAt ⟨part, ctx, 0, 0, 0⟩ x none none = .error (some c, s1) → s1.cur = s.cur →
      answers (.slotchk g d a b) s s1 d (BitVec.ofNat 64 c)) ∧
    (∀ s1, s.checkAt ⟨part, ctx, 0, 0, 0⟩ x none none = .error (none, s1) →
      exec (.slotchk g d a b) s = .next (s1.toWait (.memory x.toNat))) ∧
    (y.extractLsb' 30 2 ≠ 0 ∨ y.extractLsb' 14 2 ≠ 0 ∨ s.queue? part (y.extractLsb' 20 10).toNat = none ∨
        (∃ q, s.queue? part (y.extractLsb' 20 10).toNat = some q ∧ q.ctx ≠ ctx) →
      answers (.reloc g d a b) s s d (BitVec.allOnes 64)) ∧
    (∀ (q : SubQueue) (c : Nat) (s1 : State), y.extractLsb' 30 2 = 0 → y.extractLsb' 14 2 = 0 →
      s.queue? part (y.extractLsb' 20 10).toNat = some q → q.ctx = ctx →
      s.checkAt ⟨part, q.ctx, q.id, y.extractLsb' 32 32, (y.extractLsb' 16 4).toNat⟩ x (q.valueOf (y.extractLsb' 32 32))
        (if q.fast then some q.bound else none) = .error (some c, s1) → s1.cur = s.cur →
          answers (.reloc g d a b) s s1 d (BitVec.ofNat 64 (2 ^ 63 + c))) ∧
    (∀ (q : SubQueue) (k : Kernel) (s1 : State), y.extractLsb' 30 2 = 0 → y.extractLsb' 14 2 = 0 →
      s.queue? part (y.extractLsb' 20 10).toNat = some q → q.ctx = ctx →
      s.checkAt ⟨part, q.ctx, q.id, y.extractLsb' 32 32, (y.extractLsb' 16 4).toNat⟩ x (q.valueOf (y.extractLsb' 32 32))
        (if q.fast then some q.bound else none) = .ok (k, s1) → s1.cur = s.cur →
      ((∀ h, q.handed = some h → 0 < (y.extractLsb' 32 32 - h).toInt) →
        answers (.reloc g d a b) s
          (({ s1 with kernels := s1.kernels ++ [k], nextKernel := s1.nextKernel + 1 } : State).updQueue part q.id fun q =>
            { q with handed := some (y.extractLsb' 32 32) }) d 0) ∧
      (∀ h, q.handed = some h → (y.extractLsb' 32 32 - h).toInt ≤ 0 → answers (.reloc g d a b) s s1 d 1)) ∧
    (x.extractLsb' 12 2 = 3 → answers (.polrun g d a b) s s d (BitVec.allOnes 64)) ∧
    (∀ ins s1, s.polInputs y 5 = .ok (ins, s1) → s1.cur = s.cur → (s1.ctx (x.extractLsb' 0 10).toNat).policy = none →
      (x.extractLsb' 12 2 = 0 → answers (.polrun g d a b) s s1 d 1) ∧ (x.extractLsb' 12 2 = 2 → answers (.polrun g d a b) s s1 d 0) ∧
      (x.extractLsb' 12 2 = 1 → answers (.polrun g d a b) s s1 d ((ins.getD 2 0).setWidth 64))) ∧
    (∀ ins s1 p, s.polInputs y 5 = .ok (ins, s1) → s1.cur = s.cur → (s1.ctx (x.extractLsb' 0 10).toNat).policy = some p → x.extractLsb' 12 2 ≠ 3 →
      let m := PolMachine.run ins 256 (match (x.extractLsb' 12 2).toNat with | 0 => p.enq | 1 => p.pick | _ => p.slice)
        ⟨Vector.replicate 8 0, (s1.ctx (x.extractLsb' 0 10).toNat).polState⟩
      answers (.polrun g d a b) s (s1.updCtx (x.extractLsb' 0 10).toNat fun c => { c with polState := m.st }) d
        (m.g.getD 1 0 ++ m.g.getD 0 0))

/-- R336 to R338: with no request outstanding LKEY.OWN loads the partition's own key and answers the old one, or bit 62 for none; LKEY.ACC
adds a key to a list of 16 and answers the places left; LREVK takes a key off the list, waits until no accepted request with it is open,
and answers how many there were; a key not in the list is refused with 0x09. Another partition's number is refused with 0x01 (DEDUCED
log 59). -/
def keyInstructionsPart : Prop :=
  ∀ (g : Guard) (d a : XReg) (s : State) (x : Word), station s g [a] [x] → x.extractLsb' 14 50 = 0 → x.getLsbD 9 = false →
    let p := (x.extractLsb' 10 4).toNat
    let k := x.extractLsb' 0 9
    (p ≠ s.actingPart → answers (.lkeyOwn g d a) s s d (refused 1) ∧ answers (.lkeyAcc g d a) s s d (refused 1) ∧
      answers (.lrevk g d a) s s d (refused 1)) ∧
    (p = s.actingPart →
      (s.requestsOut p = true → answers (.lkeyOwn g d a) s s d (refused 2)) ∧
      (s.requestsOut p = false → answers (.lkeyOwn g d a) s (s.updPart p fun q => { q with ownKey := some k }) d
        (match (s.part p).ownKey with | some o => o.setWidth 64 | none => 0x4000000000000000)) ∧
      (k ∈ (s.part p).accept → answers (.lkeyAcc g d a) s s d (BitVec.ofNat 64 (16 - (s.part p).accept.length))) ∧
      (k ∉ (s.part p).accept → (s.part p).accept.length < 16 →
        answers (.lkeyAcc g d a) s (s.updPart p fun q => { q with accept := (s.part p).accept ++ [k] }) d
          (BitVec.ofNat 64 (15 - (s.part p).accept.length))) ∧
      (k ∉ (s.part p).accept → 16 ≤ (s.part p).accept.length → answers (.lkeyAcc g d a) s s d (refused 7)) ∧
      (s.stationWait = none → k ∉ (s.part p).accept → answers (.lrevk g d a) s s d (refused 9)) ∧
      (s.stationWait = none → k ∈ (s.part p).accept → (∀ r ∈ s.incoming, ¬(r.part = p ∧ r.key = k)) →
        answers (.lrevk g d a) s (s.updPart p fun q => { q with accept := q.accept.filter (· ≠ k) }) d 0) ∧
      let n := (s.incoming.filter fun r => decide (r.part = p ∧ r.key = k)).length
      (s.stationWait = none → k ∈ (s.part p).accept → n ≠ 0 → exec (.lrevk g d a) s =
        .next ((s.updPart p fun q => { q with accept := q.accept.filter (· ≠ k) }).toWait (.acceptedKey n))) ∧
      ∀ m, s.stationWait = some (.acceptedKey m) →
        (n ≠ 0 → exec (.lrevk g d a) s = .next (s.toWait (.acceptedKey m))) ∧
        (n = 0 → answers (.lrevk g d a) s s d (BitVec.ofNat 64 m)))

end Sys2Proof.Statements

/-- R124, R125, R132 to R134, R294, R336 to R338: the instructions of the intakes, of slots and policies, and of keys. The model's own choices
among this are named in the parts (logs 27, 57, 59 and 79). -/
def Obligations.FirmwareInstructions : Prop := intakeInstructionsPart ∧ handoffInstructionsPart ∧ keyInstructionsPart

/-! ## Events of the engines and streams (R79, R84, R94, R99, R128 to R131, R147, R150, R222, R225, R236, R310, R319, R320, R350) -/

namespace Sys2Proof.Statements

/-- A core whose clocks run (R296, R303). -/
def running (s : State) (core : Nat) : Prop := core < 512 ∧ s.clocked core = true

/-- The context of a core is being terminated. -/
def ending (t s : State) (core : Nat) : Prop := (t.ctx (s.ctxOf core)).state = .terminating

/-- A queue of engine commands no longer holds a command number. -/
def offQueue (q : List QEntry) (seq : Nat) : Prop := ∀ e ∈ q, e.seq ≠ seq

/-- A trap of an uncorrectable error of a cluster store, the core's own or a peer's (R310). -/
def storeUe (t : Trap) : Bool := t.cause == cUE && (spaceTag t.tval == 1 || spaceTag t.tval == 3)

/-- A running MGO is abandoned: it is gone, its queue no longer holds it, and MSTAT and M's next trap record the fault (R223, R237). -/
def abandoned (t : State) (core seq : Nat) (tr : Trap) : Prop :=
  (∀ x ∈ (t.core core).array.running, x.seq ≠ seq) ∧ offQueue (t.core core).matQ seq ∧ (t.core core).array.fault = true ∧
    (t.core core).array.fsub = tr.cause ∧ (t.core core).array.pendFault = some tr

/-- R55, R128, R138, R147 to R149, R310: the copy at the head of the queue issues, claiming its ranges, when the ones before it have been
expanded (as log 85, DEDUCED, reads R55), its tile can be read, the peers that it names run, and its ranges are free; until then it stays; a
tile that changed since its push or a range that it may not use is then a context fault. An issued copy does the executions that the event
lets it (how many is the model's free choice, DESIGN CHOICE log 18), and leaves the queue with its last; it goes on later where one is left
or waits, is held by a page fault or by an error of a cluster store, and another fault stops its engine and ends its context. -/
def copyEvents : Prop :=
  ∀ (s : State) (core : Nat), running s core → (s.core core).copyStopped = none → (s.core core).ueHeld = false →
    (∀ (q : QEntry) (c : CopyCmd), headOf (s.core core).copyQ = some q → q.cmd = .copy c →
      let s1 := ({ s with cur := .stream core q.by_ } : State).copyWalks c
      let rs := s1.copyRanges c core q.seq
      let stops : Prop := ∃ t, exec (.evCopyIssue core) s = .next t ∧ ending t s core ∧ (t.core core).copyStopped.isSome = true
      ((∃ e ∈ (s.core core).copyQ, e.expanded = false) ∨ s1.tileReadable c = false ∨ s1.peerStopped c = true ∨
          (s1.copyRemote c = true ∧ s1.markRoom core q.by_ = false) ∨ s1.claim core rs = none →
        exec (.evCopyIssue core) s = .next s) ∧
      ((∀ e ∈ (s.core core).copyQ, e.expanded = true) → s1.tileReadable c = true → s1.peerStopped c = false →
        s1.copyRemote c = false ∨ s1.markRoom core q.by_ = true → (s1.claim core rs).isSome = true →
          (s1.tileSame c = false → stops) ∧ (∀ y, s1.copyBroken c = some y → stops) ∧
          (s1.tileSame c = true → s1.copyBroken c = none → ∃ t, exec (.evCopyIssue core) s = .next t ∧
            ∃ e ∈ (t.core core).copyQ, e = { q with issued := true, ranges := rs }))) ∧
    ∀ (seq n : Nat) (q : QEntry) (c c1 : CopyCmd) (p : Prog) (s1 : State),
      (s.core core).copyQ.find? (fun e => e.seq == seq && e.issued) = some q → q.cmd = .copy c →
      let run := ({ s with cur := .stream core q.by_ } : State).copyPart ⟨false, seq⟩ c q.prog n
      let kept (p : Prog) : State := s1.updCore core fun x =>
        { x with copyQ := x.copyQ.map fun e => if e.seq == seq then { q with cmd := .copy c1, prog := p } else e }
      (run = (c1, p, .over, s1) →
        ∃ t, exec (.evCopyComplete core seq n) s = .next t ∧ offQueue (t.core core).copyQ seq ∧ t.hbm = s1.hbm ∧ t.l2 = s1.l2 ∧
          t.host = s1.host ∧ ∀ cl, (t.cluster cl).store = (s1.cluster cl).store) ∧
      (run = (c1, p, .busy, s1) → exec (.evCopyComplete core seq n) s = .next (kept p)) ∧
      ∀ tr, run = (c1, p, .fault tr, s1) →
        (tr.cause = cPAGE ∨ storeUe tr = true → exec (.evCopyComplete core seq n) s =
          .next ((kept ⟨none, 0⟩).updCore core fun x => { x with copyStopped := some tr })) ∧
        (tr.cause ≠ cPAGE → storeUe tr = false → (s1.ctx (s.ctxOf core)).state ≠ .free → s1.ctxOf core = s.ctxOf core →
          ∃ t, exec (.evCopyComplete core seq n) s = .next t ∧ ending t s core ∧ (t.core core).copyStopped = some tr)

/-- R128, R130, R131: an FSET marker at the front of a queue raises its flag's fire number to its own and leaves; an FCLR marker raises the clear
number; an FWAIT marker stays until its flag has fired as far as it needs. No other flag changes. -/
def markerEvents : Prop :=
  ∀ (s : State) (core : Nat) (tg : FlagTarget) (q : QEntry) (n : Nat), running s core → n < 64 →
    let old := (s.core core).flag n
    let others (t : State) : Prop := ∀ m, m ≠ n → (t.core core).flag m = (s.core core).flag m
    (((s.core core).queueOf tg).head? = some q → q.cmd = .fset n →
      ∃ t, exec (.evFlagFire core tg) s = .next t ∧ (t.core core).flag n = { old with fire := max old.fire q.seq, by_ := q.by_ } ∧ others t ∧
        offQueue ((t.core core).queueOf tg) q.seq) ∧
    (((s.core core).queueOf tg).head? = some q → q.cmd = .fclr n →
      ∃ t, exec (.evFlagClearAct core tg) s = .next t ∧ (t.core core).flag n = { old with clr := max old.clr q.seq, by_ := q.by_ } ∧ others t ∧
        offQueue ((t.core core).queueOf tg) q.seq) ∧
    ∀ need, headOf ((s.core core).queueOf tg) = some q → q.cmd = .fwait n need →
      (need ≤ old.fire → ∃ t, exec (.evFwaitMarkerIssue core tg) s = .next t ∧ (∀ m, (t.core core).flag m = (s.core core).flag m) ∧
        offQueue ((t.core core).queueOf tg) q.seq) ∧
      (old.fire < need → exec (.evFwaitMarkerIssue core tg) s = .next s)

/-- R222, R225, R229, R236, R237, R310: the MGO at the head issues when the last pass of the one before it has begun and its ranges are free, with
the block context of its core: its first pass begins once its B elements have loaded, over that last pass (that more than two may overlap,
of either mode, is the reading of DEDUCED log 84). An array cycle fetches what the running ones load, enters the folds that are due, and
takes a finished one off the queue and sets LAST; a page fault or an error of a cluster store holds it, to go on when resolved or be
abandoned with FAULT and FSUB, as any other fault abandons it. -/
def matrixEvents : Prop :=
  ∀ (s : State) (core : Nat), running s core → (s.core core).ueHeld = false →
    let arr (t : State) : MatArray := (t.core core).array
    (∀ (q : QEntry) (tb : ProdTable) (nlev : Nat), headOf (s.core core).matQ = some q → q.cmd = .mgo tb nlev →
      (∀ r ∈ (arr s).running, r.held = none) →
      s.rowsBusy core q.seq tb nlev = false → s.mgoTiles (clusterOf core) tb nlev = true →
      (s.claim core (mgoRanges tb nlev core q.seq)).isSome = true →
        let run (first : Nat) : RunMgo :=
          ⟨q.seq, tb, nlev, (s.ctx (s.ctxOf core)).blk, 0, first, [], [], none, (arr s).leaves, []⟩
        ((arr s).running = [] → ∃ t, exec (.evMgoIssue core) s = .next t ∧ (arr t).running = [run tb.loadCycles]) ∧
        (∀ r, (arr s).running.getLast? = some r →
          (r.lastStart ≤ r.cycle → ∃ t, exec (.evMgoIssue core) s = .next t ∧
            (arr t).running = (arr s).running ++ [run (max tb.loadCycles (r.lastStart + r.table.groups - r.cycle))]) ∧
          (r.cycle < r.lastStart → exec (.evMgoIssue core) s = .next s))) ∧
    ((arr s).running ≠ [] → (∀ r ∈ (arr s).running, r.held = none) →
      let got := ({ s with cur := .stream core .M } : State).arrayFetch [] (arr s).running
      (∀ l s1 l1 s2, got = .ok (l, s1) → s1.arrayEnterAll (clusterOf core) l = (l1, s2) →
        ∃ t, exec (.evFoldEntry core) s = .next t ∧
          ((∀ r ∈ l1, r.finished = false) → (arr t).running = l1 ∧ (arr t).last = (arr s2).last) ∧
          (∀ r ∈ l1, r.finished = true → (∀ x ∈ (arr t).running, x.seq ≠ r.seq) ∧ offQueue (t.core core).matQ r.seq) ∧
          (∀ r ∈ l1, (∀ x ∈ l1, x.finished = true → x.seq ≠ r.seq) → r ∈ (arr t).running) ∧
          ∀ r, (l1.filter RunMgo.finished).getLast? = some r → (arr t).last = BitVec.ofNat 32 r.seq) ∧
      ∀ seq tr s1, got = .error (seq, .trap tr s1) →
        (tr.cause = cPAGE ∨ storeUe tr = true → ∃ t, exec (.evFoldEntry core) s = .next t ∧
          (arr t).running = (arr s1).running.map fun r => if r.seq = seq then { r with held := some tr } else r) ∧
        (tr.cause ≠ cPAGE → storeUe tr = false → (∃ q ∈ (s1.core core).matQ, q.seq = seq ∧ q.isMgo = true) →
          ∃ t, exec (.evFoldEntry core) s = .next t ∧ abandoned t core seq tr)) ∧
    ∀ (r : RunMgo) (rs : List RunMgo) (tr : Trap), (arr s).running = r :: rs → r.held = some tr → tr.cause = cPAGE →
      (pageResolvable tr = true → ∃ t, exec (.evArrayResume core true) s = .next t ∧
        (arr t).running = (r :: rs).map fun x => if x.seq = r.seq then { x with held := none } else x) ∧
      (s.pageAsked (clusterOf core) (s.ctxOf core) tr = false → (∃ q ∈ (s.core core).matQ, q.seq = r.seq ∧ q.isMgo = true) →
        ∃ t, exec (.evArrayResume core false) s = .next t ∧ abandoned t core r.seq tr)

/-- R25, R148, R150, R237, R310: a window without a mark whose commands are over retires. An uncorrectable error in a line of a cluster store that
engines read runs the copies of the window that wrote it again, each from its own source; with the line whole the engines held by it go on,
and a copy that cannot go on yet is taken up by the next such event; of an error that stays, the MGO that met it is abandoned, and any other
command is a context fault. Which command an error is of that none is held at yet is the model's choice (DESIGN CHOICE log 98). -/
def replayWindowPart : Prop :=
  ∀ (s : State) (core : Nat), running s core →
    ((s.core core).winHold = true → (∀ q ∈ (s.core core).window, (s.core core).pending q.seq = false) →
      ∃ t, exec (.evReplayWindowRetire core) s = .next t ∧ (t.core core).window = [] ∧ (t.core core).winHold = false) ∧
    ∀ (line : Nat) (s0 s1 : State) (todo l : List QEntry),
      ((s.core core).replay = [] ∧ (s.core core).readsLine core line = true ∧ s0 = s.ueFound core line ∧
          todo = ((s.core core).window.filter fun q => q.wroteLine core line).map QEntry.afresh) ∨
        ((s.core core).replay ≠ [] ∧ s0 = s ∧ todo = (s.core core).replay) →
      let bad : Prop := (storeAt core line).2 ∈ (s1.cluster (storeAt core line).1).badStore
      let stays : Prop := (s0.replayCopies core todo = (l, .over, s1) ∧ bad) ∨ s0.replayCopies core todo = (l, .lost, s1)
      let c := s1.core core
      (s0.replayCopies core todo = (l, .over, s1) → ¬bad →
        ∃ t, exec (.evEngineUeReplay core line) s = .next t ∧ (t.core core).replay = [] ∧
          (∀ u, (t.core core).copyStopped = some u → storeUe u = false) ∧ (∀ u, (t.core core).collHeld = some u → storeUe u = false) ∧
          (∀ r ∈ (t.core core).array.running, ∀ u, r.held = some u → storeUe u = false) ∧ t.contexts = s1.contexts) ∧
      (s0.replayCopies core todo = (l, .busy, s1) → exec (.evEngineUeReplay core line) s =
        .next (s1.updCore core fun c => { c with replay := l })) ∧
      (stays → ∀ r u, c.array.running.find? (fun r => r.held.any storeUe) = some r → r.held = some u →
        (∃ q ∈ c.matQ, q.seq = r.seq ∧ q.isMgo = true) →
          ∃ t, exec (.evEngineUeReplay core line) s = .next t ∧ abandoned t core r.seq u) ∧
      (stays → c.array.running.find? (fun r => r.held.any storeUe) = none →
        (∃ u, (c.copyStopped = some u ∨ c.collHeld = some u) ∧ storeUe u = true) ∨
          (∃ q ∈ c.copyQ ++ c.colQ, q.issued = true ∧ ∃ r ∈ q.ranges, r.slice = none ∧ r.write = false ∧
            meets r.lo r.hi (64 * line) (64 * line + 63) = true) →
        (s1.ctx (s.ctxOf core)).state ≠ .free → s1.ctxOf core = s.ctxOf core →
          ∃ t, exec (.evEngineUeReplay core line) s = .next t ∧ ending t s core)

/-- R16, R350: where the head of an engine queue that M or C pushed fails to match its twin, both return to the copy at the mark and run again
from there, with no access in flight, and no command that has issued issues anew; a second mismatch in that replay, or the fourth in
the rule's time, ends the context and fences the cluster. With no such command nothing happens. Which command is the head, and what the
return to the mark leaves, is the model's reading (DEDUCED log 34). -/
def backsightPart : Prop :=
  ∀ (s : State) (core : Nat) (escalate : Bool), running s core →
    let c := s.core core
    (c.twinHead = none → exec (.evBacksightMismatch core escalate) s = .next s) ∧
    (c.twinHead ≠ none →
      (c.back.fault = none → escalate = false ∨ c.replays < 3 →
        ∃ t, exec (.evBacksightMismatch core escalate) s = .next t ∧ t.contexts = s.contexts ∧ t.hbm = s.hbm ∧ t.clusters = s.clusters ∧
          (t.core core).replays = c.replays + 1 ∧ (t.core core).back.fault = c.twinHead ∧ (t.core core).a = c.a ∧ (t.core core).x = c.x ∧
          (∀ m, c.back.m = some m → (t.strm core .M).st = .run ∧ (t.strm core .M).hart = m.hart ∧ (t.strm core .M).loads = [] ∧
            (t.strm core .M).lists = m.lists ∧ (t.core core).table = m.table) ∧
          (∀ m, c.back.c = some m → (t.strm core .C).st = .run ∧ (t.strm core .C).hart = m.hart ∧ (t.strm core .C).loads = [] ∧
            (t.strm core .C).lists = m.lists) ∧
          (∀ q ∈ c.copyQ, q.issued = true ∨ q.by_ = .A ∨ q.by_ = .X → q ∈ (t.core core).copyQ) ∧
          (∀ q ∈ c.matQ, q.issued = true → q ∈ (t.core core).matQ) ∧ (∀ q ∈ c.colQ, q.issued = true → q ∈ (t.core core).colQ)) ∧
      (c.back.fault ≠ none ∨ (escalate = true ∧ 3 ≤ c.replays) →
        ∃ t, exec (.evBacksightMismatch core escalate) s = .next t ∧ ending t s core ∧ t.cluUp.getLsbD (clusterOf core) = false))

end Sys2Proof.Statements

/-- R25, R55, R128, R130, R131, R138, R147, R148, R222, R225, R236, R237, R310, R350: the events of a core's engines: copies, markers, products, and
replays. The model's own choices among this are named in the parts (logs 18, 34, 84, 85 and 98). -/
def Obligations.EngineEvents : Prop := copyEvents ∧ markerEvents ∧ matrixEvents ∧ replayWindowPart ∧ backsightPart

/-- R79, R84, R94, R99, R105, R148, R211, R244, R320, R321: a waiting stream runs again at its word once what it waits for is ready, and not before;
a stream that YIELD holds is YIELDED one word on, once calm; a load's answer fills its register or its place in a data queue; the shadow
handler resumes a resolvable page fault at its word, delivers any page fault that the host has not still to answer (of the arena as
ACCESS, SUB 0x21, by R244), which is a context fault of a stream that can take no trap, makes an ACCESS of a vector or a block access again or
delivers it (R189, R211), and ends a system call after its word with its results from x3 on; it ends the page fault of a copy or of a
collective likewise, whose delivery is a context fault (R148, R321). That a load of the stream is answered by an event of its own is the
model's (DESIGN CHOICE log 2), so are the ends of a service (DEDUCED log 8), the page fault that waits for the host (DEDUCED log 77), and
the reading of TRAPVEC's slot entry (DEDUCED log 90), whose line is neither lost nor in error here. -/
def Obligations.StreamEvents : Prop :=
  ∀ (s : State) (core : Nat) (k : StreamId), running s core →
    let u := s.strm core k
    let here : State := { s with cur := .stream core k }
    (u.st = .wait → (∀ w, u.waiting = some w → here.waitReady w = true) →
      ∃ t, exec (.evStreamWaitEnd core k) s = .next t ∧ (t.strm core k).st = .run ∧ (t.strm core k).hart = u.hart) ∧
    (u.st ≠ .wait ∨ (∃ w, u.waiting = some w ∧ here.waitReady w = false) → exec (.evStreamWaitEnd core k) s = .next s) ∧
    (u.st = .wait → u.waiting = some .yielding → u.loads = [] → u.remote = [] → u.hart.stat.getLsbD statYR = true →
      ∃ t, exec (.evStreamYielded core k) s = .next t ∧ (t.strm core k).st = .yielded ∧ (t.strm core k).hart.pc = u.hart.pc + 1) ∧
    (∀ i l, u.loads[i]? = some l →
      (l.slot = none → ∃ t, exec (.evLoadFill core k i) s = .next t ∧ (t.strm core k).loads = u.loads.eraseIdx i ∧
        (t.strm core k).hart.get l.dst = (if l.dst = 0 then 0 else l.value) ∧
        ∀ r, r ≠ l.dst → (t.strm core k).hart.get r = u.hart.get r) ∧
      ∀ q id, l.slot = some (q, id) → ∃ t, exec (.evLoadFill core k i) s = .next t ∧
        (t.strm core k).loads = u.loads.eraseIdx i ∧ (t.strm core k).hart = u.hart ∧
        ((t.core core).dq.getD q dqReset).entries =
          ((s.core core).dq.getD q dqReset).entries.map fun e => if e = .reserved id then .filled l.value else e) ∧
    (u.st = .held → ∀ tr, u.held = some tr →
      (tr.cause = cPAGE →
        (pageResolvable tr = true → ∃ t, exec (.evShadowResume core k false .resume) s = .next t ∧
          (t.strm core k).st = .run ∧ (t.strm core k).hart = u.hart ∧ (t.strm core k).held = none) ∧
        (s.pageAsked (clusterOf core) (s.ctxOf core) tr = true → exec (.evShadowResume core k false .deliver) s = .next s) ∧
        (s.pageAsked (clusterOf core) (s.ctxOf core) tr = false →
          (u.trapvec ≠ 0 → tcauseIn u.tcause = false → here.codeOk u.trapvec = true → s.lineTrouble (s.slotLine core u.trapvec) = false →
            ∃ t, exec (.evShadowResume core k false .deliver) s = .next t ∧ (t.strm core k).st = .run ∧
              (t.strm core k).tepc = u.hart.pc ∧ (t.strm core k).tval = tr.tval ∧ (t.strm core k).tprc = u.hart.prc ∧
              (t.strm core k).hart.pc = u.trapvec ∧ (t.strm core k).hart.prc = 0 ∧
              (t.strm core k).tcause = if u.heldArena then tcauseOf true 0x21 cACCESS else tcauseOf true tr.sub cPAGE) ∧
          (u.trapvec = 0 ∨ tcauseIn u.tcause = true →
            ∃ t, exec (.evShadowResume core k false .deliver) s = .next t ∧ ending t s core))) ∧
      (tr.cause = cACCESS →
        (∃ t, exec (.evShadowResume core k false .resume) s = .next t ∧ (t.strm core k).st = .run ∧ (t.strm core k).hart = u.hart ∧
          (t.strm core k).held = none) ∧
        (u.trapvec ≠ 0 → tcauseIn u.tcause = false → here.codeOk u.trapvec = true → s.lineTrouble (s.slotLine core u.trapvec) = false →
          ∃ t, exec (.evShadowResume core k false .deliver) s = .next t ∧ (t.strm core k).st = .run ∧ (t.strm core k).tepc = u.hart.pc ∧
            (t.strm core k).tval = tr.tval ∧ (t.strm core k).tcause = tcauseOf true tr.sub cACCESS ∧ (t.strm core k).hart.pc = u.trapvec) ∧
        (u.trapvec = 0 ∨ tcauseIn u.tcause = true →
          ∃ t, exec (.evShadowResume core k false .deliver) s = .next t ∧ ending t s core)) ∧
      (tr.cause = cSYSC → ∀ vs : List Word,
        ∀ how ∈ [(ShadowEnd.results vs, vs), (.resume, [])], ∃ t, exec (.evShadowResume core k false how.1) s = .next t ∧
          (t.strm core k).st = .run ∧ (t.strm core k).hart.pc = u.hart.pc + 1 ∧
          ∀ r : XReg, (t.strm core k).hart.get r =
            if 3 ≤ r.toNat ∧ r.toNat < 3 + min 7 how.2.length then how.2.getD (r.toNat - 3) 0 else u.hart.get r)) ∧
    (∀ tr, (s.core core).copyStopped = some tr → tr.cause = cPAGE →
      (pageResolvable tr = true →
        ∃ t, exec (.evShadowResume core k true .resume) s = .next t ∧ (t.core core).copyStopped = none) ∧
      (s.pageAsked (clusterOf core) (s.ctxOf core) tr = false →
        ∃ t, exec (.evShadowResume core k true .deliver) s = .next t ∧ ending t s core)) ∧
    (∀ tr, (∀ v, (s.core core).copyStopped = some v → v.cause ≠ cPAGE) → (s.core core).collHeld = some tr → tr.cause = cPAGE →
      (pageResolvable tr = true →
        ∃ t, exec (.evShadowResume core k true .resume) s = .next t ∧ (t.core core).collHeld = none) ∧
      (s.pageAsked (clusterOf core) (s.ctxOf core) tr = false →
        ∃ t, exec (.evShadowResume core k true .deliver) s = .next t ∧ ending t s core))

namespace Sys2Proof.Statements

/-- R319: a walk that finishes holds no walker, and its leaf stands in the translations of each cluster that joined it. -/
def walkEventsPart : Prop :=
  ∀ (s : State) (die k : Nat) (w : Walk), (s.die die).walks[k]? = some w → ∃ t, exec (.evWalkComplete die k) s = .next t ∧
    (∀ x ∈ (t.die die).walks, x.ctx ≠ w.ctx ∨ x.va ≠ w.va) ∧
    ∀ pa size r wr s1, s.walk die w.ctx (65536 * w.va) = (.leaf pa size r wr, s1) →
      ∀ x ∈ (s.die die).walks, x.ctx = w.ctx → x.va = w.va → x.cluster < 128 →
        (⟨w.ctx, 65536 * w.va / size * size, size, pa, r, wr, false⟩ : TlbEntry) ∈ (t.cluster x.cluster).tlb

/-- No stream and no engine of a context's cores in the cluster of a page's key is held for the page. -/
def noneHeld (s : State) (ctx : Nat) (key : Nat × Nat) : Prop := ∀ c ∈ s.keyCores ctx key, (s.core c).heldFor key = false

/-- R317, R320, R325: a translation that the host answers is cached with what it and the leaf both permit; one without permission asks for
the page, and a size that is none refuses the page to the context; a request from a leaf that was dropped meanwhile is made again.
The answer to a page request lets the accesses held for it go on, or refuses the page, as the timeout of a request does; with accesses
held for it the refusal is theirs. An invalidation waits for the loads of host memory that have not been answered, then drops the host
translations that it meets, and no other. That a size that is none refuses the page, and that an overtaken request is made again, is the
model's reading (DEDUCED log 36), so is the refusal with no access held (DEDUCED log 77). -/
def hostEventsPart : Prop :=
  ∀ s : State,
    (∀ ctx k ha size r w key, (s.ctx ctx).ats[k]? = some key → (s.ctx ctx).state ≠ .free →
      (key ∈ (s.ctx ctx).atsStale → ∃ t, exec (.evAtsResponse ctx k ha size r w) s = .next t ∧ (t.ctx ctx).ats = (s.ctx ctx).ats ∧
        key ∉ (t.ctx ctx).atsStale ∧ t.clusters = s.clusters) ∧
      (key ∉ (s.ctx ctx).atsStale →
        (atsSize size = false → noneHeld s ctx key → ∃ t, exec (.evAtsResponse ctx k ha size r w) s = .next t ∧
          (t.ctx ctx).ats = (s.ctx ctx).ats.eraseIdx k ∧ (t.ctx ctx).hostRefused = (s.ctx ctx).hostRefused ++ [key]) ∧
        ∀ x lr lw s2, (s.updCtx ctx fun c => { c with ats := c.ats.eraseIdx k }).walk (key.1 / 16) ctx (key.2 * 4096) =
            (.host x lr lw, s2) → atsSize size = true →
          (r = false → w = false → key ∉ (s2.ctx ctx).pri → ∃ t, exec (.evAtsResponse ctx k ha size r w) s = .next t ∧
            (t.ctx ctx).ats = (s2.ctx ctx).ats ∧ (t.ctx ctx).pri = (s2.ctx ctx).pri ++ [key] ∧ t.clusters = s2.clusters) ∧
          (r = true ∨ w = true → key.1 < 128 → ∃ t, exec (.evAtsResponse ctx k ha size r w) s = .next t ∧
            t.contexts = s2.contexts ∧ (t.cluster key.1).tlb.head? =
              some ⟨ctx, key.2 * 4096 / size * size, size, ha / size * size, r && lr, w && lw, true⟩))) ∧
    (∀ ctx k key, (s.ctx ctx).pri[k]? = some key → (s.ctx ctx).state ≠ .free →
      (∃ t, exec (.evPriResponse ctx k true) s = .next t ∧ (t.ctx ctx).pri = (s.ctx ctx).pri.eraseIdx k ∧
        (t.ctx ctx).hostRefused = (s.ctx ctx).hostRefused ∧
        ∀ i < 4, 4 * key.1 + i < 512 → s.ctxOf (4 * key.1 + i) = ctx → ∀ st tr, (s.strm (4 * key.1 + i) st).st = .held →
          (s.strm (4 * key.1 + i) st).held = some tr → tr.cause = cPAGE → tr.sub = 4 → tr.tval.toNat / 4096 = key.2 →
            (t.strm (4 * key.1 + i) st).st = .run ∧ (t.strm (4 * key.1 + i) st).held = none ∧
              (t.strm (4 * key.1 + i) st).hart = (s.strm (4 * key.1 + i) st).hart) ∧
      ∀ i ∈ [Instr.evPriResponse ctx k false, .evPriTimeout ctx k false],
        (noneHeld s ctx key → ∃ t, exec i s = .next t ∧ (t.ctx ctx).pri = (s.ctx ctx).pri.eraseIdx k ∧
          (t.ctx ctx).hostRefused = (s.ctx ctx).hostRefused ++ [key]) ∧
        (¬noneHeld s ctx key → ∃ t, exec i s = .next t ∧ (t.ctx ctx).pri = (s.ctx ctx).pri.eraseIdx k ∧
          (t.ctx ctx).hostRefused = (s.ctx ctx).hostRefused)) ∧
    (∀ ctx k key, (s.ctx ctx).ats[k]? = some key → (s.ctx ctx).state ≠ .free → noneHeld s ctx key →
      ∃ t, exec (.evPriTimeout ctx k true) s = .next t ∧ (t.ctx ctx).ats = (s.ctx ctx).ats.eraseIdx k ∧
        (t.ctx ctx).hostRefused = (s.ctx ctx).hostRefused ++ [key]) ∧
    ∀ ctx va size, (s.hostReading ctx = true → exec (.evAtsInvalidation ctx va size) s = .next s) ∧
      (s.hostReading ctx = false → ∃ t, exec (.evAtsInvalidation ctx va size) s = .next t ∧ t.cores = s.cores ∧ ∀ cl < 128,
        (t.cluster cl).tlb = (s.cluster cl).tlb.filter fun e => !(e.host && e.ctx == ctx && overlaps (e.va, e.size) (va, size)))

end Sys2Proof.Statements

/-- R317, R319, R320, R325: what the walkers and the host's translation service answer. -/
def Obligations.TranslationEvents : Prop := walkEventsPart ∧ hostEventsPart

/-! ## Events of kernels and their groups (R82, R129, R237, R271, R273, R279 to R282, R287, R289 to R292, R295, R296, R313) -/

namespace Sys2Proof.Statements

/-- A stream as a job's start leaves stream A: RUN at a word of code, with every register at its value of reset, and no list (R81, R238). -/
def started (u : Stream) (old : Lists) (pc : Word) : Prop :=
  u.st = .run ∧ u.hart = { hartReset with pc := pc } ∧ u.lists = old.discard

/-- A queue of a partition after its next entry is committed (R289). -/
def committed (s t : State) (part id : Nat) : Prop :=
  ∀ q, s.queue? part id = some q → q.intake ≠ [] →
    t.queue? part id = some { q with intake := q.intake.drop 1, commit := q.commit + 1 }

/-- R287, R289, R292, R295: the front end of a READY partition commits the next entry of a fast-path queue, and accepts its kernel or writes its
refusal at DONE; a read or a store that waits leaves the entry for later. -/
def frontEndPart : Prop :=
  ∀ (s : State) (part : BitVec 4) (id : BitVec 10) (q : SubQueue), s.queue? part.toNat id.toNat = some q →
    (q.fast = false ∨ q.intake = [] ∨ (s.part part.toNat).pstat ≠ 2 → exec (.evFrontEndConsume part id) s = .next s) ∧
    (q.fast = true → q.intake ≠ [] → (s.part part.toNat).pstat = 2 →
      let read := s.readPacket (BitVec.ofNat 64 (q.packetAt q.head))
      let c : CmdId := ⟨part.toNat, q.ctx, id.toNat, q.head, 0⟩
      (∀ s1, read = .error (none, s1) → exec (.evFrontEndConsume part id) s = .next s1) ∧
      (∀ code s1, read = .error (some code, s1) → ∃ t, exec (.evFrontEndConsume part id) s = .next t ∧ t.kernels = s1.kernels ∧
        committed s1 t part.toNat id.toNat) ∧
      ∀ pk s1, read = .ok (pk, s1) →
        let check := s1.residency c pk q.intake.head? (some q.bound)
        (∀ kn s2, check = .ok (kn, s2) → ∃ t, exec (.evFrontEndConsume part id) s = .next t ∧ t.kernels = s2.kernels ++ [kn] ∧
          committed s2 t part.toNat id.toNat) ∧
        (∀ s2, check = .error (none, s2) → exec (.evFrontEndConsume part id) s = .next s2) ∧
        ∀ code s2, check = .error (some code, s2) →
          let store := s2.doneStore (Machine.refused c pk) (s.frontCluster part.toNat) code
          (∀ s3, store = .error s3 → exec (.evFrontEndConsume part id) s = .next s3) ∧
          ∀ s3, store = .ok s3 → ∃ t, exec (.evFrontEndConsume part id) s = .next t ∧ t.kernels = s3.kernels ∧ t.hbm = s3.hbm ∧
            t.l2 = s3.l2 ∧ t.host = s3.host ∧ committed s3 t part.toNat id.toNat)

/-- R134, R290 to R292, R295, R296: a kernel takes a core set that it may have now; on a firmware-path queue only the kernel that PICK
chooses does (in what order it is run for several is the model's choice, DESIGN CHOICE log 87, and when a queue is ready its reading, DEDUCED
log 28). Its configuration is applied in each cluster, stream A of each core starts at STREAM0, and the context is RUNNING. A record that
would fault completes the kernel with 0x0E, and no configuration of it stands. The slot's entry is read for it: a lost line is waited for, and
one that cannot be read is a context fault (R323, R365; DEDUCED log 90). -/
def placementPart : Prop :=
  ∀ (s : State) (kid : Nat) (cores : List Nat) (kn : Kernel), s.kernel? kid = some kn →
    let s0 := if s.picked? kn = true then (s.pick kn).2 else s
    let cls := nubNat (cores.map clusterOf)
    let look := s0.lookLine ((s0.part kn.part).slotTable / 64 + kn.slot) none
    (s.mayPlace kn cores = false ∨ (s.picked? kn = true ∧ (s.pick kn).1 = false) → exec (.evKernelPlace kid cores) s = .next s) ∧
    (s.mayPlace kn cores = true → (s.picked? kn = true → (s.pick kn).1 = true) →
      (∀ u, look = .error (.lost, u) → exec (.evKernelPlace kid cores) s = .next u) ∧
      (∀ u, look = .error (.poison, u) → (u.ctx kn.ctx).state ≠ .free → kn.ctx < 1024 →
        ∃ t, exec (.evKernelPlace kid cores) s = .next t ∧ (t.ctx kn.ctx).state = .terminating ∧ t.cores = u.cores) ∧
      ∀ u, look = .ok u →
        (∀ s1, u.applyAll kn cls = some s1 →
          ∃ t, exec (.evKernelPlace kid cores) s = .next t ∧ (t.kernel? kid).map (fun k => (k.placed, k.cores)) = some (true, cores) ∧
            t.clusters = s1.clusters ∧
            (∀ c ∈ cores, let pc := codeAddr kn.slot (((u.slotEntry kn.part kn.slot).streams.getD 0 0).extractLsb' 0 30).toNat
              (t.core c).kernel = some kid ∧ started (t.strm c .A) (s1.strm c .A).lists pc ∧
              (t.strm c .X).st = .idle ∧ (t.strm c .M).st = .idle ∧ (t.strm c .C).st = .idle) ∧
            ((u.ctx kn.ctx).state = .idle → (t.ctx kn.ctx).state = .running)) ∧
        (u.applyAll kn cls = none →
          (∀ s1, u.doneStore kn (cls.headD 0) 0x0E = .error s1 → exec (.evKernelPlace kid cores) s = .next s1) ∧
          ∀ s1, u.doneStore kn (cls.headD 0) 0x0E = .ok s1 → ∃ t, exec (.evKernelPlace kid cores) s = .next t ∧
            (∀ j ∈ t.kernels, j.id ≠ kid) ∧ t.clusters = s1.clusters ∧ t.hbm = s1.hbm ∧ t.l2 = s1.l2 ∧ t.host = s1.host))

/-- R82, R186, R238, R266, R295, R296: a job whose streams have ended and whose queues are empty leaves every stream IDLE with no list, the
core's data queues empty, its rings unbound, and no line pinned for it. A kernel whose jobs have ended leaves, with DONE written, and
its context is IDLE when it was the last; while the store of DONE waits nothing of it leaves. That the collectives of a tier are counted from
zero in each kernel is the model's reading (DEDUCED log 29), that a retirement makes the kernel's writes seen on every path its own (log 72). -/
def jobAndKernelEndPart : Prop :=
  (∀ (s : State) (core : Nat), running s core →
    ((s.core core).jobEnds = true → ∃ t, exec (.evJobEnd core) s = .next t ∧
      (∀ k, (t.strm core k).st = .idle ∧ (t.strm core k).lists = (s.strm core k).lists.discard) ∧
      (∀ q ∈ (t.core core).dq.toList, q.entries = []) ∧ (t.core core).bq = [] ∧ (∀ p ∈ t.pins, p.core ≠ core) ∧
      ∀ r ∈ (t.cluster (clusterOf core)).rings.toList, r.bound ≠ some core) ∧
    ((s.core core).jobEnds = false → exec (.evJobEnd core) s = .next s)) ∧
  ∀ (s : State) (kid : Nat) (kn : Kernel), s.kernel? kid = some kn →
    let store := ((s.freeKernel kid).carryAll kn.cores).doneStore kn (clusterOf (kn.cores.headD (4 * s.frontCluster kn.part))) 0
    (s.jobsEnded kn = false → exec (.evKernelRetire kid) s = .next s) ∧
    (s.jobsEnded kn = true →
      (∀ s1, store = .error s1 → exec (.evKernelRetire kid) s = .next s1) ∧
      ∀ s1, store = .ok s1 →
        ∃ t, exec (.evKernelRetire kid) s = .next t ∧ (∀ j ∈ t.kernels, j.id ≠ kid) ∧
          (∀ c < 512, (t.core c).kernel ≠ some kid) ∧ t.hbm = s1.hbm ∧ t.l2 = s1.l2 ∧ t.host = s1.host ∧
          ((s1.ctx kn.ctx).state = .running → (∀ j ∈ t.kernels, j.ctx = kn.ctx → j.placed = false) →
            (t.ctx kn.ctx).state = .idle))

/-- R296, R297, R313, R367: the termination of a TERMINATING context leaves it FREE, its kernels, queues, pins and owner masks gone, its
cores in their state of reset but for the push counters and the generations of the list slots, the status of each kernel written at its
DONE, and the GO bit that asked for it clear; while a store of DONE waits the context stays, and what has been taken down is not taken down
again. Its lines leave the L2 without a write. Nothing happens to a context that is in another state. What outlives a termination, and the
status of a context that has none, are the model's reading (DEDUCED log 30). -/
def terminationPart : Prop :=
  ∀ (s : State) (ctx : Nat),
    let fresh := (s.ctx ctx).dismantled = false
    let s1 := if (s.ctx ctx).dismantled then s else s.dismantle ctx
    let all := s1.completeAll ((s.ctx ctx).status.getD 0x0C).toNat (s1.kernels.filter fun k => k.ctx == ctx)
    ((s.ctx ctx).state ≠ .terminating → exec (.evTerminationComplete ctx) s = .next s) ∧
    ((s.ctx ctx).state = .terminating →
      (fresh → (∀ x ∈ s1.l2, x ∈ s.l2 ∧ (x.2.nc = true ∨ x.2.owner ≠ ctx)) ∧ s1.hbm = s.hbm ∧
        (ctx < 1024 → (s1.ctx ctx).dismantled = true)) ∧
      (∀ s2, all = .error s2 → exec (.evTerminationComplete ctx) s = .next s2) ∧
      ∀ s2, all = .ok s2 →
        ∃ t, exec (.evTerminationComplete ctx) s = .next t ∧ (t.ctx ctx).state = .free ∧ (∀ j ∈ t.kernels, j.ctx ≠ ctx) ∧
          t.l2 = s2.l2 ∧ t.hbm = s2.hbm ∧ t.host = s2.host ∧ (∀ cl < 128, ∀ o ∈ (t.cluster cl).owners, o.1 ≠ ctx) ∧
          (fresh → (∀ q ∈ t.queues, q.ctx ≠ ctx) ∧ (∀ p ∈ t.pins, p.core ∉ s.coresOf ctx) ∧
            ∀ c ∈ s.coresOf ctx, (∀ k, t.strm c k = { streamReset with lists := (s.strm c k).lists.discard }) ∧
              (t.core c).copyQ = [] ∧ (t.core c).matQ = [] ∧ (t.core c).colQ = [] ∧ (t.core c).push = (s.core c).push) ∧
          ((s.ctx ctx).part < 16 → (s.part (s.ctx ctx).part).pkill.getLsbD 63 = true →
            ((s.part (s.ctx ctx).part).pkill.extractLsb' 0 10).toNat = ctx →
              (t.part (s.ctx ctx).part).pkill.getLsbD 63 = false))

end Sys2Proof.Statements

/-- R82, R134, R287, R289 to R292, R295 to R297, R313, R367: the events of a kernel's life, and the end of its context. The model's own choices
among this are named in the parts (logs 28, 29, 30, 72, 87 and 90). -/
def Obligations.KernelEvents : Prop := frontEndPart ∧ placementPart ∧ jobAndKernelEndPart ∧ terminationPart

namespace Sys2Proof.Statements

/-- R126, R128, R129, R280: the command at the head of the collective queue of the core whose turn it is issues, and its core is the one
served last: a COLLW when it is at the head (that it takes a turn is DESIGN CHOICE log 80), a collective when the tiles that it reads are
READY (which those are is DEDUCED log 88) and its ranges are free. A core whose turn it is not stays as it is. -/
def collIssuePart : Prop :=
  ∀ (s : State) (core : Nat), running s core →
    let next := (s.serveOrder (clusterOf core)).find? fun c => (s.collTake c).isSome
    (next ≠ some core → exec (.evCollIssue core) s = .next s) ∧
    ∀ q, headOf (s.core core).colQ = some q →
      (next = some core → ∃ t, exec (.evCollIssue core) s = .next t ∧ (∃ e ∈ (t.core core).colQ, e.seq = q.seq ∧ e.issued = true) ∧
        (t.cluster (clusterOf core)).lastServed = core % 4) ∧
      ((s.core core).ueHeld = false →
        (∀ tier ordinal, q.cmd = .collw tier ordinal → (s.collTake core).isSome = true) ∧
        ∀ c k, q.cmd = .coll c → s.kernelOf core = some k →
          (s.collTake core).isSome = (s.collTiles (clusterOf core) (collRanges k c core q.seq) &&
            (s.claim core (collRanges k c core q.seq)).isSome))

/-- R148, R279 to R282, R310: a collective whose local members have all issued matching commands that agree reads each member's source, when what is
remote of them has arrived; what each member receives is combined from them, and from what the other packages send, in the order of the event
(DESIGN CHOICE log 13); it writes the destinations as far as they go, each member's collective being over, and off its queue, once its own
destination holds the result. Commands that differ, a peer that differs or is late, and a fault that cannot be lifted are a context fault; at
one that may be lifted it is held; while a member is missing nothing happens. -/
def collCompletionPart : Prop :=
  (∀ (s : State) (core : Nat) (k : Kernel) (c : CollCmd), running s core → s.kernelOf core = some k → (s.core core).firstColl = some c →
    (∀ m ∈ k.localMembers c.tier core, s.clocked m = true ∧ (s.core m).ueHeld = false) →
    let ms := k.localMembers c.tier core
    let ps := s.collParts ms c
    let back (t : State) : State := { t with cur := s.cur }
    let lasting (t : State) (tr : Trap) : Prop := t.pageWaits t.curCl t.curCtx tr = false ∧ storeUe tr = false
    (∀ how, how = .timeout ∨ how = .mismatch →
      (k.hasPeers c.tier = true → ∃ t, exec (.evCollComplete core how) s = .next t ∧ ending t s core) ∧
      (k.hasPeers c.tier = false → exec (.evCollComplete core how) s = .next s)) ∧
    ∀ order peers, (k.hasPeers c.tier = false → peers = []) →
      let i : Instr := .evCollComplete core (.result order peers)
      let n := (collCounts c.kind c.count (k.collMembers c.tier core)).1
      let writes (u : State) (l : List CollPart) : Prop :=
        (∀ v, u.collScatter l = (none, v) → exec i s = .next (back v)) ∧
        ∀ tr v, u.collScatter l = (some tr, v) → (v.ctx k.ctx).state ≠ .free → ∃ t, exec i s = .next t ∧ ending t s core
      ((∃ p ∈ ps, p.q.prog.data ≠ none) → writes s (ps.filter fun p => p.q.prog.data.isSome)) ∧
      ((∀ p ∈ ps, p.q.prog.data = none) →
        (ps.length ≠ ms.length ∨ (∃ m ∈ ms, (s.core m).collHeld ≠ none) → exec i s = .next s) ∧
        (ps.length = ms.length → (∀ m ∈ ms, (s.core m).collHeld = none) →
          ((∃ p ∈ ps, c.agrees p.cmd = false) → ∃ t, exec i s = .next t ∧ ending t s core) ∧
          ((∀ p ∈ ps, c.agrees p.cmd = true) →
            ((c.kind = .ar ∨ c.kind = .rs) → k.hasPeers c.tier = true → peers.length + 1 < tierExt (k.tier c.tier) → exec i s = .next s) ∧
            (((c.kind = .ar ∨ c.kind = .rs) → k.hasPeers c.tier = true → tierExt (k.tier c.tier) ≤ peers.length + 1) →
              (∀ s1, s.collAsk k ps = .ok (false, s1) → exec i s = .next (back s1)) ∧
              (∀ a, s.collAsk k ps = .error a ∨ (∃ s1, s.collAsk k ps = .ok (true, s1) ∧ s1.collSources k ps = .error a) →
                (∀ w s2, a = .wait w s2 → exec i s = .next (back s2)) ∧
                ∀ tr s2, a = .trap tr s2 →
                  (lasting s2 tr → (s2.ctx k.ctx).state ≠ .free → ∃ t, exec i s = .next t ∧ ending t s core) ∧
                  (¬lasting s2 tr → exec i s =
                    .next (back (s2.updCore s2.curCore fun x => { x with collHeld := some tr })))) ∧
              ∀ s1, s.collAsk k ps = .ok (true, s1) → ∀ mine s2, s1.collSources k ps = .ok (mine, s2) →
                let r := collResult c (k.collMembers c.tier core) mine (k.memberIndex c.tier) (peers.map (elemsOf (collSize c.ty) n)) order
                (r = none → exec i s = .next s) ∧
                ∀ f, r = some f →
                  let s3 := ps.foldl (fun s p =>
                    s.setCollProg p ⟨some ((f (k.memberIndex c.tier p.core)).flatMap fun v => leBytes (collSize c.ty) v), 0⟩) s2
                  writes s3 (s3.collParts ms c)))))) ∧
  ∀ (u v : State) (p : CollPart) (l : List CollPart) (g : Prog), (u.core p.core).collHeld = none → (∀ q ∈ l, q.core ≠ p.core) →
    (u.asMember p).xferPut p.xfer p.cmd.dst (p.q.prog.data.getD []) p.q.prog.lines = (g, .over, v) →
      offQueue ((u.collScatter (p :: l)).2.core p.core).colQ p.q.seq

/-- R282: COLLW leaves once every member of its tier is done; at a tier that is not declared it waits for none (DEDUCED log 31). -/
def collwPart : Prop :=
  ∀ (s : State) (core : Nat), running s core →
    (∀ k q tier ordinal, s.kernelOf core = some k → q.cmd = .collw tier ordinal →
      (s.collwOver core q = true ↔ q.issued = true ∧
        (tierV (k.tier tier) = true → ∀ m ∈ k.localMembers tier core, (s.core m).collwDone tier ordinal = true))) ∧
    (∀ q, (s.core core).colQ.find? (s.collwOver core) = some q → ∃ t, exec (.evCollwComplete core) s = .next t ∧
      (t.core core).colQ = (s.core core).colQ.filter fun e => e.seq != q.seq) ∧
    ((s.core core).colQ.find? (s.collwOver core) = none → exec (.evCollwComplete core) s = .next s)

/-- R148, R263, R271, R273, R310: the superstep barrier opens the communication phase when every core has arrived (a core whose job has ended counts
as arrived, DESIGN CHOICE log 99). The phase runs the plan's transfers in order and goes on later from where it stands (part by part, by the copy
path of the first core: DEDUCED log 32); a fault that may be lifted holds that core's copy engine, and a fault that cannot is a context fault.
At its end the superstep is one further, every stream's race state starts anew, and each stream that waited departs with the superstep
number in the low half of its value and, with no transfer in the plan, zero in the high half. -/
def superstepEvents : Prop :=
  ∀ (s : State) (kid m : Nat) (k : Kernel), s.kernel? kid = some k → (∀ c ∈ k.cores, c < 512 ∧ s.clocked c = true) →
    let waits : Prop := ∃ c ∈ k.cores, ∃ u, (s.strm c u).ssynced = true ∧ (s.strm c u).ssOut = none
    let arrived : Prop := ∀ c ∈ k.cores, (s.core c).atSuperstep = true
    let first := k.cores.headD 0
    let run := ({ s with cur := .stream first .A } : State).planPart k m
    let back (t : State) : State := { t with cur := s.cur }
    (k.placed = true → k.comm = false → arrived → waits →
      ∃ t, exec (.evSuperstepComplete kid) s = .next t ∧ (t.kernel? kid).map (·.comm) = some true ∧ t.cores = s.cores) ∧
    (k.placed = false ∨ k.comm = true ∨ ¬arrived ∨ ¬waits → exec (.evSuperstepComplete kid) s = .next s) ∧
    (k.comm = false ∨ (s.core first).copyStopped ≠ none ∨ (s.core first).ueHeld = true → exec (.evCommPhaseEnd kid m) s = .next s) ∧
    (k.comm = true → (s.core first).copyStopped = none → (s.core first).ueHeld = false → ∀ n p r s1, run = (n, p, r, s1) →
      (r = .over → ∃ t, exec (.evCommPhaseEnd kid m) s = .next t ∧ t.hbm = s1.hbm ∧ t.l2 = s1.l2 ∧ t.host = s1.host ∧
        (s1.kernels = s.kernels → (t.kernel? kid).map (fun j => (j.comm, j.step, j.race, j.commAt)) = some (false, k.step + 1, [], 0)) ∧
        ∀ c ∈ k.cores, ∀ u, (t.strm c u).hart = (s1.strm c u).hart ∧ (t.strm c u).w = Vector.replicate 16 0 ∧
          (∀ f ∈ (t.strm c u).relFences, f.epoch = 0) ∧ (∀ f ∈ (t.strm c u).seen, f.epoch = 0) ∧
          ((s1.strm c u).ssynced = true → (s1.strm c u).ssOut = none → ∃ v, (t.strm c u).ssOut = some v ∧
            v.toNat % 2 ^ 32 = (k.step + 1) % 2 ^ 32 ∧ (k.plan.transfers = [] → v.toNat < 2 ^ 32))) ∧
      (r = .busy → exec (.evCommPhaseEnd kid m) s =
        .next ((back s1).updKernel kid fun j => { j with commAt := j.commAt + n, commProg := p })) ∧
      ∀ tr, r = .fault tr →
        let kept := (back s1).updKernel kid fun j => { j with commAt := j.commAt + n, commProg := ⟨none, 0⟩ }
        (s1.pageWaits s1.curCl s1.curCtx tr = true ∨ storeUe tr = true → exec (.evCommPhaseEnd kid m) s =
          .next (kept.updCore first fun x => { x with copyStopped := some tr })) ∧
        (s1.pageWaits s1.curCl s1.curCtx tr = false → storeUe tr = false → (s1.ctx k.ctx).state ≠ .free →
          ∃ t, exec (.evCommPhaseEnd kid m) s = .next t ∧ (t.ctx k.ctx).state = .terminating))

end Sys2Proof.Statements

/-- R126, R128, R129, R148, R263, R271, R273, R279 to R282, R310: the events of a kernel's groups: collectives and supersteps. The model's own choices
among this are named in the parts (logs 13, 31, 32, 80, 88 and 99). -/
def Obligations.GroupEvents : Prop := collIssuePart ∧ collCompletionPart ∧ collwPart ∧ superstepEvents

/-! ## Events of the host, the package and Ramner (R121 to R123, R134, R203, R204, R284, R311, R326, R330, R333 to R351, R363, R367) -/

namespace Sys2Proof.Statements

/-- The queue of a partition with an id is q. -/
def queueIs (t : State) (part id : Nat) (q : SubQueue) : Prop := t.queue? part id = some q

/-- R121, R122, R123, R286: a write of SQSUB at an offset without a queue does nothing; else it appends its value and counts, and leaves an
ENQUEUE event for a queue that is not fast-path; into a full intake it only counts and raises OVF, and while OVF stands it counts; a device-fed
queue only counts it. A write of SQSTAT with bit 63 set clears OVF and moves NEXT back to LOWDROP. The host reads SQSTAT and SQDROP of each
queue at its offset, and zero at an offset that no register of a queue has. -/
def submitEvents : Prop :=
  ∀ (s : State) (ctx : Nat) (n : BitVec 4) (v : Word),
    (s.localQueue ctx n.toNat = none → exec (.evSqsub ctx n v) s = .next s) ∧
    (∀ x, s.localQueue ctx n.toNat = some x →
      (x.deviceFed = false → x.ovf = false → x.intake.length < 256 →
        ∃ t, exec (.evSqsub ctx n v) s = .next t ∧ queueIs t x.part x.id { x with intake := x.intake ++ [v], next := x.next + 1 } ∧
          (x.fast = true → t.events = s.events) ∧
          (x.fast = false → s.events.length < 4096 →
            ∃ e, t.events = s.events ++ [e] ∧ e.kind = 0 ∧ e.part = x.part ∧ e.key = x.id)) ∧
      (x.deviceFed = false → x.ovf = false → 256 ≤ x.intake.length →
        ∃ t, exec (.evSqsub ctx n v) s = .next t ∧ t.events = s.events ∧
          queueIs t x.part x.id { x with next := x.next + 1, ovf := true, lowdrop := x.next, dcount := 1 }) ∧
      (x.deviceFed = false → x.ovf = true →
        ∃ t, exec (.evSqsub ctx n v) s = .next t ∧ t.events = s.events ∧ queueIs t x.part x.id
          { x with next := x.next + 1, dcount := if x.dcount = 0xFFFFFFFF then x.dcount else x.dcount + 1 }) ∧
      (x.deviceFed = true →
        ∃ t, exec (.evSqsub ctx n v) s = .next t ∧ t.events = s.events ∧
          queueIs t x.part x.id { x with dcount := if x.dcount = 0xFFFFFFFF then x.dcount else x.dcount + 1 }) ∧
      ∃ t, exec (.evSqstatClearOvf ctx n v) s = .next t ∧
        queueIs t x.part x.id (if x.ovf = true ∧ v.getLsbD 63 = true then { x with ovf := false, next := x.lowdrop } else x) ∧
        (x.intake.length < 512 → s.vfRead ctx (0x1008 + 16 * n.toNat) =
          (if x.ovf = true then 1#1 else 0#1) ++ 0#22 ++ BitVec.ofNat 9 x.intake.length ++ x.commit) ∧
        s.vfRead ctx (0x2000 + 8 * n.toNat) = x.dcount ++ x.lowdrop) ∧
    (s.localQueue ctx n.toNat = none → s.vfRead ctx (0x1008 + 16 * n.toNat) = 0 ∧ s.vfRead ctx (0x2000 + 8 * n.toNat) = 0) ∧
    ∀ o, (o < 0x1000 ∨ (0x1100 ≤ o ∧ o < 0x2000) ∨ 0x2080 ≤ o) → s.vfRead ctx o = 0

/-- R203, R204, R347, R363, R367: a doorbell leaves a HOST event with the mailbox's payload, or holds it while the queue is full, in the place of
one held before (the model's reading, log 54); EN set on a plat that is the only one enabled turns it on when its checks pass and else raises its
error bit (what the checks are, and that WIN then stays, is the model's choice where R204 is silent, log 100); EN cleared turns it off; GO of PKILL
for a context of the partition starts its termination with the status given, and a bad one raises the error bit; a register of the mailbox, the
event vectors or a plat that is off takes the value written, by Ramner only once it runs. -/
def registerEvents : Prop :=
  ∀ (s : State) (p : BitVec 4) (k : BitVec 5) (v : Word),
    let P := s.part p.toNat
    let x := s.plat p.toNat k.toNat
    (s.events.length < 4096 → P.mboxHeld = none → ∃ t, exec (.evMboxDoorbell p) s = .next t ∧
      t.events = s.events ++ [⟨3, p.toNat, p.toNat, P.mbox⟩] ∧ t.parts = s.parts) ∧
    (4096 ≤ s.events.length → ∃ t, exec (.evMboxDoorbell p) s = .next t ∧ t.events = s.events ∧
      (t.part p.toNat).mboxHeld = some P.mbox) ∧
    (v.getLsbD 63 = true → ∀ others : List Plat,
      (∀ z, z ∈ others ↔ ∃ q < 16, ∃ j < 32, ¬(q = p.toNat ∧ j = k.toNat) ∧ (s.plat q j).en = true ∧ z = s.plat q j) →
      let y : Plat := { x with win := setBit v 62 false }
      (s.platOk p.toNat y others = true → ∃ t, exec (.evPlatEnable p k v) s = .next t ∧ t.plat p.toNat k.toNat = y) ∧
      (s.platOk p.toNat y others = false → ∃ t, exec (.evPlatEnable p k v) s = .next t ∧
        t.plat p.toNat k.toNat = { x with win := setBit (setBit x.win 63 false) 62 true })) ∧
    (v.getLsbD 63 = false → ∃ t, exec (.evPlatDisable p k v) s = .next t ∧ (t.plat p.toNat k.toNat).en = false ∧
      (t.plat p.toNat k.toNat).ctl = x.ctl ∧ (t.plat p.toNat k.toNat).pay = x.pay ∧ (t.plat p.toNat k.toNat).hdr = x.hdr) ∧
    (v.getLsbD 63 = true → P.pkill.getLsbD 63 = false →
      let c := (v.extractLsb' 0 10).toNat
      let st := v.extractLsb' 16 8
      let good := (s.ctx c).part = p.toNat ∧ (s.ctx c).state ≠ .free ∧ (st = 0x0C ∨ st = 0x0D) ∧ v.extractLsb' 24 38 = 0 ∧
        v.extractLsb' 10 6 = 0
      (good → ∃ t, exec (.evPkillGo p v) s = .next t ∧ (t.ctx c).state = .terminating ∧ (t.ctx c).status = some st ∧
        (t.part p.toNat).pkill.getLsbD 63 = true) ∧
      (¬good → ∃ t, exec (.evPkillGo p v) s = .next t ∧ t.contexts = s.contexts ∧ (t.part p.toNat).pkill = setBit P.pkill 62 true)) ∧
    (v.getLsbD 63 = true → P.pkill.getLsbD 63 = true → exec (.evPkillGo p v) s = .next s) ∧
    (∀ i < 6, ∃ t, exec (.evRegisterWrite true (0x500200 + 0x40 * p.toNat + 8 * i) v) s = .next t ∧
      (t.part p.toNat).mbox.getD i 0 = v ∧ t.cores = s.cores) ∧
    (s.booted = true → ∀ i < 5, ∃ t, exec (.evRegisterWrite false (0x500040 + 8 * i) v) s = .next t ∧ t.evvec.getD i 0 = v ∧
      t.parts = s.parts) ∧
    (s.booted = false → ∀ o, exec (.evRegisterWrite false o v) s = .next s) ∧
    ∀ host, (host = true ∨ s.booted = true) → ∀ r ∈ [(8, v &&& 0x000003FFFFFFFFCF), (16, v &&& 0x000FFFFFFFFFFFFF), (24, v &&& 0x000FFFFFFFFFFFFF)],
      let o := 0x200000 + 0x400 * p.toNat + 32 * k.toNat + r.1
      (x.en = true → exec (.evRegisterWrite host o v) s = .next s) ∧
      (x.en = false → ∃ t, exec (.evRegisterWrite host o v) s = .next t ∧ t.cores = s.cores ∧ t.plat p.toNat k.toNat =
        if r.1 = 8 then { x with ctl := r.2 } else if r.1 = 16 then { x with pay := r.2 } else { x with hdr := r.2 })

/-- R94, R258, R261, R306, R330, R333: the first answer to a request ends it: a load writes its register or fills its place in a data queue, an
atomic writes its register, a vector's element is kept, and a store is over; where the stream or an engine waits for it, the answer stands with
the request, and with it the releases of this package whose value it is (as many of those that stand there, oldest first, as the answer says, the
model's choice, log 71; a compare and swap that fails has written none, log 104). Without such a request, or with an answer there already,
nothing changes. -/
def remoteAnswersPart : Prop :=
  ∀ (s : State) (tag : Nat) (data : Answer),
    (s.holder tag = none ∨ (∃ c k r, s.holder tag = some (c, k, r) ∧ r.answer ≠ none) →
      exec (.evRemoteResponse tag data) s = .next s) ∧
    ∀ c k r, s.holder tag = some (c, k, r) → r.answer = none →
      let v := data.value % 2 ^ (8 * r.size)
      let ended (t : State) : Prop := ∀ q ∈ (t.strm c k).remote, q.tag ≠ tag
      let waits : Bool := (s.strm c k).waiting == some (.remoteAnswer tag)
      let s0 := if r.failed v = true then s.takeBack c k r else s
      let from_ := (s0.releasesAt (Loc.remote r.dest r.offset).key r.size).take data.own
      let noted : Prop := ∃ t, exec (.evRemoteResponse tag data) s = .next t ∧ (t.strm c k).hart = (s.strm c k).hart ∧
        { r with answer := some v, own := from_ } ∈ (t.strm c k).remote ∧
        (∀ x, x ∈ t.releases ↔ x ∈ s.releases ∧ ¬(r.failed v = true ∧ x ∈ r.left))
      let writes (d : XReg) (w : Word) : Prop := ∃ t, exec (.evRemoteResponse tag data) s = .next t ∧ ended t ∧
        (t.strm c k).hart.get d = (if d = 0 then 0 else w) ∧ ∀ q, q ≠ d → (t.strm c k).hart.get q = (s.strm c k).hart.get q
      (∀ d sx aq slot, r.kind = .load d sx aq slot →
        (waits = true → noted) ∧
        (waits = false → slot = none → writes d (extend sx r.size (leBytes r.size v))) ∧
        ∀ q id, waits = false → slot = some (q, id) → ∃ t, exec (.evRemoteResponse tag data) s = .next t ∧ ended t ∧
          (t.strm c k).hart = (s.strm c k).hart ∧ ((t.core c).dq.getD q dqReset).entries = ((s.core c).dq.getD q dqReset).entries.map fun e =>
            if e = .reserved id then .filled (extend sx r.size (leBytes r.size v)) else e) ∧
      (∀ op d aq, r.kind = .atom op d aq → (waits = true → noted) ∧ (waits = false → writes d (BitVec.ofNat 64 v))) ∧
      (∀ e g, r.kind = .vload e g → ∃ t, exec (.evRemoteResponse tag data) s = .next t ∧ ended t ∧
        (t.strm c k).vecGot = (e, v) :: (s.strm c k).vecGot) ∧
      (∀ g, r.kind = .store g → ∃ t, exec (.evRemoteResponse tag data) s = .next t ∧ ended t ∧ (t.strm c k).hart = (s.strm c k).hart) ∧
      (∀ a b m i, r.kind = .line a b m i → noted) ∧
      ((∃ q, r.kind = .copy q) ∨ (∃ q, r.kind = .coll q) → exec (.evRemoteResponse tag data) s = .next s)

/-- R94, R148, R273, R280, R306, R309, R334, R365: a request that fails cuts its stream back to its mark, the journal's old bytes put back first,
and traps there with REMOTE or KEY, a load of A to a data queue at that word holding its place; while a line to be put back is lost nothing of the
cut is done. Of a copy, a collective with members in other packages, or a plan it is a context fault. A request that has its answer does not
fail. -/
def remoteFailuresPart : Prop :=
  ∀ (s : State) (tag : Nat) (how : RemoteEnd),
    (s.holder tag = none ∨ (∃ c k r, s.holder tag = some (c, k, r) ∧ r.answer ≠ none) → exec (.evRemoteTimeout tag how) s = .next s) ∧
    ∀ c k r, s.holder tag = some (c, k, r) → r.answer = none → s.clocked c = true →
      let faults : Prop := ∃ t, exec (.evRemoteTimeout tag how) s = .next t ∧ ending t s c
      let cuts : Prop :=
        (∀ e, s.undoAll (s.journals [(c, k)]) = .error e →
          ∃ t, exec (.evRemoteTimeout tag how) s = .next t ∧ (t = s ∨ s.undo e.1 e.2 = .error t)) ∧
        ∀ s0, s.undoAll (s.journals [(c, k)]) = .ok s0 →
          let s1 := s0.cutBack c k
          let u := s1.strm c k
          let line := s1.slotLine c u.trapvec
          (u.trapvec ≠ 0 → tcauseIn u.tcause = false → s1.lineTrouble line = false →
            ({ s1 with cur := .stream c k } : State).codeOk u.trapvec = true →
            ∃ t, exec (.evRemoteTimeout tag how) s = .next t ∧ (t.strm c k).st = .run ∧ (t.strm c k).hart.pc = u.trapvec ∧
              (t.strm c k).tepc = u.hart.pc ∧ (t.strm c k).tval = r.addr ∧ (t.strm c k).tprc = u.hart.prc ∧
              (t.strm c k).hart.x = u.hart.x ∧ (t.strm c k).remote = u.remote ∧ t.hbm = s0.hbm ∧ t.l2 = s0.l2 ∧
              ((t.strm c k).tcause = match how with
                | .expired => tcauseOf true 0x10 cREMOTE | .error => tcauseOf true 0x11 cREMOTE | .keyRefused => tcauseOf true 2 cKEY) ∧
              ∀ q < 8, r.markQueue k = some q → ((s1.core c).dq.getD q dqReset).closed = false →
                ((s1.core c).dq.getD q dqReset).again = false →
                  .heldSlot u.hart.pc.toNat ∈ ((t.core c).dq.getD q dqReset).entries) ∧
          (u.trapvec = 0 ∨ tcauseIn u.tcause = true → s1.ctxOf c = s.ctxOf c → (s1.ctx (s.ctxOf c)).state ≠ .free → faults)
      (∀ d sx aq slot, r.kind = .load d sx aq slot → cuts) ∧ (∀ e g, r.kind = .vload e g → cuts) ∧ (∀ g, r.kind = .store g → cuts) ∧
      (∀ op d aq, r.kind = .atom op d aq → cuts) ∧
      (∀ coll w seq i, r.kind = .line coll w seq i → faults ∧ (coll = false → seq ≠ 0 →
        ∃ t, exec (.evRemoteTimeout tag how) s = .next t ∧ (t.core c).copyStopped = some (remoteTrap how r.addr))) ∧
      (∀ q, r.kind = .coll q → (s.collHasPeers c q = true → faults) ∧
        (s.collHasPeers c q = false → exec (.evRemoteTimeout tag how) s = .next s)) ∧
      ∀ q, r.kind = .copy q → exec (.evRemoteTimeout tag how) s = .next s

end Sys2Proof.Statements

/-- The events of the host and of packages that answer: submissions, writes of registers, and remote requests. -/
def Obligations.HostEvents : Prop := submitEvents ∧ registerEvents ∧ remoteAnswersPart ∧ remoteFailuresPart

namespace Sys2Proof.Statements

/-- An ERROR event of a partition stands in the queue. -/
def toldOf (t : State) (p : Nat) : Prop := ∃ e ∈ t.events, e.kind = 2 ∧ e.part = p

/-- R106, R134, R344 to R347, R362: once Ramner runs, an idle station core that is not fenced takes the oldest event whose key is free, and
starts at its kind's entry word with the event in x3 to x9, a held event taking the free place; any other takes none. A trap ends a run
and is logged; a first failed run starts again, and a second one ends with an entry in the error log, the core fenced when it trapped both
times. A slice that expires leaves a SLICE event of a RUNNING context; the watchdog of a partition whose event runs fences the partition,
ends its contexts and reports it. -/
def stationEvents : Prop :=
  ∀ (s : State) (n : Nat), n < 12 →
    ((s.station n).event.isSome = true ∨ (s.station n).fenced = true ∨ s.bootstat.getLsbD 31 = false ∨
        (∀ e ∈ s.events, s.keyHeld e.lockKey = true) → exec (.evEventDispatch n) s = .next s) ∧
    (∀ i e, s.bootstat.getLsbD 31 = true → (s.station n).event = none → (s.station n).fenced = false → s.events[i]? = some e →
      s.keyHeld e.lockKey = false → (∀ j < i, ∀ x, s.events[j]? = some x → s.keyHeld x.lockKey = true) →
      ∃ t, exec (.evEventDispatch n) s = .next t ∧ (t.station n).event = some e ∧ (t.station n).hart.pc = s.evvec.getD e.kind 0 ∧
        (t.station n).hart.get 3 = e.word ∧ (∀ i < 6, (t.station n).hart.get (BitVec.ofNat 6 (4 + i)) = e.payload.getD i 0) ∧
        (∀ h l, s.heldEvents = h :: l → t.events = s.events.eraseIdx i ++ [h] ∧ t.heldEvents = l) ∧
        (s.heldEvents = [] → (∀ p < 16, (s.part p).mboxHeld = none) → t.events = s.events.eraseIdx i)) ∧
    (∀ e, (s.station n).event = some e →
      let again (t : State) : Prop := (t.station n).event = some e ∧ (t.station n).hart.pc = s.evvec.getD e.kind 0 ∧ (t.station n).fails ≠ 0
      ((s.station n).fails = 0 → ∃ t, exec (.evStationCoreReset n) s = .next t ∧ again t ∧ t.errlog = s.errlog) ∧
      ((s.station n).fails ≠ 0 → ∃ t, exec (.evStationCoreReset n) s = .next t ∧ (t.station n).event = none ∧
        (t.station n).fenced = (s.station n).fenced ∧ t.errlog = s.errlog ++ [.event n e.kind e.part e.key]) ∧
      ∀ tr, s.cur = .station n →
        ((s.station n).fails = 0 → again (s.take tr) ∧ (s.take tr).errlog = s.errlog ++ [.trap n tr]) ∧
        ((s.station n).fails ≠ 0 → ((s.take tr).station n).event = none ∧
          (s.take tr).errlog = s.errlog ++ [.trap n tr, .event n e.kind e.part e.key] ∧
          ((s.station n).fails = 1 → ((s.take tr).station n).fenced = true))) ∧
    (∀ ctx, (s.ctx ctx).state ≠ .running → exec (.evTimeSliceExpiry ctx) s = .next s) ∧
    (∀ ctx, (s.ctx ctx).state = .running → ∃ t e, exec (.evTimeSliceExpiry ctx) s = .next t ∧ e.kind = 1 ∧ e.part = (s.ctx ctx).part ∧
      t.contexts = s.contexts ∧ (s.events.length < 4096 → t.events = s.events ++ [e]) ∧
      (4096 ≤ s.events.length → t.events = s.events ∧ t.heldEvents = s.heldEvents ++ [e])) ∧
    ∀ p : BitVec 4,
      ((∀ m < 12, ∀ e, (s.station m).event = some e → e.part ≠ p.toNat) → exec (.evSchedulerWatchdog p) s = .next s) ∧
      ((∃ e, (s.station n).event = some e ∧ e.part = p.toNat) →
        ∃ t, exec (.evSchedulerWatchdog p) s = .next t ∧ (t.part p.toNat).pstat = 3 ∧ (s.events.length < 4096 → toldOf t p.toNat) ∧
          ∀ c < 1024, (s.ctx c).part = p.toNat → (s.ctx c).state ≠ .free → (t.ctx c).state = .terminating)

/-- R205, R266, R284, R330, R333, R337, R365: a request of another package that no export window covers, that meets a header plane, or that
would write a slot table, is noted as an error; one that is covered is performed at its home lines, waiting where they are pinned or lost, and
stands until it completes: a store's bytes are there, an atomic's new value too, and a load changes none. The package takes the id assigned. That
the request names an offset in the window is the model's reading (log 37). -/
def incomingPart : Prop :=
  ∀ (s : State),
    (∀ key off op, (∀ tag, op ≠ .complete tag) →
      let i : Instr := .evIncomingRequest key off op
      (s.exporter key off (inSize op) = none → ∃ t, exec i s = .next t ∧ t.errlog = s.errlog ++ [.request key.toNat (off % 2 ^ 40)] ∧
        t.hbm = s.hbm ∧ t.l2 = s.l2 ∧ t.incoming = s.incoming) ∧
      ∀ p, s.exporter key off (inSize op) = some p →
        let pa := (s.part p).expbase + off
        let lines := cutLines (BitVec.ofNat 64 pa) (inSize op) (inSize op)
        let slots : Prop := (∀ n, op ≠ .load n) ∧ s.meetsSlots pa (inSize op) = true
        (slots → ∃ t, exec i s = .next t ∧ t.errlog = s.errlog ++ [.request key.toNat (off % 2 ^ 40)] ∧
          t.hbm = s.hbm ∧ t.l2 = s.l2 ∧ t.incoming = s.incoming) ∧
        (¬slots → (∃ e ∈ lines, s.pinnedOutside (e.y.toNat / 64) = true) → exec i s = .next s) ∧
        (¬slots → (∀ e ∈ lines, s.pinnedOutside (e.y.toNat / 64) = false) →
          (∀ s1, s.inPerform pa op = .error s1 → exec i s = .next s1) ∧
          (∀ s1, s.inPerform pa op = .ok s1 → ∃ t, exec i s = .next t ∧ t.incoming = s1.incoming ++ [⟨s1.nextTag, p, key⟩] ∧
            t.hbm = s1.hbm ∧ t.l2 = s1.l2) ∧
          (0 < inSize op → pa % 64 + inSize op ≤ 64 → pa < 2 ^ 51 → s.isLost (pa / 64) = false → hasRoom s (pa / 64) →
            (∀ l, s.l2At (pa / 64) = some l → l.inj = .none) →
              (∀ n, op = .load n → ∃ t, exec i s = .next t ∧ memSame s t) ∧
              (∀ bs, op = .store bs → ∃ t, exec i s = .next t ∧ homeStored s t pa bs.length fun j => bs.getD j 0) ∧
              ∀ a big o cmp, op = .atom a big o cmp →
                let old := s.physNat pa (inSize op)
                ∃ t, exec i s = .next t ∧ homeStored s t pa (inSize op) fun j =>
                  BitVec.ofNat 8 ((if a = .cas ∧ old ≠ cmp then old else atomNew a (inSize op) old o cmp) / 2 ^ (8 * j))))) ∧
    (∀ key off tag, exec (.evIncomingRequest key off (.complete tag)) s =
      .next { s with incoming := s.incoming.filter (·.tag != tag) }) ∧
    ∀ id, exec (.evPackageIdAssign id) s = .next { s with pkgId := id }

/-- The errors counted for a function rise by so many corrected and uncorrectable ones (R351). -/
def counted (old new : List ErrCount) (f : Func) (cor unc : Nat) : Prop :=
  let was := (old.find? (·.func == f)).getD ⟨f, 0, 0⟩
  ∃ n ∈ new, n.func = f ∧ n.corrected = was.corrected + cor ∧ n.uncorrectable = was.uncorrectable + unc

/-- R326, R341, R346 to R349, R351: power, boot and failures: power comes on; the boot ROM runs the first image accepted, and else
keeps the refusal's code and counts the try; a flit retry is counted, and changes nothing else; a port that cannot retrain is fenced and counted,
and each READY partition is told (the model's choice, log 89); a failed HBM stack is fenced, and fences and tells each partition that owns a pair
of it; too warm a coolant slows the clock and changes no result; a port trains once Ramner runs, unless it is fenced; a scan test of a cluster
begins without owners and clears its READY bit (that it begins and ends in two moves is the model's choice, log 103); a pass makes it READY
again on a sound physical cluster, and a failure breaks the physical cluster that it has, or that would be its own, and takes the map entry of one
for which the die has no other, with the contexts there; a loss of power loses all but the host's memory (log 39, the model's reading). -/
def packageEvents : Prop :=
  ∀ (s : State),
    exec .evPowerOn s = .next { s with powered := true } ∧
    (∀ src hash, src = 1 ∨ src = 2 → s.bootstat.getLsbD 31 = false →
      (∃ t, exec (.evBootImageOffer src 0 hash) s = .next t ∧ t.bootstat.getLsbD 31 = true ∧ t.bootstat.extractLsb' 16 2 = src ∧
        t.measurements = [hash]) ∧
      ∀ code : BitVec 8, 1 ≤ code.toNat → code.toNat ≤ 5 →
        ∃ t, exec (.evBootImageOffer src code hash) s = .next t ∧ t.bootstat.getLsbD 31 = false ∧
          t.bootstat.extractLsb' 16 2 = src ∧ t.bootstat.extractLsb' 0 8 = code ∧ t.measurements = s.measurements ∧
          (t.bootstat.extractLsb' 8 8).toNat = min 255 ((s.bootstat.extractLsb' 8 8).toNat + 1)) ∧
    (∀ src code hash, s.bootstat.getLsbD 31 = true → exec (.evBootImageOffer src code hash) s = .next s) ∧
    (∀ port, ∃ l, exec (.evD2dFlitRetry port) s = .next { s with counts := l } ∧ counted s.counts l (.port true port) 1 0) ∧
    (∀ port < 24, ∃ t, exec (.evPortRetrainFail false port) s = .next t ∧ t.portFenced.getLsbD port = true ∧ t.cores = s.cores ∧
      counted s.counts t.counts (.port false port) 0 1 ∧
      (s.events.length + 16 ≤ 4096 → ∀ p < 16, (s.part p).pstat = 2 → toldOf t p)) ∧
    (∀ port < 8, ∃ t, exec (.evPortRetrainFail true port) s = .next t ∧ t.d2dFenced.getLsbD port = true ∧ t.cores = s.cores ∧
      counted s.counts t.counts (.port true port) 0 1 ∧
      (s.events.length + 16 ≤ 4096 → ∀ p < 16, (s.part p).pstat = 2 → toldOf t p)) ∧
    (∀ h < 16, ∃ t, exec (.evHbmStackFail h) s = .next t ∧ t.hbmUp.getLsbD h = false ∧ t.hbmFenced.getLsbD h = true ∧
      ∀ p < 16, (∃ j < 16, (s.part p).phbm.getLsbD (16 * h + j) = true) → (t.part p).pstat = 3 ∧
        (s.events.length + 16 ≤ 4096 → toldOf t p) ∧
        ∀ c < 1024, (s.ctx c).part = p → (s.ctx c).state ≠ .free → (t.ctx c).state = .terminating) ∧
    (∃ t, exec .evCoolantOverlimit s = .next t ∧ t = { s with throttle := s.throttle + 1 }) ∧
    (∀ port < 24, (s.portFenced.getLsbD port = true ∨ s.booted = false → exec (.evUalinkPortTrained port) s = .next s) ∧
      (s.portFenced.getLsbD port = false → s.booted = true → ∃ t, exec (.evUalinkPortTrained port) s = .next t ∧ t.portUp.getLsbD port = true)) ∧
    (∀ cl < 128,
      let entry := s.coreMap.getD cl 0
      let phys := (entry.setWidth 5).toNat
      let whole : Prop := entry.getLsbD 7 = true ∧ phys ∉ (s.die (cl / 16)).broken
      (s.cluTest.getLsbD cl = false →
        ((s.cluster cl).owners ≠ [] → ∀ ok, exec (.evInFieldScanTest cl ok) s = .next s) ∧
        ((s.cluster cl).owners = [] → ∀ ok, ∃ t, exec (.evInFieldScanTest cl ok) s = .next t ∧ t.cluUp.getLsbD cl = false ∧
          t.cluTest.getLsbD cl = true ∧ t.coreMap = s.coreMap ∧ t.dies = s.dies)) ∧
      (s.cluTest.getLsbD cl = true →
        (∃ t, exec (.evInFieldScanTest cl true) s = .next t ∧ t.cluTest.getLsbD cl = false ∧ t.coreMap = s.coreMap ∧ t.dies = s.dies ∧
          (whole → t.cluUp.getLsbD cl = true) ∧ (¬whole → t.cluUp = s.cluUp)) ∧
        ∃ t, exec (.evInFieldScanTest cl false) s = .next t ∧ t.cluTest.getLsbD cl = false ∧ t.cluUp.getLsbD cl = false ∧
          (entry.getLsbD 7 = true → phys ∈ (t.die (cl / 16)).broken) ∧
          (entry.getLsbD 7 = false → ∀ p, s.physFor cl = some p → p ∈ (t.die (cl / 16)).broken) ∧
          (entry.getLsbD 7 = true → t.physFor cl = none → (t.coreMap.getD cl 0).getLsbD 7 = false ∧
            ∀ o ∈ (s.cluster cl).owners, o.2.core ≠ 0 → (s.ctx o.1).state ≠ .free → (t.ctx o.1).state = .terminating) ∧
          ∀ p < 16, (s.part p).pclu.getLsbD cl = true → (∀ q < 16, q ≠ p → (s.part q).pclu.getLsbD cl = false) →
            s.events.length < 4096 → toldOf t p)) ∧
    ∃ t, exec .evPowerLoss s = .next t ∧ t.powered = false ∧ t.hbm = [] ∧ t.cores = State.reset.cores ∧ t.contexts = State.reset.contexts ∧
      t.host = s.host

/-- R89, R121, R132, R133, R284, R285, R296, R311, R316, R323, R347 to R349, R365: what Ramner brings up and sets, once an image runs (the work
itself, and what each piece needs, is the model's reading, log 14): an HBM stack that is not fenced, and a cluster that is not being tested, READY,
one that moves to a spare only when its contexts are saved, and one for which the die has none left without its entry; a context bound to a
partition; a queue created; a slot table placed; a slot made RESIDENT or freed, unless a kernel of it is past the check and has not retired; a policy
taken if it passes its checks; a context drained; a later load measured. -/
def bringUpEvents : Prop :=
  ∀ (s : State),
    (s.bootstat.getLsbD 31 = false → ∀ b, exec (.evFunctionBringUp b) s = .next s) ∧
    (s.bootstat.getLsbD 31 = true →
      (∀ n < 16, (s.hbmFenced.getLsbD n = true → exec (.evFunctionBringUp (.hbm n)) s = .next s) ∧
        (s.hbmFenced.getLsbD n = false → ∃ t, exec (.evFunctionBringUp (.hbm n)) s = .next t ∧ t.hbmUp.getLsbD n = true)) ∧
      (∀ n < 128,
        (s.physFor n = none →
          ((s.coreMap.getD n 0).getLsbD 7 = false → exec (.evFunctionBringUp (.cluster n)) s = .next s) ∧
          ((s.coreMap.getD n 0).getLsbD 7 = true → ∃ t, exec (.evFunctionBringUp (.cluster n)) s = .next t ∧ t.coreMap.getD n 0 = 0 ∧
            t.cluUp.getLsbD n = false ∧
            ∀ o ∈ (s.cluster n).owners, o.2.core ≠ 0 → (s.ctx o.1).state ≠ .free → (t.ctx o.1).state = .terminating)) ∧
        ∀ p, s.physFor n = some p →
          let entry := BitVec.ofNat 8 (128 + p)
          let moves : Prop := (s.coreMap.getD n 0).getLsbD 7 = true ∧ s.coreMap.getD n 0 ≠ entry
          (s.cluTest.getLsbD n = true ∨ (moves ∧ s.cluQuiet n = false) → exec (.evFunctionBringUp (.cluster n)) s = .next s) ∧
          (s.cluTest.getLsbD n = false → ¬moves ∨ s.cluQuiet n = true → ∃ t, exec (.evFunctionBringUp (.cluster n)) s = .next t ∧
              t.cluUp.getLsbD n = true ∧
            t.coreMap.getD n 0 = entry)) ∧
      (∀ ctx part root sb ss,
        ((s.ctx ctx).state ≠ .free ∨ 16 ≤ part ∨ ss % 64 ≠ 0 ∨ 2 ^ 24 < ss →
          exec (.evFunctionBringUp (.bindContext ctx part root sb ss)) s = .next s) ∧
        (ctx < 1024 → part < 16 → (s.ctx ctx).state = .free → ss % 64 = 0 → ss ≤ 2 ^ 24 →
          ∃ t, exec (.evFunctionBringUp (.bindContext ctx part root sb ss)) s = .next t ∧ (t.ctx ctx).state = .idle ∧
            (t.ctx ctx).part = part ∧ (t.ctx ctx).root = root ∧ (t.ctx ctx).spillBase = sb ∧ (t.ctx ctx).spillSize = ss ∧
            ∀ c, c ≠ ctx → t.ctx c = s.ctx c)) ∧
      (∀ part id ctx i fast dev ring bound, (s.ctx ctx).state ≠ .free → (s.ctx ctx).part = part → id < 1024 → i < 16 →
        (s.ctx ctx).queues.getD i none = none → s.queue? part id = none →
          ∃ t q, exec (.evFunctionBringUp (.createQueue part id ctx i fast dev ring bound)) s = .next t ∧ t.queues = s.queues ++ [q] ∧
            t.localQueue ctx i = some q ∧ q.commit = 0xFFFFFFFF ∧ q.next = 0 ∧ q.intake = [] ∧ q.fast = fast ∧ q.deviceFed = dev) ∧
      (∀ p < 16, ∀ base,
        let good : Prop := base ≠ 0 ∧ base % 64 = 0 ∧ s.ownsRange p base (64 * 4096) = true ∧ ∀ k ∈ s.kernels, k.part ≠ p
        (good → ∃ t, exec (.evFunctionBringUp (.slotTable p base)) s = .next t ∧ (t.part p).slotTable = base) ∧
        (¬good → exec (.evFunctionBringUp (.slotTable p base)) s = .next s)) ∧
      (∀ p slot entry,
        let pa := (s.part p).slotTable + 64 * slot
        let old : List Byte := s.physBytes pa 64
        let quiet : Prop := s.lineTrouble ((s.part p).slotTable / 64 + slot) = false
        let usedNow : Prop := ∃ k ∈ s.kernels, k.part = p ∧ k.slot = slot
        (s.isLost ((s.part p).slotTable / 64 + slot) = true → exec (.evFunctionBringUp (.freeSlot p slot)) s = .next s) ∧
        ∀ w ∈ [(BringUp.makeResident p slot entry, true, entry), (.freeSlot p slot, false, old)],
          (usedNow ∨ 4096 ≤ slot ∨ (s.part p).slotTable = 0 ∨ w.2.2.length ≠ 64 → w.2.1 = true ∨ quiet →
            exec (.evFunctionBringUp w.1) s = .next s) ∧
          (¬usedNow → w.2.1 = true ∨ quiet → slot < 4096 → (s.part p).slotTable ≠ 0 → w.2.2.length = 64 → pa % 64 = 0 → pa < 2 ^ 51 →
              s.isLost (pa / 64) = false →
            hasRoom s (pa / 64) → (∀ l, s.l2At (pa / 64) = some l → l.inj = .none) →
            ∃ t, exec (.evFunctionBringUp w.1) s = .next t ∧ homeStored s t pa 64 (fun i =>
              if i = 13 then (if w.2.1 = true then 1#1 else 0#1) ++ (w.2.2.getD 13 0).extractLsb' 0 7 else w.2.2.getD i 0) ∧
              (t.slotEntry p slot).res = w.2.1)) ∧
      (∀ ctx < 1024, ∀ e p l, ∃ t, exec (.evFunctionBringUp (.loadPolicy ctx e p l)) s = .next t ∧ (t.ctx ctx).policy =
        if polProgramOk e = true ∧ polProgramOk p = true ∧ polProgramOk l = true then some ⟨e, p, l⟩ else none) ∧
      (∀ ctx < 1024, ∀ on, ∃ t, exec (.evFunctionBringUp (.drain ctx on)) s = .next t ∧ (t.ctx ctx).drain = on) ∧
      ∀ hash, exec (.evFunctionBringUp (.measure hash)) s = .next { s with measurements := s.measurements ++ [hash] })

end Sys2Proof.Statements

/-- The events of the package: station cores' runs, other packages' requests, power, boot and Ramner's work. -/
def Obligations.PackageEvents : Prop := stationEvents ∧ incomingPart ∧ packageEvents ∧ bringUpEvents

/-! ## Reset, steps and the decoder (R45 to R59, R65, R81, R122, R127, R130, R135, R138, R153, R154, R184, R265, R296, R297, R342) -/

/-- R65, R81, R127, R130, R135, R137, R153, R184, R206, R265, R296, R297, R330, R342, R347: the values that the rules give the machine at reset or at
the start of a job: streams IDLE with FPM at RNE and their trap words zero, queues empty and open, push numbers 1, flags, vector and
deferral registers zero, banks in cache mode, no tile declared, no owner, contexts FREE with QSEL at its value, partitions 0 with their time
limits, the package's id, READY and BOOTSTAT 0. The spec gives no value for the rest that is stated here: JBASE, the L2, the event queue, the
submission queues, the releases, the pins, the writes that a reader may miss, the fences of stacks and the scan tests, which the model has empty
or zero (log 5, the model's choice). -/
def Obligations.ResetValues : Prop :=
  (∀ c < 512, ∀ k, let u := State.reset.strm c k
    u.st = .idle ∧ u.fpm = 0x100 ∧ u.hart.stat = 0 ∧ u.hart.prc = 0 ∧ u.hart.shadow = [] ∧ u.trapvec = 0 ∧ u.tcause = 0 ∧ u.tepc = 0 ∧
      u.tval = 0 ∧ u.tprc = 0 ∧ u.scopemode = 0 ∧ u.lists.arena = 0 ∧ u.lists.opened = [] ∧ u.lists.used = 0) ∧
  (∀ c < 512, let x := State.reset.core c
    (∀ q ∈ x.dq.toList, q.entries = [] ∧ q.closed = false) ∧ x.bq = [] ∧ x.push = 1 ∧ x.copyQ = [] ∧ x.matQ = [] ∧ x.colQ = [] ∧
      (∀ n < 64, (x.flag n).arm = 0 ∧ (x.flag n).fire = 0 ∧ (x.flag n).clr = 0) ∧ (∀ v ∈ x.v.toList, ∀ e : Fin 1024, v[e.val]'(by omega) = 0) ∧
      (∀ z ∈ x.z.toList, z = Vector.replicate 4096 0) ∧ x.kernel = none) ∧
  (∀ cl < 128, let x := State.reset.cluster cl
    (∀ m ∈ x.modes.toList, m = .cache) ∧ (∀ t ∈ x.tiles.toList, t = none) ∧ (∀ a ∈ x.acmAlloc.toList, a = none) ∧ x.owners = [] ∧
      x.ranges = [] ∧ x.stopped = [] ∧ ∀ r ∈ x.rings.toList, r = ⟨none, []⟩) ∧
  (∀ n < 1024, (State.reset.ctx n).state = .free ∧ (State.reset.ctx n).blk.qsel = 0x1AC6881F ∧ (State.reset.ctx n).jbase = 0) ∧
  (∀ p < 16, let x := State.reset.part p
    x.pclu = 0 ∧ x.pslice = 0 ∧ x.pstage = 0 ∧ x.phbm = 0 ∧ x.plane = 0 ∧ x.preqwait = 20000 ∧ x.pritime = 10000 ∧ x.rtime = 50 ∧
      x.dstlim = 64 ∧ x.pstat = 0 ∧ x.pkill = 0 ∧ x.ownKey = none ∧ x.accept = [] ∧ ∀ k < 32, State.reset.plat p k = ⟨0, 0, 0, 0⟩) ∧
  State.reset.l2 = [] ∧ State.reset.events = [] ∧ State.reset.bootstat = 0 ∧ State.reset.pkgId = 0 ∧ State.reset.queues = [] ∧
  State.reset.pins = [] ∧ State.reset.releases = [] ∧ State.reset.past = [] ∧ State.reset.hbmFenced = 0 ∧ State.reset.cluTest = 0 ∧
  State.reset.hbmUp = 0 ∧ State.reset.portUp = 0 ∧ State.reset.cluUp = 0

/-- The state after reset is well formed: no memory lists a byte. -/
def Obligations.ResetWellFormed : Prop := State.reset.Wf

/-- Every step keeps each memory of the machine in its canonical form, from any state that has it, whatever the move. -/
def Obligations.StepKeepsWellFormed : Prop := ∀ s t : State, s.Wf → step s = .next t → t.Wf

/-- Every instruction and every event answers a next state: none of them stops the machine (R58, R79, R99, R296: what goes wrong
is a trap, a wait or a context fault). -/
def Obligations.EveryInstructionAnswers : Prop := ∀ (i : Instr) (s : State), ∃ t, exec i s = .next t

namespace Sys2Proof.Statements

/-- The state in which an agent acts, the move taken off the list. -/
def acting (s : State) (a : Agent) (late : Bool) (rest : List Move) : State := { s with moves := rest, cur := a, late := late }

/-- The word at the pc of the acting agent decodes, with the word after it when it is a long form, to i. -/
def decodesTo (s : State) (i : Instr) : Prop :=
  ∃ w, s.fetchAt s.pc = .ok w ∧
    ((wordMaj w ≠ 7 ∧ decodeIn s.role w 0 = .ok i) ∨
     (wordMaj w = 7 ∧ (∃ j, decodeIn s.role w 0 = .ok j) ∧
       ∃ w1, s.fetchAt (s.pc + if s.onStation = true then 6 else 1) = .ok w1 ∧ decodeIn s.role w w1 = .ok i))

end Sys2Proof.Statements

/-- R45, R46, R58, R78, R85, R318, R323, R365: a step whose move names a stream that may act, or a station core with an event, executes the
instruction that the word at its pc decodes to. A word that cannot be fetched traps with ACCESS and its address, a word that does not decode
traps with the cause of its decode check, and so does the second word of a long form; an agent that may not act only gives up its move (log 64,
the model's reading), and a move that is an event is that event (one move is one agent's act, log 1, the model's choice). The lines of the unit's
words are read first (log 90, the model's reading): with none in trouble and no walk to report nothing changes; at the first that is lost the agent
waits, and at the first that is poisoned it takes UE with the word's address, the context's poison reported. -/
def Obligations.StepRunsTheDecodedInstruction : Prop :=
  let runs (s s1 : State) : Prop :=
    let quiet (a : Word) : Prop := s1.codeWalks a = s1 ∧ ∀ x ∈ s1.codeLines a, s1.lineTrouble x.1 = false
    (quiet s1.pc → quiet (s1.pcAfter 1) → s1.lookUnit = .ok s1) ∧
    (∀ a, a = s1.pc ∨ (a = s1.pcAfter 1 ∧ quiet s1.pc ∧ s1.unitWords s1.pc = 2) → ∀ pre x post, s1.codeLines a = pre ++ x :: post →
      (∀ y ∈ pre, s1.lineTrouble y.1 = false) → pre = [] ∨ s1.codeWalks a = s1 →
        (s1.isLost x.1 = true → step s = .next (s1.toWait (.memory x.1))) ∧
        ∀ l, s1.isLost x.1 = false → s1.l2At x.1 = some l → l.inj = .none → l.poisoned = true →
          step s = .next ((match x.2 with | some ctx => s1.reportPoison x.1 ctx | none => s1).take ⟨0x18, 0, a⟩)) ∧
    (∀ a, s1.lookUnit = .error a → step s = finish 0 a) ∧
    ∀ s2, s1.lookUnit = .ok s2 →
      let next : Word := s2.pc + if s2.onStation = true then 6 else 1
      let cause (w : IWord) (d : DecodeTrap) : BitVec 8 :=
        if d = .reserved ∧ s2.unassignedNow (wordMaj w) (wordMin w) = true then DecodeTrap.minUnassigned.cause else d.cause
      (∀ i, decodesTo s2 i → step s = exec i s2) ∧
      (s2.codeOk s2.pc = false → ∃ tr, s2.fetchAt s2.pc = .error tr) ∧
      (∀ tr, s2.fetchAt s2.pc = .error tr → step s = .next (s2.take ⟨0x11, 0, s2.pc⟩)) ∧
      (∀ w d, s2.fetchAt s2.pc = .ok w → decodeIn s2.role w 0 = .error d → step s = .next (s2.take ⟨cause w d, 0, 0⟩)) ∧
      ∀ w j, s2.fetchAt s2.pc = .ok w → wordMaj w = 7 → decodeIn s2.role w 0 = .ok j →
        (∀ tr, s2.fetchAt next = .error tr → step s = .next (s2.take ⟨0x11, 0, next⟩)) ∧
        ∀ w1 d, s2.fetchAt next = .ok w1 → decodeIn s2.role w w1 = .error d → step s = .next (s2.take ⟨cause w d, 0, 0⟩)
  (∀ (s : State) (c : Nat) (k : StreamId) (late : Bool) (rest : List Move), s.moves = .stream c k late :: rest → c < 512 →
    (s.clocked c = true → (s.strm c k).active = true → runs s (acting s (.stream c k) late rest)) ∧
    (s.clocked c = false ∨ (s.strm c k).active = false → step s = .next { s with moves := rest })) ∧
  (∀ (s : State) (n : Nat) (rest : List Move), s.moves = .station n :: rest → n < 12 →
    let acts : Prop := s.powered = true ∧ (s.station n).event.isSome = true ∧ (s.station n).fenced = false
    (acts → runs s (acting s (.station n) false rest)) ∧ (¬acts → step s = .next { s with moves := rest })) ∧
  ∀ (s : State) (e : Instr) (rest : List Move), s.moves = .event e :: rest → e.enc = .none →
    (s.powered = true ∨ e = .evPowerOn → step s = exec e { s with moves := rest, late := false }) ∧
    (s.powered = false → e ≠ .evPowerOn → step s = .next { s with moves := rest })

/-- R45, R46, R47, R51, R52, R53, R56: words laid out field by field decode to the instructions that they stand for. -/
def Obligations.DecodeWords : Prop :=
  decode (0x01#6 ++ 0x01#6 ++ 5#6 ++ 3#6 ++ 4#6 ++ 0#6 ++ 2#3 ++ 1#1 ++ 0#8) 0 = .ok (.sub ⟨2, true⟩ 5 3 4) ∧
  decode (0x02#6 ++ 0x00#6 ++ 5#6 ++ 3#6 ++ 0#3 ++ 0#1 ++ 0xFFFFF#20) 0 = .ok (.addi ⟨0, false⟩ 5 3 0xFFFFF) ∧
  decode (0x07#6 ++ 0x00#6 ++ 9#6 ++ 0#6 ++ 0#3 ++ 0#1 ++ 0#4 ++ 0xABCD#16) 0x123456789ABC =
    .ok (.lil ⟨0, false⟩ 9 0xABCD123456789ABC) ∧
  decode (0x08#6 ++ 0x01#6 ++ 1#3 ++ 0#1 ++ 0xFFFFFFFE#32) 0 = .ok (.call ⟨1, false⟩ 0xFFFFFFFE) ∧
  decode (0x0C#6 ++ 0x2E#6 ++ 7#6 ++ 8#6 ++ 3#3 ++ 0#3 ++ 0#1 ++ 0x10#17) 0 =
    .ok (.ld ⟨0, false⟩ true false .acquire .b4 .die 7 8 0x10) ∧
  decode (0x0E#6 ++ 0x25#6 ++ 7#6 ++ 8#6 ++ 9#6 ++ 0#6 ++ 0#3 ++ 0#1 ++ 9#4 ++ 0#4) 0 =
    .ok (.atom ⟨0, false⟩ .cas true .acquire .package 0 7 8 9) ∧
  decode (0x0A#6 ++ 0x02#6 ++ 0#6 ++ 3#6 ++ 0#6 ++ 0#6 ++ 0#3 ++ 0#1 ++ 0x1B#8) 0 = .ok (.rpt ⟨0, false⟩ 3 0 1 2 3) ∧
  decode (0x20#6 ++ 0x03#6 ++ 3#6 ++ 4#6 ++ 10#4 ++ 0xFFF#12 ++ 255#8) 0 = .ok (.cpyx 3 4 10 0xFFF 255)

/-- R56, R57, R58: the order of the decode checks: a word of zeros or of ones, then a MAJ that the context does not assign, then a privileged MAJ in a
stream, each with its cause; a handler's privileged MAJ is an unassigned MIN; and what passes these checks is an instruction whose
fields are well formed, or a trap with cause 2 or 3. -/
def Obligations.DecodeChecks : Prop :=
  ∀ (r : Role) (w w1 : IWord),
    decodeIn r 0 w1 = .error .allZeros ∧ decodeIn r (BitVec.allOnes 48) w1 = .error .allOnes ∧
    (w ≠ 0 → w ≠ BitVec.allOnes 48 →
      let maj := (w.extractLsb' 42 6).toNat
      (maj = 0 ∨ (0x1D ≤ maj ∧ maj ≤ 0x1F) ∨ (0x29 ≤ maj ∧ maj ≤ 0x2F) ∨ 0x33 ≤ maj → decodeIn r w w1 = .error .majUnassigned) ∧
      (r = .station → 0x11 ≤ maj → maj ≤ 0x28 → decodeIn r w w1 = .error .majUnassigned) ∧
      (0x30 ≤ maj → maj ≤ 0x32 → (∀ k, r = .stream k → decodeIn r w w1 = .error .privileged) ∧
        (r = .handler → decodeIn r w w1 = .error .minUnassigned)) ∧
      (¬(maj = 0 ∨ (0x1D ≤ maj ∧ maj ≤ 0x1F) ∨ (0x29 ≤ maj ∧ maj ≤ 0x2F) ∨ 0x33 ≤ maj) → ¬(r = .station ∧ 0x11 ≤ maj ∧ maj ≤ 0x28) →
        ¬(0x30 ≤ maj ∧ maj ≤ 0x32 ∧ ∃ k, r = .stream k) →
          ∀ d, decodeIn r w w1 = .error d → d = .minUnassigned ∨ d = .reserved)) ∧
    (∀ i, decodeIn r w w1 = .ok i → i.wf = true ∧ i.enc ≠ .none) ∧
    (DecodeTrap.allZeros.cause = 4 ∧ DecodeTrap.allOnes.cause = 5 ∧ DecodeTrap.majUnassigned.cause = 1 ∧
      DecodeTrap.privileged.cause = 6 ∧ DecodeTrap.minUnassigned.cause = 2 ∧ DecodeTrap.reserved.cause = 3)

/-- R45 to R56: decoding the words of a well-formed instruction gives it back, with every operand; and a word that decodes is the
word that its instruction encodes to, so that no two words stand for one instruction. -/
def Obligations.DecodeAndEncodeAgree : Prop :=
  (∀ i : Instr, i.wf = true → decodeWords (encode i) = .ok i) ∧
  ∀ (w w1 : IWord) (i : Instr), decode w w1 = .ok i → i.wf = true ∧ encode i = if wordMaj w = 7 then [w, w1] else [w]
end

