-- ==== Sys2Proof/Laws/State.lean ====
section
/-! SUPPORT. What each update of a part of the state leaves in each field: one lemma per field per update. -/

namespace Sys2Proof.Machine

/-! ## `State.setCore` -/

@[simp] theorem State.setCore_cores (s : State) (n : Nat) (c : Core) : (s.setCore n c).cores = s.cores.setIfInBounds n c := rfl
@[simp] theorem State.setCore_clusters (s : State) (n : Nat) (c : Core) : (s.setCore n c).clusters = s.clusters := rfl
@[simp] theorem State.setCore_dies (s : State) (n : Nat) (c : Core) : (s.setCore n c).dies = s.dies := rfl
@[simp] theorem State.setCore_contexts (s : State) (n : Nat) (c : Core) : (s.setCore n c).contexts = s.contexts := rfl
@[simp] theorem State.setCore_parts (s : State) (n : Nat) (c : Core) : (s.setCore n c).parts = s.parts := rfl
@[simp] theorem State.setCore_queues (s : State) (n : Nat) (c : Core) : (s.setCore n c).queues = s.queues := rfl
@[simp] theorem State.setCore_kernels (s : State) (n : Nat) (c : Core) : (s.setCore n c).kernels = s.kernels := rfl
@[simp] theorem State.setCore_hbm (s : State) (n : Nat) (c : Core) : (s.setCore n c).hbm = s.hbm := rfl
@[simp] theorem State.setCore_host (s : State) (n : Nat) (c : Core) : (s.setCore n c).host = s.host := rfl
@[simp] theorem State.setCore_l2 (s : State) (n : Nat) (c : Core) : (s.setCore n c).l2 = s.l2 := rfl
@[simp] theorem State.setCore_recs (s : State) (n : Nat) (c : Core) : (s.setCore n c).recs = s.recs := rfl
@[simp] theorem State.setCore_releases (s : State) (n : Nat) (c : Core) : (s.setCore n c).releases = s.releases := rfl
@[simp] theorem State.setCore_past (s : State) (n : Nat) (c : Core) : (s.setCore n c).past = s.past := rfl
@[simp] theorem State.setCore_stamp (s : State) (n : Nat) (c : Core) : (s.setCore n c).stamp = s.stamp := rfl
@[simp] theorem State.setCore_pins (s : State) (n : Nat) (c : Core) : (s.setCore n c).pins = s.pins := rfl
@[simp] theorem State.setCore_badHbm (s : State) (n : Nat) (c : Core) : (s.setCore n c).badHbm = s.badHbm := rfl
@[simp] theorem State.setCore_slices (s : State) (n : Nat) (c : Core) : (s.setCore n c).slices = s.slices := rfl
@[simp] theorem State.setCore_retired (s : State) (n : Nat) (c : Core) : (s.setCore n c).retired = s.retired := rfl
@[simp] theorem State.setCore_incoming (s : State) (n : Nat) (c : Core) : (s.setCore n c).incoming = s.incoming := rfl
@[simp] theorem State.setCore_pkgId (s : State) (n : Nat) (c : Core) : (s.setCore n c).pkgId = s.pkgId := rfl
@[simp] theorem State.setCore_coreMap (s : State) (n : Nat) (c : Core) : (s.setCore n c).coreMap = s.coreMap := rfl
@[simp] theorem State.setCore_evvec (s : State) (n : Nat) (c : Core) : (s.setCore n c).evvec = s.evvec := rfl
@[simp] theorem State.setCore_bootstat (s : State) (n : Nat) (c : Core) : (s.setCore n c).bootstat = s.bootstat := rfl
@[simp] theorem State.setCore_measurements (s : State) (n : Nat) (c : Core) : (s.setCore n c).measurements = s.measurements := rfl
@[simp] theorem State.setCore_events (s : State) (n : Nat) (c : Core) : (s.setCore n c).events = s.events := rfl
@[simp] theorem State.setCore_heldEvents (s : State) (n : Nat) (c : Core) : (s.setCore n c).heldEvents = s.heldEvents := rfl
@[simp] theorem State.setCore_stations (s : State) (n : Nat) (c : Core) : (s.setCore n c).stations = s.stations := rfl
@[simp] theorem State.setCore_portUp (s : State) (n : Nat) (c : Core) : (s.setCore n c).portUp = s.portUp := rfl
@[simp] theorem State.setCore_portFenced (s : State) (n : Nat) (c : Core) : (s.setCore n c).portFenced = s.portFenced := rfl
@[simp] theorem State.setCore_hbmUp (s : State) (n : Nat) (c : Core) : (s.setCore n c).hbmUp = s.hbmUp := rfl
@[simp] theorem State.setCore_hbmFenced (s : State) (n : Nat) (c : Core) : (s.setCore n c).hbmFenced = s.hbmFenced := rfl
@[simp] theorem State.setCore_cluUp (s : State) (n : Nat) (c : Core) : (s.setCore n c).cluUp = s.cluUp := rfl
@[simp] theorem State.setCore_cluTest (s : State) (n : Nat) (c : Core) : (s.setCore n c).cluTest = s.cluTest := rfl
@[simp] theorem State.setCore_d2dFenced (s : State) (n : Nat) (c : Core) : (s.setCore n c).d2dFenced = s.d2dFenced := rfl
@[simp] theorem State.setCore_errlog (s : State) (n : Nat) (c : Core) : (s.setCore n c).errlog = s.errlog := rfl
@[simp] theorem State.setCore_counts (s : State) (n : Nat) (c : Core) : (s.setCore n c).counts = s.counts := rfl
@[simp] theorem State.setCore_throttle (s : State) (n : Nat) (c : Core) : (s.setCore n c).throttle = s.throttle := rfl
@[simp] theorem State.setCore_powered (s : State) (n : Nat) (c : Core) : (s.setCore n c).powered = s.powered := rfl
@[simp] theorem State.setCore_nextKernel (s : State) (n : Nat) (c : Core) : (s.setCore n c).nextKernel = s.nextKernel := rfl
@[simp] theorem State.setCore_nextTag (s : State) (n : Nat) (c : Core) : (s.setCore n c).nextTag = s.nextTag := rfl
@[simp] theorem State.setCore_moves (s : State) (n : Nat) (c : Core) : (s.setCore n c).moves = s.moves := rfl
@[simp] theorem State.setCore_tick (s : State) (n : Nat) (c : Core) : (s.setCore n c).tick = s.tick := rfl
@[simp] theorem State.setCore_cur (s : State) (n : Nat) (c : Core) : (s.setCore n c).cur = s.cur := rfl
@[simp] theorem State.setCore_late (s : State) (n : Nat) (c : Core) : (s.setCore n c).late = s.late := rfl
@[simp] theorem State.setCore_vault (s : State) (n : Nat) (c : Core) : (s.setCore n c).vault = s.vault := rfl

/-! ## `State.updCore` -/

@[simp] theorem State.updCore_cores (s : State) (n : Nat) (f : Core → Core) : (s.updCore n f).cores = s.cores.setIfInBounds n (f (s.core n)) := rfl
@[simp] theorem State.updCore_clusters (s : State) (n : Nat) (f : Core → Core) : (s.updCore n f).clusters = s.clusters := rfl
@[simp] theorem State.updCore_dies (s : State) (n : Nat) (f : Core → Core) : (s.updCore n f).dies = s.dies := rfl
@[simp] theorem State.updCore_contexts (s : State) (n : Nat) (f : Core → Core) : (s.updCore n f).contexts = s.contexts := rfl
@[simp] theorem State.updCore_parts (s : State) (n : Nat) (f : Core → Core) : (s.updCore n f).parts = s.parts := rfl
@[simp] theorem State.updCore_queues (s : State) (n : Nat) (f : Core → Core) : (s.updCore n f).queues = s.queues := rfl
@[simp] theorem State.updCore_kernels (s : State) (n : Nat) (f : Core → Core) : (s.updCore n f).kernels = s.kernels := rfl
@[simp] theorem State.updCore_hbm (s : State) (n : Nat) (f : Core → Core) : (s.updCore n f).hbm = s.hbm := rfl
@[simp] theorem State.updCore_host (s : State) (n : Nat) (f : Core → Core) : (s.updCore n f).host = s.host := rfl
@[simp] theorem State.updCore_l2 (s : State) (n : Nat) (f : Core → Core) : (s.updCore n f).l2 = s.l2 := rfl
@[simp] theorem State.updCore_recs (s : State) (n : Nat) (f : Core → Core) : (s.updCore n f).recs = s.recs := rfl
@[simp] theorem State.updCore_releases (s : State) (n : Nat) (f : Core → Core) : (s.updCore n f).releases = s.releases := rfl
@[simp] theorem State.updCore_past (s : State) (n : Nat) (f : Core → Core) : (s.updCore n f).past = s.past := rfl
@[simp] theorem State.updCore_stamp (s : State) (n : Nat) (f : Core → Core) : (s.updCore n f).stamp = s.stamp := rfl
@[simp] theorem State.updCore_pins (s : State) (n : Nat) (f : Core → Core) : (s.updCore n f).pins = s.pins := rfl
@[simp] theorem State.updCore_badHbm (s : State) (n : Nat) (f : Core → Core) : (s.updCore n f).badHbm = s.badHbm := rfl
@[simp] theorem State.updCore_slices (s : State) (n : Nat) (f : Core → Core) : (s.updCore n f).slices = s.slices := rfl
@[simp] theorem State.updCore_retired (s : State) (n : Nat) (f : Core → Core) : (s.updCore n f).retired = s.retired := rfl
@[simp] theorem State.updCore_incoming (s : State) (n : Nat) (f : Core → Core) : (s.updCore n f).incoming = s.incoming := rfl
@[simp] theorem State.updCore_pkgId (s : State) (n : Nat) (f : Core → Core) : (s.updCore n f).pkgId = s.pkgId := rfl
@[simp] theorem State.updCore_coreMap (s : State) (n : Nat) (f : Core → Core) : (s.updCore n f).coreMap = s.coreMap := rfl
@[simp] theorem State.updCore_evvec (s : State) (n : Nat) (f : Core → Core) : (s.updCore n f).evvec = s.evvec := rfl
@[simp] theorem State.updCore_bootstat (s : State) (n : Nat) (f : Core → Core) : (s.updCore n f).bootstat = s.bootstat := rfl
@[simp] theorem State.updCore_measurements (s : State) (n : Nat) (f : Core → Core) : (s.updCore n f).measurements = s.measurements := rfl
@[simp] theorem State.updCore_events (s : State) (n : Nat) (f : Core → Core) : (s.updCore n f).events = s.events := rfl
@[simp] theorem State.updCore_heldEvents (s : State) (n : Nat) (f : Core → Core) : (s.updCore n f).heldEvents = s.heldEvents := rfl
@[simp] theorem State.updCore_stations (s : State) (n : Nat) (f : Core → Core) : (s.updCore n f).stations = s.stations := rfl
@[simp] theorem State.updCore_portUp (s : State) (n : Nat) (f : Core → Core) : (s.updCore n f).portUp = s.portUp := rfl
@[simp] theorem State.updCore_portFenced (s : State) (n : Nat) (f : Core → Core) : (s.updCore n f).portFenced = s.portFenced := rfl
@[simp] theorem State.updCore_hbmUp (s : State) (n : Nat) (f : Core → Core) : (s.updCore n f).hbmUp = s.hbmUp := rfl
@[simp] theorem State.updCore_hbmFenced (s : State) (n : Nat) (f : Core → Core) : (s.updCore n f).hbmFenced = s.hbmFenced := rfl
@[simp] theorem State.updCore_cluUp (s : State) (n : Nat) (f : Core → Core) : (s.updCore n f).cluUp = s.cluUp := rfl
@[simp] theorem State.updCore_cluTest (s : State) (n : Nat) (f : Core → Core) : (s.updCore n f).cluTest = s.cluTest := rfl
@[simp] theorem State.updCore_d2dFenced (s : State) (n : Nat) (f : Core → Core) : (s.updCore n f).d2dFenced = s.d2dFenced := rfl
@[simp] theorem State.updCore_errlog (s : State) (n : Nat) (f : Core → Core) : (s.updCore n f).errlog = s.errlog := rfl
@[simp] theorem State.updCore_counts (s : State) (n : Nat) (f : Core → Core) : (s.updCore n f).counts = s.counts := rfl
@[simp] theorem State.updCore_throttle (s : State) (n : Nat) (f : Core → Core) : (s.updCore n f).throttle = s.throttle := rfl
@[simp] theorem State.updCore_powered (s : State) (n : Nat) (f : Core → Core) : (s.updCore n f).powered = s.powered := rfl
@[simp] theorem State.updCore_nextKernel (s : State) (n : Nat) (f : Core → Core) : (s.updCore n f).nextKernel = s.nextKernel := rfl
@[simp] theorem State.updCore_nextTag (s : State) (n : Nat) (f : Core → Core) : (s.updCore n f).nextTag = s.nextTag := rfl
@[simp] theorem State.updCore_moves (s : State) (n : Nat) (f : Core → Core) : (s.updCore n f).moves = s.moves := rfl
@[simp] theorem State.updCore_tick (s : State) (n : Nat) (f : Core → Core) : (s.updCore n f).tick = s.tick := rfl
@[simp] theorem State.updCore_cur (s : State) (n : Nat) (f : Core → Core) : (s.updCore n f).cur = s.cur := rfl
@[simp] theorem State.updCore_late (s : State) (n : Nat) (f : Core → Core) : (s.updCore n f).late = s.late := rfl
@[simp] theorem State.updCore_vault (s : State) (n : Nat) (f : Core → Core) : (s.updCore n f).vault = s.vault := rfl

/-! ## `State.updStrm` -/

@[simp] theorem State.updStrm_cores (s : State) (n : Nat) (k : StreamId) (f : Stream → Stream) : (s.updStrm n k f).cores = s.cores.setIfInBounds n ((s.core n).setStrm k (f (s.strm n k))) := rfl
@[simp] theorem State.updStrm_clusters (s : State) (n : Nat) (k : StreamId) (f : Stream → Stream) : (s.updStrm n k f).clusters = s.clusters := rfl
@[simp] theorem State.updStrm_dies (s : State) (n : Nat) (k : StreamId) (f : Stream → Stream) : (s.updStrm n k f).dies = s.dies := rfl
@[simp] theorem State.updStrm_contexts (s : State) (n : Nat) (k : StreamId) (f : Stream → Stream) : (s.updStrm n k f).contexts = s.contexts := rfl
@[simp] theorem State.updStrm_parts (s : State) (n : Nat) (k : StreamId) (f : Stream → Stream) : (s.updStrm n k f).parts = s.parts := rfl
@[simp] theorem State.updStrm_queues (s : State) (n : Nat) (k : StreamId) (f : Stream → Stream) : (s.updStrm n k f).queues = s.queues := rfl
@[simp] theorem State.updStrm_kernels (s : State) (n : Nat) (k : StreamId) (f : Stream → Stream) : (s.updStrm n k f).kernels = s.kernels := rfl
@[simp] theorem State.updStrm_hbm (s : State) (n : Nat) (k : StreamId) (f : Stream → Stream) : (s.updStrm n k f).hbm = s.hbm := rfl
@[simp] theorem State.updStrm_host (s : State) (n : Nat) (k : StreamId) (f : Stream → Stream) : (s.updStrm n k f).host = s.host := rfl
@[simp] theorem State.updStrm_l2 (s : State) (n : Nat) (k : StreamId) (f : Stream → Stream) : (s.updStrm n k f).l2 = s.l2 := rfl
@[simp] theorem State.updStrm_recs (s : State) (n : Nat) (k : StreamId) (f : Stream → Stream) : (s.updStrm n k f).recs = s.recs := rfl
@[simp] theorem State.updStrm_releases (s : State) (n : Nat) (k : StreamId) (f : Stream → Stream) : (s.updStrm n k f).releases = s.releases := rfl
@[simp] theorem State.updStrm_past (s : State) (n : Nat) (k : StreamId) (f : Stream → Stream) : (s.updStrm n k f).past = s.past := rfl
@[simp] theorem State.updStrm_stamp (s : State) (n : Nat) (k : StreamId) (f : Stream → Stream) : (s.updStrm n k f).stamp = s.stamp := rfl
@[simp] theorem State.updStrm_pins (s : State) (n : Nat) (k : StreamId) (f : Stream → Stream) : (s.updStrm n k f).pins = s.pins := rfl
@[simp] theorem State.updStrm_badHbm (s : State) (n : Nat) (k : StreamId) (f : Stream → Stream) : (s.updStrm n k f).badHbm = s.badHbm := rfl
@[simp] theorem State.updStrm_slices (s : State) (n : Nat) (k : StreamId) (f : Stream → Stream) : (s.updStrm n k f).slices = s.slices := rfl
@[simp] theorem State.updStrm_retired (s : State) (n : Nat) (k : StreamId) (f : Stream → Stream) : (s.updStrm n k f).retired = s.retired := rfl
@[simp] theorem State.updStrm_incoming (s : State) (n : Nat) (k : StreamId) (f : Stream → Stream) : (s.updStrm n k f).incoming = s.incoming := rfl
@[simp] theorem State.updStrm_pkgId (s : State) (n : Nat) (k : StreamId) (f : Stream → Stream) : (s.updStrm n k f).pkgId = s.pkgId := rfl
@[simp] theorem State.updStrm_coreMap (s : State) (n : Nat) (k : StreamId) (f : Stream → Stream) : (s.updStrm n k f).coreMap = s.coreMap := rfl
@[simp] theorem State.updStrm_evvec (s : State) (n : Nat) (k : StreamId) (f : Stream → Stream) : (s.updStrm n k f).evvec = s.evvec := rfl
@[simp] theorem State.updStrm_bootstat (s : State) (n : Nat) (k : StreamId) (f : Stream → Stream) : (s.updStrm n k f).bootstat = s.bootstat := rfl
@[simp] theorem State.updStrm_measurements (s : State) (n : Nat) (k : StreamId) (f : Stream → Stream) : (s.updStrm n k f).measurements = s.measurements := rfl
@[simp] theorem State.updStrm_events (s : State) (n : Nat) (k : StreamId) (f : Stream → Stream) : (s.updStrm n k f).events = s.events := rfl
@[simp] theorem State.updStrm_heldEvents (s : State) (n : Nat) (k : StreamId) (f : Stream → Stream) : (s.updStrm n k f).heldEvents = s.heldEvents := rfl
@[simp] theorem State.updStrm_stations (s : State) (n : Nat) (k : StreamId) (f : Stream → Stream) : (s.updStrm n k f).stations = s.stations := rfl
@[simp] theorem State.updStrm_portUp (s : State) (n : Nat) (k : StreamId) (f : Stream → Stream) : (s.updStrm n k f).portUp = s.portUp := rfl
@[simp] theorem State.updStrm_portFenced (s : State) (n : Nat) (k : StreamId) (f : Stream → Stream) : (s.updStrm n k f).portFenced = s.portFenced := rfl
@[simp] theorem State.updStrm_hbmUp (s : State) (n : Nat) (k : StreamId) (f : Stream → Stream) : (s.updStrm n k f).hbmUp = s.hbmUp := rfl
@[simp] theorem State.updStrm_hbmFenced (s : State) (n : Nat) (k : StreamId) (f : Stream → Stream) : (s.updStrm n k f).hbmFenced = s.hbmFenced := rfl
@[simp] theorem State.updStrm_cluUp (s : State) (n : Nat) (k : StreamId) (f : Stream → Stream) : (s.updStrm n k f).cluUp = s.cluUp := rfl
@[simp] theorem State.updStrm_cluTest (s : State) (n : Nat) (k : StreamId) (f : Stream → Stream) : (s.updStrm n k f).cluTest = s.cluTest := rfl
@[simp] theorem State.updStrm_d2dFenced (s : State) (n : Nat) (k : StreamId) (f : Stream → Stream) : (s.updStrm n k f).d2dFenced = s.d2dFenced := rfl
@[simp] theorem State.updStrm_errlog (s : State) (n : Nat) (k : StreamId) (f : Stream → Stream) : (s.updStrm n k f).errlog = s.errlog := rfl
@[simp] theorem State.updStrm_counts (s : State) (n : Nat) (k : StreamId) (f : Stream → Stream) : (s.updStrm n k f).counts = s.counts := rfl
@[simp] theorem State.updStrm_throttle (s : State) (n : Nat) (k : StreamId) (f : Stream → Stream) : (s.updStrm n k f).throttle = s.throttle := rfl
@[simp] theorem State.updStrm_powered (s : State) (n : Nat) (k : StreamId) (f : Stream → Stream) : (s.updStrm n k f).powered = s.powered := rfl
@[simp] theorem State.updStrm_nextKernel (s : State) (n : Nat) (k : StreamId) (f : Stream → Stream) : (s.updStrm n k f).nextKernel = s.nextKernel := rfl
@[simp] theorem State.updStrm_nextTag (s : State) (n : Nat) (k : StreamId) (f : Stream → Stream) : (s.updStrm n k f).nextTag = s.nextTag := rfl
@[simp] theorem State.updStrm_moves (s : State) (n : Nat) (k : StreamId) (f : Stream → Stream) : (s.updStrm n k f).moves = s.moves := rfl
@[simp] theorem State.updStrm_tick (s : State) (n : Nat) (k : StreamId) (f : Stream → Stream) : (s.updStrm n k f).tick = s.tick := rfl
@[simp] theorem State.updStrm_cur (s : State) (n : Nat) (k : StreamId) (f : Stream → Stream) : (s.updStrm n k f).cur = s.cur := rfl
@[simp] theorem State.updStrm_late (s : State) (n : Nat) (k : StreamId) (f : Stream → Stream) : (s.updStrm n k f).late = s.late := rfl
@[simp] theorem State.updStrm_vault (s : State) (n : Nat) (k : StreamId) (f : Stream → Stream) : (s.updStrm n k f).vault = s.vault := rfl

/-! ## `State.updCluster` -/

@[simp] theorem State.updCluster_cores (s : State) (n : Nat) (f : Cluster → Cluster) : (s.updCluster n f).cores = s.cores := rfl
@[simp] theorem State.updCluster_clusters (s : State) (n : Nat) (f : Cluster → Cluster) : (s.updCluster n f).clusters = s.clusters.setIfInBounds n (f (s.cluster n)) := rfl
@[simp] theorem State.updCluster_dies (s : State) (n : Nat) (f : Cluster → Cluster) : (s.updCluster n f).dies = s.dies := rfl
@[simp] theorem State.updCluster_contexts (s : State) (n : Nat) (f : Cluster → Cluster) : (s.updCluster n f).contexts = s.contexts := rfl
@[simp] theorem State.updCluster_parts (s : State) (n : Nat) (f : Cluster → Cluster) : (s.updCluster n f).parts = s.parts := rfl
@[simp] theorem State.updCluster_queues (s : State) (n : Nat) (f : Cluster → Cluster) : (s.updCluster n f).queues = s.queues := rfl
@[simp] theorem State.updCluster_kernels (s : State) (n : Nat) (f : Cluster → Cluster) : (s.updCluster n f).kernels = s.kernels := rfl
@[simp] theorem State.updCluster_hbm (s : State) (n : Nat) (f : Cluster → Cluster) : (s.updCluster n f).hbm = s.hbm := rfl
@[simp] theorem State.updCluster_host (s : State) (n : Nat) (f : Cluster → Cluster) : (s.updCluster n f).host = s.host := rfl
@[simp] theorem State.updCluster_l2 (s : State) (n : Nat) (f : Cluster → Cluster) : (s.updCluster n f).l2 = s.l2 := rfl
@[simp] theorem State.updCluster_recs (s : State) (n : Nat) (f : Cluster → Cluster) : (s.updCluster n f).recs = s.recs := rfl
@[simp] theorem State.updCluster_releases (s : State) (n : Nat) (f : Cluster → Cluster) : (s.updCluster n f).releases = s.releases := rfl
@[simp] theorem State.updCluster_past (s : State) (n : Nat) (f : Cluster → Cluster) : (s.updCluster n f).past = s.past := rfl
@[simp] theorem State.updCluster_stamp (s : State) (n : Nat) (f : Cluster → Cluster) : (s.updCluster n f).stamp = s.stamp := rfl
@[simp] theorem State.updCluster_pins (s : State) (n : Nat) (f : Cluster → Cluster) : (s.updCluster n f).pins = s.pins := rfl
@[simp] theorem State.updCluster_badHbm (s : State) (n : Nat) (f : Cluster → Cluster) : (s.updCluster n f).badHbm = s.badHbm := rfl
@[simp] theorem State.updCluster_slices (s : State) (n : Nat) (f : Cluster → Cluster) : (s.updCluster n f).slices = s.slices := rfl
@[simp] theorem State.updCluster_retired (s : State) (n : Nat) (f : Cluster → Cluster) : (s.updCluster n f).retired = s.retired := rfl
@[simp] theorem State.updCluster_incoming (s : State) (n : Nat) (f : Cluster → Cluster) : (s.updCluster n f).incoming = s.incoming := rfl
@[simp] theorem State.updCluster_pkgId (s : State) (n : Nat) (f : Cluster → Cluster) : (s.updCluster n f).pkgId = s.pkgId := rfl
@[simp] theorem State.updCluster_coreMap (s : State) (n : Nat) (f : Cluster → Cluster) : (s.updCluster n f).coreMap = s.coreMap := rfl
@[simp] theorem State.updCluster_evvec (s : State) (n : Nat) (f : Cluster → Cluster) : (s.updCluster n f).evvec = s.evvec := rfl
@[simp] theorem State.updCluster_bootstat (s : State) (n : Nat) (f : Cluster → Cluster) : (s.updCluster n f).bootstat = s.bootstat := rfl
@[simp] theorem State.updCluster_measurements (s : State) (n : Nat) (f : Cluster → Cluster) : (s.updCluster n f).measurements = s.measurements := rfl
@[simp] theorem State.updCluster_events (s : State) (n : Nat) (f : Cluster → Cluster) : (s.updCluster n f).events = s.events := rfl
@[simp] theorem State.updCluster_heldEvents (s : State) (n : Nat) (f : Cluster → Cluster) : (s.updCluster n f).heldEvents = s.heldEvents := rfl
@[simp] theorem State.updCluster_stations (s : State) (n : Nat) (f : Cluster → Cluster) : (s.updCluster n f).stations = s.stations := rfl
@[simp] theorem State.updCluster_portUp (s : State) (n : Nat) (f : Cluster → Cluster) : (s.updCluster n f).portUp = s.portUp := rfl
@[simp] theorem State.updCluster_portFenced (s : State) (n : Nat) (f : Cluster → Cluster) : (s.updCluster n f).portFenced = s.portFenced := rfl
@[simp] theorem State.updCluster_hbmUp (s : State) (n : Nat) (f : Cluster → Cluster) : (s.updCluster n f).hbmUp = s.hbmUp := rfl
@[simp] theorem State.updCluster_hbmFenced (s : State) (n : Nat) (f : Cluster → Cluster) : (s.updCluster n f).hbmFenced = s.hbmFenced := rfl
@[simp] theorem State.updCluster_cluUp (s : State) (n : Nat) (f : Cluster → Cluster) : (s.updCluster n f).cluUp = s.cluUp := rfl
@[simp] theorem State.updCluster_cluTest (s : State) (n : Nat) (f : Cluster → Cluster) : (s.updCluster n f).cluTest = s.cluTest := rfl
@[simp] theorem State.updCluster_d2dFenced (s : State) (n : Nat) (f : Cluster → Cluster) : (s.updCluster n f).d2dFenced = s.d2dFenced := rfl
@[simp] theorem State.updCluster_errlog (s : State) (n : Nat) (f : Cluster → Cluster) : (s.updCluster n f).errlog = s.errlog := rfl
@[simp] theorem State.updCluster_counts (s : State) (n : Nat) (f : Cluster → Cluster) : (s.updCluster n f).counts = s.counts := rfl
@[simp] theorem State.updCluster_throttle (s : State) (n : Nat) (f : Cluster → Cluster) : (s.updCluster n f).throttle = s.throttle := rfl
@[simp] theorem State.updCluster_powered (s : State) (n : Nat) (f : Cluster → Cluster) : (s.updCluster n f).powered = s.powered := rfl
@[simp] theorem State.updCluster_nextKernel (s : State) (n : Nat) (f : Cluster → Cluster) : (s.updCluster n f).nextKernel = s.nextKernel := rfl
@[simp] theorem State.updCluster_nextTag (s : State) (n : Nat) (f : Cluster → Cluster) : (s.updCluster n f).nextTag = s.nextTag := rfl
@[simp] theorem State.updCluster_moves (s : State) (n : Nat) (f : Cluster → Cluster) : (s.updCluster n f).moves = s.moves := rfl
@[simp] theorem State.updCluster_tick (s : State) (n : Nat) (f : Cluster → Cluster) : (s.updCluster n f).tick = s.tick := rfl
@[simp] theorem State.updCluster_cur (s : State) (n : Nat) (f : Cluster → Cluster) : (s.updCluster n f).cur = s.cur := rfl
@[simp] theorem State.updCluster_late (s : State) (n : Nat) (f : Cluster → Cluster) : (s.updCluster n f).late = s.late := rfl
@[simp] theorem State.updCluster_vault (s : State) (n : Nat) (f : Cluster → Cluster) : (s.updCluster n f).vault = s.vault := rfl

/-! ## `State.updCtx` -/

@[simp] theorem State.updCtx_cores (s : State) (n : Nat) (f : Context → Context) : (s.updCtx n f).cores = s.cores := rfl
@[simp] theorem State.updCtx_clusters (s : State) (n : Nat) (f : Context → Context) : (s.updCtx n f).clusters = s.clusters := rfl
@[simp] theorem State.updCtx_dies (s : State) (n : Nat) (f : Context → Context) : (s.updCtx n f).dies = s.dies := rfl
@[simp] theorem State.updCtx_contexts (s : State) (n : Nat) (f : Context → Context) : (s.updCtx n f).contexts = s.contexts.setIfInBounds n (f (s.ctx n)) := rfl
@[simp] theorem State.updCtx_parts (s : State) (n : Nat) (f : Context → Context) : (s.updCtx n f).parts = s.parts := rfl
@[simp] theorem State.updCtx_queues (s : State) (n : Nat) (f : Context → Context) : (s.updCtx n f).queues = s.queues := rfl
@[simp] theorem State.updCtx_kernels (s : State) (n : Nat) (f : Context → Context) : (s.updCtx n f).kernels = s.kernels := rfl
@[simp] theorem State.updCtx_hbm (s : State) (n : Nat) (f : Context → Context) : (s.updCtx n f).hbm = s.hbm := rfl
@[simp] theorem State.updCtx_host (s : State) (n : Nat) (f : Context → Context) : (s.updCtx n f).host = s.host := rfl
@[simp] theorem State.updCtx_l2 (s : State) (n : Nat) (f : Context → Context) : (s.updCtx n f).l2 = s.l2 := rfl
@[simp] theorem State.updCtx_recs (s : State) (n : Nat) (f : Context → Context) : (s.updCtx n f).recs = s.recs := rfl
@[simp] theorem State.updCtx_releases (s : State) (n : Nat) (f : Context → Context) : (s.updCtx n f).releases = s.releases := rfl
@[simp] theorem State.updCtx_past (s : State) (n : Nat) (f : Context → Context) : (s.updCtx n f).past = s.past := rfl
@[simp] theorem State.updCtx_stamp (s : State) (n : Nat) (f : Context → Context) : (s.updCtx n f).stamp = s.stamp := rfl
@[simp] theorem State.updCtx_pins (s : State) (n : Nat) (f : Context → Context) : (s.updCtx n f).pins = s.pins := rfl
@[simp] theorem State.updCtx_badHbm (s : State) (n : Nat) (f : Context → Context) : (s.updCtx n f).badHbm = s.badHbm := rfl
@[simp] theorem State.updCtx_slices (s : State) (n : Nat) (f : Context → Context) : (s.updCtx n f).slices = s.slices := rfl
@[simp] theorem State.updCtx_retired (s : State) (n : Nat) (f : Context → Context) : (s.updCtx n f).retired = s.retired := rfl
@[simp] theorem State.updCtx_incoming (s : State) (n : Nat) (f : Context → Context) : (s.updCtx n f).incoming = s.incoming := rfl
@[simp] theorem State.updCtx_pkgId (s : State) (n : Nat) (f : Context → Context) : (s.updCtx n f).pkgId = s.pkgId := rfl
@[simp] theorem State.updCtx_coreMap (s : State) (n : Nat) (f : Context → Context) : (s.updCtx n f).coreMap = s.coreMap := rfl
@[simp] theorem State.updCtx_evvec (s : State) (n : Nat) (f : Context → Context) : (s.updCtx n f).evvec = s.evvec := rfl
@[simp] theorem State.updCtx_bootstat (s : State) (n : Nat) (f : Context → Context) : (s.updCtx n f).bootstat = s.bootstat := rfl
@[simp] theorem State.updCtx_measurements (s : State) (n : Nat) (f : Context → Context) : (s.updCtx n f).measurements = s.measurements := rfl
@[simp] theorem State.updCtx_events (s : State) (n : Nat) (f : Context → Context) : (s.updCtx n f).events = s.events := rfl
@[simp] theorem State.updCtx_heldEvents (s : State) (n : Nat) (f : Context → Context) : (s.updCtx n f).heldEvents = s.heldEvents := rfl
@[simp] theorem State.updCtx_stations (s : State) (n : Nat) (f : Context → Context) : (s.updCtx n f).stations = s.stations := rfl
@[simp] theorem State.updCtx_portUp (s : State) (n : Nat) (f : Context → Context) : (s.updCtx n f).portUp = s.portUp := rfl
@[simp] theorem State.updCtx_portFenced (s : State) (n : Nat) (f : Context → Context) : (s.updCtx n f).portFenced = s.portFenced := rfl
@[simp] theorem State.updCtx_hbmUp (s : State) (n : Nat) (f : Context → Context) : (s.updCtx n f).hbmUp = s.hbmUp := rfl
@[simp] theorem State.updCtx_hbmFenced (s : State) (n : Nat) (f : Context → Context) : (s.updCtx n f).hbmFenced = s.hbmFenced := rfl
@[simp] theorem State.updCtx_cluUp (s : State) (n : Nat) (f : Context → Context) : (s.updCtx n f).cluUp = s.cluUp := rfl
@[simp] theorem State.updCtx_cluTest (s : State) (n : Nat) (f : Context → Context) : (s.updCtx n f).cluTest = s.cluTest := rfl
@[simp] theorem State.updCtx_d2dFenced (s : State) (n : Nat) (f : Context → Context) : (s.updCtx n f).d2dFenced = s.d2dFenced := rfl
@[simp] theorem State.updCtx_errlog (s : State) (n : Nat) (f : Context → Context) : (s.updCtx n f).errlog = s.errlog := rfl
@[simp] theorem State.updCtx_counts (s : State) (n : Nat) (f : Context → Context) : (s.updCtx n f).counts = s.counts := rfl
@[simp] theorem State.updCtx_throttle (s : State) (n : Nat) (f : Context → Context) : (s.updCtx n f).throttle = s.throttle := rfl
@[simp] theorem State.updCtx_powered (s : State) (n : Nat) (f : Context → Context) : (s.updCtx n f).powered = s.powered := rfl
@[simp] theorem State.updCtx_nextKernel (s : State) (n : Nat) (f : Context → Context) : (s.updCtx n f).nextKernel = s.nextKernel := rfl
@[simp] theorem State.updCtx_nextTag (s : State) (n : Nat) (f : Context → Context) : (s.updCtx n f).nextTag = s.nextTag := rfl
@[simp] theorem State.updCtx_moves (s : State) (n : Nat) (f : Context → Context) : (s.updCtx n f).moves = s.moves := rfl
@[simp] theorem State.updCtx_tick (s : State) (n : Nat) (f : Context → Context) : (s.updCtx n f).tick = s.tick := rfl
@[simp] theorem State.updCtx_cur (s : State) (n : Nat) (f : Context → Context) : (s.updCtx n f).cur = s.cur := rfl
@[simp] theorem State.updCtx_late (s : State) (n : Nat) (f : Context → Context) : (s.updCtx n f).late = s.late := rfl
@[simp] theorem State.updCtx_vault (s : State) (n : Nat) (f : Context → Context) : (s.updCtx n f).vault = s.vault := rfl

/-! ## `State.updPart` -/

@[simp] theorem State.updPart_cores (s : State) (n : Nat) (f : Partition → Partition) : (s.updPart n f).cores = s.cores := rfl
@[simp] theorem State.updPart_clusters (s : State) (n : Nat) (f : Partition → Partition) : (s.updPart n f).clusters = s.clusters := rfl
@[simp] theorem State.updPart_dies (s : State) (n : Nat) (f : Partition → Partition) : (s.updPart n f).dies = s.dies := rfl
@[simp] theorem State.updPart_contexts (s : State) (n : Nat) (f : Partition → Partition) : (s.updPart n f).contexts = s.contexts := rfl
@[simp] theorem State.updPart_parts (s : State) (n : Nat) (f : Partition → Partition) : (s.updPart n f).parts = s.parts.setIfInBounds n (f (s.part n)) := rfl
@[simp] theorem State.updPart_queues (s : State) (n : Nat) (f : Partition → Partition) : (s.updPart n f).queues = s.queues := rfl
@[simp] theorem State.updPart_kernels (s : State) (n : Nat) (f : Partition → Partition) : (s.updPart n f).kernels = s.kernels := rfl
@[simp] theorem State.updPart_hbm (s : State) (n : Nat) (f : Partition → Partition) : (s.updPart n f).hbm = s.hbm := rfl
@[simp] theorem State.updPart_host (s : State) (n : Nat) (f : Partition → Partition) : (s.updPart n f).host = s.host := rfl
@[simp] theorem State.updPart_l2 (s : State) (n : Nat) (f : Partition → Partition) : (s.updPart n f).l2 = s.l2 := rfl
@[simp] theorem State.updPart_recs (s : State) (n : Nat) (f : Partition → Partition) : (s.updPart n f).recs = s.recs := rfl
@[simp] theorem State.updPart_releases (s : State) (n : Nat) (f : Partition → Partition) : (s.updPart n f).releases = s.releases := rfl
@[simp] theorem State.updPart_past (s : State) (n : Nat) (f : Partition → Partition) : (s.updPart n f).past = s.past := rfl
@[simp] theorem State.updPart_stamp (s : State) (n : Nat) (f : Partition → Partition) : (s.updPart n f).stamp = s.stamp := rfl
@[simp] theorem State.updPart_pins (s : State) (n : Nat) (f : Partition → Partition) : (s.updPart n f).pins = s.pins := rfl
@[simp] theorem State.updPart_badHbm (s : State) (n : Nat) (f : Partition → Partition) : (s.updPart n f).badHbm = s.badHbm := rfl
@[simp] theorem State.updPart_slices (s : State) (n : Nat) (f : Partition → Partition) : (s.updPart n f).slices = s.slices := rfl
@[simp] theorem State.updPart_retired (s : State) (n : Nat) (f : Partition → Partition) : (s.updPart n f).retired = s.retired := rfl
@[simp] theorem State.updPart_incoming (s : State) (n : Nat) (f : Partition → Partition) : (s.updPart n f).incoming = s.incoming := rfl
@[simp] theorem State.updPart_pkgId (s : State) (n : Nat) (f : Partition → Partition) : (s.updPart n f).pkgId = s.pkgId := rfl
@[simp] theorem State.updPart_coreMap (s : State) (n : Nat) (f : Partition → Partition) : (s.updPart n f).coreMap = s.coreMap := rfl
@[simp] theorem State.updPart_evvec (s : State) (n : Nat) (f : Partition → Partition) : (s.updPart n f).evvec = s.evvec := rfl
@[simp] theorem State.updPart_bootstat (s : State) (n : Nat) (f : Partition → Partition) : (s.updPart n f).bootstat = s.bootstat := rfl
@[simp] theorem State.updPart_measurements (s : State) (n : Nat) (f : Partition → Partition) : (s.updPart n f).measurements = s.measurements := rfl
@[simp] theorem State.updPart_events (s : State) (n : Nat) (f : Partition → Partition) : (s.updPart n f).events = s.events := rfl
@[simp] theorem State.updPart_heldEvents (s : State) (n : Nat) (f : Partition → Partition) : (s.updPart n f).heldEvents = s.heldEvents := rfl
@[simp] theorem State.updPart_stations (s : State) (n : Nat) (f : Partition → Partition) : (s.updPart n f).stations = s.stations := rfl
@[simp] theorem State.updPart_portUp (s : State) (n : Nat) (f : Partition → Partition) : (s.updPart n f).portUp = s.portUp := rfl
@[simp] theorem State.updPart_portFenced (s : State) (n : Nat) (f : Partition → Partition) : (s.updPart n f).portFenced = s.portFenced := rfl
@[simp] theorem State.updPart_hbmUp (s : State) (n : Nat) (f : Partition → Partition) : (s.updPart n f).hbmUp = s.hbmUp := rfl
@[simp] theorem State.updPart_hbmFenced (s : State) (n : Nat) (f : Partition → Partition) : (s.updPart n f).hbmFenced = s.hbmFenced := rfl
@[simp] theorem State.updPart_cluUp (s : State) (n : Nat) (f : Partition → Partition) : (s.updPart n f).cluUp = s.cluUp := rfl
@[simp] theorem State.updPart_cluTest (s : State) (n : Nat) (f : Partition → Partition) : (s.updPart n f).cluTest = s.cluTest := rfl
@[simp] theorem State.updPart_d2dFenced (s : State) (n : Nat) (f : Partition → Partition) : (s.updPart n f).d2dFenced = s.d2dFenced := rfl
@[simp] theorem State.updPart_errlog (s : State) (n : Nat) (f : Partition → Partition) : (s.updPart n f).errlog = s.errlog := rfl
@[simp] theorem State.updPart_counts (s : State) (n : Nat) (f : Partition → Partition) : (s.updPart n f).counts = s.counts := rfl
@[simp] theorem State.updPart_throttle (s : State) (n : Nat) (f : Partition → Partition) : (s.updPart n f).throttle = s.throttle := rfl
@[simp] theorem State.updPart_powered (s : State) (n : Nat) (f : Partition → Partition) : (s.updPart n f).powered = s.powered := rfl
@[simp] theorem State.updPart_nextKernel (s : State) (n : Nat) (f : Partition → Partition) : (s.updPart n f).nextKernel = s.nextKernel := rfl
@[simp] theorem State.updPart_nextTag (s : State) (n : Nat) (f : Partition → Partition) : (s.updPart n f).nextTag = s.nextTag := rfl
@[simp] theorem State.updPart_moves (s : State) (n : Nat) (f : Partition → Partition) : (s.updPart n f).moves = s.moves := rfl
@[simp] theorem State.updPart_tick (s : State) (n : Nat) (f : Partition → Partition) : (s.updPart n f).tick = s.tick := rfl
@[simp] theorem State.updPart_cur (s : State) (n : Nat) (f : Partition → Partition) : (s.updPart n f).cur = s.cur := rfl
@[simp] theorem State.updPart_late (s : State) (n : Nat) (f : Partition → Partition) : (s.updPart n f).late = s.late := rfl
@[simp] theorem State.updPart_vault (s : State) (n : Nat) (f : Partition → Partition) : (s.updPart n f).vault = s.vault := rfl

/-! ## `State.updSlice` -/

@[simp] theorem State.updSlice_cores (s : State) (n : Nat) (f : Slice → Slice) : (s.updSlice n f).cores = s.cores := rfl
@[simp] theorem State.updSlice_clusters (s : State) (n : Nat) (f : Slice → Slice) : (s.updSlice n f).clusters = s.clusters := rfl
@[simp] theorem State.updSlice_dies (s : State) (n : Nat) (f : Slice → Slice) : (s.updSlice n f).dies = s.dies := rfl
@[simp] theorem State.updSlice_contexts (s : State) (n : Nat) (f : Slice → Slice) : (s.updSlice n f).contexts = s.contexts := rfl
@[simp] theorem State.updSlice_parts (s : State) (n : Nat) (f : Slice → Slice) : (s.updSlice n f).parts = s.parts := rfl
@[simp] theorem State.updSlice_queues (s : State) (n : Nat) (f : Slice → Slice) : (s.updSlice n f).queues = s.queues := rfl
@[simp] theorem State.updSlice_kernels (s : State) (n : Nat) (f : Slice → Slice) : (s.updSlice n f).kernels = s.kernels := rfl
@[simp] theorem State.updSlice_hbm (s : State) (n : Nat) (f : Slice → Slice) : (s.updSlice n f).hbm = s.hbm := rfl
@[simp] theorem State.updSlice_host (s : State) (n : Nat) (f : Slice → Slice) : (s.updSlice n f).host = s.host := rfl
@[simp] theorem State.updSlice_l2 (s : State) (n : Nat) (f : Slice → Slice) : (s.updSlice n f).l2 = s.l2 := rfl
@[simp] theorem State.updSlice_recs (s : State) (n : Nat) (f : Slice → Slice) : (s.updSlice n f).recs = s.recs := rfl
@[simp] theorem State.updSlice_releases (s : State) (n : Nat) (f : Slice → Slice) : (s.updSlice n f).releases = s.releases := rfl
@[simp] theorem State.updSlice_past (s : State) (n : Nat) (f : Slice → Slice) : (s.updSlice n f).past = s.past := rfl
@[simp] theorem State.updSlice_stamp (s : State) (n : Nat) (f : Slice → Slice) : (s.updSlice n f).stamp = s.stamp := rfl
@[simp] theorem State.updSlice_pins (s : State) (n : Nat) (f : Slice → Slice) : (s.updSlice n f).pins = s.pins := rfl
@[simp] theorem State.updSlice_badHbm (s : State) (n : Nat) (f : Slice → Slice) : (s.updSlice n f).badHbm = s.badHbm := rfl
@[simp] theorem State.updSlice_slices (s : State) (n : Nat) (f : Slice → Slice) : (s.updSlice n f).slices = s.slices.setIfInBounds n (f (s.slice n)) := rfl
@[simp] theorem State.updSlice_retired (s : State) (n : Nat) (f : Slice → Slice) : (s.updSlice n f).retired = s.retired := rfl
@[simp] theorem State.updSlice_incoming (s : State) (n : Nat) (f : Slice → Slice) : (s.updSlice n f).incoming = s.incoming := rfl
@[simp] theorem State.updSlice_pkgId (s : State) (n : Nat) (f : Slice → Slice) : (s.updSlice n f).pkgId = s.pkgId := rfl
@[simp] theorem State.updSlice_coreMap (s : State) (n : Nat) (f : Slice → Slice) : (s.updSlice n f).coreMap = s.coreMap := rfl
@[simp] theorem State.updSlice_evvec (s : State) (n : Nat) (f : Slice → Slice) : (s.updSlice n f).evvec = s.evvec := rfl
@[simp] theorem State.updSlice_bootstat (s : State) (n : Nat) (f : Slice → Slice) : (s.updSlice n f).bootstat = s.bootstat := rfl
@[simp] theorem State.updSlice_measurements (s : State) (n : Nat) (f : Slice → Slice) : (s.updSlice n f).measurements = s.measurements := rfl
@[simp] theorem State.updSlice_events (s : State) (n : Nat) (f : Slice → Slice) : (s.updSlice n f).events = s.events := rfl
@[simp] theorem State.updSlice_heldEvents (s : State) (n : Nat) (f : Slice → Slice) : (s.updSlice n f).heldEvents = s.heldEvents := rfl
@[simp] theorem State.updSlice_stations (s : State) (n : Nat) (f : Slice → Slice) : (s.updSlice n f).stations = s.stations := rfl
@[simp] theorem State.updSlice_portUp (s : State) (n : Nat) (f : Slice → Slice) : (s.updSlice n f).portUp = s.portUp := rfl
@[simp] theorem State.updSlice_portFenced (s : State) (n : Nat) (f : Slice → Slice) : (s.updSlice n f).portFenced = s.portFenced := rfl
@[simp] theorem State.updSlice_hbmUp (s : State) (n : Nat) (f : Slice → Slice) : (s.updSlice n f).hbmUp = s.hbmUp := rfl
@[simp] theorem State.updSlice_hbmFenced (s : State) (n : Nat) (f : Slice → Slice) : (s.updSlice n f).hbmFenced = s.hbmFenced := rfl
@[simp] theorem State.updSlice_cluUp (s : State) (n : Nat) (f : Slice → Slice) : (s.updSlice n f).cluUp = s.cluUp := rfl
@[simp] theorem State.updSlice_cluTest (s : State) (n : Nat) (f : Slice → Slice) : (s.updSlice n f).cluTest = s.cluTest := rfl
@[simp] theorem State.updSlice_d2dFenced (s : State) (n : Nat) (f : Slice → Slice) : (s.updSlice n f).d2dFenced = s.d2dFenced := rfl
@[simp] theorem State.updSlice_errlog (s : State) (n : Nat) (f : Slice → Slice) : (s.updSlice n f).errlog = s.errlog := rfl
@[simp] theorem State.updSlice_counts (s : State) (n : Nat) (f : Slice → Slice) : (s.updSlice n f).counts = s.counts := rfl
@[simp] theorem State.updSlice_throttle (s : State) (n : Nat) (f : Slice → Slice) : (s.updSlice n f).throttle = s.throttle := rfl
@[simp] theorem State.updSlice_powered (s : State) (n : Nat) (f : Slice → Slice) : (s.updSlice n f).powered = s.powered := rfl
@[simp] theorem State.updSlice_nextKernel (s : State) (n : Nat) (f : Slice → Slice) : (s.updSlice n f).nextKernel = s.nextKernel := rfl
@[simp] theorem State.updSlice_nextTag (s : State) (n : Nat) (f : Slice → Slice) : (s.updSlice n f).nextTag = s.nextTag := rfl
@[simp] theorem State.updSlice_moves (s : State) (n : Nat) (f : Slice → Slice) : (s.updSlice n f).moves = s.moves := rfl
@[simp] theorem State.updSlice_tick (s : State) (n : Nat) (f : Slice → Slice) : (s.updSlice n f).tick = s.tick := rfl
@[simp] theorem State.updSlice_cur (s : State) (n : Nat) (f : Slice → Slice) : (s.updSlice n f).cur = s.cur := rfl
@[simp] theorem State.updSlice_late (s : State) (n : Nat) (f : Slice → Slice) : (s.updSlice n f).late = s.late := rfl
@[simp] theorem State.updSlice_vault (s : State) (n : Nat) (f : Slice → Slice) : (s.updSlice n f).vault = s.vault := rfl

/-! ## `State.updDie` -/

@[simp] theorem State.updDie_cores (s : State) (n : Nat) (f : Die → Die) : (s.updDie n f).cores = s.cores := rfl
@[simp] theorem State.updDie_clusters (s : State) (n : Nat) (f : Die → Die) : (s.updDie n f).clusters = s.clusters := rfl
@[simp] theorem State.updDie_dies (s : State) (n : Nat) (f : Die → Die) : (s.updDie n f).dies = s.dies.setIfInBounds n (f (s.die n)) := rfl
@[simp] theorem State.updDie_contexts (s : State) (n : Nat) (f : Die → Die) : (s.updDie n f).contexts = s.contexts := rfl
@[simp] theorem State.updDie_parts (s : State) (n : Nat) (f : Die → Die) : (s.updDie n f).parts = s.parts := rfl
@[simp] theorem State.updDie_queues (s : State) (n : Nat) (f : Die → Die) : (s.updDie n f).queues = s.queues := rfl
@[simp] theorem State.updDie_kernels (s : State) (n : Nat) (f : Die → Die) : (s.updDie n f).kernels = s.kernels := rfl
@[simp] theorem State.updDie_hbm (s : State) (n : Nat) (f : Die → Die) : (s.updDie n f).hbm = s.hbm := rfl
@[simp] theorem State.updDie_host (s : State) (n : Nat) (f : Die → Die) : (s.updDie n f).host = s.host := rfl
@[simp] theorem State.updDie_l2 (s : State) (n : Nat) (f : Die → Die) : (s.updDie n f).l2 = s.l2 := rfl
@[simp] theorem State.updDie_recs (s : State) (n : Nat) (f : Die → Die) : (s.updDie n f).recs = s.recs := rfl
@[simp] theorem State.updDie_releases (s : State) (n : Nat) (f : Die → Die) : (s.updDie n f).releases = s.releases := rfl
@[simp] theorem State.updDie_past (s : State) (n : Nat) (f : Die → Die) : (s.updDie n f).past = s.past := rfl
@[simp] theorem State.updDie_stamp (s : State) (n : Nat) (f : Die → Die) : (s.updDie n f).stamp = s.stamp := rfl
@[simp] theorem State.updDie_pins (s : State) (n : Nat) (f : Die → Die) : (s.updDie n f).pins = s.pins := rfl
@[simp] theorem State.updDie_badHbm (s : State) (n : Nat) (f : Die → Die) : (s.updDie n f).badHbm = s.badHbm := rfl
@[simp] theorem State.updDie_slices (s : State) (n : Nat) (f : Die → Die) : (s.updDie n f).slices = s.slices := rfl
@[simp] theorem State.updDie_retired (s : State) (n : Nat) (f : Die → Die) : (s.updDie n f).retired = s.retired := rfl
@[simp] theorem State.updDie_incoming (s : State) (n : Nat) (f : Die → Die) : (s.updDie n f).incoming = s.incoming := rfl
@[simp] theorem State.updDie_pkgId (s : State) (n : Nat) (f : Die → Die) : (s.updDie n f).pkgId = s.pkgId := rfl
@[simp] theorem State.updDie_coreMap (s : State) (n : Nat) (f : Die → Die) : (s.updDie n f).coreMap = s.coreMap := rfl
@[simp] theorem State.updDie_evvec (s : State) (n : Nat) (f : Die → Die) : (s.updDie n f).evvec = s.evvec := rfl
@[simp] theorem State.updDie_bootstat (s : State) (n : Nat) (f : Die → Die) : (s.updDie n f).bootstat = s.bootstat := rfl
@[simp] theorem State.updDie_measurements (s : State) (n : Nat) (f : Die → Die) : (s.updDie n f).measurements = s.measurements := rfl
@[simp] theorem State.updDie_events (s : State) (n : Nat) (f : Die → Die) : (s.updDie n f).events = s.events := rfl
@[simp] theorem State.updDie_heldEvents (s : State) (n : Nat) (f : Die → Die) : (s.updDie n f).heldEvents = s.heldEvents := rfl
@[simp] theorem State.updDie_stations (s : State) (n : Nat) (f : Die → Die) : (s.updDie n f).stations = s.stations := rfl
@[simp] theorem State.updDie_portUp (s : State) (n : Nat) (f : Die → Die) : (s.updDie n f).portUp = s.portUp := rfl
@[simp] theorem State.updDie_portFenced (s : State) (n : Nat) (f : Die → Die) : (s.updDie n f).portFenced = s.portFenced := rfl
@[simp] theorem State.updDie_hbmUp (s : State) (n : Nat) (f : Die → Die) : (s.updDie n f).hbmUp = s.hbmUp := rfl
@[simp] theorem State.updDie_hbmFenced (s : State) (n : Nat) (f : Die → Die) : (s.updDie n f).hbmFenced = s.hbmFenced := rfl
@[simp] theorem State.updDie_cluUp (s : State) (n : Nat) (f : Die → Die) : (s.updDie n f).cluUp = s.cluUp := rfl
@[simp] theorem State.updDie_cluTest (s : State) (n : Nat) (f : Die → Die) : (s.updDie n f).cluTest = s.cluTest := rfl
@[simp] theorem State.updDie_d2dFenced (s : State) (n : Nat) (f : Die → Die) : (s.updDie n f).d2dFenced = s.d2dFenced := rfl
@[simp] theorem State.updDie_errlog (s : State) (n : Nat) (f : Die → Die) : (s.updDie n f).errlog = s.errlog := rfl
@[simp] theorem State.updDie_counts (s : State) (n : Nat) (f : Die → Die) : (s.updDie n f).counts = s.counts := rfl
@[simp] theorem State.updDie_throttle (s : State) (n : Nat) (f : Die → Die) : (s.updDie n f).throttle = s.throttle := rfl
@[simp] theorem State.updDie_powered (s : State) (n : Nat) (f : Die → Die) : (s.updDie n f).powered = s.powered := rfl
@[simp] theorem State.updDie_nextKernel (s : State) (n : Nat) (f : Die → Die) : (s.updDie n f).nextKernel = s.nextKernel := rfl
@[simp] theorem State.updDie_nextTag (s : State) (n : Nat) (f : Die → Die) : (s.updDie n f).nextTag = s.nextTag := rfl
@[simp] theorem State.updDie_moves (s : State) (n : Nat) (f : Die → Die) : (s.updDie n f).moves = s.moves := rfl
@[simp] theorem State.updDie_tick (s : State) (n : Nat) (f : Die → Die) : (s.updDie n f).tick = s.tick := rfl
@[simp] theorem State.updDie_cur (s : State) (n : Nat) (f : Die → Die) : (s.updDie n f).cur = s.cur := rfl
@[simp] theorem State.updDie_late (s : State) (n : Nat) (f : Die → Die) : (s.updDie n f).late = s.late := rfl
@[simp] theorem State.updDie_vault (s : State) (n : Nat) (f : Die → Die) : (s.updDie n f).vault = s.vault := rfl

/-! ## `State.updStation` -/

@[simp] theorem State.updStation_cores (s : State) (n : Nat) (f : Station → Station) : (s.updStation n f).cores = s.cores := rfl
@[simp] theorem State.updStation_clusters (s : State) (n : Nat) (f : Station → Station) : (s.updStation n f).clusters = s.clusters := rfl
@[simp] theorem State.updStation_dies (s : State) (n : Nat) (f : Station → Station) : (s.updStation n f).dies = s.dies := rfl
@[simp] theorem State.updStation_contexts (s : State) (n : Nat) (f : Station → Station) : (s.updStation n f).contexts = s.contexts := rfl
@[simp] theorem State.updStation_parts (s : State) (n : Nat) (f : Station → Station) : (s.updStation n f).parts = s.parts := rfl
@[simp] theorem State.updStation_queues (s : State) (n : Nat) (f : Station → Station) : (s.updStation n f).queues = s.queues := rfl
@[simp] theorem State.updStation_kernels (s : State) (n : Nat) (f : Station → Station) : (s.updStation n f).kernels = s.kernels := rfl
@[simp] theorem State.updStation_hbm (s : State) (n : Nat) (f : Station → Station) : (s.updStation n f).hbm = s.hbm := rfl
@[simp] theorem State.updStation_host (s : State) (n : Nat) (f : Station → Station) : (s.updStation n f).host = s.host := rfl
@[simp] theorem State.updStation_l2 (s : State) (n : Nat) (f : Station → Station) : (s.updStation n f).l2 = s.l2 := rfl
@[simp] theorem State.updStation_recs (s : State) (n : Nat) (f : Station → Station) : (s.updStation n f).recs = s.recs := rfl
@[simp] theorem State.updStation_releases (s : State) (n : Nat) (f : Station → Station) : (s.updStation n f).releases = s.releases := rfl
@[simp] theorem State.updStation_past (s : State) (n : Nat) (f : Station → Station) : (s.updStation n f).past = s.past := rfl
@[simp] theorem State.updStation_stamp (s : State) (n : Nat) (f : Station → Station) : (s.updStation n f).stamp = s.stamp := rfl
@[simp] theorem State.updStation_pins (s : State) (n : Nat) (f : Station → Station) : (s.updStation n f).pins = s.pins := rfl
@[simp] theorem State.updStation_badHbm (s : State) (n : Nat) (f : Station → Station) : (s.updStation n f).badHbm = s.badHbm := rfl
@[simp] theorem State.updStation_slices (s : State) (n : Nat) (f : Station → Station) : (s.updStation n f).slices = s.slices := rfl
@[simp] theorem State.updStation_retired (s : State) (n : Nat) (f : Station → Station) : (s.updStation n f).retired = s.retired := rfl
@[simp] theorem State.updStation_incoming (s : State) (n : Nat) (f : Station → Station) : (s.updStation n f).incoming = s.incoming := rfl
@[simp] theorem State.updStation_pkgId (s : State) (n : Nat) (f : Station → Station) : (s.updStation n f).pkgId = s.pkgId := rfl
@[simp] theorem State.updStation_coreMap (s : State) (n : Nat) (f : Station → Station) : (s.updStation n f).coreMap = s.coreMap := rfl
@[simp] theorem State.updStation_evvec (s : State) (n : Nat) (f : Station → Station) : (s.updStation n f).evvec = s.evvec := rfl
@[simp] theorem State.updStation_bootstat (s : State) (n : Nat) (f : Station → Station) : (s.updStation n f).bootstat = s.bootstat := rfl
@[simp] theorem State.updStation_measurements (s : State) (n : Nat) (f : Station → Station) : (s.updStation n f).measurements = s.measurements := rfl
@[simp] theorem State.updStation_events (s : State) (n : Nat) (f : Station → Station) : (s.updStation n f).events = s.events := rfl
@[simp] theorem State.updStation_heldEvents (s : State) (n : Nat) (f : Station → Station) : (s.updStation n f).heldEvents = s.heldEvents := rfl
@[simp] theorem State.updStation_stations (s : State) (n : Nat) (f : Station → Station) : (s.updStation n f).stations = s.stations.setIfInBounds n (f (s.station n)) := rfl
@[simp] theorem State.updStation_portUp (s : State) (n : Nat) (f : Station → Station) : (s.updStation n f).portUp = s.portUp := rfl
@[simp] theorem State.updStation_portFenced (s : State) (n : Nat) (f : Station → Station) : (s.updStation n f).portFenced = s.portFenced := rfl
@[simp] theorem State.updStation_hbmUp (s : State) (n : Nat) (f : Station → Station) : (s.updStation n f).hbmUp = s.hbmUp := rfl
@[simp] theorem State.updStation_hbmFenced (s : State) (n : Nat) (f : Station → Station) : (s.updStation n f).hbmFenced = s.hbmFenced := rfl
@[simp] theorem State.updStation_cluUp (s : State) (n : Nat) (f : Station → Station) : (s.updStation n f).cluUp = s.cluUp := rfl
@[simp] theorem State.updStation_cluTest (s : State) (n : Nat) (f : Station → Station) : (s.updStation n f).cluTest = s.cluTest := rfl
@[simp] theorem State.updStation_d2dFenced (s : State) (n : Nat) (f : Station → Station) : (s.updStation n f).d2dFenced = s.d2dFenced := rfl
@[simp] theorem State.updStation_errlog (s : State) (n : Nat) (f : Station → Station) : (s.updStation n f).errlog = s.errlog := rfl
@[simp] theorem State.updStation_counts (s : State) (n : Nat) (f : Station → Station) : (s.updStation n f).counts = s.counts := rfl
@[simp] theorem State.updStation_throttle (s : State) (n : Nat) (f : Station → Station) : (s.updStation n f).throttle = s.throttle := rfl
@[simp] theorem State.updStation_powered (s : State) (n : Nat) (f : Station → Station) : (s.updStation n f).powered = s.powered := rfl
@[simp] theorem State.updStation_nextKernel (s : State) (n : Nat) (f : Station → Station) : (s.updStation n f).nextKernel = s.nextKernel := rfl
@[simp] theorem State.updStation_nextTag (s : State) (n : Nat) (f : Station → Station) : (s.updStation n f).nextTag = s.nextTag := rfl
@[simp] theorem State.updStation_moves (s : State) (n : Nat) (f : Station → Station) : (s.updStation n f).moves = s.moves := rfl
@[simp] theorem State.updStation_tick (s : State) (n : Nat) (f : Station → Station) : (s.updStation n f).tick = s.tick := rfl
@[simp] theorem State.updStation_cur (s : State) (n : Nat) (f : Station → Station) : (s.updStation n f).cur = s.cur := rfl
@[simp] theorem State.updStation_late (s : State) (n : Nat) (f : Station → Station) : (s.updStation n f).late = s.late := rfl
@[simp] theorem State.updStation_vault (s : State) (n : Nat) (f : Station → Station) : (s.updStation n f).vault = s.vault := rfl

/-! ## `State.updKernel` -/

@[simp] theorem State.updKernel_cores (s : State) (n : Nat) (f : Kernel → Kernel) : (s.updKernel n f).cores = s.cores := rfl
@[simp] theorem State.updKernel_clusters (s : State) (n : Nat) (f : Kernel → Kernel) : (s.updKernel n f).clusters = s.clusters := rfl
@[simp] theorem State.updKernel_dies (s : State) (n : Nat) (f : Kernel → Kernel) : (s.updKernel n f).dies = s.dies := rfl
@[simp] theorem State.updKernel_contexts (s : State) (n : Nat) (f : Kernel → Kernel) : (s.updKernel n f).contexts = s.contexts := rfl
@[simp] theorem State.updKernel_parts (s : State) (n : Nat) (f : Kernel → Kernel) : (s.updKernel n f).parts = s.parts := rfl
@[simp] theorem State.updKernel_queues (s : State) (n : Nat) (f : Kernel → Kernel) : (s.updKernel n f).queues = s.queues := rfl
@[simp] theorem State.updKernel_kernels (s : State) (n : Nat) (f : Kernel → Kernel) : (s.updKernel n f).kernels = s.kernels.map fun k => if k.id == n then f k else k := rfl
@[simp] theorem State.updKernel_hbm (s : State) (n : Nat) (f : Kernel → Kernel) : (s.updKernel n f).hbm = s.hbm := rfl
@[simp] theorem State.updKernel_host (s : State) (n : Nat) (f : Kernel → Kernel) : (s.updKernel n f).host = s.host := rfl
@[simp] theorem State.updKernel_l2 (s : State) (n : Nat) (f : Kernel → Kernel) : (s.updKernel n f).l2 = s.l2 := rfl
@[simp] theorem State.updKernel_recs (s : State) (n : Nat) (f : Kernel → Kernel) : (s.updKernel n f).recs = s.recs := rfl
@[simp] theorem State.updKernel_releases (s : State) (n : Nat) (f : Kernel → Kernel) : (s.updKernel n f).releases = s.releases := rfl
@[simp] theorem State.updKernel_past (s : State) (n : Nat) (f : Kernel → Kernel) : (s.updKernel n f).past = s.past := rfl
@[simp] theorem State.updKernel_stamp (s : State) (n : Nat) (f : Kernel → Kernel) : (s.updKernel n f).stamp = s.stamp := rfl
@[simp] theorem State.updKernel_pins (s : State) (n : Nat) (f : Kernel → Kernel) : (s.updKernel n f).pins = s.pins := rfl
@[simp] theorem State.updKernel_badHbm (s : State) (n : Nat) (f : Kernel → Kernel) : (s.updKernel n f).badHbm = s.badHbm := rfl
@[simp] theorem State.updKernel_slices (s : State) (n : Nat) (f : Kernel → Kernel) : (s.updKernel n f).slices = s.slices := rfl
@[simp] theorem State.updKernel_retired (s : State) (n : Nat) (f : Kernel → Kernel) : (s.updKernel n f).retired = s.retired := rfl
@[simp] theorem State.updKernel_incoming (s : State) (n : Nat) (f : Kernel → Kernel) : (s.updKernel n f).incoming = s.incoming := rfl
@[simp] theorem State.updKernel_pkgId (s : State) (n : Nat) (f : Kernel → Kernel) : (s.updKernel n f).pkgId = s.pkgId := rfl
@[simp] theorem State.updKernel_coreMap (s : State) (n : Nat) (f : Kernel → Kernel) : (s.updKernel n f).coreMap = s.coreMap := rfl
@[simp] theorem State.updKernel_evvec (s : State) (n : Nat) (f : Kernel → Kernel) : (s.updKernel n f).evvec = s.evvec := rfl
@[simp] theorem State.updKernel_bootstat (s : State) (n : Nat) (f : Kernel → Kernel) : (s.updKernel n f).bootstat = s.bootstat := rfl
@[simp] theorem State.updKernel_measurements (s : State) (n : Nat) (f : Kernel → Kernel) : (s.updKernel n f).measurements = s.measurements := rfl
@[simp] theorem State.updKernel_events (s : State) (n : Nat) (f : Kernel → Kernel) : (s.updKernel n f).events = s.events := rfl
@[simp] theorem State.updKernel_heldEvents (s : State) (n : Nat) (f : Kernel → Kernel) : (s.updKernel n f).heldEvents = s.heldEvents := rfl
@[simp] theorem State.updKernel_stations (s : State) (n : Nat) (f : Kernel → Kernel) : (s.updKernel n f).stations = s.stations := rfl
@[simp] theorem State.updKernel_portUp (s : State) (n : Nat) (f : Kernel → Kernel) : (s.updKernel n f).portUp = s.portUp := rfl
@[simp] theorem State.updKernel_portFenced (s : State) (n : Nat) (f : Kernel → Kernel) : (s.updKernel n f).portFenced = s.portFenced := rfl
@[simp] theorem State.updKernel_hbmUp (s : State) (n : Nat) (f : Kernel → Kernel) : (s.updKernel n f).hbmUp = s.hbmUp := rfl
@[simp] theorem State.updKernel_hbmFenced (s : State) (n : Nat) (f : Kernel → Kernel) : (s.updKernel n f).hbmFenced = s.hbmFenced := rfl
@[simp] theorem State.updKernel_cluUp (s : State) (n : Nat) (f : Kernel → Kernel) : (s.updKernel n f).cluUp = s.cluUp := rfl
@[simp] theorem State.updKernel_cluTest (s : State) (n : Nat) (f : Kernel → Kernel) : (s.updKernel n f).cluTest = s.cluTest := rfl
@[simp] theorem State.updKernel_d2dFenced (s : State) (n : Nat) (f : Kernel → Kernel) : (s.updKernel n f).d2dFenced = s.d2dFenced := rfl
@[simp] theorem State.updKernel_errlog (s : State) (n : Nat) (f : Kernel → Kernel) : (s.updKernel n f).errlog = s.errlog := rfl
@[simp] theorem State.updKernel_counts (s : State) (n : Nat) (f : Kernel → Kernel) : (s.updKernel n f).counts = s.counts := rfl
@[simp] theorem State.updKernel_throttle (s : State) (n : Nat) (f : Kernel → Kernel) : (s.updKernel n f).throttle = s.throttle := rfl
@[simp] theorem State.updKernel_powered (s : State) (n : Nat) (f : Kernel → Kernel) : (s.updKernel n f).powered = s.powered := rfl
@[simp] theorem State.updKernel_nextKernel (s : State) (n : Nat) (f : Kernel → Kernel) : (s.updKernel n f).nextKernel = s.nextKernel := rfl
@[simp] theorem State.updKernel_nextTag (s : State) (n : Nat) (f : Kernel → Kernel) : (s.updKernel n f).nextTag = s.nextTag := rfl
@[simp] theorem State.updKernel_moves (s : State) (n : Nat) (f : Kernel → Kernel) : (s.updKernel n f).moves = s.moves := rfl
@[simp] theorem State.updKernel_tick (s : State) (n : Nat) (f : Kernel → Kernel) : (s.updKernel n f).tick = s.tick := rfl
@[simp] theorem State.updKernel_cur (s : State) (n : Nat) (f : Kernel → Kernel) : (s.updKernel n f).cur = s.cur := rfl
@[simp] theorem State.updKernel_late (s : State) (n : Nat) (f : Kernel → Kernel) : (s.updKernel n f).late = s.late := rfl
@[simp] theorem State.updKernel_vault (s : State) (n : Nat) (f : Kernel → Kernel) : (s.updKernel n f).vault = s.vault := rfl

/-! ## `State.setHart` -/

@[simp] theorem State.setHart_clusters (s : State) (h : Hart) : (s.setHart h).clusters = s.clusters := by unfold State.setHart; split <;> rfl
@[simp] theorem State.setHart_dies (s : State) (h : Hart) : (s.setHart h).dies = s.dies := by unfold State.setHart; split <;> rfl
@[simp] theorem State.setHart_contexts (s : State) (h : Hart) : (s.setHart h).contexts = s.contexts := by unfold State.setHart; split <;> rfl
@[simp] theorem State.setHart_parts (s : State) (h : Hart) : (s.setHart h).parts = s.parts := by unfold State.setHart; split <;> rfl
@[simp] theorem State.setHart_queues (s : State) (h : Hart) : (s.setHart h).queues = s.queues := by unfold State.setHart; split <;> rfl
@[simp] theorem State.setHart_kernels (s : State) (h : Hart) : (s.setHart h).kernels = s.kernels := by unfold State.setHart; split <;> rfl
@[simp] theorem State.setHart_hbm (s : State) (h : Hart) : (s.setHart h).hbm = s.hbm := by unfold State.setHart; split <;> rfl
@[simp] theorem State.setHart_host (s : State) (h : Hart) : (s.setHart h).host = s.host := by unfold State.setHart; split <;> rfl
@[simp] theorem State.setHart_l2 (s : State) (h : Hart) : (s.setHart h).l2 = s.l2 := by unfold State.setHart; split <;> rfl
@[simp] theorem State.setHart_recs (s : State) (h : Hart) : (s.setHart h).recs = s.recs := by unfold State.setHart; split <;> rfl
@[simp] theorem State.setHart_releases (s : State) (h : Hart) : (s.setHart h).releases = s.releases := by unfold State.setHart; split <;> rfl
@[simp] theorem State.setHart_past (s : State) (h : Hart) : (s.setHart h).past = s.past := by unfold State.setHart; split <;> rfl
@[simp] theorem State.setHart_stamp (s : State) (h : Hart) : (s.setHart h).stamp = s.stamp := by unfold State.setHart; split <;> rfl
@[simp] theorem State.setHart_pins (s : State) (h : Hart) : (s.setHart h).pins = s.pins := by unfold State.setHart; split <;> rfl
@[simp] theorem State.setHart_badHbm (s : State) (h : Hart) : (s.setHart h).badHbm = s.badHbm := by unfold State.setHart; split <;> rfl
@[simp] theorem State.setHart_slices (s : State) (h : Hart) : (s.setHart h).slices = s.slices := by unfold State.setHart; split <;> rfl
@[simp] theorem State.setHart_retired (s : State) (h : Hart) : (s.setHart h).retired = s.retired := by unfold State.setHart; split <;> rfl
@[simp] theorem State.setHart_incoming (s : State) (h : Hart) : (s.setHart h).incoming = s.incoming := by unfold State.setHart; split <;> rfl
@[simp] theorem State.setHart_pkgId (s : State) (h : Hart) : (s.setHart h).pkgId = s.pkgId := by unfold State.setHart; split <;> rfl
@[simp] theorem State.setHart_coreMap (s : State) (h : Hart) : (s.setHart h).coreMap = s.coreMap := by unfold State.setHart; split <;> rfl
@[simp] theorem State.setHart_evvec (s : State) (h : Hart) : (s.setHart h).evvec = s.evvec := by unfold State.setHart; split <;> rfl
@[simp] theorem State.setHart_bootstat (s : State) (h : Hart) : (s.setHart h).bootstat = s.bootstat := by unfold State.setHart; split <;> rfl
@[simp] theorem State.setHart_measurements (s : State) (h : Hart) : (s.setHart h).measurements = s.measurements := by unfold State.setHart; split <;> rfl
@[simp] theorem State.setHart_events (s : State) (h : Hart) : (s.setHart h).events = s.events := by unfold State.setHart; split <;> rfl
@[simp] theorem State.setHart_heldEvents (s : State) (h : Hart) : (s.setHart h).heldEvents = s.heldEvents := by unfold State.setHart; split <;> rfl
@[simp] theorem State.setHart_portUp (s : State) (h : Hart) : (s.setHart h).portUp = s.portUp := by unfold State.setHart; split <;> rfl
@[simp] theorem State.setHart_portFenced (s : State) (h : Hart) : (s.setHart h).portFenced = s.portFenced := by unfold State.setHart; split <;> rfl
@[simp] theorem State.setHart_hbmUp (s : State) (h : Hart) : (s.setHart h).hbmUp = s.hbmUp := by unfold State.setHart; split <;> rfl
@[simp] theorem State.setHart_hbmFenced (s : State) (h : Hart) : (s.setHart h).hbmFenced = s.hbmFenced := by unfold State.setHart; split <;> rfl
@[simp] theorem State.setHart_cluUp (s : State) (h : Hart) : (s.setHart h).cluUp = s.cluUp := by unfold State.setHart; split <;> rfl
@[simp] theorem State.setHart_cluTest (s : State) (h : Hart) : (s.setHart h).cluTest = s.cluTest := by unfold State.setHart; split <;> rfl
@[simp] theorem State.setHart_d2dFenced (s : State) (h : Hart) : (s.setHart h).d2dFenced = s.d2dFenced := by unfold State.setHart; split <;> rfl
@[simp] theorem State.setHart_errlog (s : State) (h : Hart) : (s.setHart h).errlog = s.errlog := by unfold State.setHart; split <;> rfl
@[simp] theorem State.setHart_counts (s : State) (h : Hart) : (s.setHart h).counts = s.counts := by unfold State.setHart; split <;> rfl
@[simp] theorem State.setHart_throttle (s : State) (h : Hart) : (s.setHart h).throttle = s.throttle := by unfold State.setHart; split <;> rfl
@[simp] theorem State.setHart_powered (s : State) (h : Hart) : (s.setHart h).powered = s.powered := by unfold State.setHart; split <;> rfl
@[simp] theorem State.setHart_nextKernel (s : State) (h : Hart) : (s.setHart h).nextKernel = s.nextKernel := by unfold State.setHart; split <;> rfl
@[simp] theorem State.setHart_nextTag (s : State) (h : Hart) : (s.setHart h).nextTag = s.nextTag := by unfold State.setHart; split <;> rfl
@[simp] theorem State.setHart_moves (s : State) (h : Hart) : (s.setHart h).moves = s.moves := by unfold State.setHart; split <;> rfl
@[simp] theorem State.setHart_tick (s : State) (h : Hart) : (s.setHart h).tick = s.tick := by unfold State.setHart; split <;> rfl
@[simp] theorem State.setHart_cur (s : State) (h : Hart) : (s.setHart h).cur = s.cur := by unfold State.setHart; split <;> rfl
@[simp] theorem State.setHart_late (s : State) (h : Hart) : (s.setHart h).late = s.late := by unfold State.setHart; split <;> rfl
@[simp] theorem State.setHart_vault (s : State) (h : Hart) : (s.setHart h).vault = s.vault := by unfold State.setHart; split <;> rfl

/-! ## `State.toWait` -/

@[simp] theorem State.toWait_clusters (s : State) (w : WaitFor) : (s.toWait w).clusters = s.clusters := by unfold State.toWait; split <;> rfl
@[simp] theorem State.toWait_dies (s : State) (w : WaitFor) : (s.toWait w).dies = s.dies := by unfold State.toWait; split <;> rfl
@[simp] theorem State.toWait_contexts (s : State) (w : WaitFor) : (s.toWait w).contexts = s.contexts := by unfold State.toWait; split <;> rfl
@[simp] theorem State.toWait_parts (s : State) (w : WaitFor) : (s.toWait w).parts = s.parts := by unfold State.toWait; split <;> rfl
@[simp] theorem State.toWait_queues (s : State) (w : WaitFor) : (s.toWait w).queues = s.queues := by unfold State.toWait; split <;> rfl
@[simp] theorem State.toWait_kernels (s : State) (w : WaitFor) : (s.toWait w).kernels = s.kernels := by unfold State.toWait; split <;> rfl
@[simp] theorem State.toWait_hbm (s : State) (w : WaitFor) : (s.toWait w).hbm = s.hbm := by unfold State.toWait; split <;> rfl
@[simp] theorem State.toWait_host (s : State) (w : WaitFor) : (s.toWait w).host = s.host := by unfold State.toWait; split <;> rfl
@[simp] theorem State.toWait_l2 (s : State) (w : WaitFor) : (s.toWait w).l2 = s.l2 := by unfold State.toWait; split <;> rfl
@[simp] theorem State.toWait_recs (s : State) (w : WaitFor) : (s.toWait w).recs = s.recs := by unfold State.toWait; split <;> rfl
@[simp] theorem State.toWait_releases (s : State) (w : WaitFor) : (s.toWait w).releases = s.releases := by unfold State.toWait; split <;> rfl
@[simp] theorem State.toWait_past (s : State) (w : WaitFor) : (s.toWait w).past = s.past := by unfold State.toWait; split <;> rfl
@[simp] theorem State.toWait_stamp (s : State) (w : WaitFor) : (s.toWait w).stamp = s.stamp := by unfold State.toWait; split <;> rfl
@[simp] theorem State.toWait_pins (s : State) (w : WaitFor) : (s.toWait w).pins = s.pins := by unfold State.toWait; split <;> rfl
@[simp] theorem State.toWait_badHbm (s : State) (w : WaitFor) : (s.toWait w).badHbm = s.badHbm := by unfold State.toWait; split <;> rfl
@[simp] theorem State.toWait_slices (s : State) (w : WaitFor) : (s.toWait w).slices = s.slices := by unfold State.toWait; split <;> rfl
@[simp] theorem State.toWait_retired (s : State) (w : WaitFor) : (s.toWait w).retired = s.retired := by unfold State.toWait; split <;> rfl
@[simp] theorem State.toWait_incoming (s : State) (w : WaitFor) : (s.toWait w).incoming = s.incoming := by unfold State.toWait; split <;> rfl
@[simp] theorem State.toWait_pkgId (s : State) (w : WaitFor) : (s.toWait w).pkgId = s.pkgId := by unfold State.toWait; split <;> rfl
@[simp] theorem State.toWait_coreMap (s : State) (w : WaitFor) : (s.toWait w).coreMap = s.coreMap := by unfold State.toWait; split <;> rfl
@[simp] theorem State.toWait_evvec (s : State) (w : WaitFor) : (s.toWait w).evvec = s.evvec := by unfold State.toWait; split <;> rfl
@[simp] theorem State.toWait_bootstat (s : State) (w : WaitFor) : (s.toWait w).bootstat = s.bootstat := by unfold State.toWait; split <;> rfl
@[simp] theorem State.toWait_measurements (s : State) (w : WaitFor) : (s.toWait w).measurements = s.measurements := by unfold State.toWait; split <;> rfl
@[simp] theorem State.toWait_events (s : State) (w : WaitFor) : (s.toWait w).events = s.events := by unfold State.toWait; split <;> rfl
@[simp] theorem State.toWait_heldEvents (s : State) (w : WaitFor) : (s.toWait w).heldEvents = s.heldEvents := by unfold State.toWait; split <;> rfl
@[simp] theorem State.toWait_portUp (s : State) (w : WaitFor) : (s.toWait w).portUp = s.portUp := by unfold State.toWait; split <;> rfl
@[simp] theorem State.toWait_portFenced (s : State) (w : WaitFor) : (s.toWait w).portFenced = s.portFenced := by unfold State.toWait; split <;> rfl
@[simp] theorem State.toWait_hbmUp (s : State) (w : WaitFor) : (s.toWait w).hbmUp = s.hbmUp := by unfold State.toWait; split <;> rfl
@[simp] theorem State.toWait_hbmFenced (s : State) (w : WaitFor) : (s.toWait w).hbmFenced = s.hbmFenced := by unfold State.toWait; split <;> rfl
@[simp] theorem State.toWait_cluUp (s : State) (w : WaitFor) : (s.toWait w).cluUp = s.cluUp := by unfold State.toWait; split <;> rfl
@[simp] theorem State.toWait_cluTest (s : State) (w : WaitFor) : (s.toWait w).cluTest = s.cluTest := by unfold State.toWait; split <;> rfl
@[simp] theorem State.toWait_d2dFenced (s : State) (w : WaitFor) : (s.toWait w).d2dFenced = s.d2dFenced := by unfold State.toWait; split <;> rfl
@[simp] theorem State.toWait_errlog (s : State) (w : WaitFor) : (s.toWait w).errlog = s.errlog := by unfold State.toWait; split <;> rfl
@[simp] theorem State.toWait_counts (s : State) (w : WaitFor) : (s.toWait w).counts = s.counts := by unfold State.toWait; split <;> rfl
@[simp] theorem State.toWait_throttle (s : State) (w : WaitFor) : (s.toWait w).throttle = s.throttle := by unfold State.toWait; split <;> rfl
@[simp] theorem State.toWait_powered (s : State) (w : WaitFor) : (s.toWait w).powered = s.powered := by unfold State.toWait; split <;> rfl
@[simp] theorem State.toWait_nextKernel (s : State) (w : WaitFor) : (s.toWait w).nextKernel = s.nextKernel := by unfold State.toWait; split <;> rfl
@[simp] theorem State.toWait_nextTag (s : State) (w : WaitFor) : (s.toWait w).nextTag = s.nextTag := by unfold State.toWait; split <;> rfl
@[simp] theorem State.toWait_moves (s : State) (w : WaitFor) : (s.toWait w).moves = s.moves := by unfold State.toWait; split <;> rfl
@[simp] theorem State.toWait_tick (s : State) (w : WaitFor) : (s.toWait w).tick = s.tick := by unfold State.toWait; split <;> rfl
@[simp] theorem State.toWait_cur (s : State) (w : WaitFor) : (s.toWait w).cur = s.cur := by unfold State.toWait; split <;> rfl
@[simp] theorem State.toWait_late (s : State) (w : WaitFor) : (s.toWait w).late = s.late := by unfold State.toWait; split <;> rfl
@[simp] theorem State.toWait_vault (s : State) (w : WaitFor) : (s.toWait w).vault = s.vault := by unfold State.toWait; split <;> rfl

/-! ## `State.wake` -/

@[simp] theorem State.wake_clusters (s : State) : s.wake.clusters = s.clusters := by unfold State.wake; split <;> rfl
@[simp] theorem State.wake_dies (s : State) : s.wake.dies = s.dies := by unfold State.wake; split <;> rfl
@[simp] theorem State.wake_contexts (s : State) : s.wake.contexts = s.contexts := by unfold State.wake; split <;> rfl
@[simp] theorem State.wake_parts (s : State) : s.wake.parts = s.parts := by unfold State.wake; split <;> rfl
@[simp] theorem State.wake_queues (s : State) : s.wake.queues = s.queues := by unfold State.wake; split <;> rfl
@[simp] theorem State.wake_kernels (s : State) : s.wake.kernels = s.kernels := by unfold State.wake; split <;> rfl
@[simp] theorem State.wake_hbm (s : State) : s.wake.hbm = s.hbm := by unfold State.wake; split <;> rfl
@[simp] theorem State.wake_host (s : State) : s.wake.host = s.host := by unfold State.wake; split <;> rfl
@[simp] theorem State.wake_l2 (s : State) : s.wake.l2 = s.l2 := by unfold State.wake; split <;> rfl
@[simp] theorem State.wake_recs (s : State) : s.wake.recs = s.recs := by unfold State.wake; split <;> rfl
@[simp] theorem State.wake_releases (s : State) : s.wake.releases = s.releases := by unfold State.wake; split <;> rfl
@[simp] theorem State.wake_past (s : State) : s.wake.past = s.past := by unfold State.wake; split <;> rfl
@[simp] theorem State.wake_stamp (s : State) : s.wake.stamp = s.stamp := by unfold State.wake; split <;> rfl
@[simp] theorem State.wake_pins (s : State) : s.wake.pins = s.pins := by unfold State.wake; split <;> rfl
@[simp] theorem State.wake_badHbm (s : State) : s.wake.badHbm = s.badHbm := by unfold State.wake; split <;> rfl
@[simp] theorem State.wake_slices (s : State) : s.wake.slices = s.slices := by unfold State.wake; split <;> rfl
@[simp] theorem State.wake_retired (s : State) : s.wake.retired = s.retired := by unfold State.wake; split <;> rfl
@[simp] theorem State.wake_incoming (s : State) : s.wake.incoming = s.incoming := by unfold State.wake; split <;> rfl
@[simp] theorem State.wake_pkgId (s : State) : s.wake.pkgId = s.pkgId := by unfold State.wake; split <;> rfl
@[simp] theorem State.wake_coreMap (s : State) : s.wake.coreMap = s.coreMap := by unfold State.wake; split <;> rfl
@[simp] theorem State.wake_evvec (s : State) : s.wake.evvec = s.evvec := by unfold State.wake; split <;> rfl
@[simp] theorem State.wake_bootstat (s : State) : s.wake.bootstat = s.bootstat := by unfold State.wake; split <;> rfl
@[simp] theorem State.wake_measurements (s : State) : s.wake.measurements = s.measurements := by unfold State.wake; split <;> rfl
@[simp] theorem State.wake_events (s : State) : s.wake.events = s.events := by unfold State.wake; split <;> rfl
@[simp] theorem State.wake_heldEvents (s : State) : s.wake.heldEvents = s.heldEvents := by unfold State.wake; split <;> rfl
@[simp] theorem State.wake_portUp (s : State) : s.wake.portUp = s.portUp := by unfold State.wake; split <;> rfl
@[simp] theorem State.wake_portFenced (s : State) : s.wake.portFenced = s.portFenced := by unfold State.wake; split <;> rfl
@[simp] theorem State.wake_hbmUp (s : State) : s.wake.hbmUp = s.hbmUp := by unfold State.wake; split <;> rfl
@[simp] theorem State.wake_hbmFenced (s : State) : s.wake.hbmFenced = s.hbmFenced := by unfold State.wake; split <;> rfl
@[simp] theorem State.wake_cluUp (s : State) : s.wake.cluUp = s.cluUp := by unfold State.wake; split <;> rfl
@[simp] theorem State.wake_cluTest (s : State) : s.wake.cluTest = s.cluTest := by unfold State.wake; split <;> rfl
@[simp] theorem State.wake_d2dFenced (s : State) : s.wake.d2dFenced = s.d2dFenced := by unfold State.wake; split <;> rfl
@[simp] theorem State.wake_errlog (s : State) : s.wake.errlog = s.errlog := by unfold State.wake; split <;> rfl
@[simp] theorem State.wake_counts (s : State) : s.wake.counts = s.counts := by unfold State.wake; split <;> rfl
@[simp] theorem State.wake_throttle (s : State) : s.wake.throttle = s.throttle := by unfold State.wake; split <;> rfl
@[simp] theorem State.wake_powered (s : State) : s.wake.powered = s.powered := by unfold State.wake; split <;> rfl
@[simp] theorem State.wake_nextKernel (s : State) : s.wake.nextKernel = s.nextKernel := by unfold State.wake; split <;> rfl
@[simp] theorem State.wake_nextTag (s : State) : s.wake.nextTag = s.nextTag := by unfold State.wake; split <;> rfl
@[simp] theorem State.wake_moves (s : State) : s.wake.moves = s.moves := by unfold State.wake; split <;> rfl
@[simp] theorem State.wake_tick (s : State) : s.wake.tick = s.tick := by unfold State.wake; split <;> rfl
@[simp] theorem State.wake_cur (s : State) : s.wake.cur = s.cur := by unfold State.wake; split <;> rfl
@[simp] theorem State.wake_late (s : State) : s.wake.late = s.late := by unfold State.wake; split <;> rfl
@[simp] theorem State.wake_vault (s : State) : s.wake.vault = s.vault := by unfold State.wake; split <;> rfl

end Sys2Proof.Machine
end

