-- ==== Sys2Proof/Laws/Access.lean ====
section
/-! SUPPORT. Reading a part of the state after an update of a part: the part updated has its new value, every other its old one; and
the registers of an agent read back. -/

namespace Sys2Proof.Machine

/-! ## Parts -/

theorem getD_setIfInBounds {α : Type} {n : Nat} (v : Vector α n) (i j : Nat) (x d : α) :
    (v.setIfInBounds i x).getD j d = if j = i ∧ i < n then x else v.getD j d := by
  unfold Vector.getD
  rw [Array.getD_eq_getD_getElem?, Array.getD_eq_getD_getElem?, Vector.toArray_setIfInBounds, Array.getElem?_setIfInBounds]
  by_cases h : i = j
  · subst h
    by_cases hi : i < n
    · simp [hi]
    · simp [hi]
  · simp [h, Ne.symm h]

theorem State.core_updCore (s : State) (n m : Nat) (f : Core → Core) :
    (s.updCore n f).core m = if m = n ∧ n < 512 then f (s.core n) else s.core m :=
  getD_setIfInBounds _ _ _ _ _
theorem State.cluster_updCluster (s : State) (n m : Nat) (f : Cluster → Cluster) :
    (s.updCluster n f).cluster m = if m = n ∧ n < 128 then f (s.cluster n) else s.cluster m :=
  getD_setIfInBounds _ _ _ _ _
theorem State.ctx_updCtx (s : State) (n m : Nat) (f : Context → Context) :
    (s.updCtx n f).ctx m = if m = n ∧ n < 1024 then f (s.ctx n) else s.ctx m :=
  getD_setIfInBounds _ _ _ _ _
theorem State.part_updPart (s : State) (n m : Nat) (f : Partition → Partition) :
    (s.updPart n f).part m = if m = n ∧ n < 16 then f (s.part n) else s.part m :=
  getD_setIfInBounds _ _ _ _ _
theorem State.slice_updSlice (s : State) (n m : Nat) (f : Slice → Slice) :
    (s.updSlice n f).slice m = if m = n ∧ n < 64 then f (s.slice n) else s.slice m :=
  getD_setIfInBounds _ _ _ _ _
theorem State.die_updDie (s : State) (n m : Nat) (f : Die → Die) :
    (s.updDie n f).die m = if m = n ∧ n < 8 then f (s.die n) else s.die m :=
  getD_setIfInBounds _ _ _ _ _
theorem State.station_updStation (s : State) (n m : Nat) (f : Station → Station) :
    (s.updStation n f).station m = if m = n ∧ n < 12 then f (s.station n) else s.station m :=
  getD_setIfInBounds _ _ _ _ _

@[simp] theorem Core.strm_setStrm (c : Core) (k : StreamId) (t : Stream) : (c.setStrm k t).strm k = t := by cases k <;> rfl
theorem Core.strm_setStrm_ne (c : Core) (j k : StreamId) (t : Stream) (h : j ≠ k) : (c.setStrm k t).strm j = c.strm j := by
  cases j <;> cases k <;> first | rfl | exact absurd rfl h

/-- A stream read after a stream is updated. -/
theorem State.strm_updStrm (s : State) (n m : Nat) (j k : StreamId) (f : Stream → Stream) :
    (s.updStrm n k f).strm m j = if m = n ∧ j = k ∧ n < 512 then f (s.strm n k) else s.strm m j := by
  unfold State.strm State.updStrm
  rw [State.core_updCore]
  by_cases hm : m = n ∧ n < 512
  · obtain ⟨rfl, hn⟩ := hm
    by_cases hj : j = k
    · subst hj; simp [hn]
    · simp [hn, hj, Core.strm_setStrm_ne _ _ _ _ hj]
  · rw [if_neg hm, if_neg (fun h => hm ⟨h.1, h.2.2⟩)]

/-! ## Other parts stand (updates of one kind leave the parts of another kind) -/

@[simp] theorem State.core_updCluster (s : State) (n m : Nat) (f : Cluster → Cluster) : (s.updCluster n f).core m = s.core m := rfl
@[simp] theorem State.core_updCtx (s : State) (n m : Nat) (f : Context → Context) : (s.updCtx n f).core m = s.core m := rfl
@[simp] theorem State.core_updPart (s : State) (n m : Nat) (f : Partition → Partition) : (s.updPart n f).core m = s.core m := rfl
@[simp] theorem State.core_updSlice (s : State) (n m : Nat) (f : Slice → Slice) : (s.updSlice n f).core m = s.core m := rfl
@[simp] theorem State.core_updDie (s : State) (n m : Nat) (f : Die → Die) : (s.updDie n f).core m = s.core m := rfl
@[simp] theorem State.core_updStation (s : State) (n m : Nat) (f : Station → Station) : (s.updStation n f).core m = s.core m := rfl
@[simp] theorem State.cluster_updCore (s : State) (n m : Nat) (f : Core → Core) : (s.updCore n f).cluster m = s.cluster m := rfl
@[simp] theorem State.cluster_updStrm (s : State) (n m : Nat) (k : StreamId) (f : Stream → Stream) :
    (s.updStrm n k f).cluster m = s.cluster m := rfl
@[simp] theorem State.cluster_updCtx (s : State) (n m : Nat) (f : Context → Context) : (s.updCtx n f).cluster m = s.cluster m := rfl
@[simp] theorem State.cluster_updPart (s : State) (n m : Nat) (f : Partition → Partition) : (s.updPart n f).cluster m = s.cluster m := rfl
@[simp] theorem State.ctx_updCore (s : State) (n m : Nat) (f : Core → Core) : (s.updCore n f).ctx m = s.ctx m := rfl
@[simp] theorem State.ctx_updStrm (s : State) (n m : Nat) (k : StreamId) (f : Stream → Stream) : (s.updStrm n k f).ctx m = s.ctx m := rfl
@[simp] theorem State.ctx_updCluster (s : State) (n m : Nat) (f : Cluster → Cluster) : (s.updCluster n f).ctx m = s.ctx m := rfl
@[simp] theorem State.ctx_updPart (s : State) (n m : Nat) (f : Partition → Partition) : (s.updPart n f).ctx m = s.ctx m := rfl
@[simp] theorem State.part_updCore (s : State) (n m : Nat) (f : Core → Core) : (s.updCore n f).part m = s.part m := rfl
@[simp] theorem State.part_updStrm (s : State) (n m : Nat) (k : StreamId) (f : Stream → Stream) : (s.updStrm n k f).part m = s.part m := rfl
@[simp] theorem State.part_updCluster (s : State) (n m : Nat) (f : Cluster → Cluster) : (s.updCluster n f).part m = s.part m := rfl
@[simp] theorem State.part_updCtx (s : State) (n m : Nat) (f : Context → Context) : (s.updCtx n f).part m = s.part m := rfl

/-! ## Registers (R107) -/

@[simp] theorem Hart.get_zero (h : Hart) : h.get 0 = 0 := rfl
theorem Hart.get_put (h : Hart) (d r : XReg) (v : Word) :
    (h.put d v).get r = if r = 0 then 0 else if r = d then v else h.get r := by
  unfold Hart.get Hart.put
  by_cases h0 : r = 0
  · rw [if_pos h0, if_pos h0]
  · by_cases hd : d = 0
    · rw [if_pos hd, if_neg h0, if_neg h0, if_neg (fun e => h0 (e.trans hd))]
    · rw [if_neg hd, if_neg h0, if_neg h0]
      by_cases hr : r = d
      · rw [if_pos hr]; subst hr; simp
      · rw [if_neg hr]
        have hne : d.toNat ≠ r.toNat := fun e => hr (BitVec.eq_of_toNat_eq e.symm)
        rw [if_neg h0]
        show (h.x.set d.toFin v)[r.toFin.val] = h.x[r.toFin.val]
        exact Vector.getElem_set_ne _ _ hne
@[simp] theorem Hart.put_pc (h : Hart) (d : XReg) (v : Word) : (h.put d v).pc = h.pc := by unfold Hart.put; split <;> rfl
@[simp] theorem Hart.put_p (h : Hart) (d : XReg) (v : Word) : (h.put d v).p = h.p := by unfold Hart.put; split <;> rfl
@[simp] theorem Hart.put_prc (h : Hart) (d : XReg) (v : Word) : (h.put d v).prc = h.prc := by unfold Hart.put; split <;> rfl
@[simp] theorem Hart.put_stat (h : Hart) (d : XReg) (v : Word) : (h.put d v).stat = h.stat := by unfold Hart.put; split <;> rfl
@[simp] theorem Hart.put_shadow (h : Hart) (d : XReg) (v : Word) : (h.put d v).shadow = h.shadow := by unfold Hart.put; split <;> rfl
@[simp] theorem Hart.pred_zero (h : Hart) : h.pred 0 = true := rfl
@[simp] theorem Hart.putPred_zero (h : Hart) (b : Bool) : h.putPred 0 b = h := rfl

/-- The registers of an agent that exists read back as they were set. -/
theorem State.hart_setHart (s : State) (h : Hart)
    (ok : match s.cur with | .stream c _ => c < 512 | .station n => n < 12) : (s.setHart h).hart = h := by
  unfold State.hart
  rw [State.setHart_cur]
  unfold State.setHart
  cases hc : s.cur with
  | stream c k => simp only [hc] at ok ⊢; rw [State.strm_updStrm, if_pos ⟨rfl, rfl, ok⟩]
  | station n => simp only [hc] at ok ⊢; rw [State.station_updStation, if_pos ⟨rfl, ok⟩]

end Sys2Proof.Machine
end

