-- ==== Sys2Proof/Laws/Decode.lean ====
section
/-! SUPPORT. Laws of the encoding: the fields of a form come back from its word (R47), MAJ and MIN stand at their places (R45), and the
codes of every field name what they encode. -/

set_option linter.unreachableTactic false
set_option linter.unusedTactic false

namespace Sys2Proof

/-! ## Fields of words -/

/-- A field that lies wholly in the high part of two joined parts. -/
theorem extract_high {a b : Nat} (x : BitVec a) (y : BitVec b) (k n : Nat) (h : b ≤ k) :
    (x ++ y).extractLsb' k n = x.extractLsb' (k - b) n := by
  ext i hi
  simp only [BitVec.getElem_extractLsb', BitVec.getLsbD_append]
  rw [if_neg (by omega)]
  congr 1; omega

/-- A field that lies wholly in the low part of two joined parts. -/
theorem extract_low {a b : Nat} (x : BitVec a) (y : BitVec b) (k n : Nat) (h : k + n ≤ b) :
    (x ++ y).extractLsb' k n = y.extractLsb' k n := by
  ext i hi
  simp only [BitVec.getElem_extractLsb', BitVec.getLsbD_append]
  rw [if_pos (by omega)]

/-- A field that is a whole part. -/
theorem extract_all {n : Nat} (x : BitVec n) : x.extractLsb' 0 n = x := by
  ext i hi; simp

/-- A bit of the high part. -/
theorem bit_high {a b : Nat} (x : BitVec a) (y : BitVec b) (k : Nat) (h : b ≤ k) : (x ++ y).getLsbD k = x.getLsbD (k - b) := by
  rw [BitVec.getLsbD_append, if_neg (by omega)]

/-- A bit of the low part. -/
theorem bit_low {a b : Nat} (x : BitVec a) (y : BitVec b) (k : Nat) (h : k < b) : (x ++ y).getLsbD k = y.getLsbD k := by
  rw [BitVec.getLsbD_append, if_pos h]

theorem bit_ofBool (b : Bool) : (BitVec.ofBool b).getLsbD 0 = b := by cases b <;> rfl

/-! ## Forms (R47) -/

@[simp] theorem FormS.ofWord_toWord (maj min : BitVec 6) (f : FormS) : FormS.ofWord (f.toWord maj min) = f := by
  obtain ⟨⟨p, i⟩, d, a, b, c, fx⟩ := f
  simp only [FormS.ofWord, FormS.toWord, FormS.mk.injEq, Guard.mk.injEq]
  refine ⟨⟨?_, ?_⟩, ?_, ?_, ?_, ?_, ?_⟩ <;>
    repeat (first | exact extract_all _ | exact bit_ofBool _ | refine (extract_high _ _ _ _ (by decide)).trans ?_ |
      refine (extract_low _ _ _ _ (by decide)).trans ?_ | refine (bit_high _ _ _ (by decide)).trans ?_ |
      refine (bit_low _ _ _ (by decide)).trans ?_)
@[simp] theorem FormI.ofWord_toWord (maj min : BitVec 6) (f : FormI) : FormI.ofWord (f.toWord maj min) = f := by
  obtain ⟨⟨p, i⟩, d, a, imm⟩ := f
  simp only [FormI.ofWord, FormI.toWord, FormI.mk.injEq, Guard.mk.injEq]
  refine ⟨⟨?_, ?_⟩, ?_, ?_, ?_⟩ <;>
    repeat (first | exact extract_all _ | exact bit_ofBool _ | refine (extract_high _ _ _ _ (by decide)).trans ?_ |
      refine (extract_low _ _ _ _ (by decide)).trans ?_ | refine (bit_high _ _ _ (by decide)).trans ?_ |
      refine (bit_low _ _ _ (by decide)).trans ?_)
@[simp] theorem FormM.ofWord_toWord (maj min : BitVec 6) (f : FormM) : FormM.ofWord (f.toWord maj min) = f := by
  obtain ⟨⟨p, i⟩, d, a, sc, off⟩ := f
  simp only [FormM.ofWord, FormM.toWord, FormM.mk.injEq, Guard.mk.injEq]
  refine ⟨⟨?_, ?_⟩, ?_, ?_, ?_, ?_⟩ <;>
    repeat (first | exact extract_all _ | exact bit_ofBool _ | refine (extract_high _ _ _ _ (by decide)).trans ?_ |
      refine (extract_low _ _ _ _ (by decide)).trans ?_ | refine (bit_high _ _ _ (by decide)).trans ?_ |
      refine (bit_low _ _ _ (by decide)).trans ?_)
@[simp] theorem FormB.ofWord_toWord (maj min : BitVec 6) (f : FormB) : FormB.ofWord (f.toWord maj min) = f := by
  obtain ⟨⟨p, i⟩, disp⟩ := f
  simp only [FormB.ofWord, FormB.toWord, FormB.mk.injEq, Guard.mk.injEq]
  refine ⟨⟨?_, ?_⟩, ?_⟩ <;>
    repeat (first | exact extract_all _ | exact bit_ofBool _ | refine (extract_high _ _ _ _ (by decide)).trans ?_ |
      refine (extract_low _ _ _ _ (by decide)).trans ?_ | refine (bit_high _ _ _ (by decide)).trans ?_ |
      refine (bit_low _ _ _ (by decide)).trans ?_)
@[simp] theorem FormV.ofWord_toWord (maj min : BitVec 6) (f : FormV) : FormV.ofWord (f.toWord maj min) = f := by
  obtain ⟨vd, va, vb, vc, am, bm, m, rm, vx⟩ := f
  simp only [FormV.ofWord, FormV.toWord, FormV.mk.injEq]
  refine ⟨?_, ?_, ?_, ?_, ?_, ?_, ?_, ?_, ?_⟩ <;>
    repeat (first | exact extract_all _ | exact bit_ofBool _ | refine (extract_high _ _ _ _ (by decide)).trans ?_ |
      refine (extract_low _ _ _ _ (by decide)).trans ?_ | refine (bit_high _ _ _ (by decide)).trans ?_ |
      refine (bit_low _ _ _ (by decide)).trans ?_)
@[simp] theorem FormE.ofWord_toWord (maj min : BitVec 6) (f : FormE) : FormE.ofWord (f.toWord maj min) = f := by
  obtain ⟨a, b, sz, st, cnt⟩ := f
  simp only [FormE.ofWord, FormE.toWord, FormE.mk.injEq]
  refine ⟨?_, ?_, ?_, ?_, ?_⟩ <;>
    repeat (first | exact extract_all _ | exact bit_ofBool _ | refine (extract_high _ _ _ _ (by decide)).trans ?_ |
      refine (extract_low _ _ _ _ (by decide)).trans ?_ | refine (bit_high _ _ _ (by decide)).trans ?_ |
      refine (bit_low _ _ _ (by decide)).trans ?_)

theorem FormL.ofWords_toWords (maj min : BitVec 6) (f : FormL) : FormL.ofWords (f.toWord0 maj min) f.toWord1 = f := by
  obtain ⟨⟨p, i⟩, d, a, hi4, const⟩ := f
  simp only [FormL.ofWords, FormL.toWord0, FormL.toWord1, FormL.mk.injEq, Guard.mk.injEq]
  refine ⟨⟨?_, ?_⟩, ?_, ?_, ?_, ?_⟩
  case refine_6 =>
    refine (congrArg (· ++ BitVec.extractLsb' 0 48 const) ((extract_low _ _ 0 16 (by decide)).trans (extract_all _))).trans ?_
    refine BitVec.eq_of_getLsbD_eq fun i hi => ?_
    refine (BitVec.getLsbD_append (x := const.extractLsb' 48 16) (y := const.extractLsb' 0 48)).trans ?_
    split
    · simp; omega
    · rename_i h
      have e : 48 + (i - 48) = i := by omega
      simp [e]; omega
  all_goals
    repeat (first | exact extract_all _ | exact bit_ofBool _ | refine (extract_high _ _ _ _ (by decide)).trans ?_ |
      refine (extract_low _ _ _ _ (by decide)).trans ?_ | refine (bit_high _ _ _ (by decide)).trans ?_ |
      refine (bit_low _ _ _ (by decide)).trans ?_)

/-! ## MAJ and MIN (R45) -/

@[simp] theorem FormS.maj (maj min : BitVec 6) (f : FormS) : wordMaj (f.toWord maj min) = maj.toNat := by
  refine congrArg BitVec.toNat ?_
  repeat (first | exact extract_all _ | refine (extract_high _ _ _ _ (by decide)).trans ?_ |
    refine (extract_low _ _ _ _ (by decide)).trans ?_)
@[simp] theorem FormS.min (maj min : BitVec 6) (f : FormS) : wordMin (f.toWord maj min) = min.toNat := by
  refine congrArg BitVec.toNat ?_
  repeat (first | exact extract_all _ | refine (extract_high _ _ _ _ (by decide)).trans ?_ |
    refine (extract_low _ _ _ _ (by decide)).trans ?_)
@[simp] theorem FormI.maj (maj min : BitVec 6) (f : FormI) : wordMaj (f.toWord maj min) = maj.toNat := by
  refine congrArg BitVec.toNat ?_
  repeat (first | exact extract_all _ | refine (extract_high _ _ _ _ (by decide)).trans ?_ |
    refine (extract_low _ _ _ _ (by decide)).trans ?_)
@[simp] theorem FormI.min (maj min : BitVec 6) (f : FormI) : wordMin (f.toWord maj min) = min.toNat := by
  refine congrArg BitVec.toNat ?_
  repeat (first | exact extract_all _ | refine (extract_high _ _ _ _ (by decide)).trans ?_ |
    refine (extract_low _ _ _ _ (by decide)).trans ?_)
@[simp] theorem FormM.maj (maj min : BitVec 6) (f : FormM) : wordMaj (f.toWord maj min) = maj.toNat := by
  refine congrArg BitVec.toNat ?_
  repeat (first | exact extract_all _ | refine (extract_high _ _ _ _ (by decide)).trans ?_ |
    refine (extract_low _ _ _ _ (by decide)).trans ?_)
@[simp] theorem FormM.min (maj min : BitVec 6) (f : FormM) : wordMin (f.toWord maj min) = min.toNat := by
  refine congrArg BitVec.toNat ?_
  repeat (first | exact extract_all _ | refine (extract_high _ _ _ _ (by decide)).trans ?_ |
    refine (extract_low _ _ _ _ (by decide)).trans ?_)
@[simp] theorem FormB.maj (maj min : BitVec 6) (f : FormB) : wordMaj (f.toWord maj min) = maj.toNat := by
  refine congrArg BitVec.toNat ?_
  repeat (first | exact extract_all _ | refine (extract_high _ _ _ _ (by decide)).trans ?_ |
    refine (extract_low _ _ _ _ (by decide)).trans ?_)
@[simp] theorem FormB.min (maj min : BitVec 6) (f : FormB) : wordMin (f.toWord maj min) = min.toNat := by
  refine congrArg BitVec.toNat ?_
  repeat (first | exact extract_all _ | refine (extract_high _ _ _ _ (by decide)).trans ?_ |
    refine (extract_low _ _ _ _ (by decide)).trans ?_)
@[simp] theorem FormV.maj (maj min : BitVec 6) (f : FormV) : wordMaj (f.toWord maj min) = maj.toNat := by
  refine congrArg BitVec.toNat ?_
  repeat (first | exact extract_all _ | refine (extract_high _ _ _ _ (by decide)).trans ?_ |
    refine (extract_low _ _ _ _ (by decide)).trans ?_)
@[simp] theorem FormV.min (maj min : BitVec 6) (f : FormV) : wordMin (f.toWord maj min) = min.toNat := by
  refine congrArg BitVec.toNat ?_
  repeat (first | exact extract_all _ | refine (extract_high _ _ _ _ (by decide)).trans ?_ |
    refine (extract_low _ _ _ _ (by decide)).trans ?_)
@[simp] theorem FormE.maj (maj min : BitVec 6) (f : FormE) : wordMaj (f.toWord maj min) = maj.toNat := by
  refine congrArg BitVec.toNat ?_
  repeat (first | exact extract_all _ | refine (extract_high _ _ _ _ (by decide)).trans ?_ |
    refine (extract_low _ _ _ _ (by decide)).trans ?_)
@[simp] theorem FormE.min (maj min : BitVec 6) (f : FormE) : wordMin (f.toWord maj min) = min.toNat := by
  refine congrArg BitVec.toNat ?_
  repeat (first | exact extract_all _ | refine (extract_high _ _ _ _ (by decide)).trans ?_ |
    refine (extract_low _ _ _ _ (by decide)).trans ?_)
@[simp] theorem FormL.maj (maj min : BitVec 6) (f : FormL) : wordMaj (f.toWord0 maj min) = maj.toNat := by
  refine congrArg BitVec.toNat ?_
  repeat (first | exact extract_all _ | refine (extract_high _ _ _ _ (by decide)).trans ?_ |
    refine (extract_low _ _ _ _ (by decide)).trans ?_)
@[simp] theorem FormL.min (maj min : BitVec 6) (f : FormL) : wordMin (f.toWord0 maj min) = min.toNat := by
  refine congrArg BitVec.toNat ?_
  repeat (first | exact extract_all _ | refine (extract_high _ _ _ _ (by decide)).trans ?_ |
    refine (extract_low _ _ _ _ (by decide)).trans ?_)

/-! ## Codes -/

@[simp] theorem StreamId.ofCode_code (x : StreamId) : StreamId.ofCode? x.code = some x := by cases x <;> rfl
@[simp] theorem Allot.ofCode_code (x : Allot) : Allot.ofCode? x.code = some x := by cases x <;> rfl
@[simp] theorem Scope.ofCode_code (x : Scope) : Scope.ofCode? x.code = some x := by cases x <;> rfl
@[simp] theorem MemSize.ofCode_code (x : MemSize) : MemSize.ofCode? x.code = some x := by cases x <;> rfl
@[simp] theorem LdClass.ofCode_code (x : LdClass) : LdClass.ofCode? x.code = some x := by cases x <;> rfl
@[simp] theorem StClass.ofCode_code (x : StClass) : StClass.ofCode? x.code = some x := by cases x <;> rfl
@[simp] theorem AtomOp.ofCode_code (x : AtomOp) : AtomOp.ofCode? x.code = some x := by cases x <;> rfl
@[simp] theorem RmField.ofCode_code (x : RmField) : RmField.ofCode? x.code = some x := by cases x <;> rfl
@[simp] theorem CvtType.ofCode_code (x : CvtType) : CvtType.ofCode? x.code = some x := by cases x <;> rfl
@[simp] theorem RedOp.ofCode_code (x : RedOp) : RedOp.ofCode? x.code = some x := by cases x <;> rfl

end Sys2Proof
end

