-- ==== Sys2Proof/Laws/Home.lean ====
section
/-! SUPPORT. Stores of lines for no context: where no line is lost, no error waits to be found, every resident line is of no context and
the ways have room, they go through. -/

namespace Sys2Proof.Machine

/-- No line is lost, HBM holds no error, every resident line is of no context with a whole tag, and n more lines fit in any way. -/
structure State.Untagged (s : State) (n : Nat) : Prop where
  notLost : ∀ line, s.isLost line = false
  noBad : s.badHbm = []
  resident : ∀ e ∈ s.l2, e.2.nc = true ∧ e.2.owner = 0 ∧ e.2.inj ≠ .tague
  room : s.l2.length + n ≤ 16384

/-- A package with no resident line, no lost one, and no error in HBM. -/
theorem untagged_of {s : State} {n : Nat}
    (h : ((s.slices.toList.all fun x => x.lost.isEmpty) && s.l2.isEmpty && s.badHbm.isEmpty && decide (n ≤ 16384)) = true) :
    s.Untagged n := by
  simp only [Bool.and_eq_true, List.all_eq_true, List.isEmpty_iff, decide_eq_true_eq] at h
  obtain ⟨⟨⟨h1, h2⟩, h3⟩, h4⟩ := h
  refine ⟨fun line => ?_, h3, by simp [h2], by simpa [h2] using h4⟩
  rw [State.isLost, ← Bool.not_eq_true, Vector.any_eq_true]
  rintro ⟨i, hi, hc⟩
  have := h1 s.slices[i] (by simp)
  simp [this] at hc

theorem State.Untagged.at {s : State} {n : Nat} (h : s.Untagged n) {line : Nat} {l : L2Line} (hl : s.l2At line = some l) :
    l.nc = true ∧ l.owner = 0 ∧ l.inj ≠ .tague := by
  simp only [State.l2At, Option.map_eq_some_iff] at hl
  obtain ⟨e, he, rfl⟩ := hl
  exact h.resident e (List.mem_of_find?_eq_some he)

theorem setL2_at {s : State} {line : Nat} {l : L2Line} : (s.setL2 line l).l2At line = some l := by simp [State.setL2, State.l2At]

/-- A line replaced where it is resident, or made resident where there is room for one more. -/
theorem State.Untagged.setL2 {s : State} {n : Nat} (h : s.Untagged (n + 1)) {line : Nat} {l : L2Line}
    (hl : l.nc = true ∧ l.owner = 0 ∧ l.inj ≠ .tague) : (s.setL2 line l).Untagged n where
  notLost := fun m => h.notLost m
  noBad := h.noBad
  resident := fun e he => by
    simp only [State.setL2, List.mem_cons, List.mem_filter] at he
    obtain rfl | ⟨he, -⟩ := he
    · exact hl
    · exact h.resident e he
  room := by
    have := List.length_filter_le (fun x : Nat × L2Line => x.1 != line) s.l2
    have := h.room
    simp only [State.setL2, List.length_cons]; omega

theorem makeRoom_untagged {s : State} {n : Nat} (h : s.Untagged (n + 1)) (sl way : Nat) : s.makeRoom sl way = s := by
  have := List.length_filter_le (fun x : Nat × L2Line => x.2.slice == sl && x.2.way == way) s.l2
  have := h.room
  unfold State.makeRoom
  dsimp only
  rw [if_pos (by omega)]

/-- A store for no context among such lines goes through, and moves no agent. -/
theorem homeWrite_untagged {s : State} {n : Nat} (h : s.Untagged (n + 2)) (line : Nat) (bs : List (Nat × Byte)) :
    ∃ t, s.homeWrite line none bs = .ok t ∧ t.Untagged n ∧ t.cur = s.cur := by
  have hb : s.hbmBad line = false := by simp [State.hbmBad, h.noBad]
  cases hl : s.l2At line with
  | some l =>
    obtain ⟨h1, h2, h3⟩ := h.at hl
    refine ⟨s.setL2 line { l with data := lineSets l.data bs, dirty := true, owner := 0, nc := true }, ?_,
      State.Untagged.setL2 ⟨h.notLost, h.noBad, h.resident, by have := h.room; omega⟩ ⟨rfl, rfl, h3⟩, rfl⟩
    simp [State.homeWrite, h.notLost line, hl, h1, h2, h3]
  | none =>
    let l0 : L2Line := ⟨s.hbmLine line, false, 0, true, s.sliceFor line, s.wayFor (s.sliceFor line) line, .none, false⟩
    refine ⟨(s.setL2 line l0).setL2 line { l0 with data := lineSets l0.data bs, dirty := true, owner := 0, nc := true }, ?_,
      (h.setL2 ⟨rfl, rfl, by simp [l0]⟩).setL2 ⟨rfl, rfl, by simp [l0]⟩, rfl⟩
    simp [State.homeWrite, h.notLost line, hl, State.fill, makeRoom_untagged h, hb, setL2_at, l0]

/-- So does a store of lines. -/
theorem physPut_untagged {s : State} (pa : Nat) (bs : List Byte) (n m : Nat) (h : s.Untagged (2 * n + m)) :
    ∃ t, s.physPut pa bs n = .ok t ∧ t.Untagged m ∧ t.cur = s.cur := by
  induction n generalizing s pa bs with
  | zero => exact ⟨s, rfl, by simpa using h, rfl⟩
  | succ n ih =>
    obtain ⟨t, ht, hq, hc⟩ := homeWrite_untagged (n := 2 * n + m) (by rwa [show 2 * n + m + 2 = 2 * (n + 1) + m by omega]) (pa / 64)
      ((bs.take 64).zipIdx.map fun b => (b.2, b.1))
    obtain ⟨u, hu, hr, hd⟩ := ih (pa + 64) (bs.drop 64) hq
    exact ⟨u, by simp [State.physPut, ht, hu], hr, hd.trans hc⟩

/-- So does a field book. -/
theorem bookPut_untagged {s : State} (pa : Nat) (book : List Byte) (h : s.Untagged (2 * (book.length / 64) + 4)) :
    ∃ t, s.bookPut pa book = .ok t ∧ t.cur = s.cur := by
  obtain ⟨t, ht, hu, hc⟩ := physPut_untagged (pa + 128) (book.drop 128) (book.length / 64 - 2) 4
    ⟨h.notLost, h.noBad, h.resident, by have := h.room; omega⟩
  obtain ⟨u, hv, -, hd⟩ := physPut_untagged pa (book.take 128) 2 0 hu
  exact ⟨u, by simp [State.bookPut, ht, hv, bind, Except.bind], hd.trans hc⟩

end Sys2Proof.Machine
end

