-- ==== Sys2Proof/Laws/Lists.lean ====
section
/-! SUPPORT. Reading an arena that lies in tile space: it has no effect, and gives the entries that its doublewords hold. -/

namespace Sys2Proof.Machine

/-- The doubleword at an offset of an arena in tile space. -/
def State.arenaTileWord (s : State) (off : Nat) : Word :=
  BitVec.ofNat 64 (leNat (s.tileBytes s.curCl (addr56 (s.me.lists.base + BitVec.ofNat 64 off)) 8))

/-- What a doubleword of an arena asks to be read from tile space. -/
def State.arenaTile (s : State) (off : Nat) : Bool :=
  let a := s.me.lists.base + BitVec.ofNat 64 off
  spaceTag a == 1 && decide (addr56 a < tileEnd) && s.tileMode s.curCl (addr56 a) 8 && s.tileOwned s.curCl s.curCtx (addr56 a) 8 &&
    !s.storeBad s.curCl (addr56 a) 8 && !s.pinnedFor s.party (tileKey s.curCl (addr56 a) / 64) &&
    (s.releasesAt (tileKey s.curCl (addr56 a)) 8).isEmpty

/-- Bytes that hold no release leave nothing for an acquire fence. -/
theorem readOrder_none {s : State} {a n : Nat} (h : s.releasesAt a n = []) : s.readOrder a n .weak = s := by
  simp [State.readOrder, State.orderOf, h, State.noteSeen]

theorem arenaGet_tile {s : State} {off : Nat} (h : s.arenaTile off = true) : s.arenaGet off = .ok (s.arenaTileWord off, s) := by
  simp only [State.arenaTile, Bool.and_eq_true, beq_iff_eq, decide_eq_true_eq, Bool.not_eq_true', List.isEmpty_iff] at h
  obtain ⟨⟨⟨⟨⟨⟨h1, h2⟩, h3⟩, h4⟩, h5⟩, h6⟩, h7⟩ := h
  simp [State.arenaGet, State.arenaLoc, State.unpinned, readOrder_none h7, h1, h3, h4, h5, h6, Nat.not_le.mpr h2, bind,
    Except.bind, State.arenaTileWord]

theorem arenaGets_tile {s : State} : ∀ {n off : Nat}, (∀ i < n, s.arenaTile (off + 8 * i) = true) →
    s.arenaGets off n = .ok ((List.range n).map fun i => s.arenaTileWord (off + 8 * i), s)
  | 0, _, _ => rfl
  | n + 1, off, h => by
    have h0 := arenaGet_tile (h 0 (by omega))
    have h1 := arenaGets_tile (s := s) (n := n) (off := off + 8) fun i hi => by
      have := h (i + 1) (by omega)
      rwa [show off + 8 * (i + 1) = off + 8 + 8 * i by omega] at this
    simp only [Nat.mul_zero, Nat.add_zero] at h0
    simp [State.arenaGets, h0, h1, bind, Except.bind, List.range_succ_eq_map, Function.comp_def,
      show ∀ i, off + 8 * (i + 1) = off + 8 + 8 * i by intro i; omega]

theorem arenaFrom_tile {s : State} : ∀ {n i : Nat}, (∀ j < 10 * n, s.arenaTile (80 * i + 8 * j) = true) →
    s.arenaFrom i n = .ok ((List.range n).map fun m =>
      entryOf (i + m) ((List.range 10).map fun j => s.arenaTileWord (80 * (i + m) + 8 * j)), s)
  | 0, _, _ => rfl
  | n + 1, i, h => by
    have h0 := arenaGets_tile (s := s) (n := 10) (off := 80 * i) fun j hj => h j (by omega)
    have h1 := arenaFrom_tile (s := s) (n := n) (i := i + 1) fun j hj => by
      have := h (j + 10) (by omega)
      rwa [show 80 * i + 8 * (j + 10) = 80 * (i + 1) + 8 * j by omega] at this
    simp [State.arenaFrom, h0, h1, bind, Except.bind, List.range_succ_eq_map (n := n), Function.comp_def,
      show ∀ m, i + 1 + m = i + (m + 1) by intro m; omega]

/-- Every entry of an arena that lies in tile space. -/
theorem arenaAll_tile {s : State} (h : ∀ j < 10 * (s.me.lists.used / 80), s.arenaTile (8 * j) = true) :
    s.arenaAll = .ok ((List.range (s.me.lists.used / 80)).map fun m =>
      entryOf m ((List.range 10).map fun j => s.arenaTileWord (80 * m + 8 * j)), s) := by
  have := arenaFrom_tile (s := s) (n := s.me.lists.used / 80) (i := 0) (by simpa using h)
  simpa [State.arenaAll] using this

end Sys2Proof.Machine
end

