-- ==== Sys2Proof/Laws/Memory.lean ====
section
/-! SUPPORT. Memory in canonical form: what a byte reads as after a store, and that every operation on a memory, and on the
elements of accumulator memory, keeps the canonical form. -/

namespace Sys2Proof.Machine

/-! ## Bytes -/

theorem cellsFrom_mono {lo hi : Nat} (h : lo ≤ hi) : ∀ {m : Memory}, cellsFrom hi m = true → cellsFrom lo m = true
  | [], _ => rfl
  | (a, b) :: m, w => by
    simp only [cellsFrom, Bool.and_eq_true, decide_eq_true_eq] at w ⊢
    exact ⟨⟨by omega, w.1.2⟩, w.2⟩

/-- No cell of a form that starts at lo lies below lo. -/
theorem memByte_below {lo a : Nat} (h : a < lo) : ∀ {m : Memory}, cellsFrom lo m = true → memByte m a = unlisted
  | [], _ => rfl
  | (c, d) :: m, w => by
    simp only [cellsFrom, Bool.and_eq_true, decide_eq_true_eq] at w
    have hne : (c == a) = false := by simp; omega
    have := memByte_below (lo := c + 1) (a := a) (by omega) (m := m) w.2
    simpa [memByte, List.find?, hne] using this

theorem memPut_cellsFrom (a : Nat) (b : Byte) : ∀ (lo : Nat) (m : Memory), lo ≤ a → cellsFrom lo m = true →
    cellsFrom lo (memPut m a b) = true
  | lo, [], h, _ => by
    unfold memPut
    split
    · rfl
    · simp [cellsFrom, *]
  | lo, (c, d) :: m, h, w => by
    simp only [cellsFrom, Bool.and_eq_true, decide_eq_true_eq] at w
    unfold memPut
    split
    · rename_i hc
      simp only [cellsFrom, Bool.and_eq_true, decide_eq_true_eq]
      exact ⟨w.1, memPut_cellsFrom a b (c + 1) m (by omega) w.2⟩
    · split
      · rename_i hc
        split
        · exact cellsFrom_mono (by omega) w.2
        · simp only [cellsFrom, Bool.and_eq_true, decide_eq_true_eq, bne_iff_ne]
          exact ⟨⟨h, by assumption⟩, hc ▸ w.2⟩
      · split
        · simp only [cellsFrom, Bool.and_eq_true, decide_eq_true_eq]; exact w
        · simp only [cellsFrom, Bool.and_eq_true, decide_eq_true_eq, bne_iff_ne]
          refine ⟨⟨h, by assumption⟩, ⟨⟨by omega, ?_⟩, w.2⟩⟩
          simpa using w.1.2

/-- A byte stored keeps the canonical form. -/
theorem memPut_wf {m : Memory} (a : Nat) (b : Byte) (h : Memory.wf m = true) : Memory.wf (memPut m a b) = true :=
  memPut_cellsFrom a b 0 m (Nat.zero_le a) h

/-- Bytes stored keep the canonical form. -/
theorem memPuts_wf : ∀ (bs : List Byte) {m : Memory} (a : Nat), Memory.wf m = true → Memory.wf (memPuts m a bs) = true
  | [], _, _, h => h
  | b :: bs, _, a, h => memPuts_wf bs (a + 1) (memPut_wf a b h)

/-- Cells dropped keep the canonical form. -/
theorem filter_cellsFrom (p : Host.Cell → Bool) : ∀ (lo : Nat) (m : Memory), cellsFrom lo m = true → cellsFrom lo (m.filter p) = true
  | _, [], _ => rfl
  | lo, (c, d) :: m, w => by
    simp only [cellsFrom, Bool.and_eq_true, decide_eq_true_eq] at w
    have ih := filter_cellsFrom p (c + 1) m w.2
    unfold List.filter
    split
    · simp only [cellsFrom, Bool.and_eq_true, decide_eq_true_eq]; exact ⟨w.1, ih⟩
    · exact cellsFrom_mono (by omega) ih

theorem filter_wf (p : Host.Cell → Bool) {m : Memory} (h : Memory.wf m = true) : Memory.wf (m.filter p) = true := filter_cellsFrom p 0 m h

/-- Reading a byte after a store: the byte at its address, every other as it was. -/
theorem memByte_memPut_from (a x : Nat) (b : Byte) : ∀ (lo : Nat) (m : Memory), cellsFrom lo m = true →
    memByte (memPut m a b) x = if x = a then b else memByte m x
  | lo, [], _ => by
    unfold memPut
    by_cases hx : x = a
    · subst hx
      split
      · simp [memByte, *]
      · simp [memByte]
    · have hne : (a == x) = false := by simp; omega
      split
      · simp [memByte]
      · simp [memByte, hne]
  | lo, (c, d) :: m, w => by
    simp only [cellsFrom, Bool.and_eq_true, decide_eq_true_eq] at w
    have ih := memByte_memPut_from a x b (c + 1) m w.2
    unfold memPut
    split
    · rename_i hc
      by_cases hcx : c = x
      · subst hcx
        have : ¬ c = a := by omega
        simp [memByte, this]
      · have hne : (c == x) = false := by simp [hcx]
        simp only [memByte, List.find?, hne] at ih ⊢
        exact ih
    · split
      · rename_i hc
        subst hc
        by_cases hx : x = c
        · subst hx
          split
          · rename_i hb
            have := memByte_below (a := x) (Nat.lt_succ_self x) w.2
            simp [this, hb]
          · simp [memByte]
        · have hne : (c == x) = false := by simp; omega
          split
          · simp [memByte, hne]
          · simp [memByte, hne]
      · rename_i h1 h2
        by_cases hx : x = a
        · subst hx
          split
          · rename_i hb
            have : memByte ((c, d) :: m) x = unlisted := by
              refine memByte_below (lo := c) (by omega) ?_
              simp only [cellsFrom, Bool.and_eq_true, decide_eq_true_eq]; exact ⟨⟨Nat.le_refl c, w.1.2⟩, w.2⟩
            simp [this, hb]
          · simp [memByte]
        · have hne : (a == x) = false := by simp; omega
          split
          · simp
          · simp [memByte, hne]

/-- Reading a byte after a store: the byte at its address, every other as it was. -/
theorem memByte_memPut {m : Memory} (h : Memory.wf m = true) (a x : Nat) (b : Byte) :
    memByte (memPut m a b) x = if x = a then b else memByte m x := memByte_memPut_from a x b 0 m h

/-- Reading a byte after bytes are stored. -/
theorem memByte_memPuts (x : Nat) : ∀ (bs : List Byte) {m : Memory} (a : Nat), Memory.wf m = true →
    memByte (memPuts m a bs) x = if a ≤ x ∧ x < a + bs.length then bs.getD (x - a) 0 else memByte m x
  | [], m, a, _ => by
    have : ¬ (a ≤ x ∧ x < a + ([] : List Byte).length) := by simp
    rw [if_neg this]; rfl
  | b :: bs, m, a, h => by
    rw [show memPuts m a (b :: bs) = memPuts (memPut m a b) (a + 1) bs from rfl,
      memByte_memPuts x bs (a + 1) (memPut_wf a b h), memByte_memPut h]
    by_cases hx : x = a
    · subst hx; simp
    · by_cases hin : a + 1 ≤ x ∧ x < a + 1 + bs.length
      · have h2 : a ≤ x ∧ x < a + (b :: bs).length := by simp; omega
        have h3 : x - a = (x - (a + 1)) + 1 := by omega
        rw [if_pos hin, if_pos h2, h3]; rfl
      · have h2 : ¬ (a ≤ x ∧ x < a + (b :: bs).length) := by simp; omega
        rw [if_neg hin, if_neg h2, if_neg hx]

/-! ## Accumulator elements (R72, R215) -/

theorem elemsFrom_mono {lo hi : Nat} (h : lo ≤ hi) : ∀ {m : List (Nat × AccElem)}, elemsFrom hi m = true → elemsFrom lo m = true
  | [], _ => rfl
  | (a, b) :: m, w => by
    simp only [elemsFrom, Bool.and_eq_true, decide_eq_true_eq] at w ⊢
    exact ⟨⟨by omega, w.1.2⟩, w.2⟩

/-- An element stored keeps the elements in canonical form. -/
theorem acmPut_elemsFrom (k : Nat) (v : AccElem) : ∀ (lo : Nat) (m : List (Nat × AccElem)), lo ≤ k → elemsFrom lo m = true →
    elemsFrom lo (acmPut m k v) = true
  | lo, [], h, _ => by
    unfold acmPut
    split
    · rfl
    · rename_i hv
      simp only [elemsFrom, Bool.and_eq_true, decide_eq_true_eq, bne_iff_ne]
      exact ⟨⟨h, hv⟩, trivial⟩
  | lo, (c, d) :: m, h, w => by
    simp only [elemsFrom, Bool.and_eq_true, decide_eq_true_eq] at w
    unfold acmPut
    split
    · rename_i hc
      simp only [elemsFrom, Bool.and_eq_true, decide_eq_true_eq]
      exact ⟨w.1, acmPut_elemsFrom k v (c + 1) m (by omega) w.2⟩
    · split
      · rename_i hc
        split
        · exact elemsFrom_mono (by omega) w.2
        · simp only [elemsFrom, Bool.and_eq_true, decide_eq_true_eq, bne_iff_ne]
          exact ⟨⟨h, by assumption⟩, hc ▸ w.2⟩
      · split
        · simp only [elemsFrom, Bool.and_eq_true, decide_eq_true_eq]; exact w
        · simp only [elemsFrom, Bool.and_eq_true, decide_eq_true_eq, bne_iff_ne]
          refine ⟨⟨h, by assumption⟩, ⟨⟨by omega, ?_⟩, w.2⟩⟩
          simpa using w.1.2

/-- Elements dropped keep the canonical form. -/
theorem filter_elemsFrom (p : Nat × AccElem → Bool) : ∀ (lo : Nat) (m : List (Nat × AccElem)), elemsFrom lo m = true →
    elemsFrom lo (m.filter p) = true
  | _, [], _ => rfl
  | lo, (c, d) :: m, w => by
    simp only [elemsFrom, Bool.and_eq_true, decide_eq_true_eq] at w
    have ih := filter_elemsFrom p (c + 1) m w.2
    unfold List.filter
    split
    · simp only [elemsFrom, Bool.and_eq_true, decide_eq_true_eq]; exact ⟨w.1, ih⟩
    · exact elemsFrom_mono (by omega) ih

end Sys2Proof.Machine
end

