-- ==== Sys2Proof/Laws/Ops.lean ====
section
/-! SUPPORT. What the shared operations do, said once: how a word ends, how a word with register fields begins, and the operations with
one, two and three sources. -/

namespace Sys2Proof.Machine

open Host (Outcome)

/-! ## Endings -/

/-- A word never stops the machine: it completes, jumps, traps or waits. -/
theorem finish_next (n : Nat) (a : Act) : ∃ t, finish n a = .next t := by cases a <;> exact ⟨_, rfl⟩

@[simp] theorem finish_done (n : Nat) (s : State) : finish n (.done s) = .next (s.advance n) := rfl
@[simp] theorem finish_jump (n : Nat) (s : State) : finish n (.jump s) = .next s.wake := rfl
@[simp] theorem finish_trap (n : Nat) (t : Trap) (s : State) : finish n (.trap t s) = .next (s.take t) := rfl
@[simp] theorem finish_wait (n : Nat) (w : WaitFor) (s : State) : finish n (.wait w s) = .next (s.toWait w) := rfl

/-! ## Beginnings (R48, R80, R92, R101, R110) -/

/-- A word whose guard reads false does nothing. -/
theorem begin_guard_off {s : State} {g : Guard} (h : s.guardOn g = false) (srcs dsts : List XReg) (k : List Word → State → Act) :
    s.begin g srcs dsts k = .done s := by simp [State.begin, h]

/-- A word that begins goes on with its sources' values. -/
theorem begin_runs {s s1 : State} {g : Guard} {srcs dsts : List XReg} {vs : List Word} (h : s.begins g srcs dsts vs s1)
    (k : List Word → State → Act) : s.begin g srcs dsts k = k vs s1 := by
  obtain ⟨⟨hg, ha, hb⟩, hr⟩ := h
  have h1 : (srcs ++ dsts).any (fun r => decide (s.allotOf ≤ r.toNat)) = false := by
    rw [List.any_eq_false]; intro r hm; simpa using ha r hm
  have h2 : (srcs ++ dsts).any s.regBusy = false := by
    rw [List.any_eq_false]; intro r hm; simpa using hb r hm
  simp [State.begin, hg, h1, h2, hr]

/-- Everything that the beginning of a word can do. -/
theorem begin_cases (s : State) (g : Guard) (srcs dsts : List XReg) (k : List Word → State → Act) :
    (s.guardOn g = false ∧ s.begin g srcs dsts k = .done s) ∨
    (s.guardOn g = true ∧ (∃ r ∈ srcs ++ dsts, s.allotOf ≤ r.toNat) ∧ s.begin g srcs dsts k = trapOf cALLOT 0 0 s) ∨
    (s.guardOn g = true ∧ ∃ w, s.begin g srcs dsts k = .wait w s) ∨
    ∃ vs s1, s.begins g srcs dsts vs s1 ∧ s.begin g srcs dsts k = k vs s1 := by
  cases hg : s.guardOn g with
  | false => exact .inl ⟨rfl, begin_guard_off hg _ _ _⟩
  | true =>
    cases ha : (srcs ++ dsts).any (fun r => decide (s.allotOf ≤ r.toNat)) with
    | true =>
      refine .inr (.inl ⟨rfl, ?_, by simp [State.begin, hg, ha]⟩)
      obtain ⟨r, hm, hr⟩ := List.any_eq_true.mp ha
      exact ⟨r, hm, by simpa using hr⟩
    | false =>
      cases hb : (srcs ++ dsts).any s.regBusy with
      | true => exact .inr (.inr (.inl ⟨rfl, _, by simp [State.begin, hg, ha, hb]; rfl⟩))
      | false =>
        cases hr : s.readAll srcs with
        | error w => exact .inr (.inr (.inl ⟨rfl, w, by simp [State.begin, hg, ha, hb, hr]⟩))
        | ok p =>
          have hB : s.begins g srcs dsts p.1 p.2 :=
            ⟨⟨hg, fun r hm => by have := List.any_eq_false.mp ha r hm; simpa using this,
              fun r hm => by have := List.any_eq_false.mp hb r hm; simpa using this⟩, hr⟩
          exact .inr (.inr (.inr ⟨p.1, p.2, hB, begin_runs hB k⟩))

/-! ## One, two and three sources -/

theorem retire_ok {s0 s s' : State} {r : XReg} {v : Word} (h : s.writeReg r v = .ok s') : s0.retire s r v = .done s' := by
  simp [State.retire, h]

theorem finish_op1 {s s1 s2 : State} {g : Guard} {d a : XReg} {x : Word} (f : Word → Word) (h : s.begins g [a] [d] [x] s1)
    (hw : s1.writeReg d (f x) = .ok s2) : finish 1 (op1 g d a f s) = .next (s2.advance 1) := by
  rw [op1, begin_runs h]; simp [retire_ok hw]

theorem finish_op2 {s s1 s2 : State} {g : Guard} {d a b : XReg} {x y : Word} (f : Word → Word → Word)
    (h : s.begins g [a, b] [d] [x, y] s1) (hw : s1.writeReg d (f x y) = .ok s2) :
    finish 1 (op2 g d a b f s) = .next (s2.advance 1) := by
  rw [op2, begin_runs h]; simp [retire_ok hw]

theorem finish_op3 {s s1 s2 : State} {g : Guard} {d a b c : XReg} {x y z : Word} (f : Word → Word → Word → Word)
    (h : s.begins g [a, b, c] [d] [x, y, z] s1) (hw : s1.writeReg d (f x y z) = .ok s2) :
    finish 1 (op3 g d a b c f s) = .next (s2.advance 1) := by
  rw [op3, begin_runs h]; simp [retire_ok hw]

/-- A register that is no port reads without a change of the state (R92). -/
theorem readAll_plain {s : State} : ∀ {rs : List XReg}, (∀ r ∈ rs, s.port? r = none) →
    s.readAll rs = .ok (rs.map s.hart.get, s)
  | [], _ => rfl
  | r :: rs, h => by
    have ih := readAll_plain (s := s) (rs := rs) fun q hq => h q (List.mem_cons_of_mem r hq)
    simp [State.readAll, h r List.mem_cons_self, ih]

/-- A register that is no port takes the value (R92, R107). -/
theorem writeReg_plain {s : State} {r : XReg} (h : s.port? r = none) (v : Word) :
    s.writeReg r v = .ok (s.setHart (s.hart.put r v)) := by simp [State.writeReg, h]

end Sys2Proof.Machine
end

