-- ==== Sys2Proof/Laws/Translate.lean ====
section
/-! SUPPORT. Translation that a cached entry answers: it has no effect on the state, and names a home place. -/

namespace Sys2Proof.Machine

/-- A cached translation of a home page with the permission asked for leads to its physical byte, the state as it was. -/
theorem locate_hit {s : State} {cl ctx va : Nat} {w : Bool} {e : TlbEntry} (h : s.tlbFind cl ctx va = some e)
    (he : (!e.host && !s.isRetired (e.pa + (va - e.va)) && (if w then e.w else e.r) && placeOf (e.pa + (va - e.va)) == .hbm &&
      !s.inPlane (e.pa + (va - e.va)) && (!w || !s.inSlots (e.pa + (va - e.va)))) = true) : s.locate cl ctx va w = .ok (.home (e.pa + (va - e.va)), s) := by
  simp only [Bool.and_eq_true, Bool.or_eq_true, Bool.not_eq_true', beq_iff_eq] at he
  obtain ⟨⟨⟨⟨⟨h1, h2⟩, h3⟩, h4⟩, h5⟩, h6⟩ := he
  have h6 : (w && s.inSlots (e.pa + (va - e.va))) = false := by rcases h6 with h | h <;> simp [h]
  simp [State.locate, State.translate, h, State.tlbAnswer, h1, h2, h3, h4, h5, -Bool.and_eq_true, h6]

/-- A cached translation of a host page with the permission asked for leads to its byte in host memory, the state as it was. -/
theorem locate_host {s : State} {cl ctx va : Nat} {w : Bool} {e : TlbEntry} (h : s.tlbFind cl ctx va = some e)
    (he : (e.host && if w then e.w else e.r) = true) : s.locate cl ctx va w = .ok (.host (e.pa + (va - e.va)), s) := by
  simp only [Bool.and_eq_true] at he
  simp [State.locate, State.translate, h, State.tlbAnswer, he.1, he.2]

/-- A cached translation with the permission asked for leads to the package and offset that its page names. -/
theorem locate_remote {s : State} {cl ctx va : Nat} {w : Bool} {e : TlbEntry} (h : s.tlbFind cl ctx va = some e)
    (he : (!e.host && !s.isRetired (e.pa + (va - e.va)) && (if w then e.w else e.r) && placeOf (e.pa + (va - e.va)) == .remote) = true) :
    s.locate cl ctx va w = .ok (.remote ((e.pa + (va - e.va)) / 2 ^ 40 % 1024) ((e.pa + (va - e.va)) % 2 ^ 40), s) := by
  simp only [Bool.and_eq_true, Bool.not_eq_true', beq_iff_eq] at he
  obtain ⟨⟨⟨h1, h2⟩, h3⟩, h4⟩ := he
  simp [State.locate, State.translate, h, State.tlbAnswer, h1, h2, h3, h4]

/-- Nothing of the state is changed by a translation that the cluster's cache answers from a page of this package. -/
theorem translate_hit {s : State} {cl ctx va : Nat} {e : TlbEntry} (h : s.tlbFind cl ctx va = some e) (he : e.host = false) (w : Bool) :
    s.translate cl ctx va w = (s.tlbAnswer e va, s) := by simp [State.translate, h, he]

end Sys2Proof.Machine
end

