-- ==== Sys2Proof/Laws/Traps.lean ====
section
/-! SUPPORT. What taking a trap, a context fault and waiting do, said once (R78, R79, R99, R103, R296). -/

namespace Sys2Proof.Machine

/-! ## Context faults (R99, R296) -/

@[simp] theorem State.contextFault_cores (s : State) (c : Nat) (t : Option Trap) : (s.contextFault c t).cores = s.cores := rfl
@[simp] theorem State.contextFault_clusters (s : State) (c : Nat) (t : Option Trap) : (s.contextFault c t).clusters = s.clusters := rfl
@[simp] theorem State.contextFault_hbm (s : State) (c : Nat) (t : Option Trap) : (s.contextFault c t).hbm = s.hbm := rfl
@[simp] theorem State.contextFault_host (s : State) (c : Nat) (t : Option Trap) : (s.contextFault c t).host = s.host := rfl
@[simp] theorem State.contextFault_l2 (s : State) (c : Nat) (t : Option Trap) : (s.contextFault c t).l2 = s.l2 := rfl
@[simp] theorem State.contextFault_parts (s : State) (c : Nat) (t : Option Trap) : (s.contextFault c t).parts = s.parts := rfl
@[simp] theorem State.contextFault_slices (s : State) (c : Nat) (t : Option Trap) : (s.contextFault c t).slices = s.slices := rfl
@[simp] theorem State.contextFault_kernels (s : State) (c : Nat) (t : Option Trap) : (s.contextFault c t).kernels = s.kernels := rfl
@[simp] theorem State.contextFault_queues (s : State) (c : Nat) (t : Option Trap) : (s.contextFault c t).queues = s.queues := rfl
@[simp] theorem State.contextFault_stations (s : State) (c : Nat) (t : Option Trap) : (s.contextFault c t).stations = s.stations := rfl
@[simp] theorem State.contextFault_cur (s : State) (c : Nat) (t : Option Trap) : (s.contextFault c t).cur = s.cur := rfl

/-- A context that is placed is TERMINATING after a fault. -/
theorem State.contextFault_state (s : State) (c : Nat) (t : Option Trap) (h : c < 1024) (hf : (s.ctx c).state ≠ .free) :
    ((s.contextFault c t).ctx c).state = .terminating := by
  unfold State.contextFault
  rw [State.ctx_updCtx, if_pos ⟨rfl, h⟩]
  split <;> simp_all

/-- No other context changes. -/
theorem State.contextFault_other (s : State) (c d : Nat) (t : Option Trap) (h : d ≠ c) : (s.contextFault c t).ctx d = s.ctx d := by
  unfold State.contextFault
  rw [State.ctx_updCtx, if_neg fun e => h e.1]

/-! ## Taking a trap (R99, R103) -/

/-- A trap of a stream is a context fault, a hold for the shadow handler, or a delivery that changes that stream alone. -/
theorem State.take_stream {s : State} {c : Nat} {k : StreamId} (h : s.cur = .stream c k) (t : Trap) :
    s.take t = if shadowClass t.cause then s.hold c k t else s.deliver c k t s.pc := by
  unfold State.take; rw [h]

/-- The handler is entered by an update of the one stream, the array's report given to it, or there is a context fault with the trap as its
cause. -/
theorem State.enterHandler_cases (s : State) (c : Nat) (k : StreamId) (t : Trap) (a : Word) :
    s.enterHandler c k t a = s.contextFault (s.ctxOf c) (some t) ∨
      ∃ f, s.enterHandler c k t a = (s.updCore c fun x => x.faultGiven k t).updStrm c k f := by
  unfold State.enterHandler
  dsimp only
  split
  · exact .inl rfl
  · exact .inr ⟨_, rfl⟩

/-- A line without trouble is looked at without effect. -/
theorem State.lookLine_quiet {s : State} {line : Nat} (h : s.lineTrouble line = false) (own : Option Nat) : s.lookLine line own = .ok s := by
  simp [State.lookLine, h]

/-- Delivery enters the handler at once where its slot entry's line is without trouble; else it does so after the line was read, holds the
stream, or is a context fault. -/
theorem State.deliver_quiet {s : State} {c : Nat} {k : StreamId} (h : s.lineTrouble (s.slotLine c (s.strm c k).trapvec) = false) (t : Trap)
    (a : Word) : s.deliver c k t a = s.enterHandler c k t a := by
  unfold State.deliver
  dsimp only
  split
  · rfl
  · rw [State.lookLine_quiet h]

theorem State.deliver_cases (s : State) (c : Nat) (k : StreamId) (t : Trap) (a : Word) :
    s.deliver c k t a = s.enterHandler c k t a ∨
      ∃ s1 : State, s.deliver c k t a = s1.enterHandler c k t a ∨ s.deliver c k t a = s1.hold c k t ∨
        s.deliver c k t a = s1.contextFault (s.ctxOf c) (some t) := by
  unfold State.deliver
  dsimp only
  split
  · exact .inl rfl
  · split
    · next s1 _ => exact .inr ⟨s1, .inl rfl⟩
    · next s1 _ => exact .inr ⟨s1, .inr (.inl rfl)⟩
    · next s1 _ => exact .inr ⟨s1, .inr (.inr rfl)⟩

/-! ## Waiting (R78, R79) -/

theorem State.toWait_stream {s : State} {c : Nat} {k : StreamId} (h : s.cur = .stream c k) (w : WaitFor) :
    s.toWait w = s.updStrm c k fun t => { t with st := .wait, waiting := some w } := by unfold State.toWait; rw [h]

theorem State.wake_stream {s : State} {c : Nat} {k : StreamId} (h : s.cur = .stream c k) :
    s.wake = s.updStrm c k fun t => { t with st := if t.st = .wait then .run else t.st, waiting := none } := by
  unfold State.wake; rw [h]

end Sys2Proof.Machine
end

