-- ==== Sys2Proof/Tests/Slice0.lean ====
section
/-! SUPPORT. Tests of the model: ill-formed instructions are refused, words written out from the encodings of spec/ decode to their
instructions, single steps on small states, and for every statement that has hypotheses a state and operands that meet them. -/

namespace Sys2Proof.Tests

set_option Elab.async false

open Host (Outcome)
open Sys2Proof.Machine Sys2Proof.Statements

/-! ## Helpers -/

/-- The guard that is always true. -/
def G : Guard := ⟨0, false⟩

theorem ok_of {ε α : Type} {e : Except ε α} (h : (match e with | .ok _ => true | .error _ => false) = true) : ∃ a, e = .ok a := by
  cases e with
  | ok a => exact ⟨a, rfl⟩
  | error _ => exact absurd h Bool.false_ne_true

theorem err_of {ε α : Type} {e : Except ε α} (h : (match e with | .ok _ => true | .error _ => false) = false) : ∃ a, e = .error a := by
  cases e with
  | error a => exact ⟨a, rfl⟩
  | ok _ => exact absurd h.symm Bool.false_ne_true

theorem some_of {α : Type} {o : Option α} (h : o.isSome = true) : ∃ a, o = some a := Option.isSome_iff_exists.mp h

theorem ok2_of {ε α β : Type} {e : Except ε (α × β)} (h : (match e with | .ok _ => true | .error _ => false) = true) :
    ∃ a b, e = .ok (a, b) := by cases e with
  | ok p => exact ⟨p.1, p.2, rfl⟩
  | error _ => exact absurd h Bool.false_ne_true

/-- A word on registers that are no ports begins where its guard is true, they lie in the allotment and wait for no load. -/
theorem begins_plain {s : State} {g : Guard} {srcs dsts : List XReg} {vs : List Word}
    (h : (s.guardOn g && (srcs ++ dsts).all (fun r => decide (r.toNat < s.allotOf) && !s.regBusy r) &&
      srcs.all (fun r => (s.port? r).isNone) && srcs.map s.hart.get == vs) = true) : s.begins g srcs dsts vs s := by
  simp only [Bool.and_eq_true, List.all_eq_true, decide_eq_true_eq, Bool.not_eq_true', Option.isNone_iff_eq_none, beq_iff_eq] at h
  obtain ⟨⟨⟨hg, h1⟩, h2⟩, rfl⟩ := h
  exact ⟨⟨hg, fun r hr => (h1 r hr).1, fun r hr => (h1 r hr).2⟩, readAll_plain h2⟩

/-- A word names registers within the allotment that wait for no load, its guard true. -/
theorem clear_of {s : State} {g : Guard} {rs : List XReg}
    (h : (s.guardOn g && rs.all (fun r => decide (r.toNat < s.allotOf) && !s.regBusy r)) = true) : s.clear g rs := by
  simp only [Bool.and_eq_true, List.all_eq_true, decide_eq_true_eq, Bool.not_eq_true'] at h
  exact ⟨h.1, fun r hr => (h.2 r hr).1, fun r hr => (h.2 r hr).2⟩

/-- A register that is no port can be written. -/
theorem writes_plain {s : State} {r : XReg} (h : (s.port? r).isNone = true) (v : Word) : ∃ t, s.writeReg r v = .ok t :=
  ⟨_, writeReg_plain (Option.isNone_iff_eq_none.mp h) v⟩

/-- A running stream with the whole allotment, its trap vector at word 1, and x1 = 1, x2 = 2, x3 = 3. -/
def runStream (t : Stream) : Stream :=
  { t with st := .run, allot := .a64, trapvec := 1, hart := { t.hart with x := ((t.hart.x.set 1 1).set 2 2).set 3 3 } }

/-- A kernel of context 0 on core 0 alone. -/
def kern : Kernel :=
  { id := 0, ctx := 0, part := 0, queue := 0, seq := 0, slot := 0, buf := Vector.replicate 16 0, done := 0, est := 0, tokens := 0,
    priority := 0, ncores := 1, tiers := Vector.replicate 8 0, members := [], rank := 0, plan := ⟨0, []⟩, cfg := [], placed := true,
    cores := [0], step := 0, barriers := [], race := [], comm := false, commAt := 0, commProg := ⟨none, 0⟩ }

/-- Core 0 with a kernel of context 0 and code of two words in slot 0, and stream k of it acting. -/
def base (k : StreamId) : State :=
  { ((State.reset.withFetchWord 48 0).updCore 0 fun c =>
      { c with kernel := some 0, a := runStream c.a, x := runStream c.x, m := runStream c.m, c := runStream c.c }) with
    cur := .stream 0 k, kernels := [kern], moves := [] }

/-- Stream k of core 0 changed. -/
def withStrm (k : StreamId) (f : Stream → Stream) : State := (base k).updStrm 0 k f

/-- Station core 0 acting on an event. -/
def stat : State :=
  { (State.reset.updStation 0 fun t => { t with event := some ⟨3, 0, 0, Vector.replicate 6 0⟩ }) with cur := .station 0 }

/-- A line held as lost by slice 0, for which stores wait. -/
def lostAt (s : State) (l : Nat) : State := { s with slices := s.slices.set 0 { s.slice 0 with lost := [l] } }

/-! ## Hypotheses that can be met: scalar words, traps and control (O1 to O17) -/

/-- The operands of every clause of ScalarResults: sources x1, x2, x3 and a destination x4, of any value. -/
theorem met_ScalarResults : (base .A).begins G [1, 2, 3] [4] [1, 2, 3] (base .A) ∧ (base .A).begins G [1, 2] [4] [1, 2] (base .A) ∧
    (base .A).begins G [1] [4] [1] (base .A) ∧ (base .A).clear G [4] ∧ ∀ v, ∃ t, (base .A).writeReg 4 v = .ok t :=
  ⟨begins_plain (by decide +kernel), begins_plain (by decide +kernel), begins_plain (by decide +kernel), clear_of (by decide +kernel),
    writes_plain (by decide +kernel)⟩

/-- The values that the clauses of ScalarResults describe bit by bit: LOGT, BREV, BFX at the last length, BFI, SEXT. -/
theorem met_ScalarValues :
    (∀ i < 64, (6 : Word).getLsbD i = (0x3C : BitVec 8).getLsbD
      (4 * ((2 : Word).getLsbD i).toNat + 2 * ((4 : Word).getLsbD i).toNat + ((1 : Word).getLsbD i).toNat)) ∧
    (∀ i < 64, (0x8000000000000000 : Word).getLsbD i = (1 : Word).getLsbD (63 - i)) ∧
    signCopied 5 (BitVec.ofNat 64 (rawField 5 0 64)) 63 ∧ signCopied (-1) 3 1 ∧
    ∀ i < 64, (0xF0 : Word).getLsbD i = if 4 ≤ i ∧ i < 4 + 3 + 1 then (0xF : Word).getLsbD (i - 4) else (0 : Word).getLsbD i := by
  unfold signCopied; decide +kernel

theorem met_CompareResults : (base .A).begins G [1, 2] [] [1, 2] (base .A) ∧ (base .A).begins G [1] [] [1] (base .A) ∧
    (true = true ↔ condition .lt 1 2) ∧ (false = true ↔ condition .gtu 1 ((0 : BitVec 20).signExtend 64 + 1)) :=
  ⟨begins_plain (by decide +kernel), begins_plain (by decide +kernel), by simp [condition], by simp [condition]⟩

theorem met_PlogRule : 8 ≤ (8 : BitVec 6).toNat ∧ 16 ≤ (16 : BitVec 8).toNat ∧ (base .A).guardOn G = true := by decide +kernel

theorem met_PmovRule : 2 ≤ (2 : BitVec 8).toNat ∧ (base .A).clear G [4] ∧
    (∀ i < 64, (1 : Word).getLsbD i = (decide (i < 8) && (base .A).hart.pred (BitVec.ofNat 3 i))) ∧
    (∃ t, (base .A).writeReg 4 1 = .ok t) ∧ (base .A).begins G [1] [] [1] (base .A) :=
  ⟨by decide, clear_of (by decide +kernel), by decide +kernel, writes_plain (by decide +kernel) _, begins_plain (by decide +kernel)⟩

theorem met_LilRule : (base .A).clear G [4] ∧ (∃ t, (base .A).writeReg 4 7 = .ok t) ∧ (base .A).cur = .stream 0 .A ∧
    (base .A).clear G [14#4 ++ 3#2] ∧ ((base .A).dqOf 3).closed = false ∧ ((base .A).dqOf 3).entries.length < 64 ∧
    ((base .A).dqOf 3).pops ≤ ((base .A).dqOf 3).pushes ∧ (base .A).guardOn ⟨0, true⟩ = false :=
  ⟨clear_of (by decide +kernel), writes_plain (by decide +kernel) _, by decide +kernel, clear_of (by decide +kernel), by decide +kernel⟩

/-- Queue 4 of core 0, a port of stream A at x60, holding entries. -/
def queued (es : List DqEntry) (closed : Bool) : State := (base .A).setDq 4 { dqReset with entries := es, closed := closed }

theorem met_RegisterReadsAndWrites :
    (base .A).port? 0 = none ∧ (base .A).port? 5 = none ∧ (base .A).port? 60 = some 4 ∧
    ((queued [.filled 9] false).dqOf 4).entries = .filled 9 :: [] ∧ (∃ a b, (queued [.filled 9] false).popDq 4 = .ok (a, b)) ∧
    ((queued [] true).dqOf 4).entries = [] ∧ ((queued [] true).dqOf 4).closed = true ∧
    ((queued [] false).dqOf 4).entries = [] ∧ ((queued [] false).dqOf 4).closed = false ∧
    ((queued [.reserved 1] false).dqOf 4).entries = .reserved 1 :: [] ∧
    ((queued (List.replicate 63 (.filled 0)) false).dqOf 4).entries.length < 64 ∧
    64 ≤ ((queued (List.replicate 64 (.filled 0)) false).dqOf 4).entries.length ∧
    ((queued [.heldSlot 1] false).dqOf 4).entries = .heldSlot 1 :: [] ∧
    ((queued [] false).dqOf 4).pops ≤ ((queued [] false).dqOf 4).pushes ∧
    let s := (base .A).setDq 4 { dqReset with pops := 1 }
    (s.dqOf 4).closed = false ∧ (s.dqOf 4).pushes < (s.dqOf 4).pops := by
  refine ⟨?_, ?_, ?_, ?_, ok2_of ?_, ?_, ?_, ?_, ?_, ?_, ?_, ?_, ?_, ?_, ?_⟩ <;> decide +kernel

theorem add_answers (s : State) : ∃ t, Machine.exec (.add G 4 1 2) s = .next t := finish_next _ _

theorem met_ScalarFrame : scalarShape (.add G 4 1 2) = some (G, [1, 2], some 4, none) ∧
    (base .A).begins G [1, 2] [4] [1, 2] (base .A) ∧ (∀ v, ∃ u, (base .A).writeReg 4 v = .ok u) ∧
    ∃ t, Machine.exec (.add G 4 1 2) (base .A) = .next t :=
  ⟨by decide +kernel, begins_plain (by decide +kernel), writes_plain (by decide +kernel), add_answers _⟩

theorem met_GuardAndAllotment : (base .A).guardOn ⟨0, true⟩ = false ∧ (base .A).guardOn G = true ∧
    scalarShape (.add G 16 1 2) = some (G, [1, 2], some 16, none) ∧
    ((withStrm .A fun t => { t with allot := .a16 }).guardOn G = true ∧ (withStrm .A fun t => { t with allot := .a16 }).allotOf ≤ 16) := by
  decide +kernel

theorem met_StreamHandlerTraps : (base .A).cur = .stream 0 .A ∧ shadowClass 0x11 = false ∧ ((base .A).strm 0 .A).trapvec ≠ 0 ∧
    ((base .A).strm 0 .A).tcause.getLsbD 63 = false ∧ (base .A).codeOk ((base .A).strm 0 .A).trapvec = true ∧
    ((withStrm .A fun t => { t with trapvec := 0 }).strm 0 .A).trapvec = 0 ∧ (base .A).ctxOf 0 < 1024 ∧
    ((base .A).ctx ((base .A).ctxOf 0)).state ≠ .free ∧ ((base .A).ctx ((base .A).ctxOf 0)).state ≠ .terminating := by
  decide +kernel

/-- Stream M of core 0 with a fault of the array to take. -/
theorem met_ArrayFault :
    ((((base .M).updCore 0 fun c => { c with array := { c.array with pendFault := some ⟨0x11, 0, 5⟩ } }).core 0).array.pendFault =
      some ⟨0x11, 0, 5⟩) ∧ shadowClass 0x11 = false := by decide +kernel

theorem met_ShadowHandlerTraps : (base .X).cur = .stream 0 .X ∧ (base .X).guardOn G = true := by decide +kernel

/-- A handler running after a USER trap at word 0. -/
def handler : State := withStrm .A fun t => { t with tcause := 0x8000000000000030 }

theorem met_TrapReturn : handler.cur = .stream 0 .A ∧ handler.guardOn G = true ∧ (handler.strm 0 .A).tcause.getLsbD 63 = true ∧
    (handler.strm 0 .A).tcause.setWidth 8 = 0x30#8 ∧
    ((withStrm .A fun t => { t with tcause := 0x8000000000000008 }).strm 0 .A).tcause.setWidth 8 ≠ 0x30#8 ∧
    ((base .A).strm 0 .A).tcause.getLsbD 63 = false := by decide +kernel

theorem met_Jumps : acceptable (base .A) 0 (wordsOn (base .A).pc 1) ∧ ¬acceptable (base .A) 0 (wordsOn (base .A).pc 2) ∧
    (base .A).cur = .stream 0 .A ∧ (base .A).begins G [1] [] [1] (base .A) ∧ acceptable (base .A) 0 1 ∧ (base .A).port? 1 = none :=
  ⟨by unfold acceptable; decide +kernel, by unfold acceptable; decide +kernel, by decide +kernel, begins_plain (by decide +kernel),
    by unfold acceptable; decide +kernel, by decide +kernel⟩

/-- A stream whose shadow stack holds n entries of the link 1, marked or not. -/
def linked (n : Nat) (mark : Bool) : State :=
  withStrm .A fun t => { t with hart := { t.hart with shadow := List.replicate n (setBit 1 63 mark) },
                                lists := if mark then { t.lists with opened := [5] } else t.lists }

theorem met_Calls : (base .A).clear G [1] ∧ (base .A).hart.shadow.length < (base .A).shadowRoom ∧
    (linked 8448 false).shadowRoom ≤ (linked 8448 false).hart.shadow.length ∧ (base .A).begins G [1] [1] [1] (base .A) ∧
    (linked 0 false).hart.shadow = [] ∧ (linked 1 false).hart.shadow = setBit 1 63 false :: [] ∧
    (setBit 1 63 false : Word) = 1 ∧ (setBit 1 63 true : Word).getLsbD 63 = true ∧ (setBit 1 63 false : Word) ≠ 2 ∧
    (linked 1 false).begins G [1] [] [1] (linked 1 false) ∧ (linked 1 false).begins G [2] [] [2] (linked 1 false) :=
  ⟨clear_of (by decide +kernel), by decide +kernel, by decide +kernel, begins_plain (by decide +kernel), by decide +kernel,
    by decide +kernel, by decide, by decide, by decide, begins_plain (by decide +kernel), begins_plain (by decide +kernel)⟩

/-- Stream A with levels open on list slots, some marked entries of the link 1, and list slots in use. -/
def levels (n : Nat) (mark : Nat) (use : SlotUse) : State :=
  withStrm .A fun t => { t with
    hart := { t.hart with shadow := List.replicate mark (setBit 1 63 true) }
    lists := { t.lists with opened := List.replicate n 0, slots := Vector.replicate 64 ⟨1, use⟩ } }

/-- The refusals of calls and returns: a full stack, a fifth level, a refused target, no free slot, no open level, another address. -/
theorem met_CallRefusals : ¬acceptable (base .A) 0 (wordsOn (base .A).pc 2) ∧ ¬acceptable (base .A) 0 2 ∧
    (levels 4 0 .free).hart.shadow.length < (levels 4 0 .free).shadowRoom ∧ 4 ≤ (levels 4 0 .free).me.lists.opened.length ∧
    (levels 3 0 .closed).me.lists.opened.length < 4 ∧ (levels 3 0 .closed).me.lists.freeSlot = none ∧
    acceptable (levels 3 0 .closed) 0 (wordsOn (levels 3 0 .closed).pc 1) ∧ (levels 0 1 .free).me.lists.opened = [] ∧
    (levels 0 1 .free).hart.shadow = setBit 1 63 true :: [] ∧ (levels 0 1 .free).begins G [1] [3] [1] (levels 0 1 .free) ∧
    (linked 1 false).hart.shadow.length < (linked 1 false).shadowRoom ∧ acceptable (linked 1 false) 0 1 :=
  ⟨by unfold acceptable; decide +kernel, by unfold acceptable; decide +kernel, by decide +kernel, by decide +kernel, by decide +kernel,
    by decide +kernel, by unfold acceptable; decide +kernel, by decide +kernel, by decide +kernel, begins_plain (by decide +kernel),
    by decide +kernel, by unfold acceptable; decide +kernel⟩

theorem met_CollectingCalls : (base .A).me.lists.opened.length < 4 ∧ (∃ n, (base .A).me.lists.freeSlot = some n) ∧
    (linked 1 true).begins G [1] [3] [1] (linked 1 true) ∧ (linked 1 true).hart.shadow = setBit 1 63 true :: [] ∧
    (1 : Word).getLsbD 63 = false ∧ (linked 1 true).me.lists.opened = 5 :: [] ∧ acceptable (linked 1 true) 0 1 ∧
    (linked 1 true).me.lists.used = 0 :=
  ⟨by decide +kernel, some_of (by decide +kernel), begins_plain (by decide +kernel), by decide +kernel, by decide, by decide +kernel,
    by unfold acceptable; decide +kernel, by decide +kernel⟩

/-- Core 0 with streams X, M and C IDLE. -/
def alone : State := (base .A).updCore 0 fun c => { c with x := streamReset, m := streamReset, c := streamReset }

theorem met_ForkAndStreamEnds : alone.cur = .stream 0 .A ∧ alone.guardOn G = true ∧ (alone.core 0).x.st = .idle ∧
    (alone.core 0).m.st = .idle ∧ (alone.core 0).c.st = .idle ∧ ((base .A).core 0).x.st ≠ .idle ∧
    (base .A).hart.stat.getLsbD 6 = false ∧
    (withStrm .A fun t => { t with hart := { t.hart with stat := 0x40 } }).hart.stat.getLsbD 6 = true ∧
    ((base .A).strm 0 .A).loads = [] ∧ ((base .A).strm 0 .A).remote = [] ∧ stat.cur = .station 0 ∧ stat.guardOn G = true ∧
    alone.guardOn ⟨0, true⟩ = false ∧
    let s := withStrm .A fun t => { t with hart := { t.hart with stat := 0x40 }, loads := [⟨4, none, 7, false⟩] }
    s.hart.stat.getLsbD 6 = true ∧ (s.strm 0 .A).loads ≠ [] := by
  decide +kernel

/-- Core 0 whose bit queue holds a bit of stream X. -/
def bitQueued (b : Bool) : State := (base .A).updCore 0 fun c => { c with bq := [(.A, true), (.X, b)] }

/-- Core 0 whose bit queue is full, and one whose peer stream has popped a bit that stream A pushes again. -/
def bitsFull : State := (base .A).updCore 0 fun c => { c with bq := List.replicate 64 (.A, true) }
def bitsAhead : State := (base .A).updStrm 0 .X fun t => { t with bqAt := { t.bqAt with pops := 1 } }

theorem met_BitQueue : 64 ≤ (bitsFull.core 0).bq.length ∧ bitsFull.guardOn G = true ∧ (∀ e ∈ (bitsFull.core 0).bq, e.1 = StreamId.A) ∧
    ((base .A).strm 0 (bqPeer .A)).bqAt.pops ≤ ((base .A).strm 0 .A).bqAt.pushes ∧ (bitsAhead.core 0).bq.length < 64 ∧
    (bitsAhead.strm 0 .A).bqAt.pushes < (bitsAhead.strm 0 (bqPeer .A)).bqAt.pops ∧ (∀ e ∈ [((.A : StreamId), true)], e.1 = .A) := by
  decide +kernel

theorem met_QueueInstructions : (base .A).begins G [1] [] [1] (base .A) ∧ (∃ t, (base .A).pushDq 0 1 = .ok t) ∧ (base .A).clear G [4] ∧
    ((base .A).dqOf 0).entries.length ≤ 64 ∧ (∀ v, ∃ t, (base .A).writeReg 4 v = .ok t) ∧ ((base .A).core (base .A).curCore).bq.length < 64 ∧
    ((bitQueued true).core 0).bq = [(.A, true)] ++ (.X, true) :: [] ∧ acceptable (bitQueued true) 0 (wordsOn (bitQueued true).pc 1) ∧
    ¬acceptable (bitQueued true) 0 (wordsOn (bitQueued true).pc 2) ∧ (bitQueued true).guardOn G = true :=
  ⟨begins_plain (by decide +kernel), ok_of (by decide +kernel), clear_of (by decide +kernel), by decide +kernel,
    writes_plain (by decide +kernel), by decide +kernel, by decide +kernel, by unfold acceptable; decide +kernel,
    by unfold acceptable; decide +kernel, by decide +kernel⟩

theorem met_ControlWords : (base .A).clear G [4] ∧ (∀ v, ∃ t, (base .A).writeReg 4 v = .ok t) ∧
    (base .A).begins G [1] [] [1] (base .A) ∧ (base .A).cur = .stream 0 .A ∧ 1 ≤ ((0x100 : Word).extractLsb' 8 3).toNat ∧
    6 ≤ ((0x600 : Word).extractLsb' 8 3).toNat :=
  ⟨clear_of (by decide +kernel), writes_plain (by decide +kernel), begins_plain (by decide +kernel), by decide +kernel, by decide, by decide⟩

/-! ## Hypotheses that can be met: repetition and vectors (O17 to O24) -/

/-- ADD x4, x1, x2 at word 1 of the code, with PRC of an index and a count, and 16 registers. -/
def looped (g : Guard) (i n : Nat) (act : Bool) : State :=
  { (withStrm .A fun t => { t with
      allot := .a16, hart := { t.hart with prc := 0#31 ++ BitVec.ofBool act ++ BitVec.ofNat 16 i ++ BitVec.ofNat 16 n } }) with
    hbm := (State.reset.withFetchWord 96 (2 ^ 48 * (0x01#6 ++ 0#6 ++ 4#6 ++ 1#6 ++ 2#6 ++ 0#6 ++ g.p ++ BitVec.ofBool g.inv ++ 0#8).toNat)).hbm }

theorem ok_then {α β ε δ : Type} [DecidableEq β] {f : Except ε α} {g : α → Except δ β} {b : β}
    (h : (match f with | .ok a => (match g a with | .ok x => decide (x = b) | .error _ => false) | .error _ => false) = true) :
    ∃ a, f = .ok a ∧ g a = .ok b := by
  cases f with
  | error _ => exact absurd h Bool.false_ne_true
  | ok a =>
    refine ⟨a, rfl, ?_⟩
    change (match g a with | .ok x => decide (x = b) | .error _ => false) = true at h
    cases hg : g a with
    | error _ => rw [hg] at h; exact absurd h Bool.false_ne_true
    | ok x => rw [hg] at h; exact congrArg Except.ok (of_decide_eq_true h)

theorem met_Repetition : (∃ w, (looped G 0 0 false).fetchAt ((looped G 0 0 false).pcAfter 1) = .ok w ∧
      decodeGoverned (looped G 0 0 false).role 1 1 1 0 w = .ok (.add G 4 1 2)) ∧
    (looped G 0 0 false).guardOn ⟨0, true⟩ = false ∧ prcAct (looped G 0 0 false).hart.prc = false ∧ (looped G 0 0 false).agentOk ∧
    (looped G 0 0 false).begins G [5] [] [0] (looped G 0 0 false) ∧
    (∃ w, (looped G 1 2 true).fetchAt ((looped G 1 2 true).pcAfter 1) = .ok w ∧
      decodeGoverned (looped G 1 2 true).role 1 1 1 0 w = .ok (.add G 4 1 2)) ∧
    (looped G 1 2 true).hart.prc = 0#31 ++ 1#1 ++ BitVec.ofNat 16 1 ++ BitVec.ofNat 16 2 ∧
    (∀ r ∈ [4 + 1 * strideOf 1, 1 + 1 * strideOf 1, 2 + 1 * strideOf 1], r < (looped G 1 2 true).allotOf ∧ r < 56 ∧
      (looped G 1 2 true).regBusy (BitVec.ofNat 6 r) = false) ∧
    (looped G 12 13 true).hart.prc = 0#31 ++ 1#1 ++ BitVec.ofNat 16 12 ++ BitVec.ofNat 16 13 ∧
    (looped G 12 13 true).allotOf ≤ 4 + 12 * strideOf 1 ∧ (looped G 12 13 true).cur = .stream 0 .A ∧
    (looped G 0 0 false).hart.rptOn = false ∧ (looped G 1 2 true).guardOn G = true ∧ (1 : BitVec 2) ≠ 0 :=
  ⟨ok_then (by decide +kernel), by decide +kernel, by decide +kernel,
    by unfold State.agentOk; show (0 : Nat) < 512; decide, begins_plain (by decide +kernel),
    ok_then (by decide +kernel), by decide +kernel⟩

/-- The vector statements ask for a core alone, and of VMOVS, VMOVX and DFCNT a register. -/
theorem met_VectorStatements : (base .X).curCore < 512 ∧ LaneW.w16 ≠ LaneW.w32 ∧ CvtType.bf16 ≠ CvtType.f32 ∧
    (base .X).begins ⟨0, false⟩ [1] [] [1] (base .X) ∧ (base .X).clear ⟨0, false⟩ [4] ∧
    ((base .X).mask 0).getLsbD 0 = true ∧ (∀ v, ∃ t, (base .X).writeReg 4 v = .ok t) ∧
    (∀ e < 1024, ((base .X).mask 1).getLsbD e = false) :=
  ⟨by decide +kernel, by decide, by decide, begins_plain (by decide +kernel), clear_of (by decide +kernel), by decide +kernel,
    writes_plain (by decide +kernel), by decide +kernel⟩

theorem met_VselAndVmskRules : (1 : BitVec 2) ≠ 0 ∧ 8 ≤ (8 : VReg).toNat ∧ (base .X).curCore < 512 :=
  ⟨by decide, by decide, by decide +kernel⟩

/-- Core 0's cluster with bank 63 owned by context 0, in fifo mode, its ring holding n entries. -/
def deferred (n : Nat) : State :=
  (base .X).updCluster 0 fun c => { c with
    owners := [(0, ⟨1, BitVec.twoPow 64 63, 0⟩)], modes := c.modes.set 63 .fifo,
    rings := c.rings.set 63 ⟨some 0, List.replicate n 0⟩ }

theorem met_DeferralRing : ((deferred 0).owner (deferred 0).curCl (deferred 0).curCtx).bank.getLsbD 63 = true ∧
    ((deferred 0).cluster (deferred 0).curCl).modes.getD 63 .cache = .fifo ∧
    ((deferred 0).ring 63).bound = some (deferred 0).curCore ∧
    (deferred 0).ring 63 = ⟨some 0, []⟩ ∧ (enabledOf ((deferred 0).mask 0)).length = 1024 ∧
    32768 < ((deferred 31745).ring 63).entries.length + (enabledOf ((deferred 31745).mask 0)).length ∧
    (deferred 0).clear ⟨0, false⟩ [4] ∧ (∀ v, ∃ t, ((deferred 0).setRing 63 []).writeReg 4 v = .ok t) ∧
    ((deferred 0).owner (deferred 0).curCl (deferred 0).curCtx).bank.getLsbD 62 = false :=
  ⟨by decide +kernel, by decide +kernel, by decide +kernel, by decide +kernel, by decide +kernel, by decide +kernel,
    clear_of (by decide +kernel), writes_plain (by decide +kernel), by decide +kernel⟩

/-! ## Hypotheses that can be met: memory (O25 to O31) -/

theorem is_of {ε α : Type} [DecidableEq α] {e : Except ε α} {a : α}
    (h : (match e with | .ok x => decide (x = a) | .error _ => false) = true) : e = .ok a := by
  cases e with
  | ok x => exact congrArg Except.ok (of_decide_eq_true h)
  | error _ => exact absurd h Bool.false_ne_true

/-- Core 0's cluster with bank 0 in tile mode, owned by context 0, and a cached translation of the context's page 0. -/
def mem (k : StreamId) (late : Bool) : State :=
  { (base k).updCluster 0 fun c => { c with
      tlb := [⟨0, 0, 65536, 0x100000, true, true, false⟩], owners := [(0, ⟨1, 1, 0⟩)], modes := c.modes.set 0 .tile } with late := late }

theorem mem_wf (k : StreamId) (late : Bool) : (mem k late).Wf := by
  unfold State.Wf; cases k <;> cases late <;> decide +kernel

theorem mem_locate (k : StreamId) (late w : Bool) :
    (mem k late).locate (mem k late).curCl (mem k late).curCtx 1 w = .ok (.home 0x100001, mem k late) :=
  locate_hit (e := ⟨0, 0, 65536, 0x100000, true, true, false⟩) (by cases k <;> cases late <;> decide +kernel)
    (by cases k <;> cases late <;> cases w <;> decide +kernel)

/-- What `usable` and `unraced` ask of a home line. -/
theorem usable_of {s : State} {ga pa : Nat} (h : (placeOf pa == .hbm && pa % 64 == ga % 64 && !s.isLost (pa / 64) &&
    !s.pinnedFor s.party (pa / 64) && !s.hbmBad (pa / 64) && s.l2.isEmpty) = true) : usable s ga pa := by
  simp only [Bool.and_eq_true, Bool.not_eq_true', beq_iff_eq, List.isEmpty_iff] at h
  obtain ⟨⟨⟨⟨⟨h1, h2⟩, h3⟩, h4⟩, h5⟩, h6⟩ := h
  have h7 : ∀ n, s.l2At n = none := fun n => by simp [State.l2At, h6]
  exact ⟨h1, h2, h3, h4, fun _ => h5, fun _ => by simp [h6], fun l hl => nomatch (h7 _).symm.trans hl⟩

theorem unraced_of {s : State} {pa : Nat} {c : Cls} {store : Bool} (h : (s.liveRec (pa / 64)).isNone = true) : unraced s pa c store :=
  fun _ _ _ => by simp [State.raceFind, Option.isNone_iff_eq_none.mp h]

theorem met_Loads : (mem .A false).Wf ∧ (mem .A false).curCore < 512 ∧ (mem .A false).cur = .stream 0 .A ∧
    (mem .A false).collecting = false ∧ (mem .A false).begins G [1] [4] [1] (mem .A false) ∧ (mem .A false).port? 4 = none ∧
    (mem .A false).resolve true 1 1 = .ok (.tile 1) ∧ (mem .A false).storeBad (mem .A false).curCl 1 1 = false ∧
    unpinnedTile (mem .A false) 1 ∧ (mem .A false).resolve false 1 1 = .ok (.global 1) ∧
    (mem .A false).locate (mem .A false).curCl (mem .A false).curCtx 1 false = .ok (.home 0x100001, mem .A false) ∧
    usable (mem .A false) 1 0x100001 ∧ unraced (mem .A false) 0x100001 .plain false ∧ (mem .A false).late = false := by
  refine ⟨mem_wf _ _, by decide +kernel, by decide +kernel, by decide +kernel, begins_plain (by decide +kernel), by decide +kernel,
    is_of (by decide +kernel), by decide +kernel, by unfold unpinnedTile; decide +kernel, is_of (by decide +kernel), mem_locate _ _ _,
    usable_of (by decide +kernel), unraced_of (by decide +kernel), by decide +kernel⟩

theorem met_LoadsLate : (mem .A true).Wf ∧ (mem .A true).cur = .stream 0 .A ∧ (mem .A true).collecting = false ∧
    (mem .A true).begins G [1] [4] [1] (mem .A true) ∧ (mem .A true).port? 4 = none ∧
    (mem .A true).resolve false 1 1 = .ok (.global 1) ∧
    (mem .A true).locate (mem .A true).curCl (mem .A true).curCtx 1 false = .ok (.home 0x100001, mem .A true) ∧
    usable (mem .A true) 1 0x100001 ∧ unraced (mem .A true) 0x100001 .plain false ∧ (mem .A true).late = true :=
  ⟨mem_wf _ _, by decide +kernel, by decide +kernel, begins_plain (by decide +kernel), by decide +kernel,
    is_of (by decide +kernel), mem_locate _ _ _, usable_of (by decide +kernel), unraced_of (by decide +kernel), by decide +kernel⟩

/-- LD to queue 4: x60 is a port of stream A, whose queue is open and empty, or closed. -/
theorem met_QueueLoads (late : Bool) : (mem .A late).begins G [1] [60] [1] (mem .A late) ∧ (mem .A late).port? 60 = some 4 ∧
    (mem .A late).port? 1 ≠ some 4 ∧ ((mem .A late).dqOf 4).closed = false ∧ ((mem .A late).dqOf 4).entries = [] ∧
    ((mem .A late).dqOf 4).pops ≤ ((mem .A late).dqOf 4).pushes ∧ (∀ id, DqEntry.heldSlot id ∉ ([] : List DqEntry)) ∧
    (((mem .A late).setDq 4 { dqReset with closed := true }).dqOf 4).closed = true ∧ usable (mem .A late) 1 0x100001 ∧
    unraced (mem .A late) 0x100001 .plain false := by
  refine ⟨begins_plain ?_, ?_, ?_, ?_, ?_, ?_, nofun, ?_, usable_of ?_, unraced_of ?_⟩ <;> cases late <;> decide +kernel

/-- Page 0 of the context in the host's memory, and in another package with the partition's key loaded. -/
def hostMem : State := (mem .A false).updCluster 0 fun c => { c with tlb := [⟨0, 0, 4096, 0x3000, true, true, true⟩] }
def farMem : State :=
  ((mem .A false).updCluster 0 fun c => { c with tlb := [⟨0, 0, 65536, 2 ^ 50 + 8 * 2 ^ 40 + 0x50000, true, true, false⟩] }).updPart 0 fun p =>
    { p with ownKey := some 7 }

theorem met_LoadsHost : hostMem.resolve false 1 1 = .ok (.global 1) ∧
    hostMem.locate hostMem.curCl hostMem.curCtx 1 false = .ok (.host 0x3001, hostMem) ∧
    hostMem.locate hostMem.curCl hostMem.curCtx 1 true = .ok (.host 0x3001, hostMem) ∧ 0x3001 % 64 = 1 % 64 ∧
    hostMem.pinnedFor hostMem.party ((Loc.host 0x3001).key / 64) = false :=
  ⟨is_of (by decide +kernel), locate_host (e := ⟨0, 0, 4096, 0x3000, true, true, true⟩) (by decide +kernel) (by decide +kernel),
    locate_host (e := ⟨0, 0, 4096, 0x3000, true, true, true⟩) (by decide +kernel) (by decide +kernel), by decide, by decide +kernel⟩

theorem met_RemoteLoads : farMem.begins G [1] [4] [1] farMem ∧ farMem.me.waiting = none ∧ farMem.resolve false 1 1 = .ok (.global 1) ∧
    (∃ dest o, farMem.locate farMem.curCl farMem.curCtx 1 false = .ok (.remote dest o, farMem) ∧ dest ≠ farMem.pkgId.toNat ∧
      farMem.remoteRoom 0 .A dest false = true) ∧
    domainScope (farMem.effScope .system 0 0) = true ∧ (farMem.part farMem.curPart).ownKey.isSome = true :=
  ⟨begins_plain (by decide +kernel), by decide +kernel, is_of (by decide +kernel),
    ⟨8, 0x50001, locate_remote (e := ⟨0, 0, 65536, 2 ^ 50 + 8 * 2 ^ 40 + 0x50000, true, true, false⟩) (by decide +kernel)
      (by decide +kernel), by decide +kernel⟩, by decide +kernel⟩

/-- Station core 0 acting, x1 holding an address and x2 a value. -/
def statAt (x : Word) : State := stat.updStation 0 fun t => { t with hart := { t.hart with x := (t.hart.x.set 1 x).set 2 2 } }

theorem met_StationMemory : (statAt 0x40).cur = .station 0 ∧ (statAt 0x40).begins G [1] [4] [0x40] (statAt 0x40) ∧
    (statAt 0x40).begins G [1, 2] [] [0x40, 2] (statAt 0x40) ∧ placeOf 0x40 = .hbm ∧ (statAt 0x40).inPlane 0x40 = false ∧
    usable (statAt 0x40) 0x40 0x40 ∧ placeOf (regBase + 0x500040) = .regs ∧ (regBase + 0x500040) % 8 = 0 ∧
    (statAt (BitVec.ofNat 64 (regBase + 0x500040))).begins G [1] [4] [BitVec.ofNat 64 (regBase + 0x500040)]
      (statAt (BitVec.ofNat 64 (regBase + 0x500040))) ∧ (statAt 0x40).Wf :=
  ⟨by decide +kernel, begins_plain (by decide +kernel), begins_plain (by decide +kernel), by decide +kernel, by decide +kernel,
    usable_of (by decide +kernel), by decide +kernel, by decide +kernel, begins_plain (by decide +kernel), by unfold State.Wf; decide +kernel⟩

/-- With no arena, no store meets one. -/
theorem in_arena_free {s : State} {cl ctx a n : Nat} {tile : Bool} (h : (s.cores.toList.all fun c =>
    [c.a, c.x, c.m, c.c].all fun t => t.lists.arena == 0) = true) : s.inArena ctx cl tile a n = false := by
  simp only [State.inArena, List.any_eq_false, Bool.and_eq_true, not_and, List.any_eq_true, forall_exists_index, and_imp]
  intro c hc t ht hm
  simp only [List.all_eq_true, beq_iff_eq] at h
  have := h c.1 (List.fst_mem_of_mem_zipIdx hc) t ht
  rw [this] at hm
  simp [arenaMeets, field] at hm

/-- With no arena and no spill region assigned, nothing is protected from a store. -/
theorem guard_free {s : State} {cl ctx a n : Nat} {tile : Bool} {y : Word} (h : (s.cores.toList.all fun c =>
    [c.a, c.x, c.m, c.c].all fun t => t.lists.arena == 0) = true) (hs : (s.ctx ctx).spillBase = 0) :
    s.guardStore cl ctx tile a n y = .ok () := by
  simp [State.guardStore, in_arena_free h, State.inSpill, hs]

theorem met_Stores : (mem .A false).Wf ∧ (mem .A false).cur = .stream 0 .A ∧ (mem .A false).collecting = false ∧
    (mem .A false).begins G [1, 2] [] [1, 2] (mem .A false) ∧ (mem .A false).me.remote = [] ∧
    mayRelease (mem .A false) (stCls .release .package) ∧ (mem .A false).resolve true 1 1 = .ok (.tile 1) ∧
    (mem .A false).guardStore (mem .A false).curCl (mem .A false).curCtx true 1 1 1 = .ok () ∧
    (mem .A false).resolve false 1 1 = .ok (.global 1) ∧
    (mem .A false).locate (mem .A false).curCl (mem .A false).curCtx 1 true = .ok (.home 0x100001, mem .A false) ∧
    (mem .A false).guardStore (mem .A false).curCl (mem .A false).curCtx false 1 1 1 = .ok () ∧
    usable (mem .A false) 1 0x100001 ∧ unraced (mem .A false) 0x100001 (stCls .release .package) true :=
  ⟨mem_wf _ _, by decide +kernel, by decide +kernel, begins_plain (by decide +kernel), by decide +kernel,
    fun _ h => Option.some.inj h ▸ by decide +kernel,
    is_of (by decide +kernel), guard_free (by decide +kernel) (by decide +kernel), is_of (by decide +kernel), mem_locate _ _ _,
    guard_free (by decide +kernel) (by decide +kernel), usable_of (by decide +kernel), unraced_of (by decide +kernel)⟩

/-- The memory state with x1 holding an address. -/
def memAt (x : Word) : State := (mem .A false).updStrm 0 .A fun t => { t with hart := { t.hart with x := t.hart.x.set 1 x } }

/-- The boundary operands of each check: tag 2; tile offset 8 MiB; a bank in cache mode; ALIGN in tile space and in memory; and
bank 1 in tile mode but not owned. -/
theorem met_AccessChecks :
    (∀ x ∈ [(0x0200000000000000 : Word), 0x0100000000800000, 0x0100000000020000, 0x0100000000000001, 1],
      (memAt x).cur = .stream 0 .A ∧ (memAt x).collecting = false ∧ (memAt x).begins G [1] [4] [x] (memAt x) ∧
      (memAt x).begins G [1, 2] [] [x, 2] (memAt x) ∧ (memAt x).port? 4 = none) ∧
    ((mem .A false).cluster 0).modes.getD 1 .cache ≠ .tile ∧
    ((((mem .A false).updCluster 0 fun c => { c with modes := c.modes.set 1 .tile }).cluster 0).modes.getD 1 .cache = .tile ∧
      ((((mem .A false).updCluster 0 fun c => { c with modes := c.modes.set 1 .tile }).owner 0 0).bank.getLsbD 1 = false)) := by
  refine ⟨?_, by decide +kernel⟩
  simp only [List.forall_mem_cons]
  refine ⟨?_, ?_, ?_, ?_, ?_, nofun⟩ <;>
    exact ⟨by decide +kernel, by decide +kernel, begins_plain (by decide +kernel), begins_plain (by decide +kernel), by decide +kernel⟩

/-- A destination that is no port, or whose queue has room. -/
theorem slot_of {s : State} {d : XReg} (h : (match s.port? d with
    | none => true
    | some q => decide ((s.dqOf q).entries.length < 64) && decide ((s.dqOf q).pops ≤ (s.dqOf q).pushes)) = true) : hasSlot s d := by
  intro q hq
  rw [hq] at h
  simp only [Bool.and_eq_true, decide_eq_true_eq] at h
  exact .inr h

theorem met_Atomics : (memAt 4).Wf ∧ (memAt 4).cur = .stream 0 .A ∧ (memAt 4).collecting = false ∧
    (memAt 4).begins G (atomSources .add 3 1 2) [3] (atomValues .add 4 2 3) (memAt 4) ∧
    (memAt 4).begins G (atomSources .cas 3 1 2) [3] (atomValues .cas 4 2 3) (memAt 4) ∧ hasSlot (memAt 4) 3 ∧ hasSlot (memAt 4) 60 ∧
    (∀ r ∈ [1, 2], (memAt 4).port? r ≠ (memAt 4).port? 60) ∧ (memAt 4).me.remote = [] ∧
    mayRelease (memAt 4) (atomCls .acqRel .package 0) ∧ (memAt 4).resolve false 4 4 = .ok (.global 4) ∧
    (memAt 4).locate (memAt 4).curCl (memAt 4).curCtx 4 true = .ok (.home 0x100004, memAt 4) ∧
    (memAt 4).guardStore (memAt 4).curCl (memAt 4).curCtx false 4 4 4 = .ok () ∧ usable (memAt 4) 4 0x100004 ∧
    (∀ p ∈ atomics (8 * 4), p.1 = .add → 2 = (p.2 (BitVec.ofNat _ (numberOf (fun i => (memAt 4).physByte (0x100004 + i)) 4))
      ((2 : Word).setWidth _) ((3 : Word).setWidth _)).toNat) :=
  ⟨by unfold State.Wf; decide +kernel, by decide +kernel, by decide +kernel, begins_plain (by decide +kernel),
    begins_plain (by decide +kernel), slot_of (by decide +kernel), slot_of (by decide +kernel), by decide +kernel,
    by decide +kernel, fun _ h => Option.some.inj h ▸ by decide +kernel, is_of (by decide +kernel),
    locate_hit (e := ⟨0, 0, 65536, 0x100000, true, true, false⟩) (by decide +kernel) (by decide +kernel),
    guard_free (by decide +kernel) (by decide +kernel), usable_of (by decide +kernel),
        by unfold atomics; simp only [List.forall_mem_cons]; decide +kernel⟩

/-- ATOM of a remote page: no request outstanding, then the answer of the one that it waits for. -/
def farAtom (rs : List RemoteReq) (w : Option WaitFor) : State := farMem.updStrm 0 .A fun t => { t with remote := rs, waiting := w }

theorem met_RemoteAtoms : let r : RemoteReq := ⟨0, .atom .add 3 true, 8, 0x50004, 4, 4, true, 7, 0, some 9, [], [], false⟩
    let r4 : RemoteReq := { r with kind := .load 4 false true none }
    let s := farMem.updStrm 0 .A fun t => { t with hart := { t.hart with x := t.hart.x.set 1 4 } }
    s.begins G (atomSources .add 3 1 2) [3] (atomValues .add 4 2 3) s ∧ s.resolve false 4 4 = .ok (.global 4) ∧
    s.locate s.curCl s.curCtx 4 true = .ok (.remote 8 0x50004, s) ∧ s.guardStore s.curCl s.curCtx false 4 4 4 = .ok () ∧
    s.me.waiting = none ∧ s.me.remote = [] ∧ s.remoteRoom 0 .A 8 true = true ∧ mayRelease s (atomCls .acqRel .system 0) ∧
    (farAtom [r] (some (.remoteAnswer 0))).awaited = some r ∧ (farAtom [r4] (some (.remoteAnswer 0))).awaited = some r4 :=
  ⟨begins_plain (by decide +kernel), is_of (by decide +kernel),
    locate_remote (e := ⟨0, 0, 65536, 2 ^ 50 + 8 * 2 ^ 40 + 0x50000, true, true, false⟩) (by decide +kernel) (by decide +kernel),
    guard_free (by decide +kernel) (by decide +kernel), by decide +kernel, by decide +kernel, by decide +kernel,
    fun _ h => Option.some.inj h ▸ by decide +kernel, by decide +kernel⟩

/-- The atomics of tile space, on the same state with a tagged operand. -/
theorem met_AtomicsTile : (memAt 0x0100000000000004).begins G (atomSources .add 3 1 2) [3] (atomValues .add 0x0100000000000004 2 3)
      (memAt 0x0100000000000004) ∧
    (memAt 0x0100000000000004).resolve false 0x0100000000000004 4 = .ok (.tile 4) ∧
    (memAt 0x0100000000000004).guardStore (memAt 4).curCl (memAt 4).curCtx true 4 4 0x0100000000000004 = .ok () ∧
    (memAt 0x0100000000000004).storeBad (memAt 4).curCl 4 4 = false :=
  ⟨begins_plain (by decide +kernel), is_of (by decide +kernel), guard_free (by decide +kernel) (by decide +kernel), by decide +kernel⟩

/-- Stream A with an unanswered remote store and one remote load. -/
def farStore : RemoteReq := ⟨0, .store false, 8, 0, 0, 8, false, 7, 0, none, [], [], false⟩
def farLoad : RemoteReq := ⟨1, .load 4 false false none, 8, 64, 0, 8, false, 7, 0, none, [], [], false⟩
def far (rs : List RemoteReq) : State := withStrm .A fun t => { t with remote := rs }

theorem met_Fences : (base .A).cur = .stream 0 .A ∧ (base .A).guardOn G = true ∧ (base .A).collecting = false ∧
    (base .A).releaseReady .package 0 = true ∧ (base .A).me.loads = [] ∧ (base .A).me.remote = [] ∧
    (∀ r ∈ (far [farStore]).me.remote, bringsValue r = false) ∧ (∃ r ∈ (far [farLoad]).me.remote, bringsValue r = true) ∧
    (∀ r ∈ (far [farLoad]).me.remote, r.kind.isAccess = true → (0 : BitVec 5).getLsbD (remotePath r.kind) = false) ∧
    ((withStrm .A fun t => { t with lists := { t.lists with opened := [1] } }).guardOn G = true ∧
      (withStrm .A fun t => { t with lists := { t.lists with opened := [1] } }).collecting = true) ∧
    (withStrm .A fun t => { t with loads := [⟨4, none, 7, false⟩] }).me.loads ≠ [] := by decide +kernel

/-! ## Hypotheses that can be met: vector memory and blocks (O30, O31) -/

/-- The memory state of stream X with two operands, a mask m1 of element 0 alone, and a BF16 one at byte 4096 of tile space. -/
def vmem (x y : Word) : State :=
  ((mem .X false).updCore 0 fun c => { c with
    masks := c.masks.set 1 1, x := { c.x with hart := { c.x.hart with x := (c.x.hart.x.set 1 x).set 2 y } } }).updCluster 0 fun c =>
      { c with store := [(4096, 0x80), (4097, 0x3F)] }

/-- Where the lines of the context's page 0 lie. -/
def pageLine (l : Nat) : Nat := l + 0x4000

/-- Only element 0 is enabled, so that one address is used. -/
theorem only_spot {s : State} {m : MReg} {addr : Nat → Word} {P : Word → Prop} {y0 : Word} (h : s.mask m = 1) (ha : addr 0 = y0)
    (h0 : P y0) :
    ∀ y ∈ spots s m addr, P y := by
  intro y hy
  simp only [spots, enabledOf, List.mem_map, List.mem_filter] at hy
  obtain ⟨e, ⟨-, h1⟩, rfl⟩ := hy
  rw [h] at h1
  have : e = 0 := by simpa using h1
  exact (this ▸ ha : addr e = y0) ▸ h0

/-- Tile-space bytes with no pin and no error can be read, and in no arena written. -/
theorem readable_tile {s : State} {y : Word} {n : Nat} (c : Cls) (pl : Nat → Nat) (ht : inTile s y n)
    (h : (s.storeBad s.curCl (y.extractLsb' 0 56).toNat n == false && s.pins.isEmpty) = true) : readable s c pl y n := by
  simp only [Bool.and_eq_true, beq_iff_eq, List.isEmpty_iff] at h
  exact .inl ⟨ht, h.1, fun i _ => by simp [unpinnedTile, State.pinnedFor, h.2]⟩

theorem writable_tile {s : State} {y : Word} {n : Nat} (c : Cls) (pl : Nat → Nat) (ht : inTile s y n) (h : s.pins.isEmpty = true)
    (ha : (s.cores.toList.all fun c => [c.a, c.x, c.m, c.c].all fun t => t.lists.arena == 0) = true) : writable s c pl y n :=
  .inl ⟨ht, fun i _ => ⟨by simp [unpinnedTile, State.pinnedFor, List.isEmpty_iff.mp h], in_arena_free ha⟩⟩

/-- Bytes of the context's page 0 are served by home memory at the page's place, for reading and writing. -/
theorem served_of {s : State} {va n : Nat} {e : TlbEntry} (h : ((List.range n).all fun i =>
    s.tlbFind s.curCl s.curCtx (va + i) == some e && !e.host && !s.isRetired (e.pa + (va + i - e.va)) && e.r && e.w &&
      placeOf (e.pa + (va + i - e.va)) == .hbm && !s.inPlane (e.pa + (va + i - e.va)) &&
      !s.inSlots (e.pa + (va + i - e.va)) && e.pa + (va + i - e.va) == lineAt pageLine (va + i) &&
      !s.isLost (lineAt pageLine (va + i) / 64) && !s.hbmBad (lineAt pageLine (va + i) / 64)) = true)
    (h0 : (s.l2.isEmpty && s.pins.isEmpty && s.recs.isEmpty) = true) (w : Bool) (c : Cls) :
    ∀ i < n, servedAt s w c pageLine (va + i) := by
  intro i hi
  simp only [List.all_eq_true, List.mem_range, Bool.and_eq_true, Bool.not_eq_true', beq_iff_eq] at h
  obtain ⟨⟨⟨⟨⟨⟨⟨⟨⟨⟨h1, h2⟩, h3⟩, h4⟩, h5⟩, h6⟩, h7⟩, h8⟩, h9⟩, h10⟩, h11⟩ := h i hi
  simp only [Bool.and_eq_true, List.isEmpty_iff] at h0
  obtain ⟨⟨hl, hp⟩, hk⟩ := h0
  refine ⟨h9 ▸ locate_hit h1 ?_, ⟨h9 ▸ h6, ?_, h10, by simp [State.pinnedFor, hp], fun _ => h11, fun _ => by simp [hl], fun l hx => ?_⟩,
    fun _ k _ => by simp [State.raceFind, State.liveRec, hk]⟩
  · cases w <;> simp_all
  · simp [lineAt]
  · simp [State.l2At, hl] at hx

/-- The cached translation of page 0. -/
def page0 : TlbEntry := ⟨0, 0, 65536, 0x100000, true, true, false⟩

/-- Bytes of page 0 of memory can be read, and in no arena and no spill region written. -/
theorem readable_home {s : State} {y : Word} {n : Nat} (w : Bool) (c : Cls) (ht : y.extractLsb' 56 8 = 0#8)
    (hn : (y.extractLsb' 0 56).toNat + n ≤ 2 ^ 56)
    (h : ∀ i < n, servedAt s false c pageLine ((y.extractLsb' 0 56).toNat + i) ∧ servedAt s true c pageLine ((y.extractLsb' 0 56).toNat + i))
    (ha : ((s.cores.toList.all fun c => [c.a, c.x, c.m, c.c].all fun t => t.lists.arena == 0) && (s.ctx s.curCtx).spillBase == 0) = true) :
    if w then writable s c pageLine y n else readable s c pageLine y n := by
  simp only [Bool.and_eq_true, beq_iff_eq] at ha
  cases w
  · exact .inr ⟨ht, hn, fun i hi => (h i hi).1⟩
  · exact .inr ⟨ht, hn, fun i hi => ⟨(h i hi).2, in_arena_free ha.1, by simp [State.inSpill, ha.2]⟩⟩

theorem vmem_wf : ∀ x ∈ [(0x0100000000000000 : Word), 0x0100000000001000, 0], (vmem x 64).Wf := by
  simp only [List.forall_mem_cons]; unfold State.Wf; exact ⟨by decide +kernel, by decide +kernel, by decide +kernel, nofun⟩

theorem vmem_home (w : Bool) (c : Cls) (n : Nat) (h : n ≤ 64) : ∀ i < n, servedAt (vmem 0 64) w c pageLine (0 + i) :=
  fun i hi => served_of (n := 64) (e := page0) (by decide +kernel) (by decide +kernel) w c i (Nat.lt_of_lt_of_le hi h)

/-- VLD and VST of element 0 in tile space and in home memory; the same for a gather, whose offset is 0. -/
theorem met_VectorMemory (c : Cls) : ∀ x ∈ [(0x0100000000000000 : Word), 0], (vmem x 64).cur = .stream 0 .X ∧
    (vmem x 64).collecting = false ∧ (vmem x 64).me.remote = [] ∧ (vmem x 64).me.vecPos = 0 ∧ (vmem x 64).me.vstPos = 0 ∧
    roomForAll (vmem x 64) ∧ (vmem x 64).begins G [1, 2] [] [x, 64] (vmem x 64) ∧ (vmem x 64).begins G [1] [] [x] (vmem x 64) ∧
    elementsReady (vmem x 64) c pageLine 1 (pitchAddr x 64) ∧
    (∀ z ∈ spots (vmem x 64) 1 (pitchAddr x 64), writable (vmem x 64) c pageLine z 4) ∧
    elementsReady (vmem x 64) c pageLine 1 (fun e => past x ((velem ((vmem x 64).vreg 8) e).setWidth 56)) ∧
    (∀ z ∈ spots (vmem x 64) 1 (fun e => past x ((velem ((vmem x 64).vreg 8) e).setWidth 56)),
      writable (vmem x 64) c pageLine z 4 ∧ z.toNat % 4 = 0) := by
  simp only [List.forall_mem_cons]
  have ht : inTile (vmem 0x0100000000000000 64) 0x0100000000000000 4 := by unfold inTile; decide +kernel
  have hr : readable (vmem 0x0100000000000000 64) c pageLine 0x0100000000000000 4 := readable_tile c _ ht (by decide +kernel)
  have hw : writable (vmem 0x0100000000000000 64) c pageLine 0x0100000000000000 4 :=
    writable_tile c _ ht (by decide +kernel) (by decide +kernel)
  have hh (w : Bool) := readable_home (s := vmem 0 64) (y := 0) (n := 4) w c (by decide) (by decide)
    (fun i hi => ⟨vmem_home false c 4 (by decide) i hi, vmem_home true c 4 (by decide) i hi⟩) (by decide +kernel)
  refine ⟨⟨by decide +kernel, by decide +kernel, by decide +kernel, by decide +kernel, by decide +kernel, by unfold roomForAll; decide +kernel,
    begins_plain (by decide +kernel), begins_plain (by decide +kernel), only_spot (by decide +kernel) (by decide +kernel) ⟨hr, by decide⟩,
    only_spot (by decide +kernel) (by decide +kernel) hw, only_spot (by decide +kernel) (by decide +kernel) ⟨hr, by decide⟩,
    only_spot (by decide +kernel) (by decide +kernel) ⟨hw, by decide⟩⟩,
    ⟨by decide +kernel, by decide +kernel, by decide +kernel, by decide +kernel, by decide +kernel, by unfold roomForAll; decide +kernel,
    begins_plain (by decide +kernel), begins_plain (by decide +kernel), only_spot (by decide +kernel) (by decide +kernel) ⟨hh false, by decide⟩,
    only_spot (by decide +kernel) (by decide +kernel) (hh true), only_spot (by decide +kernel) (by decide +kernel) ⟨hh false, by decide⟩,
    only_spot (by decide +kernel) (by decide +kernel) ⟨hh true, by decide⟩⟩, nofun⟩

/-- The operands of each check: tag 2; a misaligned x[a]; a misaligned x[b]. -/
theorem met_VectorMemoryChecks : (vmem 0x0200000000000000 64).begins G [1, 2] [] [0x0200000000000000, 64] (vmem 0x0200000000000000 64) ∧
    (vmem 32 64).begins G [1, 2] [] [32, 64] (vmem 32 64) ∧ (vmem 64 32).begins G [1, 2] [] [64, 32] (vmem 64 32) :=
  ⟨begins_plain (by decide +kernel), begins_plain (by decide +kernel), begins_plain (by decide +kernel)⟩

theorem met_Blocks : ∀ x ∈ [(0x0100000000000000 : Word), 0], (vmem x 64).begins G [1] [] [x] (vmem x 64) ∧
    (List.range 32).filter (fun j => ((vmem x 64).mask 1).getLsbD (32 * j)) = [0] ∧ x.getLsbD 0 = false ∧
    (∀ u v, pageLine u = pageLine v → u = v) ∧ roomForAll (vmem x 64) ∧
    readable (vmem x 64) .plain pageLine (blockAt .c8 x 0) (classBytes .c8) ∧
    writable (vmem x 64) .plain pageLine (blockAt .c8 x 0) (classBytes .c8) ∧
    hdrSelf (vmem x 64).blk .c8 (hdrCheck (BitVec.ofNat 16 (numberOf (byteAt (vmem x 64) pageLine (blockAt .c8 x 0)) 2))) = none := by
  simp only [List.forall_mem_cons]
  have ht : inTile (vmem 0x0100000000000000 64) (blockAt .c8 0x0100000000000000 0) (classBytes .c8) := by unfold inTile; decide +kernel
  have hh (w : Bool) := readable_home (s := vmem 0 64) (y := 0) (n := 34) w .plain (by decide) (by decide)
    (fun i hi => ⟨vmem_home false .plain 34 (by decide) i hi, vmem_home true .plain 34 (by decide) i hi⟩) (by decide +kernel)
  exact ⟨⟨begins_plain (by decide +kernel), by decide +kernel, by decide, fun _ _ h => Nat.add_right_cancel h,
    by unfold roomForAll; decide +kernel, readable_tile _ _ ht (by decide +kernel), writable_tile _ _ ht (by decide +kernel) (by decide +kernel),
    by decide +kernel⟩, ⟨begins_plain (by decide +kernel), by decide +kernel, by decide, fun _ _ h => Nat.add_right_cancel h,
    by unfold roomForAll; decide +kernel, hh false, hh true, by decide +kernel⟩, nofun⟩

/-- The entries that LVLD reads are a BF16 one, from byte 4096, and fifteen zeros. -/
theorem met_BlocksTables : (vmem 0x0100000000001000 64).begins G [1] [] [0x0100000000001000] (vmem 0x0100000000001000 64) ∧
    readable (vmem 0x0100000000001000 64) .plain pageLine 0x0100000000001000 (2 * 2 ^ blkK .c4) ∧ (vmem 0x0100000000001000 64).curCtx < 1024 ∧
    (List.range (2 ^ blkK .c4)).map (fun i => byteAt (vmem 0x0100000000001000 64) pageLine 0x0100000000001000 (2 * i + 1) ++
      byteAt (vmem 0x0100000000001000 64) pageLine 0x0100000000001000 (2 * i)) = 0x3F80 :: List.replicate 15 0 ∧
    (∀ e ∈ (0x3F80 : BitVec 16) :: List.replicate 15 0, e.extractLsb' 0 15 = 0 ∨
      63 ≤ (e.extractLsb' 7 8).toNat ∧ (e.extractLsb' 7 8).toNat < 191) ∧ (0x3F80 : BitVec 16).extractLsb' 0 15 ≠ 0 :=
  ⟨begins_plain (by decide +kernel), readable_tile _ _ (by unfold inTile; decide +kernel) (by decide +kernel), by decide +kernel, by decide +kernel,
    by rw [List.forall_mem_cons]; exact ⟨by decide, fun e h => .inl (List.eq_of_mem_replicate h ▸ rfl)⟩, by decide⟩

theorem met_BlocksQcfg : (vmem 2 64).begins G [1] [] [2] (vmem 2 64) ∧ (vmem 2 64).clear G [1, 4] ∧ (vmem 2 64).port? 4 = none ∧
    (vmem 2 64).locate (vmem 2 64).curCl (vmem 2 64).curCtx 2 false = .ok (.home 0x100002, vmem 2 64) :=
  ⟨begins_plain (by decide +kernel), clear_of (by decide +kernel), by decide +kernel,
    locate_hit (e := page0) (by decide +kernel) (by decide +kernel)⟩

/-! ## Hypotheses that can be met: flags, tiles, banks and copies (O32 to O34) -/

/-- Core 0 with flag 0 armed, fired or cleared by numbers. -/
def flagged (a f c : Nat) : State := (base .A).updCore 0 fun r => { r with flags := r.flags.set 0 ⟨a, f, c, .A⟩ }

/-- A core whose engines' queues are full. -/
def fullCore (c : Machine.Core) : Machine.Core :=
  let q (n : Nat) : List QEntry := List.replicate n ⟨0, .A, .fset 0, false, [], ⟨none, 0⟩⟩
  { c with copyQ := q 32, matQ := q 16, colQ := q 16 }

theorem met_Flags : (flagged 2 2 1).cur = .stream 0 .A ∧ (flagged 2 2 1).guardOn G = true ∧
    (let f := ((flagged 2 2 1).core 0).flags.getD 0 default; f.clr < f.fire ∧ f.clr < f.arm) ∧
    (let f := ((flagged 2 2 2).core 0).flags.getD 0 default; f.arm ≤ f.clr) ∧ FlagTarget.copy ≠ .self ∧
    (∀ tg ∈ [FlagTarget.copy, .matrix, .collective], roomIn ((flagged 2 2 1).core 0) tg ∧ ¬roomIn (fullCore ((flagged 2 2 1).core 0)) tg) ∧
    noReplay (flagged 2 2 1) := by
  refine ⟨by decide +kernel, by decide +kernel, by decide +kernel, by decide +kernel, by decide, ?_, by unfold noReplay; decide +kernel⟩
  simp only [List.forall_mem_cons]
  unfold roomIn
  exact ⟨by decide +kernel, by decide +kernel, by decide +kernel, nofun⟩

/-- One row of 32 columns of 4 bytes in bank 0. -/
def desc0 : Word := 0#6 ++ 0#6 ++ 0#6 ++ 0#6 ++ 0#4 ++ 0#12 ++ 31#12 ++ 0#12

/-- Core 0's cluster with tile 0 defined in a state, and x1 the descriptor. -/
def tiled (x : Option Tile) : State :=
  ((mem .A false).updCluster 0 fun c => { c with tiles := c.tiles.set 0 x }).updStrm 0 .A fun t =>
    { t with hart := { t.hart with x := t.hart.x.set 1 desc0 } }

theorem tiles_none {s : State} {cl : Nat} (h : ((s.cluster cl).tiles.toList.all Option.isNone) = true) {P : Nat → Tile → Prop} :
    ∀ n x, (s.cluster cl).tiles.getD n none = some x → P n x := by
  intro n x hx
  exfalso
  simp only [List.all_eq_true] at h
  by_cases hn : n < 256
  · have := h _ (Array.getElem_mem_toList (xs := (s.cluster cl).tiles.toArray) (i := n) (by simpa using hn))
    simp [Vector.getD, hn] at hx
    simp_all
  · simp [Vector.getD, hn] at hx

theorem met_TileTable :
    ((tiled none).begins G [1] [4] [desc0] (tiled none) ∧ ((tiled none).cluster 0).tiles.getD 0 none = none ∧
      goodTile (tiled none) desc0 ∧ ∃ t, (withTile (tiled none) 0 (some ⟨desc0, 0, some 0, .empty⟩)).writeReg 4
        (1#8 ++ BitVec.ofNat 56 (extentOf desc0).1) = .ok t) ∧
    (∀ x ∈ [TileState.empty, .ready, .draining], (tiled (some ⟨desc0, 0, none, x⟩)).cur = .stream 0 .A ∧
      (tiled (some ⟨desc0, 0, none, x⟩)).guardOn G = true ∧
      ((tiled (some ⟨desc0, 0, none, x⟩)).cluster 0).tiles.getD 0 none = some ⟨desc0, 0, none, x⟩ ∧
      (tiled (some ⟨desc0, 0, none, x⟩)).curCtx = 0 ∧ (tiled (some ⟨desc0, 0, none, x⟩)).me.waiting = none ∧
      ((tiled (some ⟨desc0, 0, none, x⟩)).core 0).copyQ = [] ∧ ((tiled (some ⟨desc0, 0, none, x⟩)).cluster 0).ranges = []) ∧
    (TileState.empty, TsetState.filling, TileState.filling) ∈ tileMoves ∧
    (tiled (some ⟨desc0, 7, none, .empty⟩)).begins G [1] [4] [desc0] (tiled (some ⟨desc0, 7, none, .empty⟩)) ∧
    (tiled (some ⟨desc0, 7, none, .empty⟩)).clear G [4] ∧
    ∃ t, (withTile (tiled (some ⟨desc0, 0, none, .empty⟩)) 0 (some ⟨desc0, 0, none, .filling⟩)).writeReg 4 0 = .ok t := by
  refine ⟨⟨begins_plain (by decide +kernel), by decide +kernel, ?_, writes_plain (by decide +kernel) _⟩, ?_, by decide,
    begins_plain (by decide +kernel), clear_of (by decide +kernel), writes_plain (by decide +kernel) _⟩
  · exact ⟨by decide, by decide, by decide, by decide, by decide, by decide, by decide +kernel, by decide,
      tiles_none (by decide +kernel)⟩
  · simp only [List.forall_mem_cons]; refine ⟨?_, ?_, ?_, nofun⟩ <;> decide +kernel

/-- Core 0's cluster with the first three banks owned and bank 0 in a mode, its ring bound or not. -/
def banked (m : BankMode) (bound : Option Nat) (x : Option Tile) : State :=
  (tiled x).updCluster 0 fun c => { c with
    owners := [(0, ⟨1, 7, 0⟩)], modes := c.modes.set 0 m, rings := c.rings.set 0 ⟨bound, []⟩ }

theorem met_BankModes :
    (∀ s ∈ [banked .tile none none, banked .tile none (some ⟨desc0, 0, none, .empty⟩), banked .fifo (some 0) none,
      banked .fifo none none], s.cur = .stream 0 .A ∧ s.port? 4 = none ∧ s.curCl = 0 ∧
        (s.owner s.curCl s.curCtx).bank.getLsbD 0 = true ∧ (s.owner s.curCl s.curCtx).bank.getLsbD 3 = false ∧
        (s.cluster 0).modes.getD 1 .cache = .cache ∧ (s.cluster 0).ranges = []) ∧
    ((banked .tile none (some ⟨desc0, 0, none, .empty⟩)).cluster 0).tiles.getD 0 none = some ⟨desc0, 0, none, .empty⟩ ∧
    overlap (extentOf desc0) (0, 131072) ∧
    (∀ x ∈ [TileState.empty], ¬∃ n x, ((banked .tile none none).cluster 0).tiles.getD n none = some x ∧
      overlap (extentOf x.desc) (0, 131072)) ∧
    (((banked .fifo (some 0) none).cluster 0).rings.getD 0 ⟨none, []⟩).bound ≠ none ∧
    (((banked .fifo none none).cluster 0).rings.getD 0 ⟨none, []⟩).bound = none ∧
    (∀ s ∈ [banked .tile none none], s.clear G [4] ∧ hasSlot s 4 ∧ ∃ t, s.writeReg 4 1 = .ok t) := by
  refine ⟨?_, by decide +kernel, by unfold overlap; decide +kernel, fun _ _ h => ?_, by decide +kernel, by decide +kernel, ?_⟩
  · simp only [List.forall_mem_cons]; refine ⟨?_, ?_, ?_, ?_, nofun⟩ <;> decide +kernel
  · obtain ⟨n, x, h, -⟩ := h
    exact tiles_none (P := fun _ _ => False) (by decide +kernel) n x h
  · simp only [List.forall_mem_cons]; exact ⟨⟨clear_of (by decide +kernel), slot_of (by decide +kernel), writes_plain (by decide +kernel) _⟩, nofun⟩

/-- Stream A with its operands in x1 and x2. -/
def operands (x y : Word) : State := (mem .A false).updStrm 0 .A fun t => { t with hart := { t.hart with x := (t.hart.x.set 1 x).set 2 y } }

/-- A copy that is pushed, and the operands of each check. -/
theorem met_CopyCommands :
    (operands 0 64).memRuns G [1, 2] [] [0, 64] (pushedTo (operands 0 64) .copy (.copy ⟨0, 0, 64, 0, 0, 0, none, 0⟩))
      (pushedTo (operands 0 64) .copy (.copy ⟨0, 0, 64, 0, 0, 0, none, 0⟩)) ∧
    (operands 0 64).copyCheck 0 0 64 (64 * 2 ^ 0) 0 0 = .ok () ∧ roomIn ((operands 0 64).core 0) .copy ∧ noReplay (operands 0 64) ∧
    ¬roomIn (((operands 0 64).updCore 0 fullCore).core 0) .copy ∧ ((operands 0 64).updCore 0 fullCore).copyCheck 0 0 64 (64 * 2 ^ 0) 0 0 = .ok () ∧
    (∀ p ∈ [((0x0400000000000000 : Word), (64 : Word)), (0, 0x0400000000000000), (32, 64), (64, 32)],
      (operands p.1 p.2).begins G [1, 2] [] [p.1, p.2] (operands p.1 p.2) ∧ (operands p.1 p.2).collecting = false ∧
        (operands p.1 p.2).cur = .stream 0 .A) ∧
    (let s := (operands 0 64).updStrm 0 .A fun t => { t with lists := { t.lists with opened := [1] } }
     s.begins G [1, 2] [] [0, 64] s ∧ s.collecting = true) := by
  refine ⟨⟨clear_of (by decide +kernel), ⟨_, (begins_plain (g := G) (dsts := []) (by decide +kernel)).2⟩, ⟨_, readAll_plain (by decide +kernel)⟩⟩,
    is_of (by decide +kernel), by unfold roomIn; decide +kernel, by unfold noReplay; decide +kernel, by unfold roomIn; decide +kernel,
    is_of (by decide +kernel), ?_, begins_plain (by decide +kernel), by decide +kernel⟩
  simp only [List.forall_mem_cons]
  refine ⟨?_, ?_, ?_, ?_, nofun⟩ <;> exact ⟨begins_plain (by decide +kernel), by decide +kernel⟩

/-! ## Hypotheses that can be met: products and accumulators (O35 to O37) -/

theorem met_ProductTable : (base .M).begins G [1, 2] [] [1, 2] (base .M) ∧ (base .M).begins G [1] [] [1] (base .M) :=
  ⟨begins_plain (by decide +kernel), begins_plain (by decide +kernel)⟩

/-- Stream M of core 0, whose context owns ACM banks 0 and 1, bank 0 allocated, with a product of one element to row 0 in the table, a
fault kept by the array or none, and x1, x2 given. -/
def acc (x y : Word) (f : Option Trap) (t : ProdTable) : State :=
  ((base .M).updCluster 0 fun c => { c with owners := [(0, ⟨1, 0, 3⟩)], acmAlloc := c.acmAlloc.set 0 (some 0) }).updCore 0 fun c =>
    { c with
      table := t, array := { c.array with pendFault := f },
      m := { c.m with hart := { c.m.hart with x := (c.m.hart.x.set 1 x).set 2 y } } }

/-- A product of one element of row 0. -/
def oneProduct : ProdTable := { tableReset with opA := some ⟨0, 0⟩, opB := some ⟨0, 0⟩, tgt := some 0 }

/-- A core with an MGO that is not complete. -/
def busyCore (c : Machine.Core) : Machine.Core := { c with matQ := [⟨0, .M, .mgo oneProduct 0, false, [], ⟨none, 0⟩⟩] }

theorem met_MatrixCommands :
    (acc 0 0 none oneProduct).cur = .stream 0 .M ∧ (acc 0 0 none oneProduct).guardOn G = true ∧
    ((acc 0 0 none oneProduct).core 0).array.pendFault = none ∧
    (acc 0 0 none oneProduct).mgoCheck ((acc 0 0 none oneProduct).core 0).table 0 = .ok () ∧
    roomIn ((acc 0 0 none oneProduct).core 0) .matrix ∧
    ((acc 0 0 none tableReset).core 0).table.opA = none ∧ ((acc 0 0 none tableReset).core 0).table.opB = none ∧
    ((acc 0 0 none tableReset).core 0).table.idx = 0 ∧ openMgos ((acc 0 0 none oneProduct).core 0) ≤ 0 ∧
    ((acc 0 0 (some ⟨0x2B, 0, 0⟩) oneProduct).core 0).array.pendFault = some ⟨0x2B, 0, 0⟩ ∧
    (acc 0 0 none oneProduct).clear G [4] ∧ (∀ v, ∃ t, (acc 0 0 none oneProduct).writeReg 4 v = .ok t) ∧
    noReplay (acc 0 0 none oneProduct) ∧ ¬roomIn (((acc 0 0 none oneProduct).updCore 0 fullCore).core 0) .matrix ∧
    (((acc 0 0 none oneProduct).updCore 0 fullCore).mgoCheck oneProduct 0 = .ok () ∧ ((acc 0 0 none oneProduct).updCore 0 busyCore).guardOn G = true ∧
      0 < openMgos (((acc 0 0 none oneProduct).updCore 0 busyCore).core 0)) ∧
    ∃ t, ((acc 0 0 none oneProduct).updCore 0 fun c => { c with array := { c.array with fault := false, fsub := 0, disc := 0 } }).writeReg 4
      0 = .ok t :=
  ⟨by decide +kernel, by decide +kernel, by decide +kernel, is_of (by decide +kernel), by unfold roomIn; decide +kernel, by decide +kernel,
    by decide +kernel, by decide +kernel, by decide +kernel, by decide +kernel, clear_of (by decide +kernel), writes_plain (by decide +kernel),
    by unfold noReplay; decide +kernel, by unfold roomIn; decide +kernel, ⟨is_of (by decide +kernel), by decide +kernel⟩,
    writes_plain (by decide +kernel) _⟩

/-- No MGO stands in the queues of core 0's cluster. -/
theorem rows_free {s : State} {lo hi : Nat} (h : s.me.waiting = none) (hc : s.curCl = 0)
    (hq : ([0, 1, 2, 3].all fun n => (s.core n).matQ.isEmpty) = true) : rowsFree s lo hi := by
  refine ⟨h, fun n hn q hm => ?_⟩
  rw [hc] at hn
  have hn : n < 4 := by simp only [clusterOf] at hn; omega
  simp only [List.all_eq_true, List.isEmpty_iff, List.forall_mem_cons] at hq
  obtain ⟨h0, h1, h2, h3, -⟩ := hq
  match n, hn with
  | 0, _ => rw [h0] at hm; nomatch hm
  | 1, _ => rw [h1] at hm; nomatch hm
  | 2, _ => rw [h2] at hm; nomatch hm
  | 3, _ => rw [h3] at hm; nomatch hm

theorem met_AccumulatorBanks : (acc 0 0 none oneProduct).Wf ∧ (acc 0 0 none oneProduct).clear G [4] ∧
    (acc 0 0 none oneProduct).port? 4 = none ∧ hasSlot (acc 0 0 none oneProduct) 4 ∧ bankIs (acc 0 0 none oneProduct) 1 false ∧
        ¬bankIs (acc 0 0 none oneProduct) 0 false ∧
    (∀ b, b + 63 + 1 ≤ 64 → ∃ i ≤ 63, ¬bankIs (acc 0 0 none oneProduct) (b + i) false) ∧
    (acc 0 0 none oneProduct).begins G [1] [] [0] (acc 0 0 none oneProduct) ∧
    (acc 64 0 none oneProduct).begins G [1] [] [64] (acc 64 0 none oneProduct) ∧
    (acc 2 0 none oneProduct).begins G [1] [] [2] (acc 2 0 none oneProduct) ∧
    ((acc 2 0 none oneProduct).owner (acc 2 0 none oneProduct).curCl (acc 2 0 none oneProduct).curCtx).acm.getLsbD 2 = false ∧
    (∀ i ≤ 0, ((acc 0 0 none oneProduct).owner (acc 0 0 none oneProduct).curCl (acc 0 0 none oneProduct).curCtx).acm.getLsbD (0 + i) = true) ∧
    rowsFree (acc 0 0 none oneProduct) 0 31 :=
  ⟨by unfold State.Wf; decide +kernel, clear_of (by decide +kernel), by decide +kernel, slot_of (by decide +kernel), by unfold bankIs; decide +kernel,
    by unfold bankIs; decide +kernel, fun b hb => ⟨0, by decide, by obtain rfl : b = 0 := by omega
                                                                    unfold bankIs; decide +kernel⟩,
    begins_plain (by decide +kernel), begins_plain (by decide +kernel), begins_plain (by decide +kernel), by decide +kernel,
    by decide +kernel, rows_free (by decide +kernel) (by decide +kernel) (by decide +kernel)⟩

/-- Rows 0 to 15 of an allocated bank; the window's last row past 2 047; a bank not owned; and one that is free. -/
theorem met_AccumulatorRows : (acc 0 0 none oneProduct).begins G [1, 2] [] [0, 0] (acc 0 0 none oneProduct) ∧
    (acc 0 0 none oneProduct).begins G [1] [] [0] (acc 0 0 none oneProduct) ∧ (acc 0 0 none oneProduct).port? 1 = none ∧
    (∀ r, 0 ≤ r → r ≤ 0 + 15 → bankIs (acc 0 0 none oneProduct) (r / 32) true) ∧ rowsFree (acc 0 0 none oneProduct) 0 (0 + 15) ∧
    (acc 0x10000 0 none oneProduct).begins G [1] [] [0x10000] (acc 0x10000 0 none oneProduct) ∧
    (acc 2033 0 none oneProduct).begins G [1] [] [2033] (acc 2033 0 none oneProduct) ∧
    (acc 64 0 none oneProduct).begins G [1] [] [64] (acc 64 0 none oneProduct) ∧
    ((acc 64 0 none oneProduct).owner (acc 64 0 none oneProduct).curCl (acc 64 0 none oneProduct).curCtx).acm.getLsbD (64 / 32) = false ∧
    (acc 32 0 none oneProduct).begins G [1] [] [32] (acc 32 0 none oneProduct) ∧ bankIs (acc 32 0 none oneProduct) (32 / 32) false := by
  refine ⟨begins_plain (by decide +kernel), begins_plain (by decide +kernel), by decide +kernel, fun r _ hr => ?_,
    rows_free (by decide +kernel) (by decide +kernel) (by decide +kernel), begins_plain (by decide +kernel),
    begins_plain (by decide +kernel), begins_plain (by decide +kernel), by decide +kernel, begins_plain (by decide +kernel),
    by unfold bankIs; decide +kernel⟩
  have : r / 32 = 0 := by omega
  rw [this]; unfold bankIs; decide +kernel

/-! ## Hypotheses that can be met: effect lists (O38) -/

theorem ok_such {ε α : Type} {e : Except ε α} {p : α → Prop} [DecidablePred p]
    (h : (match e with | .ok a => decide (p a) | .error _ => false) = true) : ∃ a, e = .ok a ∧ p a := by
  cases e with
  | ok a => exact ⟨a, rfl, of_decide_eq_true h⟩
  | error _ => exact absurd h Bool.false_ne_true

/-- Whether a register is a port depends on the stream alone. -/
theorem port_cur {s t : State} (h : t.cur = s.cur) (r : XReg) : t.port? r = s.port? r := by simp [State.port?, h]

/-- A word that reads plain registers has its sources read again in what it left. -/
theorem runs_of {s t : State} {g : Guard} {srcs dsts : List XReg} {vs : List Word} (h : s.begins g srcs dsts vs s)
    (hp : (srcs.all fun r => (s.port? r).isNone) = true) (hc : t.cur = s.cur) : s.memRuns g srcs dsts vs t t := by
  simp only [List.all_eq_true, Option.isNone_iff_eq_none] at hp
  exact ⟨h.1, ⟨_, h.2⟩, ⟨_, readAll_plain fun r hr => (port_cur hc r).trans (hp r hr)⟩⟩

/-- A register that is no port can be written in what the word left. -/
theorem writes_cur {s t : State} {r : XReg} (hp : (s.port? r).isNone = true) (hc : t.cur = s.cur) (v : Word) :
    ∃ u, t.writeReg r v = .ok u ∧ u.cur = s.cur :=
  ⟨_, writeReg_plain ((port_cur hc r).trans (Option.isNone_iff_eq_none.mp hp)) v, by simpa using hc⟩

/-- Stream A with an arena of a page of tile space that holds one entry of list 0, of one enabled byte, and with x1 to x3 given. -/
def listed (x y z : Word) (f : Lists → Lists) : State :=
  ((mem .A false).updStrm 0 .A fun t => { t with
    hart := { t.hart with x := ((t.hart.x.set 1 x).set 2 y).set 3 z },
    lists := f ⟨0x0100000000000001, [], t.lists.slots.set 0 ⟨1, .closed⟩, 80⟩ }).updCluster 0 fun c =>
      { c with store := [(0, 0x40), (8, 1)] }

/-- The entry. -/
def e0 : AEntry := ⟨0, 0x40, 0, 1, 0⟩

theorem listed_all {x y z : Word} {f : Lists → Lists} (h : ∀ j < 10 * ((listed x y z f).me.lists.used / 80),
    (listed x y z f).arenaTile (8 * j) = true)
    (he : ((List.range ((listed x y z f).me.lists.used / 80)).map fun m =>
      entryOf m ((List.range 10).map fun j => (listed x y z f).arenaTileWord (80 * m + 8 * j))) = [e0]) :
    (listed x y z f).arenaAll = .ok ([e0], listed x y z f) := he ▸ arenaAll_tile h

/-- The handle of list 0 names it and is its one entry. -/
theorem listed_is {x y z : Word} {f : Lists → Lists} (h : names (listed x y z f).me.lists 0x100 0) :
    listIs (listed x y z f) [e0] 0x100 [e0] := .inr ⟨by decide, 0, h, by decide +kernel⟩

theorem met_ListQueries :
    (∀ x ∈ [(1 : Word), 0, 0x10000, 0x100], (listed x 0 0 id).begins G [1] [4] [x] (listed x 0 0 id) ∧
      ∃ s1, (listed x 0 0 id).writeReg 4 0 = .ok s1 ∧ (listed x 0 0 id).memRuns G [1] [4] [x] s1 s1) ∧
    ((listed 1 0 0 id).me.lists.arena.extractLsb' 0 16).toNat = 1 ∧
    (listed 0x100 0 0 id).arenaAll = .ok ([e0], listed 0x100 0 0 id) ∧ listIs (listed 0x100 0 0 id) [e0] 0x100 [e0] ∧
    listIs (listed 0x100 0 0 id) [e0] 0 [] ∧ (∀ n, ¬names (listed 1 0 0 id).me.lists 1 n) ∧ (listed 1 0 0 id).clear G [1] ∧
    (listed 1 0 0 id).clear G [4] ∧ (listed 1 0 0 id).me.lists.used < 2 ^ 48 ∧ (listed 1 0 0 id).me.lists.opened.length < 256 := by
  refine ⟨?_, by decide +kernel, listed_all (by decide +kernel) (by decide +kernel),
    listed_is (by unfold names; decide +kernel), .inl ⟨rfl, rfl⟩, fun n h => ?_, clear_of (by decide +kernel), clear_of (by decide +kernel),
    by decide +kernel⟩
  · have h (x : Word) (hb : (listed x 0 0 id).begins G [1] [4] [x] (listed x 0 0 id)) (hp : ((listed x 0 0 id).port? 4).isNone = true)
        (hq : ([1].all fun r => ((listed x 0 0 id).port? r).isNone) = true) :
        (listed x 0 0 id).begins G [1] [4] [x] (listed x 0 0 id) ∧
          ∃ s1, (listed x 0 0 id).writeReg 4 0 = .ok s1 ∧ (listed x 0 0 id).memRuns G [1] [4] [x] s1 s1 := by
      obtain ⟨s1, h1, hc⟩ := writes_cur hp rfl 0
      exact ⟨hb, s1, h1, runs_of hb hq hc⟩
    simp only [List.forall_mem_cons]
    refine ⟨h _ (begins_plain ?_) ?_ ?_, h _ (begins_plain ?_) ?_ ?_, h _ (begins_plain ?_) ?_ ?_, h _ (begins_plain ?_) ?_ ?_, nofun⟩ <;>
      decide +kernel
  · obtain ⟨-, -, rfl, h, -⟩ := h
    revert h; decide +kernel

/-- What an operation on the arena answers, with the stream and its lists as they were. -/
theorem ok_lists {s : State} {e : Except Act State}
    (h : (match e with | .ok a => decide (a.cur = s.cur ∧ a.me.lists = s.me.lists) | .error _ => false) = true) :
    ∃ a, e = .ok a ∧ a.cur = s.cur ∧ a.me.lists = s.me.lists := by
  cases e with
  | ok a => exact ⟨a, rfl, of_decide_eq_true h⟩
  | error _ => exact absurd h Bool.false_ne_true

/-- The slots after an append keep the stream. -/
theorem lists_cur (s : State) (f : Lists → Lists) : (withLists s f).cur = s.cur := by
  rfl

/-- The list with handle 0x100 and x2, x3 given. -/
def one (y z : Word) : State := listed 0x100 y z id

theorem one_all (y z : Word) (h : (y, z) ∈ [((0x100 : Word), (0 : Word)), (0, 64), (1, 64), (0, 0)]) :
    (one y z).arenaAll = .ok ([e0], one y z) := by
  revert y z; simp only [List.mem_cons, Prod.mk.injEq, List.not_mem_nil, or_false]
  rintro y z (⟨rfl, rfl⟩ | ⟨rfl, rfl⟩ | ⟨rfl, rfl⟩ | ⟨rfl, rfl⟩) <;> exact listed_all (by decide +kernel) (by decide +kernel)

/-- ECAT of the list with itself, of two empty lists, and without a free slot. -/
theorem met_ListJoin : let s := one 0x100 0
    listIs s [e0] 0x100 [e0] ∧ s.me.lists.freeSlot = some 1 ∧
    (∃ v s1 s2, s.arenaAppend 1 (([e0] ++ [e0]).map fun e => (e.line, e.be, e.data)) = .ok v ∧
      (withLists v fun l => { l with slots := l.slots.setIfInBounds 1 ⟨(v.me.lists.slots.getD 1 ⟨1, .free⟩).gen, .closed⟩ }).writeReg 4
        (0#48 ++ (v.me.lists.slots.getD 1 ⟨1, .free⟩).gen ++ BitVec.ofNat 8 1) = .ok s1 ∧ s.memRuns G [1, 2] [4] [0x100, 0x100] s1 s2) ∧
    (∃ s1 s2, (listed 0 0 0 id).writeReg 4 0 = .ok s1 ∧ (listed 0 0 0 id).memRuns G [1, 2] [4] [0, 0] s1 s2 ∧
      listIs (listed 0 0 0 id) [e0] 0 []) ∧
    (let s := listed 0x100 0x100 0 fun l => { l with slots := Vector.replicate 64 ⟨1, .closed⟩ }
     s.begins G [1, 2] [4] [0x100, 0x100] s ∧ s.me.lists.freeSlot = none) := by
  refine ⟨listed_is (by unfold names; decide +kernel), by decide +kernel, ?_, ?_, begins_plain (by decide +kernel), by decide +kernel⟩
  · obtain ⟨v, hv, hc⟩ := ok_such (p := fun a => a.cur = (one 0x100 0).cur)
      (e := (one 0x100 0).arenaAppend 1 (([e0] ++ [e0]).map fun e => (e.line, e.be, e.data))) (by decide +kernel)
    obtain ⟨s1, h1, h1c⟩ := writes_cur (s := one 0x100 0) (r := 4) (by decide +kernel) ((lists_cur v _).trans hc) _
    exact ⟨v, s1, s1, hv, h1, runs_of (begins_plain (by decide +kernel)) (by decide +kernel) h1c⟩
  · obtain ⟨s1, h1, h1c⟩ := writes_cur (s := listed 0 0 0 id) (r := 4) (by decide +kernel) rfl 0
    exact ⟨s1, s1, h1, runs_of (begins_plain (by decide +kernel)) (by decide +kernel) h1c, .inl ⟨rfl, rfl⟩⟩

/-- EFLT outside an empty range, which leaves all, and EDRP, which leaves none. -/
theorem met_ListTransforms : let s := one 0 64
    s.arenaAll = .ok ([e0], s) ∧ names s.me.lists 0x100 0 ∧
    (∀ e : AEntry, ∀ j < 64, e.be.getLsbD j = (e.be.getLsbD j && (decide ((0 : Word).toNat ≤ e.line.toNat + j ∧
      e.line.toNat + j < (0 : Word).toNat) != true))) ∧
    (∃ v s1 s2, s.putBes AEntry.be ([e0].filter fun e => e.own == 0 && e.be != 0) = .ok v ∧ usedIs v.me.lists [e0] 80 ∧
      (withLists v fun l => { l with used := 80 }).writeReg 4 (countWord [e0]) = .ok s1 ∧ s.memRuns G [1, 2, 3] [4] [0x100, 0, 64] s1 s2) ∧
    (∃ v s2, s.putBes (fun _ => 0) ([e0].filter fun e => e.own == 0 && e.be != 0) = .ok v ∧
      usedIs { v.me.lists with slots := v.me.lists.slots.setIfInBounds 0 ⟨2, .free⟩ } [{ e0 with be := 0 }] 0 ∧
      s.memRuns G [1] [] [0x100] (withLists v fun l => { l with slots := l.slots.setIfInBounds 0 ⟨2, .free⟩, used := 0 }) s2) := by
  refine ⟨one_all _ _ (by decide), by unfold names; decide +kernel, fun e j _ => by simp, ?_, ?_⟩
  · obtain ⟨v, hv, hc, hl⟩ := ok_lists (s := one 0 64)
      (e := (one 0 64).putBes AEntry.be ([e0].filter fun e => e.own == 0 && e.be != 0)) (by decide +kernel)
    obtain ⟨s1, h1, h1c⟩ := writes_cur (s := one 0 64) (r := 4) (by decide +kernel) ((lists_cur v _).trans hc) (countWord [e0])
    exact ⟨v, s1, s1, hv, by rw [hl]; unfold usedIs; decide +kernel, h1, runs_of (begins_plain (by decide +kernel)) (by decide +kernel) h1c⟩
  · obtain ⟨v, hv, hc, hl⟩ := ok_lists (s := one 0 64)
      (e := (one 0 64).putBes (fun _ => 0) ([e0].filter fun e => e.own == 0 && e.be != 0)) (by decide +kernel)
    exact ⟨v, _, hv, by rw [hl]; unfold usedIs; decide +kernel,
      runs_of (begins_plain (by decide +kernel)) (by decide +kernel) ((lists_cur v _).trans hc)⟩

/-- EREB by 0 bytes over lines 0 to 63, where the list's entry lies; and by a delta that is no multiple of 64. -/
theorem met_ListRebase : (∃ v s1 s2, (one 0 64).arenaReady (([e0].filter fun e => e.own == 0 && e.be != 0).map fun e => 80 * e.idx) = .ok v ∧
      v.moveLines 0 64 0 ([e0].filter fun e => e.own == 0 && e.be != 0) = .ok s1 ∧
      (one 0 64).memRuns G [1, 2, 3, 0] [] [0x100, 0, 64, 0] s1 s2) ∧
    (one 1 64).begins G [1, 2, 3, 2] [] [0x100, 1, 64, 1] (one 1 64) ∧ names (one 1 64).me.lists 0x100 0 := by
  refine ⟨?_, begins_plain (by decide +kernel), by unfold names; decide +kernel⟩
  have h : ∃ w, ((one 0 64).arenaReady (([e0].filter fun e => e.own == 0 && e.be != 0).map fun e => 80 * e.idx) >>= fun v =>
      v.moveLines 0 64 0 ([e0].filter fun e => e.own == 0 && e.be != 0)) = .ok w ∧ w.cur = (one 0 64).cur := ok_such (by decide +kernel)
  obtain ⟨s1, h1, hc⟩ := h
  cases hv : (one 0 64).arenaReady (([e0].filter fun e => e.own == 0 && e.be != 0).map fun e => 80 * e.idx) with
  | error _ => rw [hv] at h1; nomatch h1
  | ok v => rw [hv] at h1; exact ⟨v, s1, s1, rfl, h1, runs_of (begins_plain (by decide +kernel)) (by decide +kernel) hc⟩

theorem met_EmptyList : (listed 0 0 64 id).begins G [1, 2, 3, 0] [] [0, 0, 64, 0] (listed 0 0 64 id) ∧
    (∃ s1 s2, (listed 0 0 64 id).writeReg 4 0 = .ok s1 ∧ (listed 0 0 64 id).memRuns G [1, 2, 3] [4] [0, 0, 64] s1 s2) ∧
    (∃ s2, (listed 0 0 64 id).memRuns G [1, 2, 3, 0] [] [0, 0, 64, 0] (listed 0 0 64 id) s2) ∧
    (∃ s2, (listed 0 0 64 id).memRuns G [1] [] [0] (listed 0 0 64 id) s2) := by
  obtain ⟨s1, h1, h1c⟩ := writes_cur (s := listed 0 0 64 id) (r := 4) (by decide +kernel) rfl 0
  exact ⟨begins_plain (by decide +kernel), ⟨s1, s1, h1, runs_of (begins_plain (by decide +kernel)) (by decide +kernel) h1c⟩,
    ⟨_, runs_of (begins_plain (by decide +kernel)) (by decide +kernel) rfl⟩, ⟨_, runs_of (begins_plain (by decide +kernel)) (by decide +kernel) rfl⟩⟩

/-- The same while list 1 is open. -/
def collects : State := listed 0x100 0 0 fun l => { l with opened := [1], slots := l.slots.set 1 ⟨1, .opened⟩ }

theorem met_ListApply : let s := one 0 0
    s.arenaAll = .ok ([e0], s) ∧ listIs s [e0] 0x100 [e0] ∧ s.collecting = false ∧ s.releaseReady .package 0 = true ∧
    (∃ s1 s2, s.applyList [e0] = .ok s1 ∧ s.memRuns G [1] [] [0x100] s1 s2) ∧
    (∃ v s2, s.applyList [e0] = .ok v ∧ s.memRuns G [1] [] [0x100] (v.fenceRelease .package 0) s2) ∧
    (listIs (listed 0 0 0 id) [e0] 0 [] ∧ (listed 0 0 0 id).me.remote = [] ∧
      ∃ s2, (listed 0 0 0 id).memRuns G [1] [] [0] (listed 0 0 0 id) s2) ∧
    (let s := collects
     s.begins G [1] [] [0x100] s ∧ s.collecting = true ∧ s.arenaAll = .ok ([e0], s) ∧ listIs s [e0] 0x100 [e0] ∧
       ∃ s1 s2, s.arenaAppend (s.me.lists.opened.headD 0) ([e0].map fun e => (e.line, e.be, e.data)) = .ok s1 ∧
         s.memRuns G [1] [] [0x100] s1 s2) := by
  refine ⟨one_all _ _ (by decide), listed_is (by unfold names; decide +kernel), by decide +kernel, by decide +kernel, ?_, ?_,
    ⟨.inl ⟨rfl, rfl⟩, by decide +kernel, _, runs_of (begins_plain (by decide +kernel)) (by decide +kernel) rfl⟩,
    begins_plain (by decide +kernel),
        by decide +kernel, listed_all (by decide +kernel) (by decide +kernel), listed_is (by unfold names; decide +kernel), ?_⟩
  · obtain ⟨v, hv, hc⟩ := ok_such (p := fun a => a.cur = (one 0 0).cur) (e := (one 0 0).applyList [e0]) (by decide +kernel)
    exact ⟨v, _, hv, runs_of (begins_plain (by decide +kernel)) (by decide +kernel) hc⟩
  · obtain ⟨v, hv, hc⟩ := ok_such (p := fun a => (a.fenceRelease .package 0).cur = (one 0 0).cur) (e := (one 0 0).applyList [e0]) (by decide +kernel)
    exact ⟨v, _, hv, runs_of (begins_plain (by decide +kernel)) (by decide +kernel) hc⟩
  · obtain ⟨v, hv, hc⟩ := ok_such (p := fun a => a.cur = collects.cur)
      (e := collects.arenaAppend (collects.me.lists.opened.headD 0) ([e0].map fun e => (e.line, e.be, e.data))) (by decide +kernel)
    exact ⟨v, _, hv, runs_of (begins_plain (by decide +kernel)) (by decide +kernel) hc⟩

/-! ## Hypotheses that can be met: barriers, plans, groups, collectives, launches (O39 to O41) -/

/-- Stream A of a kernel whose tier 1 is declared, of one core a group, with x1 to x3 given. -/
def tiered (x y z : Word) (bs : List ((Nat × Nat × Nat) × Barrier)) : State :=
  (listed x y z fun _ => listsReset).updKernel 0 fun k => { k with tiers := k.tiers.set 1 (2 ^ 63 + 2 ^ 60 + 1), barriers := bs }

/-- The kernel. -/
def tieredK (bs : List ((Nat × Nat × Nat) × Barrier)) : Kernel :=
  { kern with tiers := kern.tiers.set 1 (2 ^ 63 + 2 ^ 60 + 1), barriers := bs }

/-- BARA, BARAW alone and with stream X, BARW with another and with the current generation, an undeclared tier, barrier 15 and 16. -/
theorem met_Barriers :
    (tiered 1 0 0 []).cur = .stream 0 .A ∧ (tiered 1 0 0 []).guardOn G = true ∧ (tiered 1 0 0 []).collecting = false ∧
    (tiered 1 0 0 []).clear G [4] ∧ (tiered 1 0 0 []).port? 4 = none ∧ barrierOf (tiered 1 0 0 []) 1 15 (tieredK []) ∧
    mayArrive (tiered 1 0 0 []) 1 1 15 (tieredK []) ∧ mayArrive (tiered 1 0 0 []) 1 3 15 (tieredK []) ∧
    ((tieredK []).barrier ((tiered 1 0 0 []).barKey (tieredK []) 1 15)).count + 1 = expected (tiered 1 0 0 []) 1 1 (tieredK []) ∧
    ((tieredK []).barrier ((tiered 1 0 0 []).barKey (tieredK []) 1 15)).count + 1 ≠ expected (tiered 1 0 0 []) 1 3 (tieredK []) ∧
    (tiered 1 0 0 []).begins G [1] [] [1] (tiered 1 0 0 []) ∧ (tiered 0 0 0 []).begins G [1] [] [0] (tiered 0 0 0 []) ∧
    ((tieredK []).barrier ((tiered 1 0 0 []).barKey (tieredK []) 1 15)).gen ≠ ((1 : Word).extractLsb' 0 16).toNat ∧
    ((tieredK []).barrier ((tiered 0 0 0 []).barKey (tieredK []) 1 15)).gen = ((0 : Word).extractLsb' 0 16).toNat ∧
    (∀ k, ¬barrierOf (tiered 1 0 0 []) 0 0 k) ∧ (tiered 1 0 0 []).me.barTok = none ∧
    (2 : BitVec 4).getLsbD (stIndex (tiered 1 0 0 []).curSt) = false := by
  refine ⟨by decide +kernel, by decide +kernel, by decide +kernel, clear_of (by decide +kernel), by decide +kernel,
    by unfold barrierOf; decide +kernel, by unfold mayArrive; decide +kernel, by unfold mayArrive; decide +kernel, by decide +kernel,
    by decide +kernel, begins_plain (by decide +kernel), begins_plain (by decide +kernel), by decide +kernel, by decide +kernel,
    fun k h => ?_, by decide +kernel⟩
  obtain ⟨h1, h2, -⟩ := h
  have h0 : (tiered 1 0 0 []).kernelOf (tiered 1 0 0 []).curCore = some (tieredK []) := by decide +kernel
  rw [h0] at h1
  rw [← Option.some.inj h1] at h2
  revert h2; decide +kernel

/-- A barrier in which stream A of core 0 has arrived and another stream has not; BARAW goes on when its arrival's generation is over. -/
def half : Barrier := ⟨0, 1, 2, 3, [(0, .A)], []⟩

theorem met_BarriersAgain : let s := tiered 1 0 0 [((1, 0, 15), half)]
    barrierOf s 1 15 (tieredK [((1, 0, 15), half)]) ∧ (3 : BitVec 4).getLsbD (stIndex s.curSt) = true ∧
    ((tieredK [((1, 0, 15), half)]).barrier (s.barKey (tieredK [((1, 0, 15), half)]) 1 15)).mask = 3 ∧
    (s.curCore, s.curSt) ∈ ((tieredK [((1, 0, 15), half)]).barrier (s.barKey (tieredK [((1, 0, 15), half)]) 1 15)).arrived ∧
    s.clear G [4] ∧ s.me.barTok = none ∧ hasSlot s 4 ∧
    (let s := (tiered 1 0 0 []).updStrm 0 .A fun t => { t with barTok := some (1, 15, 7) }
     s.me.barTok = some (1, 15, 7) ∧ barrierOf s 1 15 (tieredK []) ∧ ((tieredK []).barrier (s.barKey (tieredK []) 1 15)).gen ≠ 7) := by
  unfold barrierOf
  exact ⟨by decide +kernel, by decide +kernel, by decide +kernel, by decide +kernel, clear_of (by decide +kernel), by decide +kernel,
    slot_of (by decide +kernel), by decide +kernel⟩

/-- A header in tile space whose count of entries is read without an effect. -/
theorem planCount_tile {s : State} {y : Word} (h1 : spaceTag y = 1) (h2 : s.tileOwned s.curCl s.curCtx (addr56 y) 32 = true)
    (h3 : s.storeBad s.curCl (addr56 y) 32 = false) (h4 : s.pins.isEmpty = true) :
    s.planCount y = .ok (min 4095 (planField (s.tileBytes s.curCl (addr56 y) 32) 0 2), s) := by
  have h5 (n : Nat) : s.unpinned n = .ok () := by simp [State.unpinned, State.pinnedFor, List.isEmpty_iff.mp h4]
  simp [State.planCount, State.eltsPlace, State.eltPlace, h1, h2, h3, h5, State.cleanElt, State.eltRaw, bind, Except.bind]

/-- SSYNC with an answer and without one; XPLAN of the image of no entry at 4 KiB of tile space. -/
theorem met_Supersteps :
    (let s := (base .A).updStrm 0 .A fun t => { t with ssOut := some 7 }
     s.cur = .stream 0 .A ∧ s.clear G [4] ∧ hasSlot s 4 ∧ s.collecting = false ∧ s.me.ssOut = some 7) ∧
    (let s := listed 64 128 1 fun l => { l with opened := [1] }
     s.collecting = true ∧ s.clear G [4] ∧ s.begins G [1] [] [64] s) ∧
    (base .A).clear G [4] ∧ (base .A).me.ssOut = none ∧
    (tiered 0x0100000000001000 0 0 []).begins G [1] [] [0x0100000000001000] (tiered 0x0100000000001000 0 0 []) ∧
    (tiered 0x0100000000001000 0 0 []).eltOperand ⟨0x0100000000001000, 32⟩ = .ok () ∧
    (tiered 0x0100000000001000 0 0 []).planCount 0x0100000000001000 = .ok (0, tiered 0x0100000000001000 0 0 []) ∧
    (tiered 0x0100000000001000 0 0 []).eltsOperand (planElts 0x0100000000001000 0) = .ok () ∧
    (∃ r, (tiered 0x0100000000001000 0 0 []).readElts false (planElts 0x0100000000001000 0)
      (planChk (tiered 0x0100000000001000 0 0 []) (tiered 0x0100000000001000 0 0 []).curPart 0x0100000000001000) = .ok r ∧
      ∃ s2, (tiered 0x0100000000001000 0 0 []).memRuns G [1] [] [0x0100000000001000]
        (r.2.updKernel 0 fun x => { x with plan := planOf r.1.flatten 0 }) s2) ∧
    (tiered 0x0100000000001000 0 0 []).kernelOf (tiered 0x0100000000001000 0 0 []).curCore = some (tieredK []) :=
  ⟨⟨by decide +kernel, clear_of (by decide +kernel), slot_of (by decide +kernel), by decide +kernel⟩,
    ⟨by decide +kernel, clear_of (by decide +kernel), begins_plain (by decide +kernel)⟩, clear_of (by decide +kernel),
    by decide +kernel, begins_plain (by decide +kernel), is_of (by decide +kernel),
    (planCount_tile (by decide) (by decide +kernel) (by decide +kernel) (by decide +kernel)).trans
      (congrArg (fun n => Except.ok (n, tiered 0x0100000000001000 0 0 [])) (by decide +kernel)),
    is_of (by decide +kernel), (ok_such (p := fun r => r.2.cur = (tiered 0x0100000000001000 0 0 []).cur) (by decide +kernel)).imp
      fun _ h => ⟨h.1, _, runs_of (begins_plain (by decide +kernel)) (by decide +kernel) h.2⟩, by decide +kernel⟩

theorem met_GroupQueries : (tiered 5 0 0 []).kernelOf (tiered 5 0 0 []).curCore = some (tieredK []) ∧
    ((tieredK []).tiers.getD 1 0).getLsbD 63 = true ∧ ((tieredK []).tiers.getD 0 0).getLsbD 63 = false ∧
    (tiered 5 0 0 []).clear G [4] ∧ (∀ v, ∃ t, (tiered 5 0 0 []).writeReg 4 v = .ok t) ∧
    (tiered 5 0 0 []).begins G [1] [4] [5] (tiered 5 0 0 []) :=
  ⟨by decide +kernel, by decide +kernel, by decide +kernel, clear_of (by decide +kernel), writes_plain (by decide +kernel),
    begins_plain (by decide +kernel)⟩

theorem met_Collectives : (tiered 64 128 1 []).begins G [1, 2, 3] [] [64, 128, 1] (tiered 64 128 1 []) ∧
    (tiered 64 128 1 []).port? 1 = none ∧ (tiered 64 128 1 []).collCheck .ar .f32 64 128 1 1 = .ok () ∧
    roomIn ((tiered 64 128 1 []).core 0) .collective ∧ (tiered 64 128 1 []).markRoom 0 .A = true ∧ noReplay (tiered 64 128 1 []) ∧
    (¬roomIn (((tiered 64 128 1 []).updCore 0 fullCore).core 0) .collective ∧
      ((tiered 64 128 1 []).updCore 0 fullCore).collCheck .ar .f32 64 128 1 1 = .ok () ∧
      ((tiered 64 128 1 []).updCore 0 fullCore).begins G [1, 2, 3] [] [64, 128, 1] ((tiered 64 128 1 []).updCore 0 fullCore) ∧
      ((tiered 64 128 1 []).updCore 0 fullCore).guardOn G = true ∧ ((tiered 64 128 1 []).updCore 0 fullCore).collecting = false) ∧
    (tiered 64 128 1 []).guardOn G = true ∧ (tiered 64 128 1 []).collecting = false ∧
    (let s := listed 64 128 1 fun l => { l with opened := [1] }
     s.begins G [1, 2, 3] [] [64, 128, 1] s ∧ s.collecting = true ∧ s.guardOn G = true) :=
  ⟨begins_plain (by decide +kernel), by decide +kernel, is_of (by decide +kernel), by unfold roomIn; decide +kernel, by decide +kernel,
    by unfold noReplay; decide +kernel, ⟨by unfold roomIn; decide +kernel, is_of (by decide +kernel), begins_plain (by decide +kernel),
      by decide +kernel⟩,
    by decide +kernel, by decide +kernel, begins_plain (by decide +kernel), by decide +kernel⟩

/-- Queue 5 of partition 0. -/
def queue5 (ctx : Nat) (fed : Bool) (intake : List Word) : SubQueue :=
  ⟨0, 5, ctx, false, fed, 0x200000, [], intake, 1, 0, false, 0, 0, none⟩

/-- Stream A of a package with a queue. -/
def launching (x : Word) (q : SubQueue) : State := { listed x 0 0 (fun _ => listsReset) with queues := [q] }

theorem met_Launches :
    (∀ p ∈ [((5 : Word), queue5 0 true []), (5, queue5 0 true (List.replicate 256 0)), (1024, queue5 0 true []), (6, queue5 0 true []),
      (5, queue5 0 false []), (5, queue5 7 true [])], (launching p.1 p.2).begins G [1, 2] [4] [p.1, 0] (launching p.1 p.2)) ∧
    (launching 5 (queue5 0 true [])).port? 1 = none ∧ (launching 5 (queue5 0 true [])).collecting = false ∧
    (launching 5 (queue5 0 true [])).queue? (launching 5 (queue5 0 true [])).curPart 5 = some (queue5 0 true []) ∧
    (launching 5 (queue5 0 true [])).queue? (launching 5 (queue5 0 true [])).curPart 6 = none ∧ (queue5 0 true []).ctx = 0 ∧
    (launching 5 (queue5 0 true [])).eltsOperand (packetElts 0) = .ok () ∧
    (∃ r, (launching 5 (queue5 0 true [])).readElts false (packetElts 0) (fun _ s => (s, none)) = .ok r ∧
      ∃ s3, (r.2.releaseNow .package 0).2.putPhys (some 0) 0x200100 r.1.flatten = .ok s3 ∧
        ∃ s4 s5, (s3.offered (queue5 0 true []) { queue5 0 true [] with intake := [1], next := 2 }).writeReg 4 1 = .ok s4 ∧
          (launching 5 (queue5 0 true [])).memRuns G [1, 2] [4] [5, 0] s4 s5) ∧
    (let s := launching 5 (queue5 0 true (List.replicate 256 0))
     s.eltsOperand (packetElts 0) = .ok () ∧ ∃ r s4 s5, s.readElts false (packetElts 0) (fun _ s => (s, none)) = .ok r ∧
       (r.2.releaseNow .package 0).2.writeReg 4 (BitVec.allOnes 64) = .ok s4 ∧ s.memRuns G [1, 2] [4] [5, 0] s4 s5) ∧
    (let s := (launching 5 (queue5 0 true [])).updStrm 0 .A fun t => { t with lists := { t.lists with opened := [1] } }
     s.begins G [1, 2] [4] [5, 0] s ∧ s.collecting = true) := by
  refine ⟨?_, by decide +kernel, by decide +kernel, by decide +kernel, by decide +kernel, rfl, is_of (by decide +kernel), ?_,
    ⟨is_of (by decide +kernel), ?_⟩, begins_plain (by decide +kernel), by decide +kernel⟩
  · simp only [List.forall_mem_cons]
    refine ⟨?_, ?_, ?_, ?_, ?_, ?_, nofun⟩ <;> exact begins_plain (by decide +kernel)
  · obtain ⟨r, h, hp⟩ := ok_such (e := (launching 5 (queue5 0 true [])).readElts false (packetElts 0) (fun _ s => (s, none))) (p := fun r =>
      (match (r.2.releaseNow .package 0).2.putPhys (some 0) 0x200100 r.1.flatten with
        | .ok s3 => decide ((s3.offered (queue5 0 true []) { queue5 0 true [] with intake := [1], next := 2 }).cur =
            (launching 5 (queue5 0 true [])).cur)
        | .error _ => false) = true) (by decide +kernel)
    refine ⟨r, h, ?_⟩
    cases h3 : (r.2.releaseNow .package 0).2.putPhys (some 0) 0x200100 r.1.flatten with
    | error _ => rw [h3] at hp; exact absurd hp Bool.false_ne_true
    | ok s3 =>
      simp only [h3, decide_eq_true_eq] at hp
      obtain ⟨s4, h4, hc⟩ := writes_cur (s := launching 5 (queue5 0 true [])) (r := 4) (by decide +kernel) hp 1
      exact ⟨s3, rfl, s4, s4, h4, runs_of (begins_plain (by decide +kernel)) (by decide +kernel) hc⟩
  · obtain ⟨r, h, hp⟩ := ok_such (e := (launching 5 (queue5 0 true (List.replicate 256 0))).readElts false (packetElts 0) (fun _ s => (s, none)))
      (p := fun r => (r.2.releaseNow .package 0).2.cur = (launching 5 (queue5 0 true (List.replicate 256 0))).cur) (by decide +kernel)
    obtain ⟨s4, h4, hc⟩ := writes_cur (s := launching 5 (queue5 0 true (List.replicate 256 0))) (r := 4) (by decide +kernel) hp (BitVec.allOnes 64)
    exact ⟨r, s4, s4, h, h4, runs_of (begins_plain (by decide +kernel)) (by decide +kernel) hc⟩

/-! ## Hypotheses that can be met: the station cores (O42 to O45) -/

theorem station_of {s : State} {rs : List XReg} {vs : List Word}
    (h : (decide (s.cur = .station 0) && s.guardOn G && vs == rs.map s.hart.get) = true) : station s G rs vs := by
  simp only [Bool.and_eq_true, decide_eq_true_eq, beq_iff_eq] at h
  exact ⟨⟨0, by decide, h.1.1⟩, h.1.2, h.2⟩

/-- Station core 0 acts for partition 0, which owns cluster 0, slice 0 and the first window of HBM, with x1 and x2 given; context 0 in a
state, with what it owns of cluster 0. -/
def fw (x y : Word) (st : CtxState) (o : Owner) (f : Cluster → Cluster) : State :=
  ((((stat.updStation 0 fun t => { t with hart := { t.hart with x := (t.hart.x.set 1 x).set 2 y } }).updPart 0 fun p =>
    { p with pclu := 1, pslice := 1, phbm := 1 }).updCtx 0 fun c => { c with state := st }).updCluster 0 fun c =>
      f { c with owners := [(0, o)] })

/-- Core 0 and bank 0. -/
def owns : Owner := ⟨1, 1, 1⟩

/-- Stream A of core 0 in a vector store that has issued in part, with a mark or none. -/
def storing (m : Option Snap) : State := (fw 0 0 .yielding owns id).updStrm 0 .A fun t => { t with st := .wait, vstPos := 3, mark := m }

/-- A context that owns cores of two clusters. -/
def twoClusters : State := (fw 0 0 .saving owns id).updCluster 1 fun c => { c with owners := [(0, owns)] }

theorem met_StopAndResume :
    (∀ p ∈ [(CtxState.yielding, ([] : List Nat)), (.saving, [0]), (.running, [])],
      station (fw 0 0 p.1 owns fun c => { c with stopped := p.2 }) G [1] [0] ∧
        targets (fw 0 0 p.1 owns fun c => { c with stopped := p.2 }) 0 0 0 ∧
        (fw 0 0 p.1 owns fun c => { c with stopped := p.2 }).remoteBusy 0 0 = false) ∧
    (((fw 0 0 .yielding owns id).ctx 0).state = .yielding ∧ ((fw 0 0 .running owns id).ctx 0).state ≠ .yielding ∧
    ((fw 0 0 .running owns id).ctx 0).state ≠ .saving ∧
    0 ∈ ((fw 0 0 .saving owns fun c => { c with stopped := [0] }).cluster 0).stopped ∧
    ((fw 0 0 .yielding owns id).updStrm 0 .A fun t => { t with remote :=
        [⟨0, .coll 0, 0, 0, 0, 0, false, 0, 0, none, [], [], false⟩] }).remoteBusy 0 0 = true ∧
    (fw 0 0 .yielding owns id).storesOut 0 0 false = false ∧ (storing none).storesOut 0 0 false = true ∧ (storing none).remoteBusy 0 0 = false ∧
    (∀ c < 128, ((fw 0 0 .saving owns id).owner c 0).core ≠ 0 → c = 0 ∨ 0 ∈ ((fw 0 0 .saving owns id).cluster c).resumed)) ∧
    (∃ c < 128, (twoClusters.owner c 0).core ≠ 0 ∧ c ≠ 0 ∧ 0 ∉ (twoClusters.cluster c).resumed) := by
  refine ⟨?_, by decide +kernel, 1, by decide +kernel⟩
  simp only [List.forall_mem_cons]
  refine ⟨?_, ?_, ?_, nofun⟩ <;> exact ⟨station_of (by decide +kernel), by unfold targets; decide +kernel, by decide +kernel⟩

/-- A context that owns no core, its book's third line held as lost. -/
def shiftLost : State :=
  let s := fw 0 0x1000000 .saving ⟨0, 0, 0⟩ id
  { s with slices := s.slices.set 0 { s.slice 0 with lost := [0x40002] } }

/-- SHIFT of a context that owns no core, so that its book is short; the same with the book's line held as lost; one with a cluster that is
not stopped; a misaligned base; CUTB of a stream with a mark, of one with none in a vector store, and of a running context. -/
theorem met_Saves :
    (let s := fw 0 0x1000000 .saving ⟨0, 0, 0⟩ id
     station s G [1, 2] [0, 0x1000000] ∧ targets s 0 0 0 ∧ (s.ctx 0).state = .saving ∧
       (∀ c < 128, (s.owner c 0).core ≠ 0 → 0 ∉ (s.cluster c).stopped → False) ∧
       s.ownsRange s.actingPart 0x1000000 (((s.cleanOf 0).scanRelease 0 0).fieldBook 0 0).length = true ∧
       ∃ s2, ((s.cleanOf 0).scanRelease 0 0).bookPut 0x1000000 (((s.cleanOf 0).scanRelease 0 0).fieldBook 0 0) = .ok s2 ∧
         s2.cur = s.cur) ∧
    (let s := shiftLost
     station s G [1, 2] [0, 0x1000000] ∧ targets s 0 0 0 ∧ (s.ctx 0).state = .saving ∧
       ∃ e, ((s.cleanOf 0).scanRelease 0 0).bookPut 0x1000000 (((s.cleanOf 0).scanRelease 0 0).fieldBook 0 0) = .error e) ∧
    (∃ c < 128, ((fw 0 0 .saving owns id).owner c 0).core ≠ 0 ∧ 0 ∉ ((fw 0 0 .saving owns id).cluster c).stopped) ∧
    (station (fw 0 1 .saving ⟨0, 0, 0⟩ id) G [1, 2] [0, 1] ∧ targets (fw 0 1 .saving ⟨0, 0, 0⟩ id) 0 0 0) ∧
    (station (storing none) G [1] [0] ∧ targets (storing none) 0 0 0 ∧ ((storing none).ctx 0).state = .yielding ∧
      (storing none).storesOut 0 0 true = true) ∧
    (let s := storing (some ((base .A).snapshot 0 .A))
     station s G [1] [0] ∧ s.storesOut 0 0 true = false ∧ (s.strm 0 .A).mark.isSome = true ∧ (s.owner 0 0).core.getLsbD 0 = true) ∧
    station (fw 0 0 .running owns id) G [1] [0] := by
  refine ⟨⟨station_of (by decide +kernel), by unfold targets; decide +kernel, by decide +kernel, by decide +kernel, by decide +kernel, ?_⟩,
    ⟨station_of (by decide +kernel), by unfold targets; decide +kernel, by decide +kernel, err_of (by decide +kernel)⟩, ⟨0, by decide +kernel⟩,
    ⟨station_of (by decide +kernel), by unfold targets; decide +kernel⟩,
    ⟨station_of (by decide +kernel), by unfold targets; decide +kernel, by decide +kernel⟩,
    ⟨station_of (by decide +kernel), by decide +kernel⟩, station_of (by decide +kernel)⟩
  obtain ⟨t, ht, hc⟩ := bookPut_untagged (s := ((fw 0 0x1000000 .saving ⟨0, 0, 0⟩ id).cleanOf 0).scanRelease 0 0) 0x1000000
    ((((fw 0 0x1000000 .saving ⟨0, 0, 0⟩ id).cleanOf 0).scanRelease 0 0).fieldBook 0 0) (untagged_of (by decide +kernel))
  exact ⟨t, ht, hc.trans (by decide +kernel)⟩

theorem met_Owners :
    (∀ p ∈ [((0 : Word), (5 : Word)), (0, 16)], station (fw p.1 p.2 .idle owns id) G [1, 2] [p.1, p.2] ∧
      targets (fw p.1 p.2 .idle owns id) p.1 0 0 ∧ (fw p.1 p.2 .idle owns id).runsIn 0 0 = false) ∧
    (∀ o ∈ ((fw 0 5 .idle owns id).cluster 0).owners, o.1 ≠ 0 → o.2.bank &&& (5 : Word) = 0 ∧ o.2.acm &&& (5 : Word) = 0 ∧
      o.2.core &&& (5 : Word).setWidth 4 = 0) ∧
    (let s := fw 0 5 .idle owns fun c => { c with owners := [(7, ⟨1, 1, 1⟩)] }
     station s G [1, 2] [0, 5] ∧ targets s 0 0 0 ∧ (∃ o ∈ (s.cluster 0).owners, o.1 ≠ 0 ∧ o.2.bank &&& (5 : Word) ≠ 0 ∧
       o.2.acm &&& (5 : Word) ≠ 0 ∧ o.2.core &&& (5 : Word).setWidth 4 ≠ 0)) ∧
    (let s := { fw 0 0 .running owns id with kernels := [kern] }
     station s G [1, 2] [0, 0] ∧ targets s 0 0 0 ∧ s.runsIn 0 0 = true ∧ (s.owner 0 0).bank &&& ~~~(0 : Word) ≠ 0 ∧
       (s.owner 0 0).acm &&& ~~~(0 : Word) ≠ 0 ∧ (s.owner 0 0).core &&& ~~~(0 : Word).setWidth 4 ≠ 0) := by
  refine ⟨?_, ?_, ⟨station_of (by decide +kernel), by unfold targets; decide +kernel, (7, ⟨1, 1, 1⟩), by decide +kernel, by decide⟩,
    station_of (by decide +kernel), by unfold targets; decide +kernel, by decide +kernel⟩
  · simp only [List.forall_mem_cons]
    refine ⟨?_, ?_, nofun⟩ <;> exact ⟨station_of (by decide +kernel), by unfold targets; decide +kernel, by decide +kernel⟩
  · have : ((fw 0 5 .idle owns id).cluster 0).owners = [(0, owns)] := by decide +kernel
    rw [this]; decide

theorem met_Requests :
    (∀ st ∈ [CtxState.running, .yielding, .idle], station (fw 0 0x10000 st owns id) G [1] [0] ∧
      station (fw 0 0x10000 st owns id) G [1, 2] [0, 0x10000] ∧ targetsCtx (fw 0 0x10000 st owns id) 0 0 ∧
        ((fw 0 0x10000 st owns id).ctx 0).state = st) ∧
    (fw 0 0x10000 .idle owns id).ownsRange 0 0x10000 (2048 * 4096 * 2 ^ 0) = true ∧ (fw 0 0x10000 .idle owns id).actingPart = 0 ∧
    ((fw 0 0x10000 .idle owns id).part 0).pclu.getLsbD 0 = true ∧
    (∀ p ∈ [((0x50000 : Word), (0 : Word)), (0, 1), (0, 0x100000000000)], station (fw p.1 p.2 .idle owns id) G [1, 2] [p.1, p.2]) ∧
    (fw 0 0x100000000000 .idle owns id).ownsRange 0 0x100000000000 (2048 * 4096 * 2 ^ 0) = false := by
  refine ⟨?_, by decide +kernel, by decide +kernel, by decide +kernel, ?_, by decide +kernel⟩
  case refine_2 =>
    simp only [List.forall_mem_cons]
    refine ⟨?_, ?_, ?_, nofun⟩ <;> exact station_of (by decide +kernel)
  simp only [List.forall_mem_cons]
  refine ⟨?_, ?_, ?_, nofun⟩ <;>
    exact ⟨station_of (by decide +kernel), station_of (by decide +kernel), by unfold targetsCtx; decide +kernel, by decide +kernel⟩

/-- Context 0 of core 0 has a remote load that used a translation of its page 0, and host requests outstanding, or nothing of these. -/
def tlbUsers (x : Word) (rs : List RemoteReq) (q : List (Nat × Nat)) (w : Option WaitFor) : State :=
  (((({ fw x 0x1000 .running owns fun c => { c with tlb := [⟨0, 0, 65536, 0x100000, true, true, false⟩] } with kernels := [kern] } : State).updCore
    0 fun c => { c with kernel := some 0 }).updStrm 0 .A fun t => { t with remote := rs }).updCtx 0 fun c =>
      { c with ats := q, pri := q }).updStation 0 fun t => { t with waiting := w }

theorem met_TranslationControl : station (tlbUsers 0 [] [] none) G [1, 2] [0, 0x1000] ∧ targetsCtx (tlbUsers 0 [] [] none) 0 0 ∧
    ((tlbUsers 0 [] [] none).ctx 0).ats = [] ∧ ((tlbUsers 0 [] [] none).ctx 0).pri = [] ∧ (tlbUsers 0 [] [] none).stationWait = none ∧
    ((tlbUsers 0 [] [(0, 0)] none).ctx 0).ats ≠ [] ∧ (tlbUsers 0 [] [] none).entryUsers 0 (fun _ => true) = [] ∧
    (∀ f ∈ [fun _ => true, fun e : TlbEntry => decide (e.ctx = 0), fun e : TlbEntry => decide (e.ctx = 0) &&
      (decide (e.va ≤ (0x1000 : Word).toNat) && decide ((0x1000 : Word).toNat < e.va + e.size))],
      (tlbUsers 0 [⟨1, .load 4 false false none, 8, 64, 0x1000, 8, false, 7, 0, none, [], [], false⟩] [] none).entryUsers 0 f ≠ []) ∧
    (∀ x ∈ [(0x400 : Word), 1], station ((tlbUsers x [] [] none).updCtx 1 fun c => { c with part := 5 }) G [1, 2] [x, 0x1000]) ∧
    ((((tlbUsers 1 [] [] none).updCtx 1 fun c => { c with part := 5 }).ctx 1).part ≠ (tlbUsers 1 [] [] none).actingPart) ∧
    (let s := tlbUsers 0 [] [] (some (.requests [1] false))
     station s G [] [] ∧ s.stationWait = some (.requests [1] false) ∧ ∀ t ∈ [1], ∀ r ∈ s.allRemote, r.2.tag ≠ t) := by
  refine ⟨station_of (by decide +kernel), by unfold targetsCtx; decide +kernel, by decide +kernel, by decide +kernel, by decide +kernel,
    by decide +kernel, by decide +kernel, ?_, ?_, by decide +kernel, station_of (by decide +kernel), by decide +kernel⟩
  · simp only [List.forall_mem_cons]
    refine ⟨?_, ?_, ?_, nofun⟩ <;> decide +kernel
  · simp only [List.forall_mem_cons]
    refine ⟨?_, ?_, nofun⟩ <;> exact station_of (by decide +kernel)

/-- A resident line at 1 MiB. -/
def resident (x : Word) : State := { fw x 0 .idle owns id with l2 := [(0x4000, ⟨0, false, 0, true, 0, 3, .none, false⟩)] }

theorem met_MemoryRepairs :
    (∀ x ∈ [(1 : Word), 0x100000, 2, 0x200000], station (resident x) G [1] [x]) ∧ (resident 0x100000).ownsByte 0 0x100000 = true ∧
    (resident 0x100000).actingPart = 0 ∧ 16 ∉ (resident 0x100000).retired.getD 0 [] ∧ ((resident 0x100000).retired.getD 0 []).length < 256 ∧
    256 ≤ ({ resident 0x100000 with retired := (resident 0x100000).retired.set 0 (List.replicate 256 0) }.retired.getD 0 []).length ∧
    (let s := { resident 0x100000 with retired := (resident 0x100000).retired.set 0 [16] }
     16 ∈ s.retired.getD 0 [] ∧ (s.retired.getD 0 []).length < 256) ∧
    (station (resident 0x100000000000) G [1] [0x100000000000] ∧ (resident 0x100000000000).ownsByte 0 0x100000000000 = false) ∧
    ((resident 2).part 0).pslice.getLsbD 0 = true ∧ ((resident 2).part 0).pstage ≤ 2 ∧
    2 < (((resident 2).updPart 0 fun p => { p with pstage := 3 }).part 0).pstage ∧ ((resident 2).slice 0).quarantined = [] ∧
    (∀ l ∈ (resident 2).l2, ¬(l.2.slice = 0 ∧ l.2.way = 2)) ∧
    (∀ j < 64, (resident 0x100000).ownsByte 0 ((resident 0x100000).hbmAddr (0x100000 + j)) = true) ∧
    (resident 0x100000).l2At 0x4000 = some ⟨0, false, 0, true, 0, 3, .none, false⟩ ∧ (resident 0x200000).l2At 0x8000 = none := by
  refine ⟨?_, by decide +kernel, by decide +kernel, by decide +kernel, by decide +kernel, by decide +kernel,
    by decide +kernel, ⟨station_of (by decide +kernel), by decide +kernel⟩, by decide +kernel⟩
  simp only [List.forall_mem_cons]
  refine ⟨?_, ?_, ?_, ?_, nofun⟩ <;> exact station_of (by decide +kernel)

/-- Queue 5 of partition 0, holding entries. -/
def intaken (x y : Word) (vs : List Word) : State := { fw x y .idle owns id with queues := [{ queue5 0 false [] with intake := vs }] }

theorem met_Intake :
    (∀ p ∈ [((5 : Word), (1 : Word)), (5, 0), (1024, 1), (6, 1)], station (intaken p.1 p.2 [9]) G [1, 2] [p.1, p.2]) ∧
    (intaken 5 1 [9]).queue? (intaken 5 1 [9]).actingPart 5 = some { queue5 0 false [] with intake := [9] } ∧
    (intaken 5 1 []).queue? (intaken 5 1 []).actingPart 5 = some (queue5 0 false []) ∧
    (intaken 6 1 [9]).queue? (intaken 6 1 [9]).actingPart 6 = none ∧
    1 ≤ ((1 : BitVec 32) - (queue5 0 false []).commit).toNat ∧ ((1 : BitVec 32) - (queue5 0 false []).commit).toNat ≤ [(9 : Word)].length ∧
    ((0 : Word).setWidth 32 : BitVec 32) = (queue5 0 false []).commit := by
  refine ⟨?_, by decide +kernel, by decide +kernel, by decide +kernel, by decide, by decide, by decide⟩
  simp only [List.forall_mem_cons]
  refine ⟨?_, ?_, ?_, ?_, nofun⟩ <;> exact station_of (by decide +kernel)

theorem err_such {ε α : Type} {e : Except ε α} {p : ε → Prop} [DecidablePred p]
    (h : (match e with | .ok _ => false | .error a => decide (p a)) = true) : ∃ a, e = .error a ∧ p a := by
  cases e with
  | error a => exact ⟨a, rfl, of_decide_eq_true h⟩
  | ok _ => exact absurd h Bool.false_ne_true

/-- A slot table at 64 KiB whose slot 0 is resident, a packet at 128 KiB with its launch record of one core at 192 KiB, and an empty one. -/
def handoff (x y : Word) (q : SubQueue) (p : Option Policy) : State :=
  { ((fw x y .idle owns fun c => { c with tlb := [⟨0, 0, 0x100000, 0, true, true, false⟩] }).updPart 0 fun r =>
      { r with slotTable := 0x10000 }).updCtx 0 fun c => { c with policy := p } with
    hbm := [(0x1000D, 0x80), (0x2000A, 3), (0x30018, 1)], cluUp := 1, queues := [q] }

/-- The packet's line is held as lost. -/
def packetLost : State :=
  let s := handoff 0x20000 0 (queue5 0 false []) none
  { s with slices := s.slices.set 0 { s.slice 0 with lost := [0x800] } }

theorem met_Slots :
    station (handoff 0x20000 0 (queue5 0 false []) none) G [1, 2] [0x20000, 0] ∧
    (∃ r, (handoff 0x20000 0 (queue5 0 false []) none).checkAt ⟨0, 0, 0, 0, 0⟩ 0x20000 none none = .ok r ∧ r.2.cur = .station 0) ∧
    station (handoff 0x40000 0 (queue5 0 false []) none) G [1, 2] [0x40000, 0] ∧
    (∃ r, (handoff 0x40000 0 (queue5 0 false []) none).checkAt ⟨0, 0, 0, 0, 0⟩ 0x40000 none none = .error r ∧
      r.1 = some 5 ∧ r.2.cur = .station 0) ∧
    station (handoff 0x20000 0x100500000 (queue5 0 false []) none) G [1, 2] [0x20000, 0x100500000] ∧
    (handoff 0x20000 0x100500000 (queue5 0 false []) none).queue? 0 5 = some (queue5 0 false []) ∧
    (∃ r, (handoff 0x20000 0x100500000 (queue5 0 false []) none).checkAt ⟨0, 0, 5, 1, 0⟩ 0x20000 none none = .ok r ∧ r.2.cur = .station 0) ∧
    (∃ r, (handoff 0x20000 0x100500000 { queue5 0 false [] with handed := some 1 } none).checkAt ⟨0, 0, 5, 1, 0⟩ 0x20000 none none = .ok r ∧
      r.2.cur = .station 0) ∧ (queue5 0 false []).valueOf 1 = none ∧ ((1 : BitVec 32) - 1).toInt ≤ 0 ∧
    (∃ r, (handoff 0x40000 0x100500000 (queue5 0 false []) none).checkAt ⟨0, 0, 5, 1, 0⟩ 0x40000 none none = .error r ∧
      r.1 = some 5 ∧ r.2.cur = .station 0) ∧
    (∃ r, packetLost.checkAt ⟨0, 0, 0, 0, 0⟩ 0x20000 none none = .error r ∧ r.1 = none ∧ r.2.cur = .station 0) ∧
    (∃ q, (handoff 0x20000 0x100500000 (queue5 7 false []) none).queue? 0 5 = some q ∧ q.ctx ≠ 0) ∧
    (handoff 0x20000 0x100600000 (queue5 0 false []) none).queue? 0 6 = none :=
  ⟨station_of (by decide +kernel), ok_such (by decide +kernel), station_of (by decide +kernel), err_such (by decide +kernel),
    station_of (by decide +kernel), by decide +kernel, ok_such (by decide +kernel), ok_such (by decide +kernel), by decide, by decide,
    err_such (by decide +kernel), err_such (by decide +kernel), ⟨queue5 7 false [], by decide +kernel, by decide⟩, by decide +kernel⟩

theorem met_Policies :
    (∀ x ∈ [(0x3000 : Word), 0x2000, 0x1000, 0], station (handoff x 0x20000 (queue5 0 false []) none) G [1, 2] [x, 0x20000]) ∧
    (∃ r, (handoff 0x1000 0x20000 (queue5 0 false []) none).polInputs 0x20000 5 = .ok r ∧
      (r.2.cur = .station 0 ∧ (r.2.ctx 0).policy = none)) ∧
    (∃ r, (handoff 0 0x20000 (queue5 0 false []) (some ⟨[], [], []⟩)).polInputs 0x20000 5 = .ok r ∧
      (r.2.cur = .station 0 ∧ (r.2.ctx 0).policy = some ⟨[], [], []⟩)) := by
  refine ⟨?_, ok_such (by decide +kernel), ok_such (by decide +kernel)⟩
  simp only [List.forall_mem_cons]
  refine ⟨?_, ?_, ?_, ?_, nofun⟩ <;> exact station_of (by decide +kernel)

/-- Station core 0 acting for partition 0, whose list of accepted keys is given. -/
def keyed (x : Word) (l : List (BitVec 9)) : State := (fw x 0 .idle owns id).updPart 0 fun p => { p with accept := l }

theorem met_Keys :
    (∀ x ∈ [(0x405 : Word), 5], station (keyed x [5]) G [1] [x] ∧ x.extractLsb' 14 50 = 0 ∧ x.getLsbD 9 = false) ∧
    (keyed 5 [5]).actingPart = 0 ∧ 5 ∈ ((keyed 5 [5]).part 0).accept ∧ 5 ∉ ((keyed 5 []).part 0).accept ∧
    ((keyed 5 []).part 0).accept.length < 16 ∧ (keyed 5 []).stationWait = none ∧
    (5 ∉ ((keyed 5 (List.replicate 16 6)).part 0).accept ∧ 16 ≤ ((keyed 5 (List.replicate 16 6)).part 0).accept.length) ∧
    (keyed 5 [5]).incoming = [] ∧ (keyed 5 [5]).requestsOut 0 = false ∧
    ((keyed 5 [5]).updStrm 0 .A fun t => { t with remote := [⟨0, .store false, 0, 0, 0, 0, false, 0, 0, none, [], [],
        false⟩] }).requestsOut 0 = true := by
  refine ⟨?_, by decide +kernel⟩
  simp only [List.forall_mem_cons]
  refine ⟨?_, ?_, nofun⟩ <;> exact ⟨station_of (by decide +kernel), by decide, by decide⟩

/-! ## An image that SCIN and SCVER accept (O42) -/

/-- The first 64 bytes of an image of five segments for core 0, bank 0 and ACM bank 0 of context 0 in cluster 0. -/
def imgA : List Byte :=
  leBytes 4 0x4B424446 ++ leBytes 4 0x00030001 ++ leBytes 4 0x01000000 ++ leBytes 4 5 ++ leBytes 8 1 ++ leBytes 8 1 ++ leBytes 8 352576 ++
    leBytes 24 0
/-- Its segments: kind, offset, length. -/
def imgMap : List (Nat × Nat × Nat) :=
  [(2, 256, 16384), (3, 16640, 135168), (4, 151808, 131136), (5, 282944, 61440), (6, 344384, 8192)]
def imgM : List Byte := imgMap.flatMap fun e => leBytes 2 e.1 ++ leBytes 6 0 ++ leBytes 4 e.2.1 ++ leBytes 4 e.2.2
/-- Its bytes from 96 on: reserved bytes, the map, the segments. -/
def imgB : List Byte := leBytes 32 0 ++ imgM ++ leBytes 48 0 ++ List.replicate 352320 0
/-- Its digest. -/
def imgD : List Byte := shake256 (imgA ++ List.replicate 32 0 ++ imgB)

theorem keccakRound_length {a : List (BitVec 64)} (rc : BitVec 64) : (keccakRound a rc).length = 25 := by
  simp [keccakRound, upto, List.range_succ]

theorem keccakF_length (a : List (BitVec 64)) : (keccakF a).length = 25 := by
  simp only [keccakF, keccakRc, List.cons_append, List.nil_append, List.foldl_cons, List.foldl_nil]
  exact keccakRound_length _

theorem keccakBlocks_length : ∀ (n : Nat) (a : List (BitVec 64)) (bs : List Byte), a.length = 25 → (keccakBlocks a bs n).length = 25
  | 0, _, _, h => h
  | n + 1, _, _, _ => keccakBlocks_length n _ _ (keccakF_length _)

theorem leBytes_length : ∀ (k v : Nat), (leBytes k v).length = k
  | 0, _ => rfl
  | k + 1, v => by simp [leBytes, leBytes_length k]

theorem shake256_length (bs : List Byte) : (shake256 bs).length = 32 := by
  have h := keccakBlocks_length ((shakePad bs).length / 136) (List.replicate 25 0) (shakePad bs) (by simp)
  simp only [shake256]
  generalize keccakBlocks _ _ _ = l at h
  match l, h with
  | a :: b :: c :: d :: _, _ => simp [leBytes_length]

theorem imgA_length : imgA.length = 64 := by decide +kernel
theorem imgM_length : imgM.length = 80 := by decide +kernel
theorem imgB_length : imgB.length = 352480 := by
  simp only [imgB, List.length_append, List.length_replicate, leBytes_length, imgM_length]

/-- The memory of a package that holds bytes at an address. -/
theorem memBytes_memPuts (L : List Byte) (a o k : Nat) (h : o + k ≤ L.length) : memBytes (memPuts [] a L) (a + o) k = (L.drop o).take k := by
  induction k generalizing o with
  | zero => simp [memBytes]
  | succ k ih =>
    have hlt : o < L.length := by omega
    rw [memBytes, Nat.add_assoc, ih (o + 1) (by omega), memByte_memPuts (a + o) L (m := []) a rfl, if_pos (by omega),
      List.drop_eq_getElem_cons hlt, List.take_succ_cons, Nat.add_sub_cancel_left]
    simp [hlt]

theorem img_of {s : State} {base : Nat} {L : List Byte} (h2 : s.l2 = []) (hm : s.hbm = memPuts [] base L) {o k : Nat} (h : o + k ≤ L.length)
    (hb : base + L.length ≤ 2 ^ 51) : s.physBytes (base + o) k = (L.drop o).take k := by
  have : ∀ (k a : Nat), a + k ≤ 2 ^ 51 → s.physBytes a k = memBytes s.hbm a k := by
    intro k
    induction k with
    | zero => exact fun _ _ => rfl
    | succ k ih =>
      intro a ha
      simp only [State.physBytes, memBytes, ih (a + 1) (by omega), State.physByte, h2, List.find?_nil, State.hbmAddr,
        if_pos (show a < 2 ^ 51 by omega)]
  rw [this k _ (by omega), hm, memBytes_memPuts L base o k h]

/-- Context 0 saved, the image in memory at 16 MiB. -/
def imaged : State := { fw 0 0x1000000 .saved owns id with hbm := memPuts [] 0x1000000 (imgA ++ imgD ++ imgB) }

theorem imaged_hbm : imaged.hbm = memPuts [] 0x1000000 (imgA ++ imgD ++ imgB) := by simp only [imaged]

theorem imaged_l2 : imaged.l2 = [] := by decide +kernel

theorem imaged_take : (imgA ++ imgD ++ imgB).take 64 = imgA := by
  rw [List.append_assoc, List.take_append_of_le_length (by rw [imgA_length]), List.take_of_length_le (by rw [imgA_length])]

theorem imaged_drop : (imgA ++ imgD ++ imgB).drop 96 = imgB := by
  have hD : imgD.length = 32 := shake256_length _
  have h : (imgA ++ imgD).length = 96 := by rw [List.length_append, imgA_length, hD]
  rw [List.drop_append, h, Nat.sub_self, List.drop_zero, List.drop_of_length_le (Nat.le_of_eq h), List.nil_append]

theorem imaged_head {o k : Nat} (h : o + k ≤ 64) : imaged.img 0x1000000 o k = leNat ((imgA.drop o).take k) := by
  have hA := imgA_length
  have hD : imgD.length = 32 := shake256_length _
  have hB := imgB_length
  rw [State.img, State.physNat, img_of (L := imgA ++ imgD ++ imgB) imaged_l2 imaged_hbm (by simp; omega) (by simp; omega), List.append_assoc,
    List.drop_append_of_le_length (by omega), List.take_append_of_le_length (by simp; omega)]

theorem imaged_digest : imaged.img 0x1000000 64 32 = leNat imgD := by
  have hA := imgA_length
  have hD : imgD.length = 32 := shake256_length _
  have hB := imgB_length
  rw [State.img, State.physNat, img_of (L := imgA ++ imgD ++ imgB) imaged_l2 imaged_hbm (by simp; omega) (by simp; omega), List.append_assoc,
    List.drop_append, List.drop_of_length_le (by omega), List.nil_append, hA, Nat.sub_self, List.drop_zero, List.take_append_of_le_length (by omega),
        List.take_of_length_le (by omega)]

theorem imaged_tail {o k : Nat} (h0 : 96 ≤ o) (h : o + k ≤ 352576) : imaged.img 0x1000000 o k = leNat ((imgB.drop (o - 96)).take k) := by
  have hA := imgA_length
  have hD : imgD.length = 32 := shake256_length _
  have hB := imgB_length
  rw [State.img, State.physNat, img_of (L := imgA ++ imgD ++ imgB) imaged_l2 imaged_hbm (by simp; omega) (by simp; omega),
    List.drop_append, List.drop_of_length_le (by simp; omega), List.nil_append]
  simp [hA, hD]

theorem imaged_whole : imaged.physBytes 0x1000000 352576 = imgA ++ imgD ++ imgB := by
  have hD : imgD.length = 32 := shake256_length _
  have := img_of (s := imaged) (base := 0x1000000) (L := imgA ++ imgD ++ imgB) imaged_l2 imaged_hbm (o := 0) (k := 352576)
    (by simp [hD, imgA_length, imgB_length]) (by simp [hD, imgA_length, imgB_length])
  rw [this, List.drop_zero, List.take_of_length_le (by simp [hD, imgA_length, imgB_length])]

theorem imgB_entries : ∀ j < 5, leNat ((imgB.drop (128 + 16 * j - 96)).take 2) = (imgMap.getD j (0, 0, 0)).1 ∧
    leNat ((imgB.drop (128 + 16 * j + 2 - 96)).take 2) = 0 ∧ leNat ((imgB.drop (128 + 16 * j + 4 - 96)).take 1) = 0 ∧
    leNat ((imgB.drop (128 + 16 * j + 5 - 96)).take 3) = 0 ∧
    leNat ((imgB.drop (128 + 16 * j + 8 - 96)).take 4) = (imgMap.getD j (0, 0, 0)).2.1 ∧
    leNat ((imgB.drop (128 + 16 * j + 12 - 96)).take 4) = (imgMap.getD j (0, 0, 0)).2.2 := by decide +kernel

/-- The entries of the image's map as they are read. -/
theorem imaged_entry : ∀ j < 5, imaged.img 0x1000000 (128 + 16 * j) 2 = (imgMap.getD j (0, 0, 0)).1 ∧
    imaged.img 0x1000000 (128 + 16 * j + 2) 2 = 0 ∧ imaged.img 0x1000000 (128 + 16 * j + 4) 1 = 0 ∧
    imaged.img 0x1000000 (128 + 16 * j + 5) 3 = 0 ∧ imaged.mapEntry 0x1000000 j = (imgMap.getD j (0, 0, 0)).2 := by
  intro j hj
  obtain ⟨a, b, c, d, e, f⟩ := imgB_entries j hj
  exact ⟨(imaged_tail (by omega) (by omega)).trans a, (imaged_tail (by omega) (by omega)).trans b,
    (imaged_tail (by omega) (by omega)).trans c, (imaged_tail (by omega) (by omega)).trans d,
    Prod.ext ((imaged_tail (by omega) (by omega)).trans e) ((imaged_tail (by omega) (by omega)).trans f)⟩

theorem imaged_formed : ∀ j < 5, imaged.entryMalformed 0x1000000 j (imgMap.getD j (0, 0, 0)).2.1 = false := by
  intro j hj
  obtain ⟨a, b, c, d, e⟩ := imaged_entry j hj
  simp only [State.entryMalformed, a, b, c, d, e]
  clear a b c d e
  revert j; decide

theorem imaged_n : imaged.img 0x1000000 12 4 = 5 := (imaged_head (by decide)).trans (by decide +kernel)

theorem imaged_map : imaged.mapMalformed 0x1000000 0 256 5 = false := by
  have e (j : Nat) (hj : j < 5) := (imaged_entry j hj).2.2.2.2
  have k (j : Nat) (hj : j < 5) := imaged_formed j hj
  have k0 : imaged.entryMalformed 0x1000000 0 256 = false := k 0 (by decide)
  have k1 : imaged.entryMalformed 0x1000000 1 16640 = false := k 1 (by decide)
  have k2 : imaged.entryMalformed 0x1000000 2 151808 = false := k 2 (by decide)
  have k3 : imaged.entryMalformed 0x1000000 3 282944 = false := k 3 (by decide)
  have k4 : imaged.entryMalformed 0x1000000 4 344384 = false := k 4 (by decide)
  have e0 : imaged.mapEntry 0x1000000 0 = (256, 16384) := e 0 (by decide)
  have e1 : imaged.mapEntry 0x1000000 1 = (16640, 135168) := e 1 (by decide)
  have e2 : imaged.mapEntry 0x1000000 2 = (151808, 131136) := e 2 (by decide)
  have e3 : imaged.mapEntry 0x1000000 3 = (282944, 61440) := e 3 (by decide)
  simp only [State.mapMalformed, Nat.zero_add, Nat.reduceAdd, e0, e1, e2, e3, show up64 16384 = 16384 from rfl,
    show up64 135168 = 135168 from rfl, show up64 131136 = 131136 from rfl, show up64 61440 = 61440 from rfl, k0, k1, k2, k3, k4,
    Bool.or_self]

theorem imaged_good (w : Option (Nat × Nat)) (hw : w = none ∨ w = some (0, 0)) : imaged.imgCheck 0x1000000 w = none := by
  have h1 : imaged.img 0x1000000 0 4 = 0x4B424446 := (imaged_head (by decide)).trans (by decide +kernel)
  have h2 : imaged.img 0x1000000 6 2 = 3 := (imaged_head (by decide)).trans (by decide +kernel)
  have h3 : imaged.img 0x1000000 4 2 = 1 := (imaged_head (by decide)).trans (by decide +kernel)
  have h4 : imaged.img 0x1000000 32 8 = 352576 := (imaged_head (by decide)).trans (by decide +kernel)
  have h6 : imaged.img 0x1000000 40 24 = 0 := (imaged_head (by decide)).trans (by decide +kernel)
  have h7 : imaged.img 0x1000000 8 2 = 0 := (imaged_head (by decide)).trans (by decide +kernel)
  have h8 : imaged.img 0x1000000 10 1 = 0 := (imaged_head (by decide)).trans (by decide +kernel)
  have h9 : imaged.img 0x1000000 11 1 = 1 := (imaged_head (by decide)).trans (by decide +kernel)
  have t3 : imaged.img 0x1000000 96 32 = 0 := (imaged_tail (by decide) (by decide)).trans (by decide +kernel)
  have t4 : imaged.img 0x1000000 208 48 = 0 := (imaged_tail (by decide) (by decide)).trans (by decide +kernel)
  have e0 : imaged.mapEntry 0x1000000 0 = (256, 16384) := (imaged_entry 0 (by decide)).2.2.2.2
  have e4 : imaged.mapEntry 0x1000000 4 = (344384, 8192) := (imaged_entry 4 (by decide)).2.2.2.2
  have hd : digestOf (imaged.physBytes 0x1000000 352576) = imgD := by
    rw [imaged_whole, digestOf, imaged_take, imaged_drop]; rfl
  have l : imaged.lengthBad 0x1000000 = false := by
    simp only [State.lengthBad, imaged_n, h4, Nat.reduceSub, e0, e4]; decide
  have m : imaged.reservedBad 0x1000000 = false := by
    simp only [State.reservedBad, imaged_n, h6, h7, h8, h9, t3, show up64 (128 + 16 * 5) = 256 from rfl, show 128 + 16 * 5 = 208 from rfl,
      show 256 - 208 = 48 from rfl, t4, imaged_map]
    decide
  have p : imaged.poisonAt 0x1000000 = none := by
    unfold State.poisonAt
    rw [imaged_n, List.find?_eq_none]
    intro j hj
    have hj : j < 5 := by simp only [upto, List.mem_range] at hj; exact hj
    simp [(imaged_entry j hj).2.2.1]
  unfold State.imgCheck
  rw [h4, if_neg (by rw [h1]; decide), if_neg (by rw [h2, h3]; decide), l, if_neg (by decide), hd, if_neg (by rw [imaged_digest]; simp), m, p]
  rcases hw with rfl | rfl <;> simp [h7, h8]

/-- Where the image's segments lie. -/
theorem imaged_segments : imaged.segAt 0x1000000 2 0 = some 256 ∧ imaged.segAt 0x1000000 3 0 = some 16640 ∧
    imaged.segAt 0x1000000 4 0 = some 151808 ∧ imaged.segAt 0x1000000 5 0 = some 282944 := by
  have k (j : Nat) (hj : j < 5) := imaged_entry j hj
  have a0 : imaged.img 0x1000000 128 2 = 2 := (k 0 (by decide)).1
  have a1 : imaged.img 0x1000000 144 2 = 3 := (k 1 (by decide)).1
  have a2 : imaged.img 0x1000000 160 2 = 4 := (k 2 (by decide)).1
  have a3 : imaged.img 0x1000000 176 2 = 5 := (k 3 (by decide)).1
  have b0 : imaged.img 0x1000000 130 2 = 0 := (k 0 (by decide)).2.1
  have b1 : imaged.img 0x1000000 146 2 = 0 := (k 1 (by decide)).2.1
  have b2 : imaged.img 0x1000000 162 2 = 0 := (k 2 (by decide)).2.1
  have b3 : imaged.img 0x1000000 178 2 = 0 := (k 3 (by decide)).2.1
  have e0 : imaged.mapEntry 0x1000000 0 = (256, 16384) := (k 0 (by decide)).2.2.2.2
  have e1 : imaged.mapEntry 0x1000000 1 = (16640, 135168) := (k 1 (by decide)).2.2.2.2
  have e2 : imaged.mapEntry 0x1000000 2 = (151808, 131136) := (k 2 (by decide)).2.2.2.2
  have e3 : imaged.mapEntry 0x1000000 3 = (282944, 61440) := (k 3 (by decide)).2.2.2.2
  refine ⟨?_, ?_, ?_, ?_⟩ <;>
    simp [State.segAt, imaged_n, show upto 5 = [0, 1, 2, 3, 4] from rfl, a0, a1, a2, a3, b0, b1, b2, b3, e0, e1, e2, e3]

theorem imaged_wf : imaged.Wf :=
  ⟨imaged_hbm ▸ memPuts_wf _ _ rfl, by decide +kernel, by decide +kernel, by decide +kernel⟩

/-- With no line in trouble an image's lines are read without an effect. -/
theorem look_sound {s : State} {base : Nat} (h : s.sound = true) : s.lookBook base = .ok s := by simp [State.lookBook, State.lookImage, h]

theorem met_Scin : station imaged G [1, 2] [0, 0x1000000] ∧ targets imaged 0 0 0 ∧ (imaged.ctx 0).state = .saved ∧
    imaged.ownsRange imaged.actingPart 0x1000000 128 = true ∧ imaged.lookBook 0x1000000 = .ok imaged ∧
    imaged.masksOwned 0 0 0x1000000 = true ∧ imaged.imgCheck 0x1000000 none = none ∧
    imaged.ownsRange imaged.actingPart 0x1000000 (imaged.img 0x1000000 32 8) = true ∧ imaged.imgCheck 0x1000000 (some (0, 0)) = none ∧
    imaged.ctxClusters 0 = [0] ∧ imaged.vault = [] ∧ imaged.Wf ∧ (imaged.img 0x1000000 11 1).testBit 0 = true ∧
    (imaged.owner 0 0).bank.getLsbD 0 = true ∧ (imaged.owner 0 0).acm.getLsbD 0 = true ∧ imaged.img 0x1000000 (151808 + 0x20000) 1 ≠ 2 := by
  have h4 : imaged.img 0x1000000 32 8 = 352576 := (imaged_head (by decide)).trans (by decide +kernel)
  have h9 : imaged.img 0x1000000 11 1 = 1 := (imaged_head (by decide)).trans (by decide +kernel)
  have hb : imaged.img 0x1000000 16 8 = 1 := (imaged_head (by decide)).trans (by decide +kernel)
  have ha : imaged.img 0x1000000 24 8 = 1 := (imaged_head (by decide)).trans (by decide +kernel)
  have hm : imaged.img 0x1000000 (151808 + 0x20000) 1 = 0 := by
    rw [imaged_tail (by decide) (by decide)]
    have h : imgB = (leBytes 32 0 ++ imgM ++ leBytes 48 0) ++ List.replicate 352320 0 := rfl
    have hl : (leBytes 32 0 ++ imgM ++ leBytes 48 0).length = 160 := by decide +kernel
    rw [h, List.drop_append, hl, List.drop_of_length_le (by rw [hl]; decide), List.nil_append, List.drop_replicate, List.take_replicate]
    decide
  refine ⟨station_of (by decide +kernel), by unfold targets; decide +kernel, by decide +kernel, by decide +kernel,
    look_sound (by decide +kernel), ?_, imaged_good _ (.inl rfl), ?_, imaged_good _ (.inr rfl), by decide +kernel, by decide +kernel, imaged_wf,
    by rw [h9]; decide, by decide +kernel, by decide +kernel, by rw [hm]; decide⟩
  · have ho : imaged.owner 0 0 = owns := by decide +kernel
    simp only [State.masksOwned, h9, hb, ha, ho]; decide
  · rw [h4]; decide +kernel

/-- The same image with an entry of the vault under its digest, of core 0. -/
def kept : Saved := ⟨BitVec.ofNat 256 (imaged.img 0x1000000 64 32), [(0, imaged.core 0)], imaged.cluster 0, (imaged.ctx 0).blk, []⟩
def vaulted : State := { imaged with vault := [kept] }

/-- An image whose lines are lost or poisoned. -/
def troubled (f : State → State) : State := f (fw 0 0x1000000 .saved owns id)

/-- The vault is no memory. -/
theorem vault_bytes (s : State) (v : List Saved) (a : Nat) : ∀ n, ({ s with vault := v } : State).physBytes a n = s.physBytes a n := by
  intro n
  induction n generalizing a with
  | zero => rfl
  | succ n ih => simp only [State.physBytes, ih]; rfl

theorem met_ScinBooks : vaulted.lookBook 0x1000000 = .ok vaulted ∧
    vaulted.vault.find? (·.digest == BitVec.ofNat 256 (vaulted.img 0x1000000 64 32)) = some kept ∧ (kept.cores.map (·.1)).Nodup ∧
    (vaulted.owner 0 0).core.getLsbD 0 = true ∧
    (∀ f ∈ [fun s => lostAt s 0x40000, fun s => { s with badHbm := [0x40000] }], station (troubled f) G [1, 2] [0, 0x1000000] ∧
      targets (troubled f) 0 0 0 ∧ ((troubled f).ctx 0).state = .saved ∧ (troubled f).ownsRange (troubled f).actingPart 0x1000000 128 = true) ∧
    (∃ e, (troubled fun s => lostAt s 0x40000).lookBook 0x1000000 = .error e ∧ (match e.1 with | .lost => true | .poison => false) = true) ∧
    (∃ e, (troubled fun s => { s with badHbm := [0x40000] }).lookBook 0x1000000 = .error e ∧
      (match e.1 with | .lost => false | .poison => true) = true) := by
  refine ⟨look_sound (by decide +kernel), ?_, by decide, by decide +kernel, ?_, err_such (by decide +kernel), err_such (by decide +kernel)⟩
  · have h : vaulted.img 0x1000000 64 32 = imaged.img 0x1000000 64 32 := by simp only [vaulted, State.img, State.physNat, vault_bytes]
    rw [h]; simp [vaulted, kept]
  · simp only [List.forall_mem_cons]
    refine ⟨?_, ?_, nofun⟩ <;> exact ⟨station_of (by decide +kernel), by unfold targets; decide +kernel, by decide +kernel, by decide +kernel⟩

/-! ## Hypotheses that can be met: engines, streams and translation (O46 to O48) -/

/-- A package whose context 0 is RUNNING, with tile 0 of core 0's cluster and with core 0 changed. -/
def engine (x : Option Tile) (f : Machine.Core → Machine.Core) : State :=
  ((tiled x).updCtx 0 fun c => { c with state := .running }).updCore 0 f

theorem running_of {s : State} {c : Nat} (h : (decide (c < 512) && s.clocked c) = true) : running s c := by
  simpa [running] using h

/-- A copy at the head of core 0's queue, issued or not. -/
def copying (x : Option Tile) (c : CopyCmd) (issued : Bool) : State :=
  engine x fun r => { r with copyQ := [⟨5, .A, .copy c, issued, [], ⟨none, 0⟩⟩] }

/-- A copy of one line of memory; one whose source is not mapped; one to a fifo-mode or cache-mode bank. -/
def copyLine64 : CopyCmd := ⟨0, 0, 64, 0, 0, 0, none, 0⟩
def copyNone : CopyCmd := ⟨0, 0x1000000, 64, 0, 0, 0, none, 0⟩
def copyBad : CopyCmd := ⟨0, 0, 0x0100000000020000, 0, 0, 0, none, 0⟩

/-- The run of an issued copy to its end, or to a fault. -/
def copyEnd (c : CopyCmd) : CopyCmd × Prog × XferEnd × State :=
  ({ copying none c true with cur := .stream 0 .A } : State).copyPart ⟨false, 5⟩ c ⟨none, 0⟩ 1

theorem run_of {r : CopyCmd × Prog × XferEnd × State} {e : XferEnd} (h : decide (r.2.2.1 = e) = true) : ∃ c p t, r = (c, p, e, t) := by
  obtain ⟨c, p, f, t⟩ := r; obtain rfl : f = e := of_decide_eq_true h; exact ⟨c, p, t, rfl⟩

/-- The same with an error in HBM at its source. -/
def copyUe : CopyCmd × Prog × XferEnd × State :=
  ({ copying none copyLine64 true with cur := .stream 0 .A, badHbm := [0x4001] } : State).copyPart ⟨false, 5⟩ copyLine64 ⟨none, 0⟩ 1

/-- The context and the core of what a run leaves. -/
theorem fault_of {r : CopyCmd × Prog × XferEnd × State} {P : Trap → Bool}
    (h : (match r.2.2.1 with | .fault t => P t && decide ((r.2.2.2.ctx 0).state ≠ .free) && decide (r.2.2.2.ctxOf 0 = 0) | _ => false) = true) :
    ∃ c p u t, r = (c, p, .fault t, u) ∧ P t = true ∧ (u.ctx 0).state ≠ .free ∧ u.ctxOf 0 = 0 := by
  obtain ⟨c, p, f, u⟩ := r
  match f, h with
  | .fault t, h =>
    simp only [Bool.and_eq_true, decide_eq_true_eq] at h
    exact ⟨c, p, u, t, rfl, h.1.1, h.1.2, h.2⟩

/-- A core with a lost line at a copy's destination makes the transfer wait. -/
def copyWaits : CopyCmd × Prog × XferEnd × State :=
  let s : State := { copying none copyLine64 true with cur := .stream 0 .A }
  ({ s with slices := s.slices.set 0 { s.slice 0 with lost := [0x4000] } } : State).copyPart ⟨false, 5⟩ copyLine64 ⟨none, 0⟩ 1

/-- CPYX of a tile that is defined anew, of one that is EMPTY, and of one that is READY; CPY of a line; one behind a copy that is not
expanded; one to a bank in cache mode. -/
theorem met_CopyEvents :
    (∀ s ∈ [copying (some ⟨desc0, 0, none, .ready⟩) ⟨3, 0, 0, 0, 0, 0, none, 0⟩ false,
      copying (some ⟨desc0, 0, none, .empty⟩) ⟨3, 0, 0, 0, 0, 0, some desc0, 0⟩ false, copying none copyLine64 false,
      copying none copyLine64 true, copying none copyBad false], running s 0 ∧ (s.core 0).copyStopped = none ∧ (s.core 0).ueHeld = false) ∧
    (copying (some ⟨desc0, 0, none, .ready⟩) ⟨3, 0, 0, 0, 0, 0, none, 0⟩ false).tileSame ⟨3, 0, 0, 0, 0, 0, none, 0⟩ = false ∧
    (let s := copying (some ⟨desc0, 0, none, .empty⟩) ⟨3, 0, 0, 0, 0, 0, some desc0, 0⟩ false
     s.tileSame ⟨3, 0, 0, 0, 0, 0, some desc0, 0⟩ = true ∧ s.copyBroken ⟨3, 0, 0, 0, 0, 0, some desc0, 0⟩ = none ∧
       s.tileReadable ⟨3, 0, 0, 0, 0, 0, some desc0, 0⟩ = false) ∧
    (let s := copying none copyLine64 false
     headOf (s.core 0).copyQ = some ⟨5, .A, .copy copyLine64, false, [], ⟨none, 0⟩⟩ ∧ s.tileSame copyLine64 = true ∧
       (∀ e ∈ (s.core 0).copyQ, e.expanded = true) ∧
       s.copyBroken copyLine64 = none ∧ s.tileReadable copyLine64 = true ∧ s.peerStopped copyLine64 = false ∧ s.copyRemote copyLine64 = false ∧
       (s.claim 0 (s.copyRanges copyLine64 0 5)).isSome = true) ∧
    (let q : QEntry := ⟨4, .A, .copy copyLine64, true, [], ⟨none, 0⟩⟩
     q.expanded = false ∧ headOf [q, ⟨5, .A, .copy copyLine64, false, [], ⟨none, 0⟩⟩] = some ⟨5, .A, .copy copyLine64, false, [], ⟨none, 0⟩⟩) ∧
    ((copying none copyBad false).tileSame copyBad = true ∧ ((copying none copyBad false).copyBroken copyBad).isSome = true) ∧
    (((copying none copyLine64 true).core 0).copyQ.find? (fun e => e.seq == 5 && e.issued)) =
      some ⟨5, .A, .copy copyLine64, true, [], ⟨none, 0⟩⟩ ∧
    (∃ c p s1, copyEnd copyLine64 = (c, p, .over, s1)) ∧ (∃ c p s1, copyWaits = (c, p, .busy, s1)) ∧
    (∃ c p s1 tr, copyEnd copyNone = (c, p, .fault tr, s1) ∧ (tr.cause == cPAGE) = true ∧ (s1.ctx 0).state ≠ .free ∧ s1.ctxOf 0 = 0) ∧
    (∃ c p s1 tr, copyUe = (c, p, .fault tr, s1) ∧ (tr.cause != cPAGE && !storeUe tr) = true ∧ (s1.ctx 0).state ≠ .free ∧
      s1.ctxOf 0 = 0) ∧ (copying none copyBad true).ctxOf 0 = 0 := by
  refine ⟨?_, by decide +kernel, by decide +kernel, by decide +kernel, by decide +kernel, by decide +kernel, by decide +kernel,
    run_of (by decide +kernel), run_of (by decide +kernel), fault_of (P := fun t => t.cause == cPAGE) (by decide +kernel),
    fault_of (P := fun t => t.cause != cPAGE && !storeUe t) (by decide +kernel), by decide +kernel⟩
  simp only [List.forall_mem_cons]
  refine ⟨?_, ?_, ?_, ?_, ?_, nofun⟩ <;> exact ⟨running_of (by decide +kernel), by decide +kernel⟩

/-- A marker at the head of core 0's copy queue. -/
def marked (m : EngineCmd) : State := engine none fun r =>
  { r with copyQ := [⟨5, .A, m, false, [], ⟨none, 0⟩⟩], flags := r.flags.set 1 ⟨4, 4, 0, .A⟩ }

theorem met_MarkerEvents :
    (∀ m ∈ [EngineCmd.fset 1, .fclr 1, .fwait 1 4, .fwait 1 9], running (marked m) 0 ∧
      (((marked m).core 0).queueOf .copy).head? = some ⟨5, .A, m, false, [], ⟨none, 0⟩⟩ ∧
      headOf (((marked m).core 0).queueOf .copy) = some ⟨5, .A, m, false, [], ⟨none, 0⟩⟩) ∧
    4 ≤ (((marked (.fwait 1 4)).core 0).flag 1).fire ∧ (((marked (.fwait 1 9)).core 0).flag 1).fire < 9 := by
  refine ⟨?_, by decide +kernel⟩
  simp only [List.forall_mem_cons]
  refine ⟨?_, ?_, ?_, ?_, nofun⟩ <;> exact ⟨running_of (by decide +kernel), by decide +kernel⟩

/-- An MGO at the head of core 0's matrix queue, issued or not, and what the array runs. -/
def product (i : Bool) (r : List RunMgo) : State :=
  (engine none fun c => { c with
    matQ := [⟨5, .M, .mgo oneProduct 0, i, [], ⟨none, 0⟩⟩], array := { c.array with running := r } }).updCluster 0
    fun c => { c with owners := [(0, ⟨1, 1, 1⟩)], acmAlloc := c.acmAlloc.set 0 (some 0) }

/-- The product of one element, numbered, at an array cycle, held by a trap or not. -/
def ran (seq n : Nat) (t : Option Trap) : RunMgo := ⟨seq, oneProduct, 0, (State.reset.ctx 0).blk, n, 0, [], [], t, [], []⟩

/-- One whose A lies in memory that is not mapped. -/
def lostProduct : ProdTable := { oneProduct with opA := some ⟨0x1000000, 0⟩ }
def ranLost : RunMgo := ⟨5, lostProduct, 0, (State.reset.ctx 0).blk, 0, 0, [], [], none, [], []⟩
/-- What an array cycle of the running ones fetches, some lines of HBM bad. -/
def fetched (l : List RunMgo) (bad : List Nat) : Except (Nat × Act) (List RunMgo × State) :=
  ({ product true l with cur := .stream 0 .M, badHbm := bad } : State).arrayFetch [] l

theorem fault_cycle {e : Except (Nat × Act) (List RunMgo × State)} {P : Trap → State → Bool}
    (h : (match e with | .error (5, .trap t s) => P t s | _ => false) = true) : ∃ t s, e = .error (5, .trap t s) ∧ P t s = true := by
  split at h
  · exact ⟨_, _, rfl, h⟩
  · exact absurd h Bool.false_ne_true

theorem met_MatrixEvents :
    (∀ r ∈ [[], [ran 4 9999 none], [ran 5 0 none], [ran 5 9999 none], [ran 5 0 (some ⟨cPAGE, 1, 0⟩)], [ranLost]],
      running (product true r) 0 ∧ ((product true r).core 0).ueHeld = false) ∧
    (∀ r ∈ [[], [ran 4 9999 none], [ran 4 9999 none, ran 3 9999 none]], running (product false r) 0 ∧
      headOf ((product false r).core 0).matQ = some ⟨5, .M, .mgo oneProduct 0, false, [], ⟨none, 0⟩⟩ ∧
      (product false r).rowsBusy 0 5 oneProduct 0 = false ∧
      (product false r).mgoTiles (clusterOf 0) oneProduct 0 = true ∧ ((product false r).claim 0 (mgoRanges oneProduct 0 0 5)).isSome = true) ∧
    (ran 4 9999 none).lastStart ≤ (ran 4 9999 none).cycle ∧
    (∃ r, fetched [ran 5 0 none] [] = .ok r ∧ ∀ x ∈ (r.2.arrayEnterAll (clusterOf 0) r.1).1, x.finished = false) ∧
    (∃ r, fetched [ran 5 9999 none] [] = .ok r ∧ ∃ x ∈ (r.2.arrayEnterAll (clusterOf 0) r.1).1, x.finished = true) ∧
    (∃ t s, fetched [ranLost] [] = .error (5, .trap t s) ∧ (t.cause == cPAGE) = true) ∧
    (∃ t s, fetched [ran 5 0 none] [0x4000] = .error (5, .trap t s) ∧ (t.cause != cPAGE && !storeUe t &&
      (s.core 0).matQ.any fun q => q.seq == 5 && q.isMgo) = true) ∧
    pageResolvable ⟨cPAGE, 1, 0⟩ = true ∧
    (∃ q ∈ ((product true [ran 5 0 (some ⟨cPAGE, 1, 0⟩)]).core 0).matQ, q.seq = 5 ∧ q.isMgo = true) ∧
    (product true [ran 5 0 (some ⟨cPAGE, 1, 0⟩)]).pageAsked (clusterOf 0) 0 ⟨cPAGE, 1, 0⟩ = false := by
  refine ⟨?_, ?_, by decide +kernel, ok_such (by decide +kernel), ok_such (by decide +kernel),
    fault_cycle (P := fun t _ => t.cause == cPAGE) (by decide +kernel),
    fault_cycle (P := fun t s => t.cause != cPAGE && !storeUe t && (s.core 0).matQ.any fun q => q.seq == 5 && q.isMgo) (by decide +kernel),
    by decide, by decide +kernel⟩ <;> simp only [List.forall_mem_cons]
  · refine ⟨?_, ?_, ?_, ?_, ?_, ?_, nofun⟩ <;> exact ⟨running_of (by decide +kernel), by decide +kernel⟩
  · refine ⟨?_, ?_, ?_, nofun⟩ <;>
      exact ⟨running_of (by decide +kernel), by decide +kernel⟩

/-- An issued copy that reads line 0 of the tile store, a replay window, and copies that are to run again. -/
def replaying (w again : List QEntry) : State :=
  engine none fun c => { c with
    copyQ := [⟨6, .A, .copy ⟨0, 64, 0x0100000000000000, 0, 0, 0, none, 0⟩, true, [⟨none, false, 0, 63, 0, 6, false⟩], ⟨none, 0⟩⟩],
    window := w, winHold := true, replay := again }

/-- A copy of a line of memory to line 0 of the tile store. -/
def refill (y : Word) : QEntry :=
  ⟨5, .A, .copy ⟨0, 0x0100000000000000, y, 0, 0, 0, none, 0⟩, true, [⟨none, true, 0, 63, 0, 5, true⟩], ⟨none, 0⟩⟩

/-- The copies of a window, run again after an error in line 0. -/
def rerun (w : List QEntry) : List QEntry × ReplayEnd × State :=
  ((replaying w []).ueFound 0 0).replayCopies 0
    ((((replaying w []).core 0).window.filter fun q => q.wroteLine 0 0).map QEntry.afresh)

theorem rerun_of {r : List QEntry × ReplayEnd × State} {e : ReplayEnd} {P : State → Bool}
    (h : (decide (r.2.1 = e) && P r.2.2) = true) : ∃ l t, r = (l, e, t) ∧ P t = true := by
  obtain ⟨l, f, t⟩ := r
  simp only [Bool.and_eq_true, decide_eq_true_eq] at h
  obtain ⟨rfl, h⟩ := h
  exact ⟨l, t, rfl, h⟩

/-- The copy of the window runs again whole; with a page not mapped it is busy; without one the error stays. -/
theorem met_ReplayEvents :
    (∀ w ∈ [[], [refill 0], [refill 0x1000000]], running (replaying w []) 0 ∧ ((replaying w []).core 0).winHold = true ∧
      (∀ q ∈ ((replaying w []).core 0).window, ((replaying w []).core 0).pending q.seq = false) ∧
      ((replaying w []).core 0).readsLine 0 0 = true ∧ ((replaying w []).core 0).replay = []) ∧
    (∃ l s1, rerun [refill 0] = (l, .over, s1) ∧ (!(s1.cluster (clusterOf 0)).badStore.contains 0) = true) ∧
    (∃ l s1, rerun [refill 0x1000000] = (l, .busy, s1) ∧ (true : Bool) = true) ∧
    (∃ l s1, rerun [] = (l, .over, s1) ∧ ((s1.cluster (clusterOf 0)).badStore.contains 0 && decide ((s1.ctx 0).state ≠ .free) &&
      decide (s1.ctxOf 0 = 0)) = true) ∧
    ((replaying [] [refill 0]).core 0).replay ≠ [] ∧ (replaying [] []).ctxOf 0 = 0 ∧
    (∃ q ∈ ((replaying [] []).core 0).copyQ ++ ((replaying [] []).core 0).colQ, q.issued = true ∧ ∃ r ∈ q.ranges, r.slice = none ∧
      r.write = false ∧ meets r.lo r.hi (64 * 0) (64 * 0 + 63) = true) := by
  refine ⟨?_, rerun_of (P := fun s1 => !(s1.cluster (clusterOf 0)).badStore.contains 0) (by decide +kernel),
    rerun_of (P := fun _ => true) (by decide +kernel),
    rerun_of (P := fun s1 => (s1.cluster (clusterOf 0)).badStore.contains 0 && decide ((s1.ctx 0).state ≠ .free) &&
      decide (s1.ctxOf 0 = 0)) (by decide +kernel), by decide +kernel⟩
  simp only [List.forall_mem_cons]
  refine ⟨?_, ?_, ?_, nofun⟩ <;>
    exact ⟨running_of (by decide +kernel), by decide +kernel⟩

/-- A command of C at the head of the copy queue, M and C copied at a mark, a mismatch before it or none, and mismatches counted. -/
def twinned (f : Option Nat) (n : Nat) : State :=
  engine none fun c => { c with
    copyQ := [⟨5, .C, .fset 1, false, [], ⟨none, 0⟩⟩], replays := n,
    back := ⟨some ((base .M).snapshot 0 .M), some ((base .C).snapshot 0 .C), [], [], f⟩ }

theorem met_Backsight : (∀ s ∈ [engine none id, twinned none 0, twinned (some 5) 1, twinned none 3], running s 0) ∧
    ((engine none id).core 0).twinHead = none ∧ ((twinned none 0).core 0).twinHead = some 5 ∧ ((twinned none 0).core 0).back.fault = none ∧
    ((twinned none 0).core 0).back.m.isSome = true ∧ ((twinned none 0).core 0).back.c.isSome = true ∧ ((twinned none 0).core 0).replays < 3 ∧
    ((twinned (some 5) 1).core 0).twinHead ≠ none ∧ ((twinned (some 5) 1).core 0).back.fault ≠ none ∧
    ((twinned none 3).core 0).twinHead ≠ none ∧ 3 ≤ ((twinned none 3).core 0).replays := by
  refine ⟨?_, by decide +kernel⟩
  simp only [List.forall_mem_cons]
  refine ⟨?_, ?_, ?_, ?_, nofun⟩ <;> exact running_of (by decide +kernel)

/-- Stream A of core 0 in a state. -/
def streamIn (f : Stream → Stream) : State := (engine none id).updStrm 0 .A f

/-- Stream A held by a fault, or waiting. -/
def heldBy (t : Trap) (ar : Bool) (v : Word) : State := streamIn fun u => { u with st := .held, held := some t, heldArena := ar, trapvec := v }
def waitsFor (w : Option WaitFor) : State := streamIn fun t => { t with st := .wait, waiting := w, hart := { t.hart with stat := 64 } }

/-- A stream that waits, for what is ready or not, one that YIELD holds, one with a load that is not answered, one held by a page fault, its
trap taken or not, and by a system call, and a copy that is. -/
theorem met_StreamEvents :
    (∀ s ∈ [waitsFor (some .yielding), waitsFor none, streamIn fun t => { t with loads := [⟨4, none, 7, false⟩] },
      streamIn fun t => { t with loads := [⟨60, some (4, 1), 7, false⟩] }, heldBy ⟨cPAGE, 1, 0⟩ false 1, heldBy ⟨cPAGE, 1, 0⟩ true 1,
      heldBy ⟨cPAGE, 1, 0⟩ false 0, heldBy ⟨cSYSC, 0, 9⟩ false 1, engine none fun c => { c with copyStopped := some ⟨cPAGE, 1, 0⟩ }], running s 0) ∧
    (let u := (waitsFor (some .yielding)).strm 0 .A
     u.st = .wait ∧ u.waiting = some .yielding ∧ u.loads = [] ∧ u.remote = [] ∧ u.hart.stat.getLsbD statYR = true) ∧
    (((waitsFor none).strm 0 .A).st = .wait ∧ ∀ w, ((waitsFor none).strm 0 .A).waiting = some w →
      ({ waitsFor none with cur := .stream 0 .A } : State).waitReady w = true) ∧
    (((waitsFor (some (.flag 0))).strm 0 .A).waiting = some (.flag 0) ∧
      ({ waitsFor (some (.flag 0)) with cur := .stream 0 .A } : State).waitReady (.flag 0) = false) ∧
    ((streamIn id).strm 0 .A).st ≠ .wait ∧
    ((streamIn fun t => { t with loads := [⟨4, none, 7, false⟩] }).strm 0 .A).loads[0]? = some ⟨4, none, 7, false⟩ ∧
    ((streamIn fun t => { t with loads := [⟨60, some (4, 1), 7, false⟩] }).strm 0 .A).loads[0]? = some ⟨60, some (4, 1), 7, false⟩ ∧
    (let s := heldBy ⟨cPAGE, 1, 0⟩ false 1
     (s.strm 0 .A).st = .held ∧ (s.strm 0 .A).held = some ⟨cPAGE, 1, 0⟩ ∧ (s.strm 0 .A).trapvec ≠ 0 ∧ tcauseIn (s.strm 0 .A).tcause = false ∧
       ({ s with cur := .stream 0 .A } : State).codeOk (s.strm 0 .A).trapvec = true ∧ s.pageAsked (clusterOf 0) (s.ctxOf 0) ⟨cPAGE, 1, 0⟩ = false) ∧
    (let s := (heldBy ⟨cPAGE, 4, 0⟩ false 1).updCtx 0 fun c => { c with pri := [(0, 0)] }
     running s 0 ∧ (s.strm 0 .A).held = some ⟨cPAGE, 4, 0⟩ ∧ s.pageAsked (clusterOf 0) (s.ctxOf 0) ⟨cPAGE, 4, 0⟩ = true) ∧
    ((heldBy ⟨cPAGE, 1, 0⟩ false 0).strm 0 .A).trapvec = 0 ∧ ((heldBy ⟨cSYSC, 0, 9⟩ false 1).strm 0 .A).held = some ⟨cSYSC, 0, 9⟩ ∧
    ((engine none fun c => { c with copyStopped := some ⟨cPAGE, 1, 0⟩ }).core 0).copyStopped = some ⟨cPAGE, 1, 0⟩ ∧
    (engine none fun c => { c with copyStopped := some ⟨cPAGE, 1, 0⟩ }).pageAsked (clusterOf 0) 0 ⟨cPAGE, 1, 0⟩ = false := by
  refine ⟨?_, by decide +kernel, ⟨by decide +kernel, ?_⟩, by decide +kernel, by decide +kernel, by decide +kernel, by decide +kernel,
    by decide +kernel, ⟨running_of (by decide +kernel), by decide +kernel⟩, by decide +kernel⟩
  · simp only [List.forall_mem_cons]
    refine ⟨?_, ?_, ?_, ?_, ?_, ?_, ?_, ?_, ?_, nofun⟩ <;> exact running_of (by decide +kernel)
  · have h : ((waitsFor none).strm 0 .A).waiting = none := by decide +kernel
    intro w hw; rw [h] at hw; nomatch hw

/-- A walk in flight whose leaf is at level 4's tables from 64 KiB on, and a context that asks the host for page 1, whose leaf is a host
leaf, and for page 2. -/
def translating (stale : List (Nat × Nat)) (ats pri : List (Nat × Nat)) (leaf : Memory) : State :=
  { ((State.reset.updDie 0 fun d => { d with walks := [⟨0, 0, 0⟩] }).updCtx 0 fun c =>
      { c with state := .idle, root := 0x10000, ats := ats, pri := pri, atsStale := stale }) with
    hbm := [(0x10000, 1), (0x10002, 2), (0x20000, 1), (0x20002, 3)] ++ leaf }

/-- A leaf for a page of 1 GiB. -/
def page : Memory := [(0x30000, 0x0F), (0x30003, 0x40)]

/-- The walk of the leaf once the request for page 1 is answered. -/
def walked (e : Memory) : WalkEnd × State :=
  ((translating [] [(0, 1)] [] e).updCtx 0 fun c => { c with ats := c.ats.eraseIdx 0 }).walk ((0, 1).1 / 16) 0 ((0, 1).2 * 4096)

theorem host_of {r : WalkEnd × State} {P : State → Bool} (h : (match r.1 with | .host _ _ _ => P r.2 | _ => false) = true) :
    ∃ x a b t, r = (.host x a b, t) ∧ P t = true := by
  obtain ⟨e, t⟩ := r
  match e, h with
  | .host x a b, h => exact ⟨x, a, b, t, rfl, h⟩

theorem met_TranslationEvents :
    ((translating [] [(0, 1)] [(0, 2)] page).die 0).walks[0]? = some ⟨0, 0, 0⟩ ∧
    (∃ r, (translating [] [(0, 1)] [(0, 2)] page).walk 0 0 (65536 * 0) = r ∧ r.1 = .leaf 0x40000000 (2 ^ 30) true true) ∧
    ((translating [] [(0, 1)] [(0, 2)] page).ctx 0).ats[0]? = some (0, 1) ∧
    ((translating [] [(0, 1)] [(0, 2)] page).ctx 0).pri[0]? = some (0, 2) ∧ ((translating [] [(0, 1)] [(0, 2)] page).ctx 0).state ≠ .free ∧
    atsSize 4096 = true ∧ atsSize 5000 = false ∧ noneHeld (translating [] [(0, 1)] [(0, 2)] page) 0 (0, 1) ∧
    (0, 1) ∈ ((translating [(0, 1)] [(0, 1)] [] page).ctx 0).atsStale ∧
    (∃ x r w s2, walked [(0x30000, 0x1F)] = (.host x r w, s2) ∧ decide ((0, 1) ∉ (s2.ctx 0).pri) = true) ∧
    ¬noneHeld ((heldBy ⟨cPAGE, 4, 0x2000⟩ false 1).updCtx 0 fun c => { c with pri := [(0, 2)] }) 0 (0, 2) := by
  refine ⟨by decide +kernel, ⟨_, rfl, by decide +kernel⟩, by decide +kernel, by decide +kernel, by decide +kernel, by decide, by decide,
    by unfold noneHeld; decide +kernel, by decide +kernel,
    host_of (P := fun s2 => decide ((0, 1) ∉ (s2.ctx 0).pri)) (by decide +kernel), by unfold noneHeld; decide +kernel⟩

/-! ## Hypotheses that can be met: kernels and their groups (O49, O50) -/

/-- Queue 5 as a fast-path queue bound to core 0, its first entry the packet at 128 KiB. -/
def fast5 (v : List Word) : SubQueue := { queue5 0 false v with fast := true, ring := 0x1FF00, bound := [0] }

/-- A READY partition with the memory of a handoff, a queue, kernels and a policy of its context. -/
def front (q : SubQueue) (ks : List Kernel) (p : Option Policy) : State :=
  { (handoff 0 0 q p).updPart 0 fun p => { p with pstat := 2 } with kernels := ks }

/-- A kernel of one core that waits. -/
def waiting (id : Nat) (queue : Nat) (done : Word) (cfg : List CfgRec) : Kernel :=
  { kern with id := id, queue := queue, done := done, placed := false, cores := [], cfg := cfg }

/-- The read of the packet of a front end, and the check of it. -/
def frontRead (s : State) (q : SubQueue) : Res (List Byte × State) := s.readPacket (BitVec.ofNat 64 (q.packetAt q.head))
def frontCheck (q : SubQueue) (r : List Byte × State) : Res (Kernel × State) :=
  r.2.residency ⟨0, q.ctx, 5, q.head, 0⟩ r.1 q.intake.head? (some q.bound)

/-- The same packet at 256 KiB: no slot is named, and the packet's completion word lies at 8 in line 0, or nowhere. -/
def badQueue : SubQueue := { fast5 [1] with ring := 0x3FF00 }

theorem met_FrontEnd :
    ((front (fast5 [1]) [] none).queue? 0 5 = some (fast5 [1]) ∧ (fast5 [1]).fast = true ∧ (fast5 [1]).intake ≠ [] ∧
      ((front (fast5 [1]) [] none).part 0).pstat = 2 ∧ (queue5 0 false []).fast = false) ∧
    (∃ e, frontRead (lostAt (front (fast5 [1]) [] none) 0x800) (fast5 [1]) = .error e ∧ e.1 = none) ∧
    (∃ r, frontRead (front (fast5 [1]) [] none) (fast5 [1]) = .ok r ∧
      (match frontCheck (fast5 [1]) r with | .ok _ => true | .error _ => false) = true) ∧
    (∃ r, frontRead (lostAt (front (fast5 [1]) [] none) 0x400) (fast5 [1]) = .ok r ∧
      (match frontCheck (fast5 [1]) r with | .ok _ => false | .error e => e.1.isNone) = true) ∧
    (∃ r, frontRead (front badQueue [] none) badQueue = .ok r ∧ (match frontCheck badQueue r with
      | .ok _ => false
      | .error e => e.1.isSome && (match e.2.doneStore (Machine.refused ⟨0, 0, 5, 1, 0⟩ r.1) 0 5 with
        | .ok _ => true | .error _ => false)) = true) ∧
    (∃ r, frontRead (lostAt { front badQueue [] none with hbm := [(0x40090, 8)] } 0) badQueue = .ok r ∧ (match frontCheck badQueue r with
      | .ok _ => false
      | .error e => e.1.isSome && (match e.2.doneStore (Machine.refused ⟨0, 0, 5, 1, 0⟩ r.1) 0 5 with
        | .ok _ => false | .error _ => true)) = true) :=
  ⟨by decide +kernel, err_such (by decide +kernel), ok_such (by decide +kernel), ok_such (by decide +kernel), ok_such (by decide +kernel),
    ok_such (by decide +kernel)⟩

/-- A firmware-path queue's kernel alone; a core set that is not its; with another of a lower queue that scores as high; with a tile where no
bank is in tile mode, its completion word nowhere or in a lost line. -/
theorem met_Placement :
    (let s := front (queue5 0 false []) [waiting 3 5 0 []] none
     s.kernel? 3 = some (waiting 3 5 0 []) ∧ s.picked? (waiting 3 5 0 []) = true ∧ (s.pick (waiting 3 5 0 [])).1 = true ∧
       s.mayPlace (waiting 3 5 0 []) [0] = true ∧ s.mayPlace (waiting 3 5 0 []) [0, 1] = false ∧
       ((s.pick (waiting 3 5 0 [])).2.applyAll (waiting 3 5 0 []) (nubNat ([0].map clusterOf))).isSome = true ∧ (s.ctx 0).state = .idle) ∧
    (let s := { front (queue5 0 false []) [waiting 3 5 0 [], waiting 4 4 0 []] (some ⟨[], [], []⟩) with
       queues := [queue5 0 false [], { queue5 0 false [] with id := 4 }] }
     s.mayPlace (waiting 3 5 0 []) [0] = true ∧ s.picked? (waiting 3 5 0 []) = true ∧ (s.pick (waiting 3 5 0 [])).1 = false) ∧
    (∀ d ∈ [(0 : Word), 8], let s := lostAt (front (queue5 0 false []) [waiting 3 5 d [⟨true, 0, desc0⟩]] none) 0
     s.mayPlace (waiting 3 5 d [⟨true, 0, desc0⟩]) [0] = true ∧ (s.pick (waiting 3 5 d [⟨true, 0, desc0⟩])).1 = true ∧
       (s.pick (waiting 3 5 d [⟨true, 0, desc0⟩])).2.applyAll (waiting 3 5 d [⟨true, 0, desc0⟩]) (nubNat ([0].map clusterOf)) = none ∧
       (match (s.pick (waiting 3 5 d [⟨true, 0, desc0⟩])).2.doneStore (waiting 3 5 d [⟨true, 0, desc0⟩]) 0 0x0E with
        | .ok _ => d == 0 | .error _ => d == 8) = true) := by
  refine ⟨by decide +kernel, by decide +kernel, ?_⟩
  simp only [List.forall_mem_cons]
  refine ⟨⟨by decide +kernel, by decide +kernel, ?_, by decide +kernel⟩, ⟨by decide +kernel, by decide +kernel, ?_, by decide +kernel⟩, nofun⟩ <;>
    exact Option.isNone_iff_eq_none.mp (by decide +kernel)

/-- Core 0 with its streams in one state. -/
def ended (st : RunState) : State :=
  engine none fun c => c.mapStreams fun t => { t with st := st }

/-- The same, its kernel's completion word at 8, and line 0x4000 lost or not. -/
def retiring (l : Nat) : State := lostAt ((ended .idle).updKernel 0 fun k => { k with done := 8 }) l

theorem met_KernelEnds :
    running (ended .halted) 0 ∧ ((ended .halted).core 0).jobEnds = true ∧ running (ended .run) 0 ∧ ((ended .run).core 0).jobEnds = false ∧
    (ended .run).kernel? 0 = some kern ∧ (ended .run).jobsEnded kern = false ∧ (retiring 0).kernel? 0 = some { kern with done := 8 } ∧
    (retiring 0).jobsEnded { kern with done := 8 } = true ∧
    (∃ s1, ((retiring 0).freeKernel 0).doneStore { kern with done := 8 }
      (clusterOf (kern.cores.headD (4 * (retiring 0).frontCluster kern.part))) 0 = .ok s1 ∧ (s1.ctx 0).state = .running) ∧
    (∃ s1, ((retiring 0x4000).freeKernel 0).doneStore { kern with done := 8 }
      (clusterOf (kern.cores.headD (4 * (retiring 0x4000).frontCluster kern.part))) 0 = .error s1) :=
  ⟨running_of (by decide +kernel), by decide +kernel, running_of (by decide +kernel), by decide +kernel, by decide +kernel,
    by decide +kernel, by decide +kernel, by decide +kernel, ok_such (by decide +kernel), err_of (by decide +kernel)⟩

/-- A context being ended, whose kernel's completion word lies at 8, and the GO bit of the request. -/
def endingCtx (l : Nat) : State :=
  ((retiring l).updCtx 0 fun c => { c with state := .terminating }).updPart 0 fun p => { p with pkill := 2 ^ 63 }

theorem met_Termination : ((ended .idle).ctx 0).state ≠ .terminating ∧ ((endingCtx 0).ctx 0).state = .terminating ∧
    ((endingCtx 0).ctx 0).part < 16 ∧ ((endingCtx 0).part 0).pkill.getLsbD 63 = true ∧ (((endingCtx 0).part 0).pkill.extractLsb' 0 10).toNat = 0 ∧
    (∃ s2, ((endingCtx 0).dismantle 0).completeAll (((endingCtx 0).ctx 0).status.getD 0x0C).toNat
      (((endingCtx 0).dismantle 0).kernels.filter fun k => k.ctx == 0) = .ok s2) ∧
    ∃ s2, ((endingCtx 0x4000).dismantle 0).completeAll (((endingCtx 0x4000).ctx 0).status.getD 0x0C).toNat
      (((endingCtx 0x4000).dismantle 0).kernels.filter fun k => k.ctx == 0) = .error s2 :=
  ⟨by decide +kernel, by decide +kernel, by decide +kernel, by decide +kernel, by decide +kernel, ok_of (by decide +kernel),
    err_of (by decide +kernel)⟩

/-- A collective of tier 1: the sum of count words at a source to 128. -/
def sumAt (src : Word) (count : Nat) : CollCmd := ⟨.ar, .sum, .u32, src, 128, count, 1, 0⟩
def sumCmd (count : Nat) : CollCmd := sumAt 64 count

/-- Cores 0 and 1 of a kernel that declares a tier, with their collective queues. -/
def collecting2 (t : Word) (cores : List Nat) (q0 q1 : List QEntry) (marks : List Nat) : State :=
  ((engine none fun c => { c with colQ := q0, collwMarks := c.collwMarks.set 1 marks }).updCore 1 fun c =>
    { c with colQ := q1, kernel := some 0 }).updKernel 0 fun k => { k with tiers := k.tiers.set 1 t, members := [0, 1], cores := cores }

/-- The kernel. -/
def groupK (t : Word) (cores : List Nat) : Kernel := { kern with tiers := kern.tiers.set 1 t, members := [0, 1], cores := cores }

/-- An entry that holds a collective, its result there or not. -/
def collG (c : CollCmd) (issued : Bool) (g : Prog) : QEntry := ⟨5, .A, .coll c, issued, [], g⟩
def collQ (c : CollCmd) (issued : Bool) : QEntry := collG c issued ⟨none, 0⟩

/-- Tiers of one core a group, of two cores, and of two packages. -/
def tier1 : Word := 2 ^ 63 + 2 ^ 60 + 1
def tier2 : Word := 2 ^ 63 + 2 ^ 60 + 2
def tierD : Word := 2 ^ 63 + 5 * 2 ^ 60 + 2

theorem met_CollectiveIssue :
    (let s := collecting2 tier1 [0] [collQ (sumCmd 1) false] [] []
     running s 0 ∧ s.kernelOf 0 = some (groupK tier1 [0]) ∧ (s.core 0).ueHeld = false ∧
       (s.serveOrder (clusterOf 0)).find? (fun c => (s.collTake c).isSome) = some 0 ∧
       headOf (s.core 0).colQ = some (collQ (sumCmd 1) false)) ∧
    (let s := collecting2 tier1 [0] [] [collQ (sumCmd 1) false] []
     running s 0 ∧ (s.serveOrder (clusterOf 0)).find? (fun c => (s.collTake c).isSome) ≠ some 0) ∧
    (let s := collecting2 tier1 [0] [collQ (sumCmd 1) true, ⟨6, .A, .collw 1 0, false, [], ⟨none, 0⟩⟩] [] [1]
     running s 0 ∧ headOf (s.core 0).colQ = some ⟨6, .A, .collw 1 0, false, [], ⟨none, 0⟩⟩ ∧
       (s.serveOrder (clusterOf 0)).find? (fun c => (s.collTake c).isSome) = some 0) ∧
    (let s := collecting2 tier1 [0] [collQ (sumCmd 1) true, ⟨6, .A, .collw 1 0, true, [], ⟨none, 0⟩⟩] [] [1]
     running s 0 ∧ s.kernelOf 0 = some (groupK tier1 [0]) ∧ tierV ((groupK tier1 [0]).tier 1) = true ∧
       (s.core 0).colQ.find? (s.collwOver 0) = none) ∧
    (let s := collecting2 tier1 [0] [⟨6, .A, .collw 1 0, true, [], ⟨none, 0⟩⟩] [] [1]
     running s 0 ∧ (s.core 0).colQ.find? (s.collwOver 0) = some ⟨6, .A, .collw 1 0, true, [], ⟨none, 0⟩⟩) :=
  ⟨⟨running_of (by decide +kernel), by decide +kernel⟩,
    ⟨running_of (by decide +kernel), by decide +kernel⟩, ⟨running_of (by decide +kernel), by decide +kernel⟩,
    ⟨running_of (by decide +kernel), by decide +kernel⟩, running_of (by decide +kernel), by decide +kernel⟩

/-- A collective of core 0 alone, of a source, its result there or not. -/
def single (src : Word) (g : Prog) : State := collecting2 tier1 [0] [collG (sumAt src 1) true g] [] []

/-- Its member, and what the statement asks of the state. -/
def singleP (src : Word) (g : Prog) : List CollPart := [⟨0, collG (sumAt src 1) true g, sumAt src 1⟩]
def singleMet (src : Word) (g : Prog) (s : State) : Prop :=
  running s 0 ∧ s.kernelOf 0 = some (groupK tier1 [0]) ∧ (s.core 0).firstColl = some (sumAt src 1) ∧
    (∀ m ∈ (groupK tier1 [0]).localMembers 1 0, s.clocked m = true ∧ (s.core m).ueHeld = false) ∧
    s.collParts ((groupK tier1 [0]).localMembers 1 0) (sumAt src 1) = singleP src g ∧
    ((groupK tier1 [0]).localMembers 1 0).length = 1 ∧ (groupK tier1 [0]).hasPeers 1 = false

theorem single_met {src : Word} {g : Prog} {s : State} (h : (s.clocked 0 && decide (s.kernelOf 0 = some (groupK tier1 [0])) &&
    decide ((s.core 0).firstColl = some (sumAt src 1)) && !(s.core 0).ueHeld &&
    decide (s.collParts ((groupK tier1 [0]).localMembers 1 0) (sumAt src 1) = singleP src g)) = true) : singleMet src g s := by
  simp only [Bool.and_eq_true, decide_eq_true_eq, Bool.not_eq_true'] at h
  have hl : (groupK tier1 [0]).localMembers 1 0 = [0] := by decide +kernel
  obtain ⟨⟨⟨⟨h1, h2⟩, h3⟩, h4⟩, h5⟩ := h
  refine ⟨⟨by decide, h1⟩, h2, h3, fun m hm => ?_, h5, by decide +kernel⟩
  rw [hl, List.mem_singleton] at hm
  exact hm ▸ ⟨h1, h4⟩

/-- Page 0 in another package. -/
def farPage (s : State) : State :=
  (s.updCluster 0 fun c => { c with tlb := [⟨0, 0, 65536, 2 ^ 50 + 8 * 2 ^ 40 + 0x50000, true, true, false⟩] }).updPart 0 fun p =>
    { p with ownKey := some 7 }

/-- Sources asked for and read. -/
def asked (s : State) (src : Word) : Except Act (Bool × State) := s.collAsk (groupK tier1 [0]) (singleP src ⟨none, 0⟩)
def gathered (s : State) (src : Word) : Except Act (List (Nat × List Nat) × State) :=
  (asked s src).bind fun r => if r.1 then r.2.collSources (groupK tier1 [0]) (singleP src ⟨none, 0⟩) else .error (.wait (.requests [] true) s)

/-- The state after the result is given, with its writes. -/
def scattered (src : Word) (s : State) : Option Trap × State := s.collScatter (singleP src ⟨some [1, 0, 0, 0], 0⟩)

theorem scat_of {r : Option Trap × State} {P : Option Trap → State → Bool} (h : P r.1 r.2 = true) : ∃ o t, r = (o, t) ∧ P o t = true :=
  ⟨r.1, r.2, rfl, h⟩

/-- A trap of an access: whether it can yet be lifted (R320, R310). -/
def lasts (t : State) (tr : Trap) : Bool := !t.pageWaits t.curCl 0 tr && !(faultHolds tr && tr.cause == cUE)

/-- A collective of one member: its source is read and its destination written; a source that another package has, one that is lost, one
that is not mapped, one with an error; a destination that is lost, and one with a fault that stays. -/
theorem met_CollectiveEnds :
    (singleMet 64 ⟨none, 0⟩ (single 64 ⟨none, 0⟩) ∧ (∃ r, asked (single 64 ⟨none, 0⟩) 64 = .ok r ∧ (r.1 &&
      (match r.2.collSources (groupK tier1 [0]) (singleP 64 ⟨none, 0⟩) with
       | .ok m => (match collResult (sumCmd 1) ((groupK tier1 [0]).collMembers 1 0) m.1 ((groupK tier1 [0]).memberIndex 1) [] [0] with
         | some f => (let s3 := (singleP 64 ⟨none, 0⟩).foldl (fun s p => s.setCollProg p
             ⟨some ((f ((groupK tier1 [0]).memberIndex 1 p.core)).flatMap fun v => leBytes 4 v), 0⟩) m.2
           (s3.collScatter (s3.collParts [0] (sumCmd 1))).1.isNone)
         | none => false)
       | .error _ => false)) = true)) ∧
    (singleMet 64 ⟨none, 0⟩ (farPage (single 64 ⟨none, 0⟩)) ∧ ∃ r, asked (farPage (single 64 ⟨none, 0⟩)) 64 = .ok r ∧ r.1 = false) ∧
    (singleMet 64 ⟨none, 0⟩ (lostAt (single 64 ⟨none, 0⟩) 0x4001) ∧
      ∃ a, gathered (lostAt (single 64 ⟨none, 0⟩) 0x4001) 64 = .error a ∧ (match a with | .wait _ _ => true | _ => false) = true) ∧
    (singleMet 0x1000000 ⟨none, 0⟩ (single 0x1000000 ⟨none, 0⟩) ∧ ∃ a, gathered (single 0x1000000 ⟨none, 0⟩) 0x1000000 = .error a ∧
      (match a with | .trap tr t => !lasts t tr | _ => false) = true) ∧
    (singleMet 64 ⟨none, 0⟩ { single 64 ⟨none, 0⟩ with badHbm := [0x4001] } ∧
      ∃ a, gathered { single 64 ⟨none, 0⟩ with badHbm := [0x4001] } 64 = .error a ∧
        (match a with | .trap tr t => lasts t tr && decide ((t.ctx 0).state ≠ .free) | _ => false) = true) ∧
    (singleMet 64 ⟨some [1, 0, 0, 0], 0⟩ (single 64 ⟨some [1, 0, 0, 0], 0⟩) ∧
      (∃ o t, scattered 64 (single 64 ⟨some [1, 0, 0, 0], 0⟩) = (o, t) ∧ (o.isNone && (t.core 0).colQ.isEmpty) = true) ∧
      (∃ o t, scattered 64 (lostAt (single 64 ⟨some [1, 0, 0, 0], 0⟩) 0x4002) = (o, t) ∧ (o.isNone && !(t.core 0).colQ.isEmpty) = true) ∧
      ∃ o t, scattered 64 ((single 64 ⟨some [1, 0, 0, 0], 0⟩).updCluster 0 fun c =>
        { c with tlb := [⟨0, 0, 65536, 0x100000, true, false, false⟩] }) = (o, t) ∧
          (o.isSome && decide ((t.ctx 0).state ≠ .free)) = true) := by
  exact ⟨⟨single_met (by decide +kernel), ok_such (by decide +kernel)⟩, ⟨single_met (by decide +kernel), ok_such (by decide +kernel)⟩,
    ⟨single_met (by decide +kernel), err_such (by decide +kernel)⟩, ⟨single_met (by decide +kernel), err_such (by decide +kernel)⟩,
    ⟨single_met (by decide +kernel), err_such (by decide +kernel)⟩,
    single_met (by decide +kernel), scat_of (P := fun o t => o.isNone && (t.core 0).colQ.isEmpty) (by decide +kernel),
    scat_of (P := fun o t => o.isNone && !(t.core 0).colQ.isEmpty) (by decide +kernel),
    scat_of (P := fun o t => o.isSome && decide ((t.ctx 0).state ≠ .free)) (by decide +kernel)⟩

/-- A collective whose two members differ, or of which one is missing, and one with a peer package, whose partial result is there or not. -/
theorem met_CollectiveGroups :
    (let s := collecting2 tier2 [0, 1] [collQ (sumCmd 1) true] [collQ (sumCmd 2) true] []
     running s 0 ∧ s.kernelOf 0 = some (groupK tier2 [0, 1]) ∧ (s.core 0).firstColl = some (sumCmd 1) ∧
       (∀ m ∈ (groupK tier2 [0, 1]).localMembers 1 0, s.clocked m = true ∧ (s.core m).ueHeld = false) ∧
       (s.collParts ((groupK tier2 [0, 1]).localMembers 1 0) (sumCmd 1)).length = ((groupK tier2 [0, 1]).localMembers 1 0).length ∧
       (groupK tier2 [0, 1]).hasPeers 1 = false ∧
       ∃ p ∈ s.collParts ((groupK tier2 [0, 1]).localMembers 1 0) (sumCmd 1), (sumCmd 1).agrees p.cmd = false) ∧
    (let s := collecting2 tier2 [0, 1] [collQ (sumCmd 1) true] [] []
     running s 0 ∧ (s.core 0).firstColl = some (sumCmd 1) ∧
       (s.collParts ((groupK tier2 [0, 1]).localMembers 1 0) (sumCmd 1)).length ≠ ((groupK tier2 [0, 1]).localMembers 1 0).length) ∧
    (let s := collecting2 tierD [0] [collQ (sumCmd 1) true] [] []
     running s 0 ∧ s.kernelOf 0 = some (groupK tierD [0]) ∧ (s.core 0).firstColl = some (sumCmd 1) ∧
       (∀ m ∈ (groupK tierD [0]).localMembers 1 0, s.clocked m = true ∧ (s.core m).ueHeld = false) ∧ (groupK tierD [0]).hasPeers 1 = true ∧
       tierExt ((groupK tierD [0]).tier 1) ≤ [([1, 0, 0, 0] : List Byte)].length + 1) :=
  ⟨⟨running_of (by decide +kernel), by decide +kernel⟩,
    ⟨running_of (by decide +kernel), by decide +kernel⟩,
    running_of (by decide +kernel), by decide +kernel⟩

/-- A core whose stream A stands at SSYNC and whose other streams are IDLE, or A runs; and its kernel. -/
def atSync (sync comm : Bool) (ts : List Transfer) : State :=
  (engine none fun c => { c with
    a := { c.a with ssynced := sync }, x := { c.x with st := .idle }, m := { c.m with st := .idle }, c := { c.c with st := .idle } }).updKernel 0
      fun k => { k with comm := comm, plan := ⟨0, ts⟩ }

/-- The phase of a plan of one transfer. -/
def phase (s : State) (t : Transfer) : Nat × Prog × XferEnd × State :=
  ({ s with cur := .stream 0 .A } : State).planPart { kern with plan := ⟨0, [t]⟩ } 1

theorem phase_of {r : Nat × Prog × XferEnd × State} {P : XferEnd → State → Bool} (h : P r.2.2.1 r.2.2.2 = true) :
    ∃ n p e t, r = (n, p, e, t) ∧ P e t = true := ⟨r.1, r.2.1, r.2.2.1, r.2.2.2, rfl, h⟩

theorem met_SuperstepEvents :
    (∀ p ∈ [(true, false, ([] : List Transfer)), (false, false, []), (true, true, []), (true, true, [⟨0, 64, 0, 64, 0⟩])],
      ∃ k, (atSync p.1 p.2.1 p.2.2).kernel? 0 = some k ∧ k.placed = true ∧ k.comm = p.2.1 ∧ k.plan.transfers = p.2.2 ∧
        ∀ c ∈ k.cores, c < 512 ∧ (atSync p.1 p.2.1 p.2.2).clocked c = true ∧ ((atSync p.1 p.2.1 p.2.2).core c).atSuperstep = p.1) ∧
    ((atSync true false []).strm 0 .A).ssynced = true ∧ ((atSync true false []).strm 0 .A).ssOut = none ∧
    (∃ n p e t, phase (atSync true true []) ⟨0, 64, 0, 64, 0⟩ = (n, p, e, t) ∧ (e == .over && t.kernels == (atSync true true []).kernels) = true) ∧
    (∃ n p e t, phase (lostAt (atSync true true []) 0x4000) ⟨0, 64, 0, 64, 0⟩ = (n, p, e, t) ∧ (e == .busy) = true) ∧
    (∃ n p e t, phase (atSync true true []) ⟨0x1000000, 64, 0, 64, 0⟩ = (n, p, e, t) ∧
      (match e with | .fault tr => t.pageWaits t.curCl 0 tr | _ => false) = true) ∧
    (∃ n p e t, phase { atSync true true [] with badHbm := [0x4000] } ⟨0, 64, 0, 64, 0⟩ = (n, p, e, t) ∧
      (match e with | .fault tr => !t.pageWaits t.curCl 0 tr && decide ((t.ctx 0).state ≠ .free) | _ => false) = true) := by
  refine ⟨?_, by decide +kernel, by decide +kernel, phase_of (P := fun e t => e == .over && t.kernels == (atSync true true []).kernels)
    (by decide +kernel), phase_of (P := fun e _ => e == .busy) (by decide +kernel),
    phase_of (P := fun e t => match e with | .fault tr => t.pageWaits t.curCl 0 tr | _ => false) (by decide +kernel),
    phase_of (P := fun e t => match e with | .fault tr => !t.pageWaits t.curCl 0 tr && decide ((t.ctx 0).state ≠ .free) | _ => false)
      (by decide +kernel)⟩
  simp only [List.forall_mem_cons]
  refine ⟨⟨_, rfl, ?_⟩, ⟨_, rfl, ?_⟩, ⟨_, rfl, ?_⟩, ⟨_, rfl, ?_⟩, nofun⟩ <;> decide +kernel

/-! ## Hypotheses that can be met: the host, the package, steps and decoding (O51 to O60) -/

/-- Offset 0 of context 0 names queue 5 of partition 0. -/
def offering (q : SubQueue) : State :=
  { State.reset.updCtx 0 fun c => { c with queues := c.queues.set 0 (some 5) } with queues := [q] }

theorem met_SubmitEvents :
    (offering (queue5 0 false [])).localQueue 0 (1 : BitVec 4).toNat = none ∧
    (∀ q ∈ [queue5 0 false [], { queue5 0 false [] with fast := true }, queue5 0 false (List.replicate 256 0),
      { queue5 0 false [] with ovf := true }, queue5 0 true []], (offering q).localQueue 0 (0 : BitVec 4).toNat = some q) ∧
    (queue5 0 false []).deviceFed = false ∧ (queue5 0 false []).ovf = false ∧ (queue5 0 false []).intake.length < 256 ∧
    (queue5 0 false []).fast = false ∧ (offering (queue5 0 false [])).events.length < 4096 ∧
    256 ≤ (queue5 0 false (List.replicate 256 0)).intake.length := by
  refine ⟨by decide +kernel, ?_, rfl, rfl, by decide, rfl, by decide +kernel⟩
  simp only [List.forall_mem_cons]
  refine ⟨?_, ?_, ?_, ?_, ?_, nofun⟩ <;> decide +kernel

/-- A package at reset but for partition 0, which owns the first window of HBM, and context 0 of it. -/
def hosted (st : CtxState) (n : Nat) (k : Word) : State :=
  { (State.reset.updPart 0 fun p => { p with phbm := 1, pkill := k }).updCtx 0 fun c => { c with state := st } with
    events := List.replicate n ⟨2, 0, 0, Vector.replicate 6 0⟩ }

/-- No plat but the first is on. -/
theorem no_others {s : State} (h : (List.range 16).all (fun q => (List.range 32).all fun j => (q == 0 && j == 0) || !(s.plat q j).en) = true) :
    ∀ z, z ∈ ([] : List Plat) ↔ ∃ q < 16, ∃ j < 32, ¬(q = 0 ∧ j = 0) ∧ (s.plat q j).en = true ∧ z = s.plat q j := by
  intro z
  refine ⟨nofun, fun ⟨q, hq, j, hj, hn, he, _⟩ => ?_⟩
  simp only [List.all_eq_true, List.mem_range, Bool.or_eq_true, Bool.and_eq_true, beq_iff_eq, Bool.not_eq_true'] at h
  rcases h q hq j hj with h | h
  · exact absurd h hn
  · rw [he] at h; exact absurd h.symm Bool.false_ne_true

theorem met_RegisterEvents :
    (hosted .idle 0 0).events.length < 4096 ∧ ((hosted .idle 0 0).part 0).mboxHeld = none ∧ 4096 ≤ (hosted .idle 4096 0).events.length ∧
    (2 ^ 63 + 0x200000 : Word).getLsbD 63 = true ∧ (0 : Word).getLsbD 63 = false ∧
    (∀ z, z ∈ ([] : List Plat) ↔
      ∃ q < 16, ∃ j < 32, ¬(q = 0 ∧ j = 0) ∧ ((hosted .idle 0 0).plat q j).en = true ∧ z = (hosted .idle 0 0).plat q j) ∧
    (hosted .idle 0 0).platOk 0 { (hosted .idle 0 0).plat 0 0 with win := setBit (2 ^ 63 + 0x200000) 62 false } [] = true ∧
    (hosted .idle 0 0).platOk 0 { (hosted .idle 0 0).plat 0 0 with win := setBit (2 ^ 63 + 1) 62 false } [] = false ∧
    ((hosted .idle 0 0).part 0).pkill.getLsbD 63 = false ∧ ((hosted .idle 0 (2 ^ 63)).part 0).pkill.getLsbD 63 = true ∧
    (let v : Word := 2 ^ 63 + 2 ^ 62 + 0x0C0000
     v.getLsbD 63 = true ∧ ((hosted .idle 0 0).ctx (v.extractLsb' 0 10).toNat).part = 0 ∧
       ((hosted .idle 0 0).ctx (v.extractLsb' 0 10).toNat).state ≠ .free ∧
       v.extractLsb' 16 8 = 0x0C ∧ v.extractLsb' 24 38 = 0 ∧ v.extractLsb' 10 6 = 0) ∧
    ((hosted .free 0 0).ctx 0).state = .free ∧ ((hosted .idle 0 0).plat 0 0).en = false ∧
    (((hosted .idle 0 0).setPlat 0 0 ⟨2 ^ 63, 0, 0, 0⟩).plat 0 0).en = true := by
  refine ⟨by decide +kernel, by decide +kernel, by decide +kernel, by decide +kernel, by decide +kernel, no_others (by decide +kernel), by decide +kernel⟩

/-- The event that station core 0 takes or runs. -/
def anEvent : Event := ⟨1, 0, 0, Vector.replicate 6 0⟩

/-- A package whose image runs, with events in the queue and held, and station core 0 changed. -/
def booted (es hs : List Event) (f : Station → Station) : State :=
  { State.reset.updStation 0 f with bootstat := 2 ^ 31, events := es, heldEvents := hs }

theorem met_StationEvents :
    (∀ hs ∈ [[], [anEvent]], let s := booted [anEvent] hs id
     s.bootstat.getLsbD 31 = true ∧ (s.station 0).event = none ∧ (s.station 0).fenced = false ∧ s.events[0]? = some anEvent ∧
       s.keyHeld anEvent.lockKey = false ∧ s.heldEvents = hs ∧ ∀ p < 16, (s.part p).mboxHeld = none) ∧
    (let s := booted [⟨1, 0, 1, Vector.replicate 6 0⟩, anEvent] [] id
     let t := s.updStation 1 fun t => { t with event := some ⟨1, 0, 1, Vector.replicate 6 0⟩ }
     t.events[1]? = some anEvent ∧ t.keyHeld anEvent.lockKey = false ∧
       ∀ j < 1, ∀ x, t.events[j]? = some x → t.keyHeld x.lockKey = true) ∧
    ((booted [anEvent] [] fun t => { t with event := some anEvent }).station 0).event.isSome = true ∧
    ((booted [anEvent] [] fun t => { t with fenced := true }).station 0).fenced = true ∧ State.reset.bootstat.getLsbD 31 = false ∧
    (∀ e ∈ (booted [] [] id).events, (booted [] [] id).keyHeld e.lockKey = true) ∧
    (∀ n ∈ [0, 1, 2], let s : State := { booted [] [] fun t => { t with event := some anEvent, fails := n } with cur := .station 0 }
     (s.station 0).event = some anEvent ∧ (s.station 0).fails = n ∧ s.cur = .station 0) ∧
    anEvent.part = (0 : BitVec 4).toNat ∧ (∀ m < 12, ((hosted .idle 0 0).station m).event.isNone = true) ∧
    ((hosted .idle 0 0).ctx 0).state ≠ .running ∧ ((hosted .running 0 0).ctx 0).state = .running ∧
    (hosted .running 0 0).events.length < 4096 ∧ 4096 ≤ (hosted .running 4096 0).events.length ∧
    ((hosted .running 4096 0).ctx 0).state = .running ∧ ((hosted .running 0 0).ctx 0).part = (0 : BitVec 4).toNat := by
  refine ⟨?_, ⟨by decide +kernel, by decide +kernel, ?_⟩, by decide +kernel, by decide +kernel, by decide +kernel, by decide +kernel, ?_,
    by decide, by decide +kernel⟩
  · simp only [List.forall_mem_cons]; refine ⟨?_, ?_, nofun⟩ <;> decide +kernel
  · intro j hj x hx
    obtain rfl : j = 0 := by omega
    obtain rfl : x = ⟨1, 0, 1, Vector.replicate 6 0⟩ := (Option.some.inj hx).symm
    decide +kernel
  · simp only [List.forall_mem_cons]; refine ⟨?_, ?_, ?_, nofun⟩ <;> decide +kernel

/-- Stream A with a remote request, answered or not, that it waits for or not; no mark stands. -/
def asks (k : RemoteKind) (a : Option Nat) : RemoteReq := ⟨0, k, 1, 0, 64, 8, true, 0, 0, a, [], [], false⟩
def remote (k : RemoteKind) (a : Option Nat) (w : Option WaitFor) : State := streamIn fun t => { t with remote := [asks k a], waiting := w }

theorem met_RemoteAnswers : State.reset.holder 0 = none ∧
    ((remote (.store false) (some 1) none).holder 0 = some (0, .A, asks (.store false) (some 1)) ∧ (asks (.store false) (some 1)).answer ≠ none) ∧
    (∀ k ∈ [RemoteKind.load 4 false false none, .load 4 false false (some (4, 0)), .atom .add 4 false, .vload 3 false, .store false,
        .line false false 5 0, .copy 5, .coll 5], ∀ w ∈ [none, some (WaitFor.remoteAnswer 0)],
      (remote k none w).holder 0 = some (0, .A, asks k none) ∧ (asks k none).answer = none ∧
        (((remote k none w).strm 0 .A).waiting == some (.remoteAnswer 0)) = w.isSome) := by
  refine ⟨by decide +kernel, by decide +kernel, ?_⟩
  simp only [List.forall_mem_cons]
  refine ⟨?_, ?_, ?_, ?_, ?_, ?_, ?_, ?_, nofun⟩ <;> exact ⟨by decide +kernel, by decide +kernel, nofun⟩

/-- A collective's request, the group with a member in another package, or not. -/
def collAsks (t : Word) : State :=
  (collecting2 t [0] [collG (sumAt 64 1) true ⟨none, 0⟩] [] []).updStrm 0 .A fun u => { u with remote := [asks (.coll 5) none] }

/-- A stream without a journal has nothing to put back. -/
theorem nothing_undone {s : State} {c : Nat} {k : StreamId} (h : ((s.strm c k).journal.isEmpty) = true) :
    s.undoAll (s.journals [(c, k)]) = .ok s := by
  simp [State.journals, List.isEmpty_iff.mp h, State.undoAll]

theorem met_RemoteFailures :
    (∀ k ∈ [RemoteKind.load 4 false false none, .load 4 false false (some (4, 0)), .atom .add 4 false, .vload 3 false, .store false,
        .line false false 5 0, .line false false 0 0, .line true true 5 0, .copy 5],
      (remote k none none).holder 0 = some (0, .A, asks k none) ∧ (remote k none none).clocked 0 = true) ∧
    (let r : RemoteReq := { asks (.load 4 false false (some (4, 0))) none with first := true }
     let s := streamIn fun t => { t with remote := [r] }
     let u := (s.cutBack 0 .A).strm 0 .A
     s.undoAll (s.journals [(0, .A)]) = .ok s ∧ s.holder 0 = some (0, .A, r) ∧
     u.trapvec ≠ 0 ∧ tcauseIn u.tcause = false ∧ (s.cutBack 0 .A).lineTrouble ((s.cutBack 0 .A).slotLine 0 u.trapvec) = false ∧
       ({ s.cutBack 0 .A with cur := .stream 0 .A } : State).codeOk u.trapvec = true ∧
       r.markQueue .A = some 4 ∧ (((s.cutBack 0 .A).core 0).dq.getD 4 dqReset).closed = false ∧
       (((s.cutBack 0 .A).core 0).dq.getD 4 dqReset).again = false) ∧
    (let s := (remote (.store false) none none).updStrm 0 .A fun t => { t with trapvec := 0 }
     ((s.cutBack 0 .A).strm 0 .A).trapvec = 0 ∧ (s.cutBack 0 .A).ctxOf 0 = s.ctxOf 0) ∧
    (∀ t ∈ [tier1, tierD], (collAsks t).holder 0 = some (0, .A, asks (.coll 5) none) ∧ (collAsks t).clocked 0 = true ∧
      (collAsks t).collHasPeers 0 5 = (t == tierD)) := by
  refine ⟨?_, ⟨nothing_undone (by decide +kernel), by decide +kernel⟩, by decide +kernel, ?_⟩
  · simp only [List.forall_mem_cons]
    refine ⟨?_, ?_, ?_, ?_, ?_, ?_, ?_, ?_, ?_, nofun⟩ <;> decide +kernel
  · simp only [List.forall_mem_cons]
    refine ⟨?_, ?_, nofun⟩ <;> decide +kernel

/-- Partition 0 exports a window of 64 KiB from 1 MiB on to key 5. -/
def exporting : State :=
  State.reset.updPart 0 fun p => { p with phbm := 1, accept := [5], expbase := 0x100000, expsize := 1 }

theorem met_Incoming :
    exporting.exporter 6 0 (inSize (.load 8)) = none ∧ exporting.exporter 5 65536 (inSize (.load 8)) = none ∧
    (∀ op ∈ [InOp.load 8, .store [1, 2, 3, 4, 5, 6, 7, 8], .atom .add true 1 0],
      exporting.exporter 5 0 (inSize op) = some 0 ∧ 0 < inSize op ∧
      (let pa := (exporting.part 0).expbase + 0
       let lines := cutLines (BitVec.ofNat 64 pa) (inSize op) (inSize op)
       (∀ e ∈ lines, exporting.pinnedOutside (e.y.toNat / 64) = false) ∧
       (∃ e ∈ lines, ({ exporting with pins := [⟨0x4000, 0, .A, [(.core, 0)]⟩] } : State).pinnedOutside (e.y.toNat / 64) = true) ∧
       pa % 64 + inSize op ≤ 64 ∧ pa < 2 ^ 51 ∧ exporting.isLost (pa / 64) = false ∧ (exporting.l2At (pa / 64)).isNone = true ∧
       (exporting.l2.filter fun x => x.2.slice == exporting.sliceFor (pa / 64) &&
         x.2.way == exporting.wayFor (exporting.sliceFor (pa / 64)) (pa / 64)).length < 16384) ∧
      (match exporting.inPerform 0x100000 op with | .ok _ => true | .error _ => false) = true ∧
      (match (lostAt exporting 0x4000).inPerform 0x100000 op with | .ok _ => true | .error _ => false) = false) := by
  refine ⟨by decide +kernel, by decide +kernel, ?_⟩
  simp only [List.forall_mem_cons]
  refine ⟨?_, ?_, ?_, nofun⟩ <;> decide +kernel

/-- Partition 0 READY with the first pair of HBM's stack 0 and cluster 0, and a context of it. -/
def readied : State := (hosted .idle 0 0).updPart 0 fun p => { p with pstat := 2, pclu := 1 }

theorem met_PackageEvents :
    ((1 : BitVec 2) = 1 ∨ (1 : BitVec 2) = 2) ∧ State.reset.bootstat.getLsbD 31 = false ∧ 1 ≤ (5 : BitVec 8).toNat ∧ (5 : BitVec 8).toNat ≤ 5 ∧
    (booted [] [] id).bootstat.getLsbD 31 = true ∧ readied.events.length + 16 ≤ 4096 ∧ (readied.part 0).pstat = 2 ∧
    (∃ j < 16, (readied.part 0).phbm.getLsbD (16 * 0 + j) = true) ∧ (readied.ctx 0).part = 0 ∧ (readied.ctx 0).state ≠ .free ∧
    ({ State.reset with portFenced := 1 } : State).portFenced.getLsbD 0 = true ∧ State.reset.portFenced.getLsbD 0 = false ∧
    (State.reset.cluster 0).owners = [] ∧ ((State.reset.updCluster 0 fun c => { c with owners := [(0, ⟨1, 0, 0⟩)] }).cluster 0).owners ≠ [] ∧
    (let s : State := { readied with coreMap := State.reset.coreMap.set 0 0x80 }
     (s.coreMap.getD 0 0).getLsbD 7 = true ∧ ((s.coreMap.getD 0 0).setWidth 5).toNat ∉ (s.die (0 / 16)).broken ∧
       ((s.coreMap.getD 0 0).setWidth 5).toNat ∈ ((s.updDie 0 fun d => { d with broken := [0] }).die (0 / 16)).broken) ∧
    (readied.part 0).pclu.getLsbD 0 = true ∧ (∀ q < 16, q ≠ 0 → (readied.part q).pclu.getLsbD 0 = false) :=
  ⟨by decide, by decide +kernel, by decide, by decide, by decide +kernel, by decide +kernel, by decide +kernel, ⟨0, by decide, by decide +kernel⟩,
    by decide +kernel⟩

/-- Cluster 0 on a physical cluster, which has failed or not, a context of it RUNNING or not. -/
def mapped (broken : List Nat) (st : CtxState) : State :=
  { (((hosted st 0 0).updDie 0 fun d => { d with broken := broken }).updCluster 0 fun c => { c with owners := [(0, ⟨1, 0, 0⟩)] }) with
    coreMap := State.reset.coreMap.set 0 0x80, bootstat := 2 ^ 31 }

/-- A partition with a slot table at 64 KiB, and a kernel of it on slot 3. -/
def slotted (ks : List Kernel) : State :=
  { (hosted .idle 0 0).updPart 0 fun p => { p with slotTable := 0x10000 } with bootstat := 2 ^ 31, kernels := ks }

theorem met_BringUpEvents :
    State.reset.bootstat.getLsbD 31 = false ∧ (booted [] [] id).bootstat.getLsbD 31 = true ∧
    ((mapped [] .idle).physFor 0 = some 0 ∧ (mapped [0] .idle).physFor 0 = some 1 ∧
      (let s : State := { (State.reset.updDie 0 fun d => { d with broken := List.range 32 }) with bootstat := 2 ^ 31 }
       s.physFor 0 = none)) ∧
    (∀ st ∈ [CtxState.saved, .running], ((mapped [0] st).coreMap.getD 0 0).getLsbD 7 = true ∧
      (mapped [0] st).coreMap.getD 0 0 ≠ BitVec.ofNat 8 (128 + 1) ∧ (mapped [0] st).cluQuiet 0 = (st == .saved)) ∧
    (State.reset.ctx 5).state = .free ∧ 65 % 64 ≠ 0 ∧ 2 ^ 24 < 2 ^ 25 ∧
    ((hosted .idle 0 0).ctx 0).state ≠ .free ∧ ((hosted .idle 0 0).ctx 0).part = 0 ∧ ((hosted .idle 0 0).ctx 0).queues.getD 0 none = none ∧
    (hosted .idle 0 0).queue? 0 5 = none ∧
    (0x10000 % 64 = 0 ∧ (slotted []).ownsRange 0 0x10000 (64 * 4096) = true ∧ (∀ k ∈ (slotted []).kernels, k.part ≠ 0) ∧
      ¬∀ k ∈ (slotted [kern]).kernels, k.part ≠ 0) ∧
    (let s := slotted []
     let pa := (s.part 0).slotTable + 64 * 3
     (¬∃ k ∈ s.kernels, k.part = 0 ∧ k.slot = 3) ∧ (∃ k ∈ (slotted [{ kern with slot := 3 }]).kernels, k.part = 0 ∧ k.slot = 3) ∧
       (s.part 0).slotTable ≠ 0 ∧ ((hosted .idle 0 0).part 0).slotTable = 0 ∧ (List.replicate 64 (0 : Byte)).length = 64 ∧
       (s.physBytes pa 64).length = 64 ∧ pa % 64 = 0 ∧ pa < 2 ^ 51 ∧ s.isLost (pa / 64) = false ∧ hasRoom s (pa / 64) ∧
       (s.l2At (pa / 64)).isNone = true) ∧
    polProgramOk [] = false ∧ polProgramOk [0x0C000000] = true := by
  refine ⟨by decide +kernel, by decide +kernel, by decide +kernel, ?_, by decide +kernel, by decide, by decide, by decide +kernel,
    by decide +kernel, by decide +kernel, by decide +kernel, by decide +kernel, ?_, by decide, by decide⟩
  · simp only [List.forall_mem_cons]; refine ⟨?_, ?_, nofun⟩ <;> decide +kernel
  · unfold hasRoom; decide +kernel

theorem met_StepKeepsWellFormed : (State.reset.withFetchWord 48 0x040014800000).Wf ∧
    ∃ t, step (State.reset.withFetchWord 48 0x040014800000) = .next t := by
  refine ⟨by unfold State.Wf; decide +kernel, ?_⟩
  have h : (match step (State.reset.withFetchWord 48 0x040014800000) with | .next _ => true | .fault _ => false | .refused _ => false) = true := by
    decide +kernel
  cases hs : step (State.reset.withFetchWord 48 0x040014800000) with
  | next t => exact ⟨t, rfl⟩
  | fault _ => rw [hs] at h; exact absurd h Bool.false_ne_true
  | refused _ => rw [hs] at h; exact absurd h Bool.false_ne_true

/-- Station core 0 about to fetch a word at 0, and its move. -/
def stationed (w : IWord) : State :=
  { State.reset.updStation 0 fun t => { t with event := some anEvent } with
    hbm := memPuts [] 0 (leBytes 6 w.toNat), moves := [.station 0] }

/-- ADD x4, x1, x2. -/
def addWord : IWord := 0x01#6 ++ 0#6 ++ 4#6 ++ 1#6 ++ 2#6 ++ 0#6 ++ 0#3 ++ 0#1 ++ 0#8
/-- LIL x9, 0xABCD123456789ABC: the first of its two words. -/
def lilWord : IWord := 0x07#6 ++ 0#6 ++ 9#6 ++ 0#6 ++ 0#3 ++ 0#1 ++ 0#4 ++ 0xABCD#16

/-- Core 0's stream A about to fetch a word and the one after it. -/
def fetching (w w1 : IWord) : State :=
  { withStrm .A fun t => { t with hart := { t.hart with pc := 0 } } with
    hbm := memPuts (State.reset.withFetchWord 48 addWord.toNat).hbm 0x1000 (leBytes 12 (2 ^ 48 * w1.toNat + w.toNat)),
    moves := [.stream 0 .A false] }

/-- FORK's first word with an x register that is not zero: a reserved field. -/
def forkWord : IWord := 0x0A#6 ++ 0#6 ++ 63#6 ++ 63#6 ++ 63#6 ++ 63#6 ++ 0#3 ++ 0#1 ++ 0xFF#8

theorem met_StepRuns :
    (∀ s ∈ [fetching addWord 0, fetching lilWord 0x123456789ABC, fetching 0 0], s.moves = .stream 0 .A false :: [] ∧ s.clocked 0 = true ∧
      (s.strm 0 .A).active = true) ∧
    (∀ s ∈ [fetching addWord 0, fetching lilWord 0x123456789ABC, fetching 0 0, fetching forkWord 0],
      let s1 := acting s (.stream 0 .A) false []
      ∀ x ∈ s1.codeLines s1.pc ++ s1.codeLines (s1.pcAfter 1), s1.lineTrouble x.1 = false) ∧
    (∃ a, (acting { fetching addWord 0 with badHbm := [0x40] } (.stream 0 .A) false []).lookUnit = .error a) ∧
    (∃ a, (acting (lostAt (fetching addWord 0) 0x40) (.stream 0 .A) false []).lookUnit = .error a) ∧
    decodesTo (acting (fetching addWord 0) (.stream 0 .A) false []) (.add G 4 1 2) ∧
    decodesTo (acting (fetching lilWord 0x123456789ABC) (.stream 0 .A) false []) (.lil G 9 0xABCD123456789ABC) ∧
    ((acting (fetching 0 0) (.stream 0 .A) false []).fetchAt (acting (fetching 0 0) (.stream 0 .A) false []).pc = .ok 0 ∧
      decodeIn (.stream .A) 0 0 = .error .allZeros) ∧
    (let s := acting (fetching forkWord 0) (.stream 0 .A) false []
     s.fetchAt s.pc = .ok forkWord ∧ decodeIn s.role forkWord 0 = .error .reserved ∧
       s.unassignedNow (wordMaj forkWord) (wordMin forkWord) = true) ∧
    ({ base .A with powered := false } : State).clocked 0 = false ∧
        (((base .A).updStrm 0 .A fun t => { t with st := .idle }).strm 0 .A).active = false ∧
    ((stationed addWord).moves = .station 0 :: [] ∧ (stationed addWord).powered = true ∧ ((stationed addWord).station 0).event.isSome = true ∧
      ((stationed addWord).station 0).fenced = false ∧ decodesTo (acting (stationed addWord) (.station 0) false []) (.add G 4 1 2) ∧
      (let s1 := acting (stationed addWord) (.station 0) false []
       ∀ x ∈ s1.codeLines s1.pc ++ s1.codeLines (s1.pcAfter 1), s1.lineTrouble x.1 = false)) ∧
    ¬(State.reset.powered = true ∧ (State.reset.station 0).event.isSome = true ∧ (State.reset.station 0).fenced = false) ∧
    (Instr.evPowerOn).enc = .none ∧ ({ State.reset with powered := false } : State).powered = false ∧ Instr.evCoolantOverlimit ≠ .evPowerOn := by
  refine ⟨?_, ?_, err_of (by decide +kernel), err_of (by decide +kernel),
    ⟨addWord, is_of (by decide +kernel), .inl ⟨by decide, is_of (by decide +kernel)⟩⟩,
    ⟨lilWord, is_of (by decide +kernel), .inr ⟨by decide, ok_of (by decide +kernel), 0x123456789ABC, is_of (by decide +kernel),
      is_of (by decide +kernel)⟩⟩, ⟨is_of (by decide +kernel), by decide +kernel⟩,
    ⟨is_of (by decide +kernel), by decide +kernel⟩, by decide +kernel, by decide +kernel,
    ⟨by decide +kernel, by decide +kernel, by decide +kernel, by decide +kernel, ⟨addWord, is_of (by decide +kernel),
      .inl ⟨by decide, is_of (by decide +kernel)⟩⟩, by decide +kernel⟩, by decide +kernel, by decide, by decide +kernel, by decide⟩
  · simp only [List.forall_mem_cons]
    refine ⟨?_, ?_, ?_, nofun⟩ <;> decide +kernel
  · simp only [List.forall_mem_cons]
    refine ⟨?_, ?_, ?_, ?_, nofun⟩ <;> decide +kernel

/-- The decode checks' conditions: a MAJ of each kind, and a role of each kind. -/
theorem met_DecodeChecks : addWord ≠ 0 ∧ addWord ≠ BitVec.allOnes 48 ∧ decodeIn .station addWord 0 = .ok (.add G 4 1 2) ∧
    0x1D ≤ ((0x1D#6 ++ 0#42 : IWord).extractLsb' 42 6).toNat ∧ ((0x1F#6 ++ 0#42 : IWord).extractLsb' 42 6).toNat ≤ 0x1F ∧
    0x33 ≤ ((0x33#6 ++ 0#42 : IWord).extractLsb' 42 6).toNat ∧ ((0x30#6 ++ 0#42 : IWord).extractLsb' 42 6).toNat = 0x30 ∧
    ((0x28#6 ++ 0#42 : IWord).extractLsb' 42 6).toNat = 0x28 := by decide +kernel

theorem met_DecodeAndEncodeAgree : (Instr.add G 4 1 2).wf = true ∧ decode addWord 0 = .ok (.add G 4 1 2) := by decide +kernel


/-! ## Hypotheses that can be met: lines lost or poisoned, views, marks, open lists -/

/-- A state with a line of home memory resident and poisoned. -/
def poisonAt (s : State) (l : Nat) : State := { s with l2 := [(l, ⟨0, false, 0, true, 0, 3, .none, true⟩)] }

/-- The line of a slot entry lost, or poisoned. -/
def lostLine (s : State) (l : Nat) : Prop := s.isLost l = true
def poisonLine (s : State) (l : Nat) : Prop := s.isLost l = false ∧ ∃ x, s.l2At l = some x ∧ x.inj = .none ∧ x.poisoned = true

theorem lost_of {s : State} {l : Nat} (h : s.isLost l = true) : lostLine s l := h
theorem poison_of {s : State} {l : Nat}
    (h : (!s.isLost l && (match s.l2At l with | some x => x.inj == .none && x.poisoned | none => false)) = true) : poisonLine s l := by
  simp only [Bool.and_eq_true, Bool.not_eq_true'] at h
  refine ⟨h.1, ?_⟩
  cases hx : s.l2At l with
  | none => rw [hx] at h; exact absurd h.2 Bool.false_ne_true
  | some x => rw [hx] at h; simp only [Bool.and_eq_true, beq_iff_eq] at h; exact ⟨x, rfl, h.2.1, h.2.2⟩

/-- TRAPVEC's slot entry in a whole, a lost and a poisoned line; a TRAPVEC past the object's end. -/
theorem met_TrapvecLines :
    (base .A).lineTrouble ((base .A).slotLine 0 ((base .A).strm 0 .A).trapvec) = false ∧
    (∀ s ∈ [lostAt (base .A) 0, poisonAt (base .A) 0], s.cur = .stream 0 .A ∧ (s.strm 0 .A).trapvec ≠ 0 ∧
      (s.strm 0 .A).tcause.getLsbD 63 = false) ∧
    lostLine (lostAt (base .A) 0) ((lostAt (base .A) 0).slotLine 0 ((lostAt (base .A) 0).strm 0 .A).trapvec) ∧
    poisonLine (poisonAt (base .A) 0) ((poisonAt (base .A) 0).slotLine 0 ((poisonAt (base .A) 0).strm 0 .A).trapvec) ∧
    (let s := withStrm .A fun t => { t with trapvec := 2 }
     s.lineTrouble (s.slotLine 0 (s.strm 0 .A).trapvec) = false ∧ s.codeOk (s.strm 0 .A).trapvec = false) := by
  refine ⟨by decide +kernel, ?_, lost_of (by decide +kernel), poison_of (by decide +kernel), by decide +kernel⟩
  simp only [List.forall_mem_cons]
  refine ⟨?_, ?_, nofun⟩ <;> decide +kernel

/-- A target that a transfer reaches; and one whose slot entry lies in a lost or a poisoned line, with a link to it, marked or not, and a bit. -/
theorem met_Targets :
    reaches (base .A) 0 1 ∧ reaches (base .A) 0 (wordsOn (base .A).pc 1) ∧ reaches (linked 1 false) 0 1 ∧ reaches (linked 1 true) 0 1 ∧
    reaches (bitQueued true) 0 (wordsOn (bitQueued true).pc 1) ∧ reaches (levels 3 0 .closed) 0 (wordsOn (levels 3 0 .closed).pc 1) ∧
    ((base .A).lineTrouble ((base .A).slotLine 0 2) = false ∧ ¬acceptable (base .A) 0 2) ∧
    (∀ s ∈ [base .A, linked 1 false, linked 1 true, bitQueued true], lostLine (lostAt s 0) ((lostAt s 0).slotLine 0 1) ∧
      poisonLine (poisonAt s 0) ((poisonAt s 0).slotLine 0 1) ∧ (lostAt s 0).clear G [1] ∧ (poisonAt s 0).clear G [1] ∧
      (lostAt s 0).begins G [1] [1] [1] (lostAt s 0) ∧ (poisonAt s 0).begins G [1] [1] [1] (poisonAt s 0)) := by
  unfold reaches acceptable
  refine ⟨by decide +kernel, by decide +kernel, by decide +kernel, by decide +kernel, by decide +kernel, by decide +kernel,
    by decide +kernel, ?_⟩
  simp only [List.forall_mem_cons]
  refine ⟨?_, ?_, ?_, ?_, nofun⟩ <;> exact ⟨lost_of (by decide +kernel), poison_of (by decide +kernel), clear_of (by decide +kernel),
    clear_of (by decide +kernel), begins_plain (by decide +kernel), begins_plain (by decide +kernel)⟩

/-- RETC on an empty stack, on an entry without the mark, and to another address. -/
theorem met_RetcRefusals : (base .A).hart.shadow = [] ∧ (base .A).begins G [1] [3] [1] (base .A) ∧
    (linked 1 false).hart.shadow = setBit 1 63 false :: [] ∧ (linked 1 false).begins G [1] [3] [1] (linked 1 false) ∧
    (setBit 1 63 true : Word).getLsbD 63 = true ∧ (linked 1 true).begins G [2] [3] [2] (linked 1 true) ∧
        setBit (setBit 1 63 true) 63 false ≠ (2 : Word) :=
  ⟨by decide +kernel, begins_plain (by decide +kernel), by decide +kernel, begins_plain (by decide +kernel), by decide,
    begins_plain (by decide +kernel), by decide⟩

/-- RPT over ADD that begins, its count in x1. -/
def countedBy (v : Word) : State := (looped G 0 0 false).updStrm 0 .A fun t => { t with hart := { t.hart with x := t.hart.x.set 1 v } }

theorem met_RepetitionStart : ∀ v ∈ [(1 : Word), 2, 70000], (countedBy v).cur = .stream 0 .A ∧
    (∃ w, (countedBy v).fetchAt ((countedBy v).pcAfter 1) = .ok w ∧ decodeGoverned (countedBy v).role 1 1 1 0 w = .ok (.add G 4 1 2)) ∧
    prcAct (countedBy v).hart.prc = false ∧ (countedBy v).hart.rptOn = false ∧ (countedBy v).begins G [1] [] [v] (countedBy v) ∧ v ≠ 0 ∧
    (countedBy v).guardOn G = true ∧
    ∀ r ∈ [(4 : XReg), 1, 2], r.toNat < (countedBy v).allotOf ∧ r.toNat < 56 ∧ (countedBy v).regBusy r = false := by
  simp only [List.forall_mem_cons]
  refine ⟨?_, ?_, ?_, nofun⟩ <;> exact ⟨by decide +kernel, ok_then (by decide +kernel), by decide +kernel, by decide +kernel,
    begins_plain (by decide +kernel), by decide, by decide +kernel, by decide +kernel⟩

/-- What a word of a load or an atomic asks when no answer is awaited, of a register and of queue 4; and an answer awaited or there. -/
theorem met_Awaited : (mem .A false).awaited = none ∧ (mem .A true).awaited = none ∧ (memAt 4).awaited = none ∧ (memAt 4).port? 3 = none ∧
    (∀ a ∈ [none, some 9], let r : RemoteReq := ⟨0, .load 4 false true none, 8, 0x50004, 4, 4, true, 7, 0, a, [], [], false⟩
      let s := farAtom [r] (some (.remoteAnswer 0))
      s.awaited = some r ∧ s.begins G [1] [4] [1] s ∧ s.resolve false 1 1 = .ok (.global 1)) ∧
    (let r : RemoteReq := ⟨0, .load 60 false true (some (4, 0)), 8, 0x50004, 4, 4, true, 7, 0, some 9, [], [], false⟩
     let s := (farAtom [r] (some (.remoteAnswer 0))).setDq 4 { dqReset with entries := [.reserved 0] }
     s.awaited = some r ∧ s.begins G [1] [60] [1] s ∧ s.port? 60 = some 4 ∧ s.port? 1 ≠ some 4) ∧
    (∀ a ∈ [none, some 9], let r : RemoteReq := ⟨0, .atom .add 3 true, 8, 0x50004, 4, 4, true, 7, 0, a, [], [], false⟩
      let s := farAtom [r] (some (.remoteAnswer 0))
      s.awaited = some r ∧ s.begins G (atomSources .add 3 1 2) [3] (atomValues .add 1 2 3) s) := by
  refine ⟨by decide +kernel, by decide +kernel, by decide +kernel, by decide +kernel, ?_,
    ⟨by decide +kernel, begins_plain (by decide +kernel), by decide +kernel⟩, ?_⟩ <;> simp only [List.forall_mem_cons]
  · refine ⟨?_, ?_, nofun⟩ <;> exact ⟨by decide +kernel, begins_plain (by decide +kernel), is_of (by decide +kernel)⟩
  · refine ⟨?_, ?_, nofun⟩ <;> exact ⟨by decide +kernel, begins_plain (by decide +kernel)⟩

theorem far_at (w : Bool) : farMem.locate farMem.curCl farMem.curCtx 1 w = .ok (.remote 8 0x50001, farMem) :=
  locate_remote (e := ⟨0, 0, 65536, 2 ^ 50 + 8 * 2 ^ 40 + 0x50000, true, true, false⟩) (by cases w <;> decide +kernel)
    (by cases w <;> decide +kernel)

/-- A remote page: a load to a register and to queue 4, a store, also while collecting. -/
theorem met_RemoteAccesses : farMem.begins G [1] [4] [1] farMem ∧ farMem.begins G [1] [60] [1] farMem ∧ farMem.begins G [1, 2] [] [1, 2] farMem ∧
    farMem.me.waiting = none ∧ farMem.port? 4 = none ∧ farMem.port? 60 = some 4 ∧ farMem.collecting = false ∧
    (∀ w, farMem.locate farMem.curCl farMem.curCtx 1 w = .ok (.remote 8 0x50001, farMem)) ∧ 8 ≠ farMem.pkgId.toNat ∧
    (farMem.part farMem.curPart).ownKey.isSome = true ∧ farMem.remoteRoom 0 .A 8 false = true ∧
    farMem.pinnedFor farMem.party ((Loc.remote 8 0x50001).key / 64) = false ∧ domainScope (farMem.effScope .system 0 0) = true ∧
    (farMem.dqOf 4).closed = false ∧ (farMem.dqOf 4).entries = [] ∧ (farMem.dqOf 4).pops ≤ (farMem.dqOf 4).pushes ∧
    mayRelease farMem (stCls .weak .system) ∧ mayRelease farMem (stCls .release .system) ∧
    farMem.guardStore farMem.curCl farMem.curCtx false 1 1 1 = .ok () ∧
    (let s := farMem.updStrm 0 .A fun t => { t with lists := { t.lists with opened := [1] } }
     s.begins G [1, 2] [] [1, 2] s ∧ s.collecting = true ∧ s.locate s.curCl s.curCtx 1 true = .ok (.remote 8 0x50001, s) ∧
       s.guardStore s.curCl s.curCtx false 1 1 1 = .ok ()) :=
  ⟨begins_plain (by decide +kernel), begins_plain (by decide +kernel), begins_plain (by decide +kernel), by decide +kernel, by decide +kernel,
    by decide +kernel, by decide +kernel, far_at, by decide +kernel, by decide +kernel, by decide +kernel, by decide +kernel, by decide +kernel,
    by decide +kernel, by decide +kernel, by decide +kernel, nofun, fun _ h => Option.some.inj h ▸ by decide +kernel,
    guard_free (by decide +kernel) (by decide +kernel), begins_plain (by decide +kernel), by decide +kernel,
    locate_remote (e := ⟨0, 0, 65536, 2 ^ 50 + 8 * 2 ^ 40 + 0x50000, true, true, false⟩) (by decide +kernel) (by decide +kernel),
    guard_free (by decide +kernel) (by decide +kernel)⟩

/-- List 0 open, its entry holding byte 0x40: a load of that byte, and one of the next, which no list holds; and loads in tile space. -/
def collectsAt (x : Word) : State := listed x 2 0 fun l => { l with opened := [0], slots := l.slots.set 0 ⟨1, .opened⟩ }

theorem collects_wf (x : Word) (h : x ∈ [(0x40 : Word), 0x41]) : (collectsAt x).Wf := by
  simp only [List.mem_cons, List.not_mem_nil, or_false] at h
  unfold State.Wf; rcases h with rfl | rfl <;> decide +kernel

theorem met_CollectingLoads : ∀ x ∈ [(0x40 : Word), 0x41], (collectsAt x).Wf ∧ (collectsAt x).cur = .stream 0 .A ∧
    (collectsAt x).collecting = true ∧ (collectsAt x).begins G [1] [4] [x] (collectsAt x) ∧ (collectsAt x).port? 4 = none ∧
    (collectsAt x).awaited = none ∧ (collectsAt x).resolve false x 1 = .ok (.global x.toNat) ∧
    (collectsAt x).locate (collectsAt x).curCl (collectsAt x).curCtx x.toNat false = .ok (.home (0x100000 + x.toNat), collectsAt x) ∧
    (collectsAt x).arenaAll = .ok ([e0], collectsAt x) ∧
    ((fromLists [e0] (collectsAt x).me.lists.opened x.toNat).isSome = true ↔ x = 0x40) ∧
    usable (collectsAt x) x.toNat (0x100000 + x.toNat) ∧ unraced (collectsAt x) (0x100000 + x.toNat) .plain false ∧
    (collectsAt x).late = false ∧ (collectsAt x).resolve true x 1 = .ok (.tile x.toNat) ∧
    (collectsAt x).storeBad (collectsAt x).curCl x.toNat 1 = false ∧ unpinnedTile (collectsAt x) x.toNat := by
  intro x hx
  have h := hx
  simp only [List.mem_cons, List.not_mem_nil, or_false] at h
  refine ⟨collects_wf x hx, ?_⟩
  unfold unpinnedTile
  rcases h with rfl | rfl <;>
    exact ⟨by decide +kernel, by decide +kernel, begins_plain (by decide +kernel), by decide +kernel, by decide +kernel, is_of (by decide +kernel),
      locate_hit (e := page0) (by decide +kernel) (by decide +kernel), listed_all (by decide +kernel) (by decide +kernel), by decide +kernel,
      usable_of (by decide +kernel), unraced_of (by decide +kernel), by decide +kernel, is_of (by decide +kernel), by decide +kernel,
      by decide +kernel⟩

/-- Stream A under a mark, its journal at 8 MiB, or with no area for one. -/
def marks (base : Nat) : State :=
  ((mem .A false).updStrm 0 .A fun t => { t with remote := [farStore] }).updCtx 0 fun c => { c with jbase := base }

/-- No slice holds a line as lost. -/
theorem none_lost {s : State} {l : Nat} (h : (s.slices.toList.all fun z => z.lost.isEmpty) = true) : s.isLost l = false := by
  simp only [List.all_eq_true, List.isEmpty_iff] at h
  simp only [State.isLost, ← Vector.any_toList, List.any_eq_false]
  intro x hx
  simp [h x hx]

theorem met_MarkedStores : (∀ b ∈ [0x800000, 0], (marks b).Wf ∧ (marks b).cur = .stream 0 .A ∧ (marks b).collecting = false ∧
      (marks b).begins G [1, 2] [] [1, 2] (marks b) ∧ (marks b).me.remote ≠ [] ∧ mayRelease (marks b) (stCls .weak .package) ∧
      (marks b).resolve true 1 1 = .ok (.tile 1) ∧ (marks b).guardStore (marks b).curCl (marks b).curCtx true 1 1 1 = .ok () ∧
      unpinnedTile (marks b) 1 ∧ (marks b).journalFull 0 .A = (b == 0)) ∧
    (marks 0x800000).l2.length + 4 ≤ 16384 ∧ (∀ l, (marks 0x800000).isLost l = false) ∧ (∀ l, (marks 0x800000).l2At l = none) ∧
    (marks 0x800000).resolve false 1 1 = .ok (.global 1) ∧
    (marks 0x800000).locate (marks 0x800000).curCl (marks 0x800000).curCtx 1 true = .ok (.home 0x100001, marks 0x800000) ∧
    (marks 0x800000).guardStore (marks 0x800000).curCl (marks 0x800000).curCtx false 1 1 1 = .ok () ∧
    usable (marks 0x800000) 1 0x100001 ∧ unraced (marks 0x800000) 0x100001 (stCls .weak .package) true := by
  have hl : (marks 0x800000).l2 = [] := by decide +kernel
  refine ⟨?_, by decide +kernel, fun l => ?_, fun l => by simp [State.l2At, hl], is_of (by decide +kernel),
    locate_hit (e := page0) (by decide +kernel) (by decide +kernel), guard_free (by decide +kernel) (by decide +kernel),
    usable_of (by decide +kernel), unraced_of (by decide +kernel)⟩
  · unfold State.Wf unpinnedTile
    simp only [List.forall_mem_cons]
    refine ⟨?_, ?_, nofun⟩ <;> exact ⟨by decide +kernel, by decide +kernel, by decide +kernel, begins_plain (by decide +kernel), by decide +kernel,
      nofun, is_of (by decide +kernel), guard_free (by decide +kernel) (by decide +kernel), by decide +kernel, by decide +kernel⟩
  · exact none_lost (by decide +kernel)

/-- A store into the open list 0, with room in its arena or none. -/
def appends (used : Nat) : State :=
  listed 1 2 0 fun l => { l with opened := [0], slots := l.slots.set 0 ⟨1, .opened⟩, used := used }

theorem met_CollectingStores : (∀ n ∈ [80, 4080], (appends n).Wf ∧ (appends n).cur = .stream 0 .A ∧ (appends n).collecting = true ∧
      (appends n).me.lists.opened = 0 :: [] ∧ (appends n).begins G [1, 2] [] [1, 2] (appends n) ∧
      (appends n).resolve false 1 1 = .ok (.global 1) ∧
      (appends n).locate (appends n).curCl (appends n).curCtx 1 true = .ok (.home 0x100001, appends n) ∧
      (appends n).guardStore (appends n).curCl (appends n).curCtx false 1 1 1 = .ok ()) ∧
    4096 * ((appends 4080).me.lists.arena.extractLsb' 0 16).toNat < (appends 4080).me.lists.used + 80 ∧
    (appends 80).me.lists.used + 80 ≤ 4096 * ((appends 80).me.lists.arena.extractLsb' 0 16).toNat ∧
    (∀ j < 64, (2 : BitVec 64).getLsbD j = decide (1 % 64 ≤ j ∧ j < 1 % 64 + 1)) ∧
    (∀ j < 64, (0x200 : BitVec 512).extractLsb' (8 * j) 8 =
      if 1 % 64 ≤ j ∧ j < 1 % 64 + 1 then (2 : Word).extractLsb' (8 * (j - 1 % 64)) 8 else 0) ∧
    (∃ s2, (appends 80).arenaPuts (appends 80).me.lists.used (entryWords ⟨0, BitVec.ofNat 64 (64 * (1 / 64)), 0, 2, 0x200⟩) = .ok s2) ∧
    (let s := (appends 80).updStrm 0 .A fun t => { t with lists := { t.lists with arena := 0 } }
     s.collecting = true ∧ s.me.remote = [] ∧ s.resolve true 1 1 = .ok (.tile 1) ∧ s.guardStore s.curCl s.curCtx true 1 1 1 = .ok () ∧
       unpinnedTile s 1) := by
  unfold unpinnedTile
  refine ⟨?_, by decide +kernel, by decide +kernel, by decide, by decide +kernel, ok_of (by decide +kernel), by decide +kernel, by decide +kernel,
    is_of (by decide +kernel), guard_free (by decide +kernel) (by decide +kernel), by decide +kernel⟩
  unfold State.Wf
  simp only [List.forall_mem_cons]
  refine ⟨?_, ?_, nofun⟩ <;> exact ⟨by decide +kernel, by decide +kernel, by decide +kernel, by decide +kernel, begins_plain (by decide +kernel),
    is_of (by decide +kernel), locate_hit (e := page0) (by decide +kernel) (by decide +kernel), is_of (by decide +kernel)⟩

/-- A release at system scope, and an XFENCE from the load/store path, with a remote store outstanding; FENCE on a station core. -/
theorem met_FencesWait : (far [farStore]).cur = .stream 0 .A ∧ (far [farStore]).guardOn G = true ∧ (far [farStore]).collecting = false ∧
    domainScope ((far [farStore]).effScope .system 0 0) = true ∧
    (∃ r ∈ (far [farStore]).me.remote, r.kind.isAccess = true ∧ (far [farStore]).me.waiting ≠ some (.remoteAnswer r.tag)) ∧
    (far [farStore]).me.loads = [] ∧
    (far [farStore]).me.remote.filter (fun r => r.kind.isAccess && (1 : BitVec 5).getLsbD (remotePath r.kind)) ≠ [] ∧
    stat.cur = .station 0 ∧ stat.guardOn G = true := by decide +kernel

/-- Only element 0 is enabled. -/
theorem only_on {s : State} {m : MReg} (h : s.mask m = 1) {e : Nat} (he : e < 1024 ∧ (s.mask m).getLsbD e = true) : e = 0 := by
  obtain ⟨-, he⟩ := he
  rw [h] at he
  simpa using he

/-- Bank 1 of the cluster in tile mode, not owned. -/
def unowned : State := (vmem 0x0100000000020000 64).updCluster 0 fun c => { c with modes := c.modes.set 1 .tile }

/-- An element past tile space; operands that pass the tile-space check, misaligned and aligned, the last in a bank that is not owned. -/
theorem met_VectorTileChecks :
    (let s := vmem 0x0100000000800000 64
     s.begins G [1, 2] [] [0x0100000000800000, 64] s ∧ noTile s (pitchAddr 0x0100000000800000 64 0) ∧ (s.mask 1).getLsbD 0 = true) ∧
    (∀ p ∈ [((0x0100000000000020 : Word), (64 : Word)), (0x0100000000000000, 32)], let s := vmem p.1 p.2
     s.begins G [1, 2] [] [p.1, p.2] s ∧ ∀ e, e < 1024 ∧ (s.mask 1).getLsbD e = true → ¬noTile s (pitchAddr p.1 p.2 e)) ∧
    (let z := pitchAddr 0x0100000000020000 64
     unowned.cur = .stream 0 .X ∧ unowned.begins G [1, 2] [] [0x0100000000020000, 64] unowned ∧ (0 < 1024 ∧ (unowned.mask 1).getLsbD 0 = true) ∧
       ∀ f, f < 1024 ∧ (unowned.mask 1).getLsbD f = true → ¬noTile unowned (z f) ∧
         (unowned.owner unowned.curCl unowned.curCtx).bank.getLsbD (((z f).extractLsb' 0 56).toNat / 0x20000) = false) := by
  have key {s : State} {x y : Word} (hm : s.mask 1 = 1) (h : ¬noTile s (pitchAddr x y 0)) :
      ∀ e, e < 1024 ∧ (s.mask 1).getLsbD e = true → ¬noTile s (pitchAddr x y e) := fun e he => only_on hm he ▸ h
  refine ⟨⟨begins_plain (by decide +kernel), by unfold noTile; decide +kernel, by decide +kernel⟩, ?_,
    by decide +kernel, begins_plain (by decide +kernel), by decide +kernel, fun f hf => ?_⟩
  · simp only [List.forall_mem_cons]
    refine ⟨⟨begins_plain (by decide +kernel), key (by decide +kernel) (by unfold noTile; decide +kernel)⟩,
      ⟨begins_plain (by decide +kernel), key (by decide +kernel) (by unfold noTile; decide +kernel)⟩, nofun⟩
  · obtain rfl := only_on (by decide +kernel) hf
    unfold noTile; decide +kernel

/-- LVLD from a bank that is in tile mode and not owned. -/
theorem met_BlocksUnowned : unowned.begins G [1] [] [0x0100000000020000] unowned ∧
    ∀ i < 2 * 2 ^ blkK .c4,
      (unowned.cluster unowned.curCl).modes.getD ((((0x0100000000020000 : Word).extractLsb' 0 56).toNat + i) / 0x20000) .cache = .tile ∧
      (unowned.owner unowned.curCl unowned.curCtx).bank.getLsbD ((((0x0100000000020000 : Word).extractLsb' 0 56).toNat + i) / 0x20000) = false :=
  ⟨begins_plain (by decide +kernel), by decide +kernel⟩

/-- A product with A, B, its target or a level unset, and nothing else wrong. -/
theorem met_MatrixUnset : ∀ p ∈ [({ oneProduct with opA := none }, (0 : BitVec 3)), ({ oneProduct with opB := none }, 0),
      ({ oneProduct with tgt := none }, 0), (oneProduct, 1)],
    let s := acc 0 0 none p.1
    (s.core 0).array.pendFault = none ∧ (s.core 0).table.alignCase = none ∧
    (∀ o ∈ (s.core 0).table.spans p.2.toNat, s.spanBad s.curCl s.curCtx o = false) ∧ s.mgoBanks (s.core 0).table p.2.toNat = none ∧
    ((s.core 0).table.opA = none ∨ (s.core 0).table.opB = none ∨ (s.core 0).table.tgt = none ∨
      ∃ l < p.2.toNat, l < 6 ∧ (s.core 0).table.levels.getD l none = none) := by
  simp only [List.forall_mem_cons]
  refine ⟨?_, ?_, ?_, ?_, nofun⟩ <;> exact ⟨by decide +kernel, by decide +kernel, by decide +kernel, by decide +kernel, by decide +kernel⟩

/-- XPLAN of an image whose reserved bytes are not zero. -/
def badPlan : State := (tiered 0x0100000000001000 0 0 []).updCluster 0 fun c => { c with store := [(4098, 1)] }

theorem met_PlanRefused : badPlan.begins G [1] [] [0x0100000000001000] badPlan ∧ badPlan.collecting = false ∧
    badPlan.eltOperand ⟨0x0100000000001000, 32⟩ = .ok () ∧ badPlan.planCount 0x0100000000001000 = .ok (0, badPlan) ∧
    badPlan.eltsOperand (planElts 0x0100000000001000 0) = .ok () ∧
    ∃ r, badPlan.readElts false (planElts 0x0100000000001000 0) (fun _ x => (x, none)) = .ok r ∧
      (match r.1 with | h :: es => r.2.planBad badPlan.curPart h (es.map some) == some 0 | [] => false) = true :=
  ⟨begins_plain (by decide +kernel), by decide +kernel, is_of (by decide +kernel),
    (planCount_tile (by decide) (by decide +kernel) (by decide +kernel) (by decide +kernel)).trans
      (congrArg (fun n => Except.ok (n, badPlan)) (by decide +kernel)), is_of (by decide +kernel), ok_such (by decide +kernel)⟩

/-- LAUNCH with a full queue behind x[d]; and into a ring over a slot table. -/
theorem met_LaunchRefused :
    (let s := (launching 5 (queue5 0 true [])).setDq 4 { dqReset with entries := List.replicate 64 (.filled 0) }
     s.begins G [1, 2] [60] [5, 0] s ∧ s.eltsOperand (packetElts 0) = .ok () ∧
       ∃ r, s.readElts false (packetElts 0) (fun _ s => (s, none)) = .ok r ∧ (r.2.writeReg 60 0).toOption.isNone = true) ∧
    (let s := (launching 5 (queue5 0 true [])).updPart 0 fun p => { p with slotTable := 0x200000 }
     s.begins G [1, 2] [4] [5, 0] s ∧ s.eltsOperand (packetElts 0) = .ok () ∧
       ∃ r, s.readElts false (packetElts 0) (fun _ s => (s, none)) = .ok r ∧ ((r.2.writeReg 4 0).toOption.isSome &&
         (r.2.releaseNow .package 0).2.meetsSlots ((queue5 0 true []).ring + 256 * ((queue5 0 true []).next.toNat % 256)) 256) = true) ∧
    (∃ r, (launching 5 (queue5 0 true [])).readElts false (packetElts 0) (fun _ s => (s, none)) = .ok r ∧
      (r.2.releaseNow .package 0).2.meetsSlots ((queue5 0 true []).ring + 256 * ((queue5 0 true []).next.toNat % 256)) 256 = false) :=
  ⟨⟨begins_plain (by decide +kernel), is_of (by decide +kernel), ok_such (by decide +kernel)⟩,
    ⟨begins_plain (by decide +kernel), is_of (by decide +kernel), ok_such (by decide +kernel)⟩, ok_such (by decide +kernel)⟩

/-! ## Hypotheses that can be met: books, journals, repairs, engines, hosts, clusters (O42 to O57) -/

/-- The field book of a context that owns core 0, bank 0 in tile mode or in cache mode, and ACM bank 0. -/
theorem met_FieldBooks : ∀ s ∈ [fw 0 0 .saving owns id, fw 0 0 .saving owns fun c => { c with modes := c.modes.set 0 .tile }],
    (s.owner 0 0).core.getLsbD 0 = true ∧ (s.core 0).array.running = [] ∧ (s.strm 0 .A).mark = none ∧ (s.owner 0 0).bank.getLsbD 0 = true ∧
      (s.owner 0 0).acm.getLsbD 0 = true ∧ ((s.cluster 0).modes.getD 0 .cache = .tile ∨ (s.cluster 0).modes.getD 0 .cache = .cache) := by
  simp only [List.forall_mem_cons]
  refine ⟨?_, ?_, nofun⟩ <;> decide +kernel

/-- Stream A of core 0 cut back under a mark, with an entry in its journal of a line that is lost or not. -/
def cutting (l : Nat) : State :=
  lostAt ((storing (some ((base .A).snapshot 0 .A))).updStrm 0 .A fun t =>
    { t with st := .run, vstPos := 0, remote := [farStore], journal := [⟨false, 0x4000, [(0, 1)]⟩, ⟨true, 1, [(0, 2)]⟩] }) l

/-- CUTB's state before the journals' bytes are put back. -/
def cutAt (l : Nat) : State :=
  ([StreamId.A, .X, .M, .C].map fun st => (4 * 0 + 0, st)).foldl (fun u p => u.cancelPlan p.1 p.2) ((cutting l).stopClocks 0 0)

theorem met_CutJournals :
    (∀ l ∈ [0, 0x4000], station (cutting l) G [1] [0] ∧ targets (cutting l) 0 0 0 ∧ ((cutting l).ctx 0).state = .yielding ∧
      (cutting l).storesOut 0 0 true = false ∧ (((cutting l).strm 0 .A).mark.isSome = true) ∧
      (((List.range 4).filter fun k => ((cutting l).owner 0 0).core.getLsbD k) = [0])) ∧
    (∃ v, (cutAt 0).undoAll ((cutAt 0).journals [(0, .A)]) = .ok v) ∧ (∃ e, (cutAt 0x4000).undoAll ((cutAt 0x4000).journals [(0, .A)]) = .error e) ∧
    Memory.wf ((cutting 0).cluster (0 / 4)).store = true ∧
    (∃ v, (cutting 0).homeWrite 0x4000 (some ((cutting 0).ctxOf 0)) [(0, 1)] = .ok v) ∧ ([(0, (1 : Byte))].map (·.1)).Nodup := by
  refine ⟨?_, ok_of (by decide +kernel), err_of (by decide +kernel), by decide +kernel, ok_of (by decide +kernel), by decide⟩
  simp only [List.forall_mem_cons]
  refine ⟨?_, ?_, nofun⟩ <;> exact ⟨station_of (by decide +kernel), by unfold targets; decide +kernel, by decide +kernel⟩

/-- IDEM for a context of another partition. -/
theorem met_IdemElsewhere : let s := (fw 0 0x10000 .idle owns id).updCtx 0 fun c => { c with part := 5 }
    station s G [1, 2] [0, 0x10000] ∧ (s.ctx 0).part ≠ s.actingPart := ⟨station_of (by decide +kernel), by decide +kernel⟩

/-- A dirty line at 1 MiB in way 2 of slice 0, some ways of the slice out of use. -/
def dirtied (x : Word) (q : List Nat) : State :=
  let s := { fw x 0 .idle owns id with l2 := [(0x4000, ⟨5, true, 0, true, 0, 2, .none, false⟩)] }
  { s with slices := s.slices.set 0 { s.slice 0 with quarantined := q } }

/-- PGRET of a page with a dirty line; WAYQ of a way that holds it, of a slice not owned, and with four ways gone. -/
theorem met_LinesRepaired : (∀ x ∈ [(0x100000 : Word), 2, 0x12], station (dirtied x []) G [1] [x]) ∧
    (dirtied 0x100000 []).l2At (0x100000 / 64 + 0) = some ⟨5, true, 0, true, 0, 2, .none, false⟩ ∧
    writesBack (dirtied 0x100000 []) ⟨5, true, 0, true, 0, 2, .none, false⟩ ∧
    ((dirtied 2 []).part (dirtied 2 []).actingPart).pslice.getLsbD 0 = true ∧
        ((dirtied 0x12 []).part (dirtied 0x12 []).actingPart).pslice.getLsbD 1 = false ∧
    ((dirtied 2 []).part (dirtied 2 []).actingPart).pstage ≤ 2 ∧ ((dirtied 2 []).slice 0).quarantined.length < 4 ∧
    (dirtied 2 []).ownerOfSlice 0 = some (dirtied 2 []).actingPart ∧ 4 ≤ ((dirtied 2 [3, 4, 5, 6]).slice 0).quarantined.length ∧
    station (dirtied 2 [3, 4, 5, 6]) G [1] [2] ∧ (station (dirtied 0x400 []) G [1] [0x400] ∧ (0x400 : Word).extractLsb' 10 54 ≠ 0) := by
  refine ⟨?_, by decide +kernel, by unfold writesBack; decide +kernel, by decide +kernel, by decide +kernel, by decide +kernel,
    by decide +kernel, by decide +kernel, by decide +kernel, station_of (by decide +kernel), station_of (by decide +kernel), by decide⟩
  simp only [List.forall_mem_cons]
  refine ⟨?_, ?_, ?_, nofun⟩ <;> exact station_of (by decide +kernel)

/-- LREVK of a key with an accepted request outstanding, at first, and waiting, with it still out or over. -/
def revoking (w : Option WaitFor) (l : List Incoming) : State :=
  { (keyed 5 [5]).updStation 0 fun t => { t with waiting := w } with incoming := l }

theorem met_KeyWaits : (revoking none [⟨1, 0, 5⟩]).stationWait = none ∧ 5 ∈ ((revoking none [⟨1, 0, 5⟩]).part 0).accept ∧
    ((revoking none [⟨1, 0, 5⟩]).incoming.filter fun r => decide (r.part = 0 ∧ r.key = 5)).length ≠ 0 ∧
    (∀ l ∈ [[⟨1, 0, 5⟩], []], station (revoking (some (.acceptedKey 1)) l) G [1] [5] ∧
      (revoking (some (.acceptedKey 1)) l).stationWait = some (.acceptedKey 1)) ∧
    ((revoking (some (.acceptedKey 1)) []).incoming.filter fun r => decide (r.part = 0 ∧ r.key = 5)).length = 0 := by
  refine ⟨by decide +kernel, by decide +kernel, by decide +kernel, ?_, by decide +kernel⟩
  simp only [List.forall_mem_cons]
  refine ⟨?_, ?_, nofun⟩ <;> exact ⟨station_of (by decide +kernel), by decide +kernel⟩

/-- An MGO, a copy and a collective held at an error of line 0 of the tile store that no copy of a window can clear. -/
def heldProduct : State := (product true [ran 5 0 (some ⟨cUE, 0, 2 ^ 56⟩)])
def heldCopy (coll : Bool) : State := engine none fun c =>
  if coll then { c with collHeld := some ⟨cUE, 0, 2 ^ 56⟩ } else { c with copyStopped := some ⟨cUE, 0, 2 ^ 56⟩ }

theorem met_ErrorsThatStay : (∀ s ∈ [heldProduct, heldCopy false, heldCopy true], running s 0 ∧ (s.core 0).replay = [] ∧
      (s.core 0).readsLine 0 0 = true ∧ (s.core 0).window = [] ∧
      (storeAt 0 0).2 ∈ ((s.ueFound 0 0).cluster (storeAt 0 0).1).badStore ∧ ((s.ueFound 0 0).ctx 0).state ≠ .free ∧
          (s.ueFound 0 0).ctxOf 0 = s.ctxOf 0) ∧
    (∀ s : State, s.replayCopies 0 [] = ([], .over, s)) ∧
    ((heldProduct.ueFound 0 0).core 0).array.running.find? (fun r => r.held.any storeUe) = some (ran 5 0 (some ⟨cUE, 0, 2 ^ 56⟩)) ∧
    (∃ q ∈ ((heldProduct.ueFound 0 0).core 0).matQ, q.seq = 5 ∧ q.isMgo = true) ∧
    (((heldCopy false).ueFound 0 0).core 0).copyStopped = some ⟨cUE, 0, 2 ^ 56⟩ ∧
        (((heldCopy true).ueFound 0 0).core 0).collHeld = some ⟨cUE, 0, 2 ^ 56⟩ ∧
    storeUe ⟨cUE, 0, 2 ^ 56⟩ = true := by
  refine ⟨?_, fun s => rfl, by decide +kernel⟩
  simp only [List.forall_mem_cons]
  refine ⟨?_, ?_, ?_, nofun⟩ <;> exact ⟨running_of (by decide +kernel), by decide +kernel⟩

/-- An MGO of two passes, the last of which has not begun. -/
def twoPasses : RunMgo := { ran 4 0 none with table := { oneProduct with levels := oneProduct.levels.set 0 (some ⟨BitVec.twoPow 64 40, 0⟩) }, nlev :=
    1 }

theorem met_PassesToCome : running (product false [twoPasses]) 0 ∧
    (((product false [twoPasses]).core 0).array.running.getLast? = some twoPasses ∧ twoPasses.cycle < twoPasses.lastStart) :=
  ⟨running_of (by decide +kernel), by decide +kernel⟩

/-- A stream held by an ACCESS of a vector or a block access, one held with TRAPVEC's entry in a whole line, and a collective held by a page. -/
theorem met_ShadowEnds : (∀ s ∈ [heldBy ⟨cACCESS, 0, 64⟩ false 1, heldBy ⟨cACCESS, 0, 64⟩ false 0,
      engine none fun c => { c with collHeld := some ⟨cPAGE, 1, 0⟩ }], running s 0) ∧
    (let s := heldBy ⟨cACCESS, 0, 64⟩ false 1
     let u := s.strm 0 .A
     u.st = .held ∧ u.held = some ⟨cACCESS, 0, 64⟩ ∧ u.trapvec ≠ 0 ∧ tcauseIn u.tcause = false ∧
       ({ s with cur := .stream 0 .A } : State).codeOk u.trapvec = true ∧ s.lineTrouble (s.slotLine 0 u.trapvec) = false) ∧
    ((heldBy ⟨cACCESS, 0, 64⟩ false 0).strm 0 .A).trapvec = 0 ∧
    (let s := engine none fun c => { c with collHeld := some ⟨cPAGE, 1, 0⟩ }
     (s.core 0).copyStopped = none ∧ (s.core 0).collHeld = some ⟨cPAGE, 1, 0⟩ ∧ pageResolvable ⟨cPAGE, 1, 0⟩ = true ∧
       s.pageAsked (clusterOf 0) (s.ctxOf 0) ⟨cPAGE, 1, 0⟩ = false) := by
  refine ⟨?_, by decide +kernel⟩
  simp only [List.forall_mem_cons]
  refine ⟨?_, ?_, ?_, nofun⟩ <;> exact running_of (by decide +kernel)

/-- A context with a load of host memory that has not been answered, and one without. -/
theorem met_HostReading : (streamIn fun t => { t with loads := [⟨4, none, 7, true⟩] }).hostReading 0 = true ∧ (streamIn id).hostReading 0 = false :=
    by
  decide +kernel

/-- A placement whose slot entry lies in a lost or in a bad line; a context that is taken down already. -/
theorem met_PlacementLines :
    (let s := lostAt (front (queue5 0 false []) [waiting 3 5 0 []] none) 0x400
     s.mayPlace (waiting 3 5 0 []) [0] = true ∧ s.picked? (waiting 3 5 0 []) = true ∧ (s.pick (waiting 3 5 0 [])).1 = true ∧
       ∃ e, (s.pick (waiting 3 5 0 [])).2.lookLine (((s.pick (waiting 3 5 0 [])).2.part 0).slotTable / 64 + 0) none = .error e ∧
         (match e.1 with | .lost => true | .poison => false) = true) ∧
    (let s := { front (queue5 0 false []) [waiting 3 5 0 []] none with badHbm := [0x400] }
     s.mayPlace (waiting 3 5 0 []) [0] = true ∧ (s.pick (waiting 3 5 0 [])).1 = true ∧
       ∃ e, (s.pick (waiting 3 5 0 [])).2.lookLine (((s.pick (waiting 3 5 0 [])).2.part 0).slotTable / 64 + 0) none = .error e ∧
         (match e.1 with | .lost => false | .poison => decide ((e.2.ctx 0).state ≠ .free)) = true) ∧
    ((endingCtx 0).ctx 0).dismantled = false ∧ (((endingCtx 0).updCtx 0 fun c => { c with dismantled := true }).ctx 0).dismantled = true := by
  refine ⟨⟨by decide +kernel, by decide +kernel, by decide +kernel, err_such (by decide +kernel)⟩,
    ⟨by decide +kernel, by decide +kernel, err_such (by decide +kernel)⟩, by decide +kernel, by decide +kernel⟩

/-- Registers before and after the boot; a compare and swap that fails; a journal's line that is lost when its stream is cut back. -/
theorem met_RemoteEnds : State.reset.booted = false ∧ (booted [] [] id).booted = true ∧
    (let r : RemoteReq := { asks (.atom .cas 4 false) none with data := 2 ^ 64 * 3 }
     (streamIn fun t => { t with remote := [r] }).holder 0 = some (0, .A, r) ∧ r.failed 9 = true ∧ r.failed 3 = false) ∧
    (let s := lostAt (streamIn fun t => { t with remote := [asks (.store false) none], journal := [⟨false, 0x4000, [(0, 1)]⟩] }) 0x4000
     ∃ e, s.undoAll (s.journals [(0, .A)]) = .error e) :=
  ⟨by decide +kernel, by decide +kernel, by decide +kernel, err_of (by decide +kernel)⟩

/-- A store of another package into a slot table. -/
theorem met_IncomingSlots : let s := exporting.updPart 0 fun p => { p with slotTable := 0x100000 }
    s.exporter 5 0 (inSize (.store [1])) = some 0 ∧ s.meetsSlots ((s.part 0).expbase + 0) (inSize (.store [1])) = true ∧
      exporting.meetsSlots ((exporting.part 0).expbase + 0) (inSize (.store [1])) = false := by decide +kernel

/-- Cluster 0 in its scan test or not, mapped to a whole or a broken physical cluster, the last of the die or not; a fenced stack; and slot entries in
whole and in lost lines. -/
theorem met_ClusterTests :
    (∀ b ∈ [([] : List Nat), [0], List.range 32], let s : State := { mapped b .idle with cluTest := 1 }
     s.cluTest.getLsbD 0 = true ∧ (mapped b .idle).cluTest.getLsbD 0 = false ∧ (s.coreMap.getD 0 0).getLsbD 7 = true ∧
       (((s.coreMap.getD 0 0).setWidth 5).toNat ∉ (s.die (0 / 16)).broken ↔ b = [])) ∧
    (mapped (List.range 32) .idle).physFor 0 = none ∧ ((mapped (List.range 32) .idle).coreMap.getD 0 0).getLsbD 7 = true ∧
    (State.reset.coreMap.getD 0 0).getLsbD 7 = false ∧
    ({ booted [] [] id with hbmFenced := 1 } : State).hbmFenced.getLsbD 0 = true ∧ (booted [] [] id).hbmFenced.getLsbD 0 = false ∧
    (slotted []).lineTrouble (((slotted []).part 0).slotTable / 64 + 3) = false ∧
    (lostAt (slotted []) 0x403).isLost (((lostAt (slotted []) 0x403).part 0).slotTable / 64 + 3) = true := by
  refine ⟨?_, by decide +kernel⟩
  simp only [List.forall_mem_cons]
  refine ⟨?_, ?_, ?_, nofun⟩ <;> decide +kernel

/-- A step whose word lies in a poisoned line, the first of its lines or a later one; a word of a long form whose second lies in a lost one; words
that are refused, and second words that cannot be fetched or do not decode. -/
theorem met_StepTroubles :
    (let s := acting (lostAt (fetching addWord 0) 0) (.stream 0 .A) false []
     ∃ x post, s.codeLines s.pc = x :: post ∧ s.isLost x.1 = true) ∧
    (let s := acting (poisonAt (fetching addWord 0) 0x40) (.stream 0 .A) false []
     ∃ x y post, s.codeLines s.pc = [x] ++ y :: post ∧ s.lineTrouble x.1 = false ∧ s.isLost y.1 = false ∧
       (match s.l2At y.1 with | some l => l.inj == .none && l.poisoned | none => false) = true) ∧
    (let s := acting ((fetching addWord 0).updStrm 0 .A fun t => { t with hart := { t.hart with pc := 2 } }) (.stream 0 .A) false []
     s.codeOk s.pc = false ∧ ∃ tr, s.fetchAt s.pc = .error tr) ∧
    (let s := acting ((fetching 0 lilWord).updStrm 0 .A fun t => { t with hart := { t.hart with pc := 1 } }) (.stream 0 .A) false []
     s.fetchAt s.pc = .ok lilWord ∧ wordMaj lilWord = 7 ∧ (∃ j, decodeIn s.role lilWord 0 = .ok j) ∧ ∃ tr, s.fetchAt (s.pc + 1) = .error tr) := by
  refine ⟨?_, ?_, ⟨by decide +kernel, err_of (by decide +kernel)⟩, is_of (by decide +kernel),
      by decide, ok_of (by decide +kernel), err_of (by decide +kernel)⟩
  · exact ⟨(0, none), [(0x40, some 0), (0x40, some 0)], by decide +kernel, by decide +kernel⟩
  · exact ⟨(0, none), (0x40, some 0), [(0x40, some 0)], by decide +kernel, by decide +kernel⟩

/-- A word that passes the first decode checks and decodes to none: its MIN unassigned, or a reserved bit set. -/
theorem met_DecodeRefusals : decodeIn .station (0x01#6 ++ 0x3F#6 ++ 0#36) 0 = .error .minUnassigned ∧
    decodeIn .station (addWord ||| 1) 0 = .error .reserved := by decide +kernel

/-! ## Decoding: words laid out field by field as R47's table and each entry give them -/

/-- Form S (R45, R47). -/
def fS (maj mi d a b c : BitVec 6) (p : BitVec 3) (ps : BitVec 1) (fx : BitVec 8) : IWord :=
  maj ++ mi ++ d ++ a ++ b ++ c ++ p ++ ps ++ fx
/-- Form I. -/
def fI (maj mi d a : BitVec 6) (p : BitVec 3) (ps : BitVec 1) (imm : BitVec 20) : IWord := maj ++ mi ++ d ++ a ++ p ++ ps ++ imm
/-- Form M. -/
def fM (maj mi d a : BitVec 6) (sc p : BitVec 3) (ps : BitVec 1) (off : BitVec 17) : IWord := maj ++ mi ++ d ++ a ++ sc ++ p ++ ps ++ off
/-- Form B. -/
def fB (maj mi : BitVec 6) (p : BitVec 3) (ps : BitVec 1) (disp : BitVec 32) : IWord := maj ++ mi ++ p ++ ps ++ disp
/-- Form V. -/
def fV (maj mi : BitVec 6) (vd va vb vc : BitVec 4) (am bm : BitVec 6) (m rm : BitVec 3) (vx : BitVec 2) : IWord :=
  maj ++ mi ++ vd ++ va ++ vb ++ vc ++ am ++ bm ++ m ++ rm ++ vx
/-- Form E. -/
def fE (maj mi a b : BitVec 6) (sz : BitVec 4) (step : BitVec 12) (cnt : BitVec 8) : IWord := maj ++ mi ++ a ++ b ++ sz ++ step ++ cnt

/-- R111. -/
theorem test_decodeMaj01 :
    ([(fS 0x01 0x00 3 4 5 0 2 1 0x00, .add ⟨2, true⟩ 3 4 5),
      (fS 0x01 0x01 3 4 5 0 2 1 0x00, .sub ⟨2, true⟩ 3 4 5),
      (fS 0x01 0x02 3 4 5 0 2 1 0x00, .andR ⟨2, true⟩ 3 4 5),
      (fS 0x01 0x03 3 4 5 0 2 1 0x00, .orR ⟨2, true⟩ 3 4 5),
      (fS 0x01 0x04 3 4 5 0 2 1 0x00, .xorR ⟨2, true⟩ 3 4 5),
      (fS 0x01 0x05 3 4 5 6 2 1 0xE8, .logt ⟨2, true⟩ 3 4 5 6 0xE8),
      (fS 0x01 0x06 3 4 5 0 2 1 0x00, .shl ⟨2, true⟩ 3 4 5),
      (fS 0x01 0x07 3 4 5 0 2 1 0x00, .shr ⟨2, true⟩ 3 4 5),
      (fS 0x01 0x08 3 4 5 0 2 1 0x00, .sra ⟨2, true⟩ 3 4 5),
      (fS 0x01 0x09 3 4 5 0 2 1 0x00, .rol ⟨2, true⟩ 3 4 5),
      (fS 0x01 0x0A 3 4 5 0 2 1 0x00, .minS ⟨2, true⟩ 3 4 5),
      (fS 0x01 0x0B 3 4 5 0 2 1 0x00, .maxS ⟨2, true⟩ 3 4 5),
      (fS 0x01 0x0C 3 4 5 0 2 1 0x00, .minu ⟨2, true⟩ 3 4 5),
      (fS 0x01 0x0D 3 4 5 0 2 1 0x00, .maxu ⟨2, true⟩ 3 4 5),
      (fS 0x01 0x0E 3 4 5 7 2 1 0x00, .sel ⟨2, true⟩ 3 4 5 7),
      (fS 0x01 0x0F 3 4 0 0 2 1 0x00, .abs ⟨2, true⟩ 3 4)] : List (IWord × Instr)).all (fun x =>
          decide (decode x.1 0 = .ok x.2 ∧ x.2.wf = true)) = true := by
  decide +kernel

/-- R112. -/
theorem test_decodeMaj02 :
    ([(fI 0x02 0x00 3 4 2 1 0xFFFF0, .addi ⟨2, true⟩ 3 4 0xFFFF0),
      (fI 0x02 0x01 3 4 2 1 0xFFFF0, .andi ⟨2, true⟩ 3 4 0xFFFF0),
      (fI 0x02 0x02 3 4 2 1 0xFFFF0, .ori ⟨2, true⟩ 3 4 0xFFFF0),
      (fI 0x02 0x03 3 4 2 1 0xFFFF0, .xori ⟨2, true⟩ 3 4 0xFFFF0),
      (fI 0x02 0x04 3 4 2 1 0x0003D, .shli ⟨2, true⟩ 3 4 0x3D),
      (fI 0x02 0x05 3 4 2 1 0x0003D, .shri ⟨2, true⟩ 3 4 0x3D),
      (fI 0x02 0x06 3 4 2 1 0x0003D, .srai ⟨2, true⟩ 3 4 0x3D),
      (fI 0x02 0x07 3 0 2 1 0x80001, .li ⟨2, true⟩ 3 0x80001)] : List (IWord × Instr)).all (fun x =>
          decide (decode x.1 0 = .ok x.2 ∧ x.2.wf = true)) = true := by
  decide +kernel

/-- R113. -/
theorem test_decodeMaj03 :
    ([(fS 0x03 0x00 3 4 5 0 2 1 0x00, .mul ⟨2, true⟩ 3 4 5),
      (fS 0x03 0x01 3 4 5 0 2 1 0x00, .mulh ⟨2, true⟩ 3 4 5),
      (fS 0x03 0x02 3 4 5 0 2 1 0x00, .mulhu ⟨2, true⟩ 3 4 5),
      (fS 0x03 0x03 3 4 5 6 2 1 0x00, .madd ⟨2, true⟩ 3 4 5 6),
      (fS 0x03 0x04 3 4 5 0 2 1 0x00, .div ⟨2, true⟩ 3 4 5),
      (fS 0x03 0x05 3 4 5 0 2 1 0x00, .divu ⟨2, true⟩ 3 4 5),
      (fS 0x03 0x06 3 4 5 0 2 1 0x00, .rem ⟨2, true⟩ 3 4 5),
      (fS 0x03 0x07 3 4 5 0 2 1 0x00, .remu ⟨2, true⟩ 3 4 5)] : List (IWord × Instr)).all (fun x =>
          decide (decode x.1 0 = .ok x.2 ∧ x.2.wf = true)) = true := by
  decide +kernel

/-- R114. -/
theorem test_decodeMaj04 :
    ([(fS 0x04 0x00 3 4 0 0 2 1 0x00, .clz ⟨2, true⟩ 3 4),
      (fS 0x04 0x01 3 4 0 0 2 1 0x00, .ctz ⟨2, true⟩ 3 4),
      (fS 0x04 0x02 3 4 0 0 2 1 0x00, .popc ⟨2, true⟩ 3 4),
      (fS 0x04 0x03 3 4 0 0 2 1 0x00, .brev ⟨2, true⟩ 3 4),
      (fS 0x04 0x04 6 7 0 60 2 1 0x07, .bfx ⟨2, true⟩ 6 7 60 7),
      (fS 0x04 0x05 6 7 0 60 2 1 0x07, .bfxu ⟨2, true⟩ 6 7 60 7),
      (fS 0x04 0x06 6 7 5 60 2 1 0x07, .bfi ⟨2, true⟩ 6 7 5 60 7),
      (fS 0x04 0x07 6 7 0 0 2 1 0x1F, .sext ⟨2, true⟩ 6 7 0x1F)] : List (IWord × Instr)).all (fun x =>
          decide (decode x.1 0 = .ok x.2 ∧ x.2.wf = true)) = true := by
  decide +kernel

/-- R116, R117, R118, R119. -/
theorem test_decodeMaj05and06 :
    ([(fS 0x05 0x00 3 4 5 0 2 1 0x03, .cmp ⟨2, true⟩ 3 4 5 .ge),
      (fS 0x05 0x01 3 4 5 0 2 1 0x06, .plog ⟨2, true⟩ 3 4 5 6),
      (fS 0x05 0x02 3 0 0 0 2 1 0x00, .pmovGet ⟨2, true⟩ 3),
      (fS 0x05 0x02 0 4 0 0 2 1 0x01, .pmovPut ⟨2, true⟩ 4),
      (fI 0x05 0x03 34 5 2 1 0x0002A, .cmpi ⟨2, true⟩ .ltu 2 5 42),
      (fS 0x06 0x00 4 10 11 0 2 1 0x03, .lea ⟨2, true⟩ 4 10 11 3),
      (fI 0x06 0x01 4 10 2 1 0xFFFF8, .leai ⟨2, true⟩ 4 10 0xFFFF8)] : List (IWord × Instr)).all (fun x =>
          decide (decode x.1 0 = .ok x.2 ∧ x.2.wf = true)) = true := by
  decide +kernel

/-- R86, R87. -/
theorem test_decodeMaj08and09 :
    ([(fB 0x08 0x00 2 1 0xFFFFFFF0, .br ⟨2, true⟩ 0xFFFFFFF0),
      (fB 0x08 0x01 2 1 0xFFFFFFF1, .call ⟨2, true⟩ 0xFFFFFFF1),
      (fB 0x08 0x02 2 1 0xFFFFFFF2, .callc ⟨2, true⟩ 0xFFFFFFF2),
      (fS 0x09 0x00 0 5 0 0 2 1 0x00, .jmpr ⟨2, true⟩ 5),
      (fS 0x09 0x01 0 5 0 0 2 1 0x00, .callr ⟨2, true⟩ 5),
      (fS 0x09 0x02 0 5 0 0 2 1 0x00, .callcr ⟨2, true⟩ 5),
      (fS 0x09 0x03 0 5 0 0 2 1 0x00, .ret ⟨2, true⟩ 5),
      (fS 0x09 0x04 0 5 0 0 2 1 0x00, .retc ⟨2, true⟩ 5)] : List (IWord × Instr)).all (fun x =>
          decide (decode x.1 0 = .ok x.2 ∧ x.2.wf = true)) = true := by
  decide +kernel

/-- R53, R81 to R84, R93, R95. -/
theorem test_decodeMaj0Aand0B :
    ([(fS 0x0A 0x00 0 0 0 0 2 1 0x24, .fork ⟨2, true⟩ .a64 .a32 .a16),
      (fS 0x0A 0x01 0 0 0 0 2 1 0x00, .rdv ⟨2, true⟩),
      (fS 0x0A 0x02 0 7 0 0 2 1 0xE4, .rpt ⟨2, true⟩ 7 3 2 1 0),
      (fS 0x0A 0x03 0 0 0 0 2 1 0x00, .halt ⟨2, true⟩),
      (fS 0x0A 0x04 0 0 0 0 2 1 0x00, .yield ⟨2, true⟩),
      (fS 0x0B 0x00 0 4 0 5 2 1 0x00, .dqput ⟨2, true⟩ 4 5),
      (fS 0x0B 0x01 3 0 0 5 2 1 0x00, .dqget ⟨2, true⟩ 3 5),
      (fS 0x0B 0x02 0 0 0 5 2 1 0x00, .dqcls ⟨2, true⟩ 5),
      (fS 0x0B 0x03 0 0 0 6 2 1 0x01, .bqput ⟨2, true⟩ 6 true),
      (fB 0x0B 0x04 2 1 0x00000009, .bqbr ⟨2, true⟩ 9)] : List (IWord × Instr)).all (fun x =>
          decide (decode x.1 0 = .ok x.2 ∧ x.2.wf = true)) = true := by
  decide +kernel

/-- R51, R52, R255, R259, R260. -/
theorem test_decodeMaj0Cto0F :
    ([(fM 0x0C 0x2E 5 6 2 2 1 0x00008, .ld ⟨2, true⟩ true false .acquire .b4 .cluster 5 6 8),
      (fM 0x0C 0x15 5 6 0 2 1 0x1FFFC, .ld ⟨2, true⟩ false true .weak .b2 .stream 5 6 0x1FFFC),
      (fM 0x0C 0x03 5 6 0 2 1 0x00010, .ld ⟨2, true⟩ false false .plain .b8 .stream 5 6 16),
      (fM 0x0D 0x0F 11 10 4 2 1 0x00000, .st ⟨2, true⟩ false .release .b8 .package 11 10 0),
      (fM 0x0D 0x18 11 10 3 2 1 0x00001, .st ⟨2, true⟩ true .strong .b1 .die 11 10 1),
      (fS 0x0E 0x17 5 6 7 0 2 1 0x90, .atom ⟨2, true⟩ .cas true .acqRel .cluster 0 5 6 7),
      (fS 0x0E 0x39 5 6 7 3 2 1 0xB0, .atom ⟨2, true⟩ .faddBf16x2 false .acquire .tier 3 5 6 7),
      (fS 0x0F 0x00 0 0 0 0 2 1 0xA0, .fence ⟨2, true⟩ .release .package 0),
      (fS 0x0F 0x00 0 0 0 5 2 1 0x78, .fence ⟨2, true⟩ .acquire .tier 5),
      (fS 0x0F 0x01 0 0 0 17 2 1 0x06, .xfence ⟨2, true⟩ 0b00110 0b10001)] : List (IWord × Instr)).all (fun x =>
          decide (decode x.1 0 = .ok x.2 ∧ x.2.wf = true)) = true := by
  decide +kernel

/-- R96, R98, R104, R105. -/
theorem test_decodeMaj10 :
    ([(fS 0x10 0x00 0 0 0 0 2 1 0xC3, .trap ⟨2, true⟩ 0xC3),
      (fS 0x10 0x01 0 0 0 0 2 1 0x00, .tret ⟨2, true⟩),
      (fS 0x10 0x01 0 0 0 0 2 1 0x01, .tretSkip ⟨2, true⟩),
      (fS 0x10 0x02 0 0 0 0 2 1 0xC3, .sysc ⟨2, true⟩ 0xC3),
      (fS 0x10 0x03 10 0 0 0 2 1 0x13, .cwrd ⟨2, true⟩ 10 (.buf 3)),
      (fS 0x10 0x03 10 0 0 5 2 1 0x09, .cwrd ⟨2, true⟩ 10 (.tierinfo 5)),
      (fS 0x10 0x04 0 4 0 0 2 1 0x05, .cwwr ⟨2, true⟩ .trapvec 4),
      (fS 0x10 0x05 0 0 0 0 2 1 0x00, .nop ⟨2, true⟩)] : List (IWord × Instr)).all (fun x =>
          decide (decode x.1 0 = .ok x.2 ∧ x.2.wf = true)) = true := by
  decide +kernel

/-- R159, R160. -/
theorem test_decodeMaj11 :
    ([(fV 0x11 0x00 2 1 3 0 0x10 0x19 5 2 1, .vadd .bf16 2 1 3 ⟨.w16, 0⟩ ⟨.w16, 9⟩ 5 .rtz),
      (fV 0x11 0x01 2 1 3 0 0x10 0x19 5 2 1, .vsub .bf16 2 1 3 ⟨.w16, 0⟩ ⟨.w16, 9⟩ 5 .rtz),
      (fV 0x11 0x02 2 1 3 0 0x10 0x19 5 2 1, .vmul .bf16 2 1 3 ⟨.w16, 0⟩ ⟨.w16, 9⟩ 5 .rtz),
      (fV 0x11 0x03 2 1 3 4 0x10 0x19 5 2 1, .vfma .bf16 2 1 3 4 ⟨.w16, 0⟩ ⟨.w16, 9⟩ 5 .rtz),
      (fV 0x11 0x04 2 1 3 4 0x10 0x19 5 2 1, .vfms .bf16 2 1 3 4 ⟨.w16, 0⟩ ⟨.w16, 9⟩ 5 .rtz),
      (fV 0x11 0x05 2 1 3 0 0x10 0x19 5 0 2, .vmin .fp16 2 1 3 ⟨.w16, 0⟩ ⟨.w16, 9⟩ 5),
      (fV 0x11 0x06 2 1 3 0 0x10 0x19 5 0 2, .vmax .fp16 2 1 3 ⟨.w16, 0⟩ ⟨.w16, 9⟩ 5),
      (fV 0x11 0x07 2 1 0 0 0x10 0x00 5 0 1, .vabs .bf16 2 1 ⟨.w16, 0⟩ 5),
      (fV 0x11 0x08 2 1 0 0 0x10 0x00 5 0 1, .vneg .bf16 2 1 ⟨.w16, 0⟩ 5)] : List (IWord × Instr)).all (fun x =>
          decide (decode x.1 0 = .ok x.2 ∧ x.2.wf = true)) = true := by
  decide +kernel

/-- R161 to R163. -/
theorem test_decodeMaj12 :
    ([(fV 0x12 0x00 2 1 3 2 0x22 0x2A 5 0 2, .viadd .w8 .us 2 1 3 ⟨.w8, 2⟩ ⟨.w8, 10⟩ 5),
      (fV 0x12 0x01 2 1 3 2 0x22 0x2A 5 0 2, .visub .w8 .us 2 1 3 ⟨.w8, 2⟩ ⟨.w8, 10⟩ 5),
      (fV 0x12 0x02 2 1 3 2 0x22 0x2A 5 0 2, .vimul .w8 .us 2 1 3 ⟨.w8, 2⟩ ⟨.w8, 10⟩ 5),
      (fV 0x12 0x03 2 1 3 4 0x22 0x2A 5 0 2, .vimad .w8 2 1 3 4 ⟨.w8, 2⟩ ⟨.w8, 10⟩ 5),
      (fV 0x12 0x04 2 1 3 0 0x22 0x2A 5 0 2, .vshl .w8 2 1 3 ⟨.w8, 2⟩ ⟨.w8, 10⟩ 5),
      (fV 0x12 0x05 2 1 3 0 0x22 0x2A 5 0 2, .vshr .w8 2 1 3 ⟨.w8, 2⟩ ⟨.w8, 10⟩ 5),
      (fV 0x12 0x06 2 1 3 0 0x22 0x2A 5 0 2, .vsra .w8 2 1 3 ⟨.w8, 2⟩ ⟨.w8, 10⟩ 5),
      (fV 0x12 0x07 3 4 5 6 0x3A 0x00 1 0 0, .vlogt 3 4 5 6 0xE8 1),
      (fV 0x12 0x08 2 1 3 1 0x22 0x2A 5 0 2, .vimin .w8 true 2 1 3 ⟨.w8, 2⟩ ⟨.w8, 10⟩ 5),
      (fV 0x12 0x09 2 1 3 1 0x22 0x2A 5 0 2, .vimax .w8 true 2 1 3 ⟨.w8, 2⟩ ⟨.w8, 10⟩ 5)] : List (IWord × Instr)).all (fun x =>
          decide (decode x.1 0 = .ok x.2 ∧ x.2.wf = true)) = true := by
  decide +kernel

/-- R164 to R167. -/
theorem test_decodeMaj13and14 :
    ([(fV 0x13 0x00 3 4 5 6 0x00 0x00 1 0 0, .vcmp .f32 .un 3 4 5 1),
      (fV 0x13 0x00 3 4 5 4 0x00 0x00 1 0 2, .vcmp .u32 .gt 3 4 5 1),
      (fV 0x13 0x01 3 4 5 0 0x00 0x00 1 0 0, .vsel 3 4 5 1),
      (fV 0x13 0x02 3 4 5 9 0x00 0x00 1 0 0, .vmsk 3 4 5 9 1),
      (fV 0x14 0x00 3 4 0 0 0x00 0x00 1 0 0, .vrcp 3 4 1),
      (fV 0x14 0x01 3 4 0 0 0x00 0x00 1 0 0, .vrsq 3 4 1),
      (fV 0x14 0x02 3 4 5 0 0x00 0x00 1 4 0, .vrcpr 3 4 5 1 .rdn),
      (fV 0x14 0x03 3 4 5 0 0x00 0x00 1 4 0, .vrsqr 3 4 5 1 .rdn),
      (fV 0x14 0x04 3 4 0 0 0x00 0x00 1 0 0, .vexp2 3 4 1),
      (fV 0x14 0x05 3 4 0 0 0x00 0x00 1 0 0, .vlog2 3 4 1),
      (fV 0x14 0x06 3 4 0 0 0x00 0x00 1 0 0, .vtanh 3 4 1)] : List (IWord × Instr)).all (fun x =>
          decide (decode x.1 0 = .ok x.2 ∧ x.2.wf = true)) = true := by
  decide +kernel

/-- R172 to R174, R180, R181. -/
theorem test_decodeMaj15to17 :
    ([(fV 0x15 0x00 6 5 1 0 0x19 0x00 2 1 0, .vcvt .bf16 .f32 false 6 5 ⟨.w16, 9⟩ 2 .rne),
      (fV 0x15 0x00 6 5 0 10 0x00 0x00 2 3 1, .vcvt .f32 .b8p4 true 6 5 ⟨.w32, 0⟩ 2 .rup),
      (fV 0x15 0x01 6 5 4 0 0x00 0x00 2 0 3, .vpack .w4 6 5 4 2),
      (fV 0x15 0x02 6 5 3 1 0x00 0x00 2 0 2, .vunpk .w8 true 6 5 3 2),
      (fV 0x16 0x00 3 1 0 0 0x00 0x0D 2 0 0, .vrotr 3 1 13 2),
      (fV 0x16 0x01 3 1 0 0 0x00 0x0D 2 0 0, .vbcr 3 1 13 2),
      (fV 0x16 0x02 3 1 0 0 0x00 0x00 2 1 0, .vredr .fadd 3 1 2 .rne),
      (fV 0x16 0x03 3 1 0 9 0x00 0x00 2 0 0, .vscnr .or 3 1 2 .fpm),
      (fV 0x17 0x00 3 1 0 0 0x00 0x0D 2 0 0, .vrotc 3 1 13 2),
      (fV 0x17 0x01 3 1 0 0 0x00 0x0D 2 0 0, .vbcc 3 1 13 2),
      (fV 0x17 0x02 3 1 0 0 0x00 0x00 2 1 0, .vredc .fadd 3 1 2 .rne),
      (fV 0x17 0x03 3 1 0 9 0x00 0x00 2 0 0, .vscnc .or 3 1 2 .fpm)] : List (IWord × Instr)).all (fun x =>
          decide (decode x.1 0 = .ok x.2 ∧ x.2.wf = true)) = true := by
  decide +kernel

/-- R183 to R185, R187. -/
theorem test_decodeMaj18to1A :
    ([(fV 0x18 0x00 3 1 4 0 0x00 0x00 2 0 0, .vperm 3 1 4 2),
      (fV 0x18 0x01 3 1 0 0 0x3D 0x00 2 0 0, .vmov 3 1 ⟨.w4, 13⟩ 2),
      (fV 0x18 0x02 3 0 0 0 0x29 0x00 2 0 0, .vmovs 3 41 2),
      (fV 0x18 0x03 0 1 0 0 0x29 0x00 2 0 1, .vmovx 41 1 true 2),
      (fV 0x19 0x00 3 1 0 0 0x00 0x02 2 0 0, .zwr 3 1 2 2),
      (fV 0x19 0x01 2 3 0 1 0x00 0x02 2 1 0, .zrd .f32 .bf16 false 2 3 2 2 .rne),
      (fV 0x19 0x02 3 0 0 0 0x00 0x00 0 0 0, .zclr 3),
      (fV 0x1A 0x00 0 4 0 0 0x00 0x09 3 0 0, .defer 4 9 3),
      (fV 0x1A 0x01 4 0 0 0 0x00 0x09 3 0 0, .drain 4 9 3),
      (fV 0x1A 0x02 0 0 0 0 0x29 0x09 0 0 0, .dfcnt 41 9)] : List (IWord × Instr)).all (fun x =>
          decide (decode x.1 0 = .ok x.2 ∧ x.2.wf = true)) = true := by
  decide +kernel

/-- R144, R188, R201, R207, R210, R212. -/
theorem test_decodeMaj1Bto20 :
    ([(fS 0x1B 0x00 3 10 11 2 2 1 0x00, .vld ⟨2, true⟩ 3 10 11 2 false),
      (fS 0x1B 0x01 3 10 11 2 2 1 0x01, .vst ⟨2, true⟩ 3 10 11 2 true),
      (fS 0x1B 0x02 3 10 11 2 2 1 0x01, .vgath ⟨2, true⟩ 3 10 11 2 true),
      (fS 0x1B 0x03 3 10 11 2 2 1 0x00, .vscat ⟨2, true⟩ 3 10 11 2 false),
      (fS 0x1C 0x00 3 10 0 2 2 1 0x01, .qst ⟨2, true⟩ .c6 3 10 2),
      (fS 0x1C 0x01 3 10 0 2 2 1 0x02, .qld ⟨2, true⟩ .c4 3 10 2),
      (fS 0x1C 0x02 0 10 0 0 2 1 0x06, .lvld ⟨2, true⟩ .c4 true 10),
      (fS 0x1C 0x03 5 10 0 0 2 1 0x00, .qcfg ⟨2, true⟩ 5 10),
      (fE 0x20 0x00 8 9 4 0xFF0 3, .cpy 8 9 4 0xFF0 3),
      (fE 0x20 0x01 8 9 4 0xFF0 3, .cpys 8 9 4 0xFF0 3),
      (fE 0x20 0x02 8 9 4 0xFF0 3, .cpyg 8 9 4 0xFF0 3),
      (fE 0x20 0x03 8 9 4 0xFF0 3, .cpyx 8 9 4 0xFF0 3)] : List (IWord × Instr)).all (fun x =>
          decide (decode x.1 0 = .ok x.2 ∧ x.2.wf = true)) = true := by
  decide +kernel

/-- R131, R136, R139, R219 to R223. -/
theorem test_decodeMaj21to23 :
    ([(fS 0x21 0x00 6 7 0 0 2 1 0x03, .tdef ⟨2, true⟩ 6 3 7),
      (fS 0x21 0x01 6 0 0 2 2 1 0x03, .tset ⟨2, true⟩ 6 3 .ready),
      (fS 0x21 0x02 0 0 0 0 2 1 0x03, .trel ⟨2, true⟩ 3),
      (fS 0x21 0x03 4 0 0 5 2 1 0x01, .bankcfg ⟨2, true⟩ 4 5 .tile),
      (fS 0x22 0x00 0 0 0 5 2 1 0x01, .fset ⟨2, true⟩ 5 .copy),
      (fS 0x22 0x01 0 0 0 5 2 1 0x02, .fwait ⟨2, true⟩ 5 .matrix),
      (fS 0x22 0x02 0 0 0 5 2 1 0x03, .fclr ⟨2, true⟩ 5 .collective),
      (fS 0x23 0x00 0 6 7 1 2 1 0x00, .lnt ⟨2, true⟩ 6 7 1),
      (fS 0x23 0x01 0 6 7 0 2 1 0x00, .mopa ⟨2, true⟩ 6 7),
      (fS 0x23 0x02 0 6 7 0 2 1 0x00, .mopb ⟨2, true⟩ 6 7),
      (fS 0x23 0x03 0 6 0 0 2 1 0x00, .mopc ⟨2, true⟩ 6),
      (fS 0x23 0x04 0 6 0 0 2 1 0x00, .idxv ⟨2, true⟩ 6),
      (fS 0x23 0x05 0 0 0 2 2 1 0x00, .mgo ⟨2, true⟩ 2),
      (fS 0x23 0x06 0 0 0 15 2 1 0x00, .mwait ⟨2, true⟩ 15),
      (fS 0x23 0x07 6 0 0 0 2 1 0x00, .mstat ⟨2, true⟩ 6),
      (fS 0x23 0x07 6 0 0 0 2 1 0x01, .mstatClr ⟨2, true⟩ 6)] : List (IWord × Instr)).all (fun x =>
          decide (decode x.1 0 = .ok x.2 ∧ x.2.wf = true)) = true := by
  decide +kernel

/-- R217, R233, R235, R248. -/
theorem test_decodeMaj24and25 :
    ([(fS 0x24 0x00 5 0 0 2 2 1 0x00, .abal ⟨2, true⟩ 5 2),
      (fS 0x24 0x01 0 5 0 2 2 1 0x00, .abfr ⟨2, true⟩ 5 2),
      (fS 0x24 0x02 0 4 5 31 2 1 0x01, .ainit ⟨2, true⟩ 4 5 31 true),
      (fS 0x24 0x03 0 4 0 31 2 1 0x00, .anrm ⟨2, true⟩ 4 31 false),
      (fS 0x24 0x04 3 10 0 2 2 1 0x02, .ard ⟨2, true⟩ .f64 3 10 2),
      (fS 0x24 0x05 3 10 0 2 2 1 0x03, .awr ⟨2, true⟩ .raw 3 10 2),
      (fS 0x25 0x00 5 6 0 0 2 1 0x00, .efcap ⟨2, true⟩ 5 6),
      (fS 0x25 0x01 4 3 5 0 2 1 0x00, .ecat ⟨2, true⟩ 4 3 5),
      (fS 0x25 0x02 4 3 5 6 2 1 0x01, .eflt ⟨2, true⟩ 4 3 5 6 true),
      (fS 0x25 0x03 12 3 10 11 2 1 0x00, .ereb ⟨2, true⟩ 12 3 10 11),
      (fS 0x25 0x04 0 3 0 0 2 1 0x00, .eapl ⟨2, true⟩ 3),
      (fS 0x25 0x04 0 3 0 6 2 1 0x0F, .eaplRel ⟨2, true⟩ 3 .tier 6),
      (fS 0x25 0x05 0 3 0 0 2 1 0x00, .edrp ⟨2, true⟩ 3),
      (fS 0x25 0x06 4 3 0 0 2 1 0x00, .ecnt ⟨2, true⟩ 4 3),
      (fS 0x25 0x06 4 0 0 0 2 1 0x01, .ecntArena ⟨2, true⟩ 4)] : List (IWord × Instr)).all (fun x =>
          decide (decode x.1 0 = .ok x.2 ∧ x.2.wf = true)) = true := by
  decide +kernel

/-- R268, R271, R273, R278, R279, R282, R293. -/
theorem test_decodeMaj26to28 :
    ([(fS 0x26 0x00 7 0 0 0 2 1 0x00, .ssync ⟨2, true⟩ 7),
      (fS 0x26 0x01 4 0 0 1 2 1 0x93, .bara ⟨2, true⟩ 4 1 9 3),
      (fS 0x26 0x02 0 4 0 1 2 1 0x03, .barw ⟨2, true⟩ 4 1 3),
      (fS 0x26 0x03 0 0 0 1 2 1 0x93, .baraw ⟨2, true⟩ 1 9 3),
      (fS 0x26 0x04 0 9 0 0 2 1 0x00, .xplan ⟨2, true⟩ 9),
      (fS 0x27 0x00 5 0 0 2 2 1 0x00, .grank ⟨2, true⟩ 5 2),
      (fS 0x27 0x01 5 0 0 2 2 1 0x00, .gsize ⟨2, true⟩ 5 2),
      (fS 0x27 0x01 5 4 0 2 2 1 0x01, .gsizeShr ⟨2, true⟩ 5 4 2),
      (fS 0x27 0x02 6 0 0 3 2 1 0x00, .gnbrNext ⟨2, true⟩ 6 3),
      (fS 0x27 0x02 6 0 0 3 2 1 0x01, .gnbrPrev ⟨2, true⟩ 6 3),
      (fS 0x27 0x02 6 0 0 3 2 1 0x4E, .gnbrXor ⟨2, true⟩ 6 3 19),
      (fS 0x27 0x03 12 10 11 2 2 1 0x33, .coll ⟨2, true⟩ .rs .min .u32 12 10 11 2),
      (fS 0x27 0x04 0 0 0 2 2 1 0x00, .collw ⟨2, true⟩ 2),
      (fS 0x28 0x00 3 4 5 0 2 1 0x00, .launch ⟨2, true⟩ 3 4 5)] : List (IWord × Instr)).all (fun x =>
          decide (decode x.1 0 = .ok x.2 ∧ x.2.wf = true)) = true := by
  decide +kernel

/-- R298. -/
theorem test_decodeMaj30 :
    ([(fS 0x30 0x00 3 4 0 0 2 1 0x00, .scoutStop ⟨2, true⟩ 3 4),
      (fS 0x30 0x00 3 4 5 0 2 1 0x01, .scoutShift ⟨2, true⟩ 3 4 5),
      (fS 0x30 0x00 3 4 0 0 2 1 0x02, .scoutResume ⟨2, true⟩ 3 4),
      (fS 0x30 0x01 3 4 5 0 2 1 0x00, .scin ⟨2, true⟩ 3 4 5),
      (fS 0x30 0x02 3 4 0 0 2 1 0x00, .scver ⟨2, true⟩ 3 4),
      (fS 0x30 0x02 3 0 0 0 2 1 0x01, .scverPart ⟨2, true⟩ 3),
      (fS 0x30 0x03 3 4 5 0 2 1 0x00, .ownsetCore ⟨2, true⟩ 3 4 5),
      (fS 0x30 0x03 3 4 5 0 2 1 0x01, .ownsetBank ⟨2, true⟩ 3 4 5),
      (fS 0x30 0x03 3 4 5 0 2 1 0x02, .ownsetAcm ⟨2, true⟩ 3 4 5),
      (fS 0x30 0x04 3 4 0 0 2 1 0x00, .preqClr ⟨2, true⟩ 3 4),
      (fS 0x30 0x04 3 4 0 0 2 1 0x01, .preqSet ⟨2, true⟩ 3 4),
      (fS 0x30 0x05 3 4 0 0 2 1 0x00, .cutb ⟨2, true⟩ 3 4),
      (fS 0x30 0x06 3 4 5 0 2 1 0x00, .idem ⟨2, true⟩ 3 4 5),
      (fS 0x30 0x07 3 4 0 0 2 1 0x00, .tmarkQ ⟨2, true⟩ 3 4),
      (fS 0x30 0x07 3 4 0 0 2 1 0x01, .tmarkF ⟨2, true⟩ 3 4)] : List (IWord × Instr)).all (fun x =>
          decide (decode x.1 0 = .ok x.2 ∧ x.2.wf = true)) = true := by
  decide +kernel

/-- R125, R294, R324, R338. -/
theorem test_decodeMaj31and32 :
    ([(fS 0x31 0x00 3 4 5 0 2 1 0x00, .tlbiPage ⟨2, true⟩ 3 4 5),
      (fS 0x31 0x00 3 4 0 0 2 1 0x01, .tlbiCtx ⟨2, true⟩ 3 4),
      (fS 0x31 0x00 3 0 0 0 2 1 0x02, .tlbiAll ⟨2, true⟩ 3),
      (fS 0x31 0x00 3 0 5 0 2 1 0x03, .tlbiPte ⟨2, true⟩ 3 5),
      (fS 0x31 0x01 3 4 0 0 2 1 0x00, .pgret ⟨2, true⟩ 3 4),
      (fS 0x31 0x01 3 4 0 0 2 1 0x01, .pgretDrop ⟨2, true⟩ 3 4),
      (fS 0x31 0x02 3 4 0 0 2 1 0x00, .wayq ⟨2, true⟩ 3 4),
      (fS 0x31 0x03 3 4 0 0 2 1 0x00, .injL2ce ⟨2, true⟩ 3 4),
      (fS 0x31 0x03 3 4 0 0 2 1 0x01, .injL2ue ⟨2, true⟩ 3 4),
      (fS 0x31 0x03 3 4 0 0 2 1 0x02, .injHbmue ⟨2, true⟩ 3 4),
      (fS 0x31 0x04 3 4 0 0 2 1 0x00, .atsiQ ⟨2, true⟩ 3 4),
      (fS 0x31 0x04 3 4 0 0 2 1 0x01, .atsiF ⟨2, true⟩ 3 4),
      (fS 0x32 0x00 3 4 5 0 2 1 0x00, .slotchk ⟨2, true⟩ 3 4 5),
      (fS 0x32 0x01 3 4 5 0 2 1 0x00, .reloc ⟨2, true⟩ 3 4 5),
      (fS 0x32 0x02 3 4 5 0 2 1 0x00, .qpop ⟨2, true⟩ 3 5 4),
      (fS 0x32 0x03 3 4 5 0 2 1 0x00, .qack ⟨2, true⟩ 3 4 5),
      (fS 0x32 0x04 3 4 5 0 2 1 0x00, .polrun ⟨2, true⟩ 3 4 5),
      (fS 0x32 0x05 3 4 0 0 2 1 0x00, .lkeyOwn ⟨2, true⟩ 3 4),
      (fS 0x32 0x05 3 4 0 0 2 1 0x01, .lkeyAcc ⟨2, true⟩ 3 4),
      (fS 0x32 0x06 3 4 0 0 2 1 0x00, .lrevk ⟨2, true⟩ 3 4),
      (fS 0x32 0x07 3 4 0 0 2 1 0x00, .qref ⟨2, true⟩ 3 4 false),
      (fS 0x32 0x07 3 4 0 0 2 1 0x01, .qref ⟨2, true⟩ 3 4 true)] : List (IWord × Instr)).all (fun x =>
          decide (decode x.1 0 = .ok x.2 ∧ x.2.wf = true)) = true := by
  decide +kernel

/-- Form L: word 0 carries bits 63 to 48 and word 1 the rest; JMPL's word 0 has no register (R46, R88, R120). -/
theorem test_decodeMaj07 :
    decode (0x07#6 ++ 0#6 ++ 9#6 ++ 0#6 ++ 2#3 ++ 1#1 ++ 0#4 ++ 0xABCD#16) 0x123456789ABC = .ok (.lil ⟨2, true⟩ 9 0xABCD123456789ABC) ∧
    decode (0x07#6 ++ 1#6 ++ 0#6 ++ 0#6 ++ 2#3 ++ 1#1 ++ 0#4 ++ 0x0BCD#16) 0x123456789ABC = .ok (.jmpl ⟨2, true⟩ 0x0BCD123456789ABC) := by
  decide +kernel

/-- The worked encodings of the chapters, in hexadecimal as they are printed, but for the word of R163, whose tt stands
outside the bits that R163 gives it (log 58). -/
theorem test_decodeWorked : ([
    (0x282007000000, .rpt G 7 0 0 0 0), (0x200500000003, .br ⟨2, true⟩ 3), (0x202500000003, .callc ⟨2, true⟩ 3),
    (0x440210000008, .vadd .f32 2 1 0 ⟨.w32, 0⟩ ⟨.w32, 0⟩ 0 .rtz), (0x3971461C0090, .atom G .cas true .acqRel .cluster 0 5 6 7),
    (0x800209401003, .cpy 8 9 4 16 3), (0x280000000020, .fork G .a64 .a16 .a16), (0x403280000010, .cwrd G 10 (.buf 0)),
    (0x243001000000, .ret G 1), (0x087E00000028, .li G 56 40), (0x14308500002A, .cmpi G .eq 2 5 42),
    (0x0450C41460E8, .logt G 3 4 5 6 0xE8), (0x10418703C007, .bfx G 6 7 60 7), (0x18010A2C0003, .lea G 4 10 11 3),
    (0x880000005001, .fset G 5 .copy), (0x881000005000, .fwait G 5 .self), (0x840187000003, .tdef G 6 3 7),
    (0x841000002000, .tset G 0 0 .ready), (0x843100005001, .bankcfg G 4 5 .tile), (0x80120900040F, .cpys 8 9 0 4 15),
    (0x443412300040, .vfma .f32 4 1 2 3 ⟨.w32, 0⟩ ⟨.w32, 0⟩ 2 .fpm), (0x481000000000, .visub .w32 .wrap 0 0 0 ⟨.w32, 0⟩ ⟨.w32, 0⟩ 0),
    (0x480100041901, .viadd .w16 .wrap 1 0 0 ⟨.w16, 0⟩ ⟨.w16, 9⟩ 0),
    (0x540540100004, .vcvt .f32 .bf16 false 5 4 ⟨.w32, 0⟩ 0 .rne), (0x540651064000, .vcvt .bf16 .f32 false 6 5 ⟨.w16, 9⟩ 0 .fpm),
    (0x580310000500, .vrotr 3 1 5 0), (0x582210000004, .vredr .fadd 2 1 0 .rne), (0x641200100000, .zrd .f32 .bf16 false 2 0 0 0 .fpm),
    (0x680040000960, .defer 4 9 3), (0x6C00CA2C2000, .vld G 3 10 11 2 false), (0x7000CA002000, .qst G .c8 3 10 2),
    (0x7010CA002002, .qld G .c4 3 10 2), (0x70200A000002, .lvld G .c4 false 10), (0x70314A000000, .qcfg G 5 10),
    (0x8C00061C1000, .lnt G 6 7 1), (0x8C5000002000, .mgo G 2), (0x900140002000, .abal G 5 2), (0x90200415F000, .ainit G 4 5 31 false),
    (0x9040CA000000, .ard G .f32 3 10 0), (0x940146000000, .efcap G 5 6), (0x941103000000, .ecat G 4 3 0),
    (0x94330328B000, .ereb G 12 3 10 11), (0x94400300000C, .eaplRel G 3 .package 0), (0x30E146400008, .ld G false false .acquire .b4 .cluster 5 6 8),
    (0x33010901FFFC, .ld G true true .plain .b1 .stream 4 9 0x1FFFC), (0x34F2CA800000, .st G false .release .b8 .package 11 10 0),
    (0x9801C0000000, .ssync G 7), (0x981100001033, .bara G 4 1 3 3), (0x982004001003, .barw G 4 1 3), (0x983000001033, .baraw G 1 3 3),
    (0x984009000000, .xplan G 9), (0x9C0140002000, .grank G 5 2), (0x9C218000300A, .gnbrXor G 6 3 2),
        (0x9C330A2C2000, .coll G .ar .sum .f32 12 10 11 2),
    (0x9C4000002000, .collw G 2), (0xC400C4140000, .tlbiPage G 3 4 5), (0xC410C4000000, .pgret G 3 4), (0xC420C4000000, .wayq G 3 4),
    (0xC430C4000001, .injL2ue G 3 4), (0xC440C4000001, .atsiF G 3 4), (0xC850C4000000, .lkeyOwn G 3 4), (0xC850C4000001, .lkeyAcc G 3 4),
    (0xC860C4000000, .lrevk G 3 4), (0xC800C4140000, .slotchk G 3 4 5), (0xC840C4140000, .polrun G 3 4 5)
    ] : List (IWord × Instr)).all (fun x => decide (decode x.1 0 = .ok x.2)) = true := by
  decide +kernel

/-- Words of each refusal of R58: zeros, ones, an unassigned MAJ and MIN, and a reserved field. -/
theorem test_decodeRefused :
    decode 0 0 = .error .allZeros ∧ decode (BitVec.allOnes 48) 0 = .error .allOnes ∧ decode (fB 0x1D 0 2 1 3) 0 = .error .majUnassigned ∧
    decode (fS 0x01 0x10 1 2 3 0 0 0 0) 0 = .error .minUnassigned ∧ decode (fM 0x0C 0x23 5 6 0 0 0 8) 0 = .error .minUnassigned ∧
    decode (fI 0x02 0x04 1 2 0 0 64) 0 = .error .reserved ∧ decode (fM 0x0C 0x0A 5 6 7 0 0 8) 0 = .error .reserved := by
  decide +kernel

/-! ## Well-formedness: an ill-formed term for each check -/

theorem test_illFormed : ([
    .ld G true false .plain .b8 .stream 5 6 0, .ld G false false .strong .b4 .tier 5 6 0, .ld G false false .weak .b4 .die 5 6 0,
    .st G false .strong .b4 .tier 5 6 0, .st G false .plain .b4 .core 5 6 0, .atom G .faddF32 true .relaxed .stream 0 1 2 3,
    .atom G .faddBf16x2 true .relaxed .stream 0 1 2 3, .atom G .add true .relaxed .stream 1 1 2 3, .fence G .full .die 1, .xfence G 0 1,
        .xfence G 1 0,
    .cwwr G .allot 1, .cwwr G (.buf 2) 1, .cwwr G .tcause 1, .vadd .f32 0 0 0 ⟨.w16, 0⟩ ⟨.w32, 0⟩ 0 .fpm, .vsub .f32 0 0 0 ⟨.w32, 0⟩ ⟨.w16, 0⟩ 0 .fpm,
    .vmul .bf16 0 0 0 ⟨.w8, 0⟩ ⟨.w32, 0⟩ 0 .fpm, .vfma .bf16 0 0 0 0 ⟨.w16, 10⟩ ⟨.w32, 0⟩ 0 .fpm, .vfms .fp16 0 0 0 0 ⟨.w32, 0⟩ ⟨.w16, 3⟩ 0 .fpm,
    .vmin .f32 0 0 0 ⟨.w32, 1⟩ ⟨.w32, 0⟩ 0, .vmax .f32 0 0 0 ⟨.w32, 0⟩ ⟨.w32, 8⟩ 0, .vabs .f32 0 0 ⟨.w4, 0⟩ 0, .vneg .f32 0 0 ⟨.w4, 0⟩ 0,
    .viadd .w8 .wrap 0 0 0 ⟨.w16, 0⟩ ⟨.w32, 0⟩ 0, .visub .w8 .wrap 0 0 0 ⟨.w32, 0⟩ ⟨.w8, 12⟩ 0, .vimul .w4 .wrap 0 0 0 ⟨.w4, 3⟩ ⟨.w32, 0⟩ 0,
    .vimad .w8 0 0 0 0 ⟨.w4, 0⟩ ⟨.w32, 0⟩ 0, .vshl .w8 0 0 0 ⟨.w32, 0⟩ ⟨.w4, 0⟩ 0, .vshr .w8 0 0 0 ⟨.w4, 0⟩ ⟨.w32, 0⟩ 0,
    .vsra .w8 0 0 0 ⟨.w4, 0⟩ ⟨.w32, 0⟩ 0, .vimin .w8 true 0 0 0 ⟨.w4, 0⟩ ⟨.w32, 0⟩ 0, .vimax .w8 true 0 0 0 ⟨.w32, 0⟩ ⟨.w4, 0⟩ 0,
    .vcmp .i32 .un 0 0 0 0, .vcmp .u32 .ord 0 0 0 0, .vcvt .f32 .bf16 true 0 0 ⟨.w32, 0⟩ 0 .fpm, .vcvt .f32 .b8p4 false 0 0 ⟨.w16, 8⟩ 0 .fpm,
    .vcvt .bf16 .f32 false 0 0 ⟨.w16, 0⟩ 0 .fpm, .vcvt .b6p2 .f32 false 0 0 ⟨.w8, 8⟩ 0 .fpm, .vpack .w32 0 0 0 0, .vunpk .w32 true 0 0 0 0,
    .vunpk .w16 true 0 0 2 0, .vredr .iadd 0 0 0 .rne, .vscnr .fmin 0 0 0 .rne, .vredc .or 0 0 0 .rtz, .vscnc .xor 0 0 0 .rna,
    .vmov 0 0 ⟨.w16, 10⟩ 0, .zrd .f32 .f32 true 0 0 0 0 .fpm, .zrd .f32 .f32 false 0 0 0 0 .rne, .zrd .f32 .bf16 true 0 0 0 0 .fpm,
    .cpy 0 0 11 0 0, .cpys 0 0 15 0 0, .cpyg 0 0 12 0 0, .cpyx 0 0 11 0 0, .lnt G 0 0 6, .mgo G 7, .awr G .bf16 0 0 0, .awr G .f64 0 0 0,
    .eaplRel G 0 .die 1, .bara G 0 0 0 0, .baraw G 0 0 0, .coll G .ag .max .f32 0 0 0 0, .coll G .bc .min .f32 0 0 0 0, .evPowerOn
    ] : List Instr).all (fun i => !i.wf) = true := by decide +kernel


/-! ## Worked values of the chapters -/

/-- Stream A with x1, x2 and x3 as given. -/
def alu (a b c : Word) : State := withStrm .A fun t => { t with hart := { t.hart with x := ((t.hart.x.set 1 a).set 2 b).set 3 c } }

/-- x4 after one instruction of stream A. -/
def x4 (i : Instr) (s : State) : Option Word := match exec i s with
  | .next t => some ((t.strm 0 .A).hart.get 4) | .fault _ => none | .refused _ => none

/-- Chapter 06, worked values: divisions. -/
theorem test_division :
    x4 (.div G 4 1 2) (alu 0x8000000000000000 (-1) 0) = some 0x8000000000000000 ∧ x4 (.rem G 4 1 2) (alu 0x8000000000000000 (-1) 0) = some 0 ∧
    x4 (.div G 4 1 2) (alu 7 0 0) = some (-1) ∧ x4 (.rem G 4 1 2) (alu 7 0 0) = some 7 ∧
    x4 (.div G 4 1 2) (alu (-7) 2 0) = some (-3) ∧ x4 (.rem G 4 1 2) (alu (-7) 2 0) = some (-1) := by decide +kernel

/-- Chapter 06, worked values: products, shifts and the rest. -/
theorem test_scalar :
    x4 (.mulhu G 4 1 2) (alu (-1) (-1) 0) = some 0xFFFFFFFFFFFFFFFE ∧ x4 (.mulh G 4 1 2) (alu (-1) (-1) 0) = some 0 ∧
    x4 (.shl G 4 1 2) (alu 1 64 0) = some 0 ∧ x4 (.sra G 4 1 2) (alu (-8) 70 0) = some (-1) ∧
    x4 (.rol G 4 1 2) (alu 0x8000000000000001 65 0) = some 3 ∧ x4 (.abs G 4 1) (alu 0x8000000000000000 0 0) = some 0x8000000000000000 := by
  decide +kernel

/-- Chapter 06, worked values: fields and addresses. -/
theorem test_fields :
    x4 (.clz G 4 1) (alu 0 0 0) = some 64 ∧ x4 (.ctz G 4 1) (alu 0 0 0) = some 64 ∧
    x4 (.bfx G 4 1 4 3) (alu 0xF0F0 0 0) = some (-1) ∧ x4 (.bfxu G 4 1 4 3) (alu 0xF0F0 0 0) = some 15 ∧
    x4 (.bfx G 4 1 60 7) (alu 0xF000000000000000 0 0) = some 15 ∧ x4 (.bfi G 4 1 2 60 7) (alu 0xFF 0 0) = some 0xF000000000000000 ∧
    x4 (.logt G 4 1 2 3 0xE8) (alu 0b1100 0b1010 0b0110) = some 0b1110 ∧
    x4 (.leai G 4 1 16) (alu 0x00FFFFFFFFFFFFF8 0 0) = some 8 ∧ x4 (.addi G 4 1 16) (alu 0x00FFFFFFFFFFFFF8 0 0) = some 0x0100000000000008 := by
  decide +kernel

/-- R115 and the last worked value of chapter 06. -/
theorem test_compare : cmpHolds .gtu 5 (-1) = false ∧ cmpHolds .lt 5 (-1) = false ∧ cmpHolds .ge (-1) (-1) = true ∧ cmpHolds .ltu 5 (-1) = true := by
  decide

/-- R68: the worked decode of binary8p4. -/
theorem test_binary8p4 : (NFmt.value ⟨8, 4⟩ false 0x5B).eq (.fin false 11 0) = true ∧ (NFmt.value ⟨8, 4⟩ false 0xFF).eq (.fin true 240 0) = true ∧
    (NFmt.value ⟨8, 4⟩ false 0x03).eq (.fin false 3 (-10)) = true ∧ NFmt.value ⟨8, 4⟩ false 0x80 = .nan ∧
    (NFmt.value ⟨8, 4⟩ false 0).isZero = true := by decide +kernel

/-- R71's example and the conversions of chapter 09 (R172). -/
theorem test_convert :
    convert .f32 .bf16 false .rne 0x3F808000 = (0x3F80, fNX) ∧ convert .f32 .bf16 false .rna 0x3F808000 = (0x3F81, fNX) ∧
    convert .f32 .b8p4 false .rne 0x436C0000 = (0x7F, fNX) ∧ convert .f32 .b8p4 true .rne 0x436C0000 = (0x7F, fOFNX) ∧
    convert .f32 .int32 false .rne 0x40200000 = (2, fNX) ∧ convert .f32 .int32 false .rna 0x40200000 = (3, fNX) ∧
    convert .f32 .uint8 false .rne 0xBFC00000 = (0, fNV) ∧ convert .f32 .int32 false .rne 0x7FC00000 = (0, fNV) ∧
    convert .int32 .f32 false .rne 16777217 = (0x4B800000, fNX) ∧ convert .int32 .int8 false .rne 0xFFFFFF80 = (0x81, fNV) ∧
    convert .f32 .uint8 false .rne 0xBECCCCCD = (0, fNX) ∧ convert .f32 .uint32 false .rdn 0xBECCCCCD = (0, fNV) ∧
    (convert .f32 .bf16 false .rne 0x40A18000).1 = 0x40A2 := by decide +kernel

/-- Chapter 09: the fused product, and the refined reciprocal of 3. -/
theorem test_vectorArithmetic :
    fp32.ffma .rne 0x3F800800 0x3F800800 0xBF801000 = (0x33800000, 0) ∧ fp32.fmul .rne 0x3F800800 0x3F800800 = (0x3F801000, fNX) ∧
    fp32.fadd .rne 0x3F801000 0xBF801000 = (0, 0) ∧ vrcp 0x40400000 = (0x3EAAAA00, fNX) ∧
    refine false .rne 0x40400000 0x3EAAAA00 = (0x3EAAAAAB, fNX) ∧ (vrcp 0x80000000).1 = 0xFF800000 ∧ (vrsq 0xBF800000).1 = 0x7FC00000 := by
  decide +kernel

/-- R169's exact rows, and R182's worked reduction. -/
theorem test_vectorFunctions : vexp2 0x40400000 = (0x41000000, 0) ∧ vlog2 0x41000000 = (0x40400000, 0) ∧ vlog2 0 = (0xFF800000, fDZ) ∧
    vtanh 0x7F800000 = (0x3F800000, 0) ∧
    reduceLine .fadd .rne 6 (0x4B800000 :: List.replicate 63 0x3F800000) 0 = (0x4B80001F, fNX) := by decide +kernel

/-- R73's example: 42.75 with X = 6. -/
theorem test_accumulator : (fp32.ofVal .rne ((accGet 0x000000060000558000000000).value false)) = (0x422B0000, 0) := by
  decide +kernel

/-- R196: the worked headers. -/
theorem test_headers : hdrMake 0 127 = 0x83F8 ∧ hdrMake 0 125 = 0x4BE8 ∧ hdrCheck 0x83F8 = .ok 0x83F8 false ∧ hdrCheck 0x4BE8 = .ok 0x4BE8 false ∧
    hdrCheck 0x83D8 = .ok 0x83F8 true ∧ hdrCheck 0x83D9 = .double := by decide +kernel

/-- R208 and R209: the worked tie of the integers 0 to 31. -/
theorem test_blockSelection :
    pickBlock ⟨qselReset, 0, Vector.replicate 6 []⟩ .c8 ((List.range 32).map fun n => (convert .int32 .f32 false .rne n).1) =
      ⟨0, 125, (List.range 32).map (4 * ·)⟩ := by decide +kernel

/-! ## Single steps from reset -/

/-- The state after one step of the machine that has just this instruction to run. -/
def after (w : IWord) : Option State := match step (State.reset.withFetchWord 48 w.toNat) with
  | .next t => some t | .fault _ => none | .refused _ => none

/-- LI x5, -1 as the first instruction: x5 and the pc (R112). -/
theorem test_stepLi : (after (fI 0x02 0x07 5 0 0 0 0xFFFFF)).map (fun t => ((t.strm 0 .A).hart.get 5, (t.strm 0 .A).hart.pc)) =
    some (0xFFFFFFFFFFFFFFFF, 1) := by decide +kernel

/-- A word of zeros as the first instruction runs on a station core, where its ILLOP ends the run (R58, R106). -/
theorem test_stepZeros : (after 0).map (fun t => ((t.station 0).event.isNone, t.moves)) = some (true, []) := by decide +kernel

/-- BR two words back, guarded by p1, which is clear: only the pc moves on (R86). -/
theorem test_stepGuard : (after (fB 0x08 0 1 0 0xFFFFFFFE)).map (fun t => (t.strm 0 .A).hart.pc) = some 1 := by decide +kernel

end Sys2Proof.Tests
end

section
/-! SUPPORT. Every step keeps the state well formed (R2, R72, R215, R377).

The memories of the state are HBM, host memory, each cluster's store and accumulators, and each slice's staging. The operations that
write one keep its canonical form (`memPut_wf`, `memPuts_wf`, `acmPut_elemsFrom` and the like). Here stands one lemma per operation of the
model, in the order of the model: `f_wf` says that what `f` answers is well formed when the state it starts from is. An operation that
writes no memory closes by the hypothesis itself, since `State.Wf` does not see the other fields; one that calls others closes from their
lemmas, and from nothing else of theirs. A lemma about an answer that can fail is a `Yields`: what holds of the value, what of the error. -/

-- Hundreds of lemmas each cite the ones before: checked side by side they would wait on one another, a thread and its stack each.
set_option Elab.async false

namespace Sys2Proof.Machine

open Host (Outcome)

/-! ## What is well formed of a cluster, an act, an answer and an outcome -/

/-- The memories of a cluster are in canonical form. -/
def Cluster.Ok (c : Cluster) : Prop := Memory.wf c.store = true ∧ elemsFrom 0 c.acm = true

/-- The state that an act carries is well formed. -/
def Act.Wf : Act → Prop
  | .done s => s.Wf
  | .jump s => s.Wf
  | .trap _ s => s.Wf
  | .wait _ s => s.Wf

theorem none_act_wf (a : Act) (h : none = some a) : a.Wf := by simp at h

/-- The state that a privileged answer carries is well formed. -/
def Priv.Wf : Priv → Prop
  | .ok _ s => s.Wf
  | .refuse _ s => s.Wf
  | .wait _ s => s.Wf
  | .trap _ s => s.Wf

/-- The next state, if there is one, is well formed. -/
def NextWf (o : Outcome State Fault Refusal) : Prop := ∀ t, o = .next t → t.Wf

theorem NextWf.next_iff {s : State} : NextWf (.next s) ↔ s.Wf := by
  constructor
  · intro h; exact h s rfl
  · intro h t e; cases e; exact h

theorem NextWf.fault {f : Fault} : NextWf (.fault f) := fun _ h => by cases h

theorem NextWf.ite {c : Prop} [Decidable c] {o p : Outcome State Fault Refusal} (ho : NextWf o) (hp : NextWf p) :
    NextWf (if c then o else p) := by
  split
  · exact ho
  · exact hp

/-- A computation's value satisfies P, and its error satisfies E. -/
def Yields {ε α : Type} (E : ε → Prop) (P : α → Prop) : Except ε α → Prop
  | .ok a => P a
  | .error e => E e

theorem Yields.ok_iff {ε α : Type} {E : ε → Prop} {P : α → Prop} {a : α} : Yields E P (.ok a) ↔ P a := Iff.rfl

theorem Yields.error_iff {ε α : Type} {E : ε → Prop} {P : α → Prop} {e : ε} : Yields E P (.error e) ↔ E e := Iff.rfl

theorem Yields.ok {ε α : Type} {E : ε → Prop} {P : α → Prop} {r : Except ε α} {a : α} (hr : Yields E P r) (h : r = .ok a) : P a := by
  subst h; exact hr

theorem Yields.error {ε α : Type} {E : ε → Prop} {P : α → Prop} {r : Except ε α} {e : ε} (hr : Yields E P r) (h : r = .error e) : E e := by
  subst h; exact hr

theorem Yields.ite {ε α : Type} {E : ε → Prop} {P : α → Prop} {c : Prop} [Decidable c] {a b : Except ε α} (ha : Yields E P a)
    (hb : Yields E P b) : Yields E P (if c then a else b) := by
  split
  · exact ha
  · exact hb

theorem Yields.bind {ε α β : Type} {E : ε → Prop} {P : α → Prop} {Q : β → Prop} {r : Except ε α} {f : α → Except ε β}
    (hr : Yields E P r) (hf : ∀ a, P a → Yields E Q (f a)) : Yields E Q (r >>= f) := by
  cases r with
  | ok a => exact hf a hr
  | error e => exact hr

/-! ## The parts of a well-formed state -/

theorem State.Wf.hbm {s : State} (hs : s.Wf) : Memory.wf s.hbm = true := hs.1

theorem State.Wf.host {s : State} (hs : s.Wf) : Memory.wf s.host = true := hs.2.1

theorem State.Wf.clusters {s : State} (hs : s.Wf) : ∀ c ∈ s.clusters.toList, c.Ok := hs.2.2.1

theorem State.Wf.slices {s : State} (hs : s.Wf) : ∀ x ∈ s.slices.toList, Memory.wf x.staging = true := hs.2.2.2

/-! ## Choices, folds and parts replaced -/

theorem State.wf_ite {c : Prop} [Decidable c] {s t : State} (hs : s.Wf) (ht : t.Wf) : (if c then s else t).Wf := by
  split
  · exact hs
  · exact ht

theorem foldl_wf {α : Type} {f : State → α → State} {l : List α} {s : State} (hf : ∀ s a, s.Wf → (f s a).Wf) (hs : s.Wf) :
    (l.foldl f s).Wf :=
  List.foldlRecOn l f hs fun s h a _ => hf s a h

theorem foldl_ok {α : Type} {f : Cluster → α → Cluster} {l : List α} {c : Cluster} (hf : ∀ c a, c.Ok → (f c a).Ok) (hc : c.Ok) :
    (l.foldl f c).Ok :=
  List.foldlRecOn l f hc fun c h a _ => hf c a h

theorem foldl_memPut_wf {α : Type} {l : List α} {m : Memory} {a : α → Nat} {b : α → Byte} (hm : Memory.wf m = true) :
    Memory.wf (l.foldl (fun m x => memPut m (a x) (b x)) m) = true :=
  List.foldlRecOn (motive := fun m => Memory.wf m = true) l _ hm fun _ h x _ => memPut_wf (a x) (b x) h

/-- A state that keeps the memories of a well-formed one, whatever its other fields. -/
theorem State.wf_of_memories {s : State} (h : s.Wf) {cores dies contexts parts queues kernels l2 recs releases past stamp pins badHbm retired
  incoming pkgId coreMap evvec bootstat measurements events heldEvents stations portUp portFenced hbmUp hbmFenced cluUp cluTest
  d2dFenced errlog counts throttle powered nextKernel nextTag moves tick cur late vault} :
  (State.mk cores s.clusters dies contexts parts queues kernels s.hbm s.host l2 recs releases past stamp pins badHbm s.slices retired
  incoming pkgId coreMap evvec bootstat measurements events heldEvents stations portUp portFenced hbmUp hbmFenced cluUp cluTest
  d2dFenced errlog counts throttle powered nextKernel nextTag moves tick cur late vault).Wf := h

theorem getD_eq {α : Type} {n : Nat} (v : Vector α n) (i : Nat) (d : α) : v.getD i d = if h : i < n then v[i] else d := by
  unfold Vector.getD
  simp [Array.getD]

theorem forall_mem_setIfInBounds {α : Type} {n : Nat} {v : Vector α n} {P : α → Prop} (hv : ∀ x ∈ v.toList, P x) {i : Nat} {x : α} (hx : P x) :
    ∀ y ∈ (v.setIfInBounds i x).toList, P y := by
  intro y hy
  rw [Vector.toList_setIfInBounds] at hy
  rcases List.mem_or_eq_of_mem_set hy with h | rfl
  · exact hv y h
  · exact hx

theorem forall_mem_mapIdx {α β : Type} {n : Nat} {v : Vector α n} {P : α → Prop} {Q : β → Prop} {f : Nat → α → β} (hv : ∀ x ∈ v.toList, P x)
    (hf : ∀ i x, P x → Q (f i x)) : ∀ y ∈ (v.mapIdx f).toList, Q y := by
  intro y hy
  obtain ⟨i, hi, rfl⟩ := Vector.mem_mapIdx.mp (Vector.mem_toList_iff.mp hy)
  exact hf i _ (hv _ (by simp))

theorem forall_mem_map {α β : Type} {n : Nat} {v : Vector α n} {P : α → Prop} {Q : β → Prop} {f : α → β} (hv : ∀ x ∈ v.toList, P x)
    (hf : ∀ x, P x → Q (f x)) : ∀ y ∈ (v.map f).toList, Q y := by
  intro y hy
  obtain ⟨x, hx, rfl⟩ := Vector.mem_map.mp (Vector.mem_toList_iff.mp hy)
  exact hf x (hv x (Vector.mem_toList_iff.mpr hx))

theorem State.slice_wf {s : State} (hs : s.Wf) {n : Nat} : Memory.wf (s.slice n).staging = true := by
  obtain ⟨-, -, -, hsl⟩ := hs
  unfold State.slice
  rw [getD_eq]
  split
  · exact hsl _ (by simp)
  · rfl

theorem State.wf_withHost {s : State} (hs : s.Wf) {m : Memory} (hm : Memory.wf m = true) : ({ s with host := m } : State).Wf :=
  ⟨hs.hbm, hm, hs.clusters, hs.slices⟩

theorem State.wf_of_clusters {s t : State} (hs : s.Wf) (hc : ∀ c ∈ t.clusters.toList, c.Ok) (h1 : t.hbm = s.hbm := by rfl)
    (h2 : t.host = s.host := by rfl) (h3 : t.slices = s.slices := by rfl) : t.Wf := by
  obtain ⟨hhbm, hhost, -, hsl⟩ := hs
  exact ⟨h1 ▸ hhbm, h2 ▸ hhost, hc, h3 ▸ hsl⟩

theorem State.wf_of_slices {s t : State} (hs : s.Wf) (hc : ∀ x ∈ t.slices.toList, Memory.wf x.staging = true) (h1 : t.hbm = s.hbm := by rfl)
    (h2 : t.host = s.host := by rfl) (h3 : t.clusters = s.clusters := by rfl) : t.Wf := by
  obtain ⟨hhbm, hhost, hcl, -⟩ := hs
  exact ⟨h1 ▸ hhbm, h2 ▸ hhost, h3 ▸ hcl, hc⟩

/-! ## The state after reset -/

theorem clusterReset_ok : clusterReset.Ok := ⟨rfl, rfl⟩

theorem State.reset_wf : State.reset.Wf := by
  refine ⟨rfl, rfl, fun c hc => ?_, fun x hx => ?_⟩
  · rw [show State.reset.clusters = Vector.replicate 128 clusterReset from rfl, Vector.toList_replicate] at hc
    exact List.eq_of_mem_replicate hc ▸ clusterReset_ok
  · rw [show State.reset.slices = Vector.replicate 64 ⟨[], [], [], false⟩ from rfl, Vector.toList_replicate] at hx
    exact List.eq_of_mem_replicate hx ▸ rfl


/-! ## The operations of the model, in its order -/

/-! ### Parts -/

theorem State.setCore_wf {s : State} {n c} (hs : s.Wf) : (s.setCore n c).Wf := hs

theorem State.updCore_wf {s : State} {n f} (hs : s.Wf) : (s.updCore n f).Wf := hs

theorem State.updStrm_wf {s : State} {n k f} (hs : s.Wf) : (s.updStrm n k f).Wf := hs

theorem State.cluster_wf {s : State} (hs : s.Wf) {n : Nat} : (s.cluster n).Ok := by
  obtain ⟨-, -, hc, -⟩ := hs
  unfold State.cluster
  rw [getD_eq]
  split
  · exact hc _ (by simp)
  · exact ⟨rfl, rfl⟩

theorem State.updCluster_wf {s : State} (hs : s.Wf) {n : Nat} {f : Cluster → Cluster} (hf : ∀ c, c.Ok → (f c).Ok) : (s.updCluster n f).Wf := by
  have hn := hf _ (State.cluster_wf hs (n := n))
  obtain ⟨hhbm, hhost, hc, hsl⟩ := hs
  exact ⟨hhbm, hhost, forall_mem_setIfInBounds hc hn, hsl⟩

theorem State.updCtx_wf {s : State} {n f} (hs : s.Wf) : (s.updCtx n f).Wf := hs

theorem State.updPart_wf {s : State} {n f} (hs : s.Wf) : (s.updPart n f).Wf := hs

theorem State.updSlice_wf {s : State} (hs : s.Wf) {n : Nat} {f : Slice → Slice}
    (hf : ∀ x, Memory.wf x.staging = true → Memory.wf (f x).staging = true) : (s.updSlice n f).Wf := by
  have hn := hf _ (State.slice_wf hs (n := n))
  obtain ⟨hhbm, hhost, hc, hsl⟩ := hs
  exact ⟨hhbm, hhost, hc, forall_mem_setIfInBounds hsl hn⟩

theorem State.updDie_wf {s : State} {n f} (hs : s.Wf) : (s.updDie n f).Wf := hs

theorem State.updStation_wf {s : State} {n f} (hs : s.Wf) : (s.updStation n f).Wf := hs

theorem State.updKernel_wf {s : State} {id f} (hs : s.Wf) : (s.updKernel id f).Wf := hs

theorem State.setHart_wf {s : State} {h} (hs : s.Wf) : (s.setHart h).Wf := by
  unfold State.setHart
  grind [State.updStrm_wf, State.updStation_wf]

theorem State.updMe_wf {s : State} {f} (hs : s.Wf) : (s.updMe f).Wf := hs

theorem State.setPc_wf {s : State} {pc} (hs : s.Wf) : (s.setPc pc).Wf := State.setHart_wf hs

theorem State.setStat_wf {s : State} {bit} (hs : s.Wf) : (s.setStat bit).Wf := State.setHart_wf hs

theorem State.free_wf {s : State} (hs : s.Wf) : (s.free).2.Wf := hs

theorem State.contextFault_wf {s : State} {ctx t} (hs : s.Wf) : (s.contextFault ctx t).Wf := hs

theorem State.raise_wf {s : State} {e} (hs : s.Wf) : (s.raise e).Wf := by
  unfold State.raise
  grind [State.updPart_wf, State.wf_of_memories]

theorem State.logErr_wf {s : State} {e} (hs : s.Wf) : (s.logErr e).Wf := hs

/-! ### Home -/

theorem State.setL2_wf {s : State} {line l} (hs : s.Wf) : (s.setL2 line l).Wf := hs

theorem State.dropL2_wf {s : State} {line} (hs : s.Wf) : (s.dropL2 line).Wf := hs

theorem State.countErr_wf {s : State} {f unc} (hs : s.Wf) : (s.countErr f unc).Wf := hs

theorem State.freePayload_wf {s : State} (hs : s.Wf) : (s.freePayload).2.Wf := hs

theorem State.reportFault_wf {s : State} {p} (hs : s.Wf) : (s.reportFault p).Wf := State.freePayload_wf (State.raise_wf hs)

theorem State.reportError_wf {s : State} {p src nc owner dirty sl way line} (hs : s.Wf) :
    (s.reportError p src nc owner dirty sl way line).Wf := State.raise_wf hs

theorem State.reportLine_wf {s : State} {src line l} (hs : s.Wf) : (s.reportLine src line l).Wf := by
  unfold State.reportLine
  grind [State.reportError_wf]

theorem State.fencePart_wf {s : State} {p} (hs : s.Wf) : (s.fencePart p).Wf := by
  unfold State.fencePart
  grind [State.updPart_wf, State.contextFault_wf, foldl_wf]

theorem State.putLine_wf {s : State} {line l} (hs : s.Wf) : (s.putLine line l).Wf := by
  unfold State.putLine
  have hm : Memory.wf ((upto 64).foldl (fun m j => memPut m (s.hbmAddr (64 * line + j)) (lineByte l.data j)) s.hbm) = true :=
    foldl_memPut_wf hs.hbm
  generalize (upto 64).foldl _ s.hbm = m at hm ⊢
  have h1 : ({ s with hbm := m } : State).Wf := ⟨hm, hs.host, hs.clusters, hs.slices⟩
  split
  · exact h1
  · exact h1

theorem State.reportTag_wf {s : State} {line l} (hs : s.Wf) : (s.reportTag line l).Wf := by
  unfold State.reportTag
  grind [State.reportError_wf]

theorem State.loseLine_wf {s : State} {line l} (hs : s.Wf) : (s.loseLine line l).Wf := by
  unfold State.loseLine
  grind [State.reportTag_wf, State.dropL2_wf, State.reportLine_wf, State.countErr_wf, State.updSlice_wf]

theorem State.cleanOne_wf {s : State} {line} (hs : s.Wf) : (s.cleanOne line).2.Wf := by
  unfold State.cleanOne
  grind [State.loseLine_wf, State.setL2_wf, State.putLine_wf, State.countErr_wf]

theorem State.fenceHome_wf {s : State} {sl} (hs : s.Wf) : (s.fenceHome sl).Wf := by
  unfold State.fenceHome
  grind [State.updSlice_wf, State.dropL2_wf, !← State.cleanOne_wf, State.fencePart_wf, foldl_wf]

theorem State.lose_wf {s : State} {line l} (hs : s.Wf) : (s.lose line l).Wf := by
  unfold State.lose
  grind [State.loseLine_wf, State.fenceHome_wf]

theorem State.clean_wf {s : State} {line} (hs : s.Wf) : (s.clean line).2.Wf := by
  unfold State.clean
  grind [State.lose_wf, !← State.cleanOne_wf]

theorem State.evict_wf {s : State} {line} (hs : s.Wf) : (s.evict line).Wf := State.dropL2_wf (State.clean_wf hs)

theorem State.makeRoom_wf {s : State} {sl way} (hs : s.Wf) : (s.makeRoom sl way).Wf := by
  unfold State.makeRoom
  grind [State.evict_wf]

theorem State.fill_wf {s : State} {line own} (hs : s.Wf) : (s.fill line own).Wf := by
  unfold State.fill
  grind [State.makeRoom_wf, State.countErr_wf, State.setL2_wf]

theorem State.homeRead_wf {s : State} {line own} (hs : s.Wf) : Yields (fun r => r.2.Wf) State.Wf (s.homeRead line own) := by
  unfold State.homeRead
  grind [State.fill_wf, State.lose_wf, State.countErr_wf, State.reportLine_wf, State.dropL2_wf, State.setL2_wf, Yields.ok_iff,
    Yields.error_iff]

theorem State.lookLine_wf {s : State} {line own} (hs : s.Wf) : Yields (fun r => r.2.Wf) State.Wf (s.lookLine line own) := by
  unfold State.lookLine
  grind [!← State.homeRead_wf, Yields.ok_iff, Yields.error_iff]

theorem State.homeWrite_wf {s : State} {line own bs} (hs : s.Wf) : Yields (fun r => r.2.Wf) State.Wf (s.homeWrite line own bs) := by
  unfold State.homeWrite
  grind [State.fill_wf, !← State.clean_wf, State.setL2_wf, Yields.ok_iff, Yields.error_iff]

theorem State.reportPoison_wf {s : State} {line ctx} (hs : s.Wf) : (s.reportPoison line ctx).Wf := by
  unfold State.reportPoison
  grind [State.reportError_wf]

theorem State.upset_wf {s : State} {u} (hs : s.Wf) : (s.upset u).Wf := by
  unfold State.upset
  grind [State.setL2_wf, State.updCluster_wf, State.wf_of_memories, Cluster.Ok]

/-! ### Ops -/

theorem trapOf_wf {cause sub tval} {s : State} (hs : s.Wf) : (trapOf cause sub tval s).Wf := hs

theorem illop_wf {d} {s : State} (hs : s.Wf) : (illop d s).Wf := hs

theorem State.targetOk_wf {s : State} {t} (hs : s.Wf) : Yields Act.Wf State.Wf (s.targetOk t) := by
  unfold State.targetOk
  grind [!← State.lookLine_wf, trapOf_wf, Yields.ok_iff, Yields.error_iff, Act.Wf]

theorem State.enterHandler_wf {s : State} {core k t addr} (hs : s.Wf) : (s.enterHandler core k t addr).Wf := by
  unfold State.enterHandler
  grind [State.contextFault_wf, State.updStrm_wf, State.updCore_wf, State.wf_of_memories]

theorem State.hold_wf {s : State} {core k t} (hs : s.Wf) : (s.hold core k t).Wf := hs

theorem State.deliver_wf {s : State} {core k t addr} (hs : s.Wf) : (s.deliver core k t addr).Wf := by
  unfold State.deliver
  grind [State.enterHandler_wf, !← State.lookLine_wf, State.hold_wf, State.contextFault_wf, Yields.ok_iff, Yields.error_iff]

theorem State.endRun_wf {s : State} {n} (hs : s.Wf) : (s.endRun n).Wf := hs

theorem State.failRun_wf {s : State} {n trap} (hs : s.Wf) : (s.failRun n trap).Wf := by
  unfold State.failRun
  grind [State.logErr_wf, State.updStation_wf]

theorem State.take_wf {s : State} {t} (hs : s.Wf) : (s.take t).Wf := by
  unfold State.take
  grind [State.hold_wf, State.deliver_wf, State.failRun_wf]

theorem State.toWait_wf {s : State} {w} (hs : s.Wf) : (s.toWait w).Wf := by
  unfold State.toWait
  grind [State.updStrm_wf, State.updStation_wf]

theorem State.wake_wf {s : State} (hs : s.Wf) : (s.wake).Wf := by
  unfold State.wake
  grind [State.updStrm_wf, State.updStation_wf]

theorem finish_wf {words a} (ha : a.Wf) : NextWf (finish words a) := by
  unfold finish
  grind [State.take_wf, State.toWait_wf, State.wake_wf, State.setPc_wf, NextWf.next_iff, Act.Wf]

theorem State.shadowPush_wf {s : State} {link mark} (hs : s.Wf) : (s.shadowPush link mark).Wf := State.setHart_wf hs

theorem State.shadowPop_wf {s : State} (hs : s.Wf) : s.shadowPop.Wf := State.setHart_wf hs

/-! ### Operands -/

theorem State.setDq_wf {s : State} {q d} (hs : s.Wf) : (s.setDq q d).Wf := hs

theorem State.popDq_wf {s : State} {q} (hs : s.Wf) : Yields (fun _ => True) (fun r => r.2.Wf) (s.popDq q) := by
  unfold State.popDq
  grind [State.setStat_wf, State.setDq_wf, Yields.ok_iff, Yields.error_iff]

theorem State.pushDq_wf {s : State} {q v} (hs : s.Wf) : Yields (fun _ => True) State.Wf (s.pushDq q v) := by
  unfold State.pushDq
  grind [State.setStat_wf, State.setDq_wf, Yields.ok_iff, Yields.error_iff]

theorem State.readAll_wf {s : State} {rs} (hs : s.Wf) : Yields (fun _ => True) (fun r => r.2.Wf) (s.readAll rs) := by
  fun_induction State.readAll s rs <;> grind [!← State.popDq_wf, Yields.ok_iff, Yields.error_iff]

theorem State.writeReg_wf {s : State} {r v} (hs : s.Wf) : Yields (fun _ => True) State.Wf (s.writeReg r v) := by
  unfold State.writeReg
  grind [State.setHart_wf, !← State.pushDq_wf, Yields.ok_iff, Yields.error_iff]

theorem State.retire_wf {s0 : State} {s : State} {r v} (hs : s0.Wf) (hs1 : s.Wf) : (s0.retire s r v).Wf := by
  unfold State.retire
  grind [!← State.writeReg_wf, Yields.ok_iff, Yields.error_iff, Act.Wf]

theorem State.begin_wf {s : State} {g srcs dsts k} (hs : s.Wf) (hk : ∀ vs s1, s1.Wf → (k vs s1).Wf) : (s.begin g srcs dsts k).Wf := by
  unfold State.begin
  grind [!← State.readAll_wf, trapOf_wf, Act.Wf, Yields.ok_iff]

theorem op1_wf {g d a f} {s : State} (hs : s.Wf) : (op1 g d a f s).Wf := by
  unfold op1
  grind [State.begin_wf, State.retire_wf]

theorem op2_wf {g d a b f} {s : State} (hs : s.Wf) : (op2 g d a b f s).Wf := by
  unfold op2
  grind [State.begin_wf, State.retire_wf]

theorem op3_wf {g d a b c f} {s : State} (hs : s.Wf) : (op3 g d a b c f s).Wf := by
  unfold op3
  grind [State.begin_wf, State.retire_wf]

/-! ### Translate -/

theorem State.pteCopy_wf {s : State} {a} (hs : s.Wf) : (s.pteCopy a).2.Wf := by
  unfold State.pteCopy
  grind [!← State.homeRead_wf, Yields.ok_iff, Yields.error_iff]

theorem State.mendTable_wf {s : State} {part a} (hs : s.Wf) : (s.mendTable part a).Wf := by
  unfold State.mendTable
  grind [State.reportFault_wf, State.logErr_wf, State.setL2_wf]

theorem State.pteRead_wf {s : State} {part a} (hs : s.Wf) : (s.pteRead part a).2.Wf := by
  unfold State.pteRead
  grind [!← State.pteCopy_wf, State.mendTable_wf, Yields.ok_iff, Yields.error_iff]

theorem State.walkFrom_wf {s : State} {die part va base ls} (hs : s.Wf) : (s.walkFrom die part va base ls).2.Wf := by
  induction ls generalizing s base with
  | nil => exact hs
  | cons l rest ih =>
    unfold State.walkFrom
    grind [!← State.pteRead_wf, State.updDie_wf]

theorem State.walk_wf {s : State} {die ctx va} (hs : s.Wf) : (s.walk die ctx va).2.Wf := State.walkFrom_wf hs

theorem State.tlbPut_wf {s : State} {cl e} (hs : s.Wf) : (s.tlbPut cl e).Wf := by
  unfold State.tlbPut
  grind [State.updCluster_wf, Cluster.Ok]

theorem State.tlbFill_wf {s : State} {cl ctx va w} (hs : s.Wf) : (s.tlbFill cl ctx va w).Wf := by
  unfold State.tlbFill
  grind [State.tlbPut_wf]

theorem State.startWalk_wf {s : State} {cl ctx va} (hs : s.Wf) : (s.startWalk cl ctx va).Wf := by
  unfold State.startWalk
  grind [State.updDie_wf]

theorem State.hostAsk_wf {s : State} {cl ctx va} (hs : s.Wf) : (s.hostAsk cl ctx va).2.Wf := by
  unfold State.hostAsk
  grind [State.updCtx_wf]

theorem State.hostLacks_wf {s : State} {cl ctx va write} (hs : s.Wf) : (s.hostLacks cl ctx va write).2.Wf := by
  unfold State.hostLacks
  grind [!← State.walk_wf, State.updCluster_wf, !← State.hostAsk_wf, State.updCtx_wf, Cluster.Ok]

theorem State.translate_wf {s : State} {cl ctx va write} (hs : s.Wf) : (s.translate cl ctx va write).2.Wf := by
  unfold State.translate
  grind [!← State.hostLacks_wf, State.startWalk_wf, !← State.walk_wf, !← State.hostAsk_wf, State.tlbFill_wf]

theorem State.lookWalk_wf {s : State} {cl ctx va} (hs : s.Wf) : (s.lookWalk cl ctx va).Wf := by
  unfold State.lookWalk
  grind [!← State.walk_wf]

theorem State.locate_wf {s : State} {cl ctx va write} (hs : s.Wf) : Yields Act.Wf (fun r => r.2.Wf) (s.locate cl ctx va write) := by
  unfold State.locate
  grind [!← State.translate_wf, trapOf_wf, Yields.ok_iff, Yields.error_iff, Act.Wf]

/-! ### Scopes -/

theorem State.publish_wf {s : State} {p sc} (hs : s.Wf) : (s.publish p sc).2.Wf := by
  unfold State.publish
  grind [State.updKernel_wf]

theorem State.widenPins_wf {s : State} {p sc tier epoch} (hs : s.Wf) : (s.widenPins p sc tier epoch).Wf := hs

theorem State.liftPins_wf {s : State} {core k} (hs : s.Wf) : (s.liftPins core k).Wf := hs

theorem State.acquireFrom_wf {s : State} {p r e} (hs : s.Wf) : (s.acquireFrom p r e).Wf := by
  unfold State.acquireFrom
  grind [State.updStrm_wf, State.updKernel_wf, foldl_wf]

theorem State.gain_wf {s : State} {p r e} (hs : s.Wf) : (s.gain p r e).Wf := by
  unfold State.gain
  grind [State.acquireFrom_wf, State.updStrm_wf]

theorem State.setNsd_wf {s : State} {p} (hs : s.Wf) : (s.setNsd p).Wf := State.wf_ite (State.updStrm_wf hs) (State.updStation_wf hs)

theorem State.syncAll_wf {s : State} {p sc tier rs} (hs : s.Wf) : (s.syncAll p sc tier rs).Wf := by
  unfold State.syncAll
  grind [State.gain_wf, State.setNsd_wf, foldl_wf]

theorem State.dropReleases_wf {s : State} {a n} (hs : s.Wf) : (s.dropReleases a n).Wf := hs

theorem State.raceRecord_wf {s : State} {k p line store} (hs : s.Wf) : (s.raceRecord k p line store).Wf := hs

theorem State.raceAccess_wf {s : State} {line store} (hs : s.Wf) : Yields (fun _ => True) State.Wf (s.raceAccess line store) := by
  unfold State.raceAccess
  grind [State.raceRecord_wf, State.setStat_wf, Yields.ok_iff, Yields.error_iff]

/-! ### Views -/

theorem State.knowPast_wf {s : State} {gth key n k} (hs : s.Wf) : (s.knowPast gth key n k).Wf := hs

theorem State.viewRead_wf {s : State} {gth weak strong key bs} (hs : s.Wf) : (s.viewRead gth weak strong key bs).2.Wf := by
  unfold State.viewRead
  grind [State.knowPast_wf, !← State.free_wf]

theorem State.settle_wf {s : State} {keys} (hs : s.Wf) : (s.settle keys).Wf := by
  unfold State.settle
  grind [State.wf_of_memories]

theorem State.settleLines_wf {s : State} {f} (hs : s.Wf) : (s.settleLines f).Wf := by
  unfold State.settleLines
  grind [State.wf_of_memories]

theorem State.notePast_wf {s : State} {path core st old} (hs : s.Wf) : (s.notePast path core st old).Wf := hs

theorem State.carry_wf {s : State} {pfrom pto} (hs : s.Wf) : (s.carry pfrom pto).Wf := by
  unfold State.carry
  grind [State.wf_of_memories]

theorem State.carryAll_wf {s : State} {cores} (hs : s.Wf) : (s.carryAll cores).Wf := by
  unfold State.carryAll
  grind [State.wf_of_memories]

/-! ### Access -/

theorem State.retireWindow_wf {s : State} {core} (hs : s.Wf) : (s.retireWindow core).Wf := by
  unfold State.retireWindow
  grind [State.updCluster_wf, State.updCore_wf, Cluster.Ok]

theorem State.retireWindows_wf {s : State} {cl lo hi} (hs : s.Wf) : (s.retireWindows cl lo hi).Wf := by
  unfold State.retireWindows
  grind [State.retireWindow_wf, foldl_wf]

theorem State.guardStore_wf {s : State} {cl ctx tile a n y} (hs : s.Wf) : Yields Act.Wf (fun _ => True) (s.guardStore cl ctx tile a n y) := by
  unfold State.guardStore
  grind [trapOf_wf, Yields.ok_iff, Yields.error_iff, Act.Wf]

theorem State.backMark_wf {s : State} {core} (hs : s.Wf) : (s.backMark core).Wf := hs

theorem State.noteIssue_wf {s : State} {core q} (hs : s.Wf) : (s.noteIssue core q).Wf := by
  unfold State.noteIssue
  grind [State.updCore_wf]

theorem State.linesPut_wf {s : State} {a bs ls} (hs : s.Wf) : Yields (fun r => r.2.Wf) State.Wf (s.linesPut a bs ls) := by
  induction ls generalizing s with
  | nil => exact hs
  | cons line l ih =>
    unfold State.linesPut
    grind [!← State.homeWrite_wf, Yields.ok_iff, Yields.error_iff]

theorem State.journalAdd_wf {s : State} {core k tile line old} (hs : s.Wf) : Yields Act.Wf State.Wf (s.journalAdd core k tile line old) := by
  unfold State.journalAdd
  grind [!← State.linesPut_wf, State.updStrm_wf, State.settle_wf, Yields.ok_iff, Yields.error_iff, Act.Wf]

theorem State.unpinned_wf {s : State} {key} (hs : s.Wf) : Yields Act.Wf (fun _ => True) (s.unpinned key) := by
  unfold State.unpinned
  grind [Yields.ok_iff, Yields.error_iff, Act.Wf]

theorem State.touchAs_wf {s : State} {p loc va} (hs : s.Wf) : Yields Act.Wf State.Wf (s.touchAs p loc va) := by
  unfold State.touchAs
  grind [!← State.homeRead_wf, trapOf_wf, State.reportPoison_wf, Yields.ok_iff, Yields.error_iff, Act.Wf]

theorem State.touch_wf {s : State} {loc va} (hs : s.Wf) : Yields Act.Wf State.Wf (s.touch loc va) := State.touchAs_wf hs

theorem State.race_wf {s : State} {loc va c store} (hs : s.Wf) : Yields Act.Wf State.Wf (s.race loc va c store) := by
  unfold State.race
  grind [!← State.raceAccess_wf, trapOf_wf, Yields.ok_iff, Yields.error_iff, Act.Wf]

theorem State.setSeen_wf {s : State} {l} (hs : s.Wf) : (s.setSeen l).Wf := by
  unfold State.setSeen
  grind [State.updStrm_wf, State.updStation_wf]

theorem State.noteSeen_wf {s : State} {rs} (hs : s.Wf) : (s.noteSeen rs).Wf := State.wf_ite hs (State.setSeen_wf hs)

theorem State.orderOf_wf {s : State} {rs c} (hs : s.Wf) : (s.orderOf rs c).Wf := by
  unfold State.orderOf
  grind [State.noteSeen_wf, State.syncAll_wf]

theorem State.readOrder_wf {s : State} {pa n c} (hs : s.Wf) : (s.readOrder pa n c).Wf := State.orderOf_wf hs

theorem State.seeBytes_wf {s : State} {key bs c fresh} (hs : s.Wf) : (s.seeBytes key bs c fresh).2.Wf := by
  unfold State.seeBytes
  grind [!← State.viewRead_wf, State.readOrder_wf]

theorem State.readLoc_wf {s : State} {loc va n c} (hs : s.Wf) : Yields Act.Wf (fun r => r.2.Wf) (s.readLoc loc va n c) := by
  unfold State.readLoc
  simp only [bind, Except.bind]
  grind [!← State.touch_wf, !← State.race_wf, !← State.seeBytes_wf, Yields.ok_iff, Yields.error_iff, Act.Wf]

theorem State.leave_wf {s : State} {pa n fs} (hs : s.Wf) : (s.leave pa n fs).Wf := hs

theorem State.writeOrder_wf {s : State} {pa n c atomic} (hs : s.Wf) : (s.writeOrder pa n c atomic).Wf := by
  unfold State.writeOrder
  grind [State.dropReleases_wf, State.leave_wf, !← State.publish_wf, State.widenPins_wf]

theorem State.noteStore_wf {s : State} {key old c} (hs : s.Wf) : (s.noteStore key old c).Wf :=
  State.wf_ite (State.notePast_wf hs) (State.settle_wf hs)

theorem State.writeLoc_wf {s : State} {loc bs c atomic} (hs : s.Wf) : Yields Act.Wf State.Wf (s.writeLoc loc bs c atomic) := by
  cases loc with
  | remote dest off => exact hs
  | host ha =>
    have hn {pa old} : (s.noteStore pa old c).Wf := State.noteStore_wf hs
    exact State.writeOrder_wf (State.wf_withHost hn (foldl_memPut_wf hn.host))
  | home pa =>
    unfold State.writeLoc
    grind [!← State.journalAdd_wf, State.noteStore_wf, !← State.homeWrite_wf, State.writeOrder_wf, Act.Wf, Yields.ok_iff, Yields.error_iff]

theorem State.storeLoc_wf {s : State} {loc va bs c} (hs : s.Wf) : Yields Act.Wf State.Wf (s.storeLoc loc va bs c) := by
  unfold State.storeLoc
  simp only [bind, Except.bind]
  grind [!← State.race_wf, !← State.writeLoc_wf, !← State.unpinned_wf, Yields.ok_iff, Yields.error_iff, Act.Wf]

theorem State.releaseGate_wf {s : State} {r} (hs : s.Wf) : Yields Act.Wf (fun _ => True) (s.releaseGate r) := by
  unfold State.releaseGate
  grind [Yields.ok_iff, Yields.error_iff, Act.Wf]

theorem State.storeUe_wf {s : State} {cl y} (hs : s.Wf) : (s.storeUe cl y).Wf := hs

theorem State.tilePuts_wf {s : State} {cl t bs} (hs : s.Wf) : (s.tilePuts cl t bs).Wf := by
  unfold State.tilePuts
  grind [State.updCluster_wf, memPuts_wf, Cluster.Ok]

theorem State.tileStore_wf {s : State} {t bs} (hs : s.Wf) : Yields Act.Wf State.Wf (s.tileStore t bs) := by
  unfold State.tileStore
  grind [State.cluster_wf, !← State.journalAdd_wf, State.tilePuts_wf, State.retireWindows_wf, State.noteStore_wf, Yields.ok_iff,
    Yields.error_iff, Act.Wf]

theorem State.remoteCheck.rest_wf {s : State} {bad dest} (hb : ∀ c k, Yields Act.Wf (fun _ => True) (bad c k)) :
    Yields Act.Wf (fun _ => True) (State.remoteCheck.rest s bad dest) := by
  unfold State.remoteCheck.rest
  grind [Yields.ok_iff]

theorem State.remoteCheck_wf {s : State} {dest c fadd y} (hs : s.Wf) : Yields Act.Wf (fun _ => True) (s.remoteCheck dest c fadd y) := by
  have hb (cause sub) : Yields Act.Wf (fun _ : Unit => True) (.error (trapOf cause sub y s)) :=
    trapOf_wf (cause := cause) (sub := sub) (tval := y) hs
  unfold State.remoteCheck
  grind [State.remoteCheck.rest_wf]

theorem State.remoteAddAt_wf {s : State} {sn core k kind dest off y size strong data} (hs : s.Wf) :
    (s.remoteAddAt sn core k kind dest off y size strong data).Wf :=
  hs

theorem State.remoteAdd_wf {s : State} {core k kind dest off y size strong data} (hs : s.Wf) :
    (s.remoteAdd core k kind dest off y size strong data).Wf :=
  hs

theorem State.remoteIssue_wf {s : State} {kind dest off y size strong quiet data} (hs : s.Wf) :
    Yields Act.Wf State.Wf (s.remoteIssue kind dest off y size strong quiet data) := by
  unfold State.remoteIssue
  grind [State.remoteAdd_wf, Yields.ok_iff, Yields.error_iff, Act.Wf]

theorem State.remoteDone_wf {s : State} {core k tag} (hs : s.Wf) : (s.remoteDone core k tag).Wf := hs

theorem arenaFail_wf {a} {s : State} (hs : s.Wf) : (arenaFail a s).Wf := hs

theorem State.arenaLoc_wf {s : State} {off write} (hs : s.Wf) : Yields Act.Wf (fun r => r.2.Wf) (s.arenaLoc off write) := by
  unfold State.arenaLoc
  grind [arenaFail_wf, trapOf_wf, !← State.locate_wf, State.updMe_wf, Yields.ok_iff, Yields.error_iff, Act.Wf]

theorem State.arenaGet_wf {s : State} {off} (hs : s.Wf) : Yields Act.Wf (fun r => r.2.Wf) (s.arenaGet off) := by
  unfold State.arenaGet
  simp only [bind, Except.bind]
  grind [!← State.arenaLoc_wf, !← State.unpinned_wf, State.storeUe_wf, State.readOrder_wf, !← State.touch_wf, Yields.ok_iff,
    Yields.error_iff, Act.Wf]

theorem State.arenaPut_wf {s : State} {off v} (hs : s.Wf) : Yields Act.Wf State.Wf (s.arenaPut off v) := by
  unfold State.arenaPut
  simp only [bind, Except.bind]
  grind [!← State.arenaLoc_wf, !← State.unpinned_wf, !← State.tileStore_wf, State.writeOrder_wf, !← State.storeLoc_wf, Yields.ok_iff,
    Yields.error_iff, Act.Wf]

theorem State.arenaGets_wf {s : State} {off n} (hs : s.Wf) : Yields Act.Wf (fun r => r.2.Wf) (s.arenaGets off n) := by
  induction n generalizing s off with
  | zero => exact hs
  | succ n ih => exact (State.arenaGet_wf hs).bind fun ⟨_, _⟩ h1 => (ih h1).bind fun ⟨_, _⟩ h2 => h2

theorem State.arenaPuts_wf {s : State} {off vs} (hs : s.Wf) : Yields Act.Wf State.Wf (s.arenaPuts off vs) := by
  induction vs generalizing s off with
  | nil => exact hs
  | cons v vs ih => exact (State.arenaPut_wf hs).bind fun _ h1 => ih h1

theorem State.arenaFrom_wf {s : State} {i n} (hs : s.Wf) : Yields Act.Wf (fun r => r.2.Wf) (s.arenaFrom i n) := by
  induction n generalizing s i with
  | zero => exact hs
  | succ n ih => exact (State.arenaGets_wf hs).bind fun ⟨_, _⟩ h1 => (ih h1).bind fun ⟨_, _⟩ h2 => h2

theorem State.arenaAll_wf {s : State} (hs : s.Wf) : Yields Act.Wf (fun r => r.2.Wf) (s.arenaAll) := State.arenaFrom_wf hs

theorem State.updLists_wf {s : State} {f} (hs : s.Wf) : (s.updLists f).Wf := hs

theorem State.arenaAppend_wf {s : State} {slot es} (hs : s.Wf) : Yields Act.Wf State.Wf (s.arenaAppend slot es) := by
  unfold State.arenaAppend
  simp only [bind, Except.bind]
  grind [trapOf_wf, !← State.arenaPuts_wf, State.updLists_wf, Yields.ok_iff, Yields.error_iff, Act.Wf]

theorem State.listBytes_wf {s : State} {a n} (hs : s.Wf) : Yields Act.Wf (fun r => r.2.Wf) (s.listBytes a n) := by
  unfold State.listBytes
  simp only [bind, Except.bind]
  grind [!← State.arenaAll_wf, Yields.ok_iff, Yields.error_iff, Act.Wf]

/-! ### Window -/

theorem State.writePstat_wf {s : State} {p v} (hs : s.Wf) : (s.writePstat p v).Wf := by
  unfold State.writePstat
  grind [State.updPart_wf]

theorem State.zeroStaging_wf {s : State} {m} (hs : s.Wf) : (s.zeroStaging m).Wf :=
  State.wf_of_slices hs (forall_mem_mapIdx hs.slices fun i x hx => by split; exacts [rfl, hx])

theorem State.writePkill_wf {s : State} {p v} (hs : s.Wf) : (s.writePkill p v).Wf := by
  unfold State.writePkill
  grind [State.updPart_wf, State.updCtx_wf]

theorem State.inBuild_wf {s : State} {p f} (hs : s.Wf) : (s.inBuild p f).Wf := State.wf_ite (State.updPart_wf hs) hs

theorem State.writePart_wf {s : State} {p o v} (hs : s.Wf) : (s.writePart p o v).Wf := by
  unfold State.writePart
  grind [State.updPart_wf, State.inBuild_wf, State.zeroStaging_wf, State.writePstat_wf, State.writePkill_wf]

theorem State.setPlat_wf {s : State} {p k x} (hs : s.Wf) : (s.setPlat p k x).Wf := hs

theorem State.flushRange_wf {s : State} {lo n} (hs : s.Wf) : (s.flushRange lo n).Wf := foldl_wf (fun _ _ h => State.evict_wf h) hs

theorem State.writePlatwin_wf {s : State} {p k v} (hs : s.Wf) : (s.writePlatwin p k v).Wf := by
  unfold State.writePlatwin
  grind [State.setPlat_wf, State.flushRange_wf]

theorem State.writePlat_wf {s : State} {p k o v} (hs : s.Wf) : (s.writePlat p k o v).Wf := by
  unfold State.writePlat
  grind [State.writePlatwin_wf, State.setPlat_wf]

theorem State.doorbell_wf {s : State} {p} (hs : s.Wf) : (s.doorbell p).Wf := State.wf_ite (State.raise_wf hs) (State.updPart_wf hs)

theorem State.writeMbox_wf {s : State} {p o v} (hs : s.Wf) : (s.writeMbox p o v).Wf := by
  unfold State.writeMbox
  grind [State.updPart_wf, State.doorbell_wf]

theorem State.hostWrite_wf {s : State} {o v} (hs : s.Wf) : (s.hostWrite o v).Wf := by
  unfold State.hostWrite
  grind [State.writePlat_wf, State.writeMbox_wf]

theorem State.regWrite_wf {s : State} {o v} (hs : s.Wf) : (s.regWrite o v).Wf := by
  unfold State.regWrite
  grind [State.writePart_wf, State.hostWrite_wf, State.wf_of_memories]

/-! ### LoadStore -/

theorem State.memBegin_wf {s : State} {g srcs dsts k} (hs : s.Wf) (hk : ∀ vs, Yields Act.Wf State.Wf (k vs)) : (s.memBegin g srcs dsts k).Wf := by
  unfold State.memBegin
  grind [!← State.readAll_wf, trapOf_wf, Act.Wf, Yields.ok_iff, Yields.error_iff]

theorem State.resolve_wf {s : State} {tileForm y n} (hs : s.Wf) : Yields Act.Wf (fun _ => True) (s.resolve tileForm y n) := by
  unfold State.resolve
  grind [trapOf_wf, Yields.ok_iff, Yields.error_iff, Act.Wf]

theorem State.putSlot_wf {s : State} {q e} (hs : s.Wf) : (s.putSlot q e).Wf := by
  unfold State.putSlot
  grind [State.setStat_wf, State.setDq_wf]

theorem State.holdSlot_wf {s : State} {d} {a : Act} (ha : a.Wf) : (s.holdSlot d a).Wf := by
  unfold State.holdSlot
  grind [State.putSlot_wf, Act.Wf]

theorem State.reserveSlot_wf {s : State} {q} (hs : s.Wf) : (s.reserveSlot q).2.Wf := by
  unfold State.reserveSlot
  grind [State.putSlot_wf, State.setDq_wf]

theorem State.loadInto_wf {s : State} {d v later host} (hs : s.Wf) : (s.loadInto d v later host).Wf := by
  unfold State.loadInto
  grind [!← State.reserveSlot_wf, State.updMe_wf, State.putSlot_wf, State.setHart_wf]

theorem State.fillSlot_wf {s : State} {core x v} (hs : s.Wf) : (s.fillSlot core x v).Wf := hs

theorem State.remoteOrder_wf {s : State} {r c} (hs : s.Wf) : (s.remoteOrder r c).Wf := State.orderOf_wf hs

theorem State.holdReserved_wf {s : State} {r} (hs : s.Wf) : (s.holdReserved r).Wf := by
  unfold State.holdReserved
  grind [State.setDq_wf]

theorem State.loadBack_wf {s : State} {r a n sx c d} (hs : s.Wf) : Yields Act.Wf State.Wf (s.loadBack r a n sx c d) := by
  unfold State.loadBack
  grind [!← State.listBytes_wf, State.holdReserved_wf, State.remoteDone_wf, State.remoteOrder_wf, State.fillSlot_wf, State.loadInto_wf,
    Yields.ok_iff, Yields.error_iff, Act.Wf]

theorem State.remoteLoad_wf {s : State} {dest off y n sx c d lb} (hs : s.Wf) : Yields Act.Wf State.Wf (s.remoteLoad dest off y n sx c d lb) := by
  unfold State.remoteLoad
  simp only [bind, Except.bind]
  grind [!← State.remoteCheck_wf, State.loadInto_wf, !← State.unpinned_wf, State.remoteAddAt_wf, !← State.reserveSlot_wf, Yields.ok_iff,
    Yields.error_iff, Act.Wf]

theorem State.globalLoad_wf {s : State} {a y n sx c d} (hs : s.Wf) : Yields Act.Wf State.Wf (s.globalLoad a y n sx c d) := by
  unfold State.globalLoad
  simp only [bind, Except.bind]
  grind [!← State.locate_wf, !← State.remoteLoad_wf, State.loadInto_wf, !← State.readLoc_wf, !← State.listBytes_wf, Yields.ok_iff,
    Yields.error_iff, Act.Wf]

theorem State.stationLoc_wf {s : State} {y n} (hs : s.Wf) : Yields Act.Wf (fun _ => True) (s.stationLoc y n) := by
  unfold State.stationLoc
  grind [trapOf_wf, Yields.ok_iff, Yields.error_iff, Act.Wf]

theorem State.stationLoad_wf {s : State} {tileForm y n sx c d} (hs : s.Wf) : Yields Act.Wf State.Wf (s.stationLoad tileForm y n sx c d) := by
  unfold State.stationLoad
  simp only [bind, Except.bind]
  grind [trapOf_wf, !← State.stationLoc_wf, State.setHart_wf, !← State.readLoc_wf, Yields.ok_iff, Yields.error_iff, Act.Wf]

theorem actLdAt_wf {extra g sx tile cls sz sc d a off} {s : State} (hs : s.Wf) : (actLdAt extra g sx tile cls sz sc d a off s).Wf := by
  refine State.memBegin_wf hs fun vs => ?_
  dsimp only
  refine Yields.ite (State.stationLoad_wf hs) (Yields.ite hs ?_)
  generalize hb : (s.resolve tile _ _ >>= _) = body
  have hbody : Yields Act.Wf State.Wf body := by
    rw [← hb]
    refine (State.resolve_wf hs).bind fun r _ => ?_
    cases r with
    | tile t =>
      exact (State.unpinned_wf hs).bind fun _ _ => Yields.ite (State.countErr_wf hs) (State.loadInto_wf (State.seeBytes_wf hs))
    | global ga =>
      dsimp only
      split
      · exact State.loadBack_wf hs
      · exact State.globalLoad_wf hs
  split
  · exact hbody
  · refine Yields.ite hs ?_
    split
    · exact hbody
    · exact State.holdSlot_wf hbody

theorem actLd_wf {g sx tile cls sz sc d a off} {s : State} (hs : s.Wf) : (actLd g sx tile cls sz sc d a off s).Wf := actLdAt_wf hs

theorem State.remoteStore_wf {s : State} {dest off y n c v} (hs : s.Wf) : Yields Act.Wf State.Wf (s.remoteStore dest off y n c v) := by
  unfold State.remoteStore
  simp only [bind, Except.bind]
  grind [trapOf_wf, !← State.remoteCheck_wf, !← State.unpinned_wf, !← State.remoteIssue_wf, State.writeOrder_wf, Yields.ok_iff,
    Yields.error_iff, Act.Wf]

theorem State.globalStore_wf {s : State} {a y n c v} (hs : s.Wf) : Yields Act.Wf State.Wf (s.globalStore a y n c v) := by
  unfold State.globalStore
  simp only [bind, Except.bind]
  grind [!← State.locate_wf, !← State.guardStore_wf, !← State.remoteStore_wf, !← State.arenaAppend_wf, !← State.storeLoc_wf,
    Yields.ok_iff, Yields.error_iff, Act.Wf]

theorem State.stationStore_wf {s : State} {tileForm y n c v} (hs : s.Wf) : Yields Act.Wf State.Wf (s.stationStore tileForm y n c v) := by
  unfold State.stationStore
  simp only [bind, Except.bind]
  grind [trapOf_wf, !← State.stationLoc_wf, State.regWrite_wf, !← State.storeLoc_wf, Yields.ok_iff, Yields.error_iff, Act.Wf]

theorem actStAt_wf {extra g tile cls sz sc d a off} {s : State} (hs : s.Wf) : (actStAt extra g tile cls sz sc d a off s).Wf := by
  refine State.memBegin_wf hs fun vs => ?_
  dsimp only
  refine Yields.ite (State.stationStore_wf hs) (Yields.ite hs ((State.resolve_wf hs).bind fun r _ => ?_))
  cases r with
  | tile t =>
    exact (State.guardStore_wf hs).bind fun _ _ => (State.unpinned_wf hs).bind fun _ _ => (State.releaseGate_wf hs).bind fun _ _ =>
      (State.tileStore_wf hs).bind fun _ h1 => State.writeOrder_wf h1
  | global ga => exact (State.releaseGate_wf hs).bind fun _ _ => State.globalStore_wf hs

theorem actSt_wf {g tile cls sz sc d a off} {s : State} (hs : s.Wf) : (actSt g tile cls sz sc d a off s).Wf := actStAt_wf hs

theorem State.atomLoc_wf {s : State} {loc va n c op o cmp} (hs : s.Wf) : Yields Act.Wf (fun r => r.2.Wf) (s.atomLoc loc va n c op o cmp) := by
  unfold State.atomLoc
  simp only [bind, Except.bind]
  grind [!← State.readLoc_wf, !← State.writeLoc_wf, Yields.ok_iff, Yields.error_iff, Act.Wf]

theorem State.remoteAtom_wf {s : State} {dest off y n c op o cmp d} (hs : s.Wf) :
    Yields Act.Wf State.Wf (s.remoteAtom dest off y n c op o cmp d) := by
  unfold State.remoteAtom
  simp only [bind, Except.bind]
  grind [!← State.remoteCheck_wf, !← State.unpinned_wf, !← State.remoteIssue_wf, State.writeOrder_wf, State.updMe_wf, Yields.ok_iff,
    Yields.error_iff, Act.Wf]

theorem State.atomBack_wf {s : State} {r c d} (hs : s.Wf) : Yields Act.Wf State.Wf (s.atomBack r c d) := by
  unfold State.atomBack
  grind [!← State.writeReg_wf, State.remoteDone_wf, State.remoteOrder_wf, Yields.ok_iff, Yields.error_iff, Act.Wf]

theorem actAtom_wf {g op big ord sc tier d a b} {s : State} (hs : s.Wf) : (actAtom g op big ord sc tier d a b s).Wf := by
  refine State.memBegin_wf hs fun vs => ?_
  have hput {s1 : State} {old : Nat} (h1 : s1.Wf) : Yields Act.Wf State.Wf
      (match s1.writeReg d (BitVec.ofNat 64 old) with | .ok s2 => .ok s2 | .error w => .error (.wait w s)) := by
    grind [!← State.writeReg_wf, Act.Wf, Yields.ok_iff, Yields.error_iff]
  dsimp only
  split
  · refine (State.stationLoc_wf hs).bind fun r _ => ?_
    cases r with
    | inl r => exact hput (State.wf_ite hs (State.regWrite_wf hs))
    | inr pa => exact (State.atomLoc_wf hs).bind fun ⟨_, _⟩ h1 => hput h1
  · refine Yields.ite hs (Yields.ite hs ((State.resolve_wf hs).bind fun r _ => ?_))
    cases r with
    | tile t =>
      refine (State.guardStore_wf hs).bind fun _ _ => (State.unpinned_wf hs).bind fun _ _ => ?_
      refine Yields.ite (State.countErr_wf hs) ((State.releaseGate_wf hs).bind fun _ _ => ?_)
      have h1 {x bs c} : (s.seeBytes x bs c false).2.Wf := State.seeBytes_wf hs
      exact Yields.ite (hput h1) ((State.tileStore_wf h1).bind fun _ h2 => hput (State.writeOrder_wf h2))
    | global ga =>
      dsimp only
      split
      · exact State.atomBack_wf hs
      · refine (State.locate_wf hs).bind fun ⟨loc,
      s1⟩ h1 => (State.guardStore_wf h1).bind fun _ _ => (State.releaseGate_wf h1).bind fun _ _ => ?_
        cases loc with
        | remote dest off => exact State.remoteAtom_wf h1
        | home pa => exact (State.atomLoc_wf h1).bind fun ⟨_, _⟩ h2 => hput h2
        | host ha => exact (State.atomLoc_wf h1).bind fun ⟨_, _⟩ h2 => hput h2

theorem State.fenceAcquire_wf {s : State} {sc tier} (hs : s.Wf) : (s.fenceAcquire sc tier).Wf :=
  State.wf_ite hs (State.setSeen_wf (State.syncAll_wf hs))

theorem State.fenceRelease_wf {s : State} {sc tier} (hs : s.Wf) : (s.fenceRelease sc tier).Wf := by
  unfold State.fenceRelease
  grind [!← State.publish_wf, State.widenPins_wf, State.updStrm_wf, State.updStation_wf]

theorem State.fenceFull_wf {s : State} (hs : s.Wf) : (s.fenceFull).Wf := State.wf_ite hs (State.updMe_wf hs)

theorem actFence_wf {g kind sc tier} {s : State} (hs : s.Wf) : (actFence g kind sc tier s).Wf := by
  unfold actFence
  grind [trapOf_wf, State.fenceAcquire_wf, State.fenceRelease_wf, State.fenceFull_wf, Act.Wf]

theorem actXfence_wf {g pfrom pto} {s : State} (hs : s.Wf) : (actXfence g pfrom pto s).Wf := by
  unfold actXfence
  grind [trapOf_wf, State.carry_wf, Act.Wf]

/-! ### Multi -/

theorem State.eltOperand_wf {s : State} {e} (hs : s.Wf) : Yields Act.Wf (fun _ => True) (s.eltOperand e) := by
  unfold State.eltOperand
  grind [trapOf_wf, Yields.ok_iff, Yields.error_iff, Act.Wf]

theorem State.eltsOperand_wf {s : State} {es} (hs : s.Wf) : Yields Act.Wf (fun _ => True) (s.eltsOperand es) := by
  induction es with
  | nil => trivial
  | cons e es ih => exact (State.eltOperand_wf hs).bind fun _ _ => ih

theorem State.eltPlace_wf {s : State} {write e} (hs : s.Wf) : Yields Act.Wf (fun r => r.2.Wf) (s.eltPlace write e) := by
  unfold State.eltPlace
  split
  · simp only [bind, Except.bind]
    grind [!← State.guardStore_wf, !← State.unpinned_wf, trapOf_wf, State.storeUe_wf, Yields.ok_iff, Yields.error_iff]
  · refine (State.locate_wf hs).bind fun ⟨l, s1⟩ h1 => ?_
    simp only [bind, Except.bind]
    grind [!← State.guardStore_wf, !← State.unpinned_wf, Yields.ok_iff, Yields.error_iff]

theorem State.eltsPlace_wf {s : State} {write bad es} (hs : s.Wf) (hb : ∀ a, bad = some a → a.Wf) :
    Yields Act.Wf (fun r => r.2.Wf) (s.eltsPlace write bad es) := by
  induction es generalizing s bad with
  | nil => unfold State.eltsPlace; grind [Yields.ok_iff, Yields.error_iff]
  | cons e es ih =>
    have hbad {a : Act} (ha : a.Wf) : (bad.getD a).Wf := by cases bad; exacts [ha, hb _ rfl]
    unfold State.eltsPlace
    grind [!← State.eltPlace_wf, Act.Wf, Yields.ok_iff, Yields.error_iff]

theorem viaShadow_wf {α : Type} {P : α → Prop} {r : Except Act α} (hr : Yields Act.Wf P r) : Yields Act.Wf P (viaShadow r) := by
  unfold viaShadow
  grind [State.hold_wf, Act.Wf, Yields.error_iff]

theorem State.eltsRemote_wf {s : State} {c store l} (hs : s.Wf) : Yields Act.Wf (fun _ => True) (s.eltsRemote c store l) := by
  unfold State.eltsRemote
  grind [trapOf_wf, !← State.remoteCheck_wf, Yields.ok_iff, Yields.error_iff, Act.Wf]

theorem State.touchAll_wf {s : State} {l} (hs : s.Wf) : Yields Act.Wf State.Wf (s.touchAll l) := by
  induction l generalizing s with
  | nil => exact hs
  | cons x l ih => exact (State.touch_wf hs).bind fun _ h1 => ih h1

theorem State.raceBad_wf {s : State} {c store l} (hs : s.Wf) : ∀ a, s.raceBad c store l = some a → a.Wf := by
  intro a ha
  obtain ⟨x, -, hx⟩ := List.exists_of_findSome?_eq_some ha
  grind [!← State.race_wf, Yields.error_iff]

theorem State.raceNote_wf {s : State} {c store x} (hs : s.Wf) : (s.raceNote c store x).Wf := by
  unfold State.raceNote
  grind [!← State.race_wf, Yields.ok_iff, Yields.error_iff, Act.Wf]

theorem State.raceAll_wf {s : State} {c store l} (hs : s.Wf) : Yields Act.Wf State.Wf (s.raceAll c store l) := by
  unfold State.raceAll
  grind [→ State.raceBad_wf, State.raceNote_wf, foldl_wf, Yields.ok_iff, Yields.error_iff, Act.Wf]

theorem State.storeReady_wf {s : State} {a2} (hs : s.Wf) : Yields Act.Wf (fun _ => True) (s.storeReady a2) := by
  fun_induction State.storeReady s a2 <;> grind [Yields.ok_iff, Yields.error_iff, Act.Wf]

theorem State.eltBytes_wf {s : State} {c fresh i x} (hs : s.Wf) : (s.eltBytes c fresh i x).2.Wf := by
  unfold State.eltBytes
  grind [!← State.seeBytes_wf]

theorem State.eltsBytes_wf {s : State} {c fresh i l} (hs : s.Wf) : (s.eltsBytes c fresh i l).2.Wf := by
  induction l generalizing s i with
  | nil => exact hs
  | cons x xs ih => exact ih (State.eltBytes_wf hs)

theorem State.listedAll_wf {s : State} {l} (hs : s.Wf) : Yields Act.Wf (fun r => r.2.Wf) (s.listedAll l) := by
  unfold State.listedAll
  simp only [bind, Except.bind]
  grind [!← State.arenaAll_wf, Yields.ok_iff, Yields.error_iff, Act.Wf]

theorem State.gatherWith_wf {s : State} {c fresh lb l} (hs : s.Wf) : Yields Act.Wf (fun r => r.2.Wf) (s.gatherWith c fresh lb l) := by
  unfold State.gatherWith
  simp only [bind, Except.bind]
  grind [!← State.touchAll_wf, !← State.raceAll_wf, !← State.eltsBytes_wf, Yields.ok_iff, Yields.error_iff, Act.Wf]

theorem State.readElts_wf {s : State} {via l chk} (hs : s.Wf)
    (hchk : ∀ bs s, s.Wf → (chk bs s).1.Wf ∧ ∀ a, (chk bs s).2 = some a → a.Wf) :
    Yields Act.Wf (fun r => r.2.Wf) (s.readElts via l chk) := by
  have hp : Yields Act.Wf (fun r => r.2.Wf) (s.eltsPlace false none l) := State.eltsPlace_wf hs none_act_wf
  have hv := viaShadow_wf hp
  have hr {bs s r} (hs : s.Wf) (h : chk bs s = r) : r.1.Wf ∧ ∀ a, r.2 = some a → a.Wf := h ▸ hchk bs s hs
  unfold State.readElts
  split
  all_goals
    refine Yields.bind (P := fun r : List (Elt × Spot) × State => r.2.Wf) ‹_› fun ⟨ps,
    s1⟩ h1 => (State.eltsRemote_wf h1).bind fun _ _ => (State.listedAll_wf h1).bind fun ⟨lb, s2⟩ h2 => ?_
    have hg := State.gatherWith_wf (c := .plain) (fresh := true) (lb := lb) (l := ps) h2
    grind [Act.Wf, Yields.ok_iff, Yields.error_iff]

theorem State.tileRun_wf {s : State} {t c bs} (hs : s.Wf) : Yields Act.Wf State.Wf (s.tileRun t c bs) := by
  cases bs with
  | nil => exact hs
  | cons b bs =>
    unfold State.tileRun
    dsimp only
    split
    · next e h1 => exact (State.journalAdd_wf hs).error h1
    · next s1 h1 =>
      have hw : s1.Wf := (State.journalAdd_wf hs).ok h1
      exact State.writeOrder_wf (State.updCluster_wf (State.retireWindows_wf (State.noteStore_wf hw)) fun _ hc =>
        ⟨foldl_memPut_wf hc.1, hc.2⟩)

theorem State.storeRuns_wf {s : State} {c rs} (hs : s.Wf) : Yields Act.Wf State.Wf (s.storeRuns c rs) := by
  induction rs generalizing s with
  | nil => exact hs
  | cons r rest ih =>
    unfold State.storeRuns
    split
    · exact (State.tileRun_wf hs).bind fun _ h1 => ih h1
    · exact (State.writeLoc_wf hs).bind fun _ h1 => ih h1

theorem State.runsBegin_wf {s : State} {c l runs} (hs : s.Wf) : Yields Act.Wf (fun r => r.2.Wf) (s.runsBegin c l runs) := by
  unfold State.runsBegin
  simp only [bind, Except.bind]
  grind [!← State.storeReady_wf, !← State.raceAll_wf, !← State.arenaAppend_wf, Yields.ok_iff, Yields.error_iff, Act.Wf]

theorem State.writeElts_wf {s : State} {merge c l} (hs : s.Wf) : Yields Act.Wf State.Wf (s.writeElts merge c l) :=
  (viaShadow_wf (State.eltsPlace_wf hs none_act_wf)).bind fun ⟨_, _⟩ h1 => (State.eltsRemote_wf h1).bind fun _ _ =>
    (State.runsBegin_wf h1).bind fun ⟨_, _⟩ h2 => State.storeRuns_wf h2

/-! ### Vector -/

theorem State.setVreg_wf {s : State} {r v} (hs : s.Wf) : (s.setVreg r v).Wf := hs

theorem State.setMask_wf {s : State} {n m} (hs : s.Wf) : (s.setMask n m).Wf := State.wf_ite hs (State.updCore_wf hs)

theorem State.vecPut_wf {s : State} {m vd f} (hs : s.Wf) : (s.vecPut m vd f).Wf := hs

theorem State.vecPutFl_wf {s : State} {m vd f} (hs : s.Wf) : (s.vecPutFl m vd f).Wf := hs

theorem actVadd_wf {ty vd va vb amod bmod m rm} {s : State} (hs : s.Wf) : (actVadd ty vd va vb amod bmod m rm s).Wf := hs

theorem actVsub_wf {ty vd va vb amod bmod m rm} {s : State} (hs : s.Wf) : (actVsub ty vd va vb amod bmod m rm s).Wf := hs

theorem actVmul_wf {ty vd va vb amod bmod m rm} {s : State} (hs : s.Wf) : (actVmul ty vd va vb amod bmod m rm s).Wf := hs

theorem actVfma_wf {ty vd va vb vc amod bmod m rm} {s : State} (hs : s.Wf) : (actVfma ty vd va vb vc amod bmod m rm s).Wf := hs

theorem actVfms_wf {ty vd va vb vc amod bmod m rm} {s : State} (hs : s.Wf) : (actVfms ty vd va vb vc amod bmod m rm s).Wf := hs

theorem actVmin_wf {ty vd va vb amod bmod m} {s : State} (hs : s.Wf) : (actVmin ty vd va vb amod bmod m s).Wf := hs

theorem actVmax_wf {ty vd va vb amod bmod m} {s : State} (hs : s.Wf) : (actVmax ty vd va vb amod bmod m s).Wf := hs

theorem actVabs_wf {ty vd va amod m} {s : State} (hs : s.Wf) : (actVabs ty vd va amod m s).Wf := hs

theorem actVneg_wf {ty vd va amod m} {s : State} (hs : s.Wf) : (actVneg ty vd va amod m s).Wf := hs

theorem actViadd_wf {w mode vd va vb amod bmod m} {s : State} (hs : s.Wf) : (actViadd w mode vd va vb amod bmod m s).Wf := hs

theorem actVisub_wf {w mode vd va vb amod bmod m} {s : State} (hs : s.Wf) : (actVisub w mode vd va vb amod bmod m s).Wf := hs

theorem actVimul_wf {w mode vd va vb amod bmod m} {s : State} (hs : s.Wf) : (actVimul w mode vd va vb amod bmod m s).Wf := hs

theorem actVimad_wf {w vd va vb vc amod bmod m} {s : State} (hs : s.Wf) : (actVimad w vd va vb vc amod bmod m s).Wf := hs

theorem actVshl_wf {w vd va vb amod bmod m} {s : State} (hs : s.Wf) : (actVshl w vd va vb amod bmod m s).Wf := hs

theorem actVshr_wf {w vd va vb amod bmod m} {s : State} (hs : s.Wf) : (actVshr w vd va vb amod bmod m s).Wf := hs

theorem actVsra_wf {w vd va vb amod bmod m} {s : State} (hs : s.Wf) : (actVsra w vd va vb amod bmod m s).Wf := hs

theorem actVlogt_wf {vd va vb vc tt m} {s : State} (hs : s.Wf) : (actVlogt vd va vb vc tt m s).Wf := hs

theorem actVimin_wf {w uns vd va vb amod bmod m} {s : State} (hs : s.Wf) : (actVimin w uns vd va vb amod bmod m s).Wf := hs

theorem actVimax_wf {w uns vd va vb amod bmod m} {s : State} (hs : s.Wf) : (actVimax w uns vd va vb amod bmod m s).Wf := hs

theorem actVcmp_wf {ty cc md va vb m} {s : State} (hs : s.Wf) : (actVcmp ty cc md va vb m s).Wf := State.setMask_wf hs

theorem actVsel_wf {vd va vb m} {s : State} (hs : s.Wf) : (actVsel vd va vb m s).Wf := hs

theorem actVmsk_wf {md ma mb tt m} {s : State} (hs : s.Wf) : (actVmsk md ma mb tt m s).Wf := State.setMask_wf hs

theorem actVrcp_wf {vd va m} {s : State} (hs : s.Wf) : (actVrcp vd va m s).Wf := hs

theorem actVrsq_wf {vd va m} {s : State} (hs : s.Wf) : (actVrsq vd va m s).Wf := hs

theorem actVrcpr_wf {vd va vb m rm} {s : State} (hs : s.Wf) : (actVrcpr vd va vb m rm s).Wf := hs

theorem actVrsqr_wf {vd va vb m rm} {s : State} (hs : s.Wf) : (actVrsqr vd va vb m rm s).Wf := hs

theorem actVexp2_wf {vd va m} {s : State} (hs : s.Wf) : (actVexp2 vd va m s).Wf := hs

theorem actVlog2_wf {vd va m} {s : State} (hs : s.Wf) : (actVlog2 vd va m s).Wf := hs

theorem actVtanh_wf {vd va m} {s : State} (hs : s.Wf) : (actVtanh vd va m s).Wf := hs

theorem actVcvt_wf {src dst inf vd va amod m rm} {s : State} (hs : s.Wf) : (actVcvt src dst inf vd va amod m rm s).Wf := hs

theorem actVpack_wf {w vd va vb m} {s : State} (hs : s.Wf) : (actVpack w vd va vb m s).Wf := hs

theorem actVunpk_wf {w sx vd va part m} {s : State} (hs : s.Wf) : (actVunpk w sx vd va part m s).Wf := hs

/-! ### Motion -/

theorem actVrotr_wf {vd va k m} {s : State} (hs : s.Wf) : (actVrotr vd va k m s).Wf := hs

theorem actVbcr_wf {vd va k m} {s : State} (hs : s.Wf) : (actVbcr vd va k m s).Wf := hs

theorem actVrotc_wf {vd va k m} {s : State} (hs : s.Wf) : (actVrotc vd va k m s).Wf := hs

theorem actVbcc_wf {vd va k m} {s : State} (hs : s.Wf) : (actVbcc vd va k m s).Wf := hs

theorem actVredr_wf {op vd va m rm} {s : State} (hs : s.Wf) : (actVredr op vd va m rm s).Wf := hs

theorem actVscnr_wf {op vd va m rm} {s : State} (hs : s.Wf) : (actVscnr op vd va m rm s).Wf := hs

theorem actVredc_wf {op vd va m rm} {s : State} (hs : s.Wf) : (actVredc op vd va m rm s).Wf := hs

theorem actVscnc_wf {op vd va m rm} {s : State} (hs : s.Wf) : (actVscnc op vd va m rm s).Wf := hs

theorem actVperm_wf {vd va vb m} {s : State} (hs : s.Wf) : (actVperm vd va vb m s).Wf := hs

theorem actVmov_wf {vd va amod m} {s : State} (hs : s.Wf) : (actVmov vd va amod m s).Wf := hs

theorem actVmovs_wf {vd n m} {s : State} (hs : s.Wf) : (actVmovs vd n m s).Wf := State.begin_wf hs fun _ _ h => State.vecPut_wf h

theorem actVmovx_wf {n va sx m} {s : State} (hs : s.Wf) : (actVmovx n va sx m s).Wf := by
  unfold actVmovx
  grind [State.begin_wf, State.retire_wf]

theorem actZwr_wf {z va q m} {s : State} (hs : s.Wf) : (actZwr z va q m s).Wf := hs

theorem actZrd_wf {src dst inf vd z q m rm} {s : State} (hs : s.Wf) : (actZrd src dst inf vd z q m rm s).Wf := by
  unfold actZrd
  grind [State.vecPut_wf, State.vecPutFl_wf, Act.Wf]

theorem actZclr_wf {z} {s : State} (hs : s.Wf) : (actZclr z s).Wf := hs

theorem State.setRing_wf {s : State} {b es} (hs : s.Wf) : (s.setRing b es).Wf := by
  unfold State.setRing
  grind [State.updCluster_wf, Cluster.Ok]

theorem actDefer_wf {va b m} {s : State} (hs : s.Wf) : (actDefer va b m s).Wf := by
  unfold actDefer
  grind [trapOf_wf, State.setRing_wf, Act.Wf]

theorem actDrain_wf {vd b m} {s : State} (hs : s.Wf) : (actDrain vd b m s).Wf := by
  unfold actDrain
  grind [trapOf_wf, State.setVreg_wf, State.setRing_wf, foldl_wf, Act.Wf]

theorem actDfcnt_wf {n b} {s : State} (hs : s.Wf) : (actDfcnt n b s).Wf := by
  unfold actDfcnt
  grind [State.begin_wf, trapOf_wf, State.retire_wf, State.setRing_wf, Act.Wf]

theorem State.pitchCheck_wf {s : State} {a b l} (hs : s.Wf) : Yields Act.Wf (fun _ => True) (s.pitchCheck a b l) := by
  unfold State.pitchCheck
  simp only [bind, Except.bind]
  grind [!← State.eltsOperand_wf, trapOf_wf, Yields.ok_iff, Yields.error_iff, Act.Wf]

theorem State.indexCheck_wf {s : State} {a l} (hs : s.Wf) : Yields Act.Wf (fun _ => True) (s.indexCheck a l) := by
  unfold State.indexCheck
  simp only [bind, Except.bind]
  grind [!← State.eltsOperand_wf, trapOf_wf, Yields.ok_iff, Yields.error_iff, Act.Wf]

theorem State.vecIssue_wf {s : State} {gth l} (hs : s.Wf) : Yields Act.Wf State.Wf (s.vecIssue gth l) := by
  induction l generalizing s with
  | nil => exact hs
  | cons x rest ih =>
    obtain ⟨i, e, d, o⟩ := x
    unfold State.vecIssue
    split
    · exact ih (State.updMe_wf (State.remoteAdd_wf hs))
    · exact hs

theorem State.vecEnd_wf {s : State} (hs : s.Wf) : (s.vecEnd).Wf := hs

theorem State.vecAwait_wf {s : State} {gth lb ps} (hs : s.Wf) : Yields Act.Wf State.Wf (s.vecAwait gth lb ps) := by
  unfold State.vecAwait
  simp only [bind, Except.bind]
  grind [!← State.vecIssue_wf, Yields.ok_iff, Yields.error_iff, Act.Wf]

theorem State.vecLoad_wf {s : State} {vd c l} (hs : s.Wf) : Yields Act.Wf State.Wf (s.vecLoad vd c l) :=
  (viaShadow_wf (State.eltsPlace_wf hs none_act_wf)).bind fun ⟨_, _⟩ h1 => (State.eltsRemote_wf h1).bind fun _ _ =>
    (State.listedAll_wf h1).bind fun ⟨_, _⟩ h2 => (State.vecAwait_wf h2).bind fun _ h3 =>
    (State.gatherWith_wf h3).bind fun ⟨_, _⟩ h4 => State.vecEnd_wf (State.setVreg_wf h4)

theorem State.vecRuns_wf {s : State} {gth c rs} (hs : s.Wf) : Yields Act.Wf State.Wf (s.vecRuns gth c rs) := by
  induction rs generalizing s with
  | nil => exact hs
  | cons r rest ih =>
    unfold State.vecRuns
    split
    · exact (State.tileRun_wf hs).bind fun _ h1 => ih (State.updMe_wf h1)
    · exact (State.remoteIssue_wf hs).bind fun _ h1 => ih (State.updMe_wf (State.writeOrder_wf h1))
    · exact (State.writeLoc_wf hs).bind fun _ h1 => ih (State.updMe_wf h1)

theorem State.vecStore_wf {s : State} {vd gth c l} (hs : s.Wf) : Yields Act.Wf State.Wf (s.vecStore vd gth c l) := by
  unfold State.vecStore
  refine (viaShadow_wf (State.eltsPlace_wf hs none_act_wf)).bind fun ⟨_, _⟩ h1 => ?_
  dsimp only
  split
  · exact (State.eltsRemote_wf h1).bind fun _ _ => (State.runsBegin_wf h1).bind fun ⟨_, _⟩ h2 =>
      (State.vecRuns_wf h2).bind fun _ h3 => State.vecEnd_wf h3
  · exact (State.vecRuns_wf h1).bind fun _ h2 => State.vecEnd_wf h2

theorem actVld_wf {g vd a b m weak} {s : State} (hs : s.Wf) : (actVld g vd a b m weak s).Wf := by
  unfold actVld
  simp only [bind, Except.bind]
  grind [State.memBegin_wf, !← State.pitchCheck_wf, !← State.vecLoad_wf, Yields.ok_iff, Yields.error_iff, Act.Wf]

theorem actVst_wf {g vd a b m weak} {s : State} (hs : s.Wf) : (actVst g vd a b m weak s).Wf := by
  unfold actVst
  simp only [bind, Except.bind]
  grind [State.memBegin_wf, !← State.pitchCheck_wf, !← State.vecStore_wf, Yields.ok_iff, Yields.error_iff, Act.Wf]

theorem actVgath_wf {g vd a vb m weak} {s : State} (hs : s.Wf) : (actVgath g vd a vb m weak s).Wf := by
  unfold actVgath
  simp only [bind, Except.bind]
  grind [State.memBegin_wf, !← State.indexCheck_wf, !← State.vecLoad_wf, Yields.ok_iff, Yields.error_iff, Act.Wf]

theorem actVscat_wf {g vd a vb m weak} {s : State} (hs : s.Wf) : (actVscat g vd a vb m weak s).Wf := by
  unfold actVscat
  simp only [bind, Except.bind]
  grind [State.memBegin_wf, !← State.indexCheck_wf, !← State.vecStore_wf, Yields.ok_iff, Yields.error_iff, Act.Wf]

/-! ### Block -/

theorem State.blockCheck_wf {s : State} {a l} (hs : s.Wf) : Yields Act.Wf (fun _ => True) (s.blockCheck a l) := by
  unfold State.blockCheck
  simp only [bind, Except.bind]
  grind [!← State.eltsOperand_wf, trapOf_wf, Yields.ok_iff, Yields.error_iff, Act.Wf]

theorem actQst_wf {g k vd a m} {s : State} (hs : s.Wf) : (actQst g k vd a m s).Wf := by
  unfold actQst
  simp only [bind, Except.bind]
  grind [State.memBegin_wf, !← State.blockCheck_wf, !← State.writeElts_wf, Yields.ok_iff, Yields.error_iff, Act.Wf]

theorem State.countHdr_wf {s : State} {core} (hs : s.Wf) : (s.countHdr core).Wf := hs

theorem State.headerCheck_wf {s : State} {core x k h} (hs : s.Wf) : (s.headerCheck core x k h).1.Wf := by
  unfold State.headerCheck
  grind [State.countHdr_wf]

theorem State.headersCheck_nil {s : State} {core x k} : s.headersCheck core x k [] = (s, none) := by rfl

theorem State.headersCheck_cons {s : State} {core x k a h rest} : s.headersCheck core x k ((a, h) :: rest) =
    match s.headerCheck core x k h with
    | (s1, some sub) => (s1, some ⟨cSELF, BitVec.ofNat 8 sub, a⟩)
    | (s1, none) => s1.headersCheck core x k rest := by rfl

theorem State.headersCheck_wf {s : State} {core x k l} (hs : s.Wf) : (s.headersCheck core x k l).1.Wf := by
  induction l generalizing s with
  | nil => rw [State.headersCheck_nil]; exact hs
  | cons p rest ih =>
    have hc : (s.headerCheck core x k p.2).1.Wf := State.headerCheck_wf hs
    rw [State.headersCheck_cons]
    split
    · next s1 sub e => rw [e] at hc; exact hc
    · next s1 e => rw [e] at hc; exact ih hc

theorem actQld_wf {g k vd a m} {s : State} (hs : s.Wf) : (actQld g k vd a m s).Wf := by
  refine State.memBegin_wf hs fun vs => (State.blockCheck_wf hs).bind fun _ _ => ?_
  refine (State.readElts_wf hs fun bs s1 h1 => ?_).bind fun ⟨_, _⟩ h2 => State.setVreg_wf h2
  have hc {l r} (e : s1.headersCheck s.curCore s.blk k l = r) : r.1.Wf := e ▸ State.headersCheck_wf h1
  dsimp only
  split
  · next s2 t e => exact ⟨hc e, fun a ha => by cases ha; exact State.updCore_wf hs⟩
  · next s2 e => exact ⟨hc e, none_act_wf⟩

theorem actLvld_wf {g k tb a} {s : State} (hs : s.Wf) : (actLvld g k tb a s).Wf := by
  refine State.memBegin_wf hs fun vs => (State.blockCheck_wf hs).bind fun _ _ => ?_
  refine (State.readElts_wf hs fun bs s1 h1 => ⟨h1, fun a ha => ?_⟩).bind fun ⟨_, _⟩ h2 => State.updCtx_wf h2
  dsimp only at ha
  split at ha
  · obtain ⟨j, -, rfl⟩ := Option.map_eq_some_iff.mp ha
    exact h1
  · exact none_act_wf a ha

theorem actQcfg_wf {g d a} {s : State} (hs : s.Wf) : (actQcfg g d a s).Wf := by
  unfold actQcfg
  simp only [bind, Except.bind]
  grind [State.memBegin_wf, trapOf_wf, !← State.locate_wf, !← State.writeReg_wf, Yields.ok_iff, Yields.error_iff, Act.Wf]

/-! ### Flagq -/

theorem State.takeSeq_wf {s : State} (hs : s.Wf) : (s.takeSeq).2.Wf := hs

theorem State.pushCmd_wf {s : State} {t cmd} (hs : s.Wf) : (s.pushCmd t cmd).Wf := by
  unfold State.pushCmd
  grind [State.updCore_wf, !← State.takeSeq_wf]

theorem State.updFlag_wf {s : State} {core n f} (hs : s.Wf) : (s.updFlag core n f).Wf := hs

theorem State.fireFlag_wf {s : State} {core n seq k} (hs : s.Wf) : (s.fireFlag core n seq k).Wf := hs

theorem State.clearFlag_wf {s : State} {core n seq k} (hs : s.Wf) : (s.clearFlag core n seq k).Wf := hs

theorem actFset_wf {g n tg} {s : State} (hs : s.Wf) : (actFset g n tg s).Wf := by
  unfold actFset
  grind [!← State.takeSeq_wf, State.fireFlag_wf, State.updFlag_wf, State.pushCmd_wf, Act.Wf]

theorem actFclr_wf {g n tg} {s : State} (hs : s.Wf) : (actFclr g n tg s).Wf := by
  unfold actFclr
  grind [!← State.takeSeq_wf, State.clearFlag_wf, State.pushCmd_wf, Act.Wf]

theorem actFwait_wf {g n tg} {s : State} (hs : s.Wf) : (actFwait g n tg s).Wf := by
  unfold actFwait
  grind [!← State.takeSeq_wf, trapOf_wf, State.pushCmd_wf, Act.Wf]

/-! ### Tiles -/

theorem State.setTile_wf {s : State} {cl t x} (hs : s.Wf) : (s.setTile cl t x).Wf := by
  unfold State.setTile
  grind [State.updCluster_wf, Cluster.Ok]

theorem State.switchBank_wf {s : State} {cl b mode} (hs : s.Wf) : (s.switchBank cl b mode).Wf :=
  State.updCluster_wf (State.settleLines_wf hs) fun _ hc => by
    refine ⟨?_, hc.2⟩
    dsimp only
    split
    · exact filter_wf _ hc.1
    · exact hc.1

theorem actBankcfg_wf {g d b mode} {s : State} (hs : s.Wf) : (actBankcfg g d b mode s).Wf := by
  unfold actBankcfg
  grind [State.begin_wf, State.cluster_wf, trapOf_wf, State.retire_wf, State.switchBank_wf, Act.Wf]

theorem actTdef_wf {g d t a} {s : State} (hs : s.Wf) : (actTdef g d t a s).Wf := by
  unfold actTdef
  grind [State.begin_wf, State.cluster_wf, trapOf_wf, State.retire_wf, State.setTile_wf, Act.Wf]

theorem actTset_wf {g d t ts} {s : State} (hs : s.Wf) : (actTset g d t ts s).Wf := by
  unfold actTset
  grind [State.begin_wf, State.cluster_wf, trapOf_wf, State.retire_wf, State.setTile_wf, Act.Wf]

theorem actTrel_wf {g t} {s : State} (hs : s.Wf) : (actTrel g t s).Wf := by
  unfold actTrel
  grind [State.cluster_wf, trapOf_wf, State.setTile_wf, Act.Wf]

theorem State.copyCheck_wf {s : State} {kind ya yb e step cnt} (hs : s.Wf) :
    Yields Act.Wf (fun _ => True) (s.copyCheck kind ya yb e step cnt) := by
  have ht {c k v} : Yields Act.Wf (fun _ : Unit => True) (.error (trapOf c k v s)) := hs
  unfold State.copyCheck
  dsimp only
  repeat refine Yields.ite ht ?_
  refine Yields.ite ?_ trivial
  split
  · exact ht
  · exact Yields.ite ht trivial

theorem copyPush_wf {kind a b sz step cnt} {s : State} (hs : s.Wf) : (copyPush kind a b sz step cnt s).Wf := by
  unfold copyPush
  simp only [bind, Except.bind]
  grind [State.memBegin_wf, !← State.copyCheck_wf, State.cluster_wf, State.pushCmd_wf, Yields.ok_iff, Yields.error_iff, Act.Wf]

theorem actCpy_wf {a b sz step cnt} {s : State} (hs : s.Wf) : (actCpy a b sz step cnt s).Wf := copyPush_wf hs

theorem actCpys_wf {a b sz step cnt} {s : State} (hs : s.Wf) : (actCpys a b sz step cnt s).Wf := copyPush_wf hs

theorem actCpyg_wf {a b sz step cnt} {s : State} (hs : s.Wf) : (actCpyg a b sz step cnt s).Wf := copyPush_wf hs

theorem actCpyx_wf {a b sz step cnt} {s : State} (hs : s.Wf) : (actCpyx a b sz step cnt s).Wf := copyPush_wf hs

/-! ### Copying -/

theorem State.claim_wf {s : State} {core rs} (hs : s.Wf) : ∀ t, (s.claim core rs) = some t → t.Wf := by
  unfold State.claim
  grind [State.cluster_wf, State.updCluster_wf, Cluster.Ok]

theorem State.releaseRanges_wf {s : State} {core seq} (hs : s.Wf) : (s.releaseRanges core seq).Wf := by
  unfold State.releaseRanges
  grind [State.updCluster_wf, Cluster.Ok]

theorem State.tileMark_wf {s : State} {core} (hs : s.Wf) : (s.tileMark core).Wf := State.backMark_wf (State.updCore_wf (State.retireWindow_wf hs))

theorem State.joinWindow_wf {s : State} {core e} (hs : s.Wf) : (s.joinWindow core e).Wf := by
  unfold State.joinWindow
  grind [State.noteIssue_wf, State.updCore_wf]

theorem State.engUnpinned_wf {s : State} {p key} (hs : s.Wf) : Yields Act.Wf (fun _ => True) (s.engUnpinned p key) := by
  unfold State.engUnpinned
  grind [Yields.ok_iff, Yields.error_iff, Act.Wf]

theorem State.engPiece_wf {s : State} {e} (hs : s.Wf) : Yields Act.Wf (fun r => r.2.Wf) (s.engPiece e) := by
  unfold State.engPiece
  simp only [bind, Except.bind]
  grind [!← State.engUnpinned_wf, State.storeUe_wf, !← State.locate_wf, trapOf_wf, !← State.touchAs_wf, Yields.ok_iff, Yields.error_iff,
    Act.Wf]

theorem State.engPieces_wf {s : State} {es} (hs : s.Wf) : Yields Act.Wf (fun r => r.2.Wf) (s.engPieces es) := by
  induction es generalizing s with
  | nil => exact hs
  | cons e es ih => exact (State.engPiece_wf hs).bind fun ⟨_, _⟩ h1 => (ih h1).bind fun ⟨_, _⟩ h2 => h2

theorem State.engBytes_wf {s : State} {y n} (hs : s.Wf) : Yields Act.Wf (fun r => r.2.Wf) (s.engBytes y n) := State.engPieces_wf hs

theorem State.copyWalks_wf {s : State} {c} (hs : s.Wf) : (s.copyWalks c).Wf := by
  unfold State.copyWalks
  grind [State.lookWalk_wf, foldl_wf]

theorem State.xferIssue_wf {s : State} {x write n dest off y size data} (hs : s.Wf) :
    Yields Act.Wf State.Wf (s.xferIssue x write n dest off y size data) := by
  unfold State.xferIssue
  simp only [bind, Except.bind]
  grind [!← State.remoteCheck_wf, State.remoteAdd_wf, State.updMe_wf, Yields.ok_iff, Yields.error_iff, Act.Wf]

theorem State.xferAsk_wf {s : State} {x n es} (hs : s.Wf) : Yields Act.Wf (fun r => r.2.Wf) (s.xferAsk x n es) := by
  induction es generalizing s n with
  | nil => exact hs
  | cons e es ih =>
    refine (State.locate_wf hs).bind fun ⟨l, s1⟩ h1 => ?_
    cases l with
    | remote dest off =>
      dsimp only
      split
      · exact (ih h1).bind fun ⟨_, _⟩ h2 => h2
      · exact (State.xferIssue_wf h1).bind fun _ h2 => (ih h2).bind fun ⟨_, _⟩ h3 => h3
    | home pa => exact ih h1
    | host ha => exact ih h1

theorem State.xferLines_wf {s : State} {x n es} (hs : s.Wf) : Yields Act.Wf (fun r => r.2.Wf) (s.xferLines x n es) := by
  induction es generalizing s n with
  | nil => exact hs
  | cons e es ih =>
    refine (State.locate_wf hs).bind fun ⟨l, s1⟩ h1 => ?_
    cases l with
    | remote dest off =>
      dsimp only
      split
      · exact (ih (State.remoteDone_wf h1)).bind fun ⟨_, _⟩ h2 => h2
      · exact h1
    | home pa => exact (State.touchAs_wf h1).bind fun _ h2 => (ih h2).bind fun ⟨_, _⟩ h3 => h3
    | host ha => exact (State.touchAs_wf h1).bind fun _ h2 => (ih h2).bind fun ⟨_, _⟩ h3 => h3

theorem State.xferRead_wf {s : State} {x y n} (hs : s.Wf) : Yields Act.Wf (fun r => r.2.Wf) (s.xferRead x y n) := by
  unfold State.xferRead
  simp only [bind, Except.bind]
  grind [!← State.engUnpinned_wf, State.storeUe_wf, !← State.xferAsk_wf, !← State.xferLines_wf, trapOf_wf, Yields.ok_iff,
    Yields.error_iff, Act.Wf]

theorem State.xferLog_wf {s : State} {x tile line old} (hs : s.Wf) : Yields Act.Wf State.Wf (s.xferLog x tile line old) := by
  unfold State.xferLog
  grind [!← State.journalAdd_wf, Yields.ok_iff, Yields.error_iff, Act.Wf]

theorem State.engTile_wf {s : State} {cl t bs} (hs : s.Wf) : (s.engTile cl t bs).Wf := by
  unfold State.engTile
  grind [State.updCluster_wf, State.tilePuts_wf, Cluster.Ok]

theorem State.noteXfer_wf {s : State} {x key old} (hs : s.Wf) : (s.noteXfer x key old).Wf := hs

theorem State.xferLine_wf {s : State} {x n y bs} (hs : s.Wf) : Yields Act.Wf State.Wf (s.xferLine x n y bs) := by
  unfold State.xferLine
  dsimp only
  split
  · exact (State.guardStore_wf hs).bind fun _ _ => (State.engUnpinned_wf hs).bind fun _ _ =>
      (State.xferLog_wf hs).bind fun _ h1 => State.dropReleases_wf (State.engTile_wf (State.noteXfer_wf h1))
  · exact (State.guardStore_wf hs).bind fun _ _ => (State.engUnpinned_wf hs).bind fun _ _ =>
      (State.xferLog_wf hs).bind fun _ h1 => State.dropReleases_wf (State.engTile_wf (State.noteXfer_wf h1))
  · refine (State.xferLog_wf hs).bind fun _ h1 => State.updSlice_wf h1 fun _ hz => memPuts_wf _ _ hz
  · refine (State.locate_wf hs).bind fun ⟨l, s1⟩ h1 => (State.guardStore_wf h1).bind fun _ _ => ?_
    cases l with
    | remote dest off =>
      dsimp only
      split
      · exact h1
      · exact State.xferIssue_wf h1
    | home pa =>
      refine (State.engUnpinned_wf h1).bind fun _ _ => ?_
      split
      · exact h1
      · refine (State.xferLog_wf h1).bind fun s2 h2 => ?_
        grind [State.noteXfer_wf, !← State.homeWrite_wf, State.dropReleases_wf, Act.Wf, Yields.ok_iff, Yields.error_iff]
    | host ha =>
      have hn {k old} : (s1.noteXfer x k old).Wf := State.noteXfer_wf h1
      exact (State.engUnpinned_wf h1).bind fun _ _ => State.dropReleases_wf (State.wf_withHost hn (memPuts_wf _ _ hn.host))
  · exact hs

theorem Act.xferEnd_wf {a1 : Act} (hs : a1.Wf) : (Act.xferEnd a1).2.Wf := by
  unfold Act.xferEnd
  grind [Act.Wf]

theorem State.xferWrite_wf {s : State} {x n es bs} (hs : s.Wf) : (s.xferWrite x n es bs).2.2.Wf := by
  induction es generalizing s n bs with
  | nil => exact hs
  | cons e es ih =>
    unfold State.xferWrite
    grind [!← State.xferLine_wf, !← Act.xferEnd_wf, Yields.ok_iff, Yields.error_iff]

theorem State.xferSource_wf {s : State} {x src n} (hs : s.Wf) : Yields Act.Wf (fun r => r.2.Wf) (s.xferSource x src n) := by
  unfold State.xferSource
  grind [!← State.xferRead_wf, Yields.ok_iff, Yields.error_iff, Act.Wf]

theorem State.xferClear_wf {s : State} {x} (hs : s.Wf) : (s.xferClear x).Wf := foldl_wf (fun _ _ h => State.remoteDone_wf h) hs

theorem State.xferPut_wf {s : State} {x dst bs lines} (hs : s.Wf) : (s.xferPut x dst bs lines).2.2.Wf := by
  unfold State.xferPut
  grind [!← State.xferWrite_wf, State.xferClear_wf, foldl_wf]

theorem State.xfer_wf {s : State} {x src dst n p} (hs : s.Wf) : (s.xfer x src dst n p).2.2.Wf := by
  unfold State.xfer
  grind [!← State.xferPut_wf, !← State.xferSource_wf, !← Act.xferEnd_wf, Yields.ok_iff, Yields.error_iff, Act.Wf]

theorem State.copyRun_wf {s : State} {x c p n} (hs : s.Wf) : (s.copyRun x c p n).2.2.2.Wf := by
  induction n generalizing s c p with
  | zero => exact hs
  | succ n ih =>
    unfold State.copyRun
    grind [State.countErr_wf, !← State.xfer_wf]

theorem State.copyPart_wf {s : State} {x c p n} (hs : s.Wf) : (s.copyPart x c p n).2.2.2.Wf := by
  unfold State.copyPart
  grind [!← State.copyRun_wf]

theorem State.setCopyQ_wf {s : State} {core f} (hs : s.Wf) : (s.setCopyQ core f).Wf := hs

theorem State.copyFault_wf {s : State} {core t} (hs : s.Wf) : (s.copyFault core t).Wf := hs

theorem State.fillTiles_wf {s : State} {c} (hs : s.Wf) : (s.fillTiles c).2.Wf := by
  unfold State.fillTiles
  grind [State.cluster_wf, State.updCluster_wf, Cluster.Ok]

theorem State.drainTile_wf {s : State} {c} (hs : s.Wf) : (s.drainTile c).Wf := by
  unfold State.drainTile
  grind [State.cluster_wf, State.setTile_wf]

theorem State.drainEnd_wf {s : State} {c} (hs : s.Wf) : (s.drainEnd c).Wf := by
  unfold State.drainEnd
  grind [State.cluster_wf, State.setTile_wf]

theorem State.copyIssue_wf {s : State} {core} (hs : s.Wf) : (s.copyIssue core).Wf := by
  unfold State.copyIssue
  grind [State.copyWalks_wf, → State.claim_wf, State.copyFault_wf, !← State.fillTiles_wf, State.tileMark_wf, State.drainTile_wf,
    State.remoteAdd_wf, State.setCopyQ_wf, State.joinWindow_wf, State.wf_of_memories]

theorem State.copyAnswered_wf {s : State} {core k seq} (hs : s.Wf) : (s.copyAnswered core k seq).Wf := by
  unfold State.copyAnswered
  grind [State.remoteDone_wf]

theorem State.copyComplete_wf {s : State} {core seq n} (hs : s.Wf) : (s.copyComplete core seq n).Wf := by
  unfold State.copyComplete
  grind [!← State.copyPart_wf, State.setCopyQ_wf, State.drainEnd_wf, State.releaseRanges_wf, State.copyAnswered_wf, State.updCore_wf,
    State.copyFault_wf, State.wf_of_memories]

/-! ### Matrix -/

theorem Cluster.setElem_wf {c : Cluster} {row col v} (hc : c.Ok) : (c.setElem row col v).Ok :=
  ⟨hc.1, acmPut_elemsFrom _ _ 0 _ (Nat.zero_le _) hc.2⟩

theorem State.mgoCheck_wf {s : State} {t nlev} (hs : s.Wf) : Yields Act.Wf (fun _ => True) (s.mgoCheck t nlev) := by
  unfold State.mgoCheck
  grind [trapOf_wf, Yields.ok_iff, Yields.error_iff, Act.Wf]

theorem State.updTable_wf {s : State} {f} (hs : s.Wf) : (s.updTable f).Wf := hs

theorem actLnt_wf {g a b lv} {s : State} (hs : s.Wf) : (actLnt g a b lv s).Wf := State.begin_wf hs fun _ _ h => State.updTable_wf h

theorem actMopa_wf {g a b} {s : State} (hs : s.Wf) : (actMopa g a b s).Wf := State.begin_wf hs fun _ _ h => State.updTable_wf h

theorem actMopb_wf {g a b} {s : State} (hs : s.Wf) : (actMopb g a b s).Wf := State.begin_wf hs fun _ _ h => State.updTable_wf h

theorem actMopc_wf {g a} {s : State} (hs : s.Wf) : (actMopc g a s).Wf := State.begin_wf hs fun _ _ h => State.updTable_wf h

theorem actIdxv_wf {g a} {s : State} (hs : s.Wf) : (actIdxv g a s).Wf := State.begin_wf hs fun _ _ h => State.updTable_wf h

theorem State.updArray_wf {s : State} {core f} (hs : s.Wf) : (s.updArray core f).Wf := hs

theorem actMgo_wf {g nlev} {s : State} (hs : s.Wf) : (actMgo g nlev s).Wf := by
  unfold actMgo
  grind [!← State.mgoCheck_wf, State.pushCmd_wf, Yields.ok_iff, Yields.error_iff, Act.Wf]

theorem actMwait_wf {g n} {s : State} (hs : s.Wf) : (actMwait g n s).Wf := by
  unfold actMwait
  grind [Act.Wf]

theorem actMstat_wf {g d} {s : State} (hs : s.Wf) : (actMstat g d s).Wf := by
  unfold actMstat
  grind [State.begin_wf, State.retire_wf]

theorem actMstatClr_wf {g d} {s : State} (hs : s.Wf) : (actMstatClr g d s).Wf := by
  unfold actMstatClr
  grind [State.begin_wf, State.retire_wf, State.updArray_wf]

theorem State.interlock_wf {s : State} {lo hi} {k : Act} (hs : s.Wf) (hs1 : k.Wf) : (s.interlock lo hi k).Wf := by
  unfold State.interlock
  grind [Act.Wf]

theorem actAbal_wf {g d n} {s : State} (hs : s.Wf) : (actAbal g d n s).Wf := by
  refine State.begin_wf hs fun _ s1 h1 => ?_
  dsimp only
  split
  · exact State.retire_wf hs h1
  · exact State.retire_wf hs (State.updCluster_wf h1 fun _ hc => ⟨hc.1, filter_elemsFrom _ 0 _ hc.2⟩)

theorem actAbfr_wf {g a n} {s : State} (hs : s.Wf) : (actAbfr g a n s).Wf := by
  unfold actAbfr
  grind [State.begin_wf, trapOf_wf, State.interlock_wf, State.updCluster_wf, foldl_wf, Cluster.Ok, Act.Wf]

theorem Cluster.mapRows_wf {c : Cluster} {lo n f} (hc : c.Ok) : (c.mapRows lo n f).Ok :=
  foldl_ok (fun _ _ h => foldl_ok (fun _ _ h => Cluster.setElem_wf h) h) hc

theorem Cluster.mapPairs_wf {c : Cluster} {lo n f} (hc : c.Ok) : (c.mapPairs lo n f).Ok :=
  foldl_ok (fun _ _ h => foldl_ok (fun _ _ h => Cluster.setElem_wf (Cluster.setElem_wf h)) h) hc

theorem actAinit_wf {g a b n pr} {s : State} (hs : s.Wf) : (actAinit g a b n pr s).Wf := by
  unfold actAinit
  grind [State.begin_wf, State.interlock_wf, State.updCluster_wf, Cluster.mapRows_wf, Act.Wf]

theorem actAnrm_wf {g a n pr} {s : State} (hs : s.Wf) : (actAnrm g a n pr s).Wf := by
  unfold actAnrm
  grind [State.begin_wf, State.interlock_wf, State.updCluster_wf, Cluster.mapPairs_wf, Cluster.mapRows_wf, Act.Wf]

theorem actArd_wf {g fmt vd a m} {s : State} (hs : s.Wf) : (actArd g fmt vd a m s).Wf := by
  unfold actArd
  grind [State.begin_wf, State.setStat_wf, State.interlock_wf, State.vecPutFl_wf, Act.Wf]

theorem actAwr_wf {g fmt vd a m} {s : State} (hs : s.Wf) : (actAwr g fmt vd a m s).Wf := by
  refine State.begin_wf hs fun vs s1 h1 => ?_
  dsimp only
  split
  · exact hs
  · refine State.interlock_wf hs (State.updCluster_wf h1 fun _ hc => foldl_ok (fun _ _ h => foldl_ok (fun c j h => ?_) h) hc)
    grind [Cluster.setElem_wf]

/-! ### Array -/

theorem State.fetchLine_wf {s : State} {x o base j} (hs : s.Wf) : Yields Act.Wf (fun r => r.2.Wf) (s.fetchLine x o base j) := by
  unfold State.fetchLine
  simp only [bind, Except.bind]
  grind [!← State.engBytes_wf, !← State.headersCheck_wf, Yields.ok_iff, Yields.error_iff, Act.Wf]

theorem State.fetchLines_wf {s : State} {x o base js} (hs : s.Wf) : Yields Act.Wf (fun r => r.2.Wf) (s.fetchLines x o base js) := by
  induction js generalizing s with
  | nil => exact hs
  | cons j js ih =>
    cases j with
    | none => exact (ih hs).bind fun ⟨_, _⟩ h1 => h1
    | some j => exact (State.fetchLine_wf hs).bind fun ⟨_, _⟩ h1 => (ih h1).bind fun ⟨_, _⟩ h2 => h2

theorem State.lineOf_wf {s : State} {t m} (hs : s.Wf) : Yields Act.Wf (fun r => r.2.Wf) (s.lineOf t m) := by
  unfold State.lineOf
  simp only [bind, Except.bind]
  grind [!← State.engBytes_wf, Yields.ok_iff, Yields.error_iff, Act.Wf]

theorem State.linesOf_wf {s : State} {t ms} (hs : s.Wf) : Yields Act.Wf (fun r => r.2.Wf) (s.linesOf t ms) := by
  induction ms generalizing s with
  | nil => exact hs
  | cons m ms ih => exact (State.lineOf_wf hs).bind fun ⟨_, _⟩ h1 => (ih h1).bind fun ⟨_, _⟩ h2 => h2

theorem Cluster.enter_wf {c pair e} (hs : c.Ok) : (Cluster.enter c pair e).Ok := by
  unfold Cluster.enter
  grind [Cluster.setElem_wf]

theorem State.loadPass_wf {s : State} {r p} (hs : s.Wf) : Yields Act.Wf (fun r => r.2.Wf) (s.loadPass r p) := by
  unfold State.loadPass
  simp only [bind, Except.bind]
  grind [!← State.fetchLines_wf, Yields.ok_iff, Yields.error_iff, Act.Wf]

theorem State.injectGroup_wf {s : State} {prev r} (hs : s.Wf) : Yields Act.Wf (fun r => r.2.Wf) (s.injectGroup prev r) := by
  unfold State.injectGroup
  simp only [bind, Except.bind]
  grind [!← State.linesOf_wf, !← State.fetchLines_wf, foldl_wf, Yields.ok_iff, Yields.error_iff, Act.Wf]

theorem State.arrayFetch_wf {s : State} {prev rs} (hs : s.Wf) : Yields (fun r => r.2.Wf) (fun r => r.2.Wf) (s.arrayFetch prev rs) := by
  induction rs generalizing s prev with
  | nil => exact hs
  | cons r rs ih =>
    unfold State.arrayFetch
    simp only [bind, Except.bind]
    grind [!← State.loadPass_wf, !← State.injectGroup_wf, Yields.ok_iff, Yields.error_iff]

theorem State.arrayEnter_wf {s : State} {cl r} (hs : s.Wf) : (s.arrayEnter cl r).2.Wf :=
  State.updCluster_wf hs fun _ hc => foldl_ok (fun _ _ h => Cluster.enter_wf h) hc

theorem State.arrayEnterAll_wf {s : State} {cl rs} (hs : s.Wf) : (s.arrayEnterAll cl rs).2.Wf := by
  induction rs generalizing s with
  | nil => exact hs
  | cons r rs ih => exact ih (State.arrayEnter_wf hs)

theorem State.mgoIssue_wf {s : State} {core} (hs : s.Wf) : (s.mgoIssue core).Wf := by
  unfold State.mgoIssue
  split
  · exact hs
  · split
    · split
      · exact hs
      · split
        · exact hs
        · split
          · exact hs
          · next s1 e => exact State.updCore_wf (State.joinWindow_wf (State.claim_wf hs s1 e))
    all_goals exact hs

theorem State.mgoComplete_wf {s : State} {core seq} (hs : s.Wf) : (s.mgoComplete core seq).Wf := State.updCore_wf (State.releaseRanges_wf hs)

theorem State.mgoAbandon_wf {s : State} {core seq t} (hs : s.Wf) : (s.mgoAbandon core seq t).Wf := by
  unfold State.mgoAbandon
  grind [State.updCluster_wf, State.updCore_wf, Cluster.Ok]

theorem State.setRuns_wf {s : State} {core l} (hs : s.Wf) : (s.setRuns core l).Wf := hs

theorem State.holdRun_wf {s : State} {core seq t} (hs : s.Wf) : (s.holdRun core seq t).Wf := hs

theorem State.foldEntry_wf {s : State} {core} (hs : s.Wf) : (s.foldEntry core).Wf := by
  unfold State.foldEntry
  grind [!← State.arrayFetch_wf, !← State.arrayEnterAll_wf, State.mgoComplete_wf, State.setRuns_wf, State.holdRun_wf,
    State.mgoAbandon_wf, foldl_wf, State.wf_of_memories, Yields.ok_iff, Yields.error_iff, Act.Wf]

theorem State.arrayResume_wf {s : State} {core ok} (hs : s.Wf) : (s.arrayResume core ok).Wf := by
  unfold State.arrayResume
  grind [State.holdRun_wf, State.mgoAbandon_wf]

theorem State.replayCopies_wf {s : State} {core qs} (hs : s.Wf) : (s.replayCopies core qs).2.2.Wf := by
  induction qs generalizing s with
  | nil => exact hs
  | cons q qs ih =>
    unfold State.replayCopies
    grind [!← State.copyRun_wf, State.wf_of_memories]

theorem State.ueGo_wf {s : State} {core} (hs : s.Wf) : (s.ueGo core).Wf := hs

theorem State.ueLost_wf {s : State} {core line} (hs : s.Wf) : (s.ueLost core line).Wf := by
  unfold State.ueLost
  grind [State.mgoAbandon_wf, State.ueGo_wf, State.copyFault_wf]

theorem State.ueFound_wf {s : State} {core line} (hs : s.Wf) : (s.ueFound core line).Wf := by
  unfold State.ueFound
  grind [State.cluster_wf, State.countErr_wf, State.updCluster_wf, Cluster.Ok]

theorem State.ueReplay_wf {s : State} {core line} (hs : s.Wf) : (s.ueReplay core line).Wf := by
  unfold State.ueReplay
  grind [State.ueFound_wf, !← State.replayCopies_wf, State.cluster_wf, State.ueLost_wf, State.ueGo_wf, State.updCore_wf]

/-! ### Policy -/

theorem State.polRun_wf {s : State} {ctx ev ins} (hs : s.Wf) : (s.polRun ctx ev ins).2.Wf := by
  unfold State.polRun
  grind [State.updCtx_wf]

/-! ### Fetch -/

theorem State.lookAt_wf {s : State} {a l} (hs : s.Wf) : Yields Act.Wf State.Wf (s.lookAt a l) := by
  induction l generalizing s with
  | nil => exact hs
  | cons x l ih =>
    unfold State.lookAt
    grind [!← State.lookLine_wf, State.reportPoison_wf, trapOf_wf, Act.Wf, Yields.ok_iff, Yields.error_iff]

theorem State.codeWalks_wf {s : State} {a} (hs : s.Wf) : (s.codeWalks a).Wf := by
  unfold State.codeWalks
  grind [State.lookWalk_wf]

theorem State.lookWord_wf {s : State} {a} (hs : s.Wf) : Yields Act.Wf State.Wf (s.lookWord a) := by
  unfold State.lookWord
  simp only [bind, Except.bind]
  grind [!← State.lookAt_wf, State.codeWalks_wf, Yields.ok_iff, Yields.error_iff, Act.Wf]

theorem State.lookUnit_wf {s : State} (hs : s.Wf) : Yields Act.Wf State.Wf (s.lookUnit) := by
  unfold State.lookUnit
  simp only [bind, Except.bind]
  grind [!← State.lookWord_wf, Yields.ok_iff, Yields.error_iff, Act.Wf]

/-! ### Control -/

theorem State.jumpBegin_wf {s : State} {g srcs dsts k} (hs : s.Wf) (hk : ∀ vs, Yields Act.Wf State.Wf (k vs)) :
    (s.jumpBegin g srcs dsts k).Wf := by
  have hm := State.memBegin_wf (g := g) (srcs := srcs) (dsts := dsts) hs hk
  unfold State.jumpBegin
  grind [Act.Wf]

theorem State.goTo_wf {s : State} {t} (hs : s.Wf) : Yields Act.Wf State.Wf (s.goTo t) := by
  unfold State.goTo
  grind [!← State.targetOk_wf, State.setPc_wf, Yields.ok_iff, Yields.error_iff, Act.Wf]

theorem State.callTo_wf {s : State} {t} (hs : s.Wf) : Yields Act.Wf State.Wf (s.callTo t) := by
  unfold State.callTo
  grind [trapOf_wf, !← State.targetOk_wf, State.shadowPush_wf, State.setPc_wf, State.setHart_wf, Yields.ok_iff, Yields.error_iff, Act.Wf]

theorem State.collectTo_wf {s : State} {t} (hs : s.Wf) : Yields Act.Wf State.Wf (s.collectTo t) := by
  unfold State.collectTo
  grind [trapOf_wf, !← State.targetOk_wf, State.shadowPush_wf, State.setPc_wf, State.updLists_wf, State.setHart_wf, Yields.ok_iff,
    Yields.error_iff, Act.Wf]

theorem actBr_wf {g disp} {s : State} (hs : s.Wf) : (actBr g disp s).Wf := State.jumpBegin_wf hs fun _ => State.goTo_wf hs

theorem actCall_wf {g disp} {s : State} (hs : s.Wf) : (actCall g disp s).Wf := State.jumpBegin_wf hs fun _ => State.callTo_wf hs

theorem actCallc_wf {g disp} {s : State} (hs : s.Wf) : (actCallc g disp s).Wf := State.jumpBegin_wf hs fun _ => State.collectTo_wf hs

theorem actJmpr_wf {g a} {s : State} (hs : s.Wf) : (actJmpr g a s).Wf := State.jumpBegin_wf hs fun _ => State.goTo_wf hs

theorem actCallr_wf {g a} {s : State} (hs : s.Wf) : (actCallr g a s).Wf := State.jumpBegin_wf hs fun _ => State.callTo_wf hs

theorem actCallcr_wf {g a} {s : State} (hs : s.Wf) : (actCallcr g a s).Wf := State.jumpBegin_wf hs fun _ => State.collectTo_wf hs

theorem actRet_wf {g a} {s : State} (hs : s.Wf) : (actRet g a s).Wf := by
  unfold actRet
  grind [State.jumpBegin_wf, trapOf_wf, !← State.targetOk_wf, State.setPc_wf, State.shadowPop_wf, Yields.ok_iff, Yields.error_iff, Act.Wf]

theorem actRetc_wf {g a} {s : State} (hs : s.Wf) : (actRetc g a s).Wf := by
  unfold actRetc
  simp only [bind, Except.bind]
  grind [State.jumpBegin_wf, trapOf_wf, !← State.targetOk_wf, !← State.arenaAll_wf, State.shadowPop_wf, State.updLists_wf,
    State.setPc_wf, State.setHart_wf, Yields.ok_iff, Yields.error_iff, Act.Wf]

theorem actJmpl_wf {g imm} {s : State} (hs : s.Wf) : (actJmpl g imm s).Wf := State.jumpBegin_wf hs fun _ => State.goTo_wf hs

theorem actFork_wf {g ax am ac} {s : State} (hs : s.Wf) : (actFork g ax am ac s).Wf := by
  unfold actFork
  grind [illop_wf, State.backMark_wf, State.updCore_wf, Act.Wf]

theorem actRdv_wf {g} {s : State} (hs : s.Wf) : (actRdv g s).Wf := by
  unfold actRdv
  grind [State.updMe_wf, Act.Wf]

theorem actHalt_wf {g} {s : State} (hs : s.Wf) : (actHalt g s).Wf := by
  unfold actHalt
  grind [State.updMe_wf, State.endRun_wf, Act.Wf]

theorem actYield_wf {g} {s : State} (hs : s.Wf) : (actYield g s).Wf := by
  unfold actYield
  grind [State.updMe_wf, Act.Wf]

theorem actDqput_wf {g a q} {s : State} (hs : s.Wf) : (actDqput g a q s).Wf := by
  unfold actDqput
  grind [State.begin_wf, !← State.pushDq_wf, Yields.ok_iff, Yields.error_iff, Act.Wf]

theorem actDqget_wf {g d q} {s : State} (hs : s.Wf) : (actDqget g d q s).Wf := by
  unfold actDqget
  grind [State.begin_wf, State.retire_wf]

theorem actDqcls_wf {g q} {s : State} (hs : s.Wf) : (actDqcls g q s).Wf := by
  unfold actDqcls
  grind [State.setDq_wf, Act.Wf]

theorem actBqput_wf {g n inv} {s : State} (hs : s.Wf) : (actBqput g n inv s).Wf := by
  unfold actBqput
  grind [State.updCore_wf, Act.Wf]

theorem actBqbr_wf {g disp} {s : State} (hs : s.Wf) : (actBqbr g disp s).Wf := by
  unfold actBqbr
  grind [State.updCore_wf, !← State.targetOk_wf, State.setPc_wf, Yields.ok_iff, Yields.error_iff, Act.Wf]

theorem actTrap_wf {g n} {s : State} (hs : s.Wf) : (actTrap g n s).Wf := by
  unfold actTrap
  grind [trapOf_wf, Act.Wf]

theorem actSysc_wf {g n} {s : State} (hs : s.Wf) : (actSysc g n s).Wf := by
  unfold actSysc
  grind [trapOf_wf, Act.Wf]

theorem actNop_wf {_g} {s : State} (hs : s.Wf) : (actNop _g s).Wf := hs

theorem actTret_wf {g} {s : State} (hs : s.Wf) : (actTret g s).Wf := by
  unfold actTret
  grind [illop_wf, State.setHart_wf, State.updMe_wf, Act.Wf]

theorem State.dropHeld_wf {s : State} {pc} (hs : s.Wf) : (s.dropHeld pc).Wf := by
  unfold State.dropHeld
  grind [State.setStat_wf, State.setDq_wf, foldl_wf]

theorem actTretSkip_wf {g} {s : State} (hs : s.Wf) : (actTretSkip g s).Wf := by
  unfold actTretSkip
  grind [illop_wf, State.updMe_wf, State.setHart_wf, State.dropHeld_wf, Act.Wf]

theorem State.ctlWrite_wf {s : State} {w v} (hs : s.Wf) : (s.ctlWrite w v).Wf := by
  unfold State.ctlWrite
  grind [State.setHart_wf, State.updMe_wf, State.updCtx_wf, State.updLists_wf]

theorem actCwrd_wf {g d w} {s : State} (hs : s.Wf) : (actCwrd g d w s).Wf := by
  unfold actCwrd
  grind [State.begin_wf, State.retire_wf]

theorem actCwwr_wf {g w a} {s : State} (hs : s.Wf) : (actCwwr g w a s).Wf := State.begin_wf hs fun _ _ h => State.ctlWrite_wf h

/-! ### Book -/

theorem State.lookLines_wf {s : State} {line n} (hs : s.Wf) : Yields (fun r => r.2.2.Wf) State.Wf (s.lookLines line n) := by
  induction n generalizing s line with
  | zero => exact hs
  | succ n ih =>
    unfold State.lookLines
    grind [!← State.lookLine_wf, Yields.ok_iff, Yields.error_iff]

theorem State.lookImage_wf {s : State} {base owned} (hs : s.Wf) : Yields (fun r => r.2.2.Wf) State.Wf (s.lookImage base owned) := by
  unfold State.lookImage
  split
  · exact hs
  · refine (State.lookLines_wf hs).bind fun s1 h1 => ?_
    dsimp only
    split
    · exact h1
    · exact State.lookLines_wf h1

theorem mergeMem_wf {old new : Memory} {f : Nat → Bool} (h : Memory.wf old = true) : Memory.wf (mergeMem old new f memPut) = true :=
  foldl_memPut_wf (filter_wf _ h)

theorem mergeMem_elemsFrom {old new : List (Nat × AccElem)} {f : Nat → Bool} (h : elemsFrom 0 old = true) :
    elemsFrom 0 (mergeMem old new f acmPut) = true :=
  List.foldlRecOn (motive := fun m => elemsFrom 0 m = true) _ _ (filter_elemsFrom _ 0 _ h) fun _ hm _ _ =>
    acmPut_elemsFrom _ _ 0 _ (Nat.zero_le _) hm

theorem State.shiftIn_wf {s : State} {cl ctx v} (hs : s.Wf) : (s.shiftIn cl ctx v).Wf := by
  refine foldl_wf (fun _ _ h => State.updKernel_wf h) (State.updCtx_wf (State.updCluster_wf (foldl_wf (fun s c h => ?_) hs) fun c hc => ?_))
  · split
    · exact State.setCore_wf h
    · exact h
  · constructor
    · dsimp only
      exact mergeMem_wf hc.1
    · dsimp only
      exact mergeMem_elemsFrom hc.2

/-! ### Intake -/

theorem State.updQueue_wf {s : State} {part id f} (hs : s.Wf) : (s.updQueue part id f).Wf := hs

theorem State.offered_wf {s : State} {old new} (hs : s.Wf) : (s.offered old new).Wf := by
  unfold State.offered
  grind [State.updQueue_wf, !← State.freePayload_wf, State.raise_wf]

/-! ### Sync -/

theorem State.releaseNow_wf {s : State} {sc tier} (hs : s.Wf) : (s.releaseNow sc tier).2.Wf := State.widenPins_wf (State.publish_wf hs)

theorem State.barArrive_wf {s : State} {n sm i} (hs : s.Wf) : Yields Act.Wf (fun r => r.2.Wf) (s.barArrive n sm i) := by
  unfold State.barArrive
  simp only [bind, Except.bind]
  grind [trapOf_wf, !← State.releaseGate_wf, !← State.releaseNow_wf, State.updKernel_wf, Yields.ok_iff, Yields.error_iff, Act.Wf]

theorem State.barDepart_wf {s : State} {n i gen} (hs : s.Wf) : ∀ t, (s.barDepart n i gen) = some t → t.Wf := by
  unfold State.barDepart
  grind [State.gain_wf, foldl_wf]

theorem actBara_wf {g d n sm i} {s : State} (hs : s.Wf) : (actBara g d n sm i s).Wf := by
  unfold actBara
  grind [State.begin_wf, !← State.barArrive_wf, State.retire_wf, Yields.ok_iff, Yields.error_iff, Act.Wf]

theorem actBarw_wf {g a n i} {s : State} (hs : s.Wf) : (actBarw g a n i s).Wf := by
  refine State.memBegin_wf hs fun vs => Yields.ite hs (Yields.ite hs ?_)
  split
  · exact hs
  · next s1 e => exact State.barDepart_wf hs s1 e

theorem actBaraw_wf {g n sm i} {s : State} (hs : s.Wf) : (actBaraw g n sm i s).Wf := by
  have hleave {tok} {s : State} (hs : s.Wf) : Act.Wf (match s.barDepart n i tok with
      | none => .wait (.barrier n.toNat i.toNat (some tok)) (s.updMe fun t => { t with barTok := some (n.toNat, i.toNat, tok) })
      | some s1 => .done (s1.updMe fun t => { t with barTok := none })) := by
    split
    · exact State.updMe_wf hs
    · next s1 e => exact State.updMe_wf (State.barDepart_wf hs s1 e)
  have harr := State.barArrive_wf (n := n) (sm := sm) (i := i) hs
  unfold actBaraw
  dsimp only
  split
  · exact hs
  · split
    · exact hleave hs
    · split
      · next e => exact harr.error e
      · next e => exact hleave (harr.ok e)

theorem actSsync_wf {g d} {s : State} (hs : s.Wf) : (actSsync g d s).Wf := by
  unfold actSsync
  grind [State.begin_wf, trapOf_wf, State.retire_wf, State.updMe_wf, !← State.releaseNow_wf, Act.Wf]

theorem State.planCount_wf {s : State} {y} (hs : s.Wf) : Yields Act.Wf (fun r => r.2.Wf) (s.planCount y) := by
  unfold State.planCount
  simp only [bind, Except.bind]
  grind [!← State.eltsPlace_wf, Yields.ok_iff, Yields.error_iff, Act.Wf]

theorem planChk_wf {s0 : State} {part y bs} {s : State} (hs : s.Wf) :
    (planChk s0 part y bs s).1.Wf ∧ ∀ a, (planChk s0 part y bs s).2 = some a → a.Wf := by
  unfold planChk
  split
  · refine ⟨hs, fun a ha => ?_⟩
    obtain ⟨o, -, rfl⟩ := Option.map_eq_some_iff.mp ha
    exact State.setHart_wf (State.wf_of_memories hs)
  · exact ⟨hs, none_act_wf⟩

theorem actXplan_wf {g a} {s : State} (hs : s.Wf) : (actXplan g a s).Wf := by
  refine State.memBegin_wf hs fun vs => Yields.ite hs ((State.eltOperand_wf hs).bind fun _ _ => Yields.ite hs ?_)
  refine (State.planCount_wf hs).bind fun ⟨n, s1⟩ h1 => (State.eltsOperand_wf h1).bind fun _ _ => ?_
  refine (State.readElts_wf h1 fun bs s2 h2 => planChk_wf h2).bind fun ⟨bs, s2⟩ h2 => ?_
  dsimp only
  split
  · exact h2
  · exact State.updKernel_wf h2

theorem groupQuery_wf {g d srcs n f} {s : State} (hs : s.Wf) : (groupQuery g d srcs n f s).Wf := by
  unfold groupQuery
  grind [State.begin_wf, trapOf_wf, State.retire_wf, Act.Wf]

theorem actGrank_wf {g d n} {s : State} (hs : s.Wf) : (actGrank g d n s).Wf := groupQuery_wf hs

theorem actGsize_wf {g d n} {s : State} (hs : s.Wf) : (actGsize g d n s).Wf := groupQuery_wf hs

theorem actGsizeShr_wf {g d a n} {s : State} (hs : s.Wf) : (actGsizeShr g d a n s).Wf := groupQuery_wf hs

theorem actGnbrNext_wf {g d n} {s : State} (hs : s.Wf) : (actGnbrNext g d n s).Wf := groupQuery_wf hs

theorem actGnbrPrev_wf {g d n} {s : State} (hs : s.Wf) : (actGnbrPrev g d n s).Wf := groupQuery_wf hs

theorem actGnbrXor_wf {g d n j} {s : State} (hs : s.Wf) : (actGnbrXor g d n j s).Wf := groupQuery_wf hs

theorem State.collCheck_wf {s : State} {kind ty ya yb cnt n} (hs : s.Wf) : Yields Act.Wf (fun _ => True) (s.collCheck kind ty ya yb cnt n) := by
  have ht {c k v} : Yields Act.Wf (fun _ : Unit => True) (.error (trapOf c k v s)) := hs
  unfold State.collCheck
  dsimp only
  repeat refine Yields.ite ht ?_
  split
  · exact ht
  · repeat refine Yields.ite ht ?_
    trivial

theorem actColl_wf {g kind op ty d a b n} {s : State} (hs : s.Wf) : (actColl g kind op ty d a b n s).Wf := by
  unfold actColl
  simp only [bind, Except.bind]
  grind [State.memBegin_wf, !← State.collCheck_wf, State.remoteAdd_wf, State.updCore_wf, State.pushCmd_wf, Yields.ok_iff,
    Yields.error_iff, Act.Wf]

theorem actCollw_wf {g n} {s : State} (hs : s.Wf) : (actCollw g n s).Wf := by
  unfold actCollw
  grind [trapOf_wf, State.updCore_wf, State.pushCmd_wf, Act.Wf]

/-! ### Launch -/

theorem State.putLines_wf {s : State} {own n pa bs} (hs : s.Wf) : Yields Act.Wf State.Wf (s.putLines own n pa bs) := by
  induction n generalizing s pa bs with
  | zero => exact hs
  | succ n ih =>
    unfold State.putLines
    grind [!← State.homeWrite_wf, Act.Wf, Yields.ok_iff, Yields.error_iff]

theorem State.putPhys_wf {s : State} {own pa bs} (hs : s.Wf) : Yields Act.Wf State.Wf (s.putPhys own pa bs) :=
  State.putLines_wf (State.settle_wf hs)

theorem actLaunch_wf {g d a b} {s : State} (hs : s.Wf) : (actLaunch g d a b s).Wf := by
  have hput {s1 : State} {v : Word} (h1 : s1.Wf) : Yields Act.Wf State.Wf
      (match s1.writeReg d v with | .ok s2 => .ok s2 | .error w => .error (.wait w s1)) := by
    grind [!← State.writeReg_wf, Act.Wf, Yields.ok_iff, Yields.error_iff]
  refine State.memBegin_wf hs fun vs => Yields.ite hs ?_
  split
  · exact hs
  · refine Yields.ite hs ((State.eltsOperand_wf hs).bind fun _ _ => Yields.ite hs ?_)
    refine (State.readElts_wf hs fun _ s h => ⟨h, none_act_wf⟩).bind fun ⟨bs, s2⟩ h2 => ?_
    refine Yields.ite hs ?_
    have h3 := (State.releaseNow_wf (sc := .package) (tier := 0) h2)
    refine Yields.ite (hput h3) (Yields.ite hs ((State.putPhys_wf h3).bind fun _ h4 => hput (State.offered_wf h4)))

/-! ### Page -/

theorem State.privBegin_wf {s : State} {g srcs d k} (hs : s.Wf) (hk : ∀ vs, (k vs).Wf) : (s.privBegin g srcs d k).Wf := by
  unfold State.privBegin
  refine State.begin_wf hs fun vs s1 h1 => ?_
  grind [State.retire_wf, Act.Wf, Priv.Wf]

theorem State.dropTlb_wf {s : State} {p f} (hs : s.Wf) : (s.dropTlb p f).Wf :=
  State.wf_of_clusters hs (forall_mem_mapIdx hs.clusters fun i c hc => by split; exacts [hc, hc])

theorem State.dropBad_wf {s : State} {p a} (hs : s.Wf) : (s.dropBad p a).Wf := hs

theorem State.staleAts_wf {s : State} {p f} (hs : s.Wf) : (s.staleAts p f).Wf := hs

theorem State.tlbi_wf {s : State} {f drop} (hs : s.Wf) (hd : ∀ s : State, s.Wf → (drop s).Wf) : (s.tlbi f drop).Wf := by
  have h1 : (State.staleAts (drop (s.dropTlb s.actingPart f)) s.actingPart f).Wf := State.staleAts_wf (hd _ (State.dropTlb_wf hs))
  unfold State.tlbi
  grind [Priv.Wf]

theorem State.tlbiCtx_wf {s : State} {xa f} (hs : s.Wf) : (s.tlbiCtx xa f).Wf := by
  have h1 {f} := State.tlbi_wf (f := f) (drop := id) hs fun _ h => h
  unfold State.tlbiCtx
  grind [Priv.Wf]

theorem actTlbiPage_wf {g d a b} {s : State} (hs : s.Wf) : (actTlbiPage g d a b s).Wf := State.privBegin_wf hs fun _ => State.tlbiCtx_wf hs

theorem actTlbiCtx_wf {g d a} {s : State} (hs : s.Wf) : (actTlbiCtx g d a s).Wf := State.privBegin_wf hs fun _ => State.tlbiCtx_wf hs

theorem actTlbiAll_wf {g d} {s : State} (hs : s.Wf) : (actTlbiAll g d s).Wf := State.privBegin_wf hs fun _ => State.tlbi_wf hs fun _ h => h

theorem actTlbiPte_wf {g d b} {s : State} (hs : s.Wf) : (actTlbiPte g d b s).Wf :=
  State.privBegin_wf hs fun _ => State.tlbi_wf hs fun _ h => State.dropBad_wf h

theorem State.clearPage_wf {s : State} {pg drop} (hs : s.Wf) : (s.clearPage pg drop).Wf := by
  have h1 {p} : (((s.pageLines pg).foldl (fun s l => if drop then s.dropL2 l else s.evict l) s).settleLines p).Wf := by
    refine State.settleLines_wf (foldl_wf (fun s l h => ?_) hs)
    split
    · exact State.dropL2_wf h
    · exact State.evict_wf h
  exact State.wf_of_slices h1 (forall_mem_map h1.slices fun _ hx => hx)

theorem State.retirePage_wf {s : State} {xa drop} (hs : s.Wf) : (s.retirePage xa drop).Wf := by
  unfold State.retirePage
  grind [State.clearPage_wf, State.wf_of_memories, Priv.Wf]

theorem actPgret_wf {g d a} {s : State} (hs : s.Wf) : (actPgret g d a s).Wf := State.privBegin_wf hs fun _ => State.retirePage_wf hs

theorem actPgretDrop_wf {g d a} {s : State} (hs : s.Wf) : (actPgretDrop g d a s).Wf := State.privBegin_wf hs fun _ => State.retirePage_wf hs

theorem State.quarantine_wf {s : State} {sl w} (hs : s.Wf) : (s.quarantine sl w).Wf := by
  unfold State.quarantine
  grind [State.updSlice_wf, State.evict_wf, foldl_wf]

theorem actWayq_wf {g d a} {s : State} (hs : s.Wf) : (actWayq g d a s).Wf := by
  unfold actWayq
  grind [State.privBegin_wf, State.fenceHome_wf, State.quarantine_wf, Priv.Wf]

theorem State.injectL2_wf {s : State} {xa k} (hs : s.Wf) : (s.injectL2 xa k).Wf := by
  unfold State.injectL2
  grind [State.setL2_wf, Priv.Wf]

theorem actInjL2ce_wf {g d a} {s : State} (hs : s.Wf) : (actInjL2ce g d a s).Wf := State.privBegin_wf hs fun _ => State.injectL2_wf hs

theorem actInjL2ue_wf {g d a} {s : State} (hs : s.Wf) : (actInjL2ue g d a s).Wf := State.privBegin_wf hs fun _ => State.injectL2_wf hs

theorem actInjHbmue_wf {g d a} {s : State} (hs : s.Wf) : (actInjHbmue g d a s).Wf := by
  unfold actInjHbmue
  grind [State.privBegin_wf, State.wf_of_memories, Priv.Wf]

theorem actAtsiQ_wf {g d a} {s : State} (hs : s.Wf) : (actAtsiQ g d a s).Wf := by
  unfold actAtsiQ
  grind [State.privBegin_wf, Priv.Wf]

theorem actAtsiF_wf {g d a} {s : State} (hs : s.Wf) : (actAtsiF g d a s).Wf := by
  unfold actAtsiF
  grind [State.privBegin_wf, State.dropTlb_wf, Priv.Wf]

/-! ### Tenancy -/

theorem State.saveEvent_wf {s : State} {op xa v base} (hs : s.Wf) : (s.saveEvent op xa v base).Wf := State.raise_wf hs

theorem Priv.saving_wf {r op xa base} (hs : r.Wf) : (Priv.saving r op xa base).Wf := by
  unfold Priv.saving
  grind [State.saveEvent_wf, Priv.Wf]

theorem State.target_wf {s : State} {xa k} (hs : s.Wf) (hk : ∀ cl ctx, (k cl ctx).Wf) : (s.target xa k).Wf := by
  unfold State.target
  grind [Priv.Wf]

theorem State.setCtxState_wf {s : State} {ctx c} (hs : s.Wf) : (s.setCtxState ctx c).Wf := hs

theorem State.drainArray_wf {s : State} {core} (hs : s.Wf) : (s.drainArray core).Wf :=
  foldl_wf (fun _ _ h => State.setRuns_wf (State.updCluster_wf h fun _ hc => foldl_ok (fun _ _ h => Cluster.enter_wf h) hc)) hs

theorem State.stopClocks_wf {s : State} {cl ctx} (hs : s.Wf) : (s.stopClocks cl ctx).Wf := by
  unfold State.stopClocks
  grind [State.cluster_wf, State.drainArray_wf, State.updCore_wf, State.updCluster_wf, State.setCtxState_wf, foldl_wf, Cluster.Ok]

theorem State.accepted_wf {s : State} (hs : s.Wf) : (s.accepted).Wf := hs

theorem actScoutStop_wf {g d a} {s : State} (hs : s.Wf) : (actScoutStop g d a s).Wf := by
  refine State.privBegin_wf hs fun vs => Priv.saving_wf (State.target_wf hs fun cl ctx => ?_)
  grind [State.accepted_wf, State.stopClocks_wf, Priv.Wf]

theorem State.cleanOf_wf {s : State} {ctx} (hs : s.Wf) : (s.cleanOf ctx).Wf := foldl_wf (fun _ _ h => State.clean_wf h) hs

theorem State.physPut_wf {s : State} {pa bs n} (hs : s.Wf) : Yields (fun r => r.2.Wf) State.Wf (s.physPut pa bs n) := by
  induction n generalizing s pa bs with
  | zero => exact hs
  | succ n ih =>
    unfold State.physPut
    grind [!← State.homeWrite_wf, Yields.ok_iff, Yields.error_iff]

theorem State.bookPut_wf {s : State} {pa book} (hs : s.Wf) : Yields (fun r => r.2.Wf) State.Wf (s.bookPut pa book) := by
  unfold State.bookPut
  simp only [bind, Except.bind]
  grind [!← State.physPut_wf, Yields.ok_iff, Yields.error_iff]

theorem State.scanRelease_wf {s : State} {cl ctx} (hs : s.Wf) : (s.scanRelease cl ctx).Wf := by
  unfold State.scanRelease
  grind [!← State.publish_wf, State.liftPins_wf, State.widenPins_wf, foldl_wf]

theorem State.shiftOut_wf {s : State} {cl ctx base} (hs : s.Wf) : (s.shiftOut cl ctx base).Wf := by
  unfold State.shiftOut
  grind [State.scanRelease_wf, State.cleanOf_wf, !← State.bookPut_wf, State.settle_wf, State.updCluster_wf, State.cluster_wf,
    State.setCtxState_wf, State.wf_of_memories, Cluster.Ok, Yields.ok_iff, Yields.error_iff, Priv.Wf]

theorem actScoutShift_wf {g d a b} {s : State} (hs : s.Wf) : (actScoutShift g d a b s).Wf := by
  refine State.privBegin_wf hs fun vs => Priv.saving_wf (State.target_wf hs fun cl ctx => ?_)
  grind [State.shiftOut_wf, Priv.Wf]

theorem State.resumeClocks_wf {s : State} {cl ctx} (hs : s.Wf) : (s.resumeClocks cl ctx).Wf := by
  unfold State.resumeClocks
  generalize e1 : (if (s.cluster cl).stopped.contains ctx then _ else s) = s1
  have h1 : s1.Wf := e1 ▸ State.wf_ite (foldl_wf (fun _ _ h => State.updCore_wf h) hs) hs
  dsimp only
  generalize e2 : s1.updCluster cl _ = s2
  have h2 : s2.Wf := e2 ▸ State.updCluster_wf h1 fun _ hc => hc
  split
  · exact State.setCtxState_wf (State.wf_of_clusters h2 (forall_mem_map h2.clusters fun _ hc => hc))
  · exact h2

theorem actScoutResume_wf {g d a} {s : State} (hs : s.Wf) : (actScoutResume g d a s).Wf := by
  refine State.privBegin_wf hs fun vs => Priv.saving_wf (State.target_wf hs fun cl ctx => ?_)
  grind [State.accepted_wf, State.resumeClocks_wf, Priv.Wf]

theorem State.clearMarks_wf {s : State} {ctx} (hs : s.Wf) : (s.clearMarks ctx).Wf :=
  State.wf_of_clusters hs (forall_mem_map hs.clusters fun _ hc => hc)

theorem State.finishRestore_wf {s : State} {ctx} (hs : s.Wf) : (s.finishRestore ctx).Wf := by
  unfold State.finishRestore
  grind [State.cluster_wf, State.updCore_wf, State.setCtxState_wf, State.clearMarks_wf, foldl_wf]

theorem State.shiftBack_wf {s : State} {cl ctx base} (hs : s.Wf) : (s.shiftBack cl ctx base).Wf := by
  unfold State.shiftBack
  split
  · split
    · exact State.setCtxState_wf (State.wf_of_clusters hs (forall_mem_map hs.clusters fun _ hc => hc))
    · exact hs
  · exact State.finishRestore_wf (State.setCtxState_wf (State.updCluster_wf (State.shiftIn_wf hs) fun _ hc => hc))

theorem imageTrouble_wf {e line} {s : State} (hs : s.Wf) : (imageTrouble e line s).Wf := by
  unfold imageTrouble
  grind [Priv.Wf]

theorem State.lookBook_wf {s : State} {base} (hs : s.Wf) : Yields (fun r => r.2.2.Wf) State.Wf (s.lookBook base) := State.lookImage_wf hs

theorem actScin_wf {g d a b} {s : State} (hs : s.Wf) : (actScin g d a b s).Wf := by
  refine State.privBegin_wf hs fun vs => Priv.saving_wf (State.target_wf hs fun cl ctx => ?_)
  grind [!← State.lookBook_wf, imageTrouble_wf, State.shiftBack_wf, Yields.ok_iff, Yields.error_iff, Priv.Wf]

theorem actScver_wf {g d a} {s : State} (hs : s.Wf) : (actScver g d a s).Wf := by
  unfold actScver
  grind [State.privBegin_wf, !← State.lookBook_wf, imageTrouble_wf, Yields.ok_iff, Yields.error_iff, Priv.Wf]

theorem actScverPart_wf {g d} {s : State} (hs : s.Wf) : (actScverPart g d s).Wf := by
  unfold actScverPart
  grind [State.privBegin_wf, Priv.Wf]

theorem State.setOwner_wf {s : State} {cl ctx o} (hs : s.Wf) : (s.setOwner cl ctx o).Wf := by
  unfold State.setOwner
  grind [State.updCluster_wf, Cluster.Ok]

theorem State.ownset_wf {s : State} {xa m f put gone} (hs : s.Wf) (hg : ∀ (s : State) cl ctx m, s.Wf → (gone s cl ctx m).Wf) :
    (s.ownset xa m f put gone).Wf := by
  refine State.target_wf hs fun cl ctx => ?_
  grind [State.setOwner_wf, Priv.Wf]

theorem actOwnsetCore_wf {g d a b} {s : State} (hs : s.Wf) : (actOwnsetCore g d a b s).Wf := by
  refine State.privBegin_wf hs fun vs => ?_
  split
  · exact hs
  · refine State.ownset_wf hs fun s cl ctx m h => State.wf_ite h (foldl_wf (fun _ _ h => ?_) h)
    exact State.wf_ite (State.updCluster_wf (State.setCore_wf h) fun _ hc => hc) h

theorem actOwnsetBank_wf {g d a b} {s : State} (hs : s.Wf) : (actOwnsetBank g d a b s).Wf :=
  State.privBegin_wf hs fun _ => State.ownset_wf hs fun _ _ _ _ h => h

theorem actOwnsetAcm_wf {g d a b} {s : State} (hs : s.Wf) : (actOwnsetAcm g d a b s).Wf :=
  State.privBegin_wf hs fun _ => State.ownset_wf hs fun _ _ _ _ h => State.updCluster_wf h fun _ hc => hc

theorem State.preq_wf {s : State} {xa k} (hs : s.Wf) (hk : ∀ ctx cs, (k ctx cs).Wf) : (s.preq xa k).Wf := by
  unfold State.preq
  grind [Priv.Wf]

theorem State.mapCores_wf {s : State} {l f} (hs : s.Wf) : (s.mapCores l f).Wf := foldl_wf (fun _ _ h => State.updCore_wf h) hs

theorem actPreqSet_wf {g d a} {s : State} (hs : s.Wf) : (actPreqSet g d a s).Wf :=
  State.privBegin_wf hs fun _ => State.preq_wf hs fun _ _ => State.setCtxState_wf (State.mapCores_wf hs)

theorem actPreqClr_wf {g d a} {s : State} (hs : s.Wf) : (actPreqClr g d a s).Wf :=
  State.privBegin_wf hs fun _ => State.preq_wf hs fun _ _ => State.accepted_wf (State.setCtxState_wf (State.mapCores_wf hs))

theorem State.undo_wf {s : State} {core e} (hs : s.Wf) : Yields State.Wf State.Wf (s.undo core e) := by
  unfold State.undo
  dsimp only
  split
  · grind [!← State.homeWrite_wf, State.settle_wf, Yields.ok_iff, Yields.error_iff]
  · refine Yields.ite ?_ ?_
    · exact State.settle_wf (State.updCluster_wf hs fun _ hc => ⟨foldl_memPut_wf hc.1, hc.2⟩)
    · exact State.updSlice_wf hs fun _ hx => foldl_memPut_wf hx

theorem State.undoAll_wf {s : State} {l} (hs : s.Wf) : Yields (fun _ => True) State.Wf (s.undoAll l) := by
  induction l generalizing s with
  | nil => exact hs
  | cons e l ih =>
    unfold State.undoAll
    grind [!← State.undo_wf, Yields.ok_iff, Yields.error_iff]

theorem State.undoStuck_wf {s : State} {e} (hs : s.Wf) : (s.undoStuck e).Wf := by
  unfold State.undoStuck
  grind [!← State.undo_wf, Yields.ok_iff, Yields.error_iff]

theorem State.cancelPlan_wf {s : State} {core k} (hs : s.Wf) : (s.cancelPlan core k).Wf := by
  unfold State.cancelPlan
  grind [State.updStrm_wf, State.updKernel_wf]

theorem State.cutBack_wf {s : State} {core k} (hs : s.Wf) : (s.cutBack core k).Wf := by
  unfold State.cutBack
  grind [State.updCluster_wf, State.updCore_wf, State.updStrm_wf, Cluster.Ok]

theorem actCutb_wf {g d a} {s : State} (hs : s.Wf) : (actCutb g d a s).Wf := by
  refine State.privBegin_wf hs fun vs => Priv.saving_wf (State.target_wf hs fun cl ctx => ?_)
  have h2 {l : List (Nat × StreamId)} : (l.foldl (fun s x => s.cancelPlan x.1 x.2) (s.stopClocks cl ctx)).Wf :=
    foldl_wf (fun _ _ h => State.cancelPlan_wf h) (State.stopClocks_wf hs)
  dsimp only
  split
  · exact hs
  · split
    · exact hs
    · split
      · exact State.undoStuck_wf h2
      · next e => exact foldl_wf (fun _ _ h => State.updStrm_wf (State.cutBack_wf h)) ((State.undoAll_wf h2).ok e)

theorem actIdem_wf {g d a b} {s : State} (hs : s.Wf) : (actIdem g d a b s).Wf := by
  unfold actIdem
  grind [State.privBegin_wf, State.updCtx_wf, Priv.Wf]

theorem State.tmark_wf {s : State} {xa force} (hs : s.Wf) : (s.tmark xa force).Wf := by
  unfold State.tmark
  grind [State.tileMark_wf, Priv.Wf]

theorem actTmarkQ_wf {g d a} {s : State} (hs : s.Wf) : (actTmarkQ g d a s).Wf := State.privBegin_wf hs fun _ => State.tmark_wf hs

theorem actTmarkF_wf {g d a} {s : State} (hs : s.Wf) : (actTmarkF g d a s).Wf := State.privBegin_wf hs fun _ => State.tmark_wf hs

/-! ### Residency -/

theorem resRead_wf {s0 : State} {r n} (hs : s0.Wf) (hs1 : Yields Act.Wf (fun r => r.2.Wf) r) :
    Yields (fun r => r.2.Wf) (fun r => r.2.Wf) (resRead s0 r n) := by
  unfold resRead
  grind [!← State.homeRead_wf, Yields.ok_iff, Yields.error_iff, Act.Wf]

theorem State.ctxPiece_wf {s : State} {cl ctx e} (hs : s.Wf) : Yields (fun r => r.2.Wf) (fun r => r.2.Wf) (s.ctxPiece cl ctx e) := by
  unfold State.ctxPiece
  grind [!← State.locate_wf, !← resRead_wf, Yields.ok_iff, Yields.error_iff, Act.Wf]

theorem State.ctxPieces_wf {s : State} {cl ctx es} (hs : s.Wf) : Yields (fun r => r.2.Wf) (fun r => r.2.Wf) (s.ctxPieces cl ctx es) := by
  induction es generalizing s with
  | nil => exact hs
  | cons e es ih => exact (State.ctxPiece_wf hs).bind fun ⟨_, _⟩ h1 => (ih h1).bind fun ⟨_, _⟩ h2 => h2

theorem State.ctxBytes_wf {s : State} {cl ctx y n} (hs : s.Wf) : Yields (fun r => r.2.Wf) (fun r => r.2.Wf) (s.ctxBytes cl ctx y n) :=
  State.ctxPieces_wf hs

theorem State.physPieces_wf {s : State} {es} (hs : s.Wf) : Yields (fun r => r.2.Wf) (fun r => r.2.Wf) (s.physPieces es) := by
  induction es generalizing s with
  | nil => exact hs
  | cons e es ih =>
    refine (resRead_wf hs ?_).bind fun ⟨_, _⟩ h1 => (ih h1).bind fun ⟨_, _⟩ h2 => h2
    grind [trapOf_wf, Yields.ok_iff, Yields.error_iff]

theorem State.readPacket_wf {s : State} {pa} (hs : s.Wf) : Yields (fun r => r.2.Wf) (fun r => r.2.Wf) (s.readPacket pa) := State.physPieces_wf hs

theorem State.readCfg_wf {s : State} {cl e} (hs : s.Wf) : Yields (fun r => r.2.Wf) (fun r => r.2.Wf) (s.readCfg cl e) := by
  unfold State.readCfg
  simp only [bind, Except.bind]
  grind [!← State.ctxBytes_wf, Yields.ok_iff, Yields.error_iff]

theorem State.readPgt_wf {s : State} {cl ctx y ts} (hs : s.Wf) : Yields (fun r => r.2.Wf) (fun r => r.2.Wf) (s.readPgt cl ctx y ts) := by
  unfold State.readPgt
  simp only [bind, Except.bind]
  grind [!← State.ctxBytes_wf, Yields.ok_iff, Yields.error_iff]

theorem State.readPlan_wf {s : State} {part cl ctx y} (hs : s.Wf) : Yields (fun r => r.2.Wf) (fun r => r.2.Wf) (s.readPlan part cl ctx y) := by
  unfold State.readPlan
  simp only [bind, Except.bind]
  grind [!← State.ctxBytes_wf, Yields.ok_iff, Yields.error_iff]

theorem State.residency_wf {s : State} {c pk value bound} (hs : s.Wf) :
    Yields (fun r => r.2.Wf) (fun r => r.2.Wf) (s.residency c pk value bound) := by
  refine (State.physPieces_wf hs).bind fun ⟨_, s⟩ hs => ?_
  refine Yields.ite hs (Yields.ite hs (Yields.ite hs (Yields.ite hs ?_)))
  refine (State.ctxBytes_wf hs).bind fun ⟨_, _⟩ h1 => Yields.ite h1 ((State.readCfg_wf h1).bind fun ⟨_, _⟩ h2 => ?_)
  refine (State.readPgt_wf h2).bind fun ⟨_, _⟩ h3 => (State.readPlan_wf h3).bind fun ⟨_, _⟩ h4 => ?_
  exact Yields.ite h4 (Yields.ite h4 h4)

theorem State.checkAt_wf {s : State} {c pa value bound} (hs : s.Wf) : Yields (fun r => r.2.Wf) (fun r => r.2.Wf) (s.checkAt c pa value bound) :=
  (State.readPacket_wf hs).bind fun _ h => State.residency_wf h

theorem State.addKernel_wf {s : State} {k} (hs : s.Wf) : (s.addKernel k).Wf := hs

/-! ### Kernel -/

theorem State.doneLost_wf {s : State} {k} (hs : s.Wf) : (s.doneLost k).Wf := hs

theorem State.doneStore_wf {s : State} {k cl status} (hs : s.Wf) : Yields State.Wf State.Wf (s.doneStore k cl status) := by
  have hl {va} : Yields Act.Wf (fun r => r.2.Wf) (s.locate cl k.ctx va true) := State.locate_wf hs
  have hd {s : State} (h : s.Wf) : (s.doneLost k).Wf := State.doneLost_wf h
  unfold State.doneStore
  dsimp only
  refine Yields.ite hs (Yields.ite (hd hs) ?_)
  split
  · next e => exact hl.error e
  · next e => exact Yields.ite (hl.error e) (hd (hl.error e))
  · next e => exact hd (hl.error e)
  · next e => exact hd (hl.error e)
  · next e => exact hd (hl.ok e)
  · next s1 e =>
    have h1 : s1.Wf := hl.ok e
    exact State.dropReleases_wf (State.settle_wf (State.wf_withHost h1 (memPuts_wf _ _ h1.host)))
  · next s1 e =>
    have h1 : s1.Wf := hl.ok e
    have hw {own bs l} : Yields (fun r => r.2.Wf) State.Wf (s1.homeWrite l own bs) := State.homeWrite_wf h1
    split
    · next e => exact State.dropReleases_wf (State.settle_wf (hw.ok e))
    · next e => exact hw.error e

theorem State.commitNext_wf {s : State} {part id} (hs : s.Wf) : (s.commitNext part id).Wf := hs

theorem State.frontEnd_wf {s : State} {part id} (hs : s.Wf) : (s.frontEnd part id).Wf := by
  have hp {pa} := State.readPacket_wf (pa := pa) hs
  unfold State.frontEnd
  split
  · exact hs
  · refine State.wf_ite hs ?_
    dsimp only
    split
    · next e => exact hp.error e
    · next e => exact State.commitNext_wf (hp.error e)
    · next s1 e =>
      have h1 : s1.Wf := hp.ok e
      have hr {c pk value bound} := State.residency_wf (c := c) (pk := pk) (value := value) (bound := bound) h1
      split
      · next e => exact State.addKernel_wf (State.commitNext_wf (hr.ok e))
      · next e => exact hr.error e
      · next s2 e =>
        have hd {k cl st} := State.doneStore_wf (k := k) (cl := cl) (status := st) (hr.error e : s2.Wf)
        split
        · next e => exact State.commitNext_wf (hd.ok e)
        · next e => exact hd.error e

theorem State.scoreOf_wf {s : State} {k} (hs : s.Wf) : (s.scoreOf k).2.Wf := State.polRun_wf hs

theorem State.pick_wf {s : State} {k} (hs : s.Wf) : (s.pick k).2.Wf :=
  List.foldlRecOn (motive := fun x : Option (Nat × Kernel) × State => x.2.Wf) _ _ hs fun _ h _ _ => State.scoreOf_wf h

theorem State.applyRec_wf {s : State} {k cl r} (hs : s.Wf) : ∀ t, (s.applyRec k cl r) = some t → t.Wf := by
  unfold State.applyRec
  grind [State.cluster_wf, State.setTile_wf, State.switchBank_wf]

theorem foldl_bind_wf {α : Type} {f : State → α → Option State} {l : List α} {o : Option State}
    (hf : ∀ (s : State) a, s.Wf → ∀ t, f s a = some t → t.Wf) (ho : ∀ s, o = some s → s.Wf) :
    ∀ t, l.foldl (fun o a => o.bind fun s => f s a) o = some t → t.Wf :=
  List.foldlRecOn (motive := fun o => ∀ t, o = some t → State.Wf t) l _ ho fun o h a _ t ht => by
    obtain ⟨s, hs, hft⟩ := Option.bind_eq_some_iff.mp ht
    exact hf s a (h s hs) t hft

theorem State.applyCfg_wf {s : State} {k cl} (hs : s.Wf) : ∀ t, s.applyCfg k cl = some t → t.Wf :=
  foldl_bind_wf (fun _ _ h => State.applyRec_wf h) fun t ht => by cases ht; exact hs

theorem State.applyAll_wf {s : State} {k cls} (hs : s.Wf) : ∀ t, s.applyAll k cls = some t → t.Wf :=
  foldl_bind_wf (fun _ _ h => State.applyCfg_wf h) fun t ht => by cases ht; exact hs

theorem State.dropKernel_wf {s : State} {id} (hs : s.Wf) : (s.dropKernel id).Wf := hs

theorem State.startKernel_wf {s : State} {k cores} (hs : s.Wf) : (s.startKernel k cores).Wf := by
  have hl {line} := State.lookLine_wf (line := line) (own := none) hs
  unfold State.startKernel
  dsimp only
  split
  · next e => exact hl.error e
  · next e => exact State.contextFault_wf (hl.error e)
  · next s0 e =>
    have h0 : s0.Wf := hl.ok e
    have hd {cl} := State.doneStore_wf (k := k) (cl := cl) (status := 0x0E) h0
    split
    · split
      · next e => exact State.dropKernel_wf (hd.ok e)
      · next e => exact hd.error e
    · next s1 e =>
      have h3 {f : Nat → Core → Core} {g} : ((cores.foldl (fun s c => s.updCore c (f c)) s1).updKernel k.id g).Wf :=
        State.updKernel_wf (foldl_wf (fun _ _ h => State.updCore_wf h) (State.applyAll_wf h0 s1 e))
      exact State.wf_ite (State.setCtxState_wf h3) h3

theorem State.placeKernel_wf {s : State} {kid cores} (hs : s.Wf) : (s.placeKernel kid cores).Wf := by
  unfold State.placeKernel
  grind [State.startKernel_wf, !← State.pick_wf]

theorem Cluster.freeRings_wf {c core} (hs : c.Ok) : (Cluster.freeRings c core).Ok := hs

theorem State.endJob_wf {s : State} {core} (hs : s.Wf) : (s.endJob core).Wf := by
  unfold State.endJob
  grind [State.updCore_wf, State.liftPins_wf, State.updCluster_wf, Cluster.freeRings_wf, foldl_wf]

theorem State.freeKernel_wf {s : State} {kid} (hs : s.Wf) : (s.freeKernel kid).Wf :=
  State.wf_of_clusters hs (forall_mem_map hs.clusters fun _ hc => hc)

theorem State.completeKernel_wf {s : State} {k status} (hs : s.Wf) : Yields State.Wf State.Wf (s.completeKernel k status) := by
  unfold State.completeKernel
  grind [!← State.doneStore_wf, State.carryAll_wf, State.freeKernel_wf, State.dropKernel_wf, Yields.ok_iff, Yields.error_iff]

theorem State.afterRetire_wf {s : State} {ctx} (hs : s.Wf) : (s.afterRetire ctx).Wf := State.wf_ite (State.setCtxState_wf hs) hs

theorem State.retireKernel_wf {s : State} {kid} (hs : s.Wf) : (s.retireKernel kid).Wf := by
  unfold State.retireKernel
  grind [!← State.completeKernel_wf, State.afterRetire_wf, Yields.ok_iff, Yields.error_iff]

theorem State.dropLinesOf_wf {s : State} {ctx} (hs : s.Wf) : (s.dropLinesOf ctx).Wf := State.settleLines_wf hs

theorem Cluster.without_wf {c cl ctx cores} (hs : c.Ok) : (Cluster.without c cl ctx cores).Ok := hs

theorem State.completeAll_wf {s : State} {status ks} (hs : s.Wf) : Yields State.Wf State.Wf (s.completeAll status ks) := by
  induction ks generalizing s with
  | nil => exact hs
  | cons k ks ih =>
    unfold State.completeAll
    grind [!← State.completeKernel_wf, Yields.ok_iff, Yields.error_iff]

theorem State.dismantle_wf {s : State} {ctx} (hs : s.Wf) : (s.dismantle ctx).Wf := by
  unfold State.dismantle
  dsimp only
  generalize e1 : State.dropLinesOf _ ctx = s1
  have h1 : s1.Wf := e1 ▸ State.dropLinesOf_wf (foldl_wf (fun _ _ h => State.updCore_wf h) hs)
  exact State.wf_of_clusters h1 (forall_mem_mapIdx h1.clusters fun _ _ hc => Cluster.without_wf hc)

theorem State.disown_wf {s : State} {ctx} (hs : s.Wf) : (s.disown ctx).Wf := State.wf_of_clusters hs (forall_mem_map hs.clusters fun _ hc => hc)

theorem State.terminate_wf {s : State} {ctx} (hs : s.Wf) : (s.terminate ctx).Wf := by
  unfold State.terminate
  grind [State.dismantle_wf, !← State.completeAll_wf, State.updPart_wf, State.updCtx_wf, State.disown_wf, Yields.ok_iff, Yields.error_iff]

theorem execEvFrontEndConsume_wf {part queue} {s : State} (hs : s.Wf) : NextWf (execEvFrontEndConsume part queue s) :=
  NextWf.next_iff.mpr (State.frontEnd_wf hs)

theorem execEvKernelPlace_wf {kid cores} {s : State} (hs : s.Wf) : NextWf (execEvKernelPlace kid cores s) :=
  NextWf.next_iff.mpr (State.placeKernel_wf hs)

theorem execEvJobEnd_wf {core} {s : State} (hs : s.Wf) : NextWf (execEvJobEnd core s) := NextWf.next_iff.mpr (State.endJob_wf hs)

theorem execEvKernelRetire_wf {kid} {s : State} (hs : s.Wf) : NextWf (execEvKernelRetire kid s) := NextWf.next_iff.mpr (State.retireKernel_wf hs)

theorem execEvTerminationComplete_wf {ctx} {s : State} (hs : s.Wf) : NextWf (execEvTerminationComplete ctx s) :=
  NextWf.next_iff.mpr (State.terminate_wf hs)

/-! ### EngineEv -/

theorem State.whenClocked_wf {s : State} {core f} (hs : s.Wf) (hf : ∀ s : State, s.Wf → (f s).Wf) : (s.whenClocked core f).Wf :=
  State.wf_ite (hf s hs) hs

theorem State.markerOver_wf {s : State} {core t q} (hs : s.Wf) : (s.markerOver core t q).Wf := State.noteIssue_wf (State.updCore_wf hs)

theorem State.markerAct_wf {s : State} {core t clear} (hs : s.Wf) : (s.markerAct core t clear).Wf := by
  unfold State.markerAct
  grind [State.markerOver_wf, State.fireFlag_wf, State.clearFlag_wf]

theorem State.fwaitIssue_wf {s : State} {core t} (hs : s.Wf) : (s.fwaitIssue core t).Wf := by
  unfold State.fwaitIssue
  grind [State.markerOver_wf]

theorem State.windowRetire_wf {s : State} {core} (hs : s.Wf) : (s.windowRetire core).Wf := State.wf_ite (State.retireWindow_wf hs) hs

theorem State.reportFor_wf {s : State} {p} (hs : s.Wf) : (s.reportFor p).Wf := by
  unfold State.reportFor
  grind [State.reportFault_wf]

theorem State.unmap_wf {s : State} {cl} (hs : s.Wf) : (s.unmap cl).Wf := by
  unfold State.unmap
  grind [State.contextFault_wf, State.cluster_wf, foldl_wf, State.wf_of_memories]

theorem State.fenceCluster_wf {s : State} {cl} (hs : s.Wf) : (s.fenceCluster cl).Wf := by
  unfold State.fenceCluster
  grind [State.reportFor_wf, State.unmap_wf, State.updDie_wf, State.wf_of_memories]

theorem State.mismatch_wf {s : State} {core escalate} (hs : s.Wf) : (s.mismatch core escalate).Wf := by
  unfold State.mismatch
  grind [State.fenceCluster_wf, State.updCore_wf, State.contextFault_wf]

theorem execEvCopyIssue_wf {core} {s : State} (hs : s.Wf) : NextWf (execEvCopyIssue core s) :=
  NextWf.next_iff.mpr (State.whenClocked_wf hs fun _ h => State.copyIssue_wf h)

theorem execEvCopyComplete_wf {core seq n} {s : State} (hs : s.Wf) : NextWf (execEvCopyComplete core seq n s) :=
  NextWf.next_iff.mpr (State.whenClocked_wf hs fun _ h => State.copyComplete_wf h)

theorem execEvFlagFire_wf {core t} {s : State} (hs : s.Wf) : NextWf (execEvFlagFire core t s) :=
  NextWf.next_iff.mpr (State.whenClocked_wf hs fun _ h => State.markerAct_wf h)

theorem execEvFlagClearAct_wf {core t} {s : State} (hs : s.Wf) : NextWf (execEvFlagClearAct core t s) :=
  NextWf.next_iff.mpr (State.whenClocked_wf hs fun _ h => State.markerAct_wf h)

theorem execEvFwaitMarkerIssue_wf {core t} {s : State} (hs : s.Wf) : NextWf (execEvFwaitMarkerIssue core t s) :=
  NextWf.next_iff.mpr (State.whenClocked_wf hs fun _ h => State.fwaitIssue_wf h)

theorem execEvMgoIssue_wf {core} {s : State} (hs : s.Wf) : NextWf (execEvMgoIssue core s) :=
  NextWf.next_iff.mpr (State.whenClocked_wf hs fun _ h => State.mgoIssue_wf h)

theorem execEvFoldEntry_wf {core} {s : State} (hs : s.Wf) : NextWf (execEvFoldEntry core s) :=
  NextWf.next_iff.mpr (State.whenClocked_wf hs fun _ h => State.foldEntry_wf h)

theorem execEvArrayResume_wf {core ok} {s : State} (hs : s.Wf) : NextWf (execEvArrayResume core ok s) :=
  NextWf.next_iff.mpr (State.whenClocked_wf hs fun _ h => State.arrayResume_wf h)

theorem execEvReplayWindowRetire_wf {core} {s : State} (hs : s.Wf) : NextWf (execEvReplayWindowRetire core s) :=
  NextWf.next_iff.mpr (State.whenClocked_wf hs fun _ h => State.windowRetire_wf h)

theorem execEvEngineUeReplay_wf {core line} {s : State} (hs : s.Wf) : NextWf (execEvEngineUeReplay core line s) :=
  NextWf.next_iff.mpr (State.whenClocked_wf hs fun _ h => State.ueReplay_wf h)

theorem execEvBacksightMismatch_wf {core escalate} {s : State} (hs : s.Wf) : NextWf (execEvBacksightMismatch core escalate s) :=
  NextWf.next_iff.mpr (State.whenClocked_wf hs fun _ h => State.mismatch_wf h)

/-! ### CollEv -/

theorem State.collTaken_wf {s : State} {core q} (hs : s.Wf) : (s.collTaken core q).Wf := by
  unfold State.collTaken
  grind [State.updCluster_wf, State.updCore_wf, Cluster.Ok]

theorem State.collTake_wf {s : State} {core} (hs : s.Wf) : ∀ t, s.collTake core = some t → t.Wf := by
  intro t ht
  unfold State.collTake at ht
  split at ht
  · cases ht
  · split at ht
    · cases ht
    · split at ht
      · split at ht
        · cases ht
        · dsimp only at ht
          split at ht
          · cases ht
          · obtain ⟨s1, e, rfl⟩ := Option.map_eq_some_iff.mp ht
            exact State.collTaken_wf (State.joinWindow_wf (State.claim_wf hs s1 e))
      · cases ht
        exact State.collTaken_wf (State.noteIssue_wf hs)
      all_goals cases ht

theorem State.collIssue_wf {s : State} {core} (hs : s.Wf) : (s.collIssue core).Wf := by
  refine State.wf_ite ?_ hs
  cases h : s.collTake core with
  | none => exact hs
  | some t => exact State.collTake_wf hs t h

theorem State.collAnswered_wf {s : State} {core seq} (hs : s.Wf) : (s.collAnswered core seq).Wf := by
  unfold State.collAnswered
  grind [State.remoteDone_wf]

theorem State.asMember_wf {s : State} {p} (hs : s.Wf) : (s.asMember p).Wf := hs

theorem State.collAsk_wf {s : State} {k ps} (hs : s.Wf) : Yields Act.Wf (fun r => r.2.Wf) (s.collAsk k ps) := by
  induction ps generalizing s with
  | nil => exact hs
  | cons p l ih =>
    unfold State.collAsk
    dsimp only
    split
    · exact (State.xferAsk_wf (State.asMember_wf hs)).bind fun ⟨_, _⟩ h1 => (ih h1).bind fun ⟨_, _⟩ h2 => h2
    · exact (ih hs).bind fun ⟨_, _⟩ h1 => h1

theorem State.collSources_wf {s : State} {k ps} (hs : s.Wf) : Yields Act.Wf (fun r => r.2.Wf) (s.collSources k ps) := by
  induction ps generalizing s with
  | nil => exact hs
  | cons p l ih =>
    unfold State.collSources
    split
    · exact (ih hs).bind fun ⟨_, _⟩ h1 => h1
    · exact (State.xferRead_wf (State.asMember_wf hs)).bind fun ⟨_, _⟩ h1 => (ih h1).bind fun ⟨_, _⟩ h2 => h2

theorem State.setCollProg_wf {s : State} {p g} (hs : s.Wf) : (s.setCollProg p g).Wf := hs

theorem State.collGather_wf {s : State} {k c ps order peers} (hs : s.Wf) :
    Yields Act.Wf (fun r => ∀ t, r = some t → t.Wf) (s.collGather k c ps order peers) := by
  unfold State.collGather
  dsimp only
  refine Yields.ite (by simp [Yields.ok_iff]) ?_
  refine (State.collAsk_wf hs).bind fun ⟨there, s1⟩ h1 => Yields.ite h1 ((State.collSources_wf h1).bind fun ⟨mine, s2⟩ h2 => ?_)
  intro t ht
  obtain ⟨f, -, rfl⟩ := Option.map_eq_some_iff.mp ht
  exact foldl_wf (fun _ _ h => State.setCollProg_wf h) h2

theorem State.collOver_wf {s : State} {p} (hs : s.Wf) : (s.collOver p).Wf := State.collAnswered_wf (State.releaseRanges_wf (State.updCore_wf hs))

theorem State.holdColl_wf {s : State} {core t} (hs : s.Wf) : (s.holdColl core t).Wf := hs

theorem State.collScatter_wf {s : State} {ps} (hs : s.Wf) : (s.collScatter ps).2.Wf := by
  induction ps generalizing s with
  | nil => exact hs
  | cons p l ih =>
    unfold State.collScatter
    grind [!← State.xferPut_wf, State.asMember_wf, State.collOver_wf, State.setCollProg_wf, State.holdColl_wf]

theorem State.collPut_wf {s : State} {cur ctx ps} (hs : s.Wf) : (s.collPut cur ctx ps).Wf := by
  unfold State.collPut
  grind [!← State.collScatter_wf, State.contextFault_wf, State.wf_of_memories]

theorem State.collFinish_wf {s : State} {k core c order peers} (hs : s.Wf) : (s.collFinish k core c order peers).Wf := by
  unfold State.collFinish
  grind [State.collPut_wf, State.contextFault_wf, !← State.collGather_wf, State.holdColl_wf, State.wf_of_memories, Yields.ok_iff,
    Yields.error_iff, Act.Wf]

theorem State.collComplete_wf {s : State} {core how} (hs : s.Wf) : (s.collComplete core how).Wf := by
  unfold State.collComplete
  grind [State.collFinish_wf, State.contextFault_wf]

theorem State.collwComplete_wf {s : State} {core} (hs : s.Wf) : (s.collwComplete core).Wf := by
  unfold State.collwComplete
  grind [State.updCore_wf]

theorem State.superstep_wf {s : State} {kid} (hs : s.Wf) : (s.superstep kid).Wf := by
  unfold State.superstep
  grind [State.updKernel_wf]

theorem State.runPlan_wf {s : State} {p ts} (hs : s.Wf) : (s.runPlan p ts).2.2.2.Wf := by
  induction ts generalizing s p with
  | nil => exact hs
  | cons t ts ih =>
    unfold State.runPlan
    grind [!← State.xfer_wf]

theorem State.planPart_wf {s : State} {k n} (hs : s.Wf) : (s.planPart k n).2.2.2.Wf := by
  unfold State.planPart
  grind [!← State.runPlan_wf]

theorem State.superstepOver_wf {s : State} {k} (hs : s.Wf) : (s.superstepOver k).Wf := by
  unfold State.superstepOver
  grind [!← State.free_wf, State.updKernel_wf, State.carryAll_wf, State.mapCores_wf, State.wf_of_memories]

theorem State.commEnd_wf {s : State} {kid n} (hs : s.Wf) : (s.commEnd kid n).Wf := by
  unfold State.commEnd
  grind [!← State.planPart_wf, State.updKernel_wf, State.superstepOver_wf, State.updCore_wf, State.contextFault_wf, State.wf_of_memories]

theorem execEvCollIssue_wf {core} {s : State} (hs : s.Wf) : NextWf (execEvCollIssue core s) :=
  NextWf.next_iff.mpr (State.whenClocked_wf hs fun _ h => State.collIssue_wf h)

theorem execEvCollComplete_wf {core how} {s : State} (hs : s.Wf) : NextWf (execEvCollComplete core how s) :=
  NextWf.next_iff.mpr (State.whenClocked_wf hs fun _ h => State.collComplete_wf h)

theorem execEvCollwComplete_wf {core} {s : State} (hs : s.Wf) : NextWf (execEvCollwComplete core s) :=
  NextWf.next_iff.mpr (State.whenClocked_wf hs fun _ h => State.collwComplete_wf h)

theorem execEvSuperstepComplete_wf {kid} {s : State} (hs : s.Wf) : NextWf (execEvSuperstepComplete kid s) :=
  NextWf.next_iff.mpr (State.superstep_wf hs)

theorem execEvCommPhaseEnd_wf {kid n} {s : State} (hs : s.Wf) : NextWf (execEvCommPhaseEnd kid n s) := NextWf.next_iff.mpr (State.commEnd_wf hs)

/-! ### StreamEv -/

theorem State.waitEnd_wf {s : State} {core k} (hs : s.Wf) : (s.waitEnd core k).Wf := State.wf_ite (State.updStrm_wf hs) hs

theorem State.yielded_wf {s : State} {core k} (hs : s.Wf) : (s.yielded core k).Wf := hs

theorem State.loadFill_wf {s : State} {core k i} (hs : s.Wf) : (s.loadFill core k i).Wf := by
  unfold State.loadFill
  grind [State.updStrm_wf, State.fillSlot_wf]

theorem State.unhold_wf {s : State} {core k skip vs} (hs : s.Wf) : (s.unhold core k skip vs).Wf := hs

theorem State.shadowStream_wf {s : State} {core k how} (hs : s.Wf) : (s.shadowStream core k how).Wf := by
  unfold State.shadowStream
  grind [State.unhold_wf, State.deliver_wf, State.updStrm_wf]

theorem State.shadowCopy_wf {s : State} {core how} (hs : s.Wf) : (s.shadowCopy core how).Wf := by
  unfold State.shadowCopy
  grind [State.updCore_wf, State.holdColl_wf, State.copyFault_wf, State.contextFault_wf]

theorem State.walkDone_wf {s : State} {die k} (hs : s.Wf) : (s.walkDone die k).Wf := by
  unfold State.walkDone
  grind [!← State.walk_wf, State.updDie_wf, State.tlbFill_wf, foldl_wf]

theorem State.hostGo_wf {s : State} {key core} (hs : s.Wf) : (s.hostGo key core).Wf := by
  unfold State.hostGo
  grind [State.unhold_wf, State.updCore_wf, foldl_wf]

theorem State.hostFail_wf {s : State} {ctx key} (hs : s.Wf) : (s.hostFail ctx key).Wf := State.wf_ite hs (State.updCtx_wf hs)

theorem State.atsAnswer_wf {s : State} {ctx k ha size r w} (hs : s.Wf) : (s.atsAnswer ctx k ha size r w).Wf := by
  unfold State.atsAnswer
  grind [State.updCtx_wf, State.hostFail_wf, !← State.walk_wf, State.tlbPut_wf]

theorem State.priOver_wf {s : State} {ctx k ok} (hs : s.Wf) : (s.priOver ctx k ok).Wf := by
  unfold State.priOver
  grind [State.updCtx_wf, State.hostGo_wf, State.hostFail_wf, foldl_wf]

theorem State.hostTimeout_wf {s : State} {ctx k ats} (hs : s.Wf) : (s.hostTimeout ctx k ats).Wf := by
  unfold State.hostTimeout
  grind [State.priOver_wf, State.hostFail_wf, State.updCtx_wf]

theorem State.hostDrop_wf {s : State} {ctx va size} (hs : s.Wf) : (s.hostDrop ctx va size).Wf :=
  State.wf_ite hs (State.wf_of_clusters hs (forall_mem_map hs.clusters fun _ hc => hc))

theorem execEvStreamWaitEnd_wf {core st} {s : State} (hs : s.Wf) : NextWf (execEvStreamWaitEnd core st s) :=
  NextWf.next_iff.mpr (State.whenClocked_wf hs fun _ h => State.waitEnd_wf h)

theorem execEvStreamYielded_wf {core st} {s : State} (hs : s.Wf) : NextWf (execEvStreamYielded core st s) :=
  NextWf.next_iff.mpr (State.whenClocked_wf hs fun _ h => State.yielded_wf h)

theorem execEvLoadFill_wf {core st k} {s : State} (hs : s.Wf) : NextWf (execEvLoadFill core st k s) :=
  NextWf.next_iff.mpr (State.whenClocked_wf hs fun _ h => State.loadFill_wf h)

theorem execEvShadowResume_wf {core st copy how} {s : State} (hs : s.Wf) : NextWf (execEvShadowResume core st copy how s) := by
  unfold execEvShadowResume
  grind [State.whenClocked_wf, State.shadowCopy_wf, State.shadowStream_wf, NextWf.next_iff]

theorem execEvWalkComplete_wf {die k} {s : State} (hs : s.Wf) : NextWf (execEvWalkComplete die k s) := NextWf.next_iff.mpr (State.walkDone_wf hs)

theorem execEvAtsResponse_wf {ctx k ha size r w} {s : State} (hs : s.Wf) : NextWf (execEvAtsResponse ctx k ha size r w s) :=
  NextWf.next_iff.mpr (State.atsAnswer_wf hs)

theorem execEvPriResponse_wf {ctx k ok} {s : State} (hs : s.Wf) : NextWf (execEvPriResponse ctx k ok s) :=
  NextWf.next_iff.mpr (State.priOver_wf hs)

theorem execEvPriTimeout_wf {ctx k ats} {s : State} (hs : s.Wf) : NextWf (execEvPriTimeout ctx k ats s) :=
  NextWf.next_iff.mpr (State.hostTimeout_wf hs)

theorem execEvAtsInvalidation_wf {ctx va size} {s : State} (hs : s.Wf) : NextWf (execEvAtsInvalidation ctx va size s) :=
  NextWf.next_iff.mpr (State.hostDrop_wf hs)

/-! ### DeviceEv -/

theorem State.writeSqsub_wf {s : State} {ctx q v} (hs : s.Wf) : (s.writeSqsub ctx q v).Wf := by
  unfold State.writeSqsub
  grind [State.offered_wf]

theorem State.writeSqstat_wf {s : State} {ctx q v} (hs : s.Wf) : (s.writeSqstat ctx q v).Wf := by
  unfold State.writeSqstat
  grind [State.updQueue_wf]

theorem State.plainWrite_wf {s : State} {host o v} (hs : s.Wf) : (s.plainWrite host o v).Wf := by
  unfold State.plainWrite
  grind [State.hostWrite_wf, State.regWrite_wf]

theorem State.refillQueue_wf {s : State} (hs : s.Wf) : (s.refillQueue).Wf := by
  unfold State.refillQueue
  grind [State.updPart_wf, State.wf_of_memories]

theorem State.dispatch_wf {s : State} {n} (hs : s.Wf) : (s.dispatch n).Wf := by
  unfold State.dispatch
  grind [State.updStation_wf, State.refillQueue_wf, State.wf_of_memories]

theorem State.sliceExpiry_wf {s : State} {ctx} (hs : s.Wf) : (s.sliceExpiry ctx).Wf := State.wf_ite (State.freePayload_wf hs) (State.raise_wf hs)

theorem State.watchdog_wf {s : State} {p} (hs : s.Wf) : (s.watchdog p).Wf := State.wf_ite (State.reportFault_wf (State.fencePart_wf hs)) hs

theorem State.answerOrder_wf {s : State} {c k r cls} (hs : s.Wf) : (s.answerOrder c k r cls).Wf := State.remoteOrder_wf hs

theorem State.takeBack_wf {s : State} {c k r} (hs : s.Wf) : (s.takeBack c k r).Wf := hs

theorem State.remoteAnswer_wf {s : State} {tag data own} (hs : s.Wf) : (s.remoteAnswer tag data own).Wf := by
  unfold State.remoteAnswer
  grind [State.takeBack_wf, State.updStrm_wf, State.remoteDone_wf, State.answerOrder_wf, State.fillSlot_wf]

theorem State.failCut_wf {s : State} {c k r t} (hs : s.Wf) : (s.failCut c k r t).Wf := by
  unfold State.failCut
  grind [!← State.undoAll_wf, State.undoStuck_wf, State.cutBack_wf, State.putSlot_wf, State.deliver_wf, State.wf_of_memories,
    Yields.ok_iff, Yields.error_iff]

theorem State.remoteFail_wf {s : State} {tag how} (hs : s.Wf) : (s.remoteFail tag how).Wf := by
  unfold State.remoteFail
  grind [State.contextFault_wf, State.copyFault_wf, State.failCut_wf]

theorem State.inStore_wf {s : State} {atomic es bs} (hs : s.Wf) : Yields State.Wf State.Wf (s.inStore atomic es bs) := by
  induction es generalizing s bs with
  | nil => exact hs
  | cons e es ih =>
    unfold State.inStore
    dsimp only
    split
    · next s1 e1 =>
      have h1 := (State.homeWrite_wf hs).ok e1
      exact ih (State.wf_ite (State.settle_wf h1) (State.dropReleases_wf (State.settle_wf h1)))
    · next e1 => exact (State.homeWrite_wf hs).error e1

theorem State.inLoad_wf {s : State} {es} (hs : s.Wf) : Yields State.Wf State.Wf (s.inLoad es) := by
  induction es generalizing s with
  | nil => exact hs
  | cons e es ih =>
    unfold State.inLoad
    grind [!← State.homeRead_wf, Yields.ok_iff, Yields.error_iff]

theorem State.inPerform_wf {s : State} {pa op} (hs : s.Wf) : Yields State.Wf State.Wf (s.inPerform pa op) := by
  unfold State.inPerform
  grind [!← State.inLoad_wf, !← State.inStore_wf, Yields.ok_iff, Yields.error_iff]

theorem State.incomingReq_wf {s : State} {key off op} (hs : s.Wf) : (s.incomingReq key off op).Wf := by
  unfold State.incomingReq
  grind [State.logErr_wf, !← State.inPerform_wf, State.wf_of_memories, Yields.ok_iff, Yields.error_iff]

theorem State.bootOffer_wf {s : State} {src code hash} (hs : s.Wf) : (s.bootOffer src code hash).Wf := by
  unfold State.bootOffer
  grind [State.wf_of_memories]

theorem State.clusterUp_wf {s : State} {cl} (hs : s.Wf) : (s.clusterUp cl).Wf := by
  unfold State.clusterUp
  grind [State.unmap_wf, foldl_wf, State.wf_of_memories]

theorem State.putSlotEntry_wf {s : State} {part slot res bs} (hs : s.Wf) : (s.putSlotEntry part slot res bs).Wf := by
  unfold State.putSlotEntry
  grind [!← State.physPut_wf, State.settleLines_wf, Yields.ok_iff, Yields.error_iff]

theorem State.freeSlot_wf {s : State} {part slot} (hs : s.Wf) : (s.freeSlot part slot).Wf := by
  unfold State.freeSlot
  grind [!← State.lookLine_wf, State.putSlotEntry_wf, Yields.ok_iff, Yields.error_iff]

theorem State.bringUp_wf {s : State} {b} (hs : s.Wf) : (s.bringUp b).Wf := by
  unfold State.bringUp
  grind [State.clusterUp_wf, State.updCtx_wf, State.updPart_wf, State.putSlotEntry_wf, State.freeSlot_wf, State.wf_of_memories]

theorem State.stackFail_wf {s : State} {h} (hs : s.Wf) : (s.stackFail h).Wf := by
  unfold State.stackFail
  grind [State.reportFault_wf, State.fencePart_wf, foldl_wf, State.wf_of_memories]

theorem State.portFail_wf {s : State} {d2d n} (hs : s.Wf) : (s.portFail d2d n).Wf := by
  unfold State.portFail
  grind [State.reportFault_wf, State.countErr_wf, foldl_wf, State.wf_of_memories]

theorem State.scanTest_wf {s : State} {cl pass} (hs : s.Wf) : (s.scanTest cl pass).Wf := by
  unfold State.scanTest
  grind [State.fenceCluster_wf, State.cluster_wf, State.wf_of_memories]

theorem State.powerLoss_wf {s : State} (hs : s.Wf) : s.powerLoss.Wf := State.wf_withHost State.reset_wf hs.host

theorem execEvSqsub_wf {ctx q value} {s : State} (hs : s.Wf) : NextWf (execEvSqsub ctx q value s) := NextWf.next_iff.mpr (State.writeSqsub_wf hs)

theorem execEvSqstatClearOvf_wf {ctx q value} {s : State} (hs : s.Wf) : NextWf (execEvSqstatClearOvf ctx q value s) :=
  NextWf.next_iff.mpr (State.writeSqstat_wf hs)

theorem execEvMboxDoorbell_wf {part} {s : State} (hs : s.Wf) : NextWf (execEvMboxDoorbell part s) := NextWf.next_iff.mpr (State.doorbell_wf hs)

theorem execEvPlatEnable_wf {part k value} {s : State} (hs : s.Wf) : NextWf (execEvPlatEnable part k value s) := by
  unfold execEvPlatEnable
  grind [State.writePlatwin_wf, NextWf.next_iff]

theorem execEvPlatDisable_wf {part k value} {s : State} (hs : s.Wf) : NextWf (execEvPlatDisable part k value s) := by
  unfold execEvPlatDisable
  grind [State.writePlatwin_wf, NextWf.next_iff]

theorem execEvPkillGo_wf {part value} {s : State} (hs : s.Wf) : NextWf (execEvPkillGo part value s) := by
  unfold execEvPkillGo
  grind [State.writePkill_wf, NextWf.next_iff]

theorem execEvRegisterWrite_wf {host off value} {s : State} (hs : s.Wf) : NextWf (execEvRegisterWrite host off value s) :=
  NextWf.next_iff.mpr (State.plainWrite_wf hs)

theorem execEvEventDispatch_wf {station} {s : State} (hs : s.Wf) : NextWf (execEvEventDispatch station s) :=
  NextWf.next_iff.mpr (State.dispatch_wf hs)

theorem execEvStationCoreReset_wf {station} {s : State} (hs : s.Wf) : NextWf (execEvStationCoreReset station s) :=
  NextWf.next_iff.mpr (State.failRun_wf hs)

theorem execEvTimeSliceExpiry_wf {ctx} {s : State} (hs : s.Wf) : NextWf (execEvTimeSliceExpiry ctx s) :=
  NextWf.next_iff.mpr (State.sliceExpiry_wf hs)

theorem execEvSchedulerWatchdog_wf {part} {s : State} (hs : s.Wf) : NextWf (execEvSchedulerWatchdog part s) :=
  NextWf.next_iff.mpr (State.watchdog_wf hs)

theorem execEvPowerOn_wf {s : State} (hs : s.Wf) : NextWf (execEvPowerOn s) := by
  unfold execEvPowerOn
  grind [State.wf_of_memories, NextWf.next_iff]

theorem execEvBootImageOffer_wf {src code hash} {s : State} (hs : s.Wf) : NextWf (execEvBootImageOffer src code hash s) :=
  NextWf.next_iff.mpr (State.bootOffer_wf hs)

theorem execEvRemoteResponse_wf {tag data} {s : State} (hs : s.Wf) : NextWf (execEvRemoteResponse tag data s) :=
  NextWf.next_iff.mpr (State.remoteAnswer_wf hs)

theorem execEvRemoteTimeout_wf {tag how} {s : State} (hs : s.Wf) : NextWf (execEvRemoteTimeout tag how s) :=
  NextWf.next_iff.mpr (State.remoteFail_wf hs)

theorem execEvIncomingRequest_wf {key off op} {s : State} (hs : s.Wf) : NextWf (execEvIncomingRequest key off op s) :=
  NextWf.next_iff.mpr (State.incomingReq_wf hs)

theorem execEvPackageIdAssign_wf {id} {s : State} (hs : s.Wf) : NextWf (execEvPackageIdAssign id s) := by
  unfold execEvPackageIdAssign
  grind [State.wf_of_memories, NextWf.next_iff]

theorem execEvD2dFlitRetry_wf {port} {s : State} (hs : s.Wf) : NextWf (execEvD2dFlitRetry port s) := NextWf.next_iff.mpr (State.countErr_wf hs)

theorem execEvPortRetrainFail_wf {d2d port} {s : State} (hs : s.Wf) : NextWf (execEvPortRetrainFail d2d port s) :=
  NextWf.next_iff.mpr (State.portFail_wf hs)

theorem execEvHbmStackFail_wf {stack} {s : State} (hs : s.Wf) : NextWf (execEvHbmStackFail stack s) := NextWf.next_iff.mpr (State.stackFail_wf hs)

theorem execEvCoolantOverlimit_wf {s : State} (hs : s.Wf) : NextWf (execEvCoolantOverlimit s) := by
  unfold execEvCoolantOverlimit
  grind [State.wf_of_memories, NextWf.next_iff]

theorem execEvPowerLoss_wf {s : State} (hs : s.Wf) : NextWf (execEvPowerLoss s) := NextWf.next_iff.mpr (State.powerLoss_wf hs)

theorem execEvUalinkPortTrained_wf {port} {s : State} (hs : s.Wf) : NextWf (execEvUalinkPortTrained port s) := by
  unfold execEvUalinkPortTrained
  grind [State.wf_of_memories, NextWf.next_iff]

theorem execEvFunctionBringUp_wf {what} {s : State} (hs : s.Wf) : NextWf (execEvFunctionBringUp what s) :=
  NextWf.next_iff.mpr (State.bringUp_wf hs)

theorem execEvInFieldScanTest_wf {cluster pass} {s : State} (hs : s.Wf) : NextWf (execEvInFieldScanTest cluster pass s) :=
  NextWf.next_iff.mpr (State.scanTest_wf hs)

/-! ### Effects -/

theorem State.handleSlot_wf {s : State} {h} (hs : s.Wf) : Yields Act.Wf (fun _ => True) (s.handleSlot h) := by
  unfold State.handleSlot
  grind [trapOf_wf, Yields.ok_iff, Yields.error_iff, Act.Wf]

theorem State.putReg_wf {s : State} {s0 : State} {d v} (hs : s.Wf) (hs1 : s0.Wf) : Yields Act.Wf State.Wf (s.putReg s0 d v) := by
  unfold State.putReg
  grind [!← State.writeReg_wf, Yields.ok_iff, Yields.error_iff, Act.Wf]

theorem actEfcap_wf {g d a} {s : State} (hs : s.Wf) : (actEfcap g d a s).Wf := by
  unfold actEfcap
  grind [State.memBegin_wf, !← State.putReg_wf, State.updLists_wf, Yields.ok_iff, Yields.error_iff, Act.Wf]

theorem actEcat_wf {g d a b} {s : State} (hs : s.Wf) : (actEcat g d a b s).Wf := by
  refine State.memBegin_wf hs fun vs => (State.handleSlot_wf hs).bind fun _ _ => (State.handleSlot_wf hs).bind fun _ _ => ?_
  refine (State.arenaAll_wf hs).bind fun ⟨es, s1⟩ h1 => ?_
  dsimp only
  refine Yields.ite (State.putReg_wf h1 hs) ?_
  split
  · exact hs
  · exact (State.arenaAppend_wf h1).bind fun s2 h2 => State.putReg_wf (State.updLists_wf h2) hs

theorem State.putBe_wf {s : State} {e be} (hs : s.Wf) : Yields Act.Wf State.Wf (s.putBe e be) := by
  unfold State.putBe
  grind [!← State.arenaPut_wf, Yields.ok_iff, Yields.error_iff, Act.Wf]

theorem State.putBes_wf {s : State} {f es} (hs : s.Wf) : Yields Act.Wf State.Wf (s.putBes f es) := by
  induction es generalizing s with
  | nil => exact hs
  | cons e es ih => exact (State.putBe_wf hs).bind fun _ h1 => ih h1

theorem actEflt_wf {g d a b c out} {s : State} (hs : s.Wf) : (actEflt g d a b c out s).Wf := by
  refine State.memBegin_wf hs fun vs => (State.handleSlot_wf hs).bind fun h _ => ?_
  cases h with
  | none => exact State.putReg_wf hs hs
  | some n =>
    exact (State.arenaAll_wf hs).bind fun ⟨es, s1⟩ h1 => (State.putBes_wf h1).bind fun s2 h2 =>
      State.putReg_wf (State.updLists_wf h2) hs

theorem State.moveLines_wf {s : State} {lo hi delta es} (hs : s.Wf) : Yields Act.Wf State.Wf (s.moveLines lo hi delta es) := by
  induction es generalizing s with
  | nil => exact hs
  | cons e es ih =>
    unfold State.moveLines
    split
    · exact (State.arenaPut_wf hs).bind fun _ h1 => ih h1
    · exact ih hs

theorem State.arenaReady_wf {s : State} {os} (hs : s.Wf) : Yields Act.Wf State.Wf (s.arenaReady os) := by
  induction os generalizing s with
  | nil => exact hs
  | cons o os ih => exact (State.arenaLoc_wf hs).bind fun ⟨_, _⟩ h1 => ih h1

theorem State.whole_wf {s : State} {r} (hs : s.Wf) (hs1 : Yields Act.Wf State.Wf r) : Yields Act.Wf State.Wf (s.whole r) := by
  unfold State.whole
  grind [Yields.ok_iff, Yields.error_iff, Act.Wf]

theorem actEreb_wf {g d a b c} {s : State} (hs : s.Wf) : (actEreb g d a b c s).Wf := by
  refine State.memBegin_wf hs fun vs => (State.handleSlot_wf hs).bind fun h _ => Yields.ite hs ?_
  cases h with
  | none => exact hs
  | some n =>
    exact (State.arenaAll_wf hs).bind fun ⟨es, s1⟩ h1 => (State.arenaReady_wf h1).bind fun s2 h2 =>
      State.whole_wf h2 (State.moveLines_wf h2)

theorem actEdrp_wf {g a} {s : State} (hs : s.Wf) : (actEdrp g a s).Wf := by
  refine State.memBegin_wf hs fun vs => (State.handleSlot_wf hs).bind fun h _ => ?_
  cases h with
  | none => exact hs
  | some n =>
    exact (State.arenaAll_wf hs).bind fun ⟨es, s1⟩ h1 => (State.putBes_wf h1).bind fun s2 h2 => State.updLists_wf h2

theorem actEcnt_wf {g d a} {s : State} (hs : s.Wf) : (actEcnt g d a s).Wf := by
  unfold actEcnt
  simp only [bind, Except.bind]
  grind [State.memBegin_wf, !← State.handleSlot_wf, !← State.putReg_wf, !← State.arenaAll_wf, Yields.ok_iff, Yields.error_iff, Act.Wf]

theorem actEcntArena_wf {g d} {s : State} (hs : s.Wf) : (actEcntArena g d s).Wf := by
  unfold actEcntArena
  grind [State.memBegin_wf, !← State.putReg_wf]

theorem State.applyEntries_wf {s : State} {l} (hs : s.Wf) : Yields Act.Wf State.Wf (s.applyEntries l) := by
  induction l generalizing s with
  | nil => exact hs
  | cons x rest ih =>
    obtain ⟨e, el, sp⟩ := x
    unfold State.applyEntries
    dsimp only
    split
    · exact (State.tileRun_wf hs).bind fun _ h1 => ih h1
    · exact (State.race_wf hs).bind fun _ h1 => (State.writeLoc_wf h1).bind fun _ h2 => ih h2

theorem State.applyList_wf {s : State} {l} (hs : s.Wf) : Yields Act.Wf State.Wf (s.applyList l) := by
  unfold State.applyList
  simp only [bind, Except.bind]
  grind [!← State.eltsPlace_wf, !← State.eltsRemote_wf, !← State.storeReady_wf, !← State.applyEntries_wf, Yields.ok_iff,
    Yields.error_iff, Act.Wf]

theorem actEapl_wf {g a} {s : State} (hs : s.Wf) : (actEapl g a s).Wf := by
  unfold actEapl
  simp only [bind, Except.bind]
  grind [State.memBegin_wf, !← State.handleSlot_wf, !← State.arenaAll_wf, !← State.arenaAppend_wf, !← State.applyList_wf, Yields.ok_iff,
    Yields.error_iff, Act.Wf]

theorem actEaplRel_wf {g a sc tier} {s : State} (hs : s.Wf) : (actEaplRel g a sc tier s).Wf := by
  refine State.memBegin_wf hs fun vs => Yields.ite hs ((State.handleSlot_wf hs).bind fun _ _ => ?_)
  exact (State.arenaAll_wf hs).bind fun ⟨_, _⟩ h1 => (State.releaseGate_wf h1).bind fun _ _ =>
    (State.applyList_wf h1).bind fun _ h2 => State.fenceRelease_wf h2

/-! ### Firmware -/

theorem actSlotchk_wf {g d a b} {s : State} (hs : s.Wf) : (actSlotchk g d a b s).Wf := by
  refine State.privBegin_wf hs fun vs => ?_
  dsimp only
  split
  · next e => exact State.wf_of_memories ((State.checkAt_wf hs).ok e)
  · next e => exact (State.checkAt_wf hs).error e
  · next e => exact (State.checkAt_wf hs).error e

theorem actReloc_wf {g d a b} {s : State} (hs : s.Wf) : (actReloc g d a b s).Wf := by
  refine State.privBegin_wf hs fun vs => ?_
  dsimp only
  grind [!← State.checkAt_wf, State.addKernel_wf, State.updQueue_wf, Priv.Wf, Yields.ok_iff, Yields.error_iff]

theorem actQpop_wf {g d b a} {s : State} (hs : s.Wf) : (actQpop g d b a s).Wf := by
  unfold actQpop
  grind [State.begin_wf, !← State.writeReg_wf, State.retire_wf, Yields.ok_iff, Yields.error_iff, Act.Wf]

theorem actQack_wf {g d a b} {s : State} (hs : s.Wf) : (actQack g d a b s).Wf := by
  unfold actQack
  grind [State.privBegin_wf, State.updQueue_wf, Priv.Wf]

theorem actQref_wf {g d a drop} {s : State} (hs : s.Wf) : (actQref g d a drop s).Wf := by
  unfold actQref
  grind [State.privBegin_wf, Priv.Wf]

theorem State.polInputs_wf {s : State} {y n} (hs : s.Wf) : Yields Act.Wf (fun r => r.2.Wf) (s.polInputs y n) := by
  induction n generalizing s y with
  | zero => exact hs
  | succ n ih =>
    refine (State.stationLoc_wf hs).bind fun r _ => ?_
    cases r with
    | inl o => exact hs
    | inr pa => exact (State.readLoc_wf hs).bind fun ⟨_, _⟩ h1 => (ih h1).bind fun ⟨_, _⟩ h2 => h2

theorem actPolrun_wf {g d a b} {s : State} (hs : s.Wf) : (actPolrun g d a b s).Wf := by
  unfold actPolrun
  grind [State.begin_wf, State.retire_wf, !← State.polInputs_wf, !← State.polRun_wf, Yields.ok_iff, Yields.error_iff, Act.Wf]

theorem State.keyOperand_wf {s : State} {xa k} (hs : s.Wf) (hk : ∀ p q, (k p q).Wf) : (s.keyOperand xa k).Wf := by
  unfold State.keyOperand
  grind [Priv.Wf]

theorem actLkeyOwn_wf {g d a} {s : State} (hs : s.Wf) : (actLkeyOwn g d a s).Wf := by
  unfold actLkeyOwn
  grind [State.privBegin_wf, State.keyOperand_wf, State.updPart_wf, Priv.Wf]

theorem actLkeyAcc_wf {g d a} {s : State} (hs : s.Wf) : (actLkeyAcc g d a s).Wf := by
  unfold actLkeyAcc
  grind [State.privBegin_wf, State.keyOperand_wf, State.updPart_wf, Priv.Wf]

theorem actLrevk_wf {g d a} {s : State} (hs : s.Wf) : (actLrevk g d a s).Wf := by
  unfold actLrevk
  grind [State.privBegin_wf, State.keyOperand_wf, State.updPart_wf, Priv.Wf]

/-! ### Scalar -/

theorem actAdd_wf {g d a b} {s : State} (hs : s.Wf) : (actAdd g d a b s).Wf := op2_wf hs

theorem actSub_wf {g d a b} {s : State} (hs : s.Wf) : (actSub g d a b s).Wf := op2_wf hs

theorem actAndR_wf {g d a b} {s : State} (hs : s.Wf) : (actAndR g d a b s).Wf := op2_wf hs

theorem actOrR_wf {g d a b} {s : State} (hs : s.Wf) : (actOrR g d a b s).Wf := op2_wf hs

theorem actXorR_wf {g d a b} {s : State} (hs : s.Wf) : (actXorR g d a b s).Wf := op2_wf hs

theorem actLogt_wf {g d a b c tt} {s : State} (hs : s.Wf) : (actLogt g d a b c tt s).Wf := op3_wf hs

theorem actShl_wf {g d a b} {s : State} (hs : s.Wf) : (actShl g d a b s).Wf := op2_wf hs

theorem actShr_wf {g d a b} {s : State} (hs : s.Wf) : (actShr g d a b s).Wf := op2_wf hs

theorem actSra_wf {g d a b} {s : State} (hs : s.Wf) : (actSra g d a b s).Wf := op2_wf hs

theorem actRol_wf {g d a b} {s : State} (hs : s.Wf) : (actRol g d a b s).Wf := op2_wf hs

theorem actMinS_wf {g d a b} {s : State} (hs : s.Wf) : (actMinS g d a b s).Wf := op2_wf hs

theorem actMaxS_wf {g d a b} {s : State} (hs : s.Wf) : (actMaxS g d a b s).Wf := op2_wf hs

theorem actMinu_wf {g d a b} {s : State} (hs : s.Wf) : (actMinu g d a b s).Wf := op2_wf hs

theorem actMaxu_wf {g d a b} {s : State} (hs : s.Wf) : (actMaxu g d a b s).Wf := op2_wf hs

theorem actSel_wf {g d a b n} {s : State} (hs : s.Wf) : (actSel g d a b n s).Wf := op2_wf hs

theorem actAbs_wf {g d a} {s : State} (hs : s.Wf) : (actAbs g d a s).Wf := op1_wf hs

theorem actAddi_wf {g d a imm} {s : State} (hs : s.Wf) : (actAddi g d a imm s).Wf := op1_wf hs

theorem actAndi_wf {g d a imm} {s : State} (hs : s.Wf) : (actAndi g d a imm s).Wf := op1_wf hs

theorem actOri_wf {g d a imm} {s : State} (hs : s.Wf) : (actOri g d a imm s).Wf := op1_wf hs

theorem actXori_wf {g d a imm} {s : State} (hs : s.Wf) : (actXori g d a imm s).Wf := op1_wf hs

theorem actShli_wf {g d a n} {s : State} (hs : s.Wf) : (actShli g d a n s).Wf := op1_wf hs

theorem actShri_wf {g d a n} {s : State} (hs : s.Wf) : (actShri g d a n s).Wf := op1_wf hs

theorem actSrai_wf {g d a n} {s : State} (hs : s.Wf) : (actSrai g d a n s).Wf := op1_wf hs

theorem actLi_wf {g d imm} {s : State} (hs : s.Wf) : (actLi g d imm s).Wf := by
  unfold actLi
  grind [State.begin_wf, State.retire_wf]

theorem actMul_wf {g d a b} {s : State} (hs : s.Wf) : (actMul g d a b s).Wf := op2_wf hs

theorem actMulh_wf {g d a b} {s : State} (hs : s.Wf) : (actMulh g d a b s).Wf := op2_wf hs

theorem actMulhu_wf {g d a b} {s : State} (hs : s.Wf) : (actMulhu g d a b s).Wf := op2_wf hs

theorem actMadd_wf {g d a b c} {s : State} (hs : s.Wf) : (actMadd g d a b c s).Wf := op3_wf hs

theorem actDiv_wf {g d a b} {s : State} (hs : s.Wf) : (actDiv g d a b s).Wf := op2_wf hs

theorem actDivu_wf {g d a b} {s : State} (hs : s.Wf) : (actDivu g d a b s).Wf := op2_wf hs

theorem actRem_wf {g d a b} {s : State} (hs : s.Wf) : (actRem g d a b s).Wf := op2_wf hs

theorem actRemu_wf {g d a b} {s : State} (hs : s.Wf) : (actRemu g d a b s).Wf := op2_wf hs

theorem actClz_wf {g d a} {s : State} (hs : s.Wf) : (actClz g d a s).Wf := op1_wf hs

theorem actCtz_wf {g d a} {s : State} (hs : s.Wf) : (actCtz g d a s).Wf := op1_wf hs

theorem actPopc_wf {g d a} {s : State} (hs : s.Wf) : (actPopc g d a s).Wf := op1_wf hs

theorem actBrev_wf {g d a} {s : State} (hs : s.Wf) : (actBrev g d a s).Wf := op1_wf hs

theorem actBfx_wf {g d a pos len} {s : State} (hs : s.Wf) : (actBfx g d a pos len s).Wf := op1_wf hs

theorem actBfxu_wf {g d a pos len} {s : State} (hs : s.Wf) : (actBfxu g d a pos len s).Wf := op1_wf hs

theorem actBfi_wf {g d a b pos len} {s : State} (hs : s.Wf) : (actBfi g d a b pos len s).Wf := op2_wf hs

theorem actSext_wf {g d a k} {s : State} (hs : s.Wf) : (actSext g d a k s).Wf := op1_wf hs

theorem actCmp_wf {g pd a b cc} {s : State} (hs : s.Wf) : (actCmp g pd a b cc s).Wf := State.begin_wf hs fun _ _ h => State.setHart_wf h

theorem actCmpi_wf {g cc pd a imm} {s : State} (hs : s.Wf) : (actCmpi g cc pd a imm s).Wf := State.begin_wf hs fun _ _ h => State.setHart_wf h

theorem actPlog_wf {g pd pa pb tt} {s : State} (hs : s.Wf) : (actPlog g pd pa pb tt s).Wf := State.begin_wf hs fun _ _ h => State.setHart_wf h

theorem actPmovGet_wf {g d} {s : State} (hs : s.Wf) : (actPmovGet g d s).Wf := by
  unfold actPmovGet
  grind [State.begin_wf, State.retire_wf]

theorem actPmovPut_wf {g a} {s : State} (hs : s.Wf) : (actPmovPut g a s).Wf := State.begin_wf hs fun _ _ h => State.setHart_wf h

theorem actLea_wf {g d a b sh} {s : State} (hs : s.Wf) : (actLea g d a b sh s).Wf := op2_wf hs

theorem actLeai_wf {g d a imm} {s : State} (hs : s.Wf) : (actLeai g d a imm s).Wf := op1_wf hs

theorem actLil_wf {g d imm} {s : State} (hs : s.Wf) : (actLil g d imm s).Wf := by
  unfold actLil
  grind [State.begin_wf, State.retire_wf]

/-! ### Rpt -/

theorem governedAct_wf {i k} {s : State} (hs : s.Wf) : (governedAct i k s).Wf := by
  cases i with
  | add g d a b => exact actAdd_wf hs
  | sub g d a b => exact actSub_wf hs
  | andR g d a b => exact actAndR_wf hs
  | orR g d a b => exact actOrR_wf hs
  | xorR g d a b => exact actXorR_wf hs
  | logt g d a b c tt => exact actLogt_wf hs
  | shl g d a b => exact actShl_wf hs
  | shr g d a b => exact actShr_wf hs
  | sra g d a b => exact actSra_wf hs
  | rol g d a b => exact actRol_wf hs
  | minS g d a b => exact actMinS_wf hs
  | maxS g d a b => exact actMaxS_wf hs
  | minu g d a b => exact actMinu_wf hs
  | maxu g d a b => exact actMaxu_wf hs
  | sel g d a b n => exact actSel_wf hs
  | abs g d a => exact actAbs_wf hs
  | addi g d a imm => exact actAddi_wf hs
  | andi g d a imm => exact actAndi_wf hs
  | ori g d a imm => exact actOri_wf hs
  | xori g d a imm => exact actXori_wf hs
  | shli g d a n => exact actShli_wf hs
  | shri g d a n => exact actShri_wf hs
  | srai g d a n => exact actSrai_wf hs
  | li g d imm => exact actLi_wf hs
  | mul g d a b => exact actMul_wf hs
  | mulh g d a b => exact actMulh_wf hs
  | mulhu g d a b => exact actMulhu_wf hs
  | madd g d a b c => exact actMadd_wf hs
  | div g d a b => exact actDiv_wf hs
  | divu g d a b => exact actDivu_wf hs
  | rem g d a b => exact actRem_wf hs
  | remu g d a b => exact actRemu_wf hs
  | clz g d a => exact actClz_wf hs
  | ctz g d a => exact actCtz_wf hs
  | popc g d a => exact actPopc_wf hs
  | brev g d a => exact actBrev_wf hs
  | bfx g d a pos len => exact actBfx_wf hs
  | bfxu g d a pos len => exact actBfxu_wf hs
  | bfi g d a b pos len => exact actBfi_wf hs
  | sext g d a k => exact actSext_wf hs
  | cmp g pd a b cc => exact actCmp_wf hs
  | plog g pd pa pb tt => exact actPlog_wf hs
  | pmovGet g d => exact actPmovGet_wf hs
  | pmovPut g a => exact actPmovPut_wf hs
  | cmpi g cc pd a imm => exact actCmpi_wf hs
  | lea g d a b sh => exact actLea_wf hs
  | leai g d a imm => exact actLeai_wf hs
  | dqput g a q => exact actDqput_wf hs
  | dqget g d q => exact actDqget_wf hs
  | dqcls g q => exact actDqcls_wf hs
  | bqput g n inv => exact actBqput_wf hs
  | ld g sx tile cls sz sc d a off => exact actLdAt_wf hs
  | st g tile cls sz sc d a off => exact actStAt_wf hs
  | atom g op big ord sc tier d a b => exact actAtom_wf hs
  | fence g kind sc tier => exact actFence_wf hs
  | xfence g pfrom pto => exact actXfence_wf hs
  | vadd ty vd va vb amod bmod m rm => exact actVadd_wf hs
  | vsub ty vd va vb amod bmod m rm => exact actVsub_wf hs
  | vmul ty vd va vb amod bmod m rm => exact actVmul_wf hs
  | vfma ty vd va vb vc amod bmod m rm => exact actVfma_wf hs
  | vfms ty vd va vb vc amod bmod m rm => exact actVfms_wf hs
  | vmin ty vd va vb amod bmod m => exact actVmin_wf hs
  | vmax ty vd va vb amod bmod m => exact actVmax_wf hs
  | vabs ty vd va amod m => exact actVabs_wf hs
  | vneg ty vd va amod m => exact actVneg_wf hs
  | viadd w mode vd va vb amod bmod m => exact actViadd_wf hs
  | visub w mode vd va vb amod bmod m => exact actVisub_wf hs
  | vimul w mode vd va vb amod bmod m => exact actVimul_wf hs
  | vimad w vd va vb vc amod bmod m => exact actVimad_wf hs
  | vshl w vd va vb amod bmod m => exact actVshl_wf hs
  | vshr w vd va vb amod bmod m => exact actVshr_wf hs
  | vsra w vd va vb amod bmod m => exact actVsra_wf hs
  | vlogt vd va vb vc tt m => exact actVlogt_wf hs
  | vimin w uns vd va vb amod bmod m => exact actVimin_wf hs
  | vimax w uns vd va vb amod bmod m => exact actVimax_wf hs
  | vcmp ty cc md va vb m => exact actVcmp_wf hs
  | vsel vd va vb m => exact actVsel_wf hs
  | vmsk md ma mb tt m => exact actVmsk_wf hs
  | vrcp vd va m => exact actVrcp_wf hs
  | vrsq vd va m => exact actVrsq_wf hs
  | vrcpr vd va vb m rm => exact actVrcpr_wf hs
  | vrsqr vd va vb m rm => exact actVrsqr_wf hs
  | vexp2 vd va m => exact actVexp2_wf hs
  | vlog2 vd va m => exact actVlog2_wf hs
  | vtanh vd va m => exact actVtanh_wf hs
  | vcvt src dst inf vd va amod m rm => exact actVcvt_wf hs
  | vpack w vd va vb m => exact actVpack_wf hs
  | vunpk w sx vd va part m => exact actVunpk_wf hs
  | vrotr vd va k m => exact actVrotr_wf hs
  | vbcr vd va k m => exact actVbcr_wf hs
  | vredr op vd va m rm => exact actVredr_wf hs
  | vscnr op vd va m rm => exact actVscnr_wf hs
  | vrotc vd va k m => exact actVrotc_wf hs
  | vbcc vd va k m => exact actVbcc_wf hs
  | vredc op vd va m rm => exact actVredc_wf hs
  | vscnc op vd va m rm => exact actVscnc_wf hs
  | vperm vd va vb m => exact actVperm_wf hs
  | vmov vd va amod m => exact actVmov_wf hs
  | vmovs vd n m => exact actVmovs_wf hs
  | vmovx n va sx m => exact actVmovx_wf (n := n) (va := va) (sx := sx) (m := m) hs
  | zwr z va q m => exact actZwr_wf hs
  | zrd src dst inf vd z q m rm => exact actZrd_wf hs
  | zclr z => exact actZclr_wf hs
  | defer va b m => exact actDefer_wf hs
  | drain vd b m => exact actDrain_wf hs
  | dfcnt n b => exact actDfcnt_wf hs
  | vld g vd a b m weak => exact actVld_wf hs
  | vst g vd a b m weak => exact actVst_wf hs
  | vgath g vd a vb m weak => exact actVgath_wf hs
  | vscat g vd a vb m weak => exact actVscat_wf hs
  | qst g k vd a m => exact actQst_wf hs
  | qld g k vd a m => exact actQld_wf hs
  | lvld g k tb a => exact actLvld_wf hs
  | qcfg g d a => exact actQcfg_wf hs
  | tdef g d t a => exact actTdef_wf hs
  | tset g d t ts => exact actTset_wf hs
  | trel g t => exact actTrel_wf hs
  | bankcfg g d b mode => exact actBankcfg_wf hs
  | fset g n tg => exact actFset_wf hs
  | fwait g n tg => exact actFwait_wf hs
  | fclr g n tg => exact actFclr_wf hs
  | lnt g a b lv => exact actLnt_wf hs
  | mopa g a b => exact actMopa_wf hs
  | mopb g a b => exact actMopb_wf hs
  | mopc g a => exact actMopc_wf hs
  | idxv g a => exact actIdxv_wf hs
  | mgo g nlev => exact actMgo_wf hs
  | mwait g n => exact actMwait_wf hs
  | mstat g d => exact actMstat_wf hs
  | mstatClr g d => exact actMstatClr_wf hs
  | abal g d n => exact actAbal_wf hs
  | abfr g a n => exact actAbfr_wf hs
  | ainit g a b n pr => exact actAinit_wf hs
  | anrm g a n pr => exact actAnrm_wf hs
  | ard g fmt vd a m => exact actArd_wf hs
  | awr g fmt vd a m => exact actAwr_wf hs
  | efcap g d a => exact actEfcap_wf hs
  | ecat g d a b => exact actEcat_wf hs
  | eflt g d a b c out => exact actEflt_wf hs
  | ereb g d a b c => exact actEreb_wf hs
  | eapl g a => exact actEapl_wf hs
  | eaplRel g a sc tier => exact actEaplRel_wf hs
  | edrp g a => exact actEdrp_wf hs
  | ecnt g d a => exact actEcnt_wf hs
  | ecntArena g d => exact actEcntArena_wf hs
  | ssync g d => exact actSsync_wf hs
  | bara g d n sm i => exact actBara_wf hs
  | barw g a n i => exact actBarw_wf hs
  | baraw g n sm i => exact actBaraw_wf hs
  | xplan g a => exact actXplan_wf hs
  | grank g d n => exact actGrank_wf hs
  | gsize g d n => exact actGsize_wf hs
  | gsizeShr g d a n => exact actGsizeShr_wf hs
  | gnbrNext g d n => exact actGnbrNext_wf hs
  | gnbrPrev g d n => exact actGnbrPrev_wf hs
  | gnbrXor g d n j => exact actGnbrXor_wf hs
  | coll g kind op ty d a b n => exact actColl_wf hs
  | collw g n => exact actCollw_wf hs
  | launch g d a b => exact actLaunch_wf hs
  | _ => exact illop_wf hs

theorem State.rptDone_wf {s : State} (hs : s.Wf) : (s.rptDone).Wf := State.setPc_wf (State.setHart_wf hs)

theorem State.rptNext_wf {s : State} {i n} (hs : s.Wf) : (s.rptNext i n).Wf := State.wf_ite (State.setHart_wf hs) (State.rptDone_wf hs)

theorem State.rptRun_wf {s : State} {gov sd sa sb sc} (hs : s.Wf) : (s.rptRun gov sd sa sb sc).Wf := by
  unfold State.rptRun
  grind [State.rptDone_wf, trapOf_wf, illop_wf, governedAct_wf, State.rptNext_wf, Yields.ok_iff, Yields.error_iff, Act.Wf]

theorem actRpt_wf {g a sd sa sb sc} {s : State} (hs : s.Wf) : (actRpt g a sd sa sb sc s).Wf := by
  unfold actRpt
  grind [illop_wf, State.rptRun_wf, State.setHart_wf, State.begin_wf, State.setStat_wf, Yields.ok_iff, Yields.error_iff, Act.Wf]

/-! ### Dispatch -/

theorem exec_wf {i} {s : State} (hs : s.Wf) : NextWf (exec i s) := by
  cases i with
  | add g d a b => exact finish_wf (actAdd_wf hs)
  | sub g d a b => exact finish_wf (actSub_wf hs)
  | andR g d a b => exact finish_wf (actAndR_wf hs)
  | orR g d a b => exact finish_wf (actOrR_wf hs)
  | xorR g d a b => exact finish_wf (actXorR_wf hs)
  | logt g d a b c tt => exact finish_wf (actLogt_wf hs)
  | shl g d a b => exact finish_wf (actShl_wf hs)
  | shr g d a b => exact finish_wf (actShr_wf hs)
  | sra g d a b => exact finish_wf (actSra_wf hs)
  | rol g d a b => exact finish_wf (actRol_wf hs)
  | minS g d a b => exact finish_wf (actMinS_wf hs)
  | maxS g d a b => exact finish_wf (actMaxS_wf hs)
  | minu g d a b => exact finish_wf (actMinu_wf hs)
  | maxu g d a b => exact finish_wf (actMaxu_wf hs)
  | sel g d a b n => exact finish_wf (actSel_wf hs)
  | abs g d a => exact finish_wf (actAbs_wf hs)
  | addi g d a imm => exact finish_wf (actAddi_wf hs)
  | andi g d a imm => exact finish_wf (actAndi_wf hs)
  | ori g d a imm => exact finish_wf (actOri_wf hs)
  | xori g d a imm => exact finish_wf (actXori_wf hs)
  | shli g d a n => exact finish_wf (actShli_wf hs)
  | shri g d a n => exact finish_wf (actShri_wf hs)
  | srai g d a n => exact finish_wf (actSrai_wf hs)
  | li g d imm => exact finish_wf (actLi_wf hs)
  | mul g d a b => exact finish_wf (actMul_wf hs)
  | mulh g d a b => exact finish_wf (actMulh_wf hs)
  | mulhu g d a b => exact finish_wf (actMulhu_wf hs)
  | madd g d a b c => exact finish_wf (actMadd_wf hs)
  | div g d a b => exact finish_wf (actDiv_wf hs)
  | divu g d a b => exact finish_wf (actDivu_wf hs)
  | rem g d a b => exact finish_wf (actRem_wf hs)
  | remu g d a b => exact finish_wf (actRemu_wf hs)
  | clz g d a => exact finish_wf (actClz_wf hs)
  | ctz g d a => exact finish_wf (actCtz_wf hs)
  | popc g d a => exact finish_wf (actPopc_wf hs)
  | brev g d a => exact finish_wf (actBrev_wf hs)
  | bfx g d a pos len => exact finish_wf (actBfx_wf hs)
  | bfxu g d a pos len => exact finish_wf (actBfxu_wf hs)
  | bfi g d a b pos len => exact finish_wf (actBfi_wf hs)
  | sext g d a k => exact finish_wf (actSext_wf hs)
  | cmp g pd a b cc => exact finish_wf (actCmp_wf hs)
  | plog g pd pa pb tt => exact finish_wf (actPlog_wf hs)
  | pmovGet g d => exact finish_wf (actPmovGet_wf hs)
  | pmovPut g a => exact finish_wf (actPmovPut_wf hs)
  | cmpi g cc pd a imm => exact finish_wf (actCmpi_wf hs)
  | lea g d a b sh => exact finish_wf (actLea_wf hs)
  | leai g d a imm => exact finish_wf (actLeai_wf hs)
  | lil g d imm => exact finish_wf (actLil_wf hs)
  | jmpl g imm => exact finish_wf (actJmpl_wf hs)
  | br g disp => exact finish_wf (actBr_wf hs)
  | call g disp => exact finish_wf (actCall_wf hs)
  | callc g disp => exact finish_wf (actCallc_wf hs)
  | jmpr g a => exact finish_wf (actJmpr_wf hs)
  | callr g a => exact finish_wf (actCallr_wf hs)
  | callcr g a => exact finish_wf (actCallcr_wf hs)
  | ret g a => exact finish_wf (actRet_wf hs)
  | retc g a => exact finish_wf (actRetc_wf hs)
  | fork g ax am ac => exact finish_wf (actFork_wf hs)
  | rdv g => exact finish_wf (actRdv_wf hs)
  | rpt g a sd sa sb sc => exact finish_wf (actRpt_wf hs)
  | halt g => exact finish_wf (actHalt_wf hs)
  | yield g => exact finish_wf (actYield_wf hs)
  | dqput g a q => exact finish_wf (actDqput_wf hs)
  | dqget g d q => exact finish_wf (actDqget_wf hs)
  | dqcls g q => exact finish_wf (actDqcls_wf hs)
  | bqput g n inv => exact finish_wf (actBqput_wf hs)
  | bqbr g disp => exact finish_wf (actBqbr_wf hs)
  | ld g sx tile cls sz sc d a off => exact finish_wf (actLd_wf hs)
  | st g tile cls sz sc d a off => exact finish_wf (actSt_wf hs)
  | atom g op big ord sc tier d a b => exact finish_wf (actAtom_wf hs)
  | fence g kind sc tier => exact finish_wf (actFence_wf hs)
  | xfence g pfrom pto => exact finish_wf (actXfence_wf hs)
  | trap g n => exact finish_wf (actTrap_wf hs)
  | tret g => exact finish_wf (actTret_wf hs)
  | tretSkip g => exact finish_wf (actTretSkip_wf hs)
  | sysc g n => exact finish_wf (actSysc_wf hs)
  | cwrd g d w => exact finish_wf (actCwrd_wf hs)
  | cwwr g w a => exact finish_wf (actCwwr_wf hs)
  | nop g => exact finish_wf (actNop_wf (_g := g) hs)
  | vadd ty vd va vb amod bmod m rm => exact finish_wf (actVadd_wf hs)
  | vsub ty vd va vb amod bmod m rm => exact finish_wf (actVsub_wf hs)
  | vmul ty vd va vb amod bmod m rm => exact finish_wf (actVmul_wf hs)
  | vfma ty vd va vb vc amod bmod m rm => exact finish_wf (actVfma_wf hs)
  | vfms ty vd va vb vc amod bmod m rm => exact finish_wf (actVfms_wf hs)
  | vmin ty vd va vb amod bmod m => exact finish_wf (actVmin_wf hs)
  | vmax ty vd va vb amod bmod m => exact finish_wf (actVmax_wf hs)
  | vabs ty vd va amod m => exact finish_wf (actVabs_wf hs)
  | vneg ty vd va amod m => exact finish_wf (actVneg_wf hs)
  | viadd w mode vd va vb amod bmod m => exact finish_wf (actViadd_wf hs)
  | visub w mode vd va vb amod bmod m => exact finish_wf (actVisub_wf hs)
  | vimul w mode vd va vb amod bmod m => exact finish_wf (actVimul_wf hs)
  | vimad w vd va vb vc amod bmod m => exact finish_wf (actVimad_wf hs)
  | vshl w vd va vb amod bmod m => exact finish_wf (actVshl_wf hs)
  | vshr w vd va vb amod bmod m => exact finish_wf (actVshr_wf hs)
  | vsra w vd va vb amod bmod m => exact finish_wf (actVsra_wf hs)
  | vlogt vd va vb vc tt m => exact finish_wf (actVlogt_wf hs)
  | vimin w uns vd va vb amod bmod m => exact finish_wf (actVimin_wf hs)
  | vimax w uns vd va vb amod bmod m => exact finish_wf (actVimax_wf hs)
  | vcmp ty cc md va vb m => exact finish_wf (actVcmp_wf hs)
  | vsel vd va vb m => exact finish_wf (actVsel_wf hs)
  | vmsk md ma mb tt m => exact finish_wf (actVmsk_wf hs)
  | vrcp vd va m => exact finish_wf (actVrcp_wf hs)
  | vrsq vd va m => exact finish_wf (actVrsq_wf hs)
  | vrcpr vd va vb m rm => exact finish_wf (actVrcpr_wf hs)
  | vrsqr vd va vb m rm => exact finish_wf (actVrsqr_wf hs)
  | vexp2 vd va m => exact finish_wf (actVexp2_wf hs)
  | vlog2 vd va m => exact finish_wf (actVlog2_wf hs)
  | vtanh vd va m => exact finish_wf (actVtanh_wf hs)
  | vcvt src dst inf vd va amod m rm => exact finish_wf (actVcvt_wf hs)
  | vpack w vd va vb m => exact finish_wf (actVpack_wf hs)
  | vunpk w sx vd va part m => exact finish_wf (actVunpk_wf hs)
  | vrotr vd va k m => exact finish_wf (actVrotr_wf hs)
  | vbcr vd va k m => exact finish_wf (actVbcr_wf hs)
  | vredr op vd va m rm => exact finish_wf (actVredr_wf hs)
  | vscnr op vd va m rm => exact finish_wf (actVscnr_wf hs)
  | vrotc vd va k m => exact finish_wf (actVrotc_wf hs)
  | vbcc vd va k m => exact finish_wf (actVbcc_wf hs)
  | vredc op vd va m rm => exact finish_wf (actVredc_wf hs)
  | vscnc op vd va m rm => exact finish_wf (actVscnc_wf hs)
  | vperm vd va vb m => exact finish_wf (actVperm_wf hs)
  | vmov vd va amod m => exact finish_wf (actVmov_wf hs)
  | vmovs vd n m => exact finish_wf (actVmovs_wf hs)
  | vmovx n va sx m => exact finish_wf (actVmovx_wf hs)
  | zwr z va q m => exact finish_wf (actZwr_wf hs)
  | zrd src dst inf vd z q m rm => exact finish_wf (actZrd_wf hs)
  | zclr z => exact finish_wf (actZclr_wf hs)
  | defer va b m => exact finish_wf (actDefer_wf hs)
  | drain vd b m => exact finish_wf (actDrain_wf hs)
  | dfcnt n b => exact finish_wf (actDfcnt_wf hs)
  | vld g vd a b m weak => exact finish_wf (actVld_wf hs)
  | vst g vd a b m weak => exact finish_wf (actVst_wf hs)
  | vgath g vd a vb m weak => exact finish_wf (actVgath_wf hs)
  | vscat g vd a vb m weak => exact finish_wf (actVscat_wf hs)
  | qst g k vd a m => exact finish_wf (actQst_wf hs)
  | qld g k vd a m => exact finish_wf (actQld_wf hs)
  | lvld g k tb a => exact finish_wf (actLvld_wf hs)
  | qcfg g d a => exact finish_wf (actQcfg_wf hs)
  | cpy a b sz step cnt => exact finish_wf (actCpy_wf hs)
  | cpys a b sz step cnt => exact finish_wf (actCpys_wf hs)
  | cpyg a b sz step cnt => exact finish_wf (actCpyg_wf hs)
  | cpyx a b sz step cnt => exact finish_wf (actCpyx_wf hs)
  | tdef g d t a => exact finish_wf (actTdef_wf hs)
  | tset g d t ts => exact finish_wf (actTset_wf hs)
  | trel g t => exact finish_wf (actTrel_wf hs)
  | bankcfg g d b mode => exact finish_wf (actBankcfg_wf hs)
  | fset g n tg => exact finish_wf (actFset_wf hs)
  | fwait g n tg => exact finish_wf (actFwait_wf hs)
  | fclr g n tg => exact finish_wf (actFclr_wf hs)
  | lnt g a b lv => exact finish_wf (actLnt_wf hs)
  | mopa g a b => exact finish_wf (actMopa_wf hs)
  | mopb g a b => exact finish_wf (actMopb_wf hs)
  | mopc g a => exact finish_wf (actMopc_wf hs)
  | idxv g a => exact finish_wf (actIdxv_wf hs)
  | mgo g nlev => exact finish_wf (actMgo_wf hs)
  | mwait g n => exact finish_wf (actMwait_wf hs)
  | mstat g d => exact finish_wf (actMstat_wf hs)
  | mstatClr g d => exact finish_wf (actMstatClr_wf hs)
  | abal g d n => exact finish_wf (actAbal_wf hs)
  | abfr g a n => exact finish_wf (actAbfr_wf hs)
  | ainit g a b n pr => exact finish_wf (actAinit_wf hs)
  | anrm g a n pr => exact finish_wf (actAnrm_wf hs)
  | ard g fmt vd a m => exact finish_wf (actArd_wf hs)
  | awr g fmt vd a m => exact finish_wf (actAwr_wf hs)
  | efcap g d a => exact finish_wf (actEfcap_wf hs)
  | ecat g d a b => exact finish_wf (actEcat_wf hs)
  | eflt g d a b c out => exact finish_wf (actEflt_wf hs)
  | ereb g d a b c => exact finish_wf (actEreb_wf hs)
  | eapl g a => exact finish_wf (actEapl_wf hs)
  | eaplRel g a sc tier => exact finish_wf (actEaplRel_wf hs)
  | edrp g a => exact finish_wf (actEdrp_wf hs)
  | ecnt g d a => exact finish_wf (actEcnt_wf hs)
  | ecntArena g d => exact finish_wf (actEcntArena_wf hs)
  | ssync g d => exact finish_wf (actSsync_wf hs)
  | bara g d n sm ix => exact finish_wf (actBara_wf hs)
  | barw g a n ix => exact finish_wf (actBarw_wf hs)
  | baraw g n sm ix => exact finish_wf (actBaraw_wf hs)
  | xplan g a => exact finish_wf (actXplan_wf hs)
  | grank g d n => exact finish_wf (actGrank_wf hs)
  | gsize g d n => exact finish_wf (actGsize_wf hs)
  | gsizeShr g d a n => exact finish_wf (actGsizeShr_wf hs)
  | gnbrNext g d n => exact finish_wf (actGnbrNext_wf hs)
  | gnbrPrev g d n => exact finish_wf (actGnbrPrev_wf hs)
  | gnbrXor g d n j => exact finish_wf (actGnbrXor_wf hs)
  | coll g kind op ty d a b n => exact finish_wf (actColl_wf hs)
  | collw g n => exact finish_wf (actCollw_wf hs)
  | launch g d a b => exact finish_wf (actLaunch_wf hs)
  | scoutStop g d a => exact finish_wf (actScoutStop_wf hs)
  | scoutShift g d a b => exact finish_wf (actScoutShift_wf hs)
  | scoutResume g d a => exact finish_wf (actScoutResume_wf hs)
  | scin g d a b => exact finish_wf (actScin_wf hs)
  | scver g d a => exact finish_wf (actScver_wf hs)
  | scverPart g d => exact finish_wf (actScverPart_wf hs)
  | ownsetCore g d a b => exact finish_wf (actOwnsetCore_wf hs)
  | ownsetBank g d a b => exact finish_wf (actOwnsetBank_wf hs)
  | ownsetAcm g d a b => exact finish_wf (actOwnsetAcm_wf hs)
  | preqClr g d a => exact finish_wf (actPreqClr_wf hs)
  | preqSet g d a => exact finish_wf (actPreqSet_wf hs)
  | cutb g d a => exact finish_wf (actCutb_wf hs)
  | idem g d a b => exact finish_wf (actIdem_wf hs)
  | tmarkQ g d a => exact finish_wf (actTmarkQ_wf hs)
  | tmarkF g d a => exact finish_wf (actTmarkF_wf hs)
  | tlbiPage g d a b => exact finish_wf (actTlbiPage_wf hs)
  | tlbiCtx g d a => exact finish_wf (actTlbiCtx_wf hs)
  | tlbiAll g d => exact finish_wf (actTlbiAll_wf hs)
  | tlbiPte g d b => exact finish_wf (actTlbiPte_wf hs)
  | pgret g d a => exact finish_wf (actPgret_wf hs)
  | pgretDrop g d a => exact finish_wf (actPgretDrop_wf hs)
  | wayq g d a => exact finish_wf (actWayq_wf hs)
  | injL2ce g d a => exact finish_wf (actInjL2ce_wf hs)
  | injL2ue g d a => exact finish_wf (actInjL2ue_wf hs)
  | injHbmue g d a => exact finish_wf (actInjHbmue_wf hs)
  | atsiQ g d a => exact finish_wf (actAtsiQ_wf hs)
  | atsiF g d a => exact finish_wf (actAtsiF_wf hs)
  | slotchk g d a b => exact finish_wf (actSlotchk_wf hs)
  | reloc g d a b => exact finish_wf (actReloc_wf hs)
  | qpop g d b a => exact finish_wf (actQpop_wf hs)
  | qack g d a b => exact finish_wf (actQack_wf hs)
  | polrun g d a b => exact finish_wf (actPolrun_wf hs)
  | lkeyOwn g d a => exact finish_wf (actLkeyOwn_wf hs)
  | lkeyAcc g d a => exact finish_wf (actLkeyAcc_wf hs)
  | lrevk g d a => exact finish_wf (actLrevk_wf hs)
  | qref g d a drop => exact finish_wf (actQref_wf hs)
  | evSqsub ctx q value => exact execEvSqsub_wf hs
  | evSqstatClearOvf ctx q value => exact execEvSqstatClearOvf_wf hs
  | evMboxDoorbell part => exact execEvMboxDoorbell_wf hs
  | evPlatEnable part k value => exact execEvPlatEnable_wf hs
  | evPlatDisable part k value => exact execEvPlatDisable_wf hs
  | evPkillGo part value => exact execEvPkillGo_wf hs
  | evRegisterWrite host off value => exact execEvRegisterWrite_wf hs
  | evFrontEndConsume part queue => exact execEvFrontEndConsume_wf hs
  | evKernelPlace kid cores => exact execEvKernelPlace_wf hs
  | evJobEnd core => exact execEvJobEnd_wf hs
  | evKernelRetire kid => exact execEvKernelRetire_wf hs
  | evStreamWaitEnd core st => exact execEvStreamWaitEnd_wf hs
  | evStreamYielded core st => exact execEvStreamYielded_wf hs
  | evLoadFill core st k => exact execEvLoadFill_wf hs
  | evShadowResume core st copy how => exact execEvShadowResume_wf hs
  | evWalkComplete die k => exact execEvWalkComplete_wf hs
  | evCopyIssue core => exact execEvCopyIssue_wf hs
  | evCopyComplete core seq n => exact execEvCopyComplete_wf hs
  | evFlagFire core t => exact execEvFlagFire_wf hs
  | evFlagClearAct core t => exact execEvFlagClearAct_wf hs
  | evFwaitMarkerIssue core t => exact execEvFwaitMarkerIssue_wf hs
  | evMgoIssue core => exact execEvMgoIssue_wf hs
  | evFoldEntry core => exact execEvFoldEntry_wf hs
  | evArrayResume core ok => exact execEvArrayResume_wf hs
  | evCollIssue core => exact execEvCollIssue_wf hs
  | evCollComplete core how => exact execEvCollComplete_wf hs
  | evCollwComplete core => exact execEvCollwComplete_wf hs
  | evSuperstepComplete kid => exact execEvSuperstepComplete_wf hs
  | evCommPhaseEnd kid n => exact execEvCommPhaseEnd_wf hs
  | evReplayWindowRetire core => exact execEvReplayWindowRetire_wf hs
  | evEngineUeReplay core line => exact execEvEngineUeReplay_wf hs
  | evBacksightMismatch core escalate => exact execEvBacksightMismatch_wf hs
  | evTerminationComplete ctx => exact execEvTerminationComplete_wf hs
  | evEventDispatch station => exact execEvEventDispatch_wf hs
  | evStationCoreReset station => exact execEvStationCoreReset_wf hs
  | evTimeSliceExpiry ctx => exact execEvTimeSliceExpiry_wf hs
  | evSchedulerWatchdog part => exact execEvSchedulerWatchdog_wf hs
  | evPowerOn => exact execEvPowerOn_wf hs
  | evBootImageOffer src code hash => exact execEvBootImageOffer_wf hs
  | evRemoteResponse tag data => exact execEvRemoteResponse_wf hs
  | evRemoteTimeout tag how => exact execEvRemoteTimeout_wf hs
  | evIncomingRequest key off op => exact execEvIncomingRequest_wf hs
  | evAtsResponse ctx k ha size r w => exact execEvAtsResponse_wf hs
  | evPriResponse ctx k ok => exact execEvPriResponse_wf hs
  | evPriTimeout ctx k ats => exact execEvPriTimeout_wf hs
  | evAtsInvalidation ctx va size => exact execEvAtsInvalidation_wf hs
  | evPackageIdAssign id => exact execEvPackageIdAssign_wf hs
  | evD2dFlitRetry port => exact execEvD2dFlitRetry_wf hs
  | evPortRetrainFail d2d port => exact execEvPortRetrainFail_wf hs
  | evHbmStackFail stack => exact execEvHbmStackFail_wf hs
  | evCoolantOverlimit => exact execEvCoolantOverlimit_wf hs
  | evPowerLoss => exact execEvPowerLoss_wf hs
  | evUalinkPortTrained port => exact execEvUalinkPortTrained_wf hs
  | evFunctionBringUp what => exact execEvFunctionBringUp_wf hs
  | evInFieldScanTest cluster pass => exact execEvInFieldScanTest_wf hs

/-! ### Step -/

theorem State.nextMove_wf {s : State} (hs : s.Wf) : (s.nextMove).2.Wf := by
  unfold State.nextMove
  grind [State.wf_of_memories]

theorem State.runAgent_wf {s : State} (hs : s.Wf) : NextWf s.runAgent := by
  have hl := State.lookUnit_wf hs
  unfold State.runAgent
  split
  · next e => exact finish_wf (hl.error e)
  · next s1 e =>
    have h1 : s1.Wf := hl.ok e
    split
    · exact NextWf.next_iff.mpr (State.take_wf h1)
    · exact exec_wf h1

theorem step_wf {s : State} (hs : s.Wf) : NextWf (step s) := by
  have hm : s.nextMove.2.Wf := State.nextMove_wf hs
  unfold step
  generalize s.nextMove = m at hm
  obtain ⟨mv, s1⟩ := m
  cases mv with
  | stream core st late =>
    exact NextWf.ite NextWf.fault (NextWf.ite (State.runAgent_wf (State.wf_of_memories hm)) (NextWf.next_iff.mpr hm))
  | station n =>
    exact NextWf.ite NextWf.fault (NextWf.ite (State.runAgent_wf (State.wf_of_memories hm)) (NextWf.next_iff.mpr hm))
  | evict line => exact NextWf.next_iff.mpr (State.evict_wf hm)
  | upset u => exact NextWf.next_iff.mpr (State.wf_ite (State.upset_wf hm) hm)
  | event e => exact NextWf.ite (exec_wf (State.wf_of_memories hm)) (NextWf.next_iff.mpr hm)

end Sys2Proof.Machine

namespace Sys2Proof.Proofs

open Machine

/-- Settles O54: no memory lists a byte after reset. -/
theorem resetWellFormed : Obligations.ResetWellFormed := State.reset_wf

/-- Settles O55: each move of a step keeps the memories' form. -/
theorem stepKeepsWellFormed : Obligations.StepKeepsWellFormed := fun _ t hs h => step_wf hs t h

end Sys2Proof.Proofs
end

section
/-! SUPPORT. CWRD and CWWR, and what a control word reads after it is written (R6, R65, R80, R91, R96 to R98, R103, R265). -/

namespace Sys2Proof.Machine

/-! ## The current stream after its registers or its other words are replaced -/

theorem State.me_stream {s : State} {core : Nat} {k : StreamId} (hc : s.cur = .stream core k) : s.me = s.strm core k := by
  simp [State.me, State.curCore, State.curSt, hc]

theorem State.me_updMe {s : State} {core : Nat} {k : StreamId} (hcore : core < 512) (hc : s.cur = .stream core k) (f : Stream → Stream) :
    (s.updMe f).me = f s.me := by
  have hu : (s.updMe f).cur = .stream core k := hc
  rw [State.me_stream hu, State.me_stream hc]
  simp [State.updMe, State.curCore, State.curSt, hc, State.strm_updStrm, hcore]

theorem State.hart_setHart_stream {s : State} {core : Nat} {k : StreamId} (hcore : core < 512) (hc : s.cur = .stream core k) (h : Hart) :
    (s.setHart h).hart = h :=
  State.hart_setHart s h (by rw [hc]; exact hcore)

theorem State.strm_updMe_ne {s : State} {core : Nat} {k j : StreamId} (hc : s.cur = .stream core k) (hj : j ≠ k) (f : Stream → Stream) :
    (s.updMe f).strm core j = s.strm core j := by
  simp [State.updMe, State.curCore, State.curSt, hc, State.strm_updStrm, hj]

theorem State.strm_setHart_ne {s : State} {core : Nat} {k j : StreamId} (hc : s.cur = .stream core k) (hj : j ≠ k) (h : Hart) :
    (s.setHart h).strm core j = s.strm core j := by
  simp [State.setHart, hc, State.strm_updStrm, hj]

/-! ## The bits that a write keeps -/

theorem and_lowMask60 (v : Word) : v &&& 0x0FFFFFFFFFFFFFFF = 0#4 ++ v.extractLsb' 0 60 := by
  apply BitVec.eq_of_toNat_eq
  rw [BitVec.toNat_and, BitVec.toNat_append, BitVec.extractLsb'_toNat]
  simpa using Nat.and_two_pow_sub_one_eq_mod v.toNat 60

/-- FPM's mode and flags at their places (R65). -/
theorem ofNat_mode_flags (r : BitVec 3) (f : BitVec 5) : BitVec.ofNat 64 (r.toNat * 256 + f.toNat) = 0#53 ++ r ++ 0#3 ++ f := by
  apply BitVec.eq_of_toNat_eq
  have hr := r.isLt
  have hf := f.isLt
  simp only [BitVec.toNat_append, BitVec.toNat_ofNat, Nat.zero_mod, Nat.zero_shiftLeft, Nat.zero_or, Nat.or_zero]
  rw [← Nat.shiftLeft_add_eq_or_of_lt hf, Nat.shiftLeft_eq, Nat.shiftLeft_eq]
  omega

theorem rndOf?_isSome : (c : Nat) → (rndOf? c).isSome = decide (1 ≤ c ∧ c ≤ 5)
  | 0 | 1 | 2 | 3 | 4 | 5 => rfl
  | n + 6 => (decide_eq_false (show ¬(1 ≤ n + 6 ∧ n + 6 ≤ 5) by omega)).symm

/-- A write of FPM whose mode code is one of 001 to 101. -/
theorem fpmWrite_mode {v : Word} (old : Word) (h : 1 ≤ (v.extractLsb' 8 3).toNat ∧ (v.extractLsb' 8 3).toNat ≤ 5) :
    fpmWrite old v = 0#53 ++ v.extractLsb' 8 3 ++ 0#3 ++ v.extractLsb' 0 5 := by
  rw [← ofNat_mode_flags]
  have hs : (rndOf? (field v 10 8)).isSome = true := by rw [rndOf?_isSome]; exact decide_eq_true h
  simp only [fpmWrite, hs, if_true]
  rfl

/-- A write of FPM with any other mode code keeps the mode. -/
theorem fpmWrite_keeps_mode {v : Word} (old : Word) (h : ¬(1 ≤ (v.extractLsb' 8 3).toNat ∧ (v.extractLsb' 8 3).toNat ≤ 5)) :
    fpmWrite old v = 0#53 ++ old.extractLsb' 8 3 ++ 0#3 ++ v.extractLsb' 0 5 := by
  rw [← ofNat_mode_flags]
  have hs : (rndOf? (field v 10 8)).isSome = false := by rw [rndOf?_isSome]; exact decide_eq_false h
  simp only [fpmWrite, hs, Bool.false_eq_true, if_false]
  rfl

/-- A write of one of a stream's own words leaves the other streams of its core. -/
theorem State.strm_ctlWrite_ne {s : State} {core : Nat} {k j : StreamId} (hc : s.cur = .stream core k) (hj : j ≠ k) (v : Word) {w : CtlWord}
    (hw : w ∈ [CtlWord.stat, .fpm, .trapvec, .prc, .scopemode, .tprc]) : (s.ctlWrite w v).strm core j = s.strm core j := by
  simp only [List.mem_cons, List.not_mem_nil, or_false] at hw
  rcases hw with rfl | rfl | rfl | rfl | rfl | rfl
  · exact State.strm_setHart_ne hc hj _
  · exact State.strm_updMe_ne hc hj _
  · exact State.strm_updMe_ne hc hj _
  · exact State.strm_setHart_ne hc hj _
  · exact State.strm_updMe_ne hc hj _
  · exact State.strm_updMe_ne hc hj _

/-! ## The two instructions -/

theorem exec_cwrd {g : Guard} {d : XReg} {w : CtlWord} {s s2 : State} (h : s.clear g [d]) (hw : s.writeReg d (s.ctlRead w) = .ok s2) :
    exec (.cwrd g d w) s = .next (s2.advance 1) := by
  have hb : s.begins g [] [d] [] s := ⟨h, rfl⟩
  change finish 1 (actCwrd g d w s) = _
  rw [actCwrd, begin_runs hb, retire_ok hw, finish_done]

theorem exec_cwwr {g : Guard} {w : CtlWord} {a : XReg} {s s1 : State} {x : Word} (h : s.begins g [a] [] [x] s1) :
    exec (.cwwr g w a) s = .next ((s1.ctlWrite w x).advance 1) := by
  change finish 1 (actCwwr g w a s) = _
  rw [actCwwr, begin_runs h, finish_done, List.getD_cons_zero]

end Sys2Proof.Machine

namespace Sys2Proof.Proofs

open Machine Statements

theorem controlWordAccess : controlWordAccessPart :=
  ⟨fun _ _ _ _ _ h hw => exec_cwrd h hw, fun _ _ _ _ _ _ h => exec_cwwr h⟩

theorem controlWordValues : controlWordValuesPart := by
  refine ⟨fun s core k v hcore hc => ⟨?_, ?_, ?_, ?_, ?_, ?_, ?_, ?_⟩, fun _ => rfl⟩
  · exact congrArg Hart.stat (State.hart_setHart_stream hcore hc _)
  · exact (congrArg Stream.trapvec (State.me_updMe hcore hc _)).trans (and_lowMask60 v)
  · exact congrArg Stream.scopemode (State.me_updMe hcore hc _)
  · exact congrArg Hart.prc (State.hart_setHart_stream hcore hc _)
  · exact congrArg Stream.tprc (State.me_updMe hcore hc _)
  · rintro r rfl h1 h5
    exact (congrArg Stream.fpm (State.me_updMe hcore hc _)).trans (fpmWrite_mode _ ⟨h1, h5⟩)
  · rintro r rfl h
    exact (congrArg Stream.fpm (State.me_updMe hcore hc _)).trans (fpmWrite_keeps_mode _ (by omega))
  · exact fun j hj w hw => State.strm_ctlWrite_ne hc hj v hw

/-- Settles O16: the two instructions by their beginnings, and the values from the parts that each write replaces. -/
theorem controlWords : Obligations.ControlWords := ⟨controlWordAccess, controlWordValues⟩

end Sys2Proof.Proofs
end

section
/-! SUPPORT. What memory, walks and reports leave to the engines: the cores, the kernels and the clusters stand, and a context's state is as it
was or TERMINATING (R296, R318, R346). -/

namespace Sys2Proof.Machine

/-- What the engines of a core hold is as in r: the cores, the kernels and the clusters, and a context's state unless it is TERMINATING now. -/
structure State.EnginesKept (r s : State) : Prop where
  cores : s.cores = r.cores
  kernels : s.kernels = r.kernels
  clusters : s.clusters = r.clusters
  ctxState : ∀ c, (s.ctx c).state = (r.ctx c).state ∨ (r.ctx c).state ≠ .free ∧ (s.ctx c).state = .terminating

namespace State.EnginesKept

variable {r s : State}

theorem refl : s.EnginesKept s := ⟨rfl, rfl, rfl, fun _ => .inl rfl⟩

/-- An update of other fields keeps it. -/
theorem fields (h : r.EnginesKept s) {t : State} (h1 : t.cores = s.cores := by rfl) (h2 : t.kernels = s.kernels := by rfl)
    (h3 : t.clusters = s.clusters := by rfl) (h4 : t.contexts = s.contexts := by rfl) : r.EnginesKept t where
  cores := h1.trans h.cores
  kernels := h2.trans h.kernels
  clusters := h3.trans h.clusters
  ctxState c := by unfold State.ctx at *; rw [h4]; exact h.ctxState c

theorem core_eq (h : r.EnginesKept s) (n : Nat) : s.core n = r.core n := by unfold State.core; rw [h.cores]

theorem cluster_eq (h : r.EnginesKept s) (n : Nat) : s.cluster n = r.cluster n := by unfold State.cluster; rw [h.clusters]

theorem ctxOf_eq (h : r.EnginesKept s) (core : Nat) : s.ctxOf core = r.ctxOf core := by
  unfold State.ctxOf State.kernelOf State.kernel?
  rw [h.core_eq, h.cluster_eq, h.kernels]

/-- A context that is placed stays so. -/
theorem ne_free (h : r.EnginesKept s) {c : Nat} (hc : (r.ctx c).state ≠ .free) : (s.ctx c).state ≠ .free := by
  rcases h.ctxState c with e | ⟨-, e⟩
  · rwa [e]
  · rw [e]; decide

/-- A context that is TERMINATING stays so. -/
theorem terminating (h : r.EnginesKept s) {c : Nat} (hc : (r.ctx c).state = .terminating) : (s.ctx c).state = .terminating := by
  rcases h.ctxState c with e | ⟨-, e⟩
  · rwa [e]
  · exact e

theorem ite (h : r.EnginesKept s) {t : State} (ht : r.EnginesKept t) {p : Prop} [Decidable p] : r.EnginesKept (if p then s else t) := by
  split
  · exact h
  · exact ht

theorem foldl (h : r.EnginesKept s) {α : Type} {f : State → α → State} {l : List α} (hf : ∀ s a, r.EnginesKept s → r.EnginesKept (f s a)) :
    r.EnginesKept (l.foldl f s) :=
  List.foldlRecOn l f h fun s h a _ => hf s a h

/-! ### Context faults and reports -/

theorem contextFault (h : r.EnginesKept s) {n : Nat} {t : Option Trap} : r.EnginesKept (s.contextFault n t) where
  cores := h.cores
  kernels := h.kernels
  clusters := h.clusters
  ctxState c := by
    unfold State.contextFault
    rw [State.ctx_updCtx]
    by_cases hc : c = n ∧ n < 1024
    · obtain ⟨rfl, -⟩ := hc
      have := h.ctxState c
      split
      · split
        · exact this
        · exact this
        · next hf _ => exact .inr ⟨fun e => by rcases this with e1 | ⟨e1, -⟩ <;> simp_all, rfl⟩
      · exact this
    · rw [if_neg hc]; exact h.ctxState c

theorem raise (h : r.EnginesKept s) {e : Event} : r.EnginesKept (s.raise e) := h.fields.ite (h.fields.ite h.fields)

theorem reportError (h : r.EnginesKept s) {p src nc owner dirty sl way line} : r.EnginesKept (s.reportError p src nc owner dirty sl way line) :=
  h.raise

theorem reportFault (h : r.EnginesKept s) {p : Nat} : r.EnginesKept (s.reportFault p) := raise h.fields

theorem reportLine (h : r.EnginesKept s) {src line l} : r.EnginesKept (s.reportLine src line l) := by
  unfold State.reportLine
  split
  · exact h.reportError
  · exact h

theorem reportTag (h : r.EnginesKept s) {line l} : r.EnginesKept (s.reportTag line l) := by
  unfold State.reportTag
  split
  · exact h.reportError
  · exact h

theorem reportFor (h : r.EnginesKept s) {p : Option Nat} : r.EnginesKept (s.reportFor p) := by
  unfold State.reportFor
  split
  · exact h.reportFault
  · exact h

/-! ### Lines -/

theorem setL2 (h : r.EnginesKept s) {line l} : r.EnginesKept (s.setL2 line l) := h.fields

theorem dropL2 (h : r.EnginesKept s) {line} : r.EnginesKept (s.dropL2 line) := h.fields

theorem countErr (h : r.EnginesKept s) {f unc} : r.EnginesKept (s.countErr f unc) := h.fields

theorem updSlice (h : r.EnginesKept s) {n f} : r.EnginesKept (s.updSlice n f) := h.fields

theorem loseLine (h : r.EnginesKept s) {line l} : r.EnginesKept (s.loseLine line l) :=
  (h.dropL2.reportTag.ite h.dropL2.reportLine).updSlice.countErr

theorem putLine (h : r.EnginesKept s) {line l} : r.EnginesKept (s.putLine line l) := h.fields.ite h.fields

theorem cleanOne (h : r.EnginesKept s) {line} : r.EnginesKept (s.cleanOne line).2 := by
  unfold State.cleanOne
  split
  · exact h
  · split
    · exact h.loseLine
    · split
      · exact h
      · split
        · exact h.loseLine
        · exact h.putLine.setL2
        · exact h.putLine.setL2.countErr

theorem fencePart (h : r.EnginesKept s) {p} : r.EnginesKept (s.fencePart p) :=
  foldl h.fields fun _ _ h => h.contextFault.ite h

theorem fenceHome (h : r.EnginesKept s) {sl} : r.EnginesKept (s.fenceHome sl) := by
  have hl (l : List Nat) (f) : r.EnginesKept (l.foldl (fun s ln => ((s.cleanOne ln).2).dropL2 ln) (s.updSlice sl f)) :=
    h.updSlice.foldl fun _ _ h => h.cleanOne.dropL2
  unfold State.fenceHome
  dsimp only
  split
  · exact hl _ _
  · exact (hl _ _).fencePart.ite (hl _ _)

theorem lose (h : r.EnginesKept s) {line l} : r.EnginesKept (s.lose line l) := h.loseLine.fenceHome.ite h.loseLine

theorem clean (h : r.EnginesKept s) {line} : r.EnginesKept (s.clean line).2 := by
  unfold State.clean
  split
  · split
    · exact h.lose
    · exact h.cleanOne
  · exact h

theorem evict (h : r.EnginesKept s) {line} : r.EnginesKept (s.evict line) := h.clean.dropL2

theorem makeRoom (h : r.EnginesKept s) {sl way} : r.EnginesKept (s.makeRoom sl way) := by
  unfold State.makeRoom
  refine h.ite (h.ite ?_)
  split
  · exact h.evict
  · exact h

theorem fill (h : r.EnginesKept s) {line own} : r.EnginesKept (s.fill line own) := (h.makeRoom.countErr.ite h.makeRoom).setL2

theorem homeRead (h : r.EnginesKept s) {line own} : Yields (fun e => r.EnginesKept e.2) r.EnginesKept (s.homeRead line own) := by
  unfold State.homeRead
  split
  · exact h
  · split
    · exact Yields.ite h.fill h.fill
    · split
      · exact Yields.ite h h
      · exact h.lose
      · exact Yields.ite h.lose (Yields.ite h.dropL2.reportLine.countErr.fill h.dropL2.reportLine.countErr.fill)
      · exact Yields.ite h.setL2.countErr h.setL2.countErr

/-! ### Walks -/

theorem pteCopy (h : r.EnginesKept s) {a} : r.EnginesKept (s.pteCopy a).2 := by
  unfold State.pteCopy
  split
  · next hr => exact h.homeRead.ok hr
  · next hr => exact h.homeRead.error hr

theorem mendTable (h : r.EnginesKept s) {part a} : r.EnginesKept (s.mendTable part a) := by
  have h1 : r.EnginesKept ((s.logErr (.table part a)).reportFault part) := reportFault h.fields
  exact h1.ite h1.setL2

theorem pteRead (h : r.EnginesKept s) {part a} : r.EnginesKept (s.pteRead part a).2 := by
  have h1 : r.EnginesKept (s.pteCopy a).2 := h.pteCopy
  unfold State.pteRead
  split
  · next hp => rwa [hp] at h1
  · next s1 hp =>
    rw [hp] at h1
    split
    · exact h1
    · have h2 : r.EnginesKept (s1.pteCopy (a + (s.part part).mirdelta)).2 := h1.pteCopy
      split
      · next hq => rw [hq] at h2; exact h2.mendTable
      · next hq => rwa [hq] at h2

theorem snd_ite {α : Type} {a b : α × State} (ha : r.EnginesKept a.2) (hb : r.EnginesKept b.2) {p : Prop} [Decidable p] :
    r.EnginesKept (if p then a else b).2 := by
  split
  · exact ha
  · exact hb

theorem walkFrom {die part va : Nat} {ls : List WalkLevel} : ∀ {s : State} {base : Nat}, r.EnginesKept s →
    r.EnginesKept (s.walkFrom die part va base ls).2 := by
  induction ls with
  | nil => exact id
  | cons l rest ih =>
    intro s base h
    unfold State.walkFrom
    refine snd_ite h (snd_ite h (snd_ite h ?_))
    have h1 := h.pteRead (part := part) (a := base + 8 * (va / 2 ^ l.shift % 2 ^ l.bits))
    split
    · next hp => rwa [hp] at h1
    · next hp => rw [hp] at h1; exact h1.fields
    · next s1 hp =>
      replace h1 : r.EnginesKept s1 := by rwa [hp] at h1
      exact snd_ite h1 (snd_ite h1 (snd_ite (snd_ite h1 (ih h1)) (snd_ite h1 (snd_ite (snd_ite h1 h1) h1))))

theorem lookWalk (h : r.EnginesKept s) {cl ctx va} : r.EnginesKept (s.lookWalk cl ctx va) := by
  unfold State.lookWalk
  split
  · exact h
  · exact h.ite h.walkFrom

theorem copyWalks (h : r.EnginesKept s) {c} : r.EnginesKept (s.copyWalks c) := h.foldl fun _ _ h => h.lookWalk.ite h

/-! ### A cluster fenced -/

theorem unmap (h : r.EnginesKept s) {cl} : r.EnginesKept (s.unmap cl) :=
  h.ite (foldl h.fields fun _ _ h => h.contextFault.ite h)

theorem fenceCluster (h : r.EnginesKept s) {cl} : r.EnginesKept (s.fenceCluster cl) := by
  have h1 : r.EnginesKept ({ s with cluUp := setBit s.cluUp cl false }.reportFor (s.ownerOfCluster cl)) := reportFor h.fields
  unfold State.fenceCluster
  dsimp only
  split
  · exact unmap h1.fields
  · exact h1

end State.EnginesKept

/-! ## The READY bit of a cluster that is fenced (R346, R348) -/

theorem getLsbD_setBit_false {n : Nat} (v : BitVec n) {k : Nat} (h : k < n) : (setBit v k false).getLsbD k = false := by
  simp [setBit, h]

@[simp] theorem State.raise_cluUp (s : State) (e : Event) : (s.raise e).cluUp = s.cluUp := by
  unfold State.raise
  split
  · rfl
  · split <;> rfl

@[simp] theorem State.reportFor_cluUp (s : State) (p : Option Nat) : (s.reportFor p).cluUp = s.cluUp := by
  cases p with
  | none => rfl
  | some p => exact State.raise_cluUp _ _

theorem State.unmap_cluUp {s : State} {cl : Nat} (hcl : cl < 128) (h : s.cluUp.getLsbD cl = false) : (s.unmap cl).cluUp.getLsbD cl = false := by
  unfold State.unmap
  split
  · exact h
  · refine List.foldlRecOn (motive := fun s : State => s.cluUp.getLsbD cl = false) _ _ (getLsbD_setBit_false _ hcl) fun s h o _ => ?_
    split
    · exact h
    · exact h

theorem State.fenceCluster_cluUp (s : State) {cl : Nat} (hcl : cl < 128) : (s.fenceCluster cl).cluUp.getLsbD cl = false := by
  have h1 : ({ s with cluUp := setBit s.cluUp cl false }.reportFor (s.ownerOfCluster cl)).cluUp.getLsbD cl = false := by
    rw [State.reportFor_cluUp]; exact getLsbD_setBit_false _ hcl
  unfold State.fenceCluster
  dsimp only
  split
  · exact State.unmap_cluUp hcl h1
  · exact h1

end Sys2Proof.Machine
end

section
/-! SUPPORT. The operations that the engines of a core share: what an update of a core or of a cluster leaves of it, marks, windows, ranges,
and the faults that stop an engine (R148 to R150, R236, R237, R310, R350). -/

namespace Sys2Proof.Machine

/-! ## Cores and clusters after an update -/

theorem State.core_updCore_same {s : State} {n : Nat} (h : n < 512) (f : Core → Core) : (s.updCore n f).core n = f (s.core n) := by
  rw [State.core_updCore, if_pos ⟨rfl, h⟩]

/-- What an update keeps of the core that it changes stands in every core. -/
theorem State.core_updCore_of {α : Type} (p : Core → α) {s : State} {n : Nat} {f : Core → Core}
    (h : p (f (s.core n)) = p (s.core n)) (m : Nat) :
    p ((s.updCore n f).core m) = p (s.core m) := by
  rw [State.core_updCore]
  split
  · next hm => rw [h, hm.1]
  · rfl

/-- What an update keeps of the cluster that it changes stands in every cluster. -/
theorem State.cluster_updCluster_of {α : Type} (p : Cluster → α) {s : State} {n : Nat} {f : Cluster → Cluster}
    (h : p (f (s.cluster n)) = p (s.cluster n)) (m : Nat) : p ((s.updCluster n f).cluster m) = p (s.cluster m) := by
  rw [State.cluster_updCluster]
  split
  · next hm => rw [h, hm.1]
  · rfl

@[simp] theorem Core.setStrm_copyQ (c : Core) (k : StreamId) (t : Stream) : (c.setStrm k t).copyQ = c.copyQ := by cases k <;> rfl

@[simp] theorem State.copyQ_updStrm (s : State) (n m : Nat) (k : StreamId) (f : Stream → Stream) :
    ((s.updStrm n k f).core m).copyQ = (s.core m).copyQ := State.core_updCore_of Core.copyQ (Core.setStrm_copyQ _ _ _) m

/-- A context that is placed is one of the 1024. -/
theorem State.ctx_lt {s : State} {c : Nat} (h : (s.ctx c).state ≠ .free) : c < 1024 := by
  by_contra hc
  refine h ?_
  unfold State.ctx
  rw [getD_eq, dif_neg hc]
  rfl

/-- The context of a core whose clocks run is placed. -/
theorem State.clocked_ne_free {s : State} {core : Nat} (h : s.clocked core = true) : (s.ctx (s.ctxOf core)).state ≠ .free := by
  intro e
  simp [State.clocked, e] at h

/-- An update that keeps a core's kernel keeps the contexts of the cores. -/
theorem State.ctxOf_updCore {s : State} {n : Nat} {f : Core → Core} (h : (f (s.core n)).kernel = (s.core n).kernel) (m : Nat) :
    (s.updCore n f).ctxOf m = s.ctxOf m := by
  unfold State.ctxOf State.kernelOf
  rw [State.core_updCore_of Core.kernel h]
  rfl

theorem clusterOf_lt {core : Nat} (h : core < 512) : clusterOf core < 128 := by unfold clusterOf; omega

/-! ## Windows and marks (R150, R310, R350) -/

/-- A command that issues changes nothing of a core but the backsight. -/
theorem State.noteIssue_core (s : State) (n : Nat) (q : QEntry) (m : Nat) : ∃ b, (s.noteIssue n q).core m = { s.core m with back := b } := by
  have hu (f : Core → Backsight) : ∃ b, (s.updCore n fun c => { c with back := f c }).core m = { s.core m with back := b } := by
    rw [State.core_updCore]
    split
    · next hm => exact ⟨_, by rw [hm.1]⟩
    · exact ⟨_, rfl⟩
  unfold State.noteIssue
  split
  · exact ⟨_, rfl⟩
  · exact ⟨_, rfl⟩
  · exact hu _
  · exact hu _

/-- A command that joins a window changes nothing of a core but the window and the backsight. -/
theorem State.joinWindow_core (s : State) (n : Nat) (q : QEntry) (m : Nat) :
    ∃ w b, (s.joinWindow n q).core m = { s.core m with window := w, back := b } := by
  unfold State.joinWindow
  split
  · obtain ⟨b, hb⟩ := State.noteIssue_core (s.updCore n fun c => { c with window := c.window ++ [q] }) n q m
    rw [hb, State.core_updCore]
    split
    · next hm => exact ⟨_, _, by rw [hm.1]⟩
    · exact ⟨_, _, rfl⟩
  · obtain ⟨b, hb⟩ := State.noteIssue_core s n q m
    exact ⟨_, b, hb⟩

@[simp] theorem State.joinWindow_copyQ (s : State) (n : Nat) (q : QEntry) (m : Nat) : ((s.joinWindow n q).core m).copyQ = (s.core m).copyQ := by
  obtain ⟨w, b, h⟩ := s.joinWindow_core n q m; rw [h]

@[simp] theorem State.joinWindow_array (s : State) (n : Nat) (q : QEntry) (m : Nat) : ((s.joinWindow n q).core m).array = (s.core m).array := by
  obtain ⟨w, b, h⟩ := s.joinWindow_core n q m; rw [h]

theorem State.retireWindow_core {s : State} {n : Nat} (h : n < 512) :
    (s.retireWindow n).core n = { s.core n with window := [], winHold := false } := by
  unfold State.retireWindow; rw [State.core_updCluster, State.core_updCore_same h]

/-- A mark leaves the copy queues. -/
@[simp] theorem State.tileMark_copyQ (s : State) (n m : Nat) : ((s.tileMark n).core m).copyQ = (s.core m).copyQ := by
  unfold State.tileMark State.backMark State.retireWindow
  dsimp only
  repeat rw [State.core_updCore_of Core.copyQ (by rfl)]
  rw [State.core_updCluster, State.core_updCore_of Core.copyQ (by rfl)]

/-! ## Queues -/

theorem mem_setEntry {q : List QEntry} {e e' : QEntry} (h : e ∈ q) (hs : e'.seq = e.seq) : e' ∈ setEntry q e' :=
  List.mem_map.mpr ⟨e, h, by simp [hs]⟩

theorem seq_ne_of_mem_dropEntry {q : List QEntry} {seq : Nat} {e : QEntry} (h : e ∈ dropEntry q seq) : e.seq ≠ seq := by
  simpa using (List.mem_filter.mp h).2

theorem headOf_mem {q : List QEntry} {e : QEntry} (h : headOf q = some e) : e ∈ q := List.mem_of_find?_eq_some h

/-! ## Ranges (R149) -/

theorem State.claim_some {s s1 : State} {core : Nat} {rs : List HeldRange} (h : s.claim core rs = some s1) :
    s1 = s.updCluster (clusterOf core) fun c => { c with ranges := c.ranges ++ rs } := by
  unfold State.claim at h
  dsimp only at h
  split at h
  · exact absurd h nofun
  · exact (Option.some.inj h).symm

theorem State.claim_core {s s1 : State} {core : Nat} {rs : List HeldRange} (h : s.claim core rs = some s1) (m : Nat) : s1.core m = s.core m := by
  rw [State.claim_some h, State.core_updCluster]

@[simp] theorem State.releaseRanges_core (s : State) (n seq m : Nat) : (s.releaseRanges n seq).core m = s.core m := rfl

@[simp] theorem State.releaseRanges_store (s : State) (n seq m : Nat) : ((s.releaseRanges n seq).cluster m).store = (s.cluster m).store :=
  State.cluster_updCluster_of Cluster.store (by rfl) m

/-! ## An engine stopped for good (R148) -/

@[simp] theorem State.core_contextFault (s : State) (c m : Nat) (t : Option Trap) : (s.contextFault c t).core m = s.core m := rfl

theorem State.copyFault_copyStopped (s : State) {core : Nat} (h : core < 512) (t : Trap) :
    ((s.copyFault core t).core core).copyStopped = some t := by
  unfold State.copyFault; rw [State.core_contextFault, State.core_updCore_same h]

/-- A fault of the copy engine terminates the context of its core. -/
theorem State.copyFault_state {s : State} {core : Nat} (hc : (s.ctx (s.ctxOf core)).state ≠ .free) (t : Trap) :
    ((s.copyFault core t).ctx (s.ctxOf core)).state = .terminating :=
  State.contextFault_state _ _ _ (State.ctx_lt hc) hc

end Sys2Proof.Machine

namespace Sys2Proof.Proofs

open Machine Statements

theorem any_dropWhile_seq {l : List QEntry} {seq : Nat} (h : ∃ q ∈ l, q.seq = seq) :
    (l.dropWhile (·.seq != seq)).any (·.seq == seq) = true := by
  induction l with
  | nil => simp at h
  | cons e l ih =>
    by_cases he : e.seq = seq
    · simp [he]
    · have hl : ∃ q ∈ l, q.seq = seq := by simpa [he] using h
      simpa [List.dropWhile_cons, he] using ih hl

/-- An MGO in its queue that is abandoned leaves the queue and the array, and MSTAT and M's next trap record the fault. -/
theorem mgoAbandon_abandoned {s : State} {core seq : Nat} (h : core < 512)
    (hq : ∃ q ∈ (s.core core).matQ, q.seq = seq ∧ q.isMgo = true) (tr : Trap) : abandoned (s.mgoAbandon core seq tr) core seq tr := by
  obtain ⟨q, hm, hs, hi⟩ := hq
  have hgone := any_dropWhile_seq ⟨q, List.mem_filter.mpr ⟨hm, hi⟩, hs⟩
  have hne {n : Nat} (hn : (!(((s.core core).matQ.filter QEntry.isMgo).dropWhile (·.seq != seq)).any fun q => q.seq == n) = true) : n ≠ seq := by
    rintro rfl
    rw [hgone] at hn
    exact absurd hn nofun
  unfold abandoned offQueue State.mgoAbandon
  rw [State.core_updCore_same h]
  exact ⟨fun x hx => hne (List.mem_filter.mp hx).2, fun x hx => hne (List.mem_filter.mp hx).2, rfl, rfl, rfl⟩

end Sys2Proof.Proofs
end

section
/-! SUPPORT. The issue of a copy command and its executions: what each outcome leaves (R55, R128, R138, R147 to R149, R310). -/

namespace Sys2Proof.Machine

/-! ## The events of a core whose clocks run -/

theorem State.whenClocked_on {s : State} {core : Nat} (h : s.clocked core = true) (f : State → State) : s.whenClocked core f = f s := if_pos h

theorem exec_evCopyIssue {s : State} {core : Nat} (h : s.clocked core = true) : exec (.evCopyIssue core) s = .next (s.copyIssue core) :=
  congrArg Host.Outcome.next (State.whenClocked_on h _)

theorem exec_evCopyComplete {s : State} {core : Nat} (h : s.clocked core = true) (seq n : Nat) :
    exec (.evCopyComplete core seq n) s = .next (s.copyComplete core seq n) :=
  congrArg Host.Outcome.next (State.whenClocked_on h _)

/-! ## Issue -/

@[simp] theorem State.fillTiles_core (s : State) (c : CopyCmd) (m : Nat) : (s.fillTiles c).2.core m = s.core m := by
  unfold State.fillTiles
  split
  · rfl
  · rfl

@[simp] theorem State.drainTile_core (s : State) (c : CopyCmd) (m : Nat) : (s.drainTile c).core m = s.core m := by
  unfold State.drainTile
  split
  · rfl
  · split
    · rfl
    · rfl

@[simp] theorem State.remoteAdd_copyQ (s : State) (n : Nat) (k : StreamId) (kind : RemoteKind) (dest off : Nat) (y : Word) (size : Nat)
    (strong : Bool) (data m : Nat) : ((s.remoteAdd n k kind dest off y size strong data).core m).copyQ = (s.core m).copyQ :=
  State.copyQ_updStrm _ n m k _

@[simp] theorem State.copyQ_ite {p : Prop} [Decidable p] (s t : State) (m : Nat) :
    ((if p then s else t).core m).copyQ = if p then (s.core m).copyQ else (t.core m).copyQ := by split <;> rfl

theorem State.copyQ_setCopyQ {s : State} {n : Nat} (h : n < 512) (f : List QEntry → List QEntry) :
    ((s.setCopyQ n f).core n).copyQ = f (s.core n).copyQ := congrArg Core.copyQ (State.core_updCore_same h _)

/-- Why a copy that could issue does not run: its tile changed since the push. -/
theorem issueFault_tile {s : State} {c : CopyCmd} (h : s.tileSame c = false) : (s.issueFault c).isSome = true := by simp [State.issueFault, h]

/-- Or one of its ranges is not to be used. -/
theorem issueFault_broken {s : State} {c : CopyCmd} {y : Word} (h : s.copyBroken c = some y) : (s.issueFault c).isSome = true := by
  unfold State.issueFault
  split
  · rfl
  · simp [h]

theorem issueFault_none {s : State} {c : CopyCmd} (h : s.tileSame c = true) (hb : s.copyBroken c = none) : s.issueFault c = none := by
  simp [State.issueFault, h, hb]

section Issue

variable {s : State} {core : Nat} {q : QEntry} {c : CopyCmd}

/-- The copy at the head stays until those before it are expanded, its tile can be read, its peers run, its mark has room and its ranges
are free. -/
theorem State.copyIssue_stays (hq : headOf (s.core core).copyQ = some q) (hc : q.cmd = .copy c) {s1 : State}
    (h1 : ({ s with cur := .stream core q.by_ } : State).copyWalks c = s1)
    (h : (∃ e ∈ (s.core core).copyQ, e.expanded = false) ∨ s1.tileReadable c = false ∨ s1.peerStopped c = true ∨
      (s1.copyRemote c = true ∧ s1.markRoom core q.by_ = false) ∨ s1.claim core (s1.copyRanges c core q.seq) = none) :
    s.copyIssue core = s := by
  unfold State.copyIssue
  simp only [hq, hc, h1]
  split
  · rfl
  · next hb =>
    simp only [Bool.or_eq_true, not_or, Bool.not_eq_true, Bool.not_eq_false', List.all_eq_true, Bool.and_eq_false_iff] at hb
    obtain ⟨⟨⟨⟨-, hall⟩, hread⟩, hpeer⟩, hroom⟩ := hb
    rcases h with ⟨e, he, hx⟩ | h | h | ⟨hr, hm⟩ | h
    · rw [hall e he] at hx; exact absurd hx nofun
    · rw [hread] at h; exact absurd h nofun
    · rw [hpeer] at h; exact absurd h nofun
    · simp [hr, hm] at hroom
    · rw [h]

variable (hq : headOf (s.core core).copyQ = some q) (hc : q.cmd = .copy c) (hstop : (s.core core).copyStopped = none)
  (hue : (s.core core).ueHeld = false) {s1 s2 : State} (h1 : ({ s with cur := .stream core q.by_ } : State).copyWalks c = s1)
  (hall : ∀ e ∈ (s.core core).copyQ, e.expanded = true) (hread : s1.tileReadable c = true) (hpeer : s1.peerStopped c = false)
  (hroom : s1.copyRemote c = false ∨ s1.markRoom core q.by_ = true) (hclaim : s1.claim core (s1.copyRanges c core q.seq) = some s2)

include hq hc hstop hue h1 hall hread hpeer hroom hclaim

/-- A copy that could issue and is broken stops its engine. -/
theorem State.copyIssue_faults {t : Trap} (hf : s1.issueFault c = some t) : s.copyIssue core = s1.copyFault core t := by
  have ha : (s.core core).copyQ.all QEntry.expanded = true := List.all_eq_true.mpr hall
  have hb : (s1.copyRemote c && !s1.markRoom core q.by_) = false := by rcases hroom with h | h <;> simp [h]
  simp [State.copyIssue, hq, hc, h1, hstop, hue, ha, hread, hpeer, hb, hclaim, hf]

/-- A copy that issues stands in its queue as issued, with the ranges that it claimed. -/
theorem State.copyIssue_issues (hcore : core < 512) (hf : s1.issueFault c = none) (hkept : s1.core core = s.core core) :
    ((s.copyIssue core).core core).copyQ =
      setEntry (s.core core).copyQ { q with issued := true, ranges := s1.copyRanges c core q.seq } := by
  have ha : (s.core core).copyQ.all QEntry.expanded = true := List.all_eq_true.mpr hall
  have hb : (s1.copyRemote c && !s1.markRoom core q.by_) = false := by rcases hroom with h | h <;> simp [h]
  simp only [State.copyIssue, hq, hc, h1, hstop, hue, ha, hread, hpeer, hb, hclaim, hf, Option.isSome_none, Bool.not_true, Bool.or_self,
    Bool.false_eq_true, if_false]
  rw [State.copyQ_setCopyQ hcore]
  simp [State.claim_core hclaim, hkept]

end Issue

/-! ## Completion -/

/-- The last copy from a tile changes nothing but the tile. -/
theorem State.drainEnd_cases (s : State) (c : CopyCmd) : s.drainEnd c = s ∨ ∃ t x, s.drainEnd c = s.setTile s.curCl t x := by
  unfold State.drainEnd
  dsimp only
  split
  · exact .inl rfl
  · split
    · split
      · exact .inr ⟨_, _, rfl⟩
      · exact .inl rfl
    · exact .inl rfl

/-- The end of a copy's transaction changes nothing but the stream that pushed it. -/
theorem State.copyAnswered_cases (s : State) (core : Nat) (k : StreamId) (seq : Nat) :
    s.copyAnswered core k seq = s ∨ ∃ f, s.copyAnswered core k seq = s.updStrm core k f := by
  unfold State.copyAnswered
  split
  · exact .inr ⟨_, rfl⟩
  · exact .inl rfl

/-- What a copy that is over leaves: its queue without it, and the memories as its run left them. -/
structure State.CopyOver (s t : State) (core seq : Nat) : Prop where
  copyQ : ∀ e ∈ (t.core core).copyQ, e.seq ≠ seq
  hbm : t.hbm = s.hbm
  l2 : t.l2 = s.l2
  host : t.host = s.host
  store : ∀ cl, (t.cluster cl).store = (s.cluster cl).store

theorem State.copyOver_setTile {s t : State} {core seq : Nat} (h : s.CopyOver t core seq) (cl n : Nat) (x : Option Tile) :
    s.CopyOver (t.setTile cl n x) core seq where
  copyQ := h.copyQ
  hbm := h.hbm
  l2 := h.l2
  host := h.host
  store m := (State.cluster_updCluster_of Cluster.store (by rfl) m).trans (h.store m)

theorem State.copyOver_taken (s : State) {core : Nat} (hcore : core < 512) (seq : Nat) :
    s.CopyOver ((s.setCopyQ core fun l => dropEntry l seq).releaseRanges core seq) core seq where
  copyQ e he := by
    rw [State.releaseRanges_core, State.copyQ_setCopyQ hcore] at he
    exact seq_ne_of_mem_dropEntry he
  hbm := rfl
  l2 := rfl
  host := rfl
  store m := State.releaseRanges_store _ _ _ m

theorem State.copyOver_of_updStrm {s t : State} {core n seq : Nat} {k : StreamId} {f : Stream → Stream}
    (h : (s.updStrm n k f).CopyOver t core seq) : s.CopyOver t core seq := ⟨h.copyQ, h.hbm, h.l2, h.host, h.store⟩

section Complete

variable {s : State} {core seq n : Nat} {q : QEntry} {c c1 : CopyCmd} {p : Prog} {s1 : State}
  (hq : (s.core core).copyQ.find? (fun e => e.seq == seq && e.issued) = some q) (hc : q.cmd = .copy c)
  (hstop : (s.core core).copyStopped = none) (hue : (s.core core).ueHeld = false)

include hq hc hstop hue

/-- The last execution of a copy ends it. -/
theorem State.copyComplete_over (hcore : core < 512)
    (hrun : ({ s with cur := .stream core q.by_ } : State).copyPart ⟨false, seq⟩ c q.prog n = (c1, p, .over, s1)) :
    s1.CopyOver (s.copyComplete core seq n) core seq := by
  have he : s.copyComplete core seq n =
      (((s1.copyAnswered core q.by_ seq).setCopyQ core fun l => dropEntry l seq).releaseRanges core seq).drainEnd c := by
    simp [State.copyComplete, hq, hc, hstop, hue, hrun]
  have ht : s1.CopyOver (((s1.copyAnswered core q.by_ seq).setCopyQ core fun l => dropEntry l seq).releaseRanges core seq) core seq := by
    rcases s1.copyAnswered_cases core q.by_ seq with h | ⟨f, h⟩
    · rw [h]; exact s1.copyOver_taken hcore seq
    · rw [h]; exact State.copyOver_of_updStrm (State.copyOver_taken _ hcore seq)
  rw [he]
  rcases State.drainEnd_cases (((s1.copyAnswered core q.by_ seq).setCopyQ core fun l => dropEntry l seq).releaseRanges core seq) c
    with h | ⟨t, x, h⟩
  · rwa [h]
  · rw [h]; exact State.copyOver_setTile ht _ _ _

/-- A copy that is still at work keeps its place with its progress. -/
theorem State.copyComplete_busy
    (hrun : ({ s with cur := .stream core q.by_ } : State).copyPart ⟨false, seq⟩ c q.prog n = (c1, p, .busy, s1)) :
    s.copyComplete core seq n = s1.setCopyQ core fun l => setEntry l { q with cmd := .copy c1, prog := p } := by
  simp [State.copyComplete, hq, hc, hstop, hue, hrun]

/-- A fault holds the copy or stops its engine; its execution restarts at its first byte. -/
theorem State.copyComplete_fault {t : Trap}
    (hrun : ({ s with cur := .stream core q.by_ } : State).copyPart ⟨false, seq⟩ c q.prog n = (c1, p, .fault t, s1)) :
    s.copyComplete core seq n =
      if faultHolds t then
        (s1.setCopyQ core fun l => setEntry l { q with cmd := .copy c1, prog := ⟨none, 0⟩ }).updCore core
          fun x => { x with copyStopped := some t }
      else (s1.setCopyQ core fun l => setEntry l { q with cmd := .copy c1, prog := ⟨none, 0⟩ }).copyFault core t := by
  simp [State.copyComplete, hq, hc, hstop, hue, hrun]

end Complete

end Sys2Proof.Machine

namespace Sys2Proof.Proofs

open Machine Statements

theorem storeUe_eq (t : Trap) : storeUe t = ueTrap t := rfl

/-- The faults that hold an engine's command are a page fault and an error of a cluster store. -/
theorem faultHolds_iff (t : Trap) : faultHolds t = true ↔ t.cause = cPAGE ∨ storeUe t = true := by
  simp [faultHolds, storeUe_eq]

/-- A copy that could issue and is broken stops its engine and ends its context. -/
theorem copyIssue_stops {s : State} {core : Nat} (hr : running s core) (hstop : (s.core core).copyStopped = none)
    (hue : (s.core core).ueHeld = false) {q : QEntry} {c : CopyCmd} (hq : headOf (s.core core).copyQ = some q) (hc : q.cmd = .copy c) {s1 : State}
    (h1 : ({ s with cur := .stream core q.by_ } : State).copyWalks c = s1) (hk : s.EnginesKept s1)
    (hall : ∀ e ∈ (s.core core).copyQ, e.expanded = true) (hread : s1.tileReadable c = true) (hpeer : s1.peerStopped c = false)
    (hroom : s1.copyRemote c = false ∨ s1.markRoom core q.by_ = true) (hclaim : (s1.claim core (s1.copyRanges c core q.seq)).isSome = true)
    (hf : (s1.issueFault c).isSome = true) :
    ∃ t, exec (.evCopyIssue core) s = .next t ∧ ending t s core ∧ (t.core core).copyStopped.isSome = true := by
  obtain ⟨hcore, hclk⟩ := hr
  obtain ⟨s2, hclaim⟩ := Option.isSome_iff_exists.mp hclaim
  obtain ⟨t, hf⟩ := Option.isSome_iff_exists.mp hf
  have he : s.copyIssue core = s1.copyFault core t := State.copyIssue_faults hq hc hstop hue h1 hall hread hpeer hroom hclaim hf
  have hctx : s1.ctxOf core = s.ctxOf core := hk.ctxOf_eq core
  refine ⟨_, exec_evCopyIssue hclk, ?_, ?_⟩
  · rw [he, ending, ← hctx]
    exact State.copyFault_state (hctx ▸ hk.ne_free (State.clocked_ne_free hclk)) t
  · rw [he, State.copyFault_copyStopped _ hcore]
    rfl

theorem copyEvents_hold : copyEvents := by
  intro s core ⟨hcore, hclk⟩ hstop hue
  refine ⟨fun q c hq hc => ⟨fun h => ?_, fun hall hread hpeer hroom hclaim => ?_⟩, fun seq n q c c1 p s1 hq hc => ?_⟩
  · rw [exec_evCopyIssue hclk, State.copyIssue_stays hq hc rfl h]
  · have hk : s.EnginesKept (({ s with cur := .stream core q.by_ } : State).copyWalks c) := State.EnginesKept.refl.fields.copyWalks
    have stops := copyIssue_stops ⟨hcore, hclk⟩ hstop hue hq hc rfl hk hall hread hpeer hroom hclaim
    refine ⟨fun h => stops (issueFault_tile h), fun y h => stops (issueFault_broken h),
      fun hsame hbroken => ⟨_, exec_evCopyIssue hclk, _, ?_, rfl⟩⟩
    obtain ⟨s2, hclaim⟩ := Option.isSome_iff_exists.mp hclaim
    rw [State.copyIssue_issues hq hc hstop hue rfl hall hread hpeer hroom hclaim hcore (issueFault_none hsame hbroken) (hk.core_eq core)]
    exact mem_setEntry (headOf_mem hq) rfl
  · have hseq : q.seq = seq := by have := List.find?_some hq; simp only [Bool.and_eq_true, beq_iff_eq] at this; exact this.1
    subst hseq
    refine ⟨fun hrun => ?_, fun hrun => ?_, fun tr hrun => ⟨fun hh => ?_, fun hp hu hfree hctx => ?_⟩⟩
    · have h := State.copyComplete_over hq hc hstop hue hcore hrun
      exact ⟨_, exec_evCopyComplete hclk _ n, h.copyQ, h.hbm, h.l2, h.host, h.store⟩
    · rw [exec_evCopyComplete hclk, State.copyComplete_busy hq hc hstop hue hrun]
      rfl
    · rw [exec_evCopyComplete hclk, State.copyComplete_fault hq hc hstop hue hrun, if_pos ((faultHolds_iff tr).mpr hh)]
      rfl
    · have hn : ¬faultHolds tr = true := by rw [faultHolds_iff, hu]; simp [hp]
      refine ⟨_, exec_evCopyComplete hclk _ n, ?_⟩
      rw [State.copyComplete_fault hq hc hstop hue hrun, if_neg hn]
      refine ⟨?_, State.copyFault_copyStopped _ hcore tr⟩
      have hs (f) : (s1.setCopyQ core f).ctxOf core = s.ctxOf core := (State.ctxOf_updCore (by rfl) core).trans hctx
      rw [ending, ← hs]
      exact State.copyFault_state (by rw [hs]; exact hfree) tr

end Sys2Proof.Proofs
end

section
/-! SUPPORT. Markers of a queue: what an FSET, an FCLR and an FWAIT marker do to their flag and their queue (R128, R130, R131). -/

namespace Sys2Proof.Machine

theorem exec_evFlagFire {s : State} {core : Nat} (h : s.clocked core = true) (t : FlagTarget) :
    exec (.evFlagFire core t) s = .next (s.markerAct core t false) := congrArg Host.Outcome.next (State.whenClocked_on h _)

theorem exec_evFlagClearAct {s : State} {core : Nat} (h : s.clocked core = true) (t : FlagTarget) :
    exec (.evFlagClearAct core t) s = .next (s.markerAct core t true) := congrArg Host.Outcome.next (State.whenClocked_on h _)

theorem exec_evFwaitMarkerIssue {s : State} {core : Nat} (h : s.clocked core = true) (t : FlagTarget) :
    exec (.evFwaitMarkerIssue core t) s = .next (s.fwaitIssue core t) := congrArg Host.Outcome.next (State.whenClocked_on h _)

/-! ## Flags -/

theorem State.flag_updFlag {s : State} {core n : Nat} (h : core < 512) (hn : n < 64) (f : EFlag → EFlag) (m : Nat) :
    ((s.updFlag core n f).core core).flag m = if m = n then f ((s.core core).flag n) else (s.core core).flag m := by
  unfold State.updFlag
  rw [State.core_updCore_same h]
  simp only [Core.flag]
  rw [getD_setIfInBounds]
  simp [hn]

@[simp] theorem Core.setQueue_flags (c : Core) (t : FlagTarget) (q : List QEntry) : (c.setQueue t q).flags = c.flags := by cases t <;> rfl

@[simp] theorem Core.queueOf_back (c : Core) (b : Backsight) (t : FlagTarget) : ({ c with back := b } : Core).queueOf t = c.queueOf t := by
  cases t <;> rfl

theorem Core.mem_setQueue {c : Core} {t : FlagTarget} {q : List QEntry} {e : QEntry} (h : e ∈ (c.setQueue t q).queueOf t) : e ∈ q := by
  cases t with
  | self => exact absurd h List.not_mem_nil
  | copy => exact h
  | matrix => exact h
  | collective => exact h

/-! ## A marker that has acted -/

@[simp] theorem State.markerOver_flag (s : State) (core : Nat) (t : FlagTarget) (q : QEntry) (m n : Nat) :
    ((s.markerOver core t q).core m).flag n = (s.core m).flag n := by
  unfold State.markerOver
  obtain ⟨b, hb⟩ := State.noteIssue_core (s.updCore core fun c => c.setQueue t (dropEntry (c.queueOf t) q.seq)) core q m
  have hf : ((s.updCore core fun c => c.setQueue t (dropEntry (c.queueOf t) q.seq)).core m).flags = (s.core m).flags :=
    State.core_updCore_of Core.flags (Core.setQueue_flags _ _ _) m
  rw [hb, Core.flag, Core.flag, hf]

/-- A marker that has acted is off its queue. -/
theorem State.markerOver_off {s : State} {core : Nat} (h : core < 512) (t : FlagTarget) (q : QEntry) :
    ∀ e ∈ ((s.markerOver core t q).core core).queueOf t, e.seq ≠ q.seq := by
  unfold State.markerOver
  obtain ⟨b, hb⟩ := State.noteIssue_core (s.updCore core fun c => c.setQueue t (dropEntry (c.queueOf t) q.seq)) core q core
  rw [hb, Core.queueOf_back, State.core_updCore_same h]
  exact fun e he => seq_ne_of_mem_dropEntry (Core.mem_setQueue he)

/-! ## The markers -/

section Marker

variable {s : State} {core : Nat} {t : FlagTarget} {q : QEntry} {n : Nat}

theorem State.markerAct_fset (hq : ((s.core core).queueOf t).head? = some q) (hc : q.cmd = .fset n) :
    s.markerAct core t false = (s.fireFlag core n q.seq q.by_).markerOver core t q := by simp [State.markerAct, hq, hc]

theorem State.markerAct_fclr (hq : ((s.core core).queueOf t).head? = some q) (hc : q.cmd = .fclr n) :
    s.markerAct core t true = (s.clearFlag core n q.seq q.by_).markerOver core t q := by simp [State.markerAct, hq, hc]

theorem State.fwaitIssue_fwait {need : Nat} (hq : headOf ((s.core core).queueOf t) = some q) (hc : q.cmd = .fwait n need) :
    s.fwaitIssue core t = if need ≤ ((s.core core).flag n).fire then s.markerOver core t q else s := by simp [State.fwaitIssue, hq, hc]

end Marker

end Sys2Proof.Machine

namespace Sys2Proof.Proofs

open Machine Statements

/-- A marker that changes its flag and is over leaves the other flags, and is off its queue. -/
theorem markerOver_updFlag {s : State} {core n : Nat} (hcore : core < 512) (hn : n < 64) (f : EFlag → EFlag) (tg : FlagTarget) (q : QEntry) :
    ((((s.updFlag core n f).markerOver core tg q).core core).flag n = f ((s.core core).flag n)) ∧
      (∀ m, m ≠ n → (((s.updFlag core n f).markerOver core tg q).core core).flag m = (s.core core).flag m) ∧
      offQueue ((((s.updFlag core n f).markerOver core tg q).core core).queueOf tg) q.seq := by
  refine ⟨?_, fun m hm => ?_, State.markerOver_off hcore tg q⟩
  · rw [State.markerOver_flag, State.flag_updFlag hcore hn, if_pos rfl]
  · rw [State.markerOver_flag, State.flag_updFlag hcore hn, if_neg hm]

theorem markerEvents_hold : markerEvents := by
  intro s core tg q n ⟨hcore, hclk⟩ hn
  refine ⟨fun hq hc => ?_, fun hq hc => ?_, fun need hq hc => ⟨fun hle => ?_, fun hlt => ?_⟩⟩
  · refine ⟨_, exec_evFlagFire hclk tg, ?_⟩
    rw [State.markerAct_fset hq hc]
    exact markerOver_updFlag hcore hn _ tg q
  · refine ⟨_, exec_evFlagClearAct hclk tg, ?_⟩
    rw [State.markerAct_fclr hq hc]
    exact markerOver_updFlag hcore hn _ tg q
  · refine ⟨_, exec_evFwaitMarkerIssue hclk tg, ?_⟩
    rw [State.fwaitIssue_fwait hq hc, if_pos hle]
    exact ⟨fun m => State.markerOver_flag _ _ _ _ _ _, State.markerOver_off hcore tg q⟩
  · rw [exec_evFwaitMarkerIssue hclk, State.fwaitIssue_fwait hq hc, if_neg (Nat.not_le.mpr hlt)]

end Sys2Proof.Proofs
end

section
/-! SUPPORT. The matrix array at work: the issue of an MGO, an array cycle with the MGOs that it finishes, and the end of a page fault (R222,
R223, R225, R229, R236, R237, R310). -/

namespace Sys2Proof.Machine

theorem exec_evMgoIssue {s : State} {core : Nat} (h : s.clocked core = true) : exec (.evMgoIssue core) s = .next (s.mgoIssue core) :=
  congrArg Host.Outcome.next (State.whenClocked_on h _)

theorem exec_evFoldEntry {s : State} {core : Nat} (h : s.clocked core = true) : exec (.evFoldEntry core) s = .next (s.foldEntry core) :=
  congrArg Host.Outcome.next (State.whenClocked_on h _)

theorem exec_evArrayResume {s : State} {core : Nat} (h : s.clocked core = true) (ok : Bool) :
    exec (.evArrayResume core ok) s = .next (s.arrayResume core ok) := congrArg Host.Outcome.next (State.whenClocked_on h _)

/-! ## Running MGOs -/

/-- No running MGO is held. -/
theorem any_held_false {l : List RunMgo} (h : ∀ r ∈ l, r.held = none) : l.any (·.held.isSome) = false :=
  List.any_eq_false.mpr fun r hr => by simp [h r hr]

theorem State.setRuns_core {s : State} {core : Nat} (h : core < 512) (l : List RunMgo) :
    (s.setRuns core l).core core = { s.core core with array := { (s.core core).array with running := l } } := State.core_updCore_same h _

theorem State.holdRun_running {s : State} {core : Nat} (h : core < 512) (seq : Nat) (t : Option Trap) :
    ((s.holdRun core seq t).core core).array.running =
      (s.core core).array.running.map fun r => if r.seq = seq then { r with held := t } else r := by
  unfold State.holdRun; rw [State.setRuns_core h]

/-! ## Issue -/

section Issue

variable {s s1 : State} {core : Nat} {q : QEntry} {t : ProdTable} {nlev : Nat} (hq : headOf (s.core core).matQ = some q)
  (hc : q.cmd = .mgo t nlev) (hheld : ∀ r ∈ (s.core core).array.running, r.held = none) (hue : (s.core core).ueHeld = false)
  (hrows : s.rowsBusy core q.seq t nlev = false) (htiles : s.mgoTiles (clusterOf core) t nlev = true)

include hq hc hheld hue hrows htiles

/-- An MGO that may issue joins the running ones, its first pass where the array has room for it. -/
theorem State.mgoIssue_running (hcore : core < 512) {first : Nat} (hfirst : (s.core core).array.firstFor t = some first)
    (hclaim : s.claim core (mgoRanges t nlev core q.seq) = some s1) :
    ((s.mgoIssue core).core core).array.running = (s.core core).array.running ++
      [⟨q.seq, t, nlev, (s.ctx (s.ctxOf core)).blk, 0, first, [], [], none, (s.core core).array.leaves, []⟩] := by
  simp only [State.mgoIssue, hq, hc, any_held_false hheld, hue, hrows, htiles, hfirst, hclaim, Bool.not_true, Bool.or_self, Bool.false_eq_true,
    if_false]
  rw [State.core_updCore_same hcore]
  simp [State.claim_core hclaim]

/-- An MGO waits while the last pass of the one before it has not begun. -/
theorem State.mgoIssue_waits (hfirst : (s.core core).array.firstFor t = none) : s.mgoIssue core = s := by
  simp [State.mgoIssue, hq, hc, any_held_false hheld, hue, hrows, htiles, hfirst]

end Issue

theorem MatArray.firstFor_idle {a : MatArray} (h : a.running = []) (t : ProdTable) : a.firstFor t = some t.loadCycles := by
  simp [MatArray.firstFor, h]

theorem MatArray.firstFor_begun {a : MatArray} {r : RunMgo} (h : a.running.getLast? = some r) (hr : r.lastStart ≤ r.cycle) (t : ProdTable) :
    a.firstFor t = some (max t.loadCycles (r.lastStart + r.table.groups - r.cycle)) := by simp [MatArray.firstFor, h, hr]

theorem MatArray.firstFor_early {a : MatArray} {r : RunMgo} (h : a.running.getLast? = some r) (hr : r.cycle < r.lastStart) (t : ProdTable) :
    a.firstFor t = none := by simp [MatArray.firstFor, h, Nat.not_le.mpr hr]

/-! ## An array cycle -/

theorem State.mgoComplete_core {s : State} {core : Nat} (h : core < 512) (seq : Nat) :
    (s.mgoComplete core seq).core core = { s.core core with
      matQ := dropEntry (s.core core).matQ seq
      array := { (s.core core).array with
        running := (s.core core).array.running.filter (·.seq != seq), last := BitVec.ofNat 32 seq } } := by
  unfold State.mgoComplete; rw [State.core_updCore_same h, State.releaseRanges_core]

/-- MGOs completed one after the other. -/
def State.mgosComplete (s : State) (core : Nat) (l : List RunMgo) : State := l.foldl (fun s r => s.mgoComplete core r.seq) s

section Complete

variable {core : Nat} (h : core < 512)

include h

theorem State.mem_mgosComplete_running (l : List RunMgo) : ∀ (s : State) (x : RunMgo),
    x ∈ ((s.mgosComplete core l).core core).array.running ↔ x ∈ (s.core core).array.running ∧ ∀ r ∈ l, x.seq ≠ r.seq := by
  induction l with
  | nil => intro s x; simp [State.mgosComplete]
  | cons r rs ih =>
    intro s x
    rw [show s.mgosComplete core (r :: rs) = (s.mgoComplete core r.seq).mgosComplete core rs from rfl, ih, State.mgoComplete_core h]
    simp [and_assoc]

theorem State.mem_mgosComplete_matQ (l : List RunMgo) : ∀ (s : State) (x : QEntry),
    x ∈ ((s.mgosComplete core l).core core).matQ ↔ x ∈ (s.core core).matQ ∧ ∀ r ∈ l, x.seq ≠ r.seq := by
  induction l with
  | nil => intro s x; simp [State.mgosComplete]
  | cons r rs ih =>
    intro s x
    rw [show s.mgosComplete core (r :: rs) = (s.mgoComplete core r.seq).mgosComplete core rs from rfl, ih, State.mgoComplete_core h]
    simp [dropEntry, and_assoc]

/-- LAST is the number of the last one that completed. -/
theorem State.mgosComplete_last (s : State) {l : List RunMgo} {r : RunMgo} (hl : l.getLast? = some r) :
    ((s.mgosComplete core l).core core).array.last = BitVec.ofNat 32 r.seq := by
  obtain ⟨l, rfl⟩ := List.getLast?_eq_some_iff.mp hl
  rw [State.mgosComplete, List.foldl_append]
  exact congrArg (fun c => c.array.last) (State.mgoComplete_core h r.seq)

end Complete

section Cycle

variable {s : State} {core : Nat} (hne : (s.core core).array.running ≠ []) (hheld : ∀ r ∈ (s.core core).array.running, r.held = none)
  (hue : (s.core core).ueHeld = false)

include hne hheld hue

/-- A cycle that meets no fault enters the folds that are due and completes the MGOs that are finished. -/
theorem State.foldEntry_ok {l l1 : List RunMgo} {s1 s2 : State}
    (hgot : ({ s with cur := .stream core .M } : State).arrayFetch [] (s.core core).array.running = .ok (l, s1))
    (henter : s1.arrayEnterAll (clusterOf core) l = (l1, s2)) :
    s.foldEntry core = (s2.setRuns core l1).mgosComplete core (l1.filter RunMgo.finished) := by
  have he : (s.core core).array.running.isEmpty = false := by simpa using hne
  simp only [State.foldEntry, he, any_held_false hheld, hue, hgot, henter, Bool.or_self, Bool.false_eq_true, if_false]
  rfl

/-- A cycle that meets a fault holds its MGO or abandons it. -/
theorem State.foldEntry_trap {seq : Nat} {t : Trap} {s1 : State}
    (hgot : ({ s with cur := .stream core .M } : State).arrayFetch [] (s.core core).array.running = .error (seq, .trap t s1)) :
    s.foldEntry core = if faultHolds t then s1.holdRun core seq (some t) else s1.mgoAbandon core seq t := by
  have he : (s.core core).array.running.isEmpty = false := by simpa using hne
  simp only [State.foldEntry, he, any_held_false hheld, hue, hgot, Bool.or_self, Bool.false_eq_true, if_false]

end Cycle

/-! ## The end of a page fault of the array -/

section Resume

variable {s : State} {core : Nat} {r : RunMgo} {rs : List RunMgo} {t : Trap} (hr : (s.core core).array.running = r :: rs)
  (hheld : r.held = some t) (hp : t.cause = cPAGE)

include hr hheld hp

theorem State.arrayResume_ok (h : pageResolvable t = true) : s.arrayResume core true = s.holdRun core r.seq none := by
  simp [State.arrayResume, hr, hheld, hp, h]

theorem State.arrayResume_fails (h : s.pageAsked (clusterOf core) (s.ctxOf core) t = false) :
    s.arrayResume core false = s.mgoAbandon core r.seq t := by
  simp [State.arrayResume, hr, hheld, hp, h]

end Resume

end Sys2Proof.Machine

namespace Sys2Proof.Proofs

open Machine Statements

theorem matrixEvents_hold : matrixEvents := by
  intro s core ⟨hcore, hclk⟩ hue
  refine ⟨fun q tb nlev hq hc hheld hrows htiles hclaim => ?_, fun hne hheld => ⟨fun l s1 l1 s2 hgot henter => ?_, fun seq tr s1 hgot => ?_⟩,
    fun r rs tr hrun hheld hp => ⟨fun hres => ?_, fun hask hq => ?_⟩⟩
  · obtain ⟨s1, hclaim⟩ := Option.isSome_iff_exists.mp hclaim
    have issues {first : Nat} (hfirst : (s.core core).array.firstFor tb = some first) :=
      State.mgoIssue_running hq hc hheld hue hrows htiles hcore hfirst hclaim
    refine ⟨fun he => ⟨_, exec_evMgoIssue hclk, ?_⟩, fun r hlast => ⟨fun hle => ⟨_, exec_evMgoIssue hclk, ?_⟩, fun hlt => ?_⟩⟩
    · rw [issues (MatArray.firstFor_idle he tb), he]
      rfl
    · exact issues (MatArray.firstFor_begun hlast hle tb)
    · rw [exec_evMgoIssue hclk, State.mgoIssue_waits hq hc hheld hue hrows htiles (MatArray.firstFor_early hlast hlt tb)]
  · have he : s.foldEntry core = (s2.setRuns core l1).mgosComplete core (l1.filter RunMgo.finished) :=
      State.foldEntry_ok hne hheld hue hgot henter
    refine ⟨_, exec_evFoldEntry hclk, fun hnone => ?_, fun r hm hf => ⟨fun x hx => ?_, fun x hx => ?_⟩,
      fun r hm hother => ?_, fun r hlast => ?_⟩
    · rw [he, List.filter_eq_nil_iff.mpr (by simpa using hnone)]
      have hrun : ((s2.setRuns core l1).core core) = _ := State.setRuns_core hcore l1
      exact ⟨congrArg (·.array.running) hrun, congrArg (·.array.last) hrun⟩
    · rw [he, State.mem_mgosComplete_running hcore] at hx
      exact hx.2 r (List.mem_filter.mpr ⟨hm, hf⟩)
    · rw [he, State.mem_mgosComplete_matQ hcore] at hx
      exact hx.2 r (List.mem_filter.mpr ⟨hm, hf⟩)
    · rw [he, State.mem_mgosComplete_running hcore, State.setRuns_core hcore]
      refine ⟨hm, fun x hx => ?_⟩
      obtain ⟨hx, hxf⟩ := List.mem_filter.mp hx
      exact (hother x hx hxf).symm
    · rw [he, State.mgosComplete_last hcore _ hlast]
  · have he := State.foldEntry_trap hne hheld hue hgot
    refine ⟨fun hh => ⟨_, exec_evFoldEntry hclk, ?_⟩, fun hp hu hq => ⟨_, exec_evFoldEntry hclk, ?_⟩⟩
    · rw [he, if_pos ((faultHolds_iff tr).mpr hh), State.holdRun_running hcore]
    · rw [he, if_neg (by rw [faultHolds_iff, hu]; simp [hp])]
      exact mgoAbandon_abandoned hcore hq tr
  · refine ⟨_, exec_evArrayResume hclk true, ?_⟩
    rw [State.arrayResume_ok hrun hheld hp hres, State.holdRun_running hcore, hrun]
  · refine ⟨_, exec_evArrayResume hclk false, ?_⟩
    rw [State.arrayResume_fails hrun hheld hp hask]
    exact mgoAbandon_abandoned hcore hq tr

end Sys2Proof.Proofs
end

section
/-! SUPPORT. Replay after an error of a cluster store: the window retires, its copies run again, and the engines go on or the command that met
the error ends (R25, R148, R150, R237, R310). -/

namespace Sys2Proof.Machine

theorem exec_evReplayWindowRetire {s : State} {core : Nat} (h : s.clocked core = true) :
    exec (.evReplayWindowRetire core) s = .next (s.windowRetire core) := congrArg Host.Outcome.next (State.whenClocked_on h _)

theorem exec_evEngineUeReplay {s : State} {core : Nat} (h : s.clocked core = true) (line : Nat) :
    exec (.evEngineUeReplay core line) s = .next (s.ueReplay core line) := congrArg Host.Outcome.next (State.whenClocked_on h _)

/-- A window whose commands are over retires. -/
theorem State.windowRetire_over {s : State} {core : Nat} (hw : (s.core core).winHold = true)
    (h : ∀ q ∈ (s.core core).window, (s.core core).pending q.seq = false) : s.windowRetire core = s.retireWindow core := by
  have ha : (s.core core).window.all (fun q => !(s.core core).pending q.seq) = true := List.all_eq_true.mpr fun q hq => by simp [h q hq]
  simp [State.windowRetire, hw, ha]

/-! ## The end of a replay -/

/-- What a replay that has gone so far leaves: the engines go on, it is taken up later, or the error stays. -/
def State.replayed (core line : Nat) : List QEntry × ReplayEnd × State → State
  | (_, .over, s) => if (s.cluster (storeAt core line).1).badStore.contains (storeAt core line).2 then s.ueLost core line else s.ueGo core
  | (l, .busy, s) => s.updCore core fun c => { c with replay := l }
  | (_, .lost, s) => s.ueLost core line

/-- The first event of a replay finds the error, and the copies of the window that wrote the line run again. -/
theorem State.ueReplay_begins {s : State} {core line : Nat} (h : (s.core core).replay = []) (hl : (s.core core).readsLine core line = true) :
    s.ueReplay core line = State.replayed core line ((s.ueFound core line).replayCopies core
      (((s.core core).window.filter fun q => q.wroteLine core line).map QEntry.afresh)) := by
  simp only [State.ueReplay, h, hl, List.isEmpty_nil, Bool.not_true, Bool.and_false, Bool.false_eq_true, if_false, if_true]
  rfl

/-- A later one goes on with those that are left. -/
theorem State.ueReplay_goesOn {s : State} {core line : Nat} (h : (s.core core).replay ≠ []) :
    s.ueReplay core line = State.replayed core line (s.replayCopies core (s.core core).replay) := by
  have he : (s.core core).replay.isEmpty = false := by simpa using h
  simp only [State.ueReplay, he, Bool.false_and, Bool.false_eq_true, if_false]
  rfl

/-! ## The engines go on -/

theorem State.ueGo_core {s : State} {core : Nat} (h : core < 512) : (s.ueGo core).core core = { s.core core with
    replay := []
    copyStopped := (s.core core).copyStopped.filter fun t => !ueTrap t
    collHeld := (s.core core).collHeld.filter fun t => !ueTrap t
    array := { (s.core core).array with running := (s.core core).array.running.map fun r =>
      { r with held := r.held.filter fun t => !ueTrap t } } } := State.core_updCore_same h _

theorem State.ueGo_ctxOf (s : State) (core : Nat) : (s.ueGo core).ctxOf core = s.ctxOf core := State.ctxOf_updCore (by rfl) core

/-! ## The error stays -/

/-- An error at which an MGO is held abandons it. -/
theorem State.ueLost_array {s : State} {core : Nat} {r : RunMgo} {u : Trap} (line : Nat)
    (hr : (s.core core).array.running.find? (fun r => r.held.any ueTrap) = some r) (hu : r.held = some u) :
    s.ueLost core line = (s.ueGo core).mgoAbandon core r.seq u := by
  simp [State.ueLost, hr, hu]

/-- An error at which the copy engine or a collective is held, or of a line that one of them reads, is a context fault. -/
theorem State.ueLost_command {s : State} {core line : Nat} (hr : (s.core core).array.running.find? (fun r => r.held.any ueTrap) = none)
    (h : (∃ u, ((s.core core).copyStopped = some u ∨ (s.core core).collHeld = some u) ∧ ueTrap u = true) ∨
      ∃ q ∈ (s.core core).copyQ ++ (s.core core).colQ, q.readsLine line = true) :
    ∃ u, s.ueLost core line = (s.ueGo core).copyFault core u := by
  unfold State.ueLost
  simp only [hr]
  split
  · exact ⟨_, rfl⟩
  · next hnone =>
    obtain ⟨hs, hh⟩ := Option.or_eq_none_iff.mp hnone
    rcases h with ⟨u, hu | hu, ht⟩ | ⟨q, hq, hl⟩
    · simp [hu, ht] at hs
    · simp [hu, ht] at hh
    · rw [if_pos (List.any_eq_true.mpr ⟨q, hq, hl⟩)]
      exact ⟨_, rfl⟩

end Sys2Proof.Machine

namespace Sys2Proof.Proofs

open Machine Statements

/-- What still holds an engine that goes on is no error of a cluster store. -/
theorem notUe_of_filter {o : Option Trap} {u : Trap} (h : o.filter (fun t => !ueTrap t) = some u) : storeUe u = false := by
  have hu : (!ueTrap u) = true := (Option.filter_eq_some_iff.mp h).2
  exact (storeUe_eq u).trans (by simpa using hu)

/-- A replay that leaves the error abandons the MGO that is held at it. -/
theorem ueLost_abandons {s : State} {core : Nat} (hcore : core < 512) (line : Nat) {r : RunMgo} {u : Trap}
    (hr : (s.core core).array.running.find? (fun r => r.held.any ueTrap) = some r) (hu : r.held = some u)
    (hq : ∃ q ∈ (s.core core).matQ, q.seq = r.seq ∧ q.isMgo = true) : abandoned (s.ueLost core line) core r.seq u := by
  rw [State.ueLost_array line hr hu]
  exact mgoAbandon_abandoned hcore (by rw [State.ueGo_core hcore]; exact hq) u

theorem replayWindow_holds : replayWindowPart := by
  intro s core ⟨hcore, hclk⟩
  refine ⟨fun hw hover => ⟨_, exec_evReplayWindowRetire hclk, ?_⟩, fun line s0 s1 todo l hstart => ?_⟩
  · rw [State.windowRetire_over hw hover, State.retireWindow_core hcore]
    exact ⟨rfl, rfl⟩
  · have he : s.ueReplay core line = State.replayed core line (s0.replayCopies core todo) := by
      rcases hstart with ⟨h, hl, rfl, rfl⟩ | ⟨h, rfl, rfl⟩
      · exact State.ueReplay_begins h hl
      · exact State.ueReplay_goesOn h
    have lost (hs : (s0.replayCopies core todo = (l, .over, s1) ∧ (storeAt core line).2 ∈ (s1.cluster (storeAt core line).1).badStore) ∨
        s0.replayCopies core todo = (l, .lost, s1)) : s.ueReplay core line = s1.ueLost core line := by
      rw [he]
      rcases hs with ⟨hs, hb⟩ | hs
      · rw [hs, State.replayed, if_pos (List.contains_iff_mem.mpr hb)]
      · rw [hs, State.replayed]
    refine ⟨fun hrun hb => ⟨_, exec_evEngineUeReplay hclk line, ?_⟩, fun hrun => ?_,
      fun hs r u hr hu hq => ⟨_, exec_evEngineUeReplay hclk line, ?_⟩,
      fun hs hr hcmd hfree hctx => ⟨_, exec_evEngineUeReplay hclk line, ?_⟩⟩
    · rw [he, hrun, State.replayed, if_neg (fun h => hb (List.contains_iff_mem.mp h)), State.ueGo_core hcore]
      refine ⟨rfl, fun u hu => ?_, fun u hu => ?_, fun r hr u hu => ?_, rfl⟩
      · exact notUe_of_filter hu
      · exact notUe_of_filter hu
      · obtain ⟨r', -, rfl⟩ := List.mem_map.mp hr
        exact notUe_of_filter hu
    · rw [exec_evEngineUeReplay hclk, he, hrun, State.replayed]
    · rw [lost hs]
      exact ueLost_abandons hcore line hr hu hq
    · rw [lost hs]
      have hl : (∃ u, ((s1.core core).copyStopped = some u ∨ (s1.core core).collHeld = some u) ∧ ueTrap u = true) ∨
          ∃ q ∈ (s1.core core).copyQ ++ (s1.core core).colQ, q.readsLine line = true := by
        refine hcmd.imp id ?_
        rintro ⟨q, hq, hi, r, hr, hsl, hw, hm⟩
        exact ⟨q, hq, by
          rw [QEntry.readsLine, hi, Bool.true_and]
          exact List.any_eq_true.mpr ⟨r, hr, by simp [hsl, hw, hm]⟩⟩
      obtain ⟨u, hu⟩ := State.ueLost_command hr hl
      have hc : (s1.ueGo core).ctxOf core = s.ctxOf core := (s1.ueGo_ctxOf core).trans hctx
      rw [hu, ending, ← hc]
      exact State.copyFault_state (by rw [hc]; exact hfree) u

end Sys2Proof.Proofs
end

section
/-! SUPPORT. The backsight: the return to the mark, and the end of a context whose commands keep failing to match (R16, R350). -/

namespace Sys2Proof.Machine

theorem exec_evBacksightMismatch {s : State} {core : Nat} (h : s.clocked core = true) (escalate : Bool) :
    exec (.evBacksightMismatch core escalate) s = .next (s.mismatch core escalate) := congrArg Host.Outcome.next (State.whenClocked_on h _)

section Mismatch

variable {s : State} {core bad : Nat} {escalate : Bool}

/-- With no command to match nothing happens. -/
theorem State.mismatch_none (h : (s.core core).twinHead = none) : s.mismatch core escalate = s := by simp [State.mismatch, h]

/-- A mismatch within the rule's bounds returns M and C to the mark. -/
theorem State.mismatch_returns (h : (s.core core).twinHead = some bad) (hf : (s.core core).back.fault = none)
    (he : escalate = false ∨ (s.core core).replays < 3) : s.mismatch core escalate = s.updCore core fun c => c.toMark bad := by
  have hn : (escalate && decide (3 ≤ (s.core core).replays)) = false := by
    rcases he with he | he
    · simp [he]
    · simp [Nat.not_le.mpr he]
  simp [State.mismatch, h, hf, -Bool.and_eq_true, hn]

/-- One beyond them ends the context and fences the cluster. -/
theorem State.mismatch_ends (h : (s.core core).twinHead = some bad)
    (he : (s.core core).back.fault ≠ none ∨ (escalate = true ∧ 3 ≤ (s.core core).replays)) :
    s.mismatch core escalate =
      ((s.contextFault (s.ctxOf core)).updCore core fun c => { c with replays := 0, back := backReset }).fenceCluster (clusterOf core) := by
  have hp : ((s.core core).back.fault.isSome || (escalate && decide (3 ≤ (s.core core).replays))) = true := by
    rcases he with he | ⟨he, hr⟩
    · simp [Option.isSome_iff_ne_none.mpr he]
    · simp [he, hr]
  simp only [State.mismatch, h, hp, if_true]

end Mismatch

/-! ## What a return leaves -/

/-- M runs at its mark with no load in flight, and has the product table of the mark. -/
theorem Core.toMark_m {c : Core} {m : Snap} (h : c.back.m = some m) (bad : Nat) :
    (c.toMark bad).m.st = .run ∧ (c.toMark bad).m.hart = m.hart ∧ (c.toMark bad).m.loads = [] ∧ (c.toMark bad).m.lists = m.lists ∧
      (c.toMark bad).table = m.table := by
  dsimp only [Core.toMark]
  rw [h]
  exact ⟨rfl, rfl, rfl, rfl, rfl⟩

/-- C runs at its mark with no load in flight. -/
theorem Core.toMark_c {c : Core} {m : Snap} (h : c.back.c = some m) (bad : Nat) :
    (c.toMark bad).c.st = .run ∧ (c.toMark bad).c.hart = m.hart ∧ (c.toMark bad).c.loads = [] ∧ (c.toMark bad).c.lists = m.lists := by
  dsimp only [Core.toMark]
  rw [h]
  exact ⟨rfl, rfl, rfl, rfl⟩

theorem Backsight.undoes_issued {b : Backsight} {q : QEntry} (h : q.issued = true) : b.undoes q = false := by simp [Backsight.undoes, h]

theorem Backsight.undoes_other {b : Backsight} {q : QEntry} (h : q.by_ = .A ∨ q.by_ = .X) : b.undoes q = false := by
  rcases h with h | h <;> simp [Backsight.undoes, h]

theorem Backsight.mem_kept {b : Backsight} {q : QEntry} {l : List QEntry} (h : q ∈ l) (hu : b.undoes q = false) :
    q ∈ l.filter fun e => !b.undoes e := List.mem_filter.mpr ⟨h, by simp [hu]⟩

end Sys2Proof.Machine

namespace Sys2Proof.Proofs

open Machine Statements

theorem backsight_holds : backsightPart := by
  intro s core escalate ⟨hcore, hclk⟩
  refine ⟨fun h => ?_, fun h => ?_⟩
  · rw [exec_evBacksightMismatch hclk, State.mismatch_none h]
  · obtain ⟨bad, hbad⟩ := Option.ne_none_iff_exists'.mp h
    refine ⟨fun hf he => ⟨_, exec_evBacksightMismatch hclk escalate, ?_⟩, fun he => ⟨_, exec_evBacksightMismatch hclk escalate, ?_⟩⟩
    · rw [State.mismatch_returns hbad hf he]
      refine ⟨rfl, rfl, rfl, ?_⟩
      rw [State.strm, State.strm, State.core_updCore_same hcore]
      refine ⟨rfl, hbad.symm, rfl, rfl, fun m hm => Core.toMark_m hm bad, fun m hm => Core.toMark_c hm bad,
        fun q hq hk => ?_, fun q hq hi => ?_, fun q hq hi => ?_⟩
      · exact Backsight.mem_kept hq (hk.elim Backsight.undoes_issued Backsight.undoes_other)
      · exact Backsight.mem_kept hq (Backsight.undoes_issued hi)
      · exact Backsight.mem_kept hq (Backsight.undoes_issued hi)
    · rw [State.mismatch_ends hbad he]
      refine ⟨State.EnginesKept.refl.fenceCluster.terminating ?_, State.fenceCluster_cluUp _ (clusterOf_lt hcore)⟩
      have hfree : (s.ctx (s.ctxOf core)).state ≠ .free := State.clocked_ne_free hclk
      exact State.contextFault_state s (s.ctxOf core) none (State.ctx_lt hfree) hfree

/-- Settles O46: the five families of events, each by the lemmas that say what its events leave. -/
theorem engineEvents : Obligations.EngineEvents := ⟨copyEvents_hold, markerEvents_hold, matrixEvents_hold, replayWindow_holds, backsight_holds⟩

end Sys2Proof.Proofs
end

section
/-! SUPPORT. What each part of the machine is after reset (R65, R81, R127, R130, R135, R137, R153, R184, R206, R296, R297, R342). -/

namespace Sys2Proof.Machine

/-! ## Vectors of one value -/

theorem getD_replicate_self {α : Type} (n i : Nat) (a : α) : (Vector.replicate n a).getD i a = a := by
  simp [getD_eq]

theorem getD_replicate {α : Type} {n i : Nat} (h : i < n) (a d : α) : (Vector.replicate n a).getD i d = a := by
  simp [getD_eq, h]

theorem forall_mem_toList_replicate {α : Type} {P : α → Prop} {a : α} (n : Nat) (h : P a) : ∀ x ∈ (Vector.replicate n a).toList, P x := by
  intro x hx
  rw [Vector.toList_replicate] at hx
  exact List.eq_of_mem_replicate hx ▸ h

/-! ## The parts of the state after reset -/

@[simp] theorem State.core_reset (c : Nat) : State.reset.core c = coreReset := getD_replicate_self 512 c coreReset

@[simp] theorem State.strm_reset (c : Nat) (k : StreamId) : State.reset.strm c k = streamReset := by
  rw [State.strm, State.core_reset]
  cases k <;> rfl

@[simp] theorem State.cluster_reset (cl : Nat) : State.reset.cluster cl = clusterReset := getD_replicate_self 128 cl clusterReset

@[simp] theorem State.ctx_reset (n : Nat) : State.reset.ctx n = contextReset := getD_replicate_self 1024 n contextReset

@[simp] theorem State.part_reset (p : Nat) : State.reset.part p = partReset := getD_replicate_self 16 p partReset

@[simp] theorem State.plat_reset (p k : Nat) : State.reset.plat p k = ⟨0, 0, 0, 0⟩ := by
  rw [State.plat, State.part_reset]
  exact getD_replicate_self 32 k _

/-! ## The fields of a core and of a cluster after reset that hold many values -/

theorem Core.flag_coreReset {n : Nat} (h : n < 64) : coreReset.flag n = ⟨0, 0, 0, .A⟩ := getD_replicate h _ _

theorem vzero_elem (e : Fin 1024) : vzero[e.val] = 0 := Vector.getElem_replicate ..

theorem coreReset_dq : ∀ q ∈ coreReset.dq.toList, q.entries = [] ∧ q.closed = false := forall_mem_toList_replicate 8 ⟨rfl, rfl⟩

theorem coreReset_v : ∀ v ∈ coreReset.v.toList, ∀ e : Fin 1024, v[e.val] = 0 := forall_mem_toList_replicate 16 vzero_elem

theorem coreReset_z : ∀ z ∈ coreReset.z.toList, z = Vector.replicate 4096 0 := forall_mem_toList_replicate 4 rfl

theorem clusterReset_modes : ∀ m ∈ clusterReset.modes.toList, m = .cache := forall_mem_toList_replicate 64 rfl

theorem clusterReset_tiles : ∀ t ∈ clusterReset.tiles.toList, t = none := forall_mem_toList_replicate 256 rfl

theorem clusterReset_acmAlloc : ∀ a ∈ clusterReset.acmAlloc.toList, a = none := forall_mem_toList_replicate 64 rfl

theorem clusterReset_rings : ∀ r ∈ clusterReset.rings.toList, r = ⟨none, []⟩ := forall_mem_toList_replicate 64 rfl

end Sys2Proof.Machine

namespace Sys2Proof.Proofs

open Machine

/-- Settles O53: each part of the state after reset is the reset value of its kind, whose fields are read off. -/
theorem resetValues : Obligations.ResetValues := by
  refine ⟨fun c _ k => ?streams, fun c _ => ?cores, fun cl _ => ?clusters, fun n _ => ?contexts, fun p _ => ?partitions, ?package⟩
  case streams =>
    rw [State.strm_reset]
    exact ⟨rfl, rfl, rfl, rfl, rfl, rfl, rfl, rfl, rfl, rfl, rfl, rfl, rfl, rfl⟩
  case cores =>
    rw [State.core_reset]
    refine ⟨coreReset_dq, rfl, rfl, rfl, rfl, rfl, fun n hn => ?_, coreReset_v, coreReset_z, rfl⟩
    rw [Core.flag_coreReset hn]
    exact ⟨rfl, rfl, rfl⟩
  case clusters =>
    rw [State.cluster_reset]
    exact ⟨clusterReset_modes, clusterReset_tiles, clusterReset_acmAlloc, rfl, rfl, rfl, clusterReset_rings⟩
  case contexts =>
    rw [State.ctx_reset]
    exact ⟨rfl, rfl, rfl⟩
  case partitions =>
    rw [State.part_reset]
    exact ⟨rfl, rfl, rfl, rfl, rfl, rfl, rfl, rfl, rfl, rfl, rfl, rfl, rfl, fun k _ => State.plat_reset p k⟩
  case package => exact ⟨rfl, rfl, rfl, rfl, rfl, rfl, rfl, rfl, rfl, rfl, rfl, rfl, rfl⟩

end Sys2Proof.Proofs
end
section
/-! SUPPORT. What a register field reads and writes, x0, p0 and the data-queue ports among them (R92, R93, R107, R306). -/

namespace Sys2Proof.Machine

/-! ## Source registers -/

/-- A source that is no port adds its value to those after it, which are read in the same state. -/
theorem State.readAll_cons_plain {s : State} {r : XReg} (h : s.port? r = none) (rs : List XReg) :
    s.readAll (r :: rs) = (s.readAll rs).map fun q => (s.hart.get r :: q.1, q.2) := by
  simp only [State.readAll, h]
  cases s.readAll rs <;> rfl

/-- A source that is a port adds the popped value to those after it, which are read in the state after the pop. -/
theorem State.readAll_cons_port {s s1 : State} {r : XReg} {q : Nat} {v : Word} (h : s.port? r = some q) (hp : s.popDq q = .ok (v, s1))
    (rs : List XReg) : s.readAll (r :: rs) = (s1.readAll rs).map fun t => (v :: t.1, t.2) := by
  simp only [State.readAll, h, hp]
  cases s1.readAll rs <;> rfl

theorem State.popDq_filled {s : State} {q : Nat} {v : Word} {es : List DqEntry} (h : (s.dqOf q).entries = .filled v :: es) :
    s.popDq q = .ok (v, s.setDq q
      { s.dqOf q with entries := es, pops := (s.dqOf q).pops + 1, popped := (v :: (s.dqOf q).popped).take 64 }) := by
  simp [State.popDq, DataQueue.pop, h]

theorem State.popDq_closed {s : State} {q : Nat} (h : (s.dqOf q).entries = []) (hc : (s.dqOf q).closed = true) :
    s.popDq q = .ok (0, (s.setDq q (s.dqOf q)).setStat statDQE) := by
  simp [State.popDq, DataQueue.pop, h, hc]

theorem State.popDq_open {s : State} {q : Nat} (h : (s.dqOf q).entries = []) (hc : (s.dqOf q).closed = false) :
    s.popDq q = .error (.dqEntry q) := by
  simp [State.popDq, DataQueue.pop, h, hc]

theorem State.popDq_unfilled {s : State} {q id : Nat} {es : List DqEntry}
    (h : (s.dqOf q).entries = .reserved id :: es ∨ (s.dqOf q).entries = .heldSlot id :: es) : s.popDq q = .error (.dqEntry q) := by
  rcases h with h | h
  · simp [State.popDq, DataQueue.pop, h]
  · simp [State.popDq, DataQueue.pop, h]

/-! ## Destination registers -/

theorem State.writeReg_port {s : State} {r : XReg} {q : Nat} (h : s.port? r = some q) (v : Word) : s.writeReg r v = s.pushDq q v := by
  simp [State.writeReg, h]

theorem DataQueue.again_eq_false {q : DataQueue} (h : q.pops ≤ q.pushes) : q.again = false := by simp [DataQueue.again, h]

theorem DataQueue.again_eq_true {q : DataQueue} (h : q.pushes < q.pops) : q.again = true := by simp [DataQueue.again, h]

theorem State.pushDq_room {s : State} {q : Nat} (hc : (s.dqOf q).closed = false) (ha : (s.dqOf q).pops ≤ (s.dqOf q).pushes)
    (hr : (s.dqOf q).entries.length < 64) (v : Word) :
    s.pushDq q v = .ok (s.setDq q
      { s.dqOf q with entries := (s.dqOf q).entries ++ [.filled v], pushes := (s.dqOf q).pushes + 1 }) := by
  simp [State.pushDq, DataQueue.push, hc, DataQueue.again_eq_false ha, hr]

theorem State.pushDq_full {s : State} {q : Nat} (hc : (s.dqOf q).closed = false) (ha : (s.dqOf q).pops ≤ (s.dqOf q).pushes)
    (hr : 64 ≤ (s.dqOf q).entries.length) (v : Word) : s.pushDq q v = .error (.dqSlot q) := by
  simp [State.pushDq, DataQueue.push, hc, DataQueue.again_eq_false ha, Nat.not_lt.mpr hr]

theorem State.pushDq_again {s : State} {q : Nat} (hc : (s.dqOf q).closed = false) (ha : (s.dqOf q).pushes < (s.dqOf q).pops) (v : Word) :
    s.pushDq q v = .ok (s.setDq q { s.dqOf q with pushes := (s.dqOf q).pushes + 1 }) := by
  simp [State.pushDq, DataQueue.push, hc, DataQueue.again_eq_true ha]

theorem State.pushDq_closed {s : State} {q : Nat} (hc : (s.dqOf q).closed = true) (v : Word) :
    s.pushDq q v = .ok ((s.setDq q (s.dqOf q)).setStat statDQE) := by
  simp [State.pushDq, DataQueue.push, hc]

/-! ## Predicates -/

theorem getLsbD_setBit {n : Nat} (v : BitVec n) {k : Nat} (hk : k < n) (b : Bool) (i : Nat) :
    (setBit v k b).getLsbD i = if i = k then b else v.getLsbD i := by
  unfold setBit
  by_cases hi : i = k
  · subst hi
    cases b <;> simp [hk]
  · cases b with
    | true => simp [hi, Ne.symm hi]
    | false =>
      by_cases hn : i < n
      · simp [hi, hn]
      · simp [hi, BitVec.getLsbD_of_ge v i (by omega)]

theorem Hart.pred_putPred {h : Hart} {n : PReg} (hn : n ≠ 0) (m : PReg) (b : Bool) :
    (h.putPred n b).pred m = if m = n then b else h.pred m := by
  have hn' : ¬n = 0#3 := hn
  have he : m.toNat = n.toNat ↔ m = n := BitVec.toNat_inj
  by_cases hm : m = 0#3
  · simp [Hart.pred, hm, Ne.symm hn']
  · have hb : (m == 0#3) = false := by simp [hm]
    simp [Hart.pred, Hart.putPred, hn', hb, getLsbD_setBit h.p (n := 8) (k := n.toNat) (by omega), he]

end Sys2Proof.Machine

namespace Sys2Proof.Proofs

open Machine Statements

theorem sourceReads : sourceReadsPart :=
  ⟨fun _ => rfl, fun _ _ rs h => State.readAll_cons_plain h rs, fun _ _ rs _ _ _ h hp => State.readAll_cons_port h hp rs,
    fun _ _ _ _ h => ⟨_, State.popDq_filled h, rfl, rfl⟩, fun _ _ h hc => State.popDq_closed h hc, fun _ _ h hc => State.popDq_open h hc,
    fun _ _ _ _ h => State.popDq_unfilled h⟩

theorem destinationWrites : destinationWritesPart := by
  refine ⟨fun s v h => writeReg_plain h v, fun s r v h hr => ?_, fun s r v q h hc ha hl => ?_, fun s r v q h hc ha hl => ?_,
    fun s r v q h hc ha => ?_, fun s r v q h hc => ?_, fun _ _ => rfl, fun _ _ m b hn => Hart.pred_putPred hn m b⟩
  · rw [writeReg_plain h, Hart.put, if_neg hr]
  · rw [State.writeReg_port h]
    exact ⟨_, State.pushDq_room hc ha hl v, rfl, hc⟩
  · rw [State.writeReg_port h, State.pushDq_full hc ha hl]
  · rw [State.writeReg_port h, State.pushDq_again hc ha]
  · rw [State.writeReg_port h, State.pushDq_closed hc]
    rfl

/-- Settles O6, by what a port's pop and push do in each state of its queue. -/
theorem registerReadsAndWrites : Obligations.RegisterReadsAndWrites := ⟨sourceReads, destinationWrites⟩

end Sys2Proof.Proofs
end
section
/-! SUPPORT. What one stream's word leaves of the state: the updates of one stream composed, the pc moved on, a wait, and the taking of a trap
(R78, R79, R99, R103, R296). -/

namespace Sys2Proof.Machine

/-! ## Updates of one stream -/

@[simp] theorem Core.setStrm_setStrm (c : Core) (k : StreamId) (t u : Stream) : (c.setStrm k t).setStrm k u = c.setStrm k u := by
  cases k <;> rfl

theorem State.setCore_setCore (s : State) (n : Nat) (c d : Core) : (s.setCore n c).setCore n d = s.setCore n d := by
  simp [State.setCore]

/-- A core of a number that the part does not have is not replaced. -/
theorem State.setCore_absent {n : Nat} (h : ¬n < 512) (s : State) (c : Core) : s.setCore n c = s := by
  simp [State.setCore, Vector.setIfInBounds_eq_of_size_le (Nat.le_of_not_lt h)]

/-- Two updates of one stream are one. -/
theorem State.updStrm_updStrm (s : State) (n : Nat) (k : StreamId) (f g : Stream → Stream) :
    (s.updStrm n k f).updStrm n k g = s.updStrm n k fun t => g (f t) := by
  by_cases hn : n < 512
  · unfold State.updStrm
    rw [State.updCore, State.core_updCore_same hn, State.updCore, State.setCore_setCore]
    simp [State.updCore]
  · simp only [State.updStrm, State.updCore, State.setCore_absent hn]

/-- Two updates of one stream that give it one value are the same. -/
theorem State.updStrm_congr {s : State} {n : Nat} {k : StreamId} {f g : Stream → Stream} (h : f (s.strm n k) = g (s.strm n k)) :
    s.updStrm n k f = s.updStrm n k g := by
  unfold State.strm at h
  simp only [State.updStrm, State.updCore, h]

theorem State.strm_updStrm_same {n : Nat} (h : n < 512) (s : State) (k : StreamId) (f : Stream → Stream) :
    (s.updStrm n k f).strm n k = f (s.strm n k) := by rw [State.strm_updStrm, if_pos ⟨rfl, rfl, h⟩]

/-- What an update keeps of the stream that it changes stands. -/
theorem State.strm_updStrm_of {α : Type} (p : Stream → α) {s : State} {n : Nat} {k : StreamId} {f : Stream → Stream}
    (h : p (f (s.strm n k)) = p (s.strm n k)) (m : Nat) (j : StreamId) : p ((s.updStrm n k f).strm m j) = p (s.strm m j) := by
  rw [State.strm_updStrm]
  split
  · next hm => obtain ⟨rfl, rfl, -⟩ := hm; exact h
  · rfl

theorem State.core_updStrm_same {n : Nat} (h : n < 512) (s : State) (k : StreamId) (f : Stream → Stream) :
    (s.updStrm n k f).core n = (s.core n).setStrm k (f (s.strm n k)) := by
  unfold State.updStrm; rw [State.core_updCore_same h]; rfl

theorem State.core_updCore_ne {n m : Nat} (h : m ≠ n) (s : State) (f : Core → Core) : (s.updCore n f).core m = s.core m := by
  rw [State.core_updCore, if_neg fun e => h e.1]

theorem State.core_updStrm_ne {n m : Nat} (h : m ≠ n) (s : State) (k : StreamId) (f : Stream → Stream) :
    (s.updStrm n k f).core m = s.core m := State.core_updCore_ne h s _

/-! ## The acting stream -/

section

variable {s : State} {core : Nat} {k : StreamId} (hc : s.cur = .stream core k)

include hc

theorem State.hart_stream : s.hart = (s.strm core k).hart := by unfold State.hart; rw [hc]

theorem State.curCore_stream : s.curCore = core := by unfold State.curCore; rw [hc]

theorem State.curSt_stream : s.curSt = k := by unfold State.curSt; rw [hc]

theorem State.onStation_stream : s.onStation = false := by unfold State.onStation; rw [hc]

theorem State.withCur_self : ({ s with cur := .stream core k } : State) = s := by rw [← hc]

theorem State.setHart_stream (h : Hart) : s.setHart h = s.updStrm core k fun t => { t with hart := h } := by unfold State.setHart; rw [hc]

theorem State.updMe_stream (f : Stream → Stream) : s.updMe f = s.updStrm core k f := by
  rw [State.updMe, State.curCore_stream hc, State.curSt_stream hc]

theorem State.pcAfter_stream (n : Nat) : s.pcAfter n = s.pc + BitVec.ofNat 64 n := by
  simp [State.pcAfter, State.onStation_stream hc]

/-- The word after one that completes (R79, R102). -/
theorem State.advance_stream (n : Nat) :
    s.advance n = s.updStrm core k fun t =>
      { t with st := if t.st = .wait then .run else t.st, waiting := none, hart := { t.hart with pc := t.hart.pc + BitVec.ofNat 64 n } } := by
  have hw : s.wake.cur = .stream core k := by rw [State.wake_cur, hc]
  have hh : (s.wake.strm core k).hart = (s.strm core k).hart := by
    rw [State.wake_stream hc]; exact State.strm_updStrm_of Stream.hart (by rfl) core k
  rw [State.advance, State.setPc, State.setHart_stream hw, State.hart_stream hw, hh, State.pcAfter_stream hc, State.pc, State.hart_stream hc,
    State.wake_stream hc, State.updStrm_updStrm]
  exact State.updStrm_congr rfl

end

/-! ## A trap delivered, waiting, or a context fault (R99, R103, R296) -/

@[simp] theorem Core.faultGiven_strm (c : Core) (k j : StreamId) (t : Trap) : (c.faultGiven k t).strm j = c.strm j := by
  unfold Core.faultGiven
  split
  · cases j <;> rfl
  · rfl

@[simp] theorem Core.faultGiven_kernel (c : Core) (k : StreamId) (t : Trap) : (c.faultGiven k t).kernel = c.kernel := by
  unfold Core.faultGiven
  split <;> rfl

theorem State.updCore_strm_of {s : State} {n : Nat} {f : Core → Core} (h : ∀ j, (f (s.core n)).strm j = (s.core n).strm j) (m : Nat)
    (j : StreamId) : (s.updCore n f).strm m j = s.strm m j :=
  State.core_updCore_of (fun c => c.strm j) (h j) m

/-- TCAUSE of a handler that runs (R103). -/
theorem tcauseOf_true (sub cause : BitVec 8) : tcauseOf true sub cause = 1#1 ++ 0#47 ++ sub ++ cause := by
  apply BitVec.eq_of_toNat_eq
  have hs := sub.isLt
  have hc := cause.isLt
  have h1 : (1#1 ++ 0#47).toNat = 2 ^ 47 := rfl
  rw [tcauseOf, if_pos rfl, BitVec.toNat_ofNat, BitVec.toNat_append, BitVec.toNat_append, h1, ← Nat.shiftLeft_add_eq_or_of_lt hc, ← Nat.shiftLeft_add_eq_or_of_lt hs]
  simp only [Nat.shiftLeft_eq]
  omega

/-- A handler that can be entered is (R103). -/
theorem State.enterHandler_enters {s : State} {c : Nat} {k : StreamId} (hv : (s.strm c k).trapvec ≠ 0)
    (hi : tcauseIn (s.strm c k).tcause = false) (hk : ({ s with cur := .stream c k } : State).codeOk (s.strm c k).trapvec = true) (t : Trap)
    (a : Word) :
    s.enterHandler c k t a = (s.updCore c fun x => x.faultGiven k t).updStrm c k fun st =>
      { st with
        st := .run, waiting := none, held := none, vecPos := 0, vecGot := [], vstPos := 0
        tepc := if t.cause = cUSER ∨ t.cause = cSYSC then a + 1 else a
        tcause := tcauseOf true t.sub t.cause
        tval := t.tval
        tprc := st.hart.prc
        hart := { st.hart with prc := 0, pc := (s.strm c k).trapvec, rptOn := false } } := by
  have hz : ¬(s.strm c k).trapvec = 0#64 := hv
  simp [State.enterHandler, hz, hi, hk]

theorem State.enterHandler_faults {s : State} {c : Nat} {k : StreamId} (h : (s.strm c k).trapvec = 0 ∨
    tcauseIn (s.strm c k).tcause = true ∨ ({ s with cur := .stream c k } : State).codeOk (s.strm c k).trapvec = false) (t : Trap) (a : Word) :
    s.enterHandler c k t a = s.contextFault (s.ctxOf c) (some t) := by
  rcases h with h | h | h <;> simp [State.enterHandler, h]

/-- Without a vector, or with a handler that runs, a delivery is a context fault. -/
theorem State.deliver_faults {s : State} {c : Nat} {k : StreamId} (h : (s.strm c k).trapvec = 0 ∨ tcauseIn (s.strm c k).tcause = true)
    (t : Trap) (a : Word) : s.deliver c k t a = s.contextFault (s.ctxOf c) (some t) := by
  have hf : s.enterHandler c k t a = s.contextFault (s.ctxOf c) (some t) :=
    State.enterHandler_faults (h.elim .inl fun h => .inr (.inl h)) t a
  rcases h with h | h <;> simp [State.deliver, h, hf]

theorem State.lineTrouble_of_lost {s : State} {line : Nat} (h : s.isLost line = true) : s.lineTrouble line = true := by
  simp [State.lineTrouble, h]

theorem State.lookLine_lost {s : State} {line : Nat} (h : s.isLost line = true) (own : Option Nat) :
    s.lookLine line own = .error (.lost, s) := by
  simp [State.lookLine, State.lineTrouble_of_lost h, State.homeRead, h]

theorem State.lookLine_poison {s : State} {line : Nat} {l : L2Line} (h : s.isLost line = false) (hl : s.l2At line = some l)
    (hi : l.inj = .none) (hp : l.poisoned = true) (own : Option Nat) : s.lookLine line own = .error (.poison, s) := by
  simp [State.lookLine, State.lineTrouble, State.homeRead, h, hl, hi, hp]

theorem State.deliver_lost {s : State} {c : Nat} {k : StreamId} (hv : (s.strm c k).trapvec ≠ 0) (hi : tcauseIn (s.strm c k).tcause = false)
    (hl : s.isLost (s.slotLine c (s.strm c k).trapvec) = true) (t : Trap) (a : Word) : s.deliver c k t a = s.hold c k t := by
  have hz : ¬(s.strm c k).trapvec = 0#64 := hv
  simp [State.deliver, hz, hi, State.lookLine_lost hl]

/-- A placed context that is not being terminated is TERMINATING after a fault, its status kept and the trap its cause. -/
theorem State.contextFault_ctx {s : State} {c : Nat} (h : c < 1024) (hf : (s.ctx c).state ≠ .free) (ht : (s.ctx c).state ≠ .terminating)
    (t : Option Trap) : (s.contextFault c t).ctx c =
      { s.ctx c with state := .terminating, status := some ((s.ctx c).status.getD 0x0C), cause := t } := by
  unfold State.contextFault
  rw [State.ctx_updCtx, if_pos ⟨rfl, h⟩]
  split
  · next e => exact absurd e hf
  · next e => exact absurd e ht
  · rfl

/-- A trap of a stream-handler class goes to its stream's handler. -/
theorem State.take_deliver {s : State} {core : Nat} {k : StreamId} (hc : s.cur = .stream core k) {t : Trap} (h : shadowClass t.cause = false) :
    s.take t = s.deliver core k t (s.strm core k).hart.pc := by
  rw [State.take_stream hc, h, if_neg Bool.false_ne_true, State.pc, State.hart_stream hc]

theorem State.take_hold {s : State} {core : Nat} {k : StreamId} (hc : s.cur = .stream core k) {t : Trap} (h : shadowClass t.cause = true) :
    s.take t = s.hold core k t := by rw [State.take_stream hc, h, if_pos rfl]

end Sys2Proof.Machine

namespace Sys2Proof.Proofs

open Machine Statements

theorem trapDelivery : trapDeliveryPart := by
  intro s core k t hcore hc hs hv hi hk hl
  have ht : s.take t = s.enterHandler core k t (s.strm core k).hart.pc := by rw [State.take_deliver hc hs, State.deliver_quiet hl]
  rw [State.enterHandler_enters hv hi (by rwa [State.withCur_self hc])] at ht
  dsimp only
  have hstrm : (s.updCore core fun x => x.faultGiven k t).strm core k = s.strm core k :=
    State.updCore_strm_of (fun j => Core.faultGiven_strm _ k j t) core k
  have hcore' : (s.take t).core core = ((s.core core).faultGiven k t).setStrm k ((s.take t).strm core k) := by
    rw [ht, State.core_updStrm_same hcore, State.strm_updStrm_same hcore, State.core_updCore_same hcore]
  refine ⟨?_, ?_, ?_, ?_, ?_, ?_, ?_, ?_, ?_, ?_, fun h => ?_, fun hk hp => ?_, fun c hne => ?_, ?_, ?_, ?_, ?_⟩
  case refine_11 =>
    rw [hcore', Core.faultGiven, if_neg fun e => h.elim (· e.1) (· e.2)]
  case refine_12 =>
    subst hk
    rw [hcore', Core.faultGiven, if_pos ⟨rfl, hp⟩]
    rfl
  case refine_13 => rw [ht, State.core_updStrm_ne hne, State.core_updCore_ne hne]
  case refine_2 =>
    rw [ht, State.strm_updStrm_same hcore, ← tcauseOf_true]
  all_goals
    rw [ht]
  case refine_14 | refine_15 | refine_16 | refine_17 => rfl
  all_goals
    rw [State.strm_updStrm_same hcore]
  case refine_4 => exact congrArg (fun x => x.hart.prc) hstrm
  case refine_5 => rw [hstrm]
  all_goals first | rfl | rw [hstrm]

theorem trapWaits : trapWaitsPart := by
  intro s core k t hcore hc hs hv hi hl
  have ht : s.take t = s.hold core k t := by rw [State.take_deliver hc hs, State.deliver_lost hv hi hl]
  rw [ht, State.hold]
  exact ⟨State.strm_updStrm_same hcore _ _ _, fun c hne => State.core_updStrm_ne hne _ _ _, rfl, rfl⟩

theorem contextFaults : contextFaultPart := by
  intro s core k t hc hs h
  have ht : s.take t = s.contextFault (s.ctxOf core) (some t) := by
    rw [State.take_deliver hc hs]
    rcases h with h | h | ⟨hl, hk⟩ | ⟨l, hlost, hl, hi, hp⟩
    · exact State.deliver_faults (.inl h) _ _
    · exact State.deliver_faults (.inr h) _ _
    · rw [State.deliver_quiet hl]
      exact State.enterHandler_faults (.inr (.inr (by rwa [State.withCur_self hc]))) _ _
    · by_cases hq : (s.strm core k).trapvec = 0 ∨ tcauseIn (s.strm core k).tcause = true
      · exact State.deliver_faults hq _ _
      · simp only [not_or, Bool.not_eq_true] at hq
        have hz : ¬(s.strm core k).trapvec = 0#64 := hq.1
        simp [State.deliver, hz, hq.2, State.lookLine_poison hlost hl hi hp]
  rw [ht]
  refine ⟨rfl, rfl, rfl, fun hx hf hn => ?_, fun c hne => State.contextFault_other _ _ _ _ hne⟩
  rw [State.contextFault_ctx hx hf hn]
  exact ⟨rfl, rfl, rfl⟩

/-- Settles O9, by the cases of a delivery: its vector's slot entry can be read, is lost, or the handler cannot be entered. -/
theorem streamHandlerTraps : Obligations.StreamHandlerTraps := ⟨trapDelivery, trapWaits, contextFaults⟩

theorem shadowHold : shadowHoldPart := by
  intro s core k t hcore hc h
  have hs : shadowClass t.cause = true := by rcases h with h | h | h <;> rw [h] <;> rfl
  dsimp only
  rw [State.take_hold hc hs, State.hold, State.strm_updStrm_same hcore]
  exact ⟨rfl, rfl, rfl, rfl, rfl, rfl, rfl, fun c hne => State.core_updStrm_ne hne _ _ _, rfl, rfl, rfl⟩

theorem trapSyscNop : trapSyscNopPart := by
  refine ⟨fun g n s hg => ?_, fun g n s hg => ?_, fun g s => rfl⟩
  · change finish 1 (actTrap g n s) = _
    rw [actTrap, if_pos hg]
    rfl
  · change finish 1 (actSysc g n s) = _
    rw [actSysc, if_pos hg]
    rfl

/-- Settles O10: a trap of the shadow handler's class holds the stream, and the three words are their acts. -/
theorem shadowHandlerTraps : Obligations.ShadowHandlerTraps := ⟨shadowHold, trapSyscNop⟩

end Sys2Proof.Proofs
end
section
/-! SUPPORT. Transfers of control, calls, returns and the return from a handler (R85 to R89, R104, R238 to R241). -/

namespace Sys2Proof.Machine

open Host (Outcome)
open Statements

/-! ## The acting stream's registers -/

section

variable {s : State} {core : Nat} {k : StreamId} (hc : s.cur = .stream core k)

include hc

/-- Registers replaced by what a function makes of them. -/
theorem State.setHart_map (g : Hart → Hart) : s.setHart (g s.hart) = s.updStrm core k fun t => { t with hart := g t.hart } := by
  rw [State.setHart_stream hc, State.hart_stream hc]
  exact State.updStrm_congr rfl

theorem State.setPc_stream (a : Word) : s.setPc a = s.updStrm core k fun t => { t with hart := { t.hart with pc := a } } :=
  State.setHart_map hc fun h => { h with pc := a }

theorem State.setStat_stream (bit : Nat) :
    s.setStat bit = s.updStrm core k fun t => { t with hart := { t.hart with stat := setBit t.hart.stat bit true } } :=
  State.setHart_map hc fun h => { h with stat := setBit h.stat bit true }

theorem State.shadowPush_stream (link : Word) (mark : Bool) :
    s.shadowPush link mark = s.updStrm core k fun t => { t with hart := { t.hart with shadow := setBit link 63 mark :: t.hart.shadow } } :=
  State.setHart_map hc fun h => { h with shadow := setBit link 63 mark :: h.shadow }

theorem State.shadowPop_stream :
    s.shadowPop = s.updStrm core k fun t => { t with hart := { t.hart with shadow := t.hart.shadow.drop 1 } } :=
  State.setHart_map hc fun h => { h with shadow := h.shadow.drop 1 }

theorem State.updLists_stream (f : Lists → Lists) : s.updLists f = s.updStrm core k fun t => { t with lists := f t.lists } :=
  State.updMe_stream hc _

theorem State.link_stream : s.link = s.pc + 1 := State.pcAfter_stream hc 1

end

/-! ## Pops after an update of the stream (R92) -/

/-- A stream whose data-queue condition is set (R93). -/
def Stream.dqe (t : Stream) : Stream := { t with hart := { t.hart with stat := setBit t.hart.stat statDQE true } }

theorem State.port?_of_cur {s t : State} (h : t.cur = s.cur) (r : XReg) : t.port? r = s.port? r := by unfold State.port?; rw [h]

theorem State.dqOf_updStrm (s : State) (n : Nat) (k : StreamId) (F : Stream → Stream) (q : Nat) : (s.updStrm n k F).dqOf q = s.dqOf q := by
  unfold State.dqOf
  rw [show (s.updStrm n k F).curCore = s.curCore from rfl,
    show ((s.updStrm n k F).core s.curCore).dq = (s.core s.curCore).dq from
      State.core_updCore_of Core.dq (by cases k <;> rfl) s.curCore]

/-- An update of a core that leaves its streams goes past an update of one of them. -/
theorem State.updCore_updStrm (s : State) (n : Nat) (k : StreamId) (F : Stream → Stream) (f : Core → Core)
    (hs : ∀ c t, f (c.setStrm k t) = (f c).setStrm k t) (hk : ∀ c, (f c).strm k = c.strm k) :
    (s.updStrm n k F).updCore n f = (s.updCore n f).updStrm n k F := by
  by_cases hn : n < 512
  · unfold State.updStrm
    rw [State.updCore, State.core_updCore_same hn, State.updCore, State.setCore_setCore, State.updCore, State.core_updCore_same hn,
      State.updCore, State.setCore_setCore, hs, hk]
  · simp only [State.updStrm, State.updCore, State.setCore_absent hn]

section

variable {core : Nat} {k : StreamId} {F : Stream → Stream} (hF : ∀ t, F t.dqe = (F t).dqe)

theorem State.setDq_updStrm {s : State} (hc : s.cur = .stream core k) (q : Nat) (d : DataQueue) :
    (s.updStrm core k F).setDq q d = (s.setDq q d).updStrm core k F := by
  have h1 : (s.updStrm core k F).curCore = core := State.curCore_stream hc
  rw [State.setDq, State.setDq, h1, State.curCore_stream hc]
  exact State.updCore_updStrm s core k F _ (fun c t => by cases k <;> rfl) fun c => by cases k <;> rfl

include hF

theorem State.setStat_updStrm {s : State} (hc : s.cur = .stream core k) :
    (s.updStrm core k F).setStat statDQE = (s.setStat statDQE).updStrm core k F := by
  have h1 : (s.updStrm core k F).cur = .stream core k := hc
  rw [State.setStat_stream h1, State.setStat_stream hc, State.updStrm_updStrm, State.updStrm_updStrm]
  exact State.updStrm_congr (hF _).symm

theorem State.popDq_updStrm {s s1 : State} (hc : s.cur = .stream core k) {q : Nat} {v : Word} (h : s.popDq q = .ok (v, s1)) :
    s1.cur = .stream core k ∧ (s.updStrm core k F).popDq q = .ok (v, s1.updStrm core k F) := by
  unfold State.popDq at h ⊢
  rw [State.dqOf_updStrm]
  split at h
  · exact absurd h nofun
  · obtain ⟨rfl, rfl⟩ := Prod.mk.inj (Except.ok.inj h)
    split
    · exact ⟨(State.setHart_cur _ _).trans hc, by rw [State.setDq_updStrm hc, State.setStat_updStrm hF (s := s.setDq q _) hc]⟩
    · exact ⟨hc, by rw [State.setDq_updStrm hc]⟩

/-- Sources popped after an update of the stream that does not touch their queues leave what the update makes of the state after their
pops. -/
theorem State.readAll_updStrm {rs : List XReg} : ∀ {s s1 : State} {vs : List Word}, s.cur = .stream core k → s.readAll rs = .ok (vs, s1) →
    s1.cur = .stream core k ∧ ∃ ws, (s.updStrm core k F).readAll rs = .ok (ws, s1.updStrm core k F) := by
  induction rs with
  | nil =>
    intro s s1 vs hc h
    obtain ⟨rfl, rfl⟩ := Prod.mk.inj (Except.ok.inj h)
    exact ⟨hc, [], rfl⟩
  | cons r rs ih =>
    intro s s1 vs hc h
    have hp : (s.updStrm core k F).port? r = s.port? r := State.port?_of_cur rfl r
    cases hr : s.port? r with
    | none =>
      rw [State.readAll_cons_plain hr] at h
      rw [State.readAll_cons_plain (hp.trans hr)]
      cases hs : s.readAll rs with
      | error w => rw [hs] at h; exact absurd h nofun
      | ok x =>
        rw [hs] at h
        obtain ⟨-, rfl⟩ := Prod.mk.inj (Except.ok.inj h)
        obtain ⟨h1, ws, hw⟩ := ih hc hs
        exact ⟨h1, _, by rw [hw]; rfl⟩
    | some q =>
      cases hq : s.popDq q with
      | error w => simp [State.readAll, hr, hq] at h
      | ok y =>
        obtain ⟨v, u⟩ := y
        obtain ⟨hu, hq'⟩ := State.popDq_updStrm hF hc hq
        rw [State.readAll_cons_port hr hq] at h
        rw [State.readAll_cons_port (hp.trans hr) hq']
        cases hs : u.readAll rs with
        | error w => rw [hs] at h; exact absurd h nofun
        | ok x =>
          rw [hs] at h
          obtain ⟨-, rfl⟩ := Prod.mk.inj (Except.ok.inj h)
          obtain ⟨h1, ws, hw⟩ := ih hu hs
          exact ⟨h1, _, by rw [hw]; rfl⟩

end

/-- The pops of the sources move no agent. -/
theorem State.readAll_cur {s s1 : State} {core : Nat} {k : StreamId} {rs : List XReg} {vs : List Word} (hc : s.cur = .stream core k)
    (h : s.readAll rs = .ok (vs, s1)) : s1.cur = .stream core k := (State.readAll_updStrm (F := id) (fun _ => rfl) hc h).1

/-! ## Words that read, act and pop (R92, R101) -/

section

variable {s s0 : State} {g : Guard} {srcs dsts : List XReg} {vs : List Word} (hb : s.begins g srcs dsts vs s0)

include hb

theorem State.begins_any : (srcs ++ dsts).any (fun r => decide (s.allotOf ≤ r.toNat)) = false ∧ (srcs ++ dsts).any s.regBusy = false := by
  obtain ⟨⟨-, ha, hb⟩, -⟩ := hb
  constructor
  · rw [List.any_eq_false]; intro r hm; simpa using ha r hm
  · rw [List.any_eq_false]; intro r hm; simpa using hb r hm

theorem State.memBegin_ok {k : List Word → Except Act State} {s1 s2 : State} {ws : List Word} (hk : k vs = .ok s1)
    (hr : s1.readAll srcs = .ok (ws, s2)) : s.memBegin g srcs dsts k = .done s2 := by
  obtain ⟨h1, h2⟩ := State.begins_any hb
  obtain ⟨⟨hg, -⟩, hs⟩ := hb
  simp [State.memBegin, hg, h1, h2, hs, hk, hr]

theorem State.memBegin_error {k : List Word → Except Act State} {a : Act} (hk : k vs = .error a) : s.memBegin g srcs dsts k = a := by
  obtain ⟨h1, h2⟩ := State.begins_any hb
  obtain ⟨⟨hg, -⟩, hs⟩ := hb
  simp [State.memBegin, hg, h1, h2, hs, hk]

theorem State.jumpBegin_ok {k : List Word → Except Act State} {s1 s2 : State} {ws : List Word} (hk : k vs = .ok s1)
    (hr : s1.readAll srcs = .ok (ws, s2)) : s.jumpBegin g srcs dsts k = .jump s2 := by
  rw [State.jumpBegin, State.memBegin_ok hb hk hr]
  simp [hb.1.1]

theorem State.jumpBegin_error {k : List Word → Except Act State} {a : Act} (hk : k vs = .error a) (ha : ∀ u, a ≠ .done u) :
    s.jumpBegin g srcs dsts k = a := by
  rw [State.jumpBegin, State.memBegin_error hb hk]
  simp only [hb.1.1, Bool.not_true, Bool.false_eq_true, if_false]

theorem State.finish_jumpBegin_error {k : List Word → Except Act State} {a : Act} {n : Nat} (hk : k vs = .error a) (ha : ∀ u, a ≠ .done u) :
    finish n (s.jumpBegin g srcs dsts k) = finish n a := by rw [State.jumpBegin_error hb hk ha]

/-- A transfer that acts by an update of its stream, with its sources popped. -/
theorem State.finish_jumpBegin_ok {core : Nat} {st : StreamId} {F : Stream → Stream} (hc : s.cur = .stream core st)
    (hF : ∀ t, F t.dqe = (F t).dqe) {k : List Word → Except Act State} (hk : k vs = .ok (s.updStrm core st F)) (n : Nat) :
    finish n (s.jumpBegin g srcs dsts k) = .next (s0.updStrm core st F).wake := by
  obtain ⟨-, ws, hr⟩ := State.readAll_updStrm hF hc hb.2
  rw [State.jumpBegin_ok hb hk hr]
  rfl

end

/-- A word that names no register begins where its guard reads true. -/
theorem State.begins_nil {s : State} {g : Guard} (h : s.guardOn g = true) : s.begins g [] [] [] s := ⟨⟨h, nofun, nofun⟩, rfl⟩

/-- A word without sources begins in its own state. -/
theorem State.begins_of_clear {s : State} {g : Guard} {ds : List XReg} (h : s.clear g ds) : s.begins g [] ds [] s := ⟨h, rfl⟩

/-! ## Code addresses (R85, R86) -/

theorem hiLo_append (v w : Word) :
    (v &&& 0xFFFF000000000000) ||| (w &&& 0x0000FFFFFFFFFFFF) = v.extractLsb' 48 16 ++ w.extractLsb' 0 48 := by
  have h1 : (0xFFFF000000000000 : Word) = BitVec.allOnes 16 ++ 0#48 := rfl
  have h2 : (0x0000FFFFFFFFFFFF : Word) = 0#16 ++ BitVec.allOnes 48 := rfl
  apply BitVec.eq_of_getLsbD_eq
  intro i hi
  rw [h1, h2]
  simp only [BitVec.getLsbD_or, BitVec.getLsbD_and, BitVec.getLsbD_append, BitVec.getLsbD_extractLsb', BitVec.getLsbD_zero,
    BitVec.getLsbD_allOnes]
  by_cases h : i < 48
  · simp [h]
  · simp [h, show i - 48 < 16 by omega, show 48 + (i - 48) = i by omega]

theorem State.relTarget_stream {s : State} {core : Nat} {k : StreamId} (hc : s.cur = .stream core k) (disp : BitVec 32) :
    s.relTarget disp = wordsOn s.pc disp := by
  rw [State.relTarget, State.onStation_stream hc, if_neg Bool.false_ne_true, hiLo_append, wordsOn]
  congr 1
  rw [← BitVec.setWidth_eq_extractLsb' (by decide), ← BitVec.setWidth_eq_extractLsb' (by decide), BitVec.setWidth_add _ _ (by decide), sext64]
  congr 1
  apply BitVec.eq_of_getLsbD_eq
  intro i hi
  simp only [BitVec.getLsbD_setWidth, BitVec.getLsbD_signExtend, hi, show i < 64 by omega, decide_true, Bool.true_and]

section

variable {s : State} {core : Nat} {k : StreamId} (hc : s.cur = .stream core k)

include hc

theorem State.codeOk_iff (t : Word) : s.codeOk t = true ↔ acceptable s core t := by
  have h0 : field t 63 60 = 0 ↔ t.extractLsb' 60 4 = 0 := BitVec.toNat_inj (y := 0#4)
  simp only [State.codeOk, hc, Bool.and_eq_true, beq_iff_eq, decide_eq_true_eq, h0, and_assoc]
  exact Iff.rfl

theorem State.targetOk_reaches {t : Word} (h : reaches s core t) : s.targetOk t = .ok s := by
  obtain ⟨hl, ha⟩ := h
  simp [State.targetOk, hc, State.lookLine_quiet hl, (State.codeOk_iff hc t).mpr ha]

theorem State.targetOk_refused {t : Word} (hl : s.lineTrouble (s.slotLine core t) = false) (ha : ¬acceptable s core t) :
    s.targetOk t = .error (trapOf cACCESS 0 t s) := by
  have hk : s.codeOk t = false := by rw [← Bool.not_eq_true, State.codeOk_iff hc]; exact ha
  simp [State.targetOk, hc, State.lookLine_quiet hl, hk]

theorem State.targetOk_lost {t : Word} (h : s.isLost (s.slotLine core t) = true) :
    s.targetOk t = .error (.wait (.memory (s.slotLine core t)) s) := by
  simp [State.targetOk, hc, State.lookLine_lost h]

theorem State.targetOk_poison {t : Word} {l : L2Line} (h : s.isLost (s.slotLine core t) = false)
    (hl : s.l2At (s.slotLine core t) = some l) (hi : l.inj = .none) (hp : l.poisoned = true) : s.targetOk t = .error (trapOf cUE 0 t s) := by
  simp [State.targetOk, hc, State.lookLine_poison h hl hi hp]

/-- A transfer that ends as its target's check does where that fails does not reach a target that fails it. -/
theorem State.refuses_of {i : Instr} {t : Word} {n : Nat}
    (h : ∀ a, s.targetOk t = .error a → (∀ u, a ≠ .done u) → exec i s = finish n a) : refuses i s core t :=
  ⟨fun hl ha => h _ (State.targetOk_refused hc hl ha) nofun, fun hl => h _ (State.targetOk_lost hc hl) nofun,
    fun _ h1 h2 h3 h4 => h _ (State.targetOk_poison hc h1 h2 h3 h4) nofun⟩

/-! ## Jumps (R86 to R88) -/

/-- A jump whose target is reached. -/
theorem State.goTo_reaches {t : Word} (h : reaches s core t) : s.goTo t = .ok (s.setPc t) := by
  simp [State.goTo, State.targetOk_reaches hc h]

omit hc in
theorem State.goTo_error {t : Word} {a : Act} (h : s.targetOk t = .error a) : s.goTo t = .error a := by simp [State.goTo, h]

/-- What a jump does of its target, from the state s0 in which its sources have been popped. -/
theorem State.jumps_of {i : Instr} {g : Guard} {srcs : List XReg} {vs : List Word} {s0 : State} {n : Nat} {t : Word}
    {f : List Word → Except Act State} (hb : s.begins g srcs [] vs s0) (he : exec i s = finish n (s.jumpBegin g srcs [] f))
    (hf : f vs = s.goTo t) :
    (reaches s core t → exec i s = .next (s0.setPc t).wake) ∧ refuses i s core t := by
  refine ⟨fun h => ?_, State.refuses_of hc fun a h ha => by rw [he, State.finish_jumpBegin_error hb (hf.trans (State.goTo_error h)) ha]⟩
  rw [he, State.setPc_stream (State.readAll_cur hc hb.2)]
  refine State.finish_jumpBegin_ok (F := fun u => { u with hart := { u.hart with pc := t } }) hb hc (fun _ => rfl) ?_ n
  rw [hf, State.goTo_reaches hc h, State.setPc_stream hc]

/-! ## Calls (R86, R87, R89) -/

omit hc in
theorem State.callTo_full (h : s.shadowRoom ≤ s.hart.shadow.length) (t : Word) : s.callTo t = .error (trapOf cCINT 0 1 s) := if_pos h

omit hc in
theorem State.callTo_error {t : Word} {a : Act} (hr : s.hart.shadow.length < s.shadowRoom) (h : s.targetOk t = .error a) :
    s.callTo t = .error a := by simp [State.callTo, Nat.not_le.mpr hr, h]

/-- What a call to t does of its stream: the link pushed with its mark and written to x1, and the pc at t. -/
def Stream.called (s : State) (mark : Bool) (t : Word) (u : Stream) : Stream :=
  { u with hart := { (u.hart.put 1 (s.pc + 1)) with shadow := setBit (s.pc + 1) 63 mark :: s.hart.shadow, pc := t } }

omit hc in
theorem Stream.called_dqe (s : State) (mark : Bool) (t : Word) (u : Stream) : u.dqe.called s mark t = (u.called s mark t).dqe := by
  simp [Stream.called, Stream.dqe, Hart.put]

theorem State.callTo_reaches {t : Word} (hr : s.hart.shadow.length < s.shadowRoom) (h : reaches s core t) :
    s.callTo t = .ok (s.updStrm core k (Stream.called s false t)) := by
  have hu (f : Stream → Stream) : (s.updStrm core k f).cur = .stream core k := hc
  simp only [State.callTo, Nat.not_le.mpr hr, if_false, State.targetOk_reaches hc h]
  rw [State.shadowPush_stream hc, State.setHart_map (hu _) (Hart.put · 1 s.link), State.updStrm_updStrm, State.setPc_stream (hu _),
    State.updStrm_updStrm, State.link_stream hc]
  congr 1
  exact State.updStrm_congr (by simp [Stream.called, Hart.put, State.hart_stream hc])

/-- What a call does, from the state s0 in which its sources have been popped. -/
theorem State.calls_of {i : Instr} {g : Guard} {srcs : List XReg} {vs : List Word} {s0 : State} {n : Nat} {t : Word}
    {f : List Word → Except Act State} (hb : s.begins g srcs [1] vs s0) (he : exec i s = finish n (s.jumpBegin g srcs [1] f))
    (hf : f vs = s.callTo t) :
    (s.hart.shadow.length < s.shadowRoom → reaches s core t →
      exec i s = .next (s0.setHart
        { (s0.hart.put 1 (s.pc + 1)) with shadow := setBit (s.pc + 1) 63 false :: s.hart.shadow, pc := t }).wake) ∧
    (s.hart.shadow.length < s.shadowRoom → refuses i s core t) ∧
    (s.shadowRoom ≤ s.hart.shadow.length → exec i s = .next (s.take ⟨0x09, 0, 1⟩)) := by
  refine ⟨fun hr h => ?_, fun hr => State.refuses_of hc (n := n) fun a h ha => ?_, fun hr => ?_⟩
  · rw [he, State.setHart_map (State.readAll_cur hc hb.2)
      fun h => { (h.put 1 (s.pc + 1)) with shadow := setBit (s.pc + 1) 63 false :: s.hart.shadow, pc := t }]
    exact State.finish_jumpBegin_ok hb hc (Stream.called_dqe s false t) (hf.trans (State.callTo_reaches hc hr h)) n
  · rw [he, State.finish_jumpBegin_error hb (hf.trans (State.callTo_error hr h)) ha]
  · rw [he, State.finish_jumpBegin_error hb (hf.trans (State.callTo_full hr t)) nofun]
    rfl

end

end Sys2Proof.Machine

namespace Sys2Proof.Proofs

open Machine Statements

/-- Settles O12: each word is a jump to its target, whose check decides. -/
theorem jumps : Obligations.Jumps := by
  refine ⟨fun g disp s core k hc hg => ?_, fun g imm s core k hc hg => ?_, fun g a s s1 core k x hc hb => ?_⟩
  · exact State.jumps_of hc (State.begins_nil hg) rfl (congrArg s.goTo (State.relTarget_stream hc disp))
  · exact State.jumps_of hc (State.begins_nil hg) rfl rfl
  · exact State.jumps_of hc hb rfl rfl

theorem calls : callsPart := by
  refine ⟨fun g disp s core k hc h => ?_, fun g a s s1 core k x hc hb => ?_⟩
  · exact State.calls_of hc (State.begins_of_clear h) rfl (congrArg s.callTo (State.relTarget_stream hc disp))
  · exact State.calls_of hc hb rfl rfl

end Sys2Proof.Proofs
end
section
/-! SUPPORT. Returns, collecting calls and returns, and the return from a handler (R85 to R89, R101, R104, R238 to R241). -/

namespace Sys2Proof.Machine

open Host (Outcome)
open Statements

/-! ## Returns (R87, R89, R240) -/

theorem setBit_of_getLsbD {n : Nat} {v : BitVec n} {k : Nat} (hk : k < n) {b : Bool} (h : v.getLsbD k = b) : setBit v k b = v := by
  apply BitVec.eq_of_getLsbD_eq
  intro i _
  rw [getLsbD_setBit v hk]
  split
  · next hi => rw [hi, h]
  · rfl

theorem State.returnCase_nil {s : State} (h : s.hart.shadow = []) (x : Word) (collecting : Bool) : s.returnCase x collecting = some 2 := by
  simp [State.returnCase, h]

section

variable {s : State} {e : Word} {rest : List Word} (hs : s.hart.shadow = e :: rest)

include hs

theorem State.returnCase_marked (hm : e.getLsbD 63 = true) (x : Word) : s.returnCase x false = some 4 := by
  simp [-BitVec.getLsbD_eq_getElem, State.returnCase, hs, hm]

theorem State.returnCase_unmarked (hm : e.getLsbD 63 = false) (x : Word) : s.returnCase x true = some 5 := by
  simp [-BitVec.getLsbD_eq_getElem, State.returnCase, hs, hm]

theorem State.returnCase_other {collecting : Bool} (hm : e.getLsbD 63 = collecting) {x : Word} (hx : setBit e 63 false ≠ x) :
    s.returnCase x collecting = some 3 := by
  simp [-BitVec.getLsbD_eq_getElem, State.returnCase, hs, hm, hx]

theorem State.returnCase_none {collecting : Bool} (hm : e.getLsbD 63 = collecting) {x : Word} (hx : setBit e 63 false = x) :
    s.returnCase x collecting = none := by
  simp [-BitVec.getLsbD_eq_getElem, State.returnCase, hs, hm, hx]

end

/-- What RET does with its source's value. -/
def State.returnTo (s : State) (x : Word) : Except Act State :=
  match s.returnCase x false with
  | some k => .error (trapOf cCINT 0 (BitVec.ofNat 64 k) s)
  | none => match s.targetOk x with | .ok s1 => .ok (s1.shadowPop.setPc x) | .error a => .error a

theorem exec_ret (g : Guard) (a : XReg) (s : State) :
    exec (.ret g a) s = finish 1 (s.jumpBegin g [a] [] fun vs => s.returnTo (vs.getD 0 0)) := rfl

section

variable {s s1 : State} {core : Nat} {k : StreamId} {g : Guard} {a : XReg} {x : Word} (hc : s.cur = .stream core k)
  (hb : s.begins g [a] [] [x] s1)

include hb

theorem exec_ret_case {n : Nat} (h : s.returnCase x false = some n) :
    exec (.ret g a) s = .next (s.take ⟨0x09, 0, BitVec.ofNat 64 n⟩) := by
  rw [exec_ret, State.finish_jumpBegin_error hb (a := trapOf cCINT 0 (BitVec.ofNat 64 n) s) (by simp [State.returnTo, h]) nofun]
  rfl

include hc

theorem exec_ret_reaches {e : Word} {rest : List Word} (hs : s.hart.shadow = e :: rest) (h : s.returnCase x false = none)
    (hr : reaches s core x) : exec (.ret g a) s = .next (s1.setHart { s1.hart with shadow := rest, pc := x }).wake := by
  rw [exec_ret, State.setHart_map (State.readAll_cur hc hb.2) fun h => { h with shadow := rest, pc := x }]
  refine State.finish_jumpBegin_ok (F := fun u => { u with hart := { u.hart with shadow := rest, pc := x } }) hb hc (fun _ => rfl) ?_ 1
  have hu (f : Stream → Stream) : (s.updStrm core k f).cur = .stream core k := hc
  have hd : (s.strm core k).hart.shadow.drop 1 = rest := by rw [← State.hart_stream hc, hs]; rfl
  rw [List.getD_cons_zero, State.returnTo, h]
  simp only [State.targetOk_reaches hc hr]
  rw [State.shadowPop_stream hc, State.setPc_stream (hu _), State.updStrm_updStrm]
  exact congrArg Except.ok (State.updStrm_congr (by rw [hd]))

theorem exec_ret_refuses (h : s.returnCase x false = none) : refuses (.ret g a) s core x :=
  State.refuses_of hc fun act he ha => by
    rw [exec_ret, State.finish_jumpBegin_error hb (a := act) (by simp [State.returnTo, h, he]) ha]

end

/-! ## Collecting calls (R86, R87, R240) -/

section

variable {s : State} {core : Nat} {k : StreamId} (hc : s.cur = .stream core k)

theorem State.collectTo_full (h : s.shadowRoom ≤ s.hart.shadow.length) (t : Word) : s.collectTo t = .error (trapOf cCINT 0 1 s) := if_pos h

section

variable (hr : s.hart.shadow.length < s.shadowRoom)

include hr

theorem State.collectTo_deep (h : 4 ≤ s.me.lists.opened.length) (t : Word) : s.collectTo t = .error (trapOf cEFSYNC 2 0 s) := by
  rw [State.collectTo, if_neg (Nat.not_le.mpr hr), if_pos h]

variable (ho : s.me.lists.opened.length < 4)

include ho

theorem State.collectTo_error {t : Word} {a : Act} (h : s.targetOk t = .error a) : s.collectTo t = .error a := by
  simp [State.collectTo, Nat.not_le.mpr hr, Nat.not_le.mpr ho, h]

include hc

theorem State.collectTo_noSlot {t : Word} (h : reaches s core t) (hf : s.me.lists.freeSlot = none) :
    s.collectTo t = .error (trapOf cEFCAP 1 0 s) := by
  simp [State.collectTo, Nat.not_le.mpr hr, Nat.not_le.mpr ho, State.targetOk_reaches hc h, hf]

/-- What a collecting call to t does of its stream: a marked call, and a level opened on a slot. -/
def Stream.collected (s : State) (n : Nat) (t : Word) (u : Stream) : Stream :=
  { u.called s true t with lists := u.lists.openLevel n }

omit hr ho hc in
theorem Stream.collected_dqe (s : State) (n : Nat) (t : Word) (u : Stream) : u.dqe.collected s n t = (u.collected s n t).dqe := by
  simp [Stream.collected, Stream.called, Stream.dqe, Hart.put]

theorem State.collectTo_reaches {t : Word} (h : reaches s core t) {n : Nat} (hf : s.me.lists.freeSlot = some n) :
    s.collectTo t = .ok (s.updStrm core k (Stream.collected s n t)) := by
  have hu (f : Stream → Stream) : (s.updStrm core k f).cur = .stream core k := hc
  simp only [State.collectTo, Nat.not_le.mpr hr, Nat.not_le.mpr ho, if_false, State.targetOk_reaches hc h, hf]
  rw [State.shadowPush_stream hc, State.setHart_map (hu _) (Hart.put · 1 s.link), State.updStrm_updStrm, State.updLists_stream (hu _),
    State.updStrm_updStrm, State.setPc_stream (hu _), State.updStrm_updStrm, State.link_stream hc]
  congr 1
  exact State.updStrm_congr (by simp [Stream.collected, Stream.called, Hart.put, State.hart_stream hc])

end

include hc

/-- What a collecting call does, from the state s0 in which its sources have been popped. -/
theorem State.entersLevel_of {i : Instr} {g : Guard} {srcs : List XReg} {vs : List Word} {s0 : State} {t : Word}
    {f : List Word → Except Act State} (hb : s.begins g srcs [1] vs s0)
    (he : exec i s = finish 1 (s.jumpBegin g srcs [1] f)) (hf : f vs = s.collectTo t) : entersLevel i s s0 core t := by
  have hc0 := State.readAll_cur hc hb.2
  refine ⟨fun n hr ho h hn => ?_, fun hr => ?_, fun hr ho => ?_, fun hr ho => State.refuses_of hc (n := 1) fun a h ha => ?_, fun hr ho h hn => ?_⟩
  · have hu (f : Stream → Stream) : (s0.updStrm core k f).cur = .stream core k := hc0
    rw [he, State.updMe_stream hc0, State.setHart_stream (hu _), State.updStrm_updStrm,
      State.updStrm_congr (g := Stream.collected s n t) (by simp [Stream.collected, Stream.called, State.hart_stream hc0])]
    exact State.finish_jumpBegin_ok hb hc (Stream.collected_dqe s n t) (hf.trans (State.collectTo_reaches hc hr ho h hn)) 1
  · rw [he, State.finish_jumpBegin_error hb (hf.trans (State.collectTo_full hr t)) nofun]
    rfl
  · rw [he, State.finish_jumpBegin_error hb (hf.trans (State.collectTo_deep hr ho t)) nofun]
    rfl
  · rw [he, State.finish_jumpBegin_error hb (hf.trans (State.collectTo_error hr ho h)) ha]
  · rw [he, State.finish_jumpBegin_error hb (hf.trans (State.collectTo_noSlot hc hr ho h hn)) nofun]
    rfl

end

/-! ## The return from a handler (R104) -/

section

variable {s : State} {core : Nat} {k : StreamId} (hc : s.cur = .stream core k)

include hc

theorem exec_tret_outside (g : Guard) (h : tcauseIn (s.strm core k).tcause = false) : exec (.tret g) s = .next (s.take ⟨0x02, 0, 0⟩) := by
  change finish 1 (actTret g s) = _
  simp [actTret, State.me_stream hc, h, illop, DecodeTrap.cause]

theorem exec_tretSkip_outside (g : Guard) (h : tcauseIn (s.strm core k).tcause = false) :
    exec (.tretSkip g) s = .next (s.take ⟨0x02, 0, 0⟩) := by
  change finish 1 (actTretSkip g s) = _
  simp [actTretSkip, State.me_stream hc, h, illop, DecodeTrap.cause]

/-- What TRET does of its stream. -/
def Stream.returned (u : Stream) : Stream :=
  { u with tcause := setBit u.tcause 63 false, hart := { u.hart with prc := u.tprc, pc := u.tepc } }

/-- The register words of a handler's return. -/
theorem State.returned_stream : (s.updMe fun x => { x with tcause := setBit x.tcause 63 false }).setHart
    { s.hart with prc := s.me.tprc, pc := s.me.tepc } = s.updStrm core k Stream.returned := by
  have hu (f : Stream → Stream) : (s.updStrm core k f).cur = .stream core k := hc
  rw [State.updMe_stream hc, State.setHart_stream (hu _), State.updStrm_updStrm]
  exact State.updStrm_congr (by simp [Stream.returned, State.hart_stream hc, State.me_stream hc])

section

variable {g : Guard} (hg : s.guardOn g = true) (hi : tcauseIn (s.strm core k).tcause = true)

include hg hi

theorem exec_tret_inside : exec (.tret g) s = .next (s.updStrm core k Stream.returned).wake := by
  change finish 1 (actTret g s) = _
  rw [← State.returned_stream hc]
  simp [actTret, State.onStation_stream hc, State.me_stream hc, hi, hg]

theorem exec_tretSkip_call (h : (s.strm core k).tcause.setWidth 8 = cUSER ∨ (s.strm core k).tcause.setWidth 8 = cSYSC) :
    exec (.tretSkip g) s = .next (s.updStrm core k Stream.returned).wake := by
  change finish 1 (actTretSkip g s) = _
  rw [← State.returned_stream hc]
  simp [actTretSkip, State.onStation_stream hc, State.me_stream hc, hi, hg, h]

theorem exec_tretSkip_other (h : ¬((s.strm core k).tcause.setWidth 8 = cUSER ∨ (s.strm core k).tcause.setWidth 8 = cSYSC)) :
    let s2 := (s.updStrm core k fun x => { x with tcause := setBit x.tcause 63 false }).dropHeld (s.strm core k).tepc
    exec (.tretSkip g) s = .next (s2.setHart
      { s2.hart with prc := 0, pc := (s.strm core k).tepc + BitVec.ofNat 64 (s.unitWords (s.strm core k).tepc) }).wake := by
  change finish 1 (actTretSkip g s) = _
  rw [← State.updMe_stream hc]
  simp only [actTretSkip, State.onStation_stream hc, State.me_stream hc, hi, hg, h, if_false, Bool.not_true, Bool.or_false, Bool.false_eq_true,
    finish_jump]

end

/-- The slots dropped change nothing but queues and the STAT of the acting stream. -/
theorem State.dropHeld_keeps (hcore : core < 512) (pc : Word) : (s.dropHeld pc).cur = .stream core k ∧
    (∃ st, (s.dropHeld pc).strm core k = { s.strm core k with hart := { (s.strm core k).hart with stat := st } }) ∧
    ∀ c, c ≠ core → (s.dropHeld pc).core c = s.core c := by
  unfold State.dropHeld
  split
  · exact ⟨hc, ⟨_, rfl⟩, fun _ _ => rfl⟩
  · refine List.foldlRecOn (motive := fun u : State => u.cur = .stream core k ∧
      (∃ st, u.strm core k = { s.strm core k with hart := { (s.strm core k).hart with stat := st } }) ∧
      ∀ c, c ≠ core → u.core c = s.core c) _ _ ⟨hc, ⟨_, rfl⟩, fun _ _ => rfl⟩ fun u ⟨hu, ⟨st, hst⟩, hn⟩ q _ => ?_
    dsimp only
    split
    · have hd (d : DataQueue) : (u.setDq q d).cur = .stream core k := hu
      have hq (d : DataQueue) : (u.setDq q d).strm core k = u.strm core k :=
        State.updCore_strm_of (fun j => by cases j <;> rfl) core k
      rw [State.setStat_stream (hd _)]
      refine ⟨hu, ⟨setBit st statDQE true, ?_⟩, fun c hne => ?_⟩
      · rw [State.strm_updStrm_same hcore, hq, hst]
      · rw [State.core_updStrm_ne hne, State.setDq, State.curCore_stream hu, State.core_updCore_ne hne, hn c hne]
    · exact ⟨hu, ⟨st, hst⟩, hn⟩

end

theorem State.core_wake_ne {s : State} {core c : Nat} {k : StreamId} (hc : s.cur = .stream core k) (h : c ≠ core) :
    s.wake.core c = s.core c := by rw [State.wake_stream hc, State.core_updStrm_ne h]

theorem State.strm_wake {s : State} {core : Nat} {k : StreamId} (hcore : core < 512) (hc : s.cur = .stream core k) :
    s.wake.strm core k =
      { s.strm core k with st := if (s.strm core k).st = .wait then .run else (s.strm core k).st, waiting := none } := by
  rw [State.wake_stream hc, State.strm_updStrm_same hcore]

end Sys2Proof.Machine

namespace Sys2Proof.Proofs

open Machine Statements

/-- Settles O11: inside a handler the words are the return and its skip, outside they are unassigned. -/
theorem trapReturn : Obligations.TrapReturn := by
  refine ⟨fun g s core k hcore hc hg hi => ?_, fun g s core k hcore hc hg hi => ?_,
    fun g s core k hc hi => ⟨exec_tret_outside hc g hi, exec_tretSkip_outside hc g hi⟩⟩
  · have hu : (s.updStrm core k Stream.returned).cur = .stream core k := hc
    refine ⟨_, exec_tret_inside hc hg hi, ?_⟩
    rw [State.strm_wake hcore hu, State.strm_updStrm_same hcore, State.hart_stream hc]
    exact ⟨rfl, rfl, rfl, fun c hne => by rw [State.core_wake_ne hu hne, State.core_updStrm_ne hne]⟩
  · by_cases h : (s.strm core k).tcause.setWidth 8 = cUSER ∨ (s.strm core k).tcause.setWidth 8 = cSYSC
    · have hu : (s.updStrm core k Stream.returned).cur = .stream core k := hc
      refine ⟨_, exec_tretSkip_call hc hg hi h, ?_⟩
      rw [State.strm_wake hcore hu, State.strm_updStrm_same hcore, State.hart_stream hc]
      exact ⟨rfl, fun _ => ⟨rfl, rfl⟩, fun h1 h2 => absurd h (not_or.mpr ⟨h1, h2⟩), rfl, rfl,
        fun c hne => by rw [State.core_wake_ne hu hne, State.core_updStrm_ne hne]⟩
    · have hs1 : (s.updStrm core k fun x => { x with tcause := setBit x.tcause 63 false }).cur = .stream core k := hc
      obtain ⟨h2, ⟨st, hst⟩, hn⟩ := State.dropHeld_keeps hs1 hcore (s.strm core k).tepc
      rw [State.strm_updStrm_same hcore] at hst
      refine ⟨_, exec_tretSkip_other hc hg hi h, ?_⟩
      have h3 (hh : Hart) : (State.setHart ((s.updStrm core k fun x => { x with tcause := setBit x.tcause 63 false }).dropHeld
        (s.strm core k).tepc) hh).cur = .stream core k := (State.setHart_cur _ _).trans h2
      rw [State.strm_wake hcore (h3 _), State.setHart_stream h2, State.strm_updStrm_same hcore, State.hart_stream h2, hst,
        State.hart_stream hc]
      refine ⟨rfl, fun h1 => absurd h1 h, fun _ _ => ⟨rfl, rfl⟩, rfl, rfl, fun c hne => ?_⟩
      rw [State.core_wake_ne (by exact h2) hne, State.core_updStrm_ne hne, hn c hne, State.core_updStrm_ne hne]

theorem returns : returnsPart := by
  refine fun g a s s1 core k x hc hb => ⟨fun h => exec_ret_case hb (State.returnCase_nil h x false), fun e rest hs =>
    ⟨fun hm => exec_ret_case hb (State.returnCase_marked hs hm x), fun hm hx => exec_ret_case hb (State.returnCase_other hs hm ?_),
      fun hm hx hr => exec_ret_reaches hc hb hs (State.returnCase_none hs hm ?_) hr,
      fun hm hx => exec_ret_refuses hc hb (State.returnCase_none hs hm ?_)⟩⟩
  all_goals rwa [setBit_of_getLsbD (by decide) hm]

end Sys2Proof.Proofs
end
section
/-! SUPPORT. What memory, reports, walks and translations change, said once: a property that stands under their few kinds of updates stands
through a home access, a walk and a located access (R316 to R323, R346, R365). -/

namespace Sys2Proof.Machine

/-- A property of states that stands when memory, its errors, the events and the die tables change, when a context faults, when a partition
is marked fenced or counts an event, and when a translation is cached or asked of the host. -/
structure MemClosed (P : State → Prop) : Prop where
  mem : ∀ {s t : State}, P s →
    t = { s with
      hbm := t.hbm, l2 := t.l2, badHbm := t.badHbm, slices := t.slices, tick := t.tick, counts := t.counts, errlog := t.errlog,
      dies := t.dies, events := t.events, heldEvents := t.heldEvents } → P t
  fault : ∀ {s : State} {c : Nat} {t : Option Trap}, P s → P (s.contextFault c t)
  part : ∀ {s : State} {p : Nat} {f : Partition → Partition}, P s →
    (∀ x, f x = { x with pstat := (f x).pstat, overflow := (f x).overflow }) → P (s.updPart p f)
  tlb : ∀ {s : State} {cl : Nat} {f : List TlbEntry → List TlbEntry}, P s → P (s.updCluster cl fun c => { c with tlb := f c.tlb })
  asks : ∀ {s : State} {c : Nat} {f : Context → Context}, P s →
    (∀ x, f x = { x with ats := (f x).ats, pri := (f x).pri, hostRefused := (f x).hostRefused }) → P (s.updCtx c f)

namespace MemClosed

variable {P : State → Prop} (C : MemClosed P) {s : State}

include C

omit C in
theorem foldl {α : Type} {f : State → α → State} {l : List α} (hf : ∀ s a, P s → P (f s a)) (h : P s) : P (l.foldl f s) :=
  List.foldlRecOn l f h fun s h a _ => hf s a h

omit C in
theorem snd_ite {α : Type} {a b : α × State} (ha : P a.2) (hb : P b.2) {p : Prop} [Decidable p] : P (if p then a else b).2 := by
  split
  · exact ha
  · exact hb

/-! ### Reports -/

theorem raise (h : P s) {e : Event} : P (s.raise e) := by
  unfold State.raise
  split
  · exact C.mem h rfl
  · split
    · exact C.part h fun _ => rfl
    · exact C.mem h rfl

theorem reportError (h : P s) {p src nc owner dirty sl way line} : P (s.reportError p src nc owner dirty sl way line) := C.raise h

theorem reportFault (h : P s) {p : Nat} : P (s.reportFault p) := C.raise (C.mem h rfl)

theorem reportLine (h : P s) {src line l} : P (s.reportLine src line l) := by
  unfold State.reportLine
  split
  · exact C.reportError h
  · exact h

theorem reportTag (h : P s) {line l} : P (s.reportTag line l) := by
  unfold State.reportTag
  split
  · exact C.reportError h
  · exact h

theorem reportPoison (h : P s) {line ctx} : P (s.reportPoison line ctx) := by
  unfold State.reportPoison
  split
  · exact h
  · split
    · exact C.reportError h
    · exact h

/-! ### Lines -/

theorem setL2 (h : P s) {line l} : P (s.setL2 line l) := C.mem h rfl

theorem dropL2 (h : P s) {line} : P (s.dropL2 line) := C.mem h rfl

theorem countErr (h : P s) {f unc} : P (s.countErr f unc) := C.mem h rfl

theorem updSlice (h : P s) {n f} : P (s.updSlice n f) := C.mem h rfl

theorem loseLine (h : P s) {line l} : P (s.loseLine line l) := by
  refine C.countErr (C.updSlice ?_)
  split
  · exact C.reportTag (C.dropL2 h)
  · exact C.reportLine (C.dropL2 h)

theorem putLine (h : P s) {line l} : P (s.putLine line l) := by
  have hm (m : Memory) : P { s with hbm := m } := C.mem h rfl
  have hb (m : Memory) (b : List Nat) : P { s with hbm := m, badHbm := b } := C.mem h rfl
  unfold State.putLine
  split
  · exact hm _
  · exact hb _ _

theorem cleanOne (h : P s) {line} : P (s.cleanOne line).2 := by
  unfold State.cleanOne
  split
  · exact h
  · split
    · exact C.loseLine h
    · split
      · exact h
      · split
        · exact C.loseLine h
        · exact C.setL2 (C.putLine h)
        · exact C.countErr (C.setL2 (C.putLine h))

theorem fencePart (h : P s) {p} : P (s.fencePart p) := by
  refine foldl (fun s c h => ?_) (C.part (f := fun x => { x with pstat := 3 }) h fun _ => rfl)
  split
  · exact C.fault h
  · exact h

theorem fenceHome (h : P s) {sl} : P (s.fenceHome sl) := by
  have hl (l : List Nat) (f) : P (l.foldl (fun s ln => ((s.cleanOne ln).2).dropL2 ln) (s.updSlice sl f)) :=
    foldl (fun _ _ h => C.dropL2 (C.cleanOne h)) (C.updSlice h)
  unfold State.fenceHome
  dsimp only
  split
  · exact hl _ _
  · split
    · exact C.fencePart (hl _ _)
    · exact hl _ _

theorem lose (h : P s) {line l} : P (s.lose line l) := by
  unfold State.lose
  dsimp only
  split
  · exact C.fenceHome (C.loseLine h)
  · exact C.loseLine h

theorem clean (h : P s) {line} : P (s.clean line).2 := by
  unfold State.clean
  split
  · split
    · exact C.lose h
    · exact C.cleanOne h
  · exact h

theorem evict (h : P s) {line} : P (s.evict line) := C.dropL2 (C.clean h)

theorem makeRoom (h : P s) {sl way} : P (s.makeRoom sl way) := by
  unfold State.makeRoom
  dsimp only
  split
  · exact h
  · split
    · exact h
    · split
      · exact C.evict h
      · exact h

theorem fill (h : P s) {line own} : P (s.fill line own) := by
  refine C.setL2 ?_
  split
  · exact C.countErr (C.makeRoom h)
  · exact C.makeRoom h

theorem homeRead (h : P s) {line own} : Yields (fun e => P e.2) P (s.homeRead line own) := by
  unfold State.homeRead
  split
  · exact h
  · split
    · exact Yields.ite (C.fill h) (C.fill h)
    · split
      · exact Yields.ite h h
      · exact C.lose h
      · exact Yields.ite (C.lose h) (Yields.ite (C.fill (C.countErr (C.reportLine (C.dropL2 h)))) (C.fill (C.countErr (C.reportLine (C.dropL2 h)))))
      · exact Yields.ite (C.countErr (C.setL2 h)) (C.countErr (C.setL2 h))

theorem lookLine (h : P s) {line own} : Yields (fun e => P e.2) P (s.lookLine line own) := Yields.ite (C.homeRead h) h

theorem homeWrite (h : P s) {line own bs} : Yields (fun e => P e.2) P (s.homeWrite line own bs) := by
  have hfill : ∀ {s : State}, P s → P (s.fill line own) := fun h => C.fill h
  have hclean : ∀ {s : State}, P s → P (s.clean line).2 := fun h => C.clean h
  have hset : ∀ {s : State} {l}, P s → P (s.setL2 line l) := fun h => C.setL2 h
  unfold State.homeWrite
  grind [Yields.ok_iff, Yields.error_iff]

theorem linesPut {bs : List Byte} {a : Nat} {ls : List Nat} : ∀ {s : State}, P s → Yields (fun e => P e.2) P (s.linesPut a bs ls) := by
  induction ls with
  | nil => exact id
  | cons line l ih =>
    intro s h
    rw [State.linesPut]
    split
    · exact ih h
    · split
      · next hw => exact ih ((C.homeWrite h).ok hw)
      · next hw => exact (C.homeWrite h).error hw

/-! ### Walks -/

theorem pteCopy (h : P s) {a} : P (s.pteCopy a).2 := by
  unfold State.pteCopy
  split
  · next hr => exact (C.homeRead h).ok hr
  · next hr => exact (C.homeRead h).error hr

theorem mendTable (h : P s) {part a} : P (s.mendTable part a) := by
  have h1 : P ((s.logErr (.table part a)).reportFault part) := C.reportFault (C.mem h rfl)
  unfold State.mendTable
  dsimp only
  split
  · exact h1
  · exact C.setL2 h1

theorem pteRead (h : P s) {part a} : P (s.pteRead part a).2 := by
  have h1 : P (s.pteCopy a).2 := C.pteCopy h
  unfold State.pteRead
  split
  · next hp => rwa [hp] at h1
  · next s1 hp =>
    rw [hp] at h1
    split
    · exact h1
    · have h2 : P (s1.pteCopy (a + (s.part part).mirdelta)).2 := C.pteCopy h1
      split
      · next hq => rw [hq] at h2; exact C.mendTable h2
      · next hq => rwa [hq] at h2

theorem walkFrom {die part va : Nat} {ls : List WalkLevel} : ∀ {s : State} {base : Nat}, P s → P (s.walkFrom die part va base ls).2 := by
  induction ls with
  | nil => exact id
  | cons l rest ih =>
    intro s base h
    unfold State.walkFrom
    refine snd_ite h (snd_ite h (snd_ite h ?_))
    have h1 := C.pteRead (part := part) (a := base + 8 * (va / 2 ^ l.shift % 2 ^ l.bits)) h
    split
    · next hp => rwa [hp] at h1
    · next hp => rw [hp] at h1; exact C.mem h1 rfl
    · next s1 hp =>
      replace h1 : P s1 := by rwa [hp] at h1
      exact snd_ite h1 (snd_ite h1 (snd_ite (snd_ite h1 (ih h1)) (snd_ite h1 (snd_ite (snd_ite h1 h1) h1))))

theorem walk (h : P s) {die ctx va : Nat} : P (s.walk die ctx va).2 := C.walkFrom h

/-! ### Translations -/

theorem hostAsk (h : P s) {cl ctx va : Nat} : P (s.hostAsk cl ctx va).2 := by
  unfold State.hostAsk
  refine snd_ite ?_ (snd_ite h (snd_ite h ?_))
  all_goals
    dsimp only
    exact C.asks h fun _ => rfl

theorem tlbFill (h : P s) {cl ctx va : Nat} {w : WalkEnd} : P (s.tlbFill cl ctx va w) := by
  unfold State.tlbFill
  split
  · change P (State.updCluster _ _ _)
    exact C.tlb (f := fun l => (_ :: l).take 2048) h
  all_goals exact h

theorem hostLacks (h : P s) {cl ctx va : Nat} {write : Bool} : P (s.hostLacks cl ctx va write).2 := by
  have h1 := C.walk (die := cl / 16) (ctx := ctx) (va := va) h
  unfold State.hostLacks
  split
  · next s1 hw =>
    replace h1 : P s1 := by rwa [hw] at h1
    refine snd_ite h1 (snd_ite (C.hostAsk (C.tlb (f := List.filter _) h1)) ?_)
    dsimp only
    exact C.asks (C.tlb (f := List.filter _) h1) fun _ => rfl
  · next hw => rwa [hw] at h1
  · next hw => rwa [hw] at h1
  · next hw => rwa [hw] at h1

theorem startWalk (h : P s) {cl ctx va : Nat} : P (s.startWalk cl ctx va) := by
  unfold State.startWalk
  dsimp only
  split
  · exact h
  · split
    · exact C.mem h rfl
    · exact h

theorem translate (h : P s) {cl ctx va : Nat} {write : Bool} : P (s.translate cl ctx va write).2 := by
  have h1 := C.walk (die := cl / 16) (ctx := ctx) (va := va) h
  unfold State.translate
  split
  · exact snd_ite (C.hostLacks h) h
  · refine snd_ite (C.startWalk h) ?_
    split
    · next hw => rwa [hw] at h1
    · next hw => rwa [hw] at h1
    · next s1 hw =>
      replace h1 : P s1 := by rwa [hw] at h1
      exact snd_ite h1 (C.hostAsk h1)
    · next s1 hw =>
      replace h1 : P s1 := by rwa [hw] at h1
      dsimp only
      exact C.tlbFill h1

end MemClosed

/-- The state that an end carries. -/
def Act.state : Act → State
  | .done s => s | .jump s => s | .trap _ s => s | .wait _ s => s

theorem MemClosed.locate {P : State → Prop} (C : MemClosed P) {s : State} (h : P s) {cl ctx va : Nat} {write : Bool} :
    Yields (fun a => P a.state) (fun r => P r.2) (s.locate cl ctx va write) := by
  have h1 := C.translate (cl := cl) (ctx := ctx) (va := va) (write := write) h
  unfold State.locate
  split
  · next hw => rwa [hw] at h1
  · next hw => rwa [hw] at h1
  · next hw => rwa [hw] at h1
  · next hw => rwa [hw] at h1
  · next hw => rw [hw] at h1; exact Yields.ite h1 h1
  · next hw =>
    rw [hw] at h1
    refine Yields.ite h1 ?_
    split
    · exact Yields.ite h1 (Yields.ite h1 h1)
    · split
      · exact h1
      · exact h1
    · exact h1
    · exact h1
    · exact h1

end Sys2Proof.Machine
end
section
/-! SUPPORT. The close of a collecting level (R87, R89, R238 to R241, R243): what reading the arena leaves of the stream that reads. -/

namespace Sys2Proof.Machine

open Host (Outcome)
open Statements

/-! ## Pops of a state with the same queues (R92) -/

section

variable {s t : State} {core : Nat} {k : StreamId} (hcore : core < 512)

theorem State.dqOf_stream (hc : s.cur = .stream core k) (q : Nat) : s.dqOf q = (s.core core).dq.getD q dqReset := by
  rw [State.dqOf, State.curCore_stream hc]

theorem State.setDq_stream (hc : s.cur = .stream core k) (q : Nat) (d : DataQueue) :
    s.setDq q d = s.updCore core fun c => { c with dq := c.dq.setIfInBounds q d } := by
  rw [State.setDq, State.curCore_stream hc]

include hcore

/-- What a pop leaves of the stream, and of the queues of its core. -/
theorem State.popDq_keeps (hc : s.cur = .stream core k) {q : Nat} {v : Word} {s1 : State} (h : s.popDq q = .ok (v, s1)) :
    s1.cur = .stream core k ∧ (∃ st, s1.strm core k = { s.strm core k with hart := { (s.strm core k).hart with stat := st } }) ∧
      ∃ d e, (s.dqOf q).pop = some (v, d, e) ∧ (s1.core core).dq = (s.core core).dq.setIfInBounds q d := by
  unfold State.popDq at h
  split at h
  · exact absurd h nofun
  · next v' d e hp =>
    obtain ⟨rfl, rfl⟩ := Prod.mk.inj (Except.ok.inj h)
    have hd : (s.setDq q d).cur = .stream core k := hc
    have hst : (s.setDq q d).strm core k = s.strm core k := State.updCore_strm_of (fun j => by cases j <;> rfl) core k
    have hdq : ((s.setDq q d).core core).dq = (s.core core).dq.setIfInBounds q d := by
      rw [State.setDq_stream hc, State.core_updCore_same hcore]
    split
    · rw [State.setStat_stream hd]
      refine ⟨hd, ⟨_, by rw [State.strm_updStrm_same hcore, hst]⟩, d, e, hp, ?_⟩
      rw [State.core_updStrm_same hcore, ← hdq]
      cases k <;> rfl
    · exact ⟨hd, ⟨_, hst⟩, d, e, hp, hdq⟩

/-- Sources that can be popped in a state can be in any with the same queues, and their pops change nothing else of the stream than STAT. -/
theorem State.readAll_of_queues {rs : List XReg} : ∀ {s t s1 : State} {vs : List Word}, s.cur = .stream core k → t.cur = .stream core k →
    (t.core core).dq = (s.core core).dq → s.readAll rs = .ok (vs, s1) →
    ∃ ws t1, t.readAll rs = .ok (ws, t1) ∧ t1.cur = .stream core k ∧
      ∃ st, t1.strm core k = { t.strm core k with hart := { (t.strm core k).hart with stat := st } } := by
  induction rs with
  | nil => exact fun _ ht _ _ => ⟨[], _, rfl, ht, _, rfl⟩
  | cons r rs ih =>
    intro s t s1 vs hs ht hq h
    have hp : t.port? r = s.port? r := State.port?_of_cur (ht.trans hs.symm) r
    cases hr : s.port? r with
    | none =>
      rw [State.readAll_cons_plain hr] at h
      cases hs' : s.readAll rs with
      | error w => rw [hs'] at h; exact absurd h nofun
      | ok x =>
        obtain ⟨ws, t1, hw, h1⟩ := ih hs ht hq hs'
        exact ⟨_, t1, by rw [State.readAll_cons_plain (hp.trans hr), hw]; rfl, h1⟩
    | some q =>
      cases hpop : s.popDq q with
      | error w => simp [State.readAll, hr, hpop] at h
      | ok y =>
        obtain ⟨v, u⟩ := y
        obtain ⟨hu, -, d, e, hde, hdq⟩ := State.popDq_keeps hcore hs hpop
        have hpt : t.popDq q = .ok (v, if e then (t.setDq q d).setStat statDQE else t.setDq q d) := by
          rw [State.popDq, State.dqOf_stream ht, hq, ← State.dqOf_stream hs, hde]
        obtain ⟨ht1, ⟨st, hst⟩, d', e', hde', hdq'⟩ := State.popDq_keeps hcore ht hpt
        have hdd : d' = d := by
          rw [State.dqOf_stream ht, hq, ← State.dqOf_stream hs, hde] at hde'
          exact congrArg (fun x => x.2.1) (Option.some.inj hde').symm
        rw [State.readAll_cons_port hr hpop] at h
        cases hu' : u.readAll rs with
        | error w => rw [hu'] at h; exact absurd h nofun
        | ok x =>
          obtain ⟨ws, t1, hw, h1, st', hst'⟩ := ih hu ht1 (by rw [hdq', hdq, hq, hdd]) hu'
          exact ⟨_, t1, by rw [State.readAll_cons_port (hp.trans hr) hpt, hw]; rfl, h1, st', by rw [hst', hst]⟩

end

/-! ## The arena read (R243, R244) -/

/-- Stream k of a core acts, and but for the releases that it has read from the cores are as in r. -/
def State.SeenKept (r : State) (core : Nat) (k : StreamId) (s : State) : Prop :=
  s.cur = .stream core k ∧ ∃ l, s.cores = (r.updStrm core k fun t => { t with seen := l }).cores

theorem State.seenKept_refl {s : State} {core : Nat} {k : StreamId} (hc : s.cur = .stream core k) : s.SeenKept core k s := by
  refine ⟨hc, (s.strm core k).seen, ?_⟩
  change s.cores = s.cores.setIfInBounds core ((s.core core).setStrm k { (s.core core).strm k with seen := ((s.core core).strm k).seen })
  have h : (s.core core).setStrm k { (s.core core).strm k with seen := ((s.core core).strm k).seen } = s.core core := by
    cases k <;> rfl
  rw [h]
  apply Vector.ext
  intro i hi
  rw [Vector.getElem_setIfInBounds]
  split
  · next he => subst he; simp [State.core, Vector.getD, hi]
  · rfl

namespace State.SeenKept

variable {r s : State} {core : Nat} {k : StreamId}

theorem closed : MemClosed (r.SeenKept core k) where
  mem h ht := by rw [ht]; exact h
  fault h := h
  part h _ := h
  tlb h := h
  asks h _ := h

theorem strm (h : r.SeenKept core k s) (hcore : core < 512) : ∃ l, s.strm core k = { r.strm core k with seen := l } := by
  obtain ⟨-, l, hl⟩ := h
  refine ⟨l, ?_⟩
  rw [← State.strm_updStrm_same hcore r k fun t => { t with seen := l }]
  unfold State.strm State.core
  rw [hl]

theorem dq (h : r.SeenKept core k s) : (s.core core).dq = (r.core core).dq := by
  obtain ⟨-, l, hl⟩ := h
  have hq : ((r.updStrm core k fun t => { t with seen := l }).core core).dq = (r.core core).dq :=
    State.core_updCore_of Core.dq (by cases k <;> rfl) core
  rw [← hq]
  unfold State.core
  rw [hl]

theorem readOrder_weak (h : r.SeenKept core k s) {a n : Nat} : r.SeenKept core k (s.readOrder a n .weak) := by
  obtain ⟨hc, l, hl⟩ := h
  unfold State.readOrder State.orderOf State.noteSeen
  generalize (s.releasesAt a n).filter (fun r => !s.relSeen.contains r) = new
  dsimp only
  split
  · exact ⟨hc, l, hl⟩
  · refine ⟨by rw [State.setSeen, hc]; exact hc, s.relSeen ++ new, ?_⟩
    rw [State.setSeen, hc]
    have hr : (State.updStrm s core k fun t => { t with seen := s.relSeen ++ new }).cores =
      (State.updStrm (r.updStrm core k fun t => { t with seen := l }) core k fun t => { t with seen := s.relSeen ++ new }).cores := by
      unfold State.updStrm State.updCore State.setCore State.core
      rw [hl]
      rfl
    rw [hr, State.updStrm_updStrm]

theorem arenaLoc (h : r.SeenKept core k s) {off : Nat} {write : Bool} : Yields (fun _ => True) (fun x => r.SeenKept core k x.2) (s.arenaLoc off write) := by
  have hl := SeenKept.closed.locate (cl := s.curCl) (ctx := s.curCtx)
    (va := addr56 (s.me.lists.base + BitVec.ofNat 64 off)) (write := write) h
  unfold State.arenaLoc
  dsimp only
  refine Yields.ite (Yields.ite trivial (Yields.ite trivial h)) (Yields.ite trivial ?_)
  split
  · trivial
  · next hw => exact Yields.ite trivial (hl.ok hw)
  · exact Yields.ite trivial (Yields.ite trivial trivial)
  · trivial

theorem touch (h : r.SeenKept core k s) {loc : Loc} {va : Nat} : Yields (fun _ => True) (r.SeenKept core k) (s.touch loc va) := by
  unfold State.touch State.touchAs
  split
  · exact Yields.ite trivial h
  · exact h
  · refine Yields.ite trivial ?_
    split
    · next hr => exact (SeenKept.closed.homeRead h).ok hr
    · trivial
    · trivial

theorem arenaGet (h : r.SeenKept core k s) {off : Nat} : Yields (fun _ => True) (fun x => r.SeenKept core k x.2) (s.arenaGet off) := by
  unfold State.arenaGet
  refine Yields.bind h.arenaLoc fun x hx => ?_
  obtain ⟨l, s1⟩ := x
  cases l with
  | inl t =>
    refine Yields.bind (P := fun _ => True) ?_ fun _ _ => Yields.ite trivial hx.readOrder_weak
    exact Yields.ite trivial trivial
  | inr loc => exact Yields.bind hx.touch fun s2 h2 => h2.readOrder_weak

theorem arenaGets {n : Nat} : ∀ {s : State} {off : Nat}, r.SeenKept core k s →
    Yields (fun _ => True) (fun x => r.SeenKept core k x.2) (s.arenaGets off n) := by
  induction n with
  | zero => exact id
  | succ n ih =>
    intro s off h
    exact Yields.bind h.arenaGet fun x hx => Yields.bind (ih hx) fun y hy => hy

theorem arenaFrom {n : Nat} : ∀ {s : State} {i : Nat}, r.SeenKept core k s →
    Yields (fun _ => True) (fun x => r.SeenKept core k x.2) (s.arenaFrom i n) := by
  induction n with
  | zero => exact id
  | succ n ih =>
    intro s i h
    exact Yields.bind h.arenaGets fun x hx => Yields.bind (ih hx) fun y hy => hy

theorem arenaAll (h : r.SeenKept core k s) : Yields (fun _ => True) (fun x => r.SeenKept core k x.2) s.arenaAll := h.arenaFrom

end State.SeenKept

/-! ## RETC (R87, R241) -/

/-- What RETC does with its source's value. -/
def State.collectReturn (s : State) (x : Word) : Except Act State :=
  match s.returnCase x true with
  | some k => .error (trapOf cCINT 0 (BitVec.ofNat 64 k) s)
  | none =>
    if s.me.lists.opened.isEmpty then .error (trapOf cEFSYNC 3 0 s)
    else do
      let s0 ← s.targetOk x
      let (es, s1) ← s0.arenaAll
      let r := s1.me.lists.closeLevel es
      let s2 := (s1.updLists fun _ => r.2).shadowPop
      .ok ((s2.setHart (s2.hart.put 3 r.1)).setPc x)

theorem exec_retc (g : Guard) (a : XReg) (s : State) :
    exec (.retc g a) s = finish 1 (s.jumpBegin g [a] [3] fun vs => s.collectReturn (vs.getD 0 0)) := rfl

/-- What RETC does of its stream that reaches its target: the lists after, the handle in x3, the entry popped, the pc at the target. -/
def Stream.closed (r : Word × Lists) (x : Word) (u : Stream) : Stream :=
  { u with lists := r.2, hart := { u.hart.put 3 r.1 with shadow := u.hart.shadow.drop 1, pc := x } }

section

variable {s s1 : State} {core : Nat} {k : StreamId} {g : Guard} {a : XReg} {x : Word} (hc : s.cur = .stream core k)
  (hb : s.begins g [a] [3] [x] s1)

include hb

theorem exec_retc_error {t : Act} (h : s.collectReturn x = .error t) (ht : ∀ u, t ≠ .done u) : exec (.retc g a) s = finish 1 t := by
  rw [exec_retc, State.finish_jumpBegin_error hb (a := t) h ht]

theorem exec_retc_case {n : Nat} (h : s.returnCase x true = some n) :
    exec (.retc g a) s = .next (s.take ⟨0x09, 0, BitVec.ofNat 64 n⟩) :=
  exec_retc_error hb (t := trapOf cCINT 0 (BitVec.ofNat 64 n) s) (by simp [State.collectReturn, h]) nofun

variable (h : s.returnCase x true = none)

include h

theorem exec_retc_unopened (ho : s.me.lists.opened = []) : exec (.retc g a) s = .next (s.take ⟨0x26, 3, 0⟩) :=
  exec_retc_error hb (t := trapOf cEFSYNC 3 0 s) (by simp [State.collectReturn, h, ho]) nofun

variable (ho : s.me.lists.opened ≠ [])

include ho hc

theorem exec_retc_refuses : refuses (.retc g a) s core x :=
  State.refuses_of hc fun t he ht => exec_retc_error hb (by simp [State.collectReturn, h, ho, he, bind, Except.bind]) ht

/-- RETC that reaches its target and reads the arena. -/
theorem exec_retc_reaches (hcore : core < 512) (hr : reaches s core x) {es : List AEntry} {s2 : State} (ha : s.arenaAll = .ok (es, s2)) :
    ∃ t, exec (.retc g a) s = .next t ∧ t.pc = x ∧ t.hart.shadow = s.hart.shadow.drop 1 ∧
      t.me.lists = (s2.me.lists.closeLevel es).2 ∧ t.hart.get 3 = (s2.me.lists.closeLevel es).1 := by
  have hk : s.SeenKept core k s2 := (State.seenKept_refl hc).arenaAll.ok ha
  have h2 := hk.1
  have hu (f : Stream → Stream) : (s2.updStrm core k f).cur = .stream core k := h2
  have hact : s.collectReturn x = .ok (s2.updStrm core k (Stream.closed (s2.me.lists.closeLevel es) x)) := by
    have hne : ¬s.me.lists.opened.isEmpty = true := by rwa [List.isEmpty_iff]
    simp only [State.collectReturn, h, hne, State.targetOk_reaches hc hr, ha, bind, Except.bind]
    rw [State.updLists_stream h2, State.shadowPop_stream (hu _), State.updStrm_updStrm,
      State.setHart_map (hu _) (Hart.put · 3 (s2.me.lists.closeLevel es).1), State.updStrm_updStrm, State.setPc_stream (hu _),
      State.updStrm_updStrm]
    exact congrArg Except.ok (State.updStrm_congr (by simp [Stream.closed, Hart.put]))
  have hdq : ((s2.updStrm core k (Stream.closed (s2.me.lists.closeLevel es) x)).core core).dq = (s.core core).dq :=
    (State.core_updCore_of Core.dq (by cases k <;> rfl) core).trans hk.dq
  obtain ⟨ws, t, hw, ht, st, hst⟩ := State.readAll_of_queues hcore hc (hu _) hdq hb.2
  obtain ⟨l, hl⟩ := hk.strm hcore
  rw [State.strm_updStrm_same hcore] at hst
  have hwake : t.wake.cur = .stream core k := by rw [State.wake_stream ht]; exact ht
  refine ⟨t.wake, by rw [exec_retc, State.jumpBegin_ok hb (by exact hact) hw]; rfl, ?_⟩
  rw [State.pc, State.hart_stream hwake, State.me_stream hwake, State.strm_wake hcore ht, hst, State.hart_stream hc]
  refine ⟨rfl, by simp only [Stream.closed, show (s2.strm core k).hart = (s.strm core k).hart by rw [hl]] , rfl, ?_⟩
  simp [Stream.closed, Hart.put, Hart.get]

end

theorem State.arenaAll_none {s : State} (h : s.me.lists.used < 80) : s.arenaAll = .ok ([], s) := by
  rw [State.arenaAll, Nat.div_eq_of_lt h]
  rfl

/-- The innermost level of no entry closed: its slot is free. -/
theorem Lists.closeLevel_nil {l : Lists} {n : Nat} {rest : List Nat} (h : l.opened = n :: rest) :
    (l.closeLevel []).1 = 0 ∧ (l.closeLevel []).2.opened = rest ∧ ((l.closeLevel []).2.slot n).use = .free := by
  have hs (m : Lists) : (m.settle []).opened = m.opened ∧ (m.settle []).slots = m.slots := by
    unfold Lists.settle
    split
    · exact ⟨rfl, rfl⟩
    · exact ⟨rfl, rfl⟩
  have hc : l.closeLevel [] = (0, ({ l with opened := rest }.free n).settle []) := by simp [Lists.closeLevel, h, listOf]
  refine ⟨by rw [hc], by rw [hc, (hs _).1]; rfl, ?_⟩
  rw [hc, Lists.slot, (hs _).2, Lists.free, Lists.setSlot, getD_setIfInBounds]
  split
  · rfl
  · next hn =>
    have hge : ¬n < 64 := fun hlt => hn ⟨rfl, hlt⟩
    simp [Vector.getD, hge]

end Sys2Proof.Machine

namespace Sys2Proof.Proofs

open Machine Statements

theorem collectingCalls : collectingCallsPart := by
  refine ⟨fun g disp s core k hcore hc h => ?_, fun g a s s1 core k x hcore hc hb => ?_,
    fun g a s s1 core k x hc hb => ⟨fun h => exec_retc_case hb (State.returnCase_nil h x true), fun e rest hs =>
      ⟨fun hm => exec_retc_case hb (State.returnCase_unmarked hs hm x), fun hm hx => exec_retc_case hb (State.returnCase_other hs hm hx)⟩⟩,
    fun g a s s1 core k x e rest hcore hc hb hs he hx => ?_⟩
  · exact State.entersLevel_of hc (State.begins_of_clear h) rfl (congrArg s.collectTo (State.relTarget_stream hc disp))
  · exact State.entersLevel_of hc hb rfl rfl
  · have hm : e.getLsbD 63 = true := by rw [he, getLsbD_setBit x (by decide), if_pos rfl]
    have hn : s.returnCase x true = none := by
      refine State.returnCase_none hs hm (BitVec.eq_of_getLsbD_eq fun i _ => ?_)
      rw [he, getLsbD_setBit _ (by decide), getLsbD_setBit _ (by decide)]
      split
      · next h => rw [h, hx]
      · rfl
    have hd : s.hart.shadow.drop 1 = rest := by rw [hs]; rfl
    refine ⟨exec_retc_unopened hb hn, exec_retc_refuses hc hb hn, fun lv lvs ho hr => ⟨fun hu => ?_, fun es s2 ha => ?_⟩⟩
    · obtain ⟨t, h1, h2, h3, h4, h5⟩ := exec_retc_reaches hc hb hn (by simp [ho]) hcore hr (State.arenaAll_none hu)
      obtain ⟨c1, c2, c3⟩ := Lists.closeLevel_nil ho
      exact ⟨t, h1, h2, h3.trans hd, by rw [h4, c2], h5.trans c1, by rw [h4, c3]⟩
    · obtain ⟨t, h1, h2, h3, h4, h5⟩ := exec_retc_reaches hc hb hn (by simp [ho]) hcore hr ha
      exact ⟨t, h1, h2, h3.trans hd, h4, h5⟩

/-- Settles O13: what a call's and a return's target and shadow stack decide, and the close of a collecting level. -/
theorem callsAndReturns : Obligations.CallsAndReturns := ⟨calls, returns, collectingCalls⟩

end Sys2Proof.Proofs
end
section
/-! SUPPORT. The life of a stream, its data queues and bq (R81 to R84, R93, R95, R106). -/

namespace Sys2Proof.Machine

open Host (Outcome)
open Statements

/-! ## Code addresses and starts (R81, R85) -/

/-- A code address by its fields. -/
theorem codeAddr_fields (pc : Word) (e : BitVec 32) :
    codeAddr (codeSlot pc) (field e 29 0) = 0#4 ++ pc.extractLsb' 48 12 ++ 0#18 ++ e.extractLsb' 0 30 := by
  apply BitVec.eq_of_toNat_eq
  have h1 := (pc.extractLsb' 48 12).isLt
  have h2 := (e.extractLsb' 0 30).isLt
  have h3 : (0#4 ++ pc.extractLsb' 48 12).toNat = (pc.extractLsb' 48 12).toNat := by
    rw [BitVec.toNat_append]; simp
  have h4 : (0#4 ++ pc.extractLsb' 48 12 ++ 0#18).toNat = (pc.extractLsb' 48 12).toNat * 2 ^ 18 := by
    rw [BitVec.toNat_append, h3]; simp [Nat.shiftLeft_eq]
  rw [BitVec.toNat_append, h4, ← Nat.shiftLeft_add_eq_or_of_lt h2, Nat.shiftLeft_eq, codeAddr, BitVec.toNat_ofNat]
  change ((pc.extractLsb' 48 12).toNat * 2 ^ 48 + (e.extractLsb' 0 30).toNat) % 2 ^ 64 = _
  omega

theorem Lists.discard_slot (l : Lists) {n : Nat} (h : n < 64) (d : ListSlot) : (l.discard.slots.getD n d).use = .free := by
  rw [getD_eq, dif_pos h]
  simp only [Lists.discard, Vector.getElem_map]
  split
  · next hu => simpa using hu
  · rfl

theorem hartReset_pred {n : PReg} (h : n ≠ 0) (a : Word) : ({ hartReset with pc := a } : Hart).pred n = false := by
  have hn : (n == 0#3) = false := by simpa using h
  simp [Hart.pred, hartReset, hn]

/-! ## FORK (R81) -/

/-- A core with X, M and C started, at the addresses that at_ gives of a section. -/
def Core.forked (c : Core) (stamp : Nat) (ax am ac : Allot) (at_ : Nat → Word) : Core :=
  { c with
    a := { c.a with lists := c.a.lists.discard, bqAt := ⟨0, 0, []⟩ }
    x := startStream stamp c.x.w c.x.lists ax (at_ 1)
    m := startStream stamp c.m.w c.m.lists am (at_ 2)
    c := startStream stamp c.c.w c.c.lists ac (at_ 3)
    dq := c.dq.map DataQueue.cleared, bq := [], flags := coreReset.flags, v := coreReset.v, masks := coreReset.masks,
    z := coreReset.z, table := tableReset, back := backReset }

/-- The first word of a section of the slot that stream A runs from. -/
def State.sectionAt (s : State) (core k : Nat) : Word :=
  codeAddr (codeSlot s.pc) (field ((s.slotEntry (s.partOf core) (codeSlot s.pc)).streams.getD k 0) 29 0)

theorem codeSlot_eq (a : Word) : codeSlot a = (a.extractLsb' 48 12).toNat := rfl

theorem State.sectionAt_eq (s : State) (core k : Nat) : s.sectionAt core k = 0#4 ++ s.pc.extractLsb' 48 12 ++ 0#18 ++
    ((s.slotEntry (s.partOf core) (s.pc.extractLsb' 48 12).toNat).streams.getD k 0).extractLsb' 0 30 := by
  rw [State.sectionAt, codeAddr_fields, codeSlot_eq]

section

variable {g : Guard} {ax am ac : Allot} {s : State} {core : Nat} {k : StreamId} (hc : s.cur = .stream core k)

include hc

theorem exec_fork_busy (h : (s.core core).x.st ≠ .idle ∨ (s.core core).m.st ≠ .idle ∨ (s.core core).c.st ≠ .idle) :
    exec (.fork g ax am ac) s = .next (s.take ⟨0x02, 0, 0⟩) := by
  have hb : ((s.core core).x.st != .idle || (s.core core).m.st != .idle || (s.core core).c.st != .idle) = true := by
    simpa [or_assoc] using h
  change finish 1 (actFork g ax am ac s) = _
  simp only [actFork, State.curCore_stream hc, hb, if_true]
  rfl

variable (hx : (s.core core).x.st = .idle) (hm : (s.core core).m.st = .idle) (hk : (s.core core).c.st = .idle)

include hx hm hk

theorem exec_fork_off (hg : s.guardOn g = false) : exec (.fork g ax am ac) s = .next (s.advance 1) := by
  change finish 1 (actFork g ax am ac s) = _
  simp [actFork, State.curCore_stream hc, hx, hm, hk, hg]

theorem exec_fork_on (hg : s.guardOn g = true) : exec (.fork g ax am ac) s =
    .next (((s.updCore core fun c => c.forked s.stamp ax am ac (s.sectionAt core)).backMark core).advance 1) := by
  have hp : s.curPart = s.partOf core := by rw [State.curPart, State.curCore_stream hc]
  change finish 1 (actFork g ax am ac s) = _
  simp only [actFork, State.curCore_stream hc, hx, hm, hk, hg, hp]
  rfl

end

/-- What FORK leaves of its core, but for stream A and the backsight. -/
theorem State.core_forked {s : State} {core : Nat} (hcore : core < 512) (hc : s.cur = .stream core .A) (F : Core → Core) :
    ∃ a b, (((s.updCore core F).backMark core).advance 1).core core = { F (s.core core) with a := a, back := b } := by
  have hu : ((s.updCore core F).backMark core).cur = .stream core .A := hc
  rw [State.advance_stream hu, State.core_updStrm_same hcore, State.backMark, State.core_updCore_same hcore,
    State.core_updCore_same hcore]
  exact ⟨_, _, rfl⟩

/-! ## Ends of a stream (R82 to R84, R106) -/

/-- A stream one word on. -/
def Stream.stepped (t : Stream) : Stream :=
  { t with st := if t.st = .wait then .run else t.st, waiting := none, hart := { t.hart with pc := t.hart.pc + 1 } }

section

variable {g : Guard} {s : State} (hg : s.guardOn g = true)

include hg

theorem exec_rdv_on : exec (.rdv g) s = .next ((s.updMe fun t => { t with st := .arrived }).advance 1) := by
  change finish 1 (actRdv g s) = _
  rw [actRdv, if_pos hg]
  rfl

theorem exec_halt_stream {core : Nat} {k : StreamId} (hc : s.cur = .stream core k) :
    exec (.halt g) s = .next ((s.updMe fun t => { t with st := .halted }).advance 1) := by
  change finish 1 (actHalt g s) = _
  simp [actHalt, hg, hc]

theorem exec_halt_station {n : Nat} (hc : s.cur = .station n) : exec (.halt g) s = .next (s.endRun n).wake := by
  change finish 1 (actHalt g s) = _
  simp [actHalt, hg, hc]

variable (hy : s.hart.stat.getLsbD statYR = true)

include hy

theorem exec_yield_quiet (h : s.quiet = true) :
    exec (.yield g) s = .next ((s.updMe fun t => { t with st := .yielded, waiting := none }).advance 1) := by
  change finish 1 (actYield g s) = _
  rw [actYield, hg, hy, h]
  rfl

theorem exec_yield_busy (h : s.quiet = false) : exec (.yield g) s = .next (s.toWait .yielding) := by
  change finish 1 (actYield g s) = _
  rw [actYield, hg, hy, h]
  rfl

end

section

variable {s : State} {core : Nat} {k : StreamId} (hcore : core < 512) (hc : s.cur = .stream core k)

include hcore hc

/-- What a word that updates its stream and goes on leaves of it. -/
theorem State.strm_advance_updMe (f : Stream → Stream) : ((s.updMe f).advance 1).strm core k = (f (s.strm core k)).stepped := by
  have hu : (s.updStrm core k f).cur = .stream core k := hc
  rw [State.updMe_stream hc, State.advance_stream hu, State.updStrm_updStrm, State.strm_updStrm_same hcore]
  rfl

omit hcore in
/-- What an update of the stream keeps of its core stands in the word's end. -/
theorem State.advance_updMe_core {α : Type} (p : Core → α) (hp : ∀ c t, p (Core.setStrm c k t) = p c) (f : Stream → Stream) :
    p (((s.updMe f).advance 1).core core) = p (s.core core) := by
  have hu : (s.updStrm core k f).cur = .stream core k := hc
  rw [State.updMe_stream hc, State.advance_stream hu, State.updStrm_updStrm]
  exact State.core_updCore_of p (hp _ _) core

end

/-! ## bq (R95) -/

theorem bqPop_own {k : StreamId} {l : List (StreamId × Bool)} (h : ∀ e ∈ l, e.1 = k) : bqPop k l = none := by
  induction l with
  | nil => rfl
  | cons e l ih =>
    obtain ⟨w, b⟩ := e
    simp only [List.forall_mem_cons] at h
    simp [bqPop, h.1, ih h.2]

theorem bqPop_other {k w : StreamId} {b : Bool} {pre post : List (StreamId × Bool)} (h : ∀ e ∈ pre, e.1 = k) (hw : w ≠ k) :
    bqPop k (pre ++ (w, b) :: post) = some (b, pre ++ post) := by
  induction pre with
  | nil => simp [bqPop, hw]
  | cons e l ih =>
    obtain ⟨v, c⟩ := e
    simp only [List.forall_mem_cons] at h
    simp [bqPop, h.1, ih h.2]

@[simp] theorem Core.bqTake_hart (c : Core) (k : StreamId) (b : Bool) (l : List (StreamId × Bool)) :
    ((c.bqTake k b l).strm k).hart = (c.strm k).hart := by cases k <;> rfl

@[simp] theorem Core.bqTake_bq (c : Core) (k : StreamId) (b : Bool) (l : List (StreamId × Bool)) : (c.bqTake k b l).bq = l := rfl

@[simp] theorem Core.bqPush_hart (c : Core) (k : StreamId) (b : Bool) : ((c.bqPush k b).strm k).hart = (c.strm k).hart := by
  unfold Core.bqPush
  dsimp only
  split <;> cases k <;> rfl

theorem Core.bqPush_bq (c : Core) (k : StreamId) (b : Bool) : (c.bqPush k b).bq =
    if (c.strm k).bqAt.pushes < (c.strm (bqPeer k)).bqAt.pops then c.bq else c.bq ++ [(k, b)] := by
  have h (t : Stream) : (c.setStrm k t).bq = c.bq := by cases k <;> rfl
  unfold Core.bqPush
  dsimp only
  split
  · exact h _
  · rfl

@[simp] theorem Core.setStrm_bq (c : Core) (k : StreamId) (t : Stream) : (c.setStrm k t).bq = c.bq := by cases k <;> rfl

section

variable {s : State} {core : Nat} {k : StreamId} (hcore : core < 512) (hc : s.cur = .stream core k) (F : Core → Core)

include hcore hc

/-- A word that updates its core and goes on. -/
theorem State.advance_updCore : (((s.updCore core F).advance 1).core core).bq = (F (s.core core)).bq ∧
    (((s.updCore core F).advance 1).strm core k).hart =
      { ((F (s.core core)).strm k).hart with pc := ((F (s.core core)).strm k).hart.pc + 1 } := by
  have hu : (s.updCore core F).cur = .stream core k := hc
  rw [State.advance_stream hu, State.strm_updStrm_same hcore, State.core_updStrm_same hcore, State.strm, State.core_updCore_same hcore]
  exact ⟨Core.setStrm_bq _ _ _, rfl⟩

/-- A word that updates its core and jumps. -/
theorem State.jump_updCore (t : Word) : ((((s.updCore core F).setPc t).wake.core core).bq = (F (s.core core)).bq) ∧
    (((s.updCore core F).setPc t).wake.strm core k).hart = { ((F (s.core core)).strm k).hart with pc := t } := by
  have hu : (s.updCore core F).cur = .stream core k := hc
  have hp : ((s.updCore core F).setPc t).cur = .stream core k := by rw [State.setPc_stream hu]; exact hc
  rw [State.strm_wake hcore hp, State.wake_stream hp, State.core_updStrm_same hcore, State.setPc_stream hu, State.strm_updStrm_same hcore,
    State.core_updStrm_same hcore, State.strm, State.core_updCore_same hcore]
  exact ⟨by rw [Core.setStrm_bq, Core.setStrm_bq], rfl⟩

end

/-! ## The status of a data queue (R93) -/

theorem readyRun_eq (l : List DqEntry) : readyRun l = (l.takeWhile fun e => match e with | .filled _ => true | _ => false).length := by
  induction l with
  | nil => rfl
  | cons e l ih => cases e <;> simp [readyRun, ih, Nat.add_comm]

theorem DataQueue.status_fields {q : DataQueue} (h : q.entries.length ≤ 64) {n : Nat} (hn : n = readyRun q.entries) (hl : n ≤ 64) :
    q.status = 0#47 ++ BitVec.ofBool q.closed ++ 0#1 ++ BitVec.ofNat 7 q.entries.length ++ 0#1 ++ BitVec.ofNat 7 n := by
  apply BitVec.eq_of_toNat_eq
  generalize hm : q.entries.length = m at h
  have hb : BitVec.toNat (BitVec.ofBool q.closed) = if q.closed then 1 else 0 := by cases q.closed <;> rfl
  have hor (x : Nat) {y : Nat} (hy : y < 2 ^ 7) : x * 2 ^ 7 ||| y = x * 2 ^ 7 + y := by
    rw [← Nat.shiftLeft_eq, ← Nat.shiftLeft_add_eq_or_of_lt hy]
  simp only [DataQueue.status, ← hn, hm, BitVec.toNat_append, BitVec.toNat_ofNat, Nat.zero_mod, Nat.or_zero, Nat.zero_mul, Nat.zero_or,
    Nat.shiftLeft_eq, hb]
  rw [Nat.mod_eq_of_lt (show m < 2 ^ 7 by omega), Nat.mod_eq_of_lt (show n < 2 ^ 7 by omega), hor _ (show m < 2 ^ 7 by omega),
    hor _ (show n < 2 ^ 7 by omega)]
  split <;> omega

end Sys2Proof.Machine

namespace Sys2Proof.Proofs

open Machine Statements

theorem forks : forkPart := by
  refine ⟨fun g ax am ac s core hcore hc hg hx hm hk => ?_, fun g ax am ac s core k hc h => exec_fork_busy hc h,
    fun g ax am ac s core hc hg hx hm hk => exec_fork_off hc hx hm hk hg⟩
  obtain ⟨a, b, hf⟩ := State.core_forked hcore hc fun c => c.forked s.stamp ax am ac (s.sectionAt core)
  refine ⟨_, exec_fork_on hc hx hm hk hg, fun k hk => ?_, fun q hq => ?_, by rw [hf]; rfl, fun n hn => ?_, by rw [hf]; rfl,
    by rw [hf]; rfl, by rw [hf]; rfl, by rw [hf]; rfl⟩
  · have hu : ∃ w l, (State.advance ((s.updCore core fun c => c.forked s.stamp ax am ac (s.sectionAt core)).backMark core) 1).strm core k.1 =
        startStream s.stamp w l k.2.1 (s.sectionAt core k.2.2) := by
      simp only [List.mem_cons, List.not_mem_nil, or_false] at hk
      rw [State.strm, hf]
      rcases hk with rfl | rfl | rfl <;> exact ⟨_, _, rfl⟩
    obtain ⟨w, l, hu⟩ := hu
    dsimp only
    rw [hu, ← State.sectionAt_eq]
    exact ⟨rfl, rfl, rfl, fun n hn => hartReset_pred hn _, rfl, rfl, rfl, rfl, rfl, rfl, rfl, rfl, rfl, rfl, rfl, rfl, rfl,
      fun n hn => Lists.discard_slot _ hn _⟩
  · rw [hf]
    simp [Core.forked, Vector.getD, hq, DataQueue.cleared]
  · rw [hf]
    simp [Core.forked, coreReset, Vector.getD, hn]

theorem streamEnds : streamEndsPart := by
  refine ⟨fun g s core k hcore hc hg => ?_, fun g s core k hcore hc hg => ?_, fun g s h => ?_, fun g s core k hcore hc hg hy => ⟨fun hl hr => ?_,
    fun h => ?_⟩, fun g s n hn hc hg => ?_⟩
  · refine ⟨_, exec_rdv_on hg, ?_, ?_, State.advance_updMe_core hc Core.copyQ (fun c t => by cases k <;> rfl) _⟩
    · rw [State.strm_advance_updMe hcore hc]
      rfl
    · rw [State.strm_advance_updMe hcore hc, State.pc, State.hart_stream hc]
      rfl
  · refine ⟨_, exec_halt_stream hg hc, ?_, ?_, ?_, State.advance_updMe_core hc Core.copyQ (fun c t => by cases k <;> rfl) _,
      State.advance_updMe_core hc Core.matQ (fun c t => by cases k <;> rfl) _,
      State.advance_updMe_core hc Core.colQ (fun c t => by cases k <;> rfl) _⟩
    · rw [State.strm_advance_updMe hcore hc]
      rfl
    · rw [State.strm_advance_updMe hcore hc, State.pc, State.hart_stream hc]
      rfl
    · rw [State.strm_advance_updMe hcore hc]
      rfl
  · change finish 1 (actYield g s) = _
    rw [actYield, if_pos (by rw [show statYR = 6 from rfl, h]; simp)]
    rfl
  · refine ⟨_, exec_yield_quiet hg hy (by simp [State.quiet, State.me_stream hc, hl, hr]), ?_, ?_⟩
    · rw [State.strm_advance_updMe hcore hc]
      rfl
    · rw [State.strm_advance_updMe hcore hc, State.pc, State.hart_stream hc]
      rfl
  · refine exec_yield_busy hg hy ?_
    rcases h with h | h <;> simp [State.quiet, State.me_stream hc, h]
  · refine ⟨_, exec_halt_station hg hc, ?_⟩
    have hu : (s.endRun n).cur = .station n := hc
    constructor
    · rw [State.wake, hu, State.station_updStation, if_pos ⟨rfl, hn⟩, State.endRun, State.station_updStation, if_pos ⟨rfl, hn⟩]
    · rw [State.wake, hu]; rfl

/-- Settles O14: FORK starts its core's streams, and the words that end one update it and go on. -/
theorem forkAndStreamEnds : Obligations.ForkAndStreamEnds := ⟨forks, streamEnds⟩

/-- Settles O15, by the beginnings of the data-queue words and by the bit that bq yields. -/
theorem queueInstructions : Obligations.QueueInstructions := by
  refine ⟨fun g a q s s1 s2 x hb hp => ?_, fun g d q s s2 n h hl hn hw => ?_, fun g q s hg => ?_,
    fun g n inv s core k hcore hc hg => ⟨fun h => ?_, fun h => ?_⟩,
    fun g disp s core k b pre post w hcore hc hg hq hpre hw => ?_, fun g disp s core k hc hg h => ?_⟩
  · change finish 1 (actDqput g a q s) = _
    rw [actDqput, begin_runs hb]
    simp [hp]
  · have hle : n ≤ 64 := by rw [hn]; exact (List.takeWhile_sublist _).length_le.trans hl
    change finish 1 (actDqget g d q s) = _
    rw [actDqget, begin_runs (State.begins_of_clear h), DataQueue.status_fields hl (hn.trans (readyRun_eq _).symm) hle, retire_ok hw]
    rfl
  · change finish 1 (actDqcls g q s) = _
    rw [actDqcls, if_pos hg]
    rfl
  · have he : exec (.bqput g n inv) s = .next ((s.updCore core fun c => c.bqPush k (s.hart.pred n != inv)).advance 1) := by
      change finish 1 (actBqput g n inv s) = _
      simp [actBqput, hg, State.curCore_stream hc, State.curSt_stream hc, Nat.not_le.mpr h]
    obtain ⟨h1, h2⟩ := State.advance_updCore hcore hc fun c => c.bqPush k (s.hart.pred n != inv)
    refine ⟨_, he, by rw [h2, Core.bqPush_hart, State.pc, State.hart_stream hc]; rfl, fun hle => ?_, fun hlt => ?_⟩
    · exact h1.trans ((Core.bqPush_bq _ _ _).trans (if_neg (Nat.not_lt.mpr hle)))
    · exact h1.trans ((Core.bqPush_bq _ _ _).trans (if_pos hlt))
  · change finish 1 (actBqput g n inv s) = _
    simp [actBqput, hg, State.curCore_stream hc, h]
  · have hp : bqPop k (s.core core).bq = some (b, pre ++ post) := by rw [hq]; exact bqPop_other hpre hw
    have hact : actBqbr g disp s = if !b then .done (s.updCore core fun c => c.bqTake k b (pre ++ post)) else
        match s.targetOk (wordsOn s.pc disp) with
        | .ok s1 => .jump ((s1.updCore s1.curCore fun c => c.bqTake s1.curSt b (pre ++ post)).setPc (wordsOn s.pc disp))
        | .error a => a := by
      simp only [actBqbr, hg, State.curCore_stream hc, State.curSt_stream hc, hp, State.relTarget_stream hc]
      rfl
    constructor
    · intro hr
      cases b with
      | false =>
        obtain ⟨h1, h2⟩ := State.advance_updCore hcore hc fun c => c.bqTake k false (pre ++ post)
        exact ⟨State.advance _ 1, congrArg (finish 1) hact, h1, by rw [h2, Core.bqTake_hart, State.pc, State.hart_stream hc]; rfl⟩
      | true =>
        obtain ⟨h1, h2⟩ := State.jump_updCore hcore hc (fun c => c.bqTake k true (pre ++ post)) (wordsOn s.pc disp)
        refine ⟨_, (congrArg (finish 1) hact).trans ?_, h1, by rw [h2, Core.bqTake_hart, State.hart_stream hc]; rfl⟩
        simp [State.targetOk_reaches hc (hr rfl), State.curCore_stream hc, State.curSt_stream hc]
    · rintro rfl
      refine State.refuses_of hc (n := 1) fun a h ha => (congrArg (finish 1) hact).trans ?_
      simp [h]
  · change finish 1 (actBqbr g disp s) = _
    simp [actBqbr, hg, State.curCore_stream hc, State.curSt_stream hc, bqPop_own h]

end Sys2Proof.Proofs
end
section
/-! SUPPORT. The operand checks of an access (R20, R101, R135, R254, R256). -/

namespace Sys2Proof.Machine

open Host (Outcome)
open Statements

/-! ## Address operands (R20) -/

/-- An address with an offset keeps its tag, and its 56 address bits wrap. -/
theorem leaW_eq (a e : Word) : leaW a e = a.extractLsb' 56 8 ++ (a + e).extractLsb' 0 56 := by
  have h1 : tagMask = BitVec.allOnes 8 ++ 0#56 := rfl
  have h2 : (0x00FFFFFFFFFFFFFF : Word) = 0#8 ++ BitVec.allOnes 56 := rfl
  apply BitVec.eq_of_getLsbD_eq
  intro i hi
  rw [leaW, h1, h2]
  simp only [BitVec.getLsbD_or, BitVec.getLsbD_and, BitVec.getLsbD_append, BitVec.getLsbD_extractLsb', BitVec.getLsbD_zero,
    BitVec.getLsbD_allOnes]
  by_cases h : i < 56
  · simp [h]
  · simp [h, show i - 56 < 8 by omega, show 56 + (i - 56) = i by omega]

theorem extractLsb'_add_sext64 {n : Nat} (x : Word) (off : BitVec n) :
    (x + sext64 off).extractLsb' 0 56 = x.extractLsb' 0 56 + off.signExtend 56 := by
  rw [← BitVec.setWidth_eq_extractLsb' (by decide), ← BitVec.setWidth_eq_extractLsb' (by decide), BitVec.setWidth_add _ _ (by decide), sext64]
  congr 1
  apply BitVec.eq_of_getLsbD_eq
  intro i hi
  simp only [BitVec.getLsbD_setWidth, BitVec.getLsbD_signExtend, hi, show i < 64 by omega, decide_true, Bool.true_and]

/-- The address operand of LD and ST. -/
theorem leaW_offset (x : Word) (off : BitVec 17) : leaW x (sext64 off + BitVec.ofNat 64 0) = operandAddr x off := by
  rw [leaW_eq, operandAddr, BitVec.add_zero, extractLsb'_add_sext64]

theorem spaceTag_eq (y : Word) : spaceTag y = (y.extractLsb' 56 8).toNat := rfl

theorem addr56_eq (y : Word) : addr56 y = (y.extractLsb' 0 56).toNat := rfl

theorem accessBytes_eq (sz : MemSize) : accessBytes sz = sizeBytes sz := by cases sz <;> rfl

theorem sizeBytes_pos (sz : MemSize) : 0 < sizeBytes sz := by cases sz <;> decide

theorem sizeBytes_dvd (sz : MemSize) : sizeBytes sz ∣ 0x20000 := by cases sz <;> decide

/-! ## Tile space (R135) -/

theorem State.tileMode_iff (s : State) (cl t : Nat) {n : Nat} (hn : 0 < n) : s.tileMode cl t n = true ↔
    ∀ b, bankOf t ≤ b → b ≤ bankOf (t + n - 1) → (s.cluster cl).modes.getD b .cache = .tile := by
  have hle : bankOf t ≤ bankOf (t + n - 1) := Nat.div_le_div_right (by omega)
  simp only [State.tileMode, upto, List.all_eq_true, List.mem_range, beq_iff_eq]
  constructor
  · intro h b h1 h2
    have := h (b - bankOf t) (by omega)
    rwa [show bankOf t + (b - bankOf t) = b by omega] at this
  · intro h i hi
    exact h _ (by omega) (by omega)

/-- An aligned range of a number of bytes that divides a bank lies in one bank. -/
theorem bankOf_aligned {t n : Nat} (hn : 0 < n) (hd : n ∣ 0x20000) (ha : t % n = 0) : bankOf (t + n - 1) = bankOf t := by
  obtain ⟨c, hc⟩ := hd
  obtain ⟨q, rfl⟩ := Nat.dvd_of_mod_eq_zero ha
  have hc0 : 0 < c := Nat.pos_of_ne_zero fun h => by simp [h] at hc
  have hq := Nat.div_add_mod q c
  have hlt := Nat.mod_lt q hc0
  generalize q / c = u at hq
  generalize q % c = r at hq hlt
  subst hq
  have hr : n * r + n ≤ n * c := by rw [← Nat.mul_succ]; exact Nat.mul_le_mul_left n hlt
  have he : n * (c * u + r) = 0x20000 * u + n * r := by rw [Nat.mul_add, ← Nat.mul_assoc, ← hc]
  unfold bankOf
  rw [he]
  omega

theorem State.tileOwned_one {s : State} {cl ctx t n : Nat} (h : bankOf (t + n - 1) = bankOf t) :
    s.tileOwned cl ctx t n = (s.owner cl ctx).bank.getLsbD (bankOf t) := by
  simp [State.tileOwned, h, upto]

/-! ## The operand checks in their order (R101, R256) -/

section

variable {s : State} {tile : Bool} {y : Word} {n : Nat}

theorem State.resolve_badTag (ht : tile = false) (h : 2 ≤ spaceTag y) : s.resolve tile y n = .error (trapOf cACCESS 0 y s) := by
  have h1 : (spaceTag y == 1) = false := by rw [beq_eq_false_iff_ne]; omega
  rw [State.resolve, ht, h1, if_neg (by decide), if_pos (by omega)]

theorem State.resolve_unaligned (ht : tile = false) (h : spaceTag y = 0) (ha : addr56 y % n ≠ 0) :
    s.resolve tile y n = .error (trapOf cALIGN 0 y s) := by
  rw [State.resolve, ht, h, if_neg (by decide), if_neg (by simp), if_pos ha]

variable (ht : tile = true ∨ spaceTag y = 1)

include ht

theorem State.resolve_beyond (h : tileEnd ≤ addr56 y) : s.resolve tile y n = .error (trapOf cACCESS 0 y s) := by
  rw [State.resolve, if_pos (by simpa using ht), if_pos h]

variable (hn : 0 < n) (he : addr56 y + n ≤ tileEnd)

include hn he

theorem State.resolve_within : s.resolve tile y n =
    if !s.tileMode s.curCl (addr56 y) n then .error (trapOf cACCESS 0 y s)
    else if addr56 y % n ≠ 0 then .error (trapOf cALIGN 0 y s)
    else if !s.tileOwned s.curCl s.curCtx (addr56 y) n then .error (trapOf cACCESS 0 y s) else .ok (.tile (addr56 y)) := by
  rw [State.resolve, if_pos (by simpa using ht)]
  dsimp only
  rw [if_neg (by omega), show min n (tileEnd - addr56 y) = n by omega]

end

/-! ## LD and ST that an operand check stops -/

section

variable {g : Guard} {tile : Bool} {sz : MemSize} {sc : Scope} {d a : XReg} {off : BitVec 17} {s s1 : State} {x : Word} {core : Nat}
  {k : StreamId} (hc : s.cur = .stream core k) (hcol : s.collecting = false)

include hc hcol

theorem exec_ld_operand {sx : Bool} {cls : LdClass} (hb : s.begins g [a] [d] [x] s1) (hd : s.port? d = none) {c : BitVec 8}
    (h : s.resolve tile (operandAddr x off) (sizeBytes sz) = .error (trapOf c 0 (operandAddr x off) s)) :
    exec (.ld g sx tile cls sz sc d a off) s = .next (s.take ⟨c, 0, operandAddr x off⟩) := by
  change finish 1 (actLdAt 0 g sx tile cls sz sc d a off s) = _
  rw [actLdAt, State.memBegin_error hb (a := trapOf c 0 (operandAddr x off) s)]
  · rfl
  · simp only [List.getD_cons_zero, leaW_offset, State.onStation_stream hc, hcol, Bool.false_and, Bool.false_eq_true, if_false, h, hd, bind,
      Except.bind]

theorem exec_st_operand {cls : StClass} {v : Word} (hb : s.begins g [a, d] [] [x, v] s1) {c : BitVec 8}
    (h : s.resolve tile (operandAddr x off) (sizeBytes sz) = .error (trapOf c 0 (operandAddr x off) s)) :
    exec (.st g tile cls sz sc d a off) s = .next (s.take ⟨c, 0, operandAddr x off⟩) := by
  change finish 1 (actStAt 0 g tile cls sz sc d a off s) = _
  rw [actStAt, State.memBegin_error hb (a := trapOf c 0 (operandAddr x off) s)]
  · rfl
  · simp only [List.getD_cons_zero, leaW_offset, State.onStation_stream hc, hcol, Bool.false_and, Bool.false_eq_true, if_false, h, bind,
      Except.bind]

end

end Sys2Proof.Machine

namespace Sys2Proof.Proofs

open Machine Statements

/-- Settles O27: each check is one of the operand's resolution, in whose order they come. -/
theorem accessChecks : Obligations.AccessChecks := by
  intro g sx tile cls sc2 sz sc d a off s s0 s1 x v core k hc hcol hl hs hd
  have traps {c : BitVec 8} (h : s.resolve tile (operandAddr x off) (sizeBytes sz) = .error (trapOf c 0 (operandAddr x off) s)) :
      exec (.ld g sx tile cls sz sc d a off) s = .next (s.take ⟨c, 0, operandAddr x off⟩) ∧
        exec (.st g tile sc2 sz sc d a off) s = .next (s.take ⟨c, 0, operandAddr x off⟩) :=
    ⟨exec_ld_operand hc hcol hl hd h, exec_st_operand hc hcol hs h⟩
  have hn := sizeBytes_pos sz
  dsimp only
  rw [accessBytes_eq]
  refine ⟨fun ht h => traps (State.resolve_badTag ht h), fun ht h => traps (State.resolve_beyond ht h), fun ht h hb => traps ?_,
    fun ht h ha hm => traps ?_, fun ht h ha hm ho => traps ?_, fun ht h ha => traps (State.resolve_unaligned ht h ha)⟩
  · have hmode : s.tileMode s.curCl (addr56 (operandAddr x off)) (sizeBytes sz) = false := by
      obtain ⟨b, hb, hne⟩ := hb
      rw [← Bool.not_eq_true, State.tileMode_iff _ _ _ hn]
      intro hall
      refine hne (hall b ?_ ?_)
      · rcases hb with rfl | rfl
        · exact Nat.le_refl _
        · exact Nat.div_le_div_right (by rw [addr56_eq]; omega)
      · rcases hb with rfl | rfl
        · exact Nat.div_le_div_right (by rw [addr56_eq]; omega)
        · exact Nat.le_refl _
    rw [State.resolve_within ht hn h, hmode]
    rfl
  · have hmode : s.tileMode s.curCl (addr56 (operandAddr x off)) (sizeBytes sz) = true := (State.tileMode_iff _ _ _ hn).mpr hm
    rw [State.resolve_within ht hn h, hmode, if_neg (by decide), if_pos (by exact ha)]
    rfl
  · have hbank := bankOf_aligned hn (sizeBytes_dvd sz) ha
    have hmode : s.tileMode s.curCl (addr56 (operandAddr x off)) (sizeBytes sz) = true := by
      refine (State.tileMode_iff _ _ _ hn).mpr fun b h1 h2 => ?_
      rw [show b = bankOf (addr56 (operandAddr x off)) from Nat.le_antisymm (h2.trans_eq hbank) h1]
      exact hm
    have hown : s.tileOwned s.curCl s.curCtx (addr56 (operandAddr x off)) (sizeBytes sz) = false := (State.tileOwned_one hbank).trans ho
    rw [State.resolve_within ht hn h, hmode, if_neg (by decide), if_neg (by exact not_not.mpr ha), hown]
    rfl

end Sys2Proof.Proofs
end
section
/-! SUPPORT. The commands of the matrix array (R101, R126, R127, R222, R223, R237, R350). -/

namespace Sys2Proof.Machine

open Host (Outcome)
open Statements

/-! ## A command pushed (R126, R127) -/

theorem State.updCore_updCore (s : State) (n : Nat) (f g : Core → Core) : (s.updCore n f).updCore n g = s.updCore n fun c => g (f c) := by
  by_cases hn : n < 512
  · rw [State.updCore, State.core_updCore_same hn, State.updCore, State.setCore_setCore, State.updCore]
  · simp only [State.updCore, State.setCore_absent hn]

/-- Outside a replay a command is pushed with the core's next number. -/
theorem State.pushCmd_matrix {s : State} (h : noReplay s) (cmd : EngineCmd) : s.pushCmd .matrix cmd = pushedTo s .matrix cmd := by
  have hr : s.repush cmd = none := by
    have hb : (s.core s.curCore).back.again = [] := h
    simp [State.repush, Backsight.repush, hb]
  rw [State.pushCmd, hr]
  dsimp only [State.takeSeq]
  rw [State.updCore_updCore]
  unfold pushedTo State.updCore
  rfl

theorem State.queueRoom_matrix (s : State) : s.queueRoom .matrix = true ↔ Statements.roomIn (s.core s.curCore) .matrix := by
  simp only [State.queueRoom, Statements.roomIn, Bool.and_eq_true, decide_eq_true_eq, Option.isNone_iff_eq_none, bne_self_eq_false,
    Bool.false_or]
  rfl

/-! ## MGO and MWAIT (R222, R223, R237) -/

section

variable {g : Guard} {s : State} (hg : s.guardOn g = true)

include hg

theorem exec_mgo_fault {t : Trap} (nlev : BitVec 3) (h : s.arrayTrap = some t) : exec (.mgo g nlev) s = .next (s.take t) := by
  change finish 1 (actMgo g nlev s) = _
  simp [actMgo, hg, h]

theorem exec_mwait_fault {t : Trap} (n : BitVec 4) (h : s.arrayTrap = some t) : exec (.mwait g n) s = .next (s.take t) := by
  change finish 1 (actMwait g n s) = _
  simp [actMwait, hg, h]

variable (ha : s.arrayTrap = none)

include ha

theorem exec_mgo_refused {nlev : BitVec 3} {a : Act} (h : s.mgoCheck (s.core s.curCore).table nlev.toNat = .error a) :
    exec (.mgo g nlev) s = finish 1 a := by
  change finish 1 (actMgo g nlev s) = _
  simp [actMgo, hg, ha, h]

theorem exec_mgo_checked {nlev : BitVec 3} (h : s.mgoCheck (s.core s.curCore).table nlev.toNat = .ok ()) :
    exec (.mgo g nlev) s = if s.queueRoom .matrix then .next ((s.pushCmd .matrix (.mgo (s.core s.curCore).table nlev.toNat)).advance 1)
      else .next (s.toWait (.engineQueue .matrix)) := by
  change finish 1 (actMgo g nlev s) = _
  cases hq : s.queueRoom .matrix <;> simp [actMgo, hg, ha, h, hq]

theorem exec_mwait_runs (n : BitVec 4) : exec (.mwait g n) s =
    if n.toNat < (s.core s.curCore).pendMgos then .next (s.toWait (.matrix n.toNat)) else .next (s.advance 1) := by
  change finish 1 (actMwait g n s) = _
  by_cases h : n.toNat < (s.core s.curCore).pendMgos <;> simp [actMwait, hg, ha, h]

end

/-! ## The order of the checks (R101, R222) -/

/-- An operand, a target or a level that MGO uses and that is unset. -/
theorem ProdTable.lntCase_unset {t : ProdTable} {nlev : Nat} (h : t.opA = none ∨ t.opB = none ∨ t.tgt = none ∨
    ∃ l, l < nlev ∧ l < 6 ∧ t.levels.getD l none = none) : t.lntCase nlev = some 1 := by
  unfold ProdTable.lntCase
  split
  · next a b c ha hb hc =>
    rw [ha, hb, hc] at h
    rw [if_pos]
    obtain ⟨l, hl, h6, hn⟩ : ∃ l, l < nlev ∧ l < 6 ∧ t.levels.getD l none = none := by simpa using h
    rw [getD_eq, dif_pos h6] at hn
    refine List.any_eq_true.mpr ⟨none, List.mem_iff_getElem.mpr ⟨l, by simp [hl, h6], ?_⟩, rfl⟩
    simp [hn]
  · rfl

theorem State.mgoCheck_unset {s : State} {t : ProdTable} {nlev : Nat} (ha : t.alignCase = none)
    (hs : (t.spans nlev).find? (s.spanBad s.curCl s.curCtx) = none) (hb : s.mgoBanks t nlev = none) (hl : t.lntCase nlev = some 1) :
    s.mgoCheck t nlev = .error (trapOf cLNT 1 0 s) := by
  simp [State.mgoCheck, ha, hs, hb, hl]

/-- A table with neither operand nor an index list meets no check before the one for unset parts. -/
theorem State.mgoCheck_empty {s : State} {t : ProdTable} (nlev : Nat) (ha : t.opA = none) (hb : t.opB = none) (hi : t.idx = 0) :
    s.mgoCheck t nlev = .error (trapOf cLNT 1 0 s) := by
  refine State.mgoCheck_unset ?_ ?_ ?_ (ProdTable.lntCase_unset (.inl ha))
  · simp [ProdTable.alignCase, ha, hb, hi]
  · simp [ProdTable.spans, ha, hb]
  · simp [State.mgoBanks, ha]

/-! ## MSTAT (R223) -/

theorem Core.pendMgos_eq (c : Core) : c.pendMgos = openMgos c := by
  unfold Core.pendMgos openMgos
  congr 1
  refine List.filter_congr fun q _ => ?_
  unfold QEntry.isMgo
  cases q.cmd <;> rfl

theorem Core.mstatWord_fields (c : Core) : c.mstatWord = c.array.last ++ BitVec.ofBool c.array.fault ++ 0#7 ++ c.array.fsub ++
    BitVec.ofNat 8 (min 255 c.array.disc) ++ BitVec.ofNat 8 (min 31 (openMgos c)) := by
  rw [Core.mstatWord, Core.pendMgos_eq]
  apply BitVec.eq_of_toNat_eq
  have hl := c.array.last.isLt
  have hf := c.array.fsub.isLt
  have hb : BitVec.toNat (BitVec.ofBool c.array.fault) = if c.array.fault then 1 else 0 := by cases c.array.fault <;> rfl
  have hor (x n : Nat) {y : Nat} (hy : y < 2 ^ n) : x * 2 ^ n ||| y = x * 2 ^ n + y := by
    rw [← Nat.shiftLeft_eq, ← Nat.shiftLeft_add_eq_or_of_lt hy]
  generalize hd : min 255 c.array.disc = m
  generalize ho : min 31 (openMgos c) = n
  have hm : m < 2 ^ 8 := by omega
  have hn : n < 2 ^ 8 := by omega
  simp only [BitVec.toNat_append, BitVec.toNat_ofNat, Nat.zero_mod, Nat.shiftLeft_eq, hb, Nat.mod_eq_of_lt hm, Nat.mod_eq_of_lt hn]
  rw [hor _ 1 (by split <;> decide), hor _ 7 (by decide), hor _ 8 hf, hor _ 8 hm, hor _ 8 hn]
  split <;> omega

end Sys2Proof.Machine

namespace Sys2Proof.Proofs

open Machine Statements

/-- Settles O36: the commands by their cases, the checks of MGO in their order, and the word of MSTAT by its fields. -/
theorem matrixCommands : Obligations.MatrixCommands := by
  intro g s core hcore hc hg
  have hcc := State.curCore_stream hc
  have harr : s.arrayTrap = (s.core core).array.pendFault := by rw [State.arrayTrap, hcc]
  dsimp only
  refine ⟨fun nlev ha h => ⟨fun hr hn => ?_, fun hr => ?_⟩, fun nlev ha hA hB hi => ?_, fun nlev ha hal hs hb hu => ?_, fun n ha h => ?_,
    fun n ha h => ?_, fun t nlev n ha => ⟨exec_mgo_fault hg nlev (harr.trans ha), exec_mwait_fault hg n (harr.trans ha)⟩,
    fun d s2 hcl => ⟨fun hw => ?_, fun hw => ?_⟩⟩
  · rw [exec_mgo_checked hg (harr.trans ha) (by rwa [hcc]), if_pos ((State.queueRoom_matrix s).mpr (by rwa [hcc])), hcc,
      State.pushCmd_matrix hn]
  · rw [exec_mgo_checked hg (harr.trans ha) (by rwa [hcc]), if_neg fun hq => hr (by rw [← hcc]; exact (State.queueRoom_matrix s).mp hq)]
  · rw [exec_mgo_refused hg (harr.trans ha) (by rw [hcc]; exact State.mgoCheck_empty _ hA hB hi)]
    rfl
  · have hf : ((s.core core).table.spans nlev.toNat).find? (s.spanBad s.curCl s.curCtx) = none :=
      List.find?_eq_none.mpr fun o ho => by rw [hs o ho]; decide
    rw [exec_mgo_refused hg (harr.trans ha) (by rw [hcc]; exact State.mgoCheck_unset hal hf hb (ProdTable.lntCase_unset hu))]
    rfl
  · rw [exec_mwait_runs hg (harr.trans ha), hcc, Core.pendMgos_eq, if_neg (Nat.not_lt.mpr h)]
  · rw [exec_mwait_runs hg (harr.trans ha), hcc, Core.pendMgos_eq, if_pos h]
  · change finish 1 (actMstat g d s) = _
    rw [actMstat, begin_runs (State.begins_of_clear hcl), hcc, Core.mstatWord_fields, retire_ok hw]
    rfl
  · change finish 1 (actMstatClr g d s) = _
    rw [actMstatClr, begin_runs (State.begins_of_clear hcl), hcc, Core.mstatWord_fields]
    exact congrArg (finish 1) (retire_ok hw)

end Sys2Proof.Proofs
end
section
/-! SUPPORT. Privileged instructions of a station core: what one answers and leaves (R106, R298), owner masks, pre-emption, journal areas and
windows (R84, R297, R308, R310, R311). -/

namespace Sys2Proof.Machine

open Host (Outcome)
open Statements

/-! ## A station core's word (R106, R298) -/

section

variable {s : State} {n : Nat} (hc : s.cur = .station n)

include hc

theorem State.hart_at_station : s.hart = (s.station n).hart := by unfold State.hart; rw [hc]

theorem State.setHart_at_station (h : Hart) : s.setHart h = s.updStation n fun t => { t with hart := h } := by
  unfold State.setHart; rw [hc]

theorem State.port?_at_station (r : XReg) : s.port? r = none := by unfold State.port?; rw [hc]

theorem State.onStation_at_station : s.onStation = true := by unfold State.onStation; rw [hc]

theorem State.regBusy_at_station (r : XReg) : s.regBusy r = false := by simp [State.regBusy, State.onStation_at_station hc]

theorem State.allotOf_at_station : s.allotOf = 64 := by unfold State.allotOf; rw [hc]

theorem State.readAll_at_station (rs : List XReg) : s.readAll rs = .ok (rs.map fun r => s.hart.get r, s) := by
  induction rs with
  | nil => rfl
  | cons r rs ih => rw [State.readAll_cons_plain (State.port?_at_station hc r), ih]; rfl

theorem State.wake_at_station : s.wake = s.updStation n fun t => { t with waiting := none } := by unfold State.wake; rw [hc]

omit hc in
theorem State.station_updStation_same (hn : n < 12) (s : State) (f : Station → Station) : (s.updStation n f).station n = f (s.station n) :=
  (State.station_updStation s n n f).trans (if_pos ⟨rfl, hn⟩)

omit hc in
/-- Two updates of one station core are one. -/
theorem State.updStation_updStation (f g : Station → Station) (hn : n < 12) :
    (s.updStation n f).updStation n g = s.updStation n fun t => g (f t) := by
  rw [State.updStation, State.station_updStation_same hn]
  simp [State.updStation]

/-- A station core's next word: six bytes on, with nothing waited for. -/
theorem State.advance_at_station (hn : n < 12) : s.advance 1 = s.updStation n fun t =>
    { t with waiting := none, hart := { t.hart with pc := s.pcAfter 1 } } := by
  have hw : s.wake.cur = .station n := by rw [State.wake_cur, hc]
  have hh : (s.wake.station n).hart = (s.station n).hart := by
    rw [State.wake_at_station hc, State.station_updStation_same hn]
  rw [State.advance, State.setPc, State.setHart_at_station hw, State.hart_at_station hw, hh, State.wake_at_station hc,
    State.updStation_updStation _ _ hn]
  unfold State.updStation
  rfl

end

theorem begins_at_station {s : State} {g : Guard} {rs ds : List XReg} {vs : List Word} (h : station s g rs vs) : s.begins g rs ds vs s := by
  obtain ⟨⟨n, -, hc⟩, hg, rfl⟩ := h
  exact ⟨⟨hg, fun r _ => by rw [State.allotOf_at_station hc]; exact r.isLt, fun r _ => State.regBusy_at_station hc r⟩,
    State.readAll_at_station hc rs⟩

/-! ## The end of a privileged instruction (R298) -/

/-- What a station core's instruction leaves that answers v in a state s1. -/
theorem State.answered {s1 : State} {n : Nat} (hc : s1.cur = .station n) (hn : n < 12) (d : XReg) (v : Word) :
    ((s1.setHart (s1.hart.put d v)).advance 1) = s1.updStation n fun t =>
      { t with waiting := none, hart := { t.hart.put d v with pc := s1.pcAfter 1 } } := by
  have hu : (s1.updStation n fun t => { t with hart := s1.hart.put d v }).cur = .station n := hc
  have hpc : (s1.setHart (s1.hart.put d v)).pcAfter 1 = s1.pcAfter 1 := by
    have hp : (s1.hart.put d v).pc = s1.hart.pc := by
      unfold Hart.put
      split
      · rfl
      · rfl
    rw [State.setHart_at_station hc, State.pcAfter, State.pcAfter, State.pc, State.pc, State.hart_at_station hu,
      State.station_updStation_same hn, hp, State.onStation_at_station hc, if_pos rfl, State.onStation_at_station hu, if_pos rfl]
  rw [State.advance_at_station (by rw [State.setHart_cur]; exact hc) hn, hpc, State.setHart_at_station hc,
    State.updStation_updStation _ _ hn, State.hart_at_station hc]
  unfold State.updStation
  rfl

theorem State.answered_get {s1 : State} {n : Nat} (hc : s1.cur = .station n) (hn : n < 12) (d : XReg) (v : Word) :
    ((s1.setHart (s1.hart.put d v)).advance 1).hart.get d = if d = 0 then 0 else v := by
  have hu : (s1.updStation n fun t =>
    { t with waiting := none, hart := { t.hart.put d v with pc := s1.pcAfter 1 } }).cur = .station n := hc
  rw [State.answered hc hn, State.hart_at_station hu, State.station_updStation_same hn]
  refine (Hart.get_put (s1.station n).hart d d v).trans ?_
  rw [if_pos rfl]

theorem refusal_eq (code : Nat) : refusal code = 1#1 ++ 0#55 ++ BitVec.ofNat 8 code ∨ 256 ≤ code := by
  rcases Nat.lt_or_ge code 256 with h | h
  · left
    apply BitVec.eq_of_toNat_eq
    have h1 : (1#1 ++ 0#55).toNat = 2 ^ 55 := rfl
    rw [refusal, BitVec.toNat_ofNat, BitVec.toNat_append, h1, BitVec.toNat_ofNat, Nat.mod_eq_of_lt (show code < 2 ^ 8 from h),
      ← Nat.shiftLeft_add_eq_or_of_lt (show code < 2 ^ 8 from h), Nat.shiftLeft_eq]
    omega
  · exact .inr h

theorem refusal_refused {code : Nat} (h : code < 256) : refusal code = Statements.refused (BitVec.ofNat 8 code) :=
  (refusal_eq code).resolve_right (Nat.not_le.mpr h)

section

variable {i : Instr} {g : Guard} {rs : List XReg} {vs : List Word} {d : XReg} {s : State} {k : List Word → Priv}
  (hi : exec i s = finish 1 (s.privBegin g rs d k)) (h : station s g rs vs)

include hi h

theorem exec_priv_ok {v : Word} {s2 : State} (hk : k vs = .ok v s2) (hcur : s2.cur = s.cur) : answers i s s2 d v := by
  obtain ⟨n, -, hc⟩ := h.1
  have hw : s2.writeReg d v = .ok (s2.setHart (s2.hart.put d v)) := writeReg_plain (State.port?_at_station (hcur.trans hc) d) v
  rw [answers, hi, State.privBegin, begin_runs (begins_at_station h), hk]
  dsimp only
  rw [retire_ok hw, finish_done]

theorem exec_priv_refuse {c : Nat} (hk : k vs = .refuse c s) (hlt : c < 256) : answers i s s d (Statements.refused (BitVec.ofNat 8 c)) := by
  obtain ⟨n, -, hc⟩ := h.1
  have hw : s.writeReg d (refusal c) = .ok (s.setHart (s.hart.put d (refusal c))) := writeReg_plain (State.port?_at_station hc d) _
  rw [answers, hi, State.privBegin, begin_runs (begins_at_station h), hk]
  dsimp only
  rw [retire_ok hw, finish_done, refusal_refused hlt]

end

/-! ## Targets (R298) -/

theorem State.target_of {s : State} {x : Word} {cl ctx : Nat} (h : targets s x cl ctx) (k : Nat → Nat → Priv) : s.target x k = k cl ctx := by
  obtain ⟨h1, h2, rfl, rfl, h3, h4⟩ := h
  have hb : xaBad x = false := by
    have e1 : field x 63 23 = 0 := by rw [field, h1]; rfl
    have e2 : field x 15 10 = 0 := by rw [field, h2]; rfl
    simp [xaBad, e1, e2]
  have hm : s.cluMine (xaCluster x) = true := h3
  have hx : s.ctxMine (xaCtx x) = true := by
    unfold State.ctxMine
    exact beq_iff_eq.mpr h4
  rw [State.target, hb, hm, hx]
  rfl

theorem targets_lt {s : State} {x : Word} {cl ctx : Nat} (h : targets s x cl ctx) : cl < 128 ∧ ctx < 1024 := by
  obtain ⟨-, -, rfl, rfl, -⟩ := h
  exact ⟨BitVec.isLt _, BitVec.isLt _⟩

/-! ## Owner masks (R297) -/

theorem Owner.eq_zero {o : Owner} (h : o.core = 0 ∧ o.bank = 0 ∧ o.acm = 0) : o = ⟨0, 0, 0⟩ := by
  obtain ⟨h1, h2, h3⟩ := h
  cases o
  simp_all

/-- The masks of a context after they are set; those of the others stand. -/
theorem State.owner_setOwner {s : State} {cl : Nat} (hcl : cl < 128) (ctx : Nat) (o : Owner) (c : Nat) :
    (s.setOwner cl ctx o).owner cl c = if c = ctx then o else s.owner cl c := by
  have hf : (((s.cluster cl).owners.filter fun x => x.1 != ctx).find? (·.1 == c)) =
      if c = ctx then none else (s.cluster cl).owners.find? (·.1 == c) := by
    rw [List.find?_filter]
    split
    · next h =>
      subst h
      refine List.find?_eq_none.mpr fun x _ => ?_
      simp
    · next h =>
      congr 1
      funext x
      by_cases hx : x.1 = c <;> simp [hx, h]
  have hc : (s.setOwner cl ctx o).cluster cl = { s.cluster cl with
      owners := if o.core = 0 ∧ o.bank = 0 ∧ o.acm = 0 then (s.cluster cl).owners.filter fun x => x.1 != ctx
        else (ctx, o) :: (s.cluster cl).owners.filter fun x => x.1 != ctx } := by
    rw [State.setOwner, State.cluster_updCluster, if_pos ⟨rfl, hcl⟩]
  unfold State.owner
  rw [hc]
  by_cases hz : o.core = 0 ∧ o.bank = 0 ∧ o.acm = 0
  · simp only [hz, and_self, if_true, hf]
    by_cases h : c = ctx
    · simp only [h, if_true, Owner.eq_zero hz]
    · simp only [h, if_false]
  · simp only [hz, if_false]
    by_cases h : c = ctx
    · rw [List.find?_cons_of_pos (by simp [h]), if_pos h]
    · rw [List.find?_cons_of_neg (by simpa using Ne.symm h), hf, if_neg h, if_neg h]

theorem State.othersOwn_eq_false {s : State} {cl ctx : Nat} {f : Owner → BitVec 64} {m : BitVec 64}
    (h : ∀ o ∈ (s.cluster cl).owners, o.1 ≠ ctx → f o.2 &&& m = 0) : s.othersOwn cl ctx f m = false := by
  rw [State.othersOwn, List.any_eq_false]
  intro o ho
  by_cases hx : o.1 = ctx
  · simp [hx]
  · simp [h o ho hx]

theorem State.othersOwn_eq_true {s : State} {cl ctx : Nat} {f : Owner → BitVec 64} {m : BitVec 64}
    (h : ∃ o ∈ (s.cluster cl).owners, o.1 ≠ ctx ∧ f o.2 &&& m ≠ 0) : s.othersOwn cl ctx f m = true := by
  obtain ⟨o, ho, hx, hm⟩ := h
  exact List.any_eq_true.mpr ⟨o, ho, by simpa using ⟨hx, hm⟩⟩

section

variable {s : State} {x m : Word} {cl ctx : Nat} (ht : targets s x cl ctx) (f : Owner → BitVec 64) (put : Owner → BitVec 64 → Owner)
  (gone : State → Nat → Nat → BitVec 64 → State)

include ht

theorem State.ownset_owned (h : s.othersOwn cl ctx f m = true) : s.ownset x m f put gone = .refuse 3 s := by
  rw [State.ownset, State.target_of ht]
  simp [h]

variable (h : s.othersOwn cl ctx f m = false)

include h

theorem State.ownset_running (h1 : f (s.owner cl ctx) &&& ~~~m ≠ 0) (h2 : s.runsIn cl ctx = true) :
    s.ownset x m f put gone = .refuse 2 s := by
  have hb : (f (s.owner cl ctx) &&& ~~~m != 0) = true := by simpa using h1
  rw [State.ownset, State.target_of ht]
  simp only [h, hb, h2]
  rfl

theorem State.ownset_sets (h1 : f (s.owner cl ctx) &&& ~~~m = 0 ∨ s.runsIn cl ctx = false) : s.ownset x m f put gone =
    .ok (f (s.owner cl ctx)) (gone (s.setOwner cl ctx (put (s.owner cl ctx) m)) cl ctx (f (s.owner cl ctx) &&& ~~~m)) := by
  have hb : ((f (s.owner cl ctx) &&& ~~~m) != 0 && s.runsIn cl ctx) = false := by
    rcases h1 with h1 | h1
    · rw [h1]; rfl
    · rw [h1, Bool.and_false]
  rw [State.ownset, State.target_of ht]
  simp only [h, hb]
  rfl

end

/-- A mask of cores in a word, with the bits of another. -/
theorem coreWord_and (o : Owner) (m : BitVec 64) : o.coreWord &&& m = (o.core &&& m.setWidth 4).setWidth 64 := by
  apply BitVec.eq_of_getLsbD_eq
  intro i hi
  simp only [Owner.coreWord, BitVec.getLsbD_and, BitVec.getLsbD_setWidth, hi, decide_true, Bool.true_and]
  by_cases h : i < 4
  · simp [h]
  · simp [h, BitVec.getLsbD_of_ge o.core i (by omega)]

theorem setWidth_eq_zero {v : BitVec 4} : v.setWidth 64 = 0 ↔ v = 0 := by
  constructor
  · intro h
    have := congrArg (BitVec.setWidth 4) h
    simpa using this
  · rintro rfl; rfl

theorem coreWord_and_eq_zero (o : Owner) (m : BitVec 64) : o.coreWord &&& m = 0 ↔ o.core &&& m.setWidth 4 = 0 := by
  rw [coreWord_and, setWidth_eq_zero]

theorem setWidth_not (m : BitVec 64) : (~~~m).setWidth 4 = ~~~m.setWidth 4 := by
  apply BitVec.eq_of_getLsbD_eq
  intro i hi
  simp [hi, show i < 64 by omega]

/-! ## Every stream of some cores (R311) -/

theorem Core.strm_mapStreams (c : Core) (f : Stream → Stream) (k : StreamId) : (c.mapStreams f).strm k = f (c.strm k) := by cases k <;> rfl

/-- An update that may be made twice, made of every stream of some cores. -/
theorem State.strm_mapCores {f : Stream → Stream} (hf : ∀ t, f (f t) = f t) {l : List Nat} {c : Nat} (hc : c < 512) (k : StreamId) :
    ∀ s : State, (s.mapCores l f).strm c k = if c ∈ l then f (s.strm c k) else s.strm c k := by
  induction l with
  | nil => intro s; rfl
  | cons a l ih =>
    intro s
    have ha : (s.updCore a fun x => x.mapStreams f).strm c k = if c = a then f (s.strm c k) else s.strm c k := by
      unfold State.strm
      rw [State.core_updCore]
      by_cases h : c = a
      · subst h; rw [if_pos ⟨rfl, hc⟩, if_pos rfl, Core.strm_mapStreams]
      · rw [if_neg fun e => h e.1, if_neg h]
    change ((s.updCore a fun x => x.mapStreams f).mapCores l f).strm c k = _
    rw [ih, ha]
    by_cases h : c = a <;> by_cases hl : c ∈ l <;> simp [h, hl, hf]

theorem State.mapCores_cur (l : List Nat) (f : Stream → Stream) : ∀ s : State, (s.mapCores l f).cur = s.cur := by
  induction l with
  | nil => exact fun _ => rfl
  | cons a l ih => exact fun s => ih (s.updCore a fun x => x.mapStreams f)

theorem setBit_setBit {n : Nat} (v : BitVec n) {k : Nat} (hk : k < n) (b : Bool) : setBit (setBit v k b) k b = setBit v k b :=
  setBit_of_getLsbD hk (by rw [getLsbD_setBit v hk, if_pos rfl])

/-- Whether a stream is at a safe point, by its state (R84). -/
theorem Stream.safe_eq (t : Stream) : t.safe = (decide (t.st ∈ [RunState.yielded, .arrived, .halted, .idle]) && t.loads.isEmpty &&
    t.remote.isEmpty) := by
  unfold Stream.safe
  cases t.st <;> rfl

theorem State.ctx_setCtxState {s : State} {ctx : Nat} (h : ctx < 1024) (c : CtxState) : ((s.setCtxState ctx c).ctx ctx).state = c := by
  rw [State.setCtxState, State.ctx_updCtx, if_pos ⟨rfl, h⟩]

end Sys2Proof.Machine
end
section
/-! SUPPORT. OWNSET, PREQ, IDEM and TMARK as a station core's instructions (R84, R297, R298, R308, R310, R311). -/

namespace Sys2Proof.Machine

open Host (Outcome)
open Statements

/-- An instruction of a station core that answers v in a state s1: its end, x[d] there, and what of s1 stands. -/
theorem answers_end {i : Instr} {s s1 : State} {d : XReg} {v : Word} (h : answers i s s1 d v) {n : Nat} (hc : s1.cur = .station n) (hn : n < 12) :
    ∃ t, exec i s = .next t ∧ t.hart.get d = (if d = 0 then 0 else v) ∧ t.cores = s1.cores ∧ t.clusters = s1.clusters ∧
      t.contexts = s1.contexts := by
  refine ⟨_, h, State.answered_get hc hn d v, ?_⟩
  rw [State.answered hc hn]
  exact ⟨rfl, rfl, rfl⟩

/-! ## OWNSET (R297) -/

/-- What OWNSET does after its masks are set keeps the acting core and every owner mask. -/
def State.OwnersKept (u t : State) : Prop := t.cur = u.cur ∧ ∀ cl c, t.owner cl c = u.owner cl c

theorem State.ownersKept_updCluster {u t : State} (h : u.OwnersKept t) (cl : Nat) {f : Cluster → Cluster}
    (hf : ∀ c, (f c).owners = c.owners) : u.OwnersKept (t.updCluster cl f) := by
  refine ⟨h.1, fun cl' c => ?_⟩
  rw [← h.2]
  have ho : ((t.updCluster cl f).cluster cl').owners = (t.cluster cl').owners := by
    rw [State.cluster_updCluster]
    split
    · next e => rw [hf, e.1]
    · rfl
  unfold State.owner
  rw [ho]

/-- Cores taken from a context reset, with their ranges released. -/
theorem State.ownersKept_resetCores {u : State} (cl : Nat) (m : BitVec 64) (l : List Nat) : u.OwnersKept (l.foldl
    (fun s k => if m.getLsbD k then (s.setCore (4 * cl + k) coreReset).updCluster cl fun c =>
        { c with ranges := c.ranges.filter fun r => r.core != 4 * cl + k } else s) u) := by
  refine List.foldlRecOn (motive := u.OwnersKept) l _ ⟨rfl, fun _ _ => rfl⟩ fun t h k _ => ?_
  split
  · exact State.ownersKept_updCluster (t := t.setCore (4 * cl + k) coreReset) h cl fun _ => rfl
  · exact h

theorem State.owner_of_clusters {s t : State} (h : t.clusters = s.clusters) (cl c : Nat) : t.owner cl c = s.owner cl c := by
  unfold State.owner State.cluster
  rw [h]

section

variable {g : Guard} {d a b : XReg} {s : State} {x m : Word} {cl ctx : Nat} (hs : station s g [a, b] [x, m]) (ht : targets s x cl ctx)

include hs ht

/-- OWNSET's answers, for an instruction that sets one mask. -/
theorem exec_ownset {i : Instr} {f : Owner → BitVec 64} {put : Owner → BitVec 64 → Owner} {gone : State → Nat → Nat → BitVec 64 → State}
    {k : List Word → Priv} (hi : exec i s = finish 1 (s.privBegin g [a, b] d k)) (hk : k [x, m] = s.ownset x m f put gone)
    (hgone : ∀ (u : State) w, u.OwnersKept (gone u cl ctx w)) :
    (s.othersOwn cl ctx f m = true → answers i s s d (Statements.refused 3)) ∧
    (s.othersOwn cl ctx f m = false →
      (f (s.owner cl ctx) &&& ~~~m ≠ 0 → s.runsIn cl ctx = true → answers i s s d (Statements.refused 2)) ∧
      (f (s.owner cl ctx) &&& ~~~m = 0 ∨ s.runsIn cl ctx = false →
        let s1 := gone (s.setOwner cl ctx (put (s.owner cl ctx) m)) cl ctx (f (s.owner cl ctx) &&& ~~~m)
        ∃ t, exec i s = .next t ∧ t.hart.get d = (if d = 0 then 0 else f (s.owner cl ctx)) ∧
          t.owner cl ctx = put (s.owner cl ctx) m ∧ (∀ c, c ≠ ctx → t.owner cl c = s.owner cl c) ∧ t.cores = s1.cores ∧
          t.clusters = s1.clusters)) := by
  refine ⟨fun h => exec_priv_refuse hi hs (hk.trans (State.ownset_owned ht f put gone h)) (by decide), fun h =>
    ⟨fun h1 h2 => exec_priv_refuse hi hs (hk.trans (State.ownset_running ht f put gone h h1 h2)) (by decide), fun h1 => ?_⟩⟩
  obtain ⟨n, hn, hc⟩ := hs.1
  have hcl := (targets_lt ht).1
  have ho : (s.setOwner cl ctx (put (s.owner cl ctx) m)).OwnersKept _ := hgone _ (f (s.owner cl ctx) &&& ~~~m)
  have hcur := ho.1.trans (show (s.setOwner cl ctx (put (s.owner cl ctx) m)).cur = s.cur from rfl)
  obtain ⟨t, ht1, ht2, ht3, ht4, -⟩ := answers_end (exec_priv_ok hi hs (hk.trans (State.ownset_sets ht f put gone h h1)) hcur)
    (hcur.trans hc) hn
  have hown (c : Nat) : t.owner cl c = if c = ctx then put (s.owner cl ctx) m else s.owner cl c := by
    rw [← State.owner_setOwner hcl, ← ho.2, State.owner_of_clusters ht4]
  exact ⟨t, ht1, ht2, by rw [hown, if_pos rfl], fun c hne => by rw [hown, if_neg hne], ht3, ht4⟩

end

theorem highBits_eq_zero_iff (m : BitVec 64) : field m 63 4 = 0 ↔ m.toNat < 16 := by
  have h : field m 63 4 = m.toNat / 16 := by
    rw [field, BitVec.extractLsb'_toNat, Nat.shiftRight_eq_div_pow]
    exact Nat.mod_eq_of_lt (by have := m.isLt; omega)
  rw [h, Nat.div_eq_zero_iff]
  omega

/-! ## PREQ (R84, R311) -/

theorem State.preq_of {s : State} {x : Word} {ctx : Nat} (ht : targetsCtx s x ctx) (k : Nat → List Nat → Priv) : s.preq x k =
    if (s.ctx ctx).state ≠ .running ∧ (s.ctx ctx).state ≠ .yielding then .refuse 2 s else k ctx (s.kernelCores ctx) := by
  obtain ⟨h1, rfl, h2⟩ := ht
  have e1 : field x 63 10 = 0 := by rw [field, h1]; rfl
  have hm : s.ctxMine (xaCtx x) = true := beq_iff_eq.mpr h2
  rw [State.preq, e1, hm]
  rfl

/-- A stream asked to yield (R84). -/
def Stream.asked (t : Stream) : Stream := { t with hart := { t.hart with stat := setBit t.hart.stat statYR true } }

/-- A stream that is no longer asked to yield, and runs if it had. -/
def Stream.unasked (t : Stream) : Stream :=
  { t with st := if t.st = .yielded then .run else t.st, hart := { t.hart with stat := setBit t.hart.stat statYR false } }

theorem Stream.asked_asked (t : Stream) : t.asked.asked = t.asked := by
  simp only [Stream.asked, setBit_setBit _ (show statYR < 64 by decide)]

theorem Stream.unasked_unasked (t : Stream) : t.unasked.unasked = t.unasked := by
  simp only [Stream.unasked, setBit_setBit _ (show statYR < 64 by decide)]
  by_cases h : t.st = .yielded <;> simp [h]

section

variable {g : Guard} {d a : XReg} {s : State} {x : Word} {ctx : Nat} (hs : station s g [a] [x]) (ht : targetsCtx s x ctx)

include hs ht

theorem exec_preq_refused (h1 : (s.ctx ctx).state ≠ .running) (h2 : (s.ctx ctx).state ≠ .yielding) :
    answers (.preqSet g d a) s s d (Statements.refused 2) ∧ answers (.preqClr g d a) s s d (Statements.refused 2) := by
  constructor
  · exact exec_priv_refuse (c := 2) rfl hs ((State.preq_of ht _).trans (if_pos ⟨h1, h2⟩)) (by decide)
  · exact exec_priv_refuse (c := 2) rfl hs ((State.preq_of ht _).trans (if_pos ⟨h1, h2⟩)) (by decide)

variable (h : (s.ctx ctx).state = .running ∨ (s.ctx ctx).state = .yielding)

include h

theorem exec_preqSet_runs : answers (.preqSet g d a) s (((s.mapCores (s.kernelCores ctx) Stream.asked)).setCtxState ctx .yielding) d
    (BitVec.ofNat 64 ((s.kernelCores ctx).flatMap fun c => allStreams.filter fun k => !(s.strm c k).safe).length) := by
  refine exec_priv_ok rfl hs ((State.preq_of ht _).trans (if_neg ?_)) (State.mapCores_cur _ _ s)
  rcases h with h | h <;> simp [h]

theorem exec_preqClr_runs : answers (.preqClr g d a) s
    (((s.mapCores (s.kernelCores ctx) Stream.unasked)).setCtxState ctx .running).free.2 d
    (setBit (((s.mapCores (s.kernelCores ctx) Stream.unasked)).setCtxState ctx .running).free.1 63 false) := by
  refine exec_priv_ok rfl hs ((State.preq_of ht _).trans (if_neg ?_)) (State.mapCores_cur _ _ s)
  rcases h with h | h <;> simp [h]

end

/-! ## TMARK (R310) -/

theorem State.tmark_of {s : State} {x : Word} (h1 : x.extractLsb' 26 38 = 0) (h2 : x.getLsbD 23 = false) (h3 : x.extractLsb' 0 16 = 0)
    (h4 : (s.part s.actingPart).pclu.getLsbD (x.extractLsb' 16 7).toNat = true) (force : Bool) :
    s.tmark x force = .ok (BitVec.ofNat 64 (s.core (4 * (x.extractLsb' 16 7).toNat + (x.extractLsb' 24 2).toNat)).window.length)
      (if force then s.tileMark (4 * (x.extractLsb' 16 7).toNat + (x.extractLsb' 24 2).toNat) else s) := by
  have e1 : field x 63 26 = 0 := by rw [field, h1]; rfl
  have e2 : field x 15 0 = 0 := by rw [field, h3]; rfl
  have hm : s.cluMine (xaCluster x) = true := h4
  rw [State.tmark, e1, e2, h2, hm]
  rfl

theorem State.tileMark_core {s : State} {core : Nat} (h : core < 512) :
    ((s.tileMark core).core core).window = [] ∧ ((s.tileMark core).core core).winHold = true := by
  rw [State.tileMark, State.backMark, State.core_updCore_same h, State.core_updCore_same h]
  have hw : ((s.retireWindow core).core core).window = [] := by
    rw [State.retireWindow, State.core_updCluster, State.core_updCore_same h]
  exact ⟨hw, rfl⟩

end Sys2Proof.Machine

namespace Sys2Proof.Proofs

open Machine Statements

theorem ownerMasks {g : Guard} {d a b : XReg} {s : State} {x m : Word} {cl ctx : Nat} (hs : station s g [a, b] [x, m])
    (ht : targets s x cl ctx) :
    ((∀ o ∈ (s.cluster cl).owners, o.1 ≠ ctx → o.2.bank &&& m = 0) →
      ((s.owner cl ctx).bank &&& ~~~m ≠ 0 → s.runsIn cl ctx = true → answers (.ownsetBank g d a b) s s d (Statements.refused 2)) ∧
      ((s.owner cl ctx).bank &&& ~~~m = 0 ∨ s.runsIn cl ctx = false →
      ∃ t, exec (.ownsetBank g d a b) s = .next t ∧ t.hart.get d = (if d = 0 then 0 else (s.owner cl ctx).bank) ∧
        (t.owner cl ctx).bank = m ∧ (t.owner cl ctx).core = (s.owner cl ctx).core ∧ (t.owner cl ctx).acm = (s.owner cl ctx).acm ∧
        (∀ c, c ≠ ctx → t.owner cl c = s.owner cl c) ∧ t.cores = s.cores ∧ (t.cluster cl).tiles = (s.cluster cl).tiles ∧
        (t.cluster cl).store = (s.cluster cl).store)) ∧
    ((∃ o ∈ (s.cluster cl).owners, o.1 ≠ ctx ∧ o.2.bank &&& m ≠ 0) → answers (.ownsetBank g d a b) s s d (Statements.refused 3)) := by
  obtain ⟨h1, h2⟩ := exec_ownset (d := d) (i := .ownsetBank g d a b) hs ht (f := Owner.bank) (put := fun o m => { o with bank := m })
    (gone := fun s _ _ _ => s) rfl rfl fun _ _ => ⟨rfl, fun _ _ => rfl⟩
  refine ⟨fun h => ?_, fun h => h1 (State.othersOwn_eq_true h)⟩
  obtain ⟨h3, h4⟩ := h2 (State.othersOwn_eq_false h)
  refine ⟨h3, fun h => ?_⟩
  obtain ⟨t, ht1, ht2, ht3, ht4, ht5, ht6⟩ := h4 h
  have hcl : (t.cluster cl).tiles = (s.cluster cl).tiles ∧ (t.cluster cl).store = (s.cluster cl).store := by
    have he : t.cluster cl = (s.setOwner cl ctx { s.owner cl ctx with bank := m }).cluster cl := by unfold State.cluster; rw [ht6]
    rw [he, State.setOwner, State.cluster_updCluster, if_pos ⟨rfl, (targets_lt ht).1⟩]
    exact ⟨rfl, rfl⟩
  exact ⟨t, ht1, ht2, by rw [ht3], by rw [ht3], by rw [ht3], ht4, ht5, hcl⟩

theorem journalAreas {g : Guard} {d a b : XReg} {s : State} {x y : Word} (hs : station s g [a, b] [x, y]) :
    let ctx := (x.extractLsb' 0 10).toNat
    let k := (x.extractLsb' 16 3).toNat
    (x.extractLsb' 19 45 ≠ 0 ∨ x.extractLsb' 10 6 ≠ 0 ∨ 4 < k → answers (.idem g d a b) s s d (Statements.refused 0x0B)) ∧
    (x.extractLsb' 19 45 = 0 → x.extractLsb' 10 6 = 0 → k ≤ 4 → (s.ctx ctx).part ≠ s.actingPart →
      answers (.idem g d a b) s s d (Statements.refused 1)) ∧
    (x.extractLsb' 19 45 = 0 → x.extractLsb' 10 6 = 0 → k ≤ 4 → (s.ctx ctx).part = s.actingPart →
      ((s.ctx ctx).state ≠ .idle → answers (.idem g d a b) s s d (Statements.refused 2)) ∧
      ((s.ctx ctx).state = .idle →
        (y.toNat % 65536 ≠ 0 ∨ (y ≠ 0 ∧ s.ownsRange s.actingPart y.toNat (2048 * 4096 * 2 ^ k) = false) →
          answers (.idem g d a b) s s d (Statements.refused 5)) ∧
        (y.toNat % 65536 = 0 → (y = 0 ∨ s.ownsRange s.actingPart y.toNat (2048 * 4096 * 2 ^ k) = true) →
          ∃ t, exec (.idem g d a b) s = .next t ∧ t.hart.get d = (if d = 0 then 0 else BitVec.ofNat 64 (s.ctx ctx).jbase) ∧
            (t.ctx ctx).jbase = y.toNat ∧ (t.ctx ctx).jk = k ∧ (∀ c, c ≠ ctx → t.ctx c = s.ctx c) ∧ t.cores = s.cores))) := by
  intro ctx k
  have hz {n : Nat} (v : BitVec n) : v.toNat ≠ 0 ↔ v ≠ 0 := not_congr (BitVec.toNat_inj (y := 0#n))
  have hbad {p : Prop} : (field x 63 19 ≠ 0 ∨ field x 15 10 ≠ 0 ∨ p) ↔ x.extractLsb' 19 45 ≠ 0 ∨ x.extractLsb' 10 6 ≠ 0 ∨ p :=
    or_congr (hz _) (or_congr (hz _) Iff.rfl)
  refine ⟨fun h => exec_priv_refuse (c := 0x0B) rfl hs (if_pos (hbad.mpr h)) (by decide), fun h1 h2 h3 h4 => ?_, fun h1 h2 h3 h4 => ?_⟩
  all_goals
    have hok : ¬(field x 63 19 ≠ 0 ∨ field x 15 10 ≠ 0 ∨ 4 < field x 18 16) := fun h =>
      (hbad.mp h).elim (· h1) fun h => h.elim (· h2) (Nat.not_lt.mpr h3)
  · have hm : (!s.ctxMine (xaCtx x)) = true := by
      rw [show s.ctxMine (xaCtx x) = false from beq_eq_false_iff_ne.mpr h4]
      rfl
    exact exec_priv_refuse (c := 1) rfl hs ((if_neg hok).trans (if_pos hm)) (by decide)
  · have hm : ¬(!s.ctxMine (xaCtx x)) = true := by
      rw [show s.ctxMine (xaCtx x) = true from beq_iff_eq.mpr h4]
      decide
    refine ⟨fun h => exec_priv_refuse (c := 2) rfl hs ((if_neg hok).trans ((if_neg hm).trans (if_pos h))) (by decide), fun hidle =>
      ⟨fun h => ?_, fun ha hr => ?_⟩⟩
    · refine exec_priv_refuse (c := 5) rfl hs ((if_neg hok).trans ((if_neg hm).trans ((if_neg (not_not.mpr hidle)).trans (if_pos ?_)))) (by decide)
      exact h.imp_right fun ⟨h5, h6⟩ => ⟨(hz y).mpr h5, by rw [Bool.not_eq_true']; exact h6⟩
    · obtain ⟨n, hn, hc⟩ := hs.1
      have hplaced : ¬(y.toNat % 65536 ≠ 0 ∨ (y.toNat ≠ 0 ∧ (!s.ownsRange s.actingPart y.toNat (2048 * 4096 * 2 ^ field x 18 16)) = true)) := by
        rintro (h | ⟨h5, h6⟩)
        · exact h ha
        · rcases hr with hr | hr
          · exact (hz y).mp h5 hr
          · rw [Bool.not_eq_true'] at h6
            exact Bool.false_ne_true (h6.symm.trans hr)
      obtain ⟨t, ht1, ht2, ht3, -, ht5⟩ := answers_end (exec_priv_ok (i := .idem g d a b) (d := d) rfl hs
        ((if_neg hok).trans ((if_neg hm).trans ((if_neg (not_not.mpr hidle)).trans (if_neg hplaced)))) rfl) hc hn
      have hx (c : Nat) : t.ctx c = if c = ctx ∧ ctx < 1024 then { s.ctx ctx with jbase := y.toNat, jk := k } else s.ctx c :=
        (show t.ctx c = _ by unfold State.ctx; rw [ht5]; rfl).trans (State.ctx_updCtx s ctx c fun c => { c with jbase := y.toNat, jk := k })
      have hlt : ctx < 1024 := BitVec.isLt _
      exact ⟨t, ht1, ht2, by rw [hx, if_pos ⟨rfl, hlt⟩], by rw [hx, if_pos ⟨rfl, hlt⟩], fun c hne => by rw [hx, if_neg fun e => hne e.1], ht3⟩

/-- Settles O43: what a station core's instruction answers, and the masks, states, areas and windows that it replaces. -/
theorem ownersAndRequests : Obligations.OwnersAndRequests := by
  refine ⟨fun g d a b s x m cl ctx hs ht => ?_, fun g d a s x ctx hs ht => ⟨fun h => ⟨?_, ?_⟩, exec_preq_refused hs ht⟩,
    fun g d a b s x y hs => ?_, fun g d a s x hs h1 h2 h3 h4 => ?_⟩
  · obtain ⟨b1, b2⟩ := ownerMasks (d := d) hs ht
    obtain ⟨a1, a2⟩ := exec_ownset (d := d) (i := .ownsetAcm g d a b) hs ht (f := Owner.acm) (put := fun o m => { o with acm := m })
      (gone := fun s cl _ m => s.updCluster cl fun c => { c with acmAlloc := c.acmAlloc.mapIdx fun n x => if m.getLsbD n then none else x })
      rfl rfl fun u w => State.ownersKept_updCluster ⟨rfl, fun _ _ => rfl⟩ cl fun _ => rfl
    have c1 (hm : m.toNat < 16) := exec_ownset (d := d) (i := .ownsetCore g d a b) hs ht (f := Owner.coreWord)
      (put := fun o m => { o with core := m.setWidth 4 })
      (gone := fun s cl ctx m => if (s.ctx ctx).state ≠ .saved then s else (upto 4).foldl (fun s k =>
          if m.getLsbD k then (s.setCore (4 * cl + k) coreReset).updCluster cl fun c =>
            { c with ranges := c.ranges.filter fun r => r.core != 4 * cl + k }
          else s) s) rfl (if_neg (not_not.mpr ((highBits_eq_zero_iff m).mpr hm))) fun u w => by
        split
        · exact ⟨rfl, fun _ _ => rfl⟩
        · exact State.ownersKept_resetCores cl w _
    refine ⟨b1, b2, fun h => ?_, fun h => a1 (State.othersOwn_eq_true h), fun h => ?_, fun hm h => ?_, fun hm h => ?_⟩
    · obtain ⟨a3, a4⟩ := a2 (State.othersOwn_eq_false h)
      refine ⟨a3, fun h => ?_⟩
      obtain ⟨t, ht1, ht2, ht3, ht4, ht5, -⟩ := a4 h
      exact ⟨t, ht1, ht2, by rw [ht3], by rw [ht3], by rw [ht3], ht4, ht5⟩
    · refine exec_priv_refuse (c := 0x0B) rfl hs (if_pos ?_) (by decide)
      exact (highBits_eq_zero_iff m).not.mpr (Nat.not_lt.mpr h)
    · refine (c1 hm).1 (State.othersOwn_eq_true ?_)
      obtain ⟨o, ho, hx, hw⟩ := h
      exact ⟨o, ho, hx, (coreWord_and_eq_zero o.2 m).not.mpr hw⟩
    · obtain ⟨c3, c4⟩ := (c1 hm).2 (State.othersOwn_eq_false fun o ho hx => (coreWord_and_eq_zero o.2 m).mpr (h o ho hx))
      have hz : (s.owner cl ctx).coreWord &&& ~~~m = 0 ↔ (s.owner cl ctx).core &&& ~~~m.setWidth 4 = 0 := by
        rw [coreWord_and_eq_zero, setWidth_not]
      refine ⟨fun h => c3 (hz.not.mpr h), fun h => ?_⟩
      obtain ⟨t, ht1, ht2, ht3, ht4, -⟩ := c4 (h.imp_left hz.mpr)
      exact ⟨t, ht1, ht2, by rw [ht3], by rw [ht3], by rw [ht3], ht4⟩
  · obtain ⟨n, hn, hc⟩ := hs.1
    have hx : ctx < 1024 := by obtain ⟨-, rfl, -⟩ := ht; exact BitVec.isLt _
    obtain ⟨t, ht1, ht2, ht3, -, ht5⟩ := answers_end (exec_preqSet_runs (g := g) (d := d) hs ht h)
      ((State.mapCores_cur _ _ s).trans hc) hn
    refine ⟨t, ht1, ?_, ?_, fun c hc hm st => ?_⟩
    · unfold State.ctx; rw [ht5]; exact State.ctx_setCtxState hx _
    · simp only [ht2, Stream.safe_eq]
      rfl
    · have hst : t.strm c st = (s.strm c st).asked := by
        have he : t.strm c st = (s.mapCores (s.kernelCores ctx) Stream.asked).strm c st := by
          unfold State.strm State.core; rw [ht3]; rfl
        rw [he, State.strm_mapCores Stream.asked_asked hc, if_pos hm]
      rw [hst]
      exact ⟨rfl, rfl⟩
  · obtain ⟨n, hn, hc⟩ := hs.1
    have hx : ctx < 1024 := by obtain ⟨-, rfl, -⟩ := ht; exact BitVec.isLt _
    obtain ⟨t, ht1, ht2, ht3, -, ht5⟩ := answers_end (exec_preqClr_runs (g := g) (d := d) hs ht h)
      ((State.mapCores_cur _ _ s).trans hc) hn
    refine ⟨t, ht1, ?_, fun hd => ?_, fun c hc hm st => ?_⟩
    · unfold State.ctx; rw [ht5]; exact State.ctx_setCtxState hx _
    · rw [ht2, if_neg hd, getLsbD_setBit _ (by decide), if_pos rfl]
    · have hst : t.strm c st = (s.strm c st).unasked := by
        have he : t.strm c st = (s.mapCores (s.kernelCores ctx) Stream.unasked).strm c st := by
          unfold State.strm State.core; rw [ht3]; rfl
        rw [he, State.strm_mapCores Stream.unasked_unasked hc, if_pos hm]
      rw [hst]
      exact ⟨rfl, rfl⟩
  · exact journalAreas hs
  · dsimp only
    have hq := State.tmark_of h1 h2 h3 h4
    have hlt : 4 * (x.extractLsb' 16 7).toNat + (x.extractLsb' 24 2).toNat < 512 := by
      have e1 := (x.extractLsb' 16 7).isLt
      have e2 := (x.extractLsb' 24 2).isLt
      omega
    obtain ⟨n, hn, hc⟩ := hs.1
    refine ⟨exec_priv_ok rfl hs (hq false) rfl, ?_⟩
    obtain ⟨t, ht1, ht2, ht3, -⟩ := answers_end (exec_priv_ok (i := .tmarkF g d a) (d := d) rfl hs (hq true) rfl) (by exact hc) hn
    have he := State.tileMark_core (s := s) hlt
    refine ⟨t, ht1, ?_, ?_, ht2⟩
    · unfold State.core at *; rw [ht3]; exact he.1
    · unfold State.core at *; rw [ht3]; exact he.2

end Sys2Proof.Proofs
end
section
/-! SUPPORT. The events of one stream, and the ends of what the shadow handler serves (R79, R84, R94, R99, R105, R148, R244, R321). -/

namespace Sys2Proof.Machine

/-! ## The events of a stream whose core's clocks run -/

section

variable {s : State} {core : Nat} (h : s.clocked core = true)

include h

theorem exec_evStreamWaitEnd (k : StreamId) : exec (.evStreamWaitEnd core k) s = .next (s.waitEnd core k) :=
  congrArg Host.Outcome.next (State.whenClocked_on h _)

theorem exec_evStreamYielded (k : StreamId) : exec (.evStreamYielded core k) s = .next (s.yielded core k) :=
  congrArg Host.Outcome.next (State.whenClocked_on h _)

theorem exec_evLoadFill (k : StreamId) (i : Nat) : exec (.evLoadFill core k i) s = .next (s.loadFill core k i) :=
  congrArg Host.Outcome.next (State.whenClocked_on h _)

theorem exec_evShadowResume_stream (k : StreamId) (how : ShadowEnd) :
    exec (.evShadowResume core k false how) s = .next (s.shadowStream core k how) :=
  congrArg Host.Outcome.next (State.whenClocked_on h _)

theorem exec_evShadowResume_copy (k : StreamId) (how : ShadowEnd) :
    exec (.evShadowResume core k true how) s = .next (s.shadowCopy core how) :=
  congrArg Host.Outcome.next (State.whenClocked_on h _)

end

/-! ## Waits and loads -/

theorem State.waitEnd_ready {s : State} {core : Nat} {k : StreamId} (hw : (s.strm core k).st = .wait)
    (hr : ∀ w, (s.strm core k).waiting = some w → ({ s with cur := .stream core k } : State).waitReady w = true) :
    s.waitEnd core k = s.updStrm core k fun t => { t with st := .run } := by
  have hall : (s.strm core k).waiting.all ({ s with cur := .stream core k } : State).waitReady = true := by
    rw [Option.all_eq_true]; exact hr
  rw [State.waitEnd]
  exact if_pos ⟨hw, hall⟩

theorem State.waitEnd_unready {s : State} {core : Nat} {k : StreamId} (h : (s.strm core k).st ≠ .wait ∨
    ∃ w, (s.strm core k).waiting = some w ∧ ({ s with cur := .stream core k } : State).waitReady w = false) : s.waitEnd core k = s := by
  rw [State.waitEnd]
  refine if_neg fun ⟨hw, hall⟩ => ?_
  rcases h with h | ⟨w, hs, hn⟩
  · exact h hw
  · rw [hs, Option.all_some, hn] at hall
    exact absurd hall nofun

/-- A slot filled in a data queue: its entry alone (R94). -/
theorem State.fillSlot_entries {core : Nat} (h : core < 512) (s : State) (q id : Nat) (v : Word) :
    (((s.fillSlot core (q, id) v).core core).dq.getD q dqReset).entries =
      ((s.core core).dq.getD q dqReset).entries.map fun e => if e = .reserved id then .filled v else e := by
  rw [State.fillSlot, State.core_updCore_same h]
  dsimp only
  rw [getD_setIfInBounds]
  by_cases hq : q < 8
  · rw [if_pos ⟨rfl, hq⟩]; rfl
  · rw [if_neg fun e => hq e.2, getD_eq, dif_neg hq]; rfl

theorem Core.setStrm_dq (c : Core) (k : StreamId) (t : Stream) : (c.setStrm k t).dq = c.dq := by cases k <;> rfl

theorem State.strm_fillSlot (s : State) (core : Nat) (x : Nat × Nat) (v : Word) (m : Nat) (j : StreamId) :
    (s.fillSlot core x v).strm m j = s.strm m j :=
  State.updCore_strm_of (fun j => by cases j <;> rfl) m j

/-! ## Registers of results -/

/-- Values put in a run of registers. -/
theorem getD_putRun {n : Nat} (l : List Word) (i : Nat) (x : Vector Word n) (j : Nat) (hj : j < n) (d : Word) :
    ((l.zipIdx i).foldl (fun (x : Vector Word n) v => x.setIfInBounds (3 + v.2) v.1) x).getD j d =
      if 3 + i ≤ j ∧ j < 3 + i + l.length then l.getD (j - (3 + i)) 0 else x.getD j d := by
  induction l generalizing i x with
  | nil =>
    rw [if_neg (by simp only [List.length_nil]; omega)]
    rfl
  | cons v l ih =>
    rw [List.zipIdx_cons, List.foldl_cons, ih, getD_setIfInBounds, List.length_cons]
    by_cases he : j = 3 + i
    · subst he
      rw [if_neg (by omega), if_pos ⟨rfl, hj⟩, if_pos (by omega), Nat.sub_self, List.getD_cons_zero]
    · rw [if_neg (fun e => he e.1 : ¬(j = 3 + i ∧ 3 + i < n))]
      split
      · rw [if_pos (by omega), show j - (3 + i) = j - (3 + (i + 1)) + 1 by omega, List.getD_cons_succ]
      · rw [if_neg (by omega)]

theorem XReg.get_eq (h : Hart) {r : XReg} (hr : r ≠ 0) : h.get r = h.x.getD r.toNat 0 := by
  rw [Hart.get, if_neg hr, getD_eq, dif_pos r.isLt]
  rfl

/-! ## The ends of a service (R99, R105, R211, R244) -/

section

variable {s : State} {core : Nat} {k : StreamId}

/-- A stream that resumes runs, with nothing held; without a skip and results it is at its word with its registers. -/
theorem State.unhold_strm (h : core < 512) (skip : Bool) (vs : List Word) :
    ((s.unhold core k skip vs).strm core k).st = .run ∧ ((s.unhold core k skip vs).strm core k).held = none ∧
      ((s.unhold core k skip vs).strm core k).hart.pc = (s.strm core k).hart.pc + (if skip then 1 else 0) := by
  rw [State.unhold, State.strm_updStrm_same h]
  refine ⟨rfl, rfl, ?_⟩
  cases skip <;> simp

theorem State.unhold_again (h : core < 512) : ((s.unhold core k false []).strm core k).hart = (s.strm core k).hart := by
  rw [State.unhold, State.strm_updStrm_same h]; rfl

/-- The results of a system call stand from x3 on (R105). -/
theorem State.unhold_get (h : core < 512) (skip : Bool) (vs : List Word) (r : XReg) :
    ((s.unhold core k skip vs).strm core k).hart.get r =
      if 3 ≤ r.toNat ∧ r.toNat < 3 + min 7 vs.length then vs.getD (r.toNat - 3) 0 else (s.strm core k).hart.get r := by
  rw [State.unhold, State.strm_updStrm_same h]
  by_cases hr : r = 0
  · subst hr
    exact (if_neg fun h => absurd h.1 (by decide)).symm
  · rw [XReg.get_eq _ hr, XReg.get_eq _ hr]
    dsimp only
    rw [getD_putRun _ _ _ _ r.isLt, List.length_take, Nat.add_zero]
    split
    · rw [List.getD_eq_getElem?_getD, List.getD_eq_getElem?_getD, List.getElem?_take_of_lt (by omega)]
    · rfl

variable {tr : Trap} (hst : (s.strm core k).st = .held) (hheld : (s.strm core k).held = some tr)

include hst hheld

theorem State.shadowStream_page_resume (hc : tr.cause = cPAGE) (hr : pageResolvable tr = true) :
    s.shadowStream core k .resume = s.unhold core k false [] := by
  simp [State.shadowStream, hst, hheld, hc, hr]

theorem State.shadowStream_page_asked (hc : tr.cause = cPAGE) (ha : s.pageAsked (clusterOf core) (s.ctxOf core) tr = true) :
    s.shadowStream core k .deliver = s := by
  simp [State.shadowStream, hst, hheld, hc, ha]

theorem State.shadowStream_page_deliver (hc : tr.cause = cPAGE) (ha : s.pageAsked (clusterOf core) (s.ctxOf core) tr = false) :
    s.shadowStream core k .deliver =
      (s.updStrm core k fun t => { t with heldArena := false }).deliver core k ((s.strm core k).deliverable tr) (s.strm core k).hart.pc := by
  simp [State.shadowStream, hst, hheld, hc, ha]

theorem State.shadowStream_access_resume (hc : tr.cause = cACCESS) : s.shadowStream core k .resume = s.unhold core k false [] := by
  simp [State.shadowStream, hst, hheld, hc, cACCESS, cPAGE]

theorem State.shadowStream_access_deliver (hc : tr.cause = cACCESS) :
    s.shadowStream core k .deliver = s.deliver core k tr (s.strm core k).hart.pc := by
  simp [State.shadowStream, hst, hheld, hc, cACCESS, cPAGE, cSYSC, cUE]

theorem State.shadowStream_sysc_results (hc : tr.cause = cSYSC) (vs : List Word) :
    s.shadowStream core k (.results vs) = s.unhold core k true vs := by
  simp [State.shadowStream, hst, hheld, hc, cACCESS, cPAGE, cSYSC]

theorem State.shadowStream_sysc_resume (hc : tr.cause = cSYSC) : s.shadowStream core k .resume = s.unhold core k true [] := by
  simp [State.shadowStream, hst, hheld, hc, cACCESS, cPAGE, cSYSC]

end

/-! ## A delivery by the shadow handler -/

theorem State.ctxOf_updStrm (s : State) (n : Nat) (k : StreamId) (f : Stream → Stream) (m : Nat) : (s.updStrm n k f).ctxOf m = s.ctxOf m :=
  State.ctxOf_updCore (by cases k <;> rfl) m

theorem State.partOf_updStrm (s : State) (n : Nat) (k : StreamId) (f : Stream → Stream) (m : Nat) :
    (s.updStrm n k f).partOf m = s.partOf m := by
  rw [State.partOf, State.ctxOf_updStrm]; rfl

theorem State.slotLine_updStrm (s : State) (n : Nat) (k : StreamId) (f : Stream → Stream) (m : Nat) (a : Word) :
    (s.updStrm n k f).slotLine m a = s.slotLine m a := by
  rw [State.slotLine, State.partOf_updStrm]; rfl

/-- What a stream holds does not bear on its code addresses. -/
theorem State.codeOk_updStrm (s : State) (n : Nat) (k : StreamId) (f : Stream → Stream) (m : Nat) (j : StreamId) (a : Word) :
    ({ s.updStrm n k f with cur := .stream m j } : State).codeOk a = ({ s with cur := .stream m j } : State).codeOk a := by
  have hp : ({ s.updStrm n k f with cur := .stream m j } : State).partOf m = s.partOf m := State.partOf_updStrm s n k f m
  have hx : ({ s.updStrm n k f with cur := .stream m j } : State).ctxOf m = s.ctxOf m := State.ctxOf_updStrm s n k f m
  unfold State.codeOk
  dsimp only
  rw [hp, hx]
  rfl

/-- What a delivery that enters the handler leaves of its stream (R103). -/
def State.Entered (t s : State) (core : Nat) (k : StreamId) (tr : Trap) (a : Word) : Prop :=
  let u := s.strm core k
  (t.strm core k).st = .run ∧ (t.strm core k).tepc = (if tr.cause = cUSER ∨ tr.cause = cSYSC then a + 1 else a) ∧
    (t.strm core k).tval = tr.tval ∧ (t.strm core k).tprc = u.hart.prc ∧ (t.strm core k).hart.pc = u.trapvec ∧
    (t.strm core k).hart.prc = 0 ∧ (t.strm core k).tcause = tcauseOf true tr.sub tr.cause

section

variable {s : State} {core : Nat} {k : StreamId}

theorem State.deliver_entered (h : core < 512) (hv : (s.strm core k).trapvec ≠ 0) (hi : tcauseIn (s.strm core k).tcause = false)
    (hk : ({ s with cur := .stream core k } : State).codeOk (s.strm core k).trapvec = true)
    (hl : s.lineTrouble (s.slotLine core (s.strm core k).trapvec) = false) (tr : Trap) (a : Word) :
    (s.deliver core k tr a).Entered s core k tr a := by
  have hstrm : (s.updCore core fun x => x.faultGiven k tr).strm core k = s.strm core k :=
    State.updCore_strm_of (fun j => Core.faultGiven_strm _ k j tr) core k
  rw [State.Entered, State.deliver_quiet hl, State.enterHandler_enters hv hi hk, State.strm_updStrm_same h, hstrm]
  exact ⟨rfl, rfl, rfl, rfl, rfl, rfl, rfl⟩

theorem State.deliver_ends (hf : (s.ctx (s.ctxOf core)).state ≠ .free)
    (h : (s.strm core k).trapvec = 0 ∨ tcauseIn (s.strm core k).tcause = true) (tr : Trap) (a : Word) :
    ((s.deliver core k tr a).ctx (s.ctxOf core)).state = .terminating := by
  rw [State.deliver_faults h]
  exact State.contextFault_state s _ _ (State.ctx_lt hf) hf

/-- A page fault of the arena forgotten as such, the stream is as it was to its handler. -/
theorem State.strm_forgetArena (h : core < 512) :
    (s.updStrm core k fun t => { t with heldArena := false }).strm core k = { s.strm core k with heldArena := false } :=
  State.strm_updStrm_same h s k _

theorem State.deliver_forgetArena_entered (h : core < 512) (hv : (s.strm core k).trapvec ≠ 0)
    (hi : tcauseIn (s.strm core k).tcause = false)
    (hk : ({ s with cur := .stream core k } : State).codeOk (s.strm core k).trapvec = true)
    (hl : s.lineTrouble (s.slotLine core (s.strm core k).trapvec) = false) (tr : Trap) (a : Word) :
    ((s.updStrm core k fun t => { t with heldArena := false }).deliver core k tr a).Entered s core k tr a := by
  have hs := State.strm_forgetArena (s := s) (k := k) h
  have he := State.deliver_entered (s := s.updStrm core k fun t => { t with heldArena := false }) (k := k) h (by rwa [hs]) (by rwa [hs])
    (by rwa [hs, State.codeOk_updStrm]) (by rw [hs, State.slotLine_updStrm]; exact hl) tr a
  rw [State.Entered, hs] at he
  exact he

theorem State.deliver_forgetArena_ends (h : core < 512) (hf : (s.ctx (s.ctxOf core)).state ≠ .free)
    (ht : (s.strm core k).trapvec = 0 ∨ tcauseIn (s.strm core k).tcause = true) (tr : Trap) (a : Word) :
    (((s.updStrm core k fun t => { t with heldArena := false }).deliver core k tr a).ctx (s.ctxOf core)).state = .terminating := by
  have hs := State.strm_forgetArena (s := s) (k := k) h
  have hx := State.ctxOf_updStrm s core k (fun t => { t with heldArena := false }) core
  have he := State.deliver_ends (s := s.updStrm core k fun t => { t with heldArena := false }) (core := core) (k := k)
    (by rw [hx]; exact hf) (by rwa [hs]) tr a
  rwa [hx] at he

end

/-! ## Engines (R148, R273, R321) -/

section

variable {s : State} {core : Nat} {tr : Trap} (hp : tr.cause = cPAGE)

include hp

theorem State.shadowCopy_copy_resume (hc : (s.core core).copyStopped = some tr) (hr : pageResolvable tr = true) :
    s.shadowCopy core .resume = s.updCore core fun c => { c with copyStopped := none } := by
  have hf : (some tr).filter (fun t : Trap => t.cause == cPAGE) = some tr := by simp [hp]
  simp [State.shadowCopy, hc, hf, hr]

theorem State.shadowCopy_copy_deliver (hc : (s.core core).copyStopped = some tr)
    (ha : s.pageAsked (clusterOf core) (s.ctxOf core) tr = false) : s.shadowCopy core .deliver = s.copyFault core tr := by
  have hf : (some tr).filter (fun t : Trap => t.cause == cPAGE) = some tr := by simp [hp]
  simp [State.shadowCopy, hc, hf, ha]

variable (hn : ∀ v, (s.core core).copyStopped = some v → v.cause ≠ cPAGE) (hc : (s.core core).collHeld = some tr)

include hn hc

theorem State.shadowCopy_chooses_coll :
    ((s.core core).copyStopped.filter (·.cause == cPAGE)).or ((s.core core).collHeld.filter (·.cause == cPAGE)) = some tr ∧
      (s.core core).copyStopped ≠ some tr := by
  refine ⟨?_, fun e => hn tr e hp⟩
  have hf : (s.core core).copyStopped.filter (·.cause == cPAGE) = none := by
    rw [Option.filter_eq_none_iff]; intro v hv; simpa using hn v hv
  rw [hf, hc]
  simp [hp]

theorem State.shadowCopy_coll_resume (hr : pageResolvable tr = true) : s.shadowCopy core .resume = s.holdColl core none := by
  obtain ⟨h1, h2⟩ := State.shadowCopy_chooses_coll hp hn hc
  simp [State.shadowCopy, h1, h2, hr]

theorem State.shadowCopy_coll_deliver (ha : s.pageAsked (clusterOf core) (s.ctxOf core) tr = false) :
    s.shadowCopy core .deliver = s.contextFault (s.ctxOf core) (some tr) := by
  obtain ⟨h1, h2⟩ := State.shadowCopy_chooses_coll hp hn hc
  simp [State.shadowCopy, h1, h2, ha]

end

end Sys2Proof.Machine

namespace Sys2Proof.Proofs

open Machine Statements

/-- What a delivered page fault gives TCAUSE: of the arena ACCESS, SUB 0x21, else its own cause (R244). -/
theorem Stream.deliverable_tcause (u : Stream) {tr : Trap} (hc : tr.cause = cPAGE) :
    tcauseOf true (u.deliverable tr).sub (u.deliverable tr).cause =
      if u.heldArena then tcauseOf true 0x21 cACCESS else tcauseOf true tr.sub cPAGE := by
  unfold Stream.deliverable
  split
  · rfl
  · rw [hc]

theorem Stream.deliverable_same (u : Stream) {tr : Trap} (hc : tr.cause = cPAGE) :
    (u.deliverable tr).tval = tr.tval ∧ ¬((u.deliverable tr).cause = cUSER ∨ (u.deliverable tr).cause = cSYSC) := by
  unfold Stream.deliverable
  split
  · exact ⟨rfl, by simp [cACCESS, cUSER, cSYSC]⟩
  · rw [hc]; exact ⟨rfl, by decide⟩

section

variable {s : State} {core : Nat} {k : StreamId} (hcore : core < 512) (hclk : s.clocked core = true)

include hcore hclk

theorem loadFill_fills (i : Nat) (l : PendingLoad) (hl : (s.strm core k).loads[i]? = some l) :
    (l.slot = none → ∃ t, exec (.evLoadFill core k i) s = .next t ∧ (t.strm core k).loads = (s.strm core k).loads.eraseIdx i ∧
        (t.strm core k).hart.get l.dst = (if l.dst = 0 then 0 else l.value) ∧
        ∀ r, r ≠ l.dst → (t.strm core k).hart.get r = (s.strm core k).hart.get r) ∧
      ∀ q id, l.slot = some (q, id) → ∃ t, exec (.evLoadFill core k i) s = .next t ∧
        (t.strm core k).loads = (s.strm core k).loads.eraseIdx i ∧ (t.strm core k).hart = (s.strm core k).hart ∧
        ((t.core core).dq.getD q dqReset).entries =
          ((s.core core).dq.getD q dqReset).entries.map fun e => if e = .reserved id then .filled l.value else e := by
  refine ⟨fun hs => ⟨_, exec_evLoadFill hclk k i, ?_⟩, fun q id hs => ⟨_, exec_evLoadFill hclk k i, ?_⟩⟩
  · simp only [State.loadFill, hl, hs, State.updStrm_updStrm, State.strm_updStrm_same hcore, true_and]
    refine ⟨?_, fun r hr => ?_⟩
    · rw [Hart.get_put, if_pos rfl]
    · rw [Hart.get_put, if_neg hr]
      split
      · next h0 => rw [h0]; rfl
      · rfl
  · simp only [State.loadFill, hl, hs, State.strm_fillSlot, State.strm_updStrm_same hcore, true_and]
    rw [State.fillSlot_entries hcore, State.core_updStrm_same hcore, Core.setStrm_dq]

/-- What a page fault's delivery leaves, by what the stream can take. -/
theorem pageFault_delivered {tr : Trap} (hst : (s.strm core k).st = .held) (hheld : (s.strm core k).held = some tr) (hc : tr.cause = cPAGE)
    (ha : s.pageAsked (clusterOf core) (s.ctxOf core) tr = false) :
    let u := s.strm core k
    (u.trapvec ≠ 0 → tcauseIn u.tcause = false → ({ s with cur := .stream core k } : State).codeOk u.trapvec = true →
      s.lineTrouble (s.slotLine core u.trapvec) = false →
        ∃ t, exec (.evShadowResume core k false .deliver) s = .next t ∧ (t.strm core k).st = .run ∧
          (t.strm core k).tepc = u.hart.pc ∧ (t.strm core k).tval = tr.tval ∧ (t.strm core k).tprc = u.hart.prc ∧
          (t.strm core k).hart.pc = u.trapvec ∧ (t.strm core k).hart.prc = 0 ∧
          (t.strm core k).tcause = if u.heldArena then tcauseOf true 0x21 cACCESS else tcauseOf true tr.sub cPAGE) ∧
    (u.trapvec = 0 ∨ tcauseIn u.tcause = true →
      ∃ t, exec (.evShadowResume core k false .deliver) s = .next t ∧ ending t s core) := by
  have he := exec_evShadowResume_stream hclk k .deliver
  rw [State.shadowStream_page_deliver hst hheld hc ha] at he
  refine ⟨fun hv hi hk hl => ⟨_, he, ?_⟩, fun h => ⟨_, he, State.deliver_forgetArena_ends hcore (State.clocked_ne_free hclk) h _ _⟩⟩
  obtain ⟨hrun, htepc, htval, htprc, hpc, hprc, htcause⟩ := State.deliver_forgetArena_entered hcore hv hi hk hl
    ((s.strm core k).deliverable tr) (s.strm core k).hart.pc
  obtain ⟨hval, hother⟩ := Stream.deliverable_same (s.strm core k) hc
  rw [if_neg hother] at htepc
  exact ⟨hrun, htepc, htval.trans hval, htprc, hpc, hprc, htcause.trans (Stream.deliverable_tcause _ hc)⟩

theorem pageFault_ended {tr : Trap} (hst : (s.strm core k).st = .held) (hheld : (s.strm core k).held = some tr) (hc : tr.cause = cPAGE) :
    (pageResolvable tr = true → ∃ t, exec (.evShadowResume core k false .resume) s = .next t ∧
        (t.strm core k).st = .run ∧ (t.strm core k).hart = (s.strm core k).hart ∧ (t.strm core k).held = none) ∧
      (s.pageAsked (clusterOf core) (s.ctxOf core) tr = true → exec (.evShadowResume core k false .deliver) s = .next s) := by
  refine ⟨fun hr => ⟨_, exec_evShadowResume_stream hclk k .resume, ?_⟩, fun ha => ?_⟩
  · rw [State.shadowStream_page_resume hst hheld hc hr]
    obtain ⟨hrun, hnone, -⟩ := State.unhold_strm (s := s) (k := k) hcore false []
    exact ⟨hrun, State.unhold_again hcore, hnone⟩
  · rw [exec_evShadowResume_stream hclk, State.shadowStream_page_asked hst hheld hc ha]

theorem access_ended {tr : Trap} (hst : (s.strm core k).st = .held) (hheld : (s.strm core k).held = some tr) (hc : tr.cause = cACCESS) :
    let u := s.strm core k
    (∃ t, exec (.evShadowResume core k false .resume) s = .next t ∧ (t.strm core k).st = .run ∧ (t.strm core k).hart = u.hart ∧
      (t.strm core k).held = none) ∧
    (u.trapvec ≠ 0 → tcauseIn u.tcause = false → ({ s with cur := .stream core k } : State).codeOk u.trapvec = true →
      s.lineTrouble (s.slotLine core u.trapvec) = false →
        ∃ t, exec (.evShadowResume core k false .deliver) s = .next t ∧ (t.strm core k).st = .run ∧ (t.strm core k).tepc = u.hart.pc ∧
          (t.strm core k).tval = tr.tval ∧ (t.strm core k).tcause = tcauseOf true tr.sub cACCESS ∧ (t.strm core k).hart.pc = u.trapvec) ∧
    (u.trapvec = 0 ∨ tcauseIn u.tcause = true →
      ∃ t, exec (.evShadowResume core k false .deliver) s = .next t ∧ ending t s core) := by
  have he := exec_evShadowResume_stream hclk k .deliver
  rw [State.shadowStream_access_deliver hst hheld hc] at he
  refine ⟨⟨_, exec_evShadowResume_stream hclk k .resume, ?_⟩, fun hv hi hk hl => ⟨_, he, ?_⟩,
    fun h => ⟨_, he, State.deliver_ends (State.clocked_ne_free hclk) h _ _⟩⟩
  · rw [State.shadowStream_access_resume hst hheld hc]
    obtain ⟨hrun, hnone, -⟩ := State.unhold_strm (s := s) (k := k) hcore false []
    exact ⟨hrun, State.unhold_again hcore, hnone⟩
  · obtain ⟨hrun, htepc, htval, -, hpc, -, htcause⟩ := State.deliver_entered hcore hv hi hk hl tr (s.strm core k).hart.pc
    rw [hc, if_neg (by decide)] at htepc
    exact ⟨hrun, htepc, htval, by rw [htcause, hc], hpc⟩

/-- A system call ends after its word, with its results from x3 on. -/
theorem systemCall_ended {tr : Trap} (hst : (s.strm core k).st = .held) (hheld : (s.strm core k).held = some tr) (hc : tr.cause = cSYSC)
    (vs : List Word) (how : ShadowEnd × List Word) (hm : how ∈ [(ShadowEnd.results vs, vs), (.resume, [])]) :
    ∃ t, exec (.evShadowResume core k false how.1) s = .next t ∧ (t.strm core k).st = .run ∧
      (t.strm core k).hart.pc = (s.strm core k).hart.pc + 1 ∧ ∀ r : XReg, (t.strm core k).hart.get r =
        if 3 ≤ r.toNat ∧ r.toNat < 3 + min 7 how.2.length then how.2.getD (r.toNat - 3) 0 else (s.strm core k).hart.get r := by
  have hsame : s.shadowStream core k how.1 = s.unhold core k true how.2 := by
    simp only [List.mem_cons, List.not_mem_nil, or_false] at hm
    rcases hm with rfl | rfl
    · exact State.shadowStream_sysc_results hst hheld hc vs
    · exact State.shadowStream_sysc_resume hst hheld hc
  obtain ⟨hrun, -, hpc⟩ := State.unhold_strm (s := s) (k := k) hcore true how.2
  exact ⟨_, (exec_evShadowResume_stream hclk k how.1).trans (congrArg _ hsame), hrun, hpc, State.unhold_get hcore true how.2⟩

theorem yielded_once_calm (hw : (s.strm core k).st = .wait) (hy : (s.strm core k).waiting = some .yielding) (hl : (s.strm core k).loads = [])
    (hr : (s.strm core k).remote = []) (hyr : (s.strm core k).hart.stat.getLsbD statYR = true) :
    ∃ t, exec (.evStreamYielded core k) s = .next t ∧ (t.strm core k).st = .yielded ∧
      (t.strm core k).hart.pc = (s.strm core k).hart.pc + 1 := by
  refine ⟨_, exec_evStreamYielded hclk k, ?_⟩
  have hcalm : (s.strm core k).calm = true := by simp [Stream.calm, hl, hr]
  rw [State.yielded, State.strm_updStrm_same hcore, if_pos ⟨hw, hy, hcalm, hyr⟩]
  exact ⟨rfl, rfl⟩

theorem copyPageFault_ended {tr : Trap} (hs : (s.core core).copyStopped = some tr) (hc : tr.cause = cPAGE) :
    (pageResolvable tr = true →
        ∃ t, exec (.evShadowResume core k true .resume) s = .next t ∧ (t.core core).copyStopped = none) ∧
      (s.pageAsked (clusterOf core) (s.ctxOf core) tr = false →
        ∃ t, exec (.evShadowResume core k true .deliver) s = .next t ∧ ending t s core) := by
  refine ⟨fun hr => ⟨_, exec_evShadowResume_copy hclk k .resume, ?_⟩, fun ha => ⟨_, exec_evShadowResume_copy hclk k .deliver, ?_⟩⟩
  · rw [State.shadowCopy_copy_resume hc hs hr, State.core_updCore_same hcore]
  · rw [State.shadowCopy_copy_deliver hc hs ha]
    exact State.copyFault_state (State.clocked_ne_free hclk) tr

theorem collPageFault_ended {tr : Trap} (hn : ∀ v, (s.core core).copyStopped = some v → v.cause ≠ cPAGE)
    (hs : (s.core core).collHeld = some tr) (hc : tr.cause = cPAGE) :
    (pageResolvable tr = true →
        ∃ t, exec (.evShadowResume core k true .resume) s = .next t ∧ (t.core core).collHeld = none) ∧
      (s.pageAsked (clusterOf core) (s.ctxOf core) tr = false →
        ∃ t, exec (.evShadowResume core k true .deliver) s = .next t ∧ ending t s core) := by
  refine ⟨fun hr => ⟨_, exec_evShadowResume_copy hclk k .resume, ?_⟩, fun ha => ⟨_, exec_evShadowResume_copy hclk k .deliver, ?_⟩⟩
  · rw [State.shadowCopy_coll_resume hc hn hs hr, State.holdColl, State.core_updCore_same hcore]
  · rw [State.shadowCopy_coll_deliver hc hn hs ha]
    have hf := State.clocked_ne_free hclk
    exact State.contextFault_state s _ _ (State.ctx_lt hf) hf

end

/-- Settles O47, by the event and by what the stream or the engine waits for or holds. -/
theorem streamEvents : Obligations.StreamEvents := by
  intro s core k ⟨hcore, hclk⟩
  refine ⟨fun hw hr => ⟨_, exec_evStreamWaitEnd hclk k, ?_⟩, fun h => ?_, yielded_once_calm hcore hclk, loadFill_fills hcore hclk,
    fun hst tr hheld => ⟨fun hc => ?_, access_ended hcore hclk hst hheld, systemCall_ended hcore hclk hst hheld⟩,
    fun tr hs hc => copyPageFault_ended hcore hclk hs hc, fun tr hn hs hc => collPageFault_ended hcore hclk hn hs hc⟩
  · rw [State.waitEnd_ready hw hr, State.strm_updStrm_same hcore]
    exact ⟨rfl, rfl⟩
  · rw [exec_evStreamWaitEnd hclk, State.waitEnd_unready h]
  · obtain ⟨hresume, hasked⟩ := pageFault_ended hcore hclk hst hheld hc
    exact ⟨hresume, hasked, pageFault_delivered hcore hclk hst hheld hc⟩

end Sys2Proof.Proofs
end
section
/-! SUPPORT. The events of a kernel's life: the front end, placement, the end of a job, retirement and termination (R82, R134, R289 to R296,
R313). -/

namespace Sys2Proof.Machine

/-! ## Queues (R289) -/

/-- The first member of a kind, of a list in which the members of the kind are updated. -/
theorem find?_map_ite {α : Type} {p : α → Bool} {f : α → α} (hf : ∀ a, p (f a) = p a) (l : List α) :
    (l.map fun a => if p a then f a else a).find? p = (l.find? p).map f := by
  have hcomp : (p ∘ fun a => if p a then f a else a) = p := by
    funext a
    dsimp only [Function.comp]
    split
    · exact hf a
    · rfl
  rw [List.find?_map, hcomp]
  cases h : l.find? p with
  | none => rfl
  | some a => rw [Option.map_some, Option.map_some, if_pos (List.find?_some h)]

theorem State.queue?_updQueue {s : State} {part id : Nat} {f : SubQueue → SubQueue} (hf : ∀ q, (f q).part = q.part ∧ (f q).id = q.id) :
    (s.updQueue part id f).queue? part id = (s.queue? part id).map f :=
  find?_map_ite (p := fun q : SubQueue => q.part == part && q.id == id) (fun q => by rw [(hf q).1, (hf q).2]) s.queues

/-- The head of a queue that holds an entry committed. -/
theorem SubQueue.commitTo_head {q : SubQueue} (h : q.intake ≠ []) :
    q.commitTo q.head = some { q with intake := q.intake.drop 1, commit := q.commit + 1 } := by
  have hk : (q.head - q.commit).toNat = 1 := by
    rw [SubQueue.head, BitVec.add_comm, BitVec.add_sub_cancel]; rfl
  have hl : 0 < q.intake.length := List.length_pos_of_ne_nil h
  rw [SubQueue.commitTo, hk]
  exact if_pos ⟨Nat.le_refl 1, hl⟩

theorem SubQueue.commitTo_keeps (q : SubQueue) (n : BitVec 32) : ((q.commitTo n).getD q).part = q.part ∧ ((q.commitTo n).getD q).id = q.id := by
  unfold SubQueue.commitTo
  dsimp only
  split <;> exact ⟨rfl, rfl⟩

theorem State.commitNext_queue {s : State} {part id : Nat} {q : SubQueue} (hq : s.queue? part id = some q) (h : q.intake ≠ []) :
    (s.commitNext part id).queue? part id = some { q with intake := q.intake.drop 1, commit := q.commit + 1 } := by
  rw [State.commitNext, State.queue?_updQueue fun q => SubQueue.commitTo_keeps q q.head, hq, Option.map_some, SubQueue.commitTo_head h]
  rfl

/-! ## What a completion word changes (R295) -/

/-- What the writing of memory leaves as it is: the cores, the kernels, the queues, the pins and the requests of partitions. -/
structure State.KernelsKept (r s : State) : Prop where
  cores : s.cores = r.cores
  kernels : s.kernels = r.kernels
  queues : s.queues = r.queues
  pins : s.pins = r.pins
  pkill : ∀ p, (s.part p).pkill = (r.part p).pkill

namespace State.KernelsKept

variable {r s : State}

theorem refl (r : State) : r.KernelsKept r := ⟨rfl, rfl, rfl, rfl, fun _ => rfl⟩

theorem trans {t : State} (h1 : r.KernelsKept s) (h2 : s.KernelsKept t) : r.KernelsKept t :=
  ⟨h2.cores.trans h1.cores, h2.kernels.trans h1.kernels, h2.queues.trans h1.queues, h2.pins.trans h1.pins,
    fun p => (h2.pkill p).trans (h1.pkill p)⟩

theorem fields (h : r.KernelsKept s) {t : State} (h1 : t.cores = s.cores := by rfl) (h2 : t.kernels = s.kernels := by rfl)
    (h3 : t.queues = s.queues := by rfl) (h4 : t.pins = s.pins := by rfl) (h5 : t.parts = s.parts := by rfl) : r.KernelsKept t :=
  h.trans ⟨h1, h2, h3, h4, fun p => by rw [State.part, h5]; rfl⟩

theorem updPart (h : r.KernelsKept s) {p : Nat} {f : Partition → Partition} (hf : (f (s.part p)).pkill = (s.part p).pkill) :
    r.KernelsKept (s.updPart p f) := by
  refine h.trans ⟨rfl, rfl, rfl, rfl, fun q => ?_⟩
  rw [State.part_updPart]
  split
  · next hq => rw [hf, hq.1]
  · rfl

theorem closed (r : State) : MemClosed r.KernelsKept where
  mem h e := by rw [e]; exact h.fields
  fault h := h.fields
  part h hf := h.updPart (by rw [hf])
  tlb h := h.fields
  asks h _ := h.fields

theorem store (h : r.KernelsKept s) (ks : List Nat) (a n : Nat) : r.KernelsKept ((s.settle ks).dropReleases a n) := by
  unfold State.settle
  split
  · exact h.fields
  · exact h.fields

theorem carryAll (h : r.KernelsKept s) (cs : List Nat) : r.KernelsKept (s.carryAll cs) := by
  unfold State.carryAll
  split
  · exact h
  · exact h.fields

theorem doneStore (h : r.KernelsKept s) (k : Kernel) (cl status : Nat) : Yields r.KernelsKept r.KernelsKept (s.doneStore k cl status) := by
  have hl := (closed r).locate (cl := cl) (ctx := k.ctx) (va := addr56 k.done) (write := true) h
  unfold State.doneStore
  dsimp only
  refine Yields.ite h (Yields.ite h.fields ?_)
  split
  · next e => exact hl.error e
  · next e => exact Yields.ite (hl.error e) (State.KernelsKept.fields (hl.error e))
  · next e => exact State.KernelsKept.fields (hl.error e)
  · next e => exact State.KernelsKept.fields (hl.error e)
  · next e => exact State.KernelsKept.fields (hl.ok e)
  · next s1 e =>
    have h1 : r.KernelsKept s1 := hl.ok e
    exact State.KernelsKept.store h1.fields _ _ _
  · next s1 e =>
    have h1 : r.KernelsKept s1 := hl.ok e
    split
    · next e2 => exact State.KernelsKept.store (((closed r).homeWrite h1).ok e2) _ _ _
    · next e2 => exact ((closed r).homeWrite h1).error e2

end State.KernelsKept

/-! ## Placement (R290) -/

theorem State.pick_kernels (s : State) (k : Kernel) : (s.pick k).2.kernels = s.kernels := by
  refine List.foldlRecOn (motive := fun x : Option (Nat × Kernel) × State => x.2.kernels = s.kernels) _ _ rfl fun x hx j _ => ?_
  change (x.2.polRun j.ctx 1 (x.2.pickInputs j)).2.kernels = s.kernels
  rw [← hx, State.polRun]
  split <;> rfl

/-- A fold that may fail keeps what each step keeps. -/
theorem foldl_bind_keeps {α : Type} {Q : State → Prop} {f : State → α → Option State} (hf : ∀ s a t, Q s → f s a = some t → Q t)
    (l : List α) {s t : State} (hs : Q s) (h : l.foldl (fun o a => o.bind fun s => f s a) (some s) = some t) : Q t := by
  refine List.foldlRecOn (motive := fun o : Option State => ∀ t, o = some t → Q t) l _ (fun t ht => ?_) (fun o ho a _ t ht => ?_) t h
  · cases ht; exact hs
  · obtain ⟨u, hu, hut⟩ := Option.bind_eq_some_iff.mp ht
    exact hf u a t (ho u hu) hut

theorem State.switchBank_keeps (s : State) (cl b : Nat) (m : BankMode) :
    (s.switchBank cl b m).contexts = s.contexts ∧ (s.switchBank cl b m).kernels = s.kernels := by
  unfold State.switchBank State.settleLines
  split <;> exact ⟨rfl, rfl⟩

/-- A record applied keeps the contexts and the kernels. -/
theorem State.applyRec_keeps {s t : State} {k : Kernel} {cl : Nat} {r : CfgRec} (h : s.applyRec k cl r = some t) :
    t.contexts = s.contexts ∧ t.kernels = s.kernels := by
  simp only [State.applyRec] at h
  split at h
  · split at h
    · cases h
    · cases h; exact ⟨rfl, rfl⟩
  · split at h
    · cases h; exact ⟨rfl, rfl⟩
    · split at h
      · cases h
      · split at h
        · cases h
        · cases h; exact State.switchBank_keeps _ _ _ _

theorem State.applyAll_keeps {s t : State} {k : Kernel} {cls : List Nat} (h : s.applyAll k cls = some t) :
    t.contexts = s.contexts ∧ t.kernels = s.kernels := by
  refine foldl_bind_keeps (Q := fun x => x.contexts = s.contexts ∧ x.kernels = s.kernels) (fun u cl v hu hv => ?_) cls ⟨rfl, rfl⟩ h
  refine foldl_bind_keeps (Q := fun x => x.contexts = s.contexts ∧ x.kernels = s.kernels) (fun u r v hu hv => ?_) _ hu hv
  obtain ⟨h1, h2⟩ := State.applyRec_keeps hv
  exact ⟨h1.trans hu.1, h2.trans hu.2⟩

/-- Each core of a list is updated once. -/
theorem State.core_foldl_updCore {g : Core → Core} {l : List Nat} (hn : l.Nodup) (hl : ∀ c ∈ l, c < 512) (s : State) (m : Nat) :
    (l.foldl (fun s c => s.updCore c g) s).core m = if m ∈ l then g (s.core m) else s.core m := by
  induction l generalizing s with
  | nil => simp
  | cons c l ih =>
    obtain ⟨hc, hn⟩ := List.nodup_cons.mp hn
    rw [List.foldl_cons, ih hn fun x hx => hl x (List.mem_cons_of_mem _ hx)]
    by_cases hm : m = c
    · subst hm
      rw [if_neg hc, if_pos List.mem_cons_self, State.core_updCore_same (hl m List.mem_cons_self)]
    · rw [State.core_updCore_ne hm]
      simp [List.mem_cons, hm]

theorem State.foldl_updCore_keeps {g : Core → Core} (l : List Nat) (s : State) :
    (l.foldl (fun s c => s.updCore c g) s).contexts = s.contexts ∧ (l.foldl (fun s c => s.updCore c g) s).kernels = s.kernels ∧
      (l.foldl (fun s c => s.updCore c g) s).clusters = s.clusters := by
  refine List.foldlRecOn (motive := fun t : State => t.contexts = s.contexts ∧ t.kernels = s.kernels ∧ t.clusters = s.clusters) l _
    ⟨rfl, rfl, rfl⟩ fun t ht c _ => ht

/-- An ascending list has no member twice. -/
theorem nodup_of_ascending {l : List Nat} (h : (l.zip (l.drop 1)).all (fun x => decide (x.1 < x.2)) = true) : l.Nodup := by
  have hs : l.Pairwise (· < ·) := by
    rw [← List.isChain_iff_pairwise]
    induction l with
    | nil => exact .nil
    | cons a l ih =>
      cases l with
      | nil => exact .singleton a
      | cons b l =>
        rw [List.drop_one, List.tail_cons, List.zip_cons_cons, List.all_cons, Bool.and_eq_true, decide_eq_true_iff] at h
        exact .cons_cons h.1 (ih h.2)
  exact hs.imp Nat.ne_of_lt

theorem State.kernel?_id {s : State} {id : Nat} {k : Kernel} (h : s.kernel? id = some k) : k.id = id := by
  have := List.find?_some h
  simpa using this

theorem State.kernel?_updKernel {s : State} {id : Nat} {f : Kernel → Kernel} (hf : ∀ k, (f k).id = k.id) :
    (s.updKernel id f).kernel? id = (s.kernel? id).map f :=
  find?_map_ite (p := fun k : Kernel => k.id == id) (fun k => by rw [hf k]) s.kernels

section

variable {s : State} {k : Kernel} {cores : List Nat}

theorem State.startKernel_lost {u : State} (h : s.lookLine ((s.part k.part).slotTable / 64 + k.slot) none = .error (.lost, u)) :
    s.startKernel k cores = u := by rw [State.startKernel, h]

theorem State.startKernel_poison {u : State} (h : s.lookLine ((s.part k.part).slotTable / 64 + k.slot) none = .error (.poison, u)) :
    s.startKernel k cores = u.contextFault k.ctx (some ⟨cUE, 0, codeAddr k.slot 0⟩) := by rw [State.startKernel, h]

variable {u : State} (hl : s.lookLine ((s.part k.part).slotTable / 64 + k.slot) none = .ok u)

include hl

theorem State.startKernel_waits (ha : u.applyAll k (nubNat (cores.map clusterOf)) = none) {v : State}
    (hd : u.doneStore k ((nubNat (cores.map clusterOf)).headD 0) 0x0E = .error v) : s.startKernel k cores = v := by
  simp only [State.startKernel, hl, ha, hd]

theorem State.startKernel_refused (ha : u.applyAll k (nubNat (cores.map clusterOf)) = none) {v : State}
    (hd : u.doneStore k ((nubNat (cores.map clusterOf)).headD 0) 0x0E = .ok v) : s.startKernel k cores = v.dropKernel k.id := by
  simp only [State.startKernel, hl, ha, hd]

/-- The kernel as a placement on a core set leaves it (R290). -/
def Kernel.placedOn (cores : List Nat) (k : Kernel) : Kernel :=
  { k with placed := true, cores := cores, race := [], step := 0, barriers := [], comm := false, commAt := 0, commProg := ⟨none, 0⟩ }

/-- A state whose cores have started on a kernel (R291). -/
def State.coresStarted (s u : State) (k : Kernel) (cores : List Nat) : State :=
  (cores.foldl (fun s c => s.updCore c (startCore u.stamp k.id k.slot (u.slotEntry k.part k.slot))) s).updKernel k.id (Kernel.placedOn cores)

theorem State.startKernel_starts {v : State} (ha : u.applyAll k (nubNat (cores.map clusterOf)) = some v) :
    s.startKernel k cores = if ((v.coresStarted u k cores).ctx k.ctx).state = .idle then (v.coresStarted u k cores).setCtxState k.ctx .running
      else v.coresStarted u k cores := by
  simp only [State.startKernel, hl, ha]
  rfl

end

theorem State.startKernel_keeps {s u v : State} {k : Kernel} {cores : List Nat}
    (hl : s.lookLine ((s.part k.part).slotTable / 64 + k.slot) none = .ok u)
    (ha : u.applyAll k (nubNat (cores.map clusterOf)) = some v) :
    (s.startKernel k cores).kernels = (v.coresStarted u k cores).kernels ∧ (s.startKernel k cores).clusters = (v.coresStarted u k cores).clusters ∧
      ∀ m, (s.startKernel k cores).core m = (v.coresStarted u k cores).core m := by
  rw [State.startKernel_starts hl ha]
  split <;> exact ⟨rfl, rfl, fun _ => rfl⟩

theorem State.placeKernel_idle {s : State} {kid : Nat} {cores : List Nat} {k : Kernel} (hk : s.kernel? kid = some k)
    (h : s.mayPlace k cores = false ∨ (s.picked? k = true ∧ (s.pick k).1 = false)) : s.placeKernel kid cores = s := by
  rw [State.placeKernel, hk]
  rcases h with h | ⟨hp, hn⟩
  · simp [h]
  · simp [hp, hn]

theorem State.placeKernel_goes {s : State} {kid : Nat} {cores : List Nat} {k : Kernel} (hk : s.kernel? kid = some k)
    (hm : s.mayPlace k cores = true) (hp : s.picked? k = true → (s.pick k).1 = true) :
    s.placeKernel kid cores = (if s.picked? k = true then (s.pick k).2 else s).startKernel k cores := by
  rw [State.placeKernel, hk]
  by_cases h : s.picked? k = true
  · simp [hm, h, hp h]
  · simp [hm, h]

/-- A core set that a kernel may take is one of distinct cores of the part (R290). -/
theorem State.mayPlace_cores {s : State} {k : Kernel} {cores : List Nat} (h : s.mayPlace k cores = true) :
    cores.Nodup ∧ ∀ c ∈ cores, c < 512 := by
  simp only [State.mayPlace, Bool.and_eq_true] at h
  obtain ⟨⟨⟨⟨⟨⟨⟨-, hup⟩, hlt⟩, -⟩, -⟩, -⟩, -⟩, -⟩ := h
  refine ⟨nodup_of_ascending hup, fun c hc => ?_⟩
  simpa using List.all_eq_true.mp hlt c hc

theorem State.coresStarted_core {v u : State} {k : Kernel} {cores : List Nat} (hn : cores.Nodup) (hl : ∀ c ∈ cores, c < 512) {c : Nat}
    (hc : c ∈ cores) :
    (v.coresStarted u k cores).core c = startCore u.stamp k.id k.slot (u.slotEntry k.part k.slot) (v.core c) := by
  change (cores.foldl _ v).core c = _
  rw [State.core_foldl_updCore hn hl, if_pos hc]

theorem State.coresStarted_kernel? {v u : State} {k : Kernel} {cores : List Nat} (hk : v.kernel? k.id = some k) :
    (v.coresStarted u k cores).kernel? k.id = some (k.placedOn cores) := by
  have hf := (State.foldl_updCore_keeps (g := startCore u.stamp k.id k.slot (u.slotEntry k.part k.slot)) cores v).2.1
  rw [State.coresStarted, State.kernel?_updKernel (f := Kernel.placedOn cores) fun _ => rfl, State.kernel?, hf]
  exact congrArg (Option.map _) hk

end Sys2Proof.Machine

namespace Sys2Proof.Proofs

open Machine Statements

/-- A state whose next entry is committed. -/
theorem commitNext_committed (s : State) (part id : Nat) : committed s (s.commitNext part id) part id :=
  fun _ hq h => State.commitNext_queue hq h

theorem frontEnd_consumes : frontEndPart := by
  intro s part id q hq
  refine ⟨fun h => ?_, fun hf hi hp => ?_⟩
  · refine congrArg Host.Outcome.next ?_
    rw [State.frontEnd, hq]
    refine if_pos ?_
    rcases h with h | h | h
    · simp [h]
    · simp [h]
    · have hp : ((s.part part.toNat).pstat != 2) = true := bne_iff_ne.mpr h
      rw [hp, Bool.or_true]
  · have hgo : ¬(!q.fast || q.intake.isEmpty || (s.part part.toNat).pstat != 2) = true := by simp [hf, hi, hp]
    have he (t : State) (h : s.frontEnd part.toNat id.toNat = t) : exec (.evFrontEndConsume part id) s = .next t :=
      congrArg Host.Outcome.next h
    dsimp only
    refine ⟨fun s1 hr => he _ ?_, fun code s1 hr => ⟨_, he _ (?_ : _ = s1.commitNext part.toNat id.toNat), rfl, commitNext_committed _ _ _⟩,
      fun pk s1 hr => ⟨fun kn s2 hc => ⟨_, he _ (?_ : _ = (s2.commitNext part.toNat id.toNat).addKernel kn), rfl, commitNext_committed _ _ _⟩,
        fun s2 hc => he _ ?_, fun code s2 hc => ⟨fun s3 hs => he _ ?_,
          fun s3 hs => ⟨_, he _ (?_ : _ = s3.commitNext part.toNat id.toNat), rfl, rfl, rfl, rfl, commitNext_committed _ _ _⟩⟩⟩⟩
    all_goals
      rw [State.frontEnd, hq]
      dsimp only
      rw [if_neg hgo, hr]
    all_goals
      dsimp only
      rw [hc]
    all_goals
      dsimp only
      rw [hs]

theorem kernel_placed : placementPart := by
  intro s kid cores kn hk
  have hid : kn.id = kid := State.kernel?_id hk
  have hker : (if s.picked? kn = true then (s.pick kn).2 else s).kernels = s.kernels := by
    split
    · exact State.pick_kernels s kn
    · rfl
  dsimp only
  refine ⟨fun h => congrArg Host.Outcome.next (State.placeKernel_idle hk h), fun hm hp => ?_⟩
  have he {t : State} (h : (if s.picked? kn = true then (s.pick kn).2 else s).startKernel kn cores = t) :
      exec (.evKernelPlace kid cores) s = .next t := congrArg Host.Outcome.next ((State.placeKernel_goes hk hm hp).trans h)
  generalize (if s.picked? kn = true then (s.pick kn).2 else s) = s0 at he hker
  obtain ⟨hnodup, hlt⟩ := State.mayPlace_cores hm
  refine ⟨fun u hl => he (State.startKernel_lost hl), fun u hl hf hx => ⟨_, he (State.startKernel_poison hl), ?_, rfl⟩, fun u hl => ⟨fun s1 ha => ?_,
    fun ha => ⟨fun s1 hd => he (State.startKernel_waits hl ha hd), fun s1 hd => ⟨_, he (State.startKernel_refused hl ha hd), ?_, rfl, rfl, rfl, rfl⟩⟩⟩⟩
  · exact State.contextFault_state u kn.ctx _ hx hf
  · obtain ⟨hctx, hkern⟩ := State.applyAll_keeps ha
    have hu : u.kernels = s0.kernels := ((State.KernelsKept.closed s0).lookLine (State.KernelsKept.refl s0)).ok hl |>.kernels
    have hk1 : s1.kernel? kn.id = some kn := by
      rw [State.kernel?, hkern, hu, hker, hid]
      exact hk
    obtain ⟨hks, hcl, hcore⟩ := State.startKernel_keeps hl ha
    obtain ⟨hctxs, -, hcls⟩ :=
      State.foldl_updCore_keeps (g := startCore u.stamp kn.id kn.slot (u.slotEntry kn.part kn.slot)) cores s1
    refine ⟨_, he rfl, ?_, hcl.trans hcls, fun c hc => ?_, fun hidle => ?_⟩
    · rw [State.kernel?, hks, ← hid]
      exact congrArg (Option.map _) (State.coresStarted_kernel? (u := u) (cores := cores) hk1)
    · have hstart := (hcore c).trans (State.coresStarted_core (u := u) (v := s1) (k := kn) hnodup hlt hc)
      have hs (j : StreamId) := congrArg (fun x : Core => x.strm j) hstart
      exact ⟨(congrArg Core.kernel hstart).trans (congrArg some hid), ⟨congrArg Stream.st (hs .A), congrArg Stream.hart (hs .A),
        congrArg Stream.lists (hs .A)⟩, congrArg Stream.st (hs .X), congrArg Stream.st (hs .M), congrArg Stream.st (hs .C)⟩
    · have hsame : (s1.coresStarted u kn cores).ctx kn.ctx = u.ctx kn.ctx :=
        congrArg (fun v : Vector Context 1024 => v.getD kn.ctx contextReset) (hctxs.trans hctx)
      have hlt : kn.ctx < 1024 := State.ctx_lt (s := u) (by rw [hidle]; exact nofun)
      rw [State.startKernel_starts hl ha, if_pos (by rw [hsame, hidle]), State.ctx_setCtxState hlt]
  · intro j hj
    rw [← hid]
    simpa using (List.mem_filter.mp hj).2

end Sys2Proof.Proofs
end
section
/-! SUPPORT. The end of a job, of a kernel and of a context (R82, R186, R238, R295, R296, R313). -/

namespace Sys2Proof.Machine

/-- A vector whose default the function keeps, read after the function is applied to every member. -/
theorem getD_map {α β : Type} {n : Nat} (v : Vector α n) (f : α → β) (i : Nat) (d : α) : (v.map f).getD i (f d) = f (v.getD i d) := by
  rw [getD_eq, getD_eq]
  split
  · rw [Vector.getElem_map]
  · rfl

/-! ## The end of a job (R82) -/

/-- The pins of all streams of a core lifted: none is left of it, and nothing else changes. -/
theorem State.liftAllPins (s : State) (core : Nat) :
    allStreams.foldl (fun s k => s.liftPins core k) s = { s with pins := s.pins.filter fun q => !(q.core == core) } := by
  have h (l : List Pin) : (((l.filter fun q => !(q.core == core && q.st == .A)).filter fun q => !(q.core == core && q.st == .X)).filter
      fun q => !(q.core == core && q.st == .M)).filter (fun q => !(q.core == core && q.st == .C)) = l.filter fun q => !(q.core == core) := by
    simp only [List.filter_filter]
    refine List.filter_congr fun q _ => ?_
    cases q.st <;> cases q.core == core <;> rfl
  exact congrArg (fun l => { s with pins := l }) (h s.pins)

/-- A core after its job. -/
def Core.afterJob (c : Core) : Core :=
  { c.mapStreams Stream.toIdle with dq := c.dq.map DataQueue.cleared, bq := [], array := { c.array with pendFault := none } }

section

variable {s : State} {core : Nat} (hcore : core < 512) (hclk : s.clocked core = true) (hj : (s.core core).jobEnds = true)

include hclk hj

theorem State.endJob_eq : s.endJob core =
    { (s.updCore core Core.afterJob).updCluster (clusterOf core) fun c => c.freeRings core with
      pins := s.pins.filter fun q => !(q.core == core) } := by
  rw [State.endJob, if_pos (by rw [hclk, hj]; rfl), State.liftAllPins]
  rfl

include hcore

theorem State.endJob_core : (s.endJob core).core core = (s.core core).afterJob := by
  rw [State.endJob_eq hclk hj]
  exact State.core_updCore_same (s := s) hcore Core.afterJob

theorem State.endJob_rings : ((s.endJob core).cluster (clusterOf core)).rings =
    ((s.cluster (clusterOf core)).freeRings core).rings := by
  rw [State.endJob_eq hclk hj]
  change (((s.updCore core Core.afterJob).updCluster (clusterOf core) fun c => c.freeRings core).cluster (clusterOf core)).rings = _
  rw [State.cluster_updCluster, if_pos ⟨rfl, clusterOf_lt hcore⟩]
  rfl

end

/-! ## Kernels completed (R295) -/

/-- A core that differs from another in its kernel at most. -/
def Core.SameButKernel (a b : Core) : Prop := a = { b with kernel := a.kernel }

theorem Core.SameButKernel.refl (a : Core) : a.SameButKernel a := rfl

theorem Core.SameButKernel.trans {a b c : Core} (h : a.SameButKernel b) (h2 : b.SameButKernel c) : a.SameButKernel c := by
  unfold Core.SameButKernel at *
  rw [h, h2]

theorem Core.SameButKernel.strm {a b : Core} (h : a.SameButKernel b) (k : StreamId) : a.strm k = b.strm k := by
  rw [h]; cases k <;> rfl

/-- A core that a kernel leaves. -/
def Core.left (id : Nat) (c : Core) : Core := if c.kernel == some id then { c with kernel := none } else c

/-- A core after a kernel has left its list. -/
theorem State.core_dropKernel (s : State) (id m : Nat) : (s.dropKernel id).core m = (s.core m).left id :=
  getD_map s.cores (Core.left id) m coreReset

theorem State.core_dropKernel_same (s : State) (id m : Nat) : ((s.dropKernel id).core m).SameButKernel (s.core m) := by
  rw [State.core_dropKernel, Core.left]
  split
  · exact rfl
  · exact .refl _

theorem State.core_dropKernel_ne (s : State) (id m : Nat) : ((s.dropKernel id).core m).kernel ≠ some id := by
  rw [State.core_dropKernel, Core.left]
  split
  · exact nofun
  · next h => simpa using h

/-- The completion of a kernel whose store of DONE waits, and of one whose store is made. -/
theorem State.completeKernel_error {s t : State} {k : Kernel} {status : Nat} (h : ((s.freeKernel k.id).carryAll k.cores).doneStore k
    (clusterOf (k.cores.headD (4 * s.frontCluster k.part))) status = .error t) : s.completeKernel k status = .error t := by
  rw [State.completeKernel, h]

theorem State.completeKernel_ok {s t : State} {k : Kernel} {status : Nat} (h : ((s.freeKernel k.id).carryAll k.cores).doneStore k
    (clusterOf (k.cores.headD (4 * s.frontCluster k.part))) status = .ok t) : s.completeKernel k status = .ok (t.dropKernel k.id) := by
  rw [State.completeKernel, h]

/-- What the completion of kernels leaves: the queues, the pins, the requests of partitions, the cores but for their kernel, and no kernel that
was not there. -/
structure State.Completed (r s : State) (gone : List Kernel) : Prop where
  queues : s.queues = r.queues
  pins : s.pins = r.pins
  pkill : ∀ p, (s.part p).pkill = (r.part p).pkill
  cores : ∀ c, (s.core c).SameButKernel (r.core c)
  kernels : ∀ j ∈ s.kernels, j ∈ r.kernels ∧ ∀ k ∈ gone, j.id ≠ k.id

theorem State.completeKernel_completed {s t : State} {k : Kernel} {status : Nat} (h : s.completeKernel k status = .ok t) :
    s.Completed t [k] := by
  have hk := (State.KernelsKept.carryAll (State.KernelsKept.fields (.refl s) : s.KernelsKept (s.freeKernel k.id)) k.cores).doneStore k
    (clusterOf (k.cores.headD (4 * s.frontCluster k.part))) status
  rw [State.completeKernel] at h
  split at h
  · next u hd =>
    cases h
    have hu : s.KernelsKept u := hk.ok hd
    refine ⟨hu.queues, hu.pins, hu.pkill, fun c => ?_, fun j hj => ?_⟩
    · have hc : u.core c = s.core c := congrArg (fun v : Vector Core 512 => v.getD c coreReset) hu.cores
      rw [← hc]
      exact State.core_dropKernel_same u k.id c
    · obtain ⟨hj, hne⟩ := List.mem_filter.mp hj
      exact ⟨hu.kernels ▸ hj, fun x hx => by rw [List.mem_singleton.mp hx]; simpa using hne⟩
  · cases h

theorem State.completeAll_completed {status : Nat} {l : List Kernel} :
    ∀ {s t : State}, s.completeAll status l = .ok t → s.Completed t l := by
  induction l with
  | nil =>
    intro s t h
    cases h
    exact ⟨rfl, rfl, fun _ => rfl, fun c => .refl _, fun j hj => ⟨hj, nofun⟩⟩
  | cons k l ih =>
    intro s t h
    rw [State.completeAll] at h
    split at h
    · cases h
    · next u hu =>
      have h1 := State.completeKernel_completed hu
      have h2 := ih h
      refine ⟨h2.queues.trans h1.queues, h2.pins.trans h1.pins, fun p => (h2.pkill p).trans (h1.pkill p),
        fun c => (h2.cores c).trans (h1.cores c), fun j hj => ?_⟩
      obtain ⟨hju, hl⟩ := h2.kernels j hj
      obtain ⟨hjs, hk⟩ := h1.kernels j hju
      exact ⟨hjs, List.forall_mem_cons.mpr ⟨hk k List.mem_cons_self, hl⟩⟩

/-! ## Termination (R313) -/

theorem State.foldl_updCore_proj {α : Type} (p : State → α) {g : Core → Core} (hp : ∀ s c, p (s.updCore c g) = p s) (l : List Nat) (s : State) :
    p (l.foldl (fun s c => s.updCore c g) s) = p s :=
  List.foldlRecOn (motive := fun t : State => p t = p s) l _ rfl fun t ht c _ => (hp t c).trans ht

theorem State.settleLines_past (s : State) (f : Nat → Bool) : ∃ l, s.settleLines f = { s with past := l } := by
  unfold State.settleLines
  split
  · exact ⟨s.past, rfl⟩
  · exact ⟨_, rfl⟩

/-- What a context's cores keep when its termination begins. -/
theorem State.coresOf_lt {s : State} {ctx c : Nat} (h : c ∈ s.coresOf ctx) : c < 512 := by
  simpa [upto] using (List.mem_filter.mp h).1

theorem State.coresOf_nodup (s : State) (ctx : Nat) : (s.coresOf ctx).Nodup := List.nodup_range.filter _

/-- The cores of a context wiped, their kernels kept. -/
def State.wiped (s : State) (ctx : Nat) : State := (s.coresOf ctx).foldl (fun s c => s.updCore c fun x => { x.wipe with kernel := x.kernel }) s

theorem State.wiped_proj {α : Type} (p : State → α) (hp : ∀ s c f, p (State.updCore s c f) = p s) (s : State) (ctx : Nat) :
    p (s.wiped ctx) = p s := State.foldl_updCore_proj p (fun s c => hp s c _) _ s

theorem State.dismantle_eq (s : State) (ctx : Nat) : ∃ l, s.dismantle ctx =
    { (({ s.wiped ctx with past := l, l2 := (s.wiped ctx).l2.filter fun x => x.2.nc || x.2.owner != ctx } : State).updCtx ctx
        fun c => { c with dismantled := true }) with
      clusters := (s.wiped ctx).clusters.mapIdx fun i c => Cluster.without c i ctx (s.coresOf ctx)
      queues := (s.wiped ctx).queues.filter fun q => q.ctx != ctx
      pins := (s.wiped ctx).pins.filter fun q => !(s.coresOf ctx).contains q.core } := by
  obtain ⟨l, hl⟩ := State.settleLines_past (s.wiped ctx) (((s.wiped ctx).l2.filter fun x => !x.2.nc && x.2.owner == ctx).map (·.1)).contains
  refine ⟨l, ?_⟩
  unfold State.dismantle State.dropLinesOf
  dsimp only
  rw [← State.wiped, hl]

theorem State.dismantle_core {s : State} {ctx c : Nat} (h : c ∈ s.coresOf ctx) :
    ((s.dismantle ctx).core c).SameButKernel (s.core c).wipe := by
  obtain ⟨l, hl⟩ := State.dismantle_eq s ctx
  have hc : (s.wiped ctx).core c = { (s.core c).wipe with kernel := (s.core c).kernel } := by
    rw [State.wiped, State.core_foldl_updCore (State.coresOf_nodup s ctx) (fun _ => State.coresOf_lt), if_pos h]
  have hd : (s.dismantle ctx).cores = (s.wiped ctx).cores := by rw [hl]; dsimp only [State.updCtx]
  rw [State.core, hd, ← State.core, hc]
  exact rfl

theorem State.dismantle_parts (s : State) (ctx : Nat) : (s.dismantle ctx).parts = s.parts := by
  obtain ⟨l, hl⟩ := State.dismantle_eq s ctx
  have hd : (s.dismantle ctx).parts = (s.wiped ctx).parts := by rw [hl]; dsimp only [State.updCtx]
  exact hd.trans (State.wiped_proj State.parts (fun _ _ _ => rfl) s ctx)

/-- The lines of the context leave the L2, and HBM stays as it is (R313). -/
theorem State.dismantle_memory (s : State) (ctx : Nat) :
    (s.dismantle ctx).l2 = s.l2.filter (fun x => x.2.nc || x.2.owner != ctx) ∧ (s.dismantle ctx).hbm = s.hbm := by
  obtain ⟨l, hl⟩ := State.dismantle_eq s ctx
  have h1 : (s.dismantle ctx).l2 = (s.wiped ctx).l2.filter (fun x => x.2.nc || x.2.owner != ctx) := by rw [hl]; dsimp only [State.updCtx]
  have h2 : (s.dismantle ctx).hbm = (s.wiped ctx).hbm := by rw [hl]; dsimp only [State.updCtx]
  exact ⟨h1.trans (congrArg _ (State.wiped_proj State.l2 (fun _ _ _ => rfl) s ctx)), h2.trans (State.wiped_proj State.hbm (fun _ _ _ => rfl) s ctx)⟩

theorem State.dismantle_intakes (s : State) (ctx : Nat) :
    (s.dismantle ctx).queues = s.queues.filter (fun q => q.ctx != ctx) ∧
      (s.dismantle ctx).pins = s.pins.filter (fun q => !(s.coresOf ctx).contains q.core) := by
  obtain ⟨l, hl⟩ := State.dismantle_eq s ctx
  have h1 : (s.dismantle ctx).queues = (s.wiped ctx).queues.filter (fun q => q.ctx != ctx) := by rw [hl]
  have h2 : (s.dismantle ctx).pins = (s.wiped ctx).pins.filter (fun q => !(s.coresOf ctx).contains q.core) := by rw [hl]
  exact ⟨h1.trans (congrArg _ (State.wiped_proj State.queues (fun _ _ _ => rfl) s ctx)),
    h2.trans (congrArg _ (State.wiped_proj State.pins (fun _ _ _ => rfl) s ctx))⟩

theorem State.dismantle_marks {s : State} {ctx : Nat} (h : ctx < 1024) : ((s.dismantle ctx).ctx ctx).dismantled = true := by
  obtain ⟨l, hl⟩ := State.dismantle_eq s ctx
  have h1 : (s.dismantle ctx).contexts =
      (({ s.wiped ctx with past := l, l2 := (s.wiped ctx).l2.filter fun x => x.2.nc || x.2.owner != ctx } : State).updCtx ctx
        fun c => { c with dismantled := true }).contexts := by rw [hl]
  rw [State.ctx, h1, ← State.ctx, State.ctx_updCtx, if_pos ⟨rfl, h⟩]

/-- The state from which the kernels of a terminating context complete. -/
def State.takenDown (s : State) (ctx : Nat) : State := if (s.ctx ctx).dismantled then s else s.dismantle ctx

/-- The completion of its kernels, at which a termination may wait. -/
def State.allCompleted (s : State) (ctx : Nat) : Except State State :=
  (s.takenDown ctx).completeAll ((s.ctx ctx).status.getD 0x0C).toNat ((s.takenDown ctx).kernels.filter fun k => k.ctx == ctx)

theorem State.terminate_other {s : State} {ctx : Nat} (h : (s.ctx ctx).state ≠ .terminating) : s.terminate ctx = s := if_pos h

section

variable {s : State} {ctx : Nat} (h : (s.ctx ctx).state = .terminating)

include h

theorem State.terminate_eq : s.terminate ctx = match s.allCompleted ctx with
    | .error s2 => s2
    | .ok s2 => ((s2.disown ctx).updCtx ctx Context.freed).updPart (s.ctx ctx).part fun p => p.killed ctx := by
  rw [State.terminate, if_neg (not_not.mpr h)]
  cases hs : (s.ctx ctx).status with
  | none => simp only [State.allCompleted, hs, Option.getD_none]; rfl
  | some b => simp only [State.allCompleted, hs, Option.getD_some]; rfl

theorem State.terminate_waits {t : State} (hc : s.allCompleted ctx = .error t) : s.terminate ctx = t := by
  rw [State.terminate_eq h, hc]

theorem State.terminate_completes {t : State} (hc : s.allCompleted ctx = .ok t) :
    s.terminate ctx = ((t.disown ctx).updCtx ctx Context.freed).updPart (s.ctx ctx).part fun p => p.killed ctx := by
  rw [State.terminate_eq h, hc]

end

theorem State.takenDown_parts (s : State) (ctx : Nat) : (s.takenDown ctx).parts = s.parts := by
  unfold State.takenDown
  split
  · rfl
  · exact State.dismantle_parts s ctx

/-- A cluster with the masks of a context cleared. -/
def Cluster.disowned (ctx : Nat) (c : Cluster) : Cluster := { c with owners := c.owners.filter fun x => x.1 != ctx }

theorem State.cluster_disown {s : State} {ctx cl : Nat} : ∀ o ∈ ((s.disown ctx).cluster cl).owners, o.1 ≠ ctx := by
  have h : (s.disown ctx).cluster cl = (s.cluster cl).disowned ctx := getD_map s.clusters (Cluster.disowned ctx) cl clusterReset
  rw [h]
  intro o ho
  simpa using (List.mem_filter.mp ho).2

theorem Partition.killed_go {p : Partition} {ctx : Nat} (hp : p.pkill.getLsbD 63 = true) (hc : (p.pkill.extractLsb' 0 10).toNat = ctx) :
    (p.killed ctx).pkill.getLsbD 63 = false := by
  have hf : (field p.pkill 9 0 == ctx) = true := beq_iff_eq.mpr hc
  rw [Partition.killed, if_pos (by rw [hp, hf]; rfl), getLsbD_setBit _ (by decide), if_pos rfl]

end Sys2Proof.Machine

namespace Sys2Proof.Proofs

open Machine Statements

theorem job_ends {s : State} {core : Nat} (h : running s core) :
    ((s.core core).jobEnds = true → ∃ t, exec (.evJobEnd core) s = .next t ∧
      (∀ k, (t.strm core k).st = .idle ∧ (t.strm core k).lists = (s.strm core k).lists.discard) ∧
      (∀ q ∈ (t.core core).dq.toList, q.entries = []) ∧ (t.core core).bq = [] ∧ (∀ p ∈ t.pins, p.core ≠ core) ∧
      ∀ r ∈ (t.cluster (clusterOf core)).rings.toList, r.bound ≠ some core) ∧
    ((s.core core).jobEnds = false → exec (.evJobEnd core) s = .next s) := by
  obtain ⟨hcore, hclk⟩ := h
  refine ⟨fun hj => ⟨_, rfl, fun k => ?_, ?_, ?_, ?_, ?_⟩, fun hj => congrArg Host.Outcome.next ?_⟩
  · have hs : (s.endJob core).strm core k = (s.strm core k).toIdle :=
      (congrArg (fun c : Core => c.strm k) (State.endJob_core hcore hclk hj)).trans (by cases k <;> rfl)
    rw [hs]
    exact ⟨rfl, rfl⟩
  · rw [State.endJob_core hcore hclk hj]
    intro q hq
    rw [Core.afterJob, Vector.toList_map] at hq
    obtain ⟨x, -, rfl⟩ := List.mem_map.mp hq
    rfl
  · rw [State.endJob_core hcore hclk hj]
    rfl
  · intro p hp
    rw [State.endJob_eq hclk hj] at hp
    simpa using (List.mem_filter.mp hp).2
  · rw [State.endJob_rings hcore hclk hj]
    intro r hr
    rw [Cluster.freeRings, Vector.toList_map] at hr
    obtain ⟨x, -, rfl⟩ := List.mem_map.mp hr
    split
    · exact nofun
    · next hb => simpa using hb
  · rw [State.endJob, hj, Bool.and_false]
    rfl

theorem kernel_retires {s : State} {kid : Nat} {kn : Kernel} (hk : s.kernel? kid = some kn) :
    let store := ((s.freeKernel kid).carryAll kn.cores).doneStore kn (clusterOf (kn.cores.headD (4 * s.frontCluster kn.part))) 0
    (s.jobsEnded kn = false → exec (.evKernelRetire kid) s = .next s) ∧
    (s.jobsEnded kn = true →
      (∀ s1, store = .error s1 → exec (.evKernelRetire kid) s = .next s1) ∧
      ∀ s1, store = .ok s1 →
        ∃ t, exec (.evKernelRetire kid) s = .next t ∧ (∀ j ∈ t.kernels, j.id ≠ kid) ∧
          (∀ c < 512, (t.core c).kernel ≠ some kid) ∧ t.hbm = s1.hbm ∧ t.l2 = s1.l2 ∧ t.host = s1.host ∧
          ((s1.ctx kn.ctx).state = .running → (∀ j ∈ t.kernels, j.ctx = kn.ctx → j.placed = false) →
            (t.ctx kn.ctx).state = .idle)) := by
  have hid : kn.id = kid := State.kernel?_id hk
  subst hid
  have he {t : State} (h : s.retireKernel kn.id = t) : exec (.evKernelRetire kn.id) s = .next t := congrArg Host.Outcome.next h
  dsimp only
  refine ⟨fun hj => he ?_, fun hj => ⟨fun s1 hs => he ?_, fun s1 hs => ?_⟩⟩
  · rw [State.retireKernel, hk]
    simp [hj]
  · simp [State.retireKernel, hk, hj, State.completeKernel_error hs]
  · have hret : s.retireKernel kn.id = (s1.dropKernel kn.id).afterRetire kn.ctx := by
      simp [State.retireKernel, hk, hj, State.completeKernel_ok hs]
    have hsame : ((s1.dropKernel kn.id).afterRetire kn.ctx).kernels = (s1.dropKernel kn.id).kernels ∧
        ((s1.dropKernel kn.id).afterRetire kn.ctx).cores = (s1.dropKernel kn.id).cores ∧
        ((s1.dropKernel kn.id).afterRetire kn.ctx).hbm = s1.hbm ∧ ((s1.dropKernel kn.id).afterRetire kn.ctx).l2 = s1.l2 ∧
        ((s1.dropKernel kn.id).afterRetire kn.ctx).host = s1.host := by
      unfold State.afterRetire
      split <;> exact ⟨rfl, rfl, rfl, rfl, rfl⟩
    obtain ⟨hkern, hcores, hhbm, hl2, hhost⟩ := hsame
    refine ⟨_, he hret, fun j hjm => ?_, fun c _ => ?_, hhbm, hl2, hhost, fun hrun hlast => ?_⟩
    · rw [hkern] at hjm
      simpa using (List.mem_filter.mp hjm).2
    · rw [State.core, hcores]
      exact State.core_dropKernel_ne s1 kn.id c
    · rw [hkern] at hlast
      have hlt : kn.ctx < 1024 := State.ctx_lt (s := s1) (by rw [hrun]; exact nofun)
      have hnone : ¬((s1.dropKernel kn.id).kernels.any fun j => j.ctx == kn.ctx && j.placed) = true := by
        simpa using hlast
      rw [State.afterRetire, if_pos ⟨hrun, by simpa using hnone⟩]
      exact State.ctx_setCtxState hlt _

theorem jobAndKernelEnd : jobAndKernelEndPart := ⟨fun _ _ h => job_ends h, fun _ _ _ hk => kernel_retires hk⟩

/-- A completed termination that began here leaves the intakes, the pins and the cores of the context as the taking down left them. -/
theorem fresh_termination {s t : State} {ctx : Nat} {gone : List Kernel} (h : (s.dismantle ctx).Completed t gone) :
    (∀ q ∈ t.queues, q.ctx ≠ ctx) ∧ (∀ p ∈ t.pins, p.core ∉ s.coresOf ctx) ∧
      ∀ c ∈ s.coresOf ctx, (∀ k, t.strm c k = { streamReset with lists := (s.strm c k).lists.discard }) ∧
        (t.core c).copyQ = [] ∧ (t.core c).matQ = [] ∧ (t.core c).colQ = [] ∧ (t.core c).push = (s.core c).push := by
  obtain ⟨hq, hp⟩ := State.dismantle_intakes s ctx
  refine ⟨fun q hm => ?_, fun p hm => ?_, fun c hc => ?_⟩
  · rw [h.queues, hq] at hm
    simpa using (List.mem_filter.mp hm).2
  · rw [h.pins, hp] at hm
    simpa using (List.mem_filter.mp hm).2
  · have hw := (h.cores c).trans (State.dismantle_core hc)
    refine ⟨fun k => (hw.strm k).trans (by cases k <;> rfl), ?_⟩
    rw [hw]
    exact ⟨rfl, rfl, rfl, rfl⟩

theorem termination : terminationPart := by
  intro s ctx
  have he {t : State} (h : s.terminate ctx = t) : exec (.evTerminationComplete ctx) s = .next t := congrArg Host.Outcome.next h
  dsimp only
  refine ⟨fun h => he (State.terminate_other h), fun h => ⟨fun hf => ?_, fun s2 hc => he (State.terminate_waits h hc), fun s2 hc => ?_⟩⟩
  · obtain ⟨hl2, hhbm⟩ := State.dismantle_memory s ctx
    rw [hf, if_neg Bool.false_ne_true]
    refine ⟨fun x hx => ?_, hhbm, State.dismantle_marks⟩
    rw [hl2] at hx
    simpa using List.mem_filter.mp hx
  · have hcom := State.completeAll_completed (s := s.takenDown ctx) hc
    have hlt : ctx < 1024 := State.ctx_lt (s := s) (by rw [h]; exact nofun)
    refine ⟨_, he (State.terminate_completes h hc), ?_, fun j hj hx => ?_, rfl, rfl, rfl, fun cl _ => State.cluster_disown, fun hf => ?_,
      fun hp hgo hnum => ?_⟩
    · rw [State.ctx_updPart, State.ctx_updCtx, if_pos ⟨rfl, hlt⟩]
      rfl
    · obtain ⟨hjs, hne⟩ := hcom.kernels j hj
      exact hne j (List.mem_filter.mpr ⟨hjs, by simpa using hx⟩) rfl
    · have hd : s.takenDown ctx = s.dismantle ctx := by rw [State.takenDown, hf, if_neg Bool.false_ne_true]
      obtain ⟨hqueues, hpins, hcores⟩ := fresh_termination (s := s) (ctx := ctx) (hd ▸ hcom)
      exact ⟨hqueues, hpins, hcores⟩
    · have hsame : (s2.part (s.ctx ctx).part).pkill = (s.part (s.ctx ctx).part).pkill :=
        (hcom.pkill _).trans (by rw [State.part, State.takenDown_parts]; rfl)
      rw [State.part_updPart, if_pos ⟨rfl, hp⟩]
      exact Partition.killed_go (hsame ▸ hgo) (hsame ▸ hnum)

/-- Settles O49: the front end and the placement by what their reads and checks give, the ends of a kernel and of a context by what the store of
DONE leaves as it is. -/
theorem kernelEvents : Obligations.KernelEvents := ⟨frontEnd_consumes, kernel_placed, jobAndKernelEnd, termination⟩

end Sys2Proof.Proofs
end
section
/-! SUPPORT. Home memory by its bytes: what a line that becomes resident, a line written back and a store to a line leave of every byte
(R20, R205, R322). -/

namespace Sys2Proof.Machine

open Statements

/-! ## The bytes of a line -/

theorem getLsbD_lineByte (d : BitVec 512) (j i : Nat) : (lineByte d j).getLsbD i = (decide (i < 8) && d.getLsbD (8 * j + i)) := by
  rw [lineByte, BitVec.getLsbD_extractLsb']

theorem getLsbD_lineSet (d : BitVec 512) {j : Nat} (hj : j < 64) (b : Byte) (i : Nat) :
    (lineSet d j b).getLsbD i = if 8 * j ≤ i ∧ i < 8 * j + 8 then b.getLsbD (i - 8 * j) else d.getLsbD i := by
  have hmask (k : Nat) : (0xFF : BitVec 512).getLsbD k = decide (k < 8) := by
    have h := Nat.testBit_two_pow_sub_one 8 k
    refine (BitVec.getLsbD_ofNat 512 255 k).trans ?_
    rw [show Nat.testBit 255 k = decide (k < 8) from h, ← Bool.decide_and, decide_eq_decide]
    omega
  simp only [lineSet, BitVec.getLsbD_or, BitVec.getLsbD_and, BitVec.getLsbD_not, BitVec.getLsbD_shiftLeft, BitVec.getLsbD_setWidth, hmask]
  by_cases hi : i < 512
  · by_cases h1 : i < 8 * j
    · have h2 : ¬(8 * j ≤ i ∧ i < 8 * j + 8) := by omega
      simp [hi, h1, h2]
    · by_cases h3 : i - 8 * j < 8
      · have h2 : 8 * j ≤ i ∧ i < 8 * j + 8 := by omega
        have h4 : i - 8 * j < 512 := by omega
        simp [hi, h1, h2, h3, h4]
      · have h2 : ¬(8 * j ≤ i ∧ i < 8 * j + 8) := by omega
        have hb : b.getLsbD (i - 8 * j) = false := BitVec.getLsbD_of_ge _ _ (by omega)
        simp [hi, h1, h2, h3, hb]
  · have h2 : ¬(8 * j ≤ i ∧ i < 8 * j + 8) := by omega
    simp [hi, h2, BitVec.getLsbD_of_ge d i (by omega)]

theorem lineByte_lineSet (d : BitVec 512) {j : Nat} (hj : j < 64) (b : Byte) (i : Nat) :
    lineByte (lineSet d j b) i = if i = j then b else lineByte d i := by
  apply BitVec.eq_of_getLsbD_eq
  intro k hk
  rw [getLsbD_lineByte, getLsbD_lineSet d hj]
  by_cases hij : i = j
  · subst hij
    rw [if_pos ⟨by omega, by omega⟩, if_pos rfl, Nat.add_sub_cancel_left, decide_eq_true hk, Bool.true_and]
  · rw [if_neg (by omega), if_neg hij, getLsbD_lineByte]

/-- Bytes put in a line from a place on. -/
theorem lineByte_lineSets (bs : List Byte) (o : Nat) : ∀ (k : Nat) (d : BitVec 512), o + k + bs.length ≤ 64 → ∀ i,
    lineByte (lineSets d ((bs.zipIdx k).map fun b => (o + b.2, b.1))) i =
      if o + k ≤ i ∧ i < o + k + bs.length then bs.getD (i - (o + k)) 0 else lineByte d i := by
  induction bs with
  | nil =>
    intro k d _ i
    rw [if_neg (by simp only [List.length_nil]; omega)]
    rfl
  | cons b bs ih =>
    intro k d h i
    rw [List.length_cons] at h
    rw [List.zipIdx_cons, List.map_cons, lineSets, List.foldl_cons, ← lineSets, ih (k + 1) _ (by omega), lineByte_lineSet d (by omega),
      List.length_cons]
    by_cases hi : i = o + k
    · subst hi
      rw [if_neg (by omega), if_pos rfl, if_pos (by omega), Nat.sub_self, List.getD_cons_zero]
    · rw [if_neg hi]
      by_cases hr : o + (k + 1) ≤ i ∧ i < o + (k + 1) + bs.length
      · rw [if_pos hr, if_pos (by omega), show i - (o + k) = i - (o + (k + 1)) + 1 by omega, List.getD_cons_succ]
      · rw [if_neg hr, if_neg (by omega)]

/-! ## Numbers of bytes (R2) -/

theorem leNat_lt : ∀ l : List Byte, leNat l < 256 ^ l.length
  | [] => by simp [leNat]
  | b :: l => by
    have := leNat_lt l
    have := b.isLt
    simp only [leNat, List.length_cons, Nat.pow_succ]
    omega

/-- A byte of the number that a list of bytes holds. -/
theorem ofNat_leNat_div : ∀ (l : List Byte) (j : Nat), BitVec.ofNat 8 (leNat l / 2 ^ (8 * j)) = l.getD j 0
  | [], j => by simp [leNat]
  | b :: l, 0 => by
    apply BitVec.eq_of_toNat_eq
    have := b.isLt
    simp only [leNat, Nat.mul_zero, Nat.pow_zero, Nat.div_one, BitVec.toNat_ofNat, List.getD_cons_zero]
    omega
  | b :: l, j + 1 => by
    have := b.isLt
    rw [List.getD_cons_succ, ← ofNat_leNat_div l j, leNat, show 2 ^ (8 * (j + 1)) = 256 * 2 ^ (8 * j) by rw [Nat.mul_add, Nat.pow_add]; omega,
      ← Nat.div_div_eq_div_mul, show (b.toNat + 256 * leNat l) / 256 = leNat l by omega]

theorem getD_leBytes : ∀ (n v j : Nat), j < n → (leBytes n v).getD j 0 = BitVec.ofNat 8 (v / 2 ^ (8 * j))
  | n + 1, v, 0, _ => by simp [leBytes]
  | n + 1, v, j + 1, h => by
    rw [leBytes, List.getD_cons_succ, getD_leBytes n (v / 256) j (by omega), Nat.div_div_eq_div_mul,
      show 2 ^ (8 * (j + 1)) = 256 * 2 ^ (8 * j) by rw [Nat.mul_add, Nat.pow_add]; omega]

theorem State.physBytes_getD (s : State) (pa : Nat) : ∀ (n i : Nat), i < n → (s.physBytes pa n).getD i 0 = s.physByte (pa + i) := by
  intro n
  induction n generalizing pa with
  | zero => intro i h; omega
  | succ n ih =>
    intro i h
    cases i with
    | zero => rfl
    | succ i => rw [State.physBytes, List.getD_cons_succ, ih (pa + 1) i (by omega), show pa + 1 + i = pa + (i + 1) by omega]

theorem State.physBytes_congr {s t : State} (h : ∀ a, t.physByte a = s.physByte a) (pa n : Nat) : t.physBytes pa n = s.physBytes pa n := by
  induction n generalizing pa with
  | zero => rfl
  | succ n ih => rw [State.physBytes, State.physBytes, h, ih]

/-! ## A memory after a write elsewhere -/

theorem memByte_cons (c : Host.Cell) (m : Memory) (x : Nat) : memByte (c :: m) x = if c.1 = x then c.2 else memByte m x := by
  unfold memByte
  rw [List.find?_cons]
  by_cases h : c.1 = x
  · simp [h]
  · have hf : (c.1 == x) = false := beq_eq_false_iff_ne.mpr h
    rw [hf, if_neg h]

theorem memByte_memPut_ne {a x : Nat} (h : x ≠ a) (b : Byte) : ∀ m : Memory, memByte (memPut m a b) x = memByte m x
  | [] => by
    unfold memPut
    split
    · rfl
    · rw [memByte_cons, if_neg (fun e => h e.symm)]
  | (c, d) :: m => by
    have ih := memByte_memPut_ne h b m
    unfold memPut
    split
    · rw [memByte_cons, memByte_cons, ih]
    · split
      · next hc =>
        have hx : ¬c = x := fun e => h (e.symm.trans hc)
        split
        · rw [memByte_cons, if_neg hx]
        · rw [memByte_cons, memByte_cons, if_neg hx, if_neg fun e => h e.symm]
      · split
        · rfl
        · rw [memByte_cons, if_neg fun e => h e.symm]

theorem memByte_foldl_memPut_ne {f : Nat → Nat} {g : Nat → Byte} {x : Nat} (l : List Nat) (h : ∀ j ∈ l, x ≠ f j) (m : Memory) :
    memByte (l.foldl (fun m j => memPut m (f j) (g j)) m) x = memByte m x := by
  refine List.foldlRecOn (motive := fun k : Memory => memByte k x = memByte m x) l _ rfl fun k hk j hj => ?_
  rw [memByte_memPut_ne (h j hj), hk]

end Sys2Proof.Machine
end
section
/-! SUPPORT. Home accesses that meet no error: what they change of the state, and the bytes that every address then holds (R20, R205, R322). -/

namespace Sys2Proof.Machine

open Statements

/-! ## Resident lines -/

theorem State.l2At_setL2 (s : State) (line m : Nat) (l : L2Line) : (s.setL2 line l).l2At m = if m = line then some l else s.l2At m := by
  by_cases h : m = line
  · subst h
    rw [if_pos rfl, setL2_at]
  · have hne : (line == m) = false := beq_eq_false_iff_ne.mpr fun e => h e.symm
    rw [if_neg h, State.l2At, State.l2At, State.setL2, List.find?_cons, hne]
    refine congrArg (Option.map _) ?_
    dsimp only
    rw [List.find?_filter]
    refine congrArg (fun p => List.find? p s.l2) (funext fun x => ?_)
    by_cases hx : x.1 = m
    · simp [hx, h]
    · simp [hx]

theorem State.physByte_eq (s : State) (a : Nat) :
    s.physByte a = match s.l2At (a / 64) with | some l => lineByte l.data (a % 64) | none => memByte s.hbm (s.hbmAddr a) := by
  unfold State.physByte State.l2At
  cases s.l2.find? (·.1 == a / 64) <;> rfl

theorem State.physByte_at {s : State} {a : Nat} {l : L2Line} (h : s.l2At (a / 64) = some l) : s.physByte a = lineByte l.data (a % 64) := by
  rw [State.physByte_eq, h]

theorem State.physByte_absent {s : State} {a : Nat} (h : s.l2At (a / 64) = none) : s.physByte a = memByte s.hbm (s.hbmAddr a) := by
  rw [State.physByte_eq, h]

theorem State.physByte_setL2 (s : State) (line : Nat) (l : L2Line) (a : Nat) :
    (s.setL2 line l).physByte a = if a / 64 = line then lineByte l.data (a % 64) else s.physByte a := by
  rw [State.physByte_eq, State.l2At_setL2]
  by_cases h : a / 64 = line
  · rw [if_pos h, if_pos h]
  · rw [if_neg h, if_neg h, State.physByte_eq s]; rfl

theorem State.hbmAddr_low (s : State) {a : Nat} (h : a < 2 ^ 51) : s.hbmAddr a = a := if_pos h

theorem extract_ofNat {w v j : Nat} (h : 8 * j + 8 ≤ w) : (BitVec.ofNat w v).extractLsb' (8 * j) 8 = BitVec.ofNat 8 (v / 2 ^ (8 * j)) := by
  apply BitVec.eq_of_getLsbD_eq
  intro i hi
  rw [BitVec.getLsbD_extractLsb', BitVec.getLsbD_ofNat, BitVec.getLsbD_ofNat, Nat.testBit_div_two_pow, Nat.add_comm i,
    decide_eq_true (by omega : 8 * j + i < w), Bool.true_and]

theorem lineByte_hbmLine (s : State) (line : Nat) {j : Nat} (hj : j < 64) :
    lineByte (s.hbmLine line) j = memByte s.hbm (s.hbmAddr (64 * line + j)) := by
  rw [lineByte, State.hbmLine, extract_ofNat (by omega), ofNat_leNat_div]
  simp [upto, hj]

/-! ## Memory that stays as it is -/

theorem memSame_refl (s : State) : memSame s s := ⟨fun _ => rfl, fun _ => rfl, fun _ _ => rfl⟩

theorem memSame_trans {r s t : State} (h1 : memSame r s) (h2 : memSame s t) : memSame r t :=
  ⟨fun a => (h2.1 a).trans (h1.1 a), fun a => (h2.2.1 a).trans (h1.2.1 a), fun c a => (h2.2.2 c a).trans (h1.2.2 c a)⟩

/-- What an access of home memory that meets no error leaves as it is: all but HBM, its lines and the error counts. -/
structure State.HomeKept (s t : State) : Prop where
  eq : t = { s with hbm := t.hbm, l2 := t.l2, badHbm := t.badHbm, counts := t.counts }

namespace State.HomeKept

variable {r s t : State}

theorem refl (s : State) : s.HomeKept s := ⟨rfl⟩

theorem of (s : State) (m : Memory) (l : List (Nat × L2Line)) (b : List Nat) (c : List ErrCount) :
    s.HomeKept { s with hbm := m, l2 := l, badHbm := b, counts := c } := ⟨rfl⟩

theorem trans (h1 : r.HomeKept s) (h2 : s.HomeKept t) : r.HomeKept t := ⟨by rw [h2.eq, h1.eq]⟩

theorem hbmAddr (h : s.HomeKept t) (a : Nat) : t.hbmAddr a = s.hbmAddr a := by rw [h.eq]; rfl

theorem isLost (h : s.HomeKept t) (line : Nat) : t.isLost line = s.isLost line := by rw [h.eq]; rfl

theorem sliceFor (h : s.HomeKept t) (line : Nat) : t.sliceFor line = s.sliceFor line := by rw [h.eq]; rfl

theorem wayFor (h : s.HomeKept t) (sl line : Nat) : t.wayFor sl line = s.wayFor sl line := by rw [h.eq]; rfl

theorem host (h : s.HomeKept t) : t.host = s.host := by rw [h.eq]

theorem cluster (h : s.HomeKept t) (n : Nat) : t.cluster n = s.cluster n := by rw [h.eq]; rfl

end State.HomeKept

/-! ## A line that becomes resident (R322) -/

/-- The line as it becomes resident. -/
def State.freshLine (s : State) (line : Nat) (own : Option Nat) : L2Line :=
  { data := s.hbmLine line, dirty := false, owner := own.getD 0, nc := own.isNone, slice := s.sliceFor line,
    way := s.wayFor (s.sliceFor line) line, inj := .none, poisoned := s.hbmBad line }

theorem State.makeRoom_room {s : State} {line : Nat} (h : s.l2At line = none) (hr : hasRoom s line) :
    s.makeRoom (s.sliceFor line) (s.wayFor (s.sliceFor line) line) = s := by
  unfold State.makeRoom
  dsimp only
  split
  · rfl
  · rw [if_pos (hr h)]

section

variable {s : State} {line : Nat} (h : s.l2At line = none) (hr : hasRoom s line) (own : Option Nat)

include h hr

theorem State.fill_eq : s.fill line own = (if s.hbmBad line then s.countErr (.stack (s.hbmAddr (64 * line) / (16 * pairBytes))) true else s).setL2
    line (s.freshLine line own) := by
  unfold State.fill
  dsimp only
  rw [State.makeRoom_room h hr]
  split <;> rfl

theorem State.fill_kept : s.HomeKept (s.fill line own) := by
  rw [State.fill_eq h hr]
  split <;> exact ⟨rfl⟩

theorem State.fill_l2At (m : Nat) : (s.fill line own).l2At m = if m = line then some (s.freshLine line own) else s.l2At m := by
  rw [State.fill_eq h hr, State.l2At_setL2]
  split
  · rfl
  · split <;> rfl

theorem State.fill_hbm : (s.fill line own).hbm = s.hbm := by
  rw [State.fill_eq h hr]
  split <;> rfl

/-- A line that becomes resident holds what HBM held for it. -/
theorem State.fill_physByte (a : Nat) : (s.fill line own).physByte a = s.physByte a := by
  by_cases ha : a / 64 = line
  · subst ha
    rw [State.physByte_at ((State.fill_l2At h hr own _).trans (if_pos rfl)), State.physByte_absent h, State.freshLine,
      lineByte_hbmLine s _ (Nat.mod_lt a (by decide)), Nat.div_add_mod]
  · rw [State.physByte_eq, State.fill_l2At h hr, if_neg ha, State.physByte_eq s, State.fill_hbm h hr, (State.fill_kept h hr own).hbmAddr]

theorem State.fill_memSame : memSame s (s.fill line own) :=
  ⟨State.fill_physByte h hr own, fun a => by rw [(State.fill_kept h hr own).host], fun c a => by rw [(State.fill_kept h hr own).cluster]⟩

end

/-! ## A line written back (R322) -/

/-- HBM after a line is written back. -/
def State.hbmWith (s : State) (line : Nat) (d : BitVec 512) : Memory :=
  (upto 64).foldl (fun m j => memPut m (s.hbmAddr (64 * line + j)) (lineByte d j)) s.hbm

theorem State.putLine_eq (s : State) (line : Nat) (l : L2Line) :
    ∃ b, s.putLine line l = { s with hbm := s.hbmWith line l.data, badHbm := b } := by
  unfold State.putLine
  rw [← State.hbmWith]
  generalize s.hbmWith line l.data = m
  by_cases h : l.poisoned = true
  · exact ⟨s.badHbm, if_pos h⟩
  · exact ⟨_, if_neg h⟩

theorem State.putLine_kept (s : State) (line : Nat) (l : L2Line) : s.HomeKept (s.putLine line l) := by
  obtain ⟨b, h⟩ := State.putLine_eq s line l
  rw [h]
  exact .of s _ s.l2 b s.counts

theorem State.putLine_l2 (s : State) (line : Nat) (l : L2Line) : (s.putLine line l).l2 = s.l2 := by
  obtain ⟨b, h⟩ := State.putLine_eq s line l
  rw [h]

theorem State.putLine_hbm (s : State) (line : Nat) (l : L2Line) : (s.putLine line l).hbm = s.hbmWith line l.data := by
  obtain ⟨b, h⟩ := State.putLine_eq s line l
  rw [h]

/-- A write-back changes no byte but those of the line, which lies in HBM, and those that the aperture names a second time. -/
theorem State.putLine_byte {s : State} {line : Nat} (hline : 64 * line < 2 ^ 51) (l : L2Line) {x : Nat} (hx : x / 64 ≠ line) :
    memByte (s.putLine line l).hbm x = memByte s.hbm x := by
  rw [State.putLine_hbm, State.hbmWith]
  refine memByte_foldl_memPut_ne _ (fun j hj e => hx ?_) s.hbm
  have hj : j < 64 := by simpa [upto] using hj
  rw [e, State.hbmAddr_low s (by omega)]
  omega

/-- What is kept of every byte but those of one line, and of those that the aperture names a second time nothing is said (R205). -/
def State.BytesBut (s t : State) (line : Nat) : Prop := ∀ a, a / 64 ≠ line → a < 2 ^ 51 ∨ s.hbmAddr a / 64 ≠ line → t.physByte a = s.physByte a

section

variable {s : State} {line : Nat} {l : L2Line} (hl : s.l2At line = some l) (hi : l.inj = .none)

include hl hi

/-- A line without an error written back where it is dirty: it stands with its bytes, and is clean. -/
theorem State.clean_eq : s.clean line =
    (false, if l.dirty then (s.putLine line l).setL2 line { l with dirty := false } else s) := by
  have h1 : (l.inj == Injected.tague || (l.dirty && l.inj == .l2ue)) = false := by rw [hi]; simp
  rw [State.clean, hl]
  dsimp only
  rw [h1, if_neg Bool.false_ne_true, State.cleanOne, hl]
  dsimp only
  rw [hi]
  cases l.dirty <;> rfl

theorem State.clean_kept : s.HomeKept (s.clean line).2 := by
  rw [State.clean_eq hl hi]
  dsimp only
  split
  · exact (State.putLine_kept s line l).trans ⟨rfl⟩
  · exact .refl s

theorem State.clean_l2At : ∃ l1, (∀ m, (s.clean line).2.l2At m = if m = line then some l1 else s.l2At m) ∧ l1.data = l.data ∧
    l1.inj = .none ∧ l1.poisoned = l.poisoned := by
  rw [State.clean_eq hl hi]
  dsimp only
  split
  · refine ⟨{ l with dirty := false }, fun m => ?_, rfl, hi, rfl⟩
    rw [State.l2At_setL2, State.l2At, State.putLine_l2]
    rfl
  · refine ⟨l, fun m => ?_, rfl, hi, rfl⟩
    split
    · next h => rw [h, hl]
    · rfl

theorem State.clean_bytes (hline : 64 * line < 2 ^ 51) : s.BytesBut (s.clean line).2 line := by
  intro a ha hx
  obtain ⟨l1, hat, -⟩ := State.clean_l2At hl hi
  rw [State.physByte_eq, hat, if_neg ha, State.physByte_eq s, (State.clean_kept hl hi).hbmAddr]
  have hb : memByte (s.clean line).2.hbm (s.hbmAddr a) = memByte s.hbm (s.hbmAddr a) := by
    rw [State.clean_eq hl hi]
    dsimp only
    split
    · refine State.putLine_byte hline l (hx.elim (fun h => ?_) id)
      rwa [State.hbmAddr_low s h]
    · rfl
  rw [hb]

end

/-! ## Reads and stores of a home line (R322) -/

/-- A line that an access finds without an error, or for which there is room. -/
structure State.LineFit (s : State) (line : Nat) : Prop where
  notLost : s.isLost line = false
  room : hasRoom s line
  noError : ∀ l, s.l2At line = some l → l.inj = .none

section

variable {s : State} {line : Nat} (hf : s.LineFit line) (own : Option Nat)

include hf

/-- A read of such a line keeps every byte, and the line is resident then, without an error. -/
theorem State.homeRead_fit : ∃ t, (s.homeRead line own = .ok t ∨ s.homeRead line own = .error (.poison, t)) ∧ s.HomeKept t ∧ memSame s t ∧
    (∃ l, t.l2At line = some l ∧ l.inj = .none) ∧ ∀ m, m ≠ line → t.l2At m = s.l2At m := by
  unfold State.homeRead
  rw [hf.notLost, if_neg Bool.false_ne_true]
  cases hl : s.l2At line with
  | none =>
    refine ⟨s.fill line own, ?_, State.fill_kept hl hf.room own, State.fill_memSame hl hf.room own,
      ⟨_, (State.fill_l2At hl hf.room own line).trans (if_pos rfl), rfl⟩, fun m hm => (State.fill_l2At hl hf.room own m).trans (if_neg hm)⟩
    dsimp only
    split
    · exact .inr rfl
    · exact .inl rfl
  | some l =>
    have hi := hf.noError l hl
    refine ⟨s, ?_, .refl s, memSame_refl s, ⟨l, hl, hi⟩, fun _ _ => rfl⟩
    dsimp only
    rw [hi]
    dsimp only
    split
    · exact .inr rfl
    · exact .inl rfl

omit hf in
/-- What a store to a resident line finds: the line, written back first where it is dirty with another owner. -/
theorem State.homeWrite_resident (hline : 64 * line < 2 ^ 51) {l : L2Line} (hlost : s.isLost line = false) (h0 : s.l2At line = some l)
    (hi : l.inj = .none) (bs : List (Nat × Byte)) : ∃ u l1, s.homeWrite line own bs =
        .ok (u.setL2 line { l1 with data := lineSets l1.data bs, dirty := true, owner := own.getD 0, nc := own.isNone }) ∧
      s.HomeKept u ∧ s.BytesBut u line ∧ (∀ m, u.l2At m = if m = line then some l1 else s.l2At m) ∧ l1.data = l.data ∧ l1.inj = .none ∧
      l1.poisoned = l.poisoned := by
  have hw : s.homeWrite line own bs =
      match (if l.inj == .tague || (l.dirty && !(l.nc == own.isNone && l.owner == own.getD 0)) then s.clean line else (false, s)) with
      | (true, u) => .error (.lost, u)
      | (false, u) => match u.l2At line with
        | none => .ok u
        | some l1 => .ok (u.setL2 line { l1 with data := lineSets l1.data bs, dirty := true, owner := own.getD 0, nc := own.isNone }) := by
    rw [State.homeWrite, hlost, if_neg Bool.false_ne_true]
    dsimp only
    rw [h0]
    dsimp only
    rw [h0]
    dsimp only
    generalize (if l.inj == .tague || (l.dirty && !(l.nc == own.isNone && l.owner == own.getD 0)) then s.clean line else (false, s)) = r
    obtain ⟨b, u⟩ := r
    cases b <;> rfl
  rw [hw]
  by_cases hc : (l.inj == .tague || (l.dirty && !(l.nc == own.isNone && l.owner == own.getD 0))) = true
  · obtain ⟨l1, hat, hd, hi1, hp⟩ := State.clean_l2At h0 hi
    have hkept := State.clean_kept h0 hi
    have hbytes := State.clean_bytes h0 hi hline
    have hno : (s.clean line).1 = false := congrArg Prod.fst (State.clean_eq h0 hi)
    have hr : s.clean line = (false, (s.clean line).2) := Prod.ext hno rfl
    rw [if_pos hc, hr]
    generalize (s.clean line).2 = u at hat hkept hbytes
    dsimp only
    rw [hat, if_pos rfl]
    exact ⟨u, l1, rfl, hkept, hbytes, hat, hd, hi1, hp⟩
  · rw [if_neg hc]
    dsimp only
    rw [h0]
    refine ⟨s, l, rfl, .refl s, fun _ _ _ => rfl, fun m => ?_, rfl, hi, rfl⟩
    split
    · next h => rw [h, h0]
    · rfl

omit hf in
theorem State.homeWrite_absent (hlost : s.isLost line = false) (h : s.l2At line = none) (hr : hasRoom s line) (bs : List (Nat × Byte)) :
    s.homeWrite line own bs = (s.fill line own).homeWrite line own bs := by
  have hat : (s.fill line own).l2At line = some (s.freshLine line own) := (State.fill_l2At h hr own line).trans (if_pos rfl)
  have hl : (s.fill line own).isLost line = false := ((State.fill_kept h hr own).isLost line).trans hlost
  simp only [State.homeWrite, hlost, hl, h, hat, Bool.false_eq_true, if_false]

/-- A store to such a line: the line holds the bytes stored, and every other byte that the aperture does not name a second time is as it was. -/
theorem State.homeWrite_fit (hline : 64 * line < 2 ^ 51) (bs : List (Nat × Byte)) : ∃ t, s.homeWrite line own bs = .ok t ∧ s.HomeKept t ∧
    s.BytesBut t line ∧ (∀ a, a / 64 = line → t.physByte a = lineByte (lineSets (s.lineData line) bs) (a % 64)) ∧
    (∃ l, t.l2At line = some l ∧ l.inj = .none) ∧ ∀ m, m ≠ line → t.l2At m = s.l2At m := by
  obtain ⟨s0, l, hw, hk0, hm0, h0, hi, hd0, ho⟩ : ∃ s0 l, s.homeWrite line own bs = s0.homeWrite line own bs ∧ s.HomeKept s0 ∧
      (∀ a, s0.physByte a = s.physByte a) ∧ s0.l2At line = some l ∧ l.inj = .none ∧ l.data = s.lineData line ∧
      ∀ m, m ≠ line → s0.l2At m = s.l2At m := by
    cases hl : s.l2At line with
    | none =>
      exact ⟨s.fill line own, s.freshLine line own, State.homeWrite_absent own hf.notLost hl hf.room bs, State.fill_kept hl hf.room own,
        State.fill_physByte hl hf.room own, (State.fill_l2At hl hf.room own line).trans (if_pos rfl), rfl, by rw [State.lineData, hl]; rfl,
        fun m hm => (State.fill_l2At hl hf.room own m).trans (if_neg hm)⟩
    | some l => exact ⟨s, l, rfl, .refl s, fun _ => rfl, hl, hf.noError l hl, by rw [State.lineData, hl], fun _ _ => rfl⟩
  obtain ⟨u, l1, he, hk, hb, hat, hd, hi1, -⟩ := State.homeWrite_resident own hline ((hk0.isLost line).trans hf.notLost) h0 hi bs
  refine ⟨_, hw.trans he, hk0.trans (hk.trans ⟨rfl⟩), fun a ha hx => ?_, fun a ha => ?_, ⟨_, (State.l2At_setL2 _ _ _ _).trans (if_pos rfl), hi1⟩,
    fun m hm => ?_⟩
  · rw [State.physByte_setL2, if_neg ha, hb a ha (by rwa [hk0.hbmAddr]), hm0]
  · rw [State.physByte_setL2, if_pos ha, hd, hd0]
  · rw [State.l2At_setL2, if_neg hm, hat, if_neg hm, ho m hm]

end

/-- A byte of a line as memory has it (R20, R205). -/
theorem State.lineByte_lineData (s : State) (a : Nat) : lineByte (s.lineData (a / 64)) (a % 64) = s.physByte a := by
  rw [State.physByte_eq, State.lineData]
  cases s.l2At (a / 64) with
  | some l => rfl
  | none =>
    dsimp only
    rw [lineByte_hbmLine s _ (Nat.mod_lt a (by decide)), Nat.div_add_mod]

/-- A store of bytes from an address up in one line (R322). -/
theorem State.homeWrite_stored {s : State} {pa : Nat} (hf : s.LineFit (pa / 64)) (own : Option Nat) (hpa : pa < 2 ^ 51) (bs : List Byte)
    (hlen : pa % 64 + bs.length ≤ 64) :
    ∃ t, s.homeWrite (pa / 64) own (bs.zipIdx.map fun b => (pa % 64 + b.2, b.1)) = .ok t ∧ s.HomeKept t ∧
      homeStored s t pa bs.length (fun j => bs.getD j 0) ∧ (∃ l, t.l2At (pa / 64) = some l ∧ l.inj = .none) ∧
      ∀ m, m ≠ pa / 64 → t.l2At m = s.l2At m := by
  obtain ⟨t, hw, hk, hbut, hline, hat, ho⟩ := State.homeWrite_fit hf own (by omega) (bs.zipIdx.map fun b => (pa % 64 + b.2, b.1))
  have hin (a : Nat) (ha : a / 64 = pa / 64) : t.physByte a =
      if pa ≤ a ∧ a < pa + bs.length then bs.getD (a - pa) 0 else s.physByte a := by
    rw [hline a ha, lineByte_lineSets bs (pa % 64) 0 _ (by omega), Nat.add_zero, ← ha, State.lineByte_lineData s a]
    by_cases h : pa ≤ a ∧ a < pa + bs.length
    · rw [if_pos (by omega), if_pos h, show a % 64 - pa % 64 = a - pa by omega]
    · rw [if_neg (by omega), if_neg h]
  refine ⟨t, hw, hk, ⟨fun i hi => ?_, fun a ha hx => ?_, fun a => by rw [hk.host], fun c a => by rw [hk.cluster]⟩, hat, ho⟩
  · rw [hin _ (by omega), if_pos (by omega), Nat.add_sub_cancel_left]
  · by_cases hl : a / 64 = pa / 64
    · rw [hin a hl, if_neg (by omega)]
    · exact hbut a hl hx

end Sys2Proof.Machine
end
section
/-! SUPPORT. The events of station cores: what is dispatched, how a run fails, and what the fencing of a partition leaves (R106, R134, R344 to
R347, R362). -/

namespace Sys2Proof.Machine

open Statements

/-! ## Contexts that fall (R296) -/

/-- A context that is as it was, or that was placed and is TERMINATING in the same partition. -/
def Context.Fell (a b : Context) : Prop := b = a ∨ (a.state ≠ .free ∧ b.state = .terminating ∧ b.part = a.part)

theorem Context.Fell.refl (a : Context) : a.Fell a := .inl rfl

theorem Context.Fell.trans {a b c : Context} (h1 : a.Fell b) (h2 : b.Fell c) : a.Fell c := by
  rcases h1 with rfl | ⟨ha, hb, hp⟩
  · exact h2
  · rcases h2 with rfl | ⟨-, hc, hq⟩
    · exact .inr ⟨ha, hb, hp⟩
    · exact .inr ⟨ha, hc, hq.trans hp⟩

theorem Context.Fell.part {a b : Context} (h : a.Fell b) : b.part = a.part := by
  rcases h with rfl | ⟨-, -, h⟩
  · rfl
  · exact h

theorem Context.Fell.placed {a b : Context} (h : a.Fell b) (ha : a.state ≠ .free) : b.state ≠ .free := by
  rcases h with rfl | ⟨-, h, -⟩
  · exact ha
  · rw [h]; exact nofun

theorem Context.Fell.terminating {a b : Context} (h : a.Fell b) (ha : a.state = .terminating) : b.state = .terminating := by
  rcases h with rfl | ⟨-, h, -⟩
  · exact ha
  · exact h

theorem State.contextFault_fell (s : State) (c d : Nat) (t : Option Trap) : (s.ctx d).Fell ((s.contextFault c t).ctx d) := by
  by_cases h : d = c
  · subst h
    by_cases hf : (s.ctx d).state = .free
    · refine .inl ?_
      unfold State.contextFault
      rw [State.ctx_updCtx]
      split
      · rw [hf]
      · rfl
    · refine .inr ⟨hf, State.contextFault_state s d t (State.ctx_lt hf) hf, ?_⟩
      unfold State.contextFault
      rw [State.ctx_updCtx]
      split
      · split <;> rfl
      · rfl
  · rw [State.contextFault_other _ _ _ _ h]; exact .refl _

/-- A fold keeps a relation that each step keeps. -/
theorem foldl_rel {α σ : Type} {R : σ → σ → Prop} (hr : ∀ s, R s s) (ht : ∀ {a b c}, R a b → R b c → R a c) {f : σ → α → σ}
    (hf : ∀ s a, R s (f s a)) (l : List α) (s : σ) : R s (l.foldl f s) :=
  List.foldlRecOn (motive := fun t : σ => R s t) l f (hr s) fun _ h a _ => ht h (hf _ a)

/-- What one step of a fold reaches, and every step keeps, the fold reaches. -/
theorem foldl_reaches {α σ : Type} {C R : σ → Prop} {f : σ → α → σ} {a : α} (hC : ∀ s b, C s → C (f s b)) (hR : ∀ s b, R s → R (f s b))
    (hit : ∀ s, C s → R (f s a)) {l : List α} (ha : a ∈ l) {s : σ} (h : C s) : R (l.foldl f s) := by
  obtain ⟨l1, l2, rfl⟩ := List.append_of_mem ha
  rw [List.foldl_append, List.foldl_cons]
  exact List.foldlRecOn (motive := R) l2 f (hit _ (List.foldlRecOn (motive := C) l1 f h fun _ h b _ => hC _ b h)) fun _ h b _ => hR _ b h

/-! ## A partition fenced, and told (R344, R346) -/

theorem State.raise_events {s : State} {e : Event} (h : s.events.length < 4096) : s.raise e = { s with events := s.events ++ [e] } := if_pos h

theorem State.raise_held {s : State} {e : Event} (h : 4096 ≤ s.events.length) (hk : e.kind ≠ 2) :
    s.raise e = { s with heldEvents := s.heldEvents ++ [e] } := (if_neg (Nat.not_lt.mpr h)).trans (if_neg hk)

/-- What an event leaves: the contexts, the cores and all of a partition but the count of events lost. -/
structure State.Raised (s t : State) : Prop where
  contexts : t.contexts = s.contexts
  cores : t.cores = s.cores
  counts : t.counts = s.counts
  events : ∃ l, t.events = s.events ++ l ∧ l.length ≤ 1
  parts : ∀ p, t.part p = { s.part p with overflow := (t.part p).overflow }

theorem State.raise_raised (s : State) (e : Event) : s.Raised (s.raise e) := by
  unfold State.raise
  split
  · exact ⟨rfl, rfl, rfl, ⟨[e], rfl, Nat.le_refl 1⟩, fun _ => rfl⟩
  · split
    · refine ⟨rfl, rfl, rfl, ⟨[], (List.append_nil _).symm, Nat.zero_le 1⟩, fun p => ?_⟩
      rw [State.part_updPart]
      split
      · next h => rw [h.1]
      · rfl
    · exact ⟨rfl, rfl, rfl, ⟨[], (List.append_nil _).symm, Nat.zero_le 1⟩, fun _ => rfl⟩

theorem State.reportFault_raised (s : State) (p : Nat) : s.Raised (s.reportFault p) := by
  obtain ⟨h1, h2, h3, h4, h5⟩ := State.raise_raised { s with tick := s.tick + 6 } ⟨2, p, p, (s.freePayload).1⟩
  exact ⟨h1, h2, h3, h4, h5⟩

theorem State.reportFault_tells {s : State} (h : s.events.length < 4096) (p : Nat) : toldOf (s.reportFault p) p := by
  have he : (s.reportFault p).events = s.events ++ [⟨2, p, p, s.freePayload.1⟩] :=
    congrArg State.events (State.raise_events (s := s.freePayload.2) h)
  exact ⟨_, he ▸ List.mem_append_right _ (List.mem_singleton.mpr rfl), rfl, rfl⟩

theorem toldOf_of_subset {s t : State} {p : Nat} (h : ∀ e ∈ s.events, e ∈ t.events) : toldOf s p → toldOf t p :=
  fun ⟨e, he, hk⟩ => ⟨e, h e he, hk⟩

theorem State.fencePart_events (s : State) (p : Nat) : (s.fencePart p).events = s.events := by
  refine List.foldlRecOn (motive := fun t : State => t.events = s.events) _ _ rfl fun t ht c _ => ?_
  split
  · exact ht
  · exact ht

theorem State.fencePart_parts (s : State) (p : Nat) : (s.fencePart p).parts = (s.updPart p fun x => { x with pstat := 3 }).parts := by
  refine List.foldlRecOn (motive := fun t : State => t.parts = (s.updPart p fun x => { x with pstat := 3 }).parts) _ _ rfl fun t ht c _ => ?_
  split
  · exact ht
  · exact ht

theorem State.fencePart_part (s : State) (p q : Nat) :
    (s.fencePart p).part q = if q = p ∧ p < 16 then { s.part p with pstat := 3 } else s.part q := by
  rw [State.part, State.fencePart_parts, ← State.part, State.part_updPart]

theorem State.fencePart_fell (s : State) (p d : Nat) : (s.ctx d).Fell ((s.fencePart p).ctx d) := by
  unfold State.fencePart
  refine foldl_rel (R := fun s t : State => (s.ctx d).Fell (t.ctx d)) (fun s => .refl _) (fun h1 h2 => h1.trans h2) (fun s c => ?_) (upto 1024)
    (s.updPart p fun x => { x with pstat := 3 })
  split
  · exact State.contextFault_fell s c d none
  · exact .refl _

/-- Each placed context of the partition is TERMINATING then. -/
theorem State.fencePart_ends {s : State} {p c : Nat} (hc : c < 1024) (hp : (s.ctx c).part = p) (hf : (s.ctx c).state ≠ .free) :
    ((s.fencePart p).ctx c).state = .terminating := by
  have hstep (s : State) (d : Nat) :
      (s.ctx c).Fell ((if (s.ctx d).part = p && (s.ctx d).state != .free then s.contextFault d else s).ctx c) := by
    split
    · exact State.contextFault_fell s d c none
    · exact .refl _
  unfold State.fencePart
  refine foldl_reaches (C := fun t : State => (t.ctx c).part = p ∧ (t.ctx c).state ≠ .free)
    (R := fun t : State => (t.ctx c).state = .terminating) (a := c) (fun t d h => ⟨(hstep t d).part.trans h.1, (hstep t d).placed h.2⟩)
    (fun t d h => (hstep t d).terminating h) (fun t h => ?_) (by simpa [upto] using hc) ⟨hp, hf⟩
  rw [if_pos (by simp [h.1, h.2])]
  exact State.contextFault_state t c none hc h.2

/-! ## Dispatch (R344, R345) -/

theorem State.refillQueue_held {s : State} {h : Event} {l : List Event} (e : s.heldEvents = h :: l) :
    s.refillQueue.events = s.events ++ [h] ∧ s.refillQueue.heldEvents = l := by
  rw [State.refillQueue, e]
  exact ⟨rfl, rfl⟩

theorem State.refillQueue_none {s : State} (e : s.heldEvents = []) (h : ∀ p < 16, (s.part p).mboxHeld = none) : s.refillQueue = s := by
  have hf : ((upto 16).find? fun p => (s.part p).mboxHeld.isSome) = none := by
    rw [List.find?_eq_none]
    intro p hp
    rw [h p (by simpa [upto] using hp)]
    exact Bool.false_ne_true
  rw [State.refillQueue, e]
  dsimp only
  rw [hf]

section

variable {s : State} {n : Nat}

theorem State.dispatch_idle (h : (s.station n).event.isSome = true ∨ (s.station n).fenced = true ∨ s.bootstat.getLsbD 31 = false ∨
    (∀ e ∈ s.events, s.keyHeld e.lockKey = true)) : s.dispatch n = s := by
  rw [State.dispatch]
  by_cases hg : (!s.booted || (s.station n).event.isSome || (s.station n).fenced) = true
  · rw [if_pos hg]
  · rw [if_neg hg]
    have hall : ∀ e ∈ s.events, s.keyHeld e.lockKey = true := by
      rcases h with h | h | h | h
      · exact absurd (by simp [h]) hg
      · exact absurd (by simp [h]) hg
      · exact absurd (by simp [State.booted, h, -BitVec.getLsbD_eq_getElem]) hg
      · exact h
    have hf : (s.events.findIdx? fun e => !s.keyHeld e.lockKey) = none := by
      rw [List.findIdx?_eq_none_iff]
      intro e he
      rw [hall e he]
      rfl
    rw [hf]

theorem State.dispatch_takes {i : Nat} {e : Event} (hb : s.bootstat.getLsbD 31 = true) (he : (s.station n).event = none)
    (hf : (s.station n).fenced = false) (hi : s.events[i]? = some e) (hk : s.keyHeld e.lockKey = false)
    (hbefore : ∀ j < i, ∀ x, s.events[j]? = some x → s.keyHeld x.lockKey = true) :
    s.dispatch n = (({ s with events := s.events.eraseIdx i } : State).refillQueue).updStation n fun t =>
      { t with event := some e, fails := 0, waiting := none, hart := eventHart s.evvec e } := by
  obtain ⟨hlt, hie⟩ := List.getElem?_eq_some_iff.mp hi
  have hidx : (s.events.findIdx? fun e => !s.keyHeld e.lockKey) = some i := by
    rw [List.findIdx?_eq_some_iff_getElem]
    refine ⟨hlt, by rw [hie, hk]; rfl, fun j hj => ?_⟩
    rw [hbefore j hj _ (List.getElem?_eq_getElem (by omega))]
    exact Bool.false_ne_true
  rw [State.dispatch, if_neg (by simp [State.booted, hb, he, hf]), hidx]
  dsimp only
  rw [hi]

end

theorem eventHart_get (evvec : Vector Word 5) (e : Event) :
    (eventHart evvec e).get 3 = e.word ∧ ∀ i < 6, (eventHart evvec e).get (BitVec.ofNat 6 (4 + i)) = e.payload.getD i 0 := by
  have hx (r : XReg) (hr : r ≠ 0) : (eventHart evvec e).get r = (eventHart evvec e).x.getD r.toNat 0 := XReg.get_eq _ hr
  have hfold : (eventHart evvec e).x = (((((((hartReset.x.setIfInBounds 3 e.word).setIfInBounds 4 (e.payload.getD 0 0)).setIfInBounds 5
      (e.payload.getD 1 0)).setIfInBounds 6 (e.payload.getD 2 0)).setIfInBounds 7 (e.payload.getD 3 0)).setIfInBounds 8
      (e.payload.getD 4 0)).setIfInBounds 9 (e.payload.getD 5 0)) := rfl
  refine ⟨?_, fun i hi => ?_⟩
  · rw [hx 3 (by decide), hfold]
    simp [getD_setIfInBounds]
  · interval_cases i
    all_goals
      rw [hx _ (by decide), hfold]
      simp [getD_setIfInBounds]

/-! ## A run that fails (R106, R345) -/

section

variable {s : State} {n : Nat} {e : Event} (he : (s.station n).event = some e)

include he

theorem State.failRun_again (hz : (s.station n).fails = 0) (u : Option Trap) :
    s.failRun n u = (match u with | some u => s.logErr (.trap n u) | none => s).updStation n fun t =>
      { t with fails := if u.isSome then 1 else 2, hart := eventHart s.evvec e, waiting := none } := by
  unfold State.failRun
  dsimp only
  rw [he]
  exact if_pos hz

theorem State.failRun_over (hz : (s.station n).fails ≠ 0) (u : Option Trap) :
    s.failRun n u = ((match u with | some u => s.logErr (.trap n u) | none => s).logErr (.event n e.kind e.part e.key)).updStation n fun t =>
      { t with event := none, fails := 0, waiting := none, fenced := t.fenced || (u.isSome && (s.station n).fails == 1) } := by
  unfold State.failRun
  dsimp only
  rw [he]
  exact if_neg hz

end

end Sys2Proof.Machine

namespace Sys2Proof.Proofs

open Machine Statements

theorem station_takes {s : State} {n : Nat} (hn : n < 12) (i : Nat) (e : Event) (hb : s.bootstat.getLsbD 31 = true)
    (he : (s.station n).event = none) (hf : (s.station n).fenced = false) (hi : s.events[i]? = some e) (hk : s.keyHeld e.lockKey = false)
    (hbefore : ∀ j < i, ∀ x, s.events[j]? = some x → s.keyHeld x.lockKey = true) :
    ∃ t, exec (.evEventDispatch n) s = .next t ∧ (t.station n).event = some e ∧ (t.station n).hart.pc = s.evvec.getD e.kind 0 ∧
      (t.station n).hart.get 3 = e.word ∧ (∀ i < 6, (t.station n).hart.get (BitVec.ofNat 6 (4 + i)) = e.payload.getD i 0) ∧
      (∀ h l, s.heldEvents = h :: l → t.events = s.events.eraseIdx i ++ [h] ∧ t.heldEvents = l) ∧
      (s.heldEvents = [] → (∀ p < 16, (s.part p).mboxHeld = none) → t.events = s.events.eraseIdx i) := by
  refine ⟨_, congrArg Host.Outcome.next (State.dispatch_takes hb he hf hi hk hbefore), ?_, ?_, ?_, ?_, fun h l hh => ?_, fun hh hm => ?_⟩
  case refine_5 => exact State.refillQueue_held (s := { s with events := s.events.eraseIdx i }) hh
  case refine_6 =>
    exact congrArg State.events (State.refillQueue_none (s := { s with events := s.events.eraseIdx i }) hh hm)
  all_goals rw [State.station_updStation, if_pos ⟨rfl, hn⟩]
  · rfl
  · exact (eventHart_get s.evvec e).1
  · exact (eventHart_get s.evvec e).2

theorem station_fails {s : State} {n : Nat} (hn : n < 12) (e : Event) (he : (s.station n).event = some e) :
    let again (t : State) : Prop := (t.station n).event = some e ∧ (t.station n).hart.pc = s.evvec.getD e.kind 0 ∧ (t.station n).fails ≠ 0
    ((s.station n).fails = 0 → ∃ t, exec (.evStationCoreReset n) s = .next t ∧ again t ∧ t.errlog = s.errlog) ∧
    ((s.station n).fails ≠ 0 → ∃ t, exec (.evStationCoreReset n) s = .next t ∧ (t.station n).event = none ∧
      (t.station n).fenced = (s.station n).fenced ∧ t.errlog = s.errlog ++ [.event n e.kind e.part e.key]) ∧
    ∀ tr, s.cur = .station n →
      ((s.station n).fails = 0 → again (s.take tr) ∧ (s.take tr).errlog = s.errlog ++ [.trap n tr]) ∧
      ((s.station n).fails ≠ 0 → ((s.take tr).station n).event = none ∧
        (s.take tr).errlog = s.errlog ++ [.trap n tr, .event n e.kind e.part e.key] ∧
        ((s.station n).fails = 1 → ((s.take tr).station n).fenced = true)) := by
  dsimp only
  refine ⟨fun hz => ⟨_, congrArg Host.Outcome.next (State.failRun_again he hz none), ?_, rfl⟩,
    fun hz => ⟨_, congrArg Host.Outcome.next (State.failRun_over he hz none), ?_, ?_, rfl⟩, fun tr hc => ?_⟩
  · rw [State.station_updStation, if_pos ⟨rfl, hn⟩]
    exact ⟨he, rfl, by simp⟩
  · rw [State.station_updStation, if_pos ⟨rfl, hn⟩]
  · rw [State.station_updStation, if_pos ⟨rfl, hn⟩]
    exact Bool.or_false _
  · have ht : s.take tr = s.failRun n (some tr) := by rw [State.take, hc]
    rw [ht]
    refine ⟨fun hz => ?_, fun hz => ?_⟩
    · rw [State.failRun_again he hz, State.station_updStation, if_pos ⟨rfl, hn⟩]
      exact ⟨⟨he, rfl, by simp⟩, rfl⟩
    · rw [State.failRun_over he hz, State.station_updStation, if_pos ⟨rfl, hn⟩]
      exact ⟨rfl, by simp [State.logErr, State.updStation], fun h1 => by simp [h1]⟩

theorem slice_expires {s : State} {ctx : Nat} (h : (s.ctx ctx).state = .running) :
    ∃ t e, exec (.evTimeSliceExpiry ctx) s = .next t ∧ e.kind = 1 ∧ e.part = (s.ctx ctx).part ∧
      t.contexts = s.contexts ∧ (s.events.length < 4096 → t.events = s.events ++ [e]) ∧
      (4096 ≤ s.events.length → t.events = s.events ∧ t.heldEvents = s.heldEvents ++ [e]) := by
  have hex : s.sliceExpiry ctx = s.freePayload.2.raise ⟨1, (s.ctx ctx).part, (s.ctx ctx).part, s.freePayload.1⟩ := if_neg (not_not.mpr h)
  refine ⟨_, _, congrArg Host.Outcome.next hex, rfl, rfl, (State.raise_raised _ _).contexts,
    fun hl => congrArg State.events (State.raise_events (s := s.freePayload.2) hl), fun hl => ?_⟩
  rw [State.raise_held (s := s.freePayload.2) hl (show (1 : Nat) ≠ 2 by decide)]
  exact ⟨rfl, rfl⟩

theorem watchdog_fences {s : State} {n : Nat} (hn : n < 12) (p : BitVec 4) (h : ∃ e, (s.station n).event = some e ∧ e.part = p.toNat) :
    ∃ t, exec (.evSchedulerWatchdog p) s = .next t ∧ (t.part p.toNat).pstat = 3 ∧ (s.events.length < 4096 → toldOf t p.toNat) ∧
      ∀ c < 1024, (s.ctx c).part = p.toNat → (s.ctx c).state ≠ .free → (t.ctx c).state = .terminating := by
  obtain ⟨e, he, hp⟩ := h
  have hany : (s.stations.toList.any fun t => t.event.any fun e => e.part == p.toNat) = true := by
    rw [List.any_eq_true]
    refine ⟨s.stations[n], by simp, ?_⟩
    have : s.station n = s.stations[n] := by rw [State.station, getD_eq, dif_pos hn]
    rw [← this, he]
    simpa using hp
  have hex : s.watchdog p.toNat = (s.fencePart p.toNat).reportFault p.toNat := if_pos hany
  have hr := State.reportFault_raised (s.fencePart p.toNat) p.toNat
  refine ⟨_, congrArg Host.Outcome.next hex, ?_, fun hl => State.reportFault_tells (by rwa [State.fencePart_events]) _, fun c hc hcp hcf => ?_⟩
  · rw [hr.parts, State.fencePart_part, if_pos ⟨rfl, p.isLt⟩]
  · rw [State.ctx, hr.contexts]
    exact State.fencePart_ends hc hcp hcf

theorem stationEvents_hold : stationEvents := by
  intro s n hn
  refine ⟨fun h => congrArg Host.Outcome.next (State.dispatch_idle h), station_takes hn, station_fails hn,
    fun ctx h => congrArg Host.Outcome.next (if_pos h), fun ctx h => slice_expires h, fun p => ⟨fun h => congrArg Host.Outcome.next ?_, watchdog_fences hn p⟩⟩
  refine if_neg fun hany => ?_
  obtain ⟨t, ht, he⟩ := List.any_eq_true.mp hany
  obtain ⟨m, hm, rfl⟩ := List.getElem_of_mem ht
  have hm12 : m < 12 := by simpa using hm
  have hst : s.station m = s.stations.toList[m] := by rw [State.station, getD_eq, dif_pos hm12]; simp
  rw [← hst] at he
  cases hev : (s.station m).event with
  | none => rw [hev] at he; exact absurd he Bool.false_ne_true
  | some e => rw [hev] at he; exact h m hm12 e hev (by simpa using he)

end Sys2Proof.Proofs
end
section
/-! SUPPORT. The requests of other packages, performed at their home lines (R322, R333, R337, R365). -/

namespace Sys2Proof.Machine

open Statements

/-! ## Bytes of memory through updates that name none -/

theorem memSame_fields {s t : State} (h1 : t.hbm = s.hbm := by rfl) (h2 : t.l2 = s.l2 := by rfl) (h3 : t.parts = s.parts := by rfl)
    (h4 : t.host = s.host := by rfl) (h5 : t.clusters = s.clusters := by rfl) : memSame s t := by
  refine ⟨fun a => ?_, fun a => by rw [h4], fun c a => by rw [State.cluster, h5]; rfl⟩
  have hat : t.l2At (a / 64) = s.l2At (a / 64) := by rw [State.l2At, h2]; rfl
  have hp : t.platAt a = s.platAt a := by rw [State.platAt, State.plats, h3]; rfl
  have haddr : t.hbmAddr a = s.hbmAddr a := by rw [State.hbmAddr, hp]; rfl
  rw [State.physByte_eq, State.physByte_eq s, hat, h1, haddr]

theorem memSame_settle (s : State) (ks : List Nat) : memSame s (s.settle ks) := by
  unfold State.settle
  split
  · exact memSame_refl s
  · exact memSame_fields

theorem homeStored_then {s t u : State} {pa n : Nat} {f : Nat → Byte} (h : homeStored s t pa n f) (h2 : memSame t u) :
    homeStored s u pa n f := by
  obtain ⟨hin, hout, hhost, hcl⟩ := h
  obtain ⟨hp, hh, hc⟩ := h2
  exact ⟨fun i hi => (hp _).trans (hin i hi), fun a ha hx => (hp a).trans (hout a ha hx), fun a => (hh a).trans (hhost a),
    fun c a => (hc c a).trans (hcl c a)⟩

theorem homeStored_after {s s0 t : State} {pa n : Nat} {f : Nat → Byte} (hk : s.HomeKept s0) (hm : memSame s s0)
    (h : homeStored s0 t pa n f) : homeStored s t pa n f := by
  obtain ⟨hin, hout, hhost, hcl⟩ := h
  obtain ⟨hp, hh, hc⟩ := hm
  exact ⟨hin, fun a ha hx => (hout a ha (by rwa [hk.hbmAddr])).trans (hp a), fun a => (hhost a).trans (hh a),
    fun c a => (hcl c a).trans (hc c a)⟩

/-- A memory that stays as it is holds the bytes that a range had. -/
theorem homeStored_same {s t : State} (hm : memSame s t) (pa n : Nat) {f : Nat → Byte} (hf : ∀ i < n, s.physByte (pa + i) = f i) :
    homeStored s t pa n f :=
  ⟨fun i hi => (hm.1 _).trans (hf i hi), fun a _ _ => hm.1 a, hm.2.1, hm.2.2⟩

theorem homeStored_congr {s t : State} {pa n : Nat} {f g : Nat → Byte} (h : homeStored s t pa n f) (hfg : ∀ i < n, f i = g i) :
    homeStored s t pa n g := ⟨fun i hi => (h.1 i hi).trans (hfg i hi), h.2⟩

theorem State.byte_physNat (s : State) (pa n : Nat) {i : Nat} (hi : i < n) :
    BitVec.ofNat 8 (s.physNat pa n / 2 ^ (8 * i)) = s.physByte (pa + i) := by
  rw [State.physNat, ofNat_leNat_div, State.physBytes_getD s pa n i hi]

/-! ## One request, in one line -/

theorem addr56_ofNat {pa : Nat} (h : pa < 2 ^ 51) : addr56 (BitVec.ofNat 64 pa) = pa := by
  have hp : pa < 2 ^ 64 := by omega
  rw [addr56_eq, BitVec.extractLsb'_toNat, BitVec.toNat_ofNat, Nat.mod_eq_of_lt hp, Nat.shiftRight_zero, Nat.mod_eq_of_lt (by omega)]

theorem cutLines_zero (y : Word) (m : Nat) : cutLines y m 0 = [] := by cases m <;> rfl

/-- A range that lies in one line is not cut. -/
theorem cutLines_one {pa n : Nat} (hpa : pa < 2 ^ 51) (hn : 0 < n) (hl : pa % 64 + n ≤ 64) :
    cutLines (BitVec.ofNat 64 pa) n n = [⟨BitVec.ofNat 64 pa, n⟩] := by
  obtain ⟨m, rfl⟩ := Nat.exists_eq_succ_of_ne_zero hn.ne'
  rw [Nat.succ_eq_add_one] at *
  rw [cutLines, addr56_ofNat hpa, Nat.min_eq_left (by omega), Nat.sub_self, cutLines_zero]
  exact nofun

section

variable {s : State} {pa : Nat} (hpa : pa < 2 ^ 51) (hf : s.LineFit (pa / 64))

include hpa hf

/-- A load of a range in one line makes the line resident, and changes no byte. -/
theorem State.inLoad_one (n : Nat) : ∃ t, s.inLoad [⟨BitVec.ofNat 64 pa, n⟩] = .ok t ∧ s.HomeKept t ∧ memSame s t ∧ t.LineFit (pa / 64) := by
  have hto : (BitVec.ofNat 64 pa).toNat = pa := by rw [BitVec.toNat_ofNat, Nat.mod_eq_of_lt (by omega)]
  obtain ⟨t, hr, hk, hm, ⟨l, hl, hi⟩, -⟩ := State.homeRead_fit hf none
  refine ⟨t, ?_, hk, hm, (hk.isLost _).trans hf.notLost, fun hn => ?_, fun x hx => ?_⟩
  · rw [State.inLoad, hto]
    rcases hr with hr | hr <;> rw [hr] <;> rfl
  · rw [hl] at hn; cases hn
  · rw [hl] at hx; cases hx; exact hi

theorem State.inStore_one (atomic : Bool) (bs : List Byte) (hlen : pa % 64 + bs.length ≤ 64) :
    ∃ t, s.inStore atomic [⟨BitVec.ofNat 64 pa, bs.length⟩] bs = .ok t ∧ homeStored s t pa bs.length fun j => bs.getD j 0 := by
  have hto : (BitVec.ofNat 64 pa).toNat = pa := by rw [BitVec.toNat_ofNat, Nat.mod_eq_of_lt (by omega)]
  obtain ⟨t, hw, -, hs, -⟩ := State.homeWrite_stored hf none hpa bs hlen
  have he : s.inStore atomic [⟨BitVec.ofNat 64 pa, bs.length⟩] bs = .ok (if atomic then t.settle ((upto bs.length).map (pa + ·)) else
      (t.settle ((upto bs.length).map (pa + ·))).dropReleases pa bs.length) := by
    rw [State.inStore, hto, List.take_length, hw]
    rfl
  refine ⟨_, he, homeStored_then hs ?_⟩
  split
  · exact memSame_settle t _
  · exact memSame_trans (memSame_settle t _) memSame_fields

end

/-! ## What a request comes to -/

theorem inWrites_iff {op : InOp} (hc : ∀ tag, op ≠ .complete tag) : inWrites op = true ↔ ∀ n, op ≠ .load n := by
  cases op with
  | load n => exact ⟨nofun, fun h => absurd rfl (h n)⟩
  | store bs => exact ⟨fun _ => nofun, fun _ => rfl⟩
  | atom a b o c => exact ⟨fun _ => nofun, fun _ => rfl⟩
  | complete tag => exact absurd rfl (hc tag)

/-- The state once a request of a partition's window has been performed, or waits. -/
def requestServed (p : Nat) (key : BitVec 9) : Except State State → State
  | .error s1 => s1
  | .ok s1 => { s1 with incoming := s1.incoming ++ [⟨s1.nextTag, p, key⟩], nextTag := s1.nextTag + 1 }

section

variable {s : State} {key : BitVec 9} {off : Nat} {op : InOp} (hc : ∀ tag, op ≠ .complete tag)

include hc

theorem State.incomingReq_unexported (h : s.exporter key off (inSize op) = none) :
    s.incomingReq key off op = s.logErr (.request key.toNat (off % 2 ^ 40)) := by
  cases op with
  | complete tag => exact absurd rfl (hc tag)
  | load n => simp only [State.incomingReq, h]
  | store bs => simp only [State.incomingReq, h]
  | atom a b o c => simp only [State.incomingReq, h]

theorem State.incomingReq_exported {p : Nat} (h : s.exporter key off (inSize op) = some p) : s.incomingReq key off op =
    let pa := (s.part p).expbase + off
    if inWrites op && s.meetsSlots pa (inSize op) then s.logErr (.request key.toNat (off % 2 ^ 40))
    else if (cutLines (BitVec.ofNat 64 pa) (inSize op) (inSize op)).any fun e => s.pinnedOutside (e.y.toNat / 64) then s
    else requestServed p key (s.inPerform pa op) := by
  cases op with
  | complete tag => exact absurd rfl (hc tag)
  | load n => simp only [State.incomingReq, h]; rfl
  | store bs => simp only [State.incomingReq, h]; rfl
  | atom a b o c => simp only [State.incomingReq, h]; rfl

variable {p : Nat} (h : s.exporter key off (inSize op) = some p)

include h

theorem State.incomingReq_slots (hs : (∀ n, op ≠ .load n) ∧ s.meetsSlots ((s.part p).expbase + off) (inSize op) = true) :
    s.incomingReq key off op = s.logErr (.request key.toNat (off % 2 ^ 40)) := by
  rw [State.incomingReq_exported hc h]
  exact if_pos (by rw [(inWrites_iff hc).mpr hs.1, hs.2]; rfl)

variable (hs : ¬((∀ n, op ≠ .load n) ∧ s.meetsSlots ((s.part p).expbase + off) (inSize op) = true))

include hs

theorem State.incomingReq_data : s.incomingReq key off op =
    if (cutLines (BitVec.ofNat 64 ((s.part p).expbase + off)) (inSize op) (inSize op)).any fun e => s.pinnedOutside (e.y.toNat / 64) then s
    else requestServed p key (s.inPerform ((s.part p).expbase + off) op) := by
  rw [State.incomingReq_exported hc h]
  refine if_neg fun hb => hs ?_
  obtain ⟨hw, hm⟩ := Bool.and_eq_true_iff.mp hb
  exact ⟨(inWrites_iff hc).mp hw, hm⟩

end

end Sys2Proof.Machine

namespace Sys2Proof.Proofs

open Machine Statements

/-- A request served in one line: a load changes no byte, a store writes its bytes, and an atomic leaves its new value. -/
theorem inPerform_line {s : State} {pa : Nat} {op : InOp} (hn : 0 < inSize op) (hl : pa % 64 + inSize op ≤ 64) (hpa : pa < 2 ^ 51)
    (hf : s.LineFit (pa / 64)) :
    ∃ t, s.inPerform pa op = .ok t ∧ (∀ n, op = .load n → memSame s t) ∧
      (∀ bs, op = .store bs → homeStored s t pa bs.length fun j => bs.getD j 0) ∧
      ∀ a big o cmp, op = .atom a big o cmp → homeStored s t pa (inSize op) fun j =>
        BitVec.ofNat 8 ((if a = .cas ∧ s.physNat pa (inSize op) ≠ cmp then s.physNat pa (inSize op)
          else atomNew a (inSize op) (s.physNat pa (inSize op)) o cmp) / 2 ^ (8 * j)) := by
  cases op with
  | complete tag => exact absurd hn (Nat.lt_irrefl 0)
  | load n =>
    obtain ⟨t, ht, -, hm, -⟩ := State.inLoad_one hpa hf n
    exact ⟨t, by rw [State.inPerform, cutLines_one hpa hn hl]; exact ht, fun _ _ => hm, nofun, nofun⟩
  | store bs =>
    obtain ⟨t, ht, hst⟩ := State.inStore_one hpa hf false bs hl
    refine ⟨t, by rw [State.inPerform, cutLines_one hpa hn hl]; exact ht, nofun, fun b hb => ?_, nofun⟩
    cases hb
    exact hst
  | atom a big o cmp =>
    obtain ⟨t, ht, hk, hm, hft⟩ := State.inLoad_one hpa hf (inSize (.atom a big o cmp))
    have hold : t.physNat pa (inSize (.atom a big o cmp)) = s.physNat pa (inSize (.atom a big o cmp)) :=
      congrArg leNat (State.physBytes_congr hm.1 _ _)
    have hp : s.inPerform pa (.atom a big o cmp) =
        if a = .cas ∧ s.physNat pa (inSize (.atom a big o cmp)) ≠ cmp then .ok t
        else t.inStore true [⟨BitVec.ofNat 64 pa, inSize (.atom a big o cmp)⟩] (leBytes (inSize (.atom a big o cmp))
          (atomNew a (inSize (.atom a big o cmp)) (s.physNat pa (inSize (.atom a big o cmp))) o cmp)) := by
      rw [← hold, State.inPerform, cutLines_one hpa hn hl]
      dsimp only
      rw [ht]
      rfl
    generalize inSize (.atom a big o cmp) = n at *
    by_cases hfail : a = .cas ∧ s.physNat pa n ≠ cmp
    · rw [if_pos hfail] at hp
      refine ⟨t, hp, nofun, nofun, fun a' big' o' cmp' he => ?_⟩
      cases he
      rw [if_pos hfail]
      exact homeStored_same hm pa n fun i hi => (State.byte_physNat s pa n hi).symm
    · rw [if_neg hfail] at hp
      have hlen := Tests.leBytes_length n (atomNew a n (s.physNat pa n) o cmp)
      obtain ⟨u, hu, hst⟩ := State.inStore_one hpa hft true (leBytes n (atomNew a n (s.physNat pa n) o cmp)) (by rw [hlen]; exact hl)
      rw [hlen] at hu hst
      refine ⟨u, hp.trans hu, nofun, nofun, fun a' big' o' cmp' he => ?_⟩
      cases he
      rw [if_neg hfail]
      exact homeStored_congr (homeStored_after hk hm hst) fun i hi => getD_leBytes n _ i hi

theorem incoming_requests : incomingPart := by
  intro s
  refine ⟨fun key off op hc => ⟨fun h => ⟨_, congrArg Host.Outcome.next (State.incomingReq_unexported hc h), rfl, rfl, rfl, rfl⟩,
    fun p h => ⟨fun hs => ⟨_, congrArg Host.Outcome.next (State.incomingReq_slots hc h hs), rfl, rfl, rfl, rfl⟩, fun hs hpin => ?_,
      fun hs hpin => ?_⟩⟩, fun key off tag => rfl, fun id => rfl⟩
  · refine congrArg Host.Outcome.next ((State.incomingReq_data hc h hs).trans (if_pos ?_))
    exact List.any_eq_true.mpr hpin
  · have hnone : ¬((cutLines (BitVec.ofNat 64 ((s.part p).expbase + off)) (inSize op) (inSize op)).any
        fun e => s.pinnedOutside (e.y.toNat / 64)) = true := by
      rw [List.any_eq_true]
      rintro ⟨e, he, hp⟩
      rw [hpin e he] at hp
      exact absurd hp Bool.false_ne_true
    have he {t : State} (ht : requestServed p key (s.inPerform ((s.part p).expbase + off) op) = t) :
        exec (.evIncomingRequest key off op) s = .next t :=
      congrArg Host.Outcome.next (((State.incomingReq_data hc h hs).trans (if_neg hnone)).trans ht)
    refine ⟨fun s1 h1 => he (congrArg _ h1), fun s1 h1 => ⟨_, he (congrArg _ h1), rfl, rfl, rfl⟩, fun hn hl hpa hlost hroom hinj => ?_⟩
    obtain ⟨t, ht, hload, hstore, hatom⟩ := inPerform_line hn hl hpa ⟨hlost, hroom, hinj⟩
    have hserved := he (congrArg _ ht)
    refine ⟨fun n hop => ⟨_, hserved, memSame_trans (hload n hop) memSame_fields⟩,
      fun bs hop => ⟨_, hserved, homeStored_then (hstore bs hop) memSame_fields⟩,
      fun a big o cmp hop => ⟨_, hserved, homeStored_then (hatom a big o cmp hop) memSame_fields⟩⟩

end Sys2Proof.Proofs
end
section
/-! SUPPORT. Power, boot and failures of the package (R326, R341, R346 to R349, R351). -/

namespace Sys2Proof.Machine

open Statements

/-! ## Errors counted (R351) -/

theorem State.countErr_counted (s : State) (f : Func) (unc : Bool) :
    counted s.counts (s.countErr f unc).counts f (if unc then 0 else 1) (if unc then 1 else 0) := by
  have hf : ((s.counts.find? (·.func == f)).getD ⟨f, 0, 0⟩).func = f := by
    cases h : s.counts.find? (·.func == f) with
    | none => rfl
    | some c => simpa using List.find?_some h
  refine ⟨_, List.mem_cons_self, ?_⟩
  cases unc
  · exact ⟨hf, rfl, rfl⟩
  · exact ⟨hf, rfl, rfl⟩

/-! ## Boot (R347) -/

theorem bootAfter_accept (b : Word) (src : BitVec 2) :
    (bootAfter b src 0).getLsbD 31 = true ∧ (bootAfter b src 0).extractLsb' 16 2 = src := by
  have hs := src.isLt
  have h1 : field b 15 8 < 256 := (b.extractLsb' 8 8).isLt
  have h2 : field b 7 0 < 256 := (b.extractLsb' 0 8).isLt
  have hv : bootAfter b src 0 = BitVec.ofNat 64 (2 ^ 31 + src.toNat * 2 ^ 16 + field b 15 8 * 2 ^ 8 + field b 7 0) := by
    unfold bootAfter; exact if_pos rfl
  rw [hv]
  generalize field b 15 8 = x at *
  generalize field b 7 0 = y at *
  refine ⟨?_, BitVec.eq_of_toNat_eq ?_⟩
  · rw [BitVec.getLsbD_ofNat, Nat.testBit_eq_decide_div_mod_eq, decide_eq_true (by decide : 31 < 64), Bool.true_and, decide_eq_true_iff]
    omega
  · rw [BitVec.extractLsb'_toNat, BitVec.toNat_ofNat, Nat.shiftRight_eq_div_pow]
    omega

theorem bootAfter_refuse (b : Word) (src : BitVec 2) {code : BitVec 8} (hc : 1 ≤ code.toNat) :
    (bootAfter b src code).getLsbD 31 = false ∧ (bootAfter b src code).extractLsb' 16 2 = src ∧
      (bootAfter b src code).extractLsb' 0 8 = code ∧ ((bootAfter b src code).extractLsb' 8 8).toNat = min 255 ((b.extractLsb' 8 8).toNat + 1) := by
  have hs := src.isLt
  have hcl := code.isLt
  have hne : ¬code = 0 := by rintro rfl; exact absurd hc (by decide)
  have hv : bootAfter b src code = BitVec.ofNat 64 (src.toNat * 2 ^ 16 + min 255 ((b.extractLsb' 8 8).toNat + 1) * 2 ^ 8 + code.toNat) := if_neg hne
  have hx : min 255 ((b.extractLsb' 8 8).toNat + 1) ≤ 255 := Nat.min_le_left _ _
  rw [hv]
  generalize min 255 ((b.extractLsb' 8 8).toNat + 1) = x at *
  refine ⟨?_, BitVec.eq_of_toNat_eq ?_, BitVec.eq_of_toNat_eq ?_, ?_⟩
  · rw [BitVec.getLsbD_ofNat, Nat.testBit_eq_decide_div_mod_eq, decide_eq_true (by decide : 31 < 64), Bool.true_and, decide_eq_false_iff_not]
    omega
  · rw [BitVec.extractLsb'_toNat, BitVec.toNat_ofNat, Nat.shiftRight_eq_div_pow]
    omega
  · rw [BitVec.extractLsb'_toNat, BitVec.toNat_ofNat, Nat.shiftRight_eq_div_pow]
    omega
  · rw [BitVec.extractLsb'_toNat, BitVec.toNat_ofNat, Nat.shiftRight_eq_div_pow]
    omega

theorem State.bootOffer_taken {s : State} {src : BitVec 2} {code : BitVec 8} (hs : src = 1 ∨ src = 2) (hb : s.bootstat.getLsbD 31 = false)
    (hc : code.toNat ≤ 5) (hash : BitVec 256) : s.bootOffer src code hash =
      if code = 0 then { s with bootstat := bootAfter s.bootstat src code, measurements := [hash] }
      else { s with bootstat := bootAfter s.bootstat src code } := by
  have hsrc : (src != 1 && src != 2) = false := by rcases hs with rfl | rfl <;> rfl
  rw [State.bootOffer, hb, hsrc, decide_eq_false (Nat.not_lt.mpr hc)]
  rfl

/-! ## Partitions told (R344) -/

/-- What is told in one step of a fold over partitions stands after it, while the queue has room. -/
theorem foldl_tells {f : State → Nat → State} {c : State → Prop} {p : Nat} (hev : ∀ s q, ∃ l, (f s q).events = s.events ++ l ∧ l.length ≤ 1)
    (hc : ∀ s q, c s → c (f s q)) (hit : ∀ s, c s → s.events.length < 4096 → toldOf (f s p) p) {l : List Nat} :
    p ∈ l → ∀ {s : State}, c s → s.events.length + l.length ≤ 4096 → toldOf (l.foldl f s) p := by
  have keeps (s : State) (q : Nat) : toldOf s p → toldOf (f s q) p :=
    toldOf_of_subset fun e he => by
      obtain ⟨l, hl, -⟩ := hev s q
      rw [hl]
      exact List.mem_append_left _ he
  induction l with
  | nil => exact nofun
  | cons q l ih =>
    intro hp s hs hlen
    rw [List.length_cons] at hlen
    rw [List.foldl_cons]
    by_cases hq : p = q
    · subst hq
      exact List.foldlRecOn (motive := fun t => toldOf t p) l f (hit s hs (by omega)) fun t ht a _ => keeps t a ht
    · refine ih ((List.mem_cons.mp hp).resolve_left hq) (hc s q hs) ?_
      obtain ⟨m, hm, hm1⟩ := hev s q
      rw [hm, List.length_append]
      omega

theorem upto_length (n : Nat) : (upto n).length = n := List.length_range

theorem mem_upto {n i : Nat} : i ∈ upto n ↔ i < n := List.mem_range

/-- The package told of an error changes nothing but the events, the count of those lost, and the counter of free values. -/
theorem State.reportFault_form (s : State) (p : Nat) : ∃ ps es hs k, s.reportFault p =
    { s with parts := ps, events := es, heldEvents := hs, tick := k } := by
  unfold State.reportFault State.freePayload State.raise
  dsimp only
  split
  · exact ⟨s.parts, _, s.heldEvents, _, rfl⟩
  · rw [if_pos rfl]
    exact ⟨_, s.events, s.heldEvents, _, rfl⟩

/-! ## Ports and stacks that fail (R341, R346) -/

/-- One step of the telling of READY partitions. -/
def State.tellReady (s : State) (p : Nat) : State := if (s.part p).pstat = 2 then s.reportFault p else s

theorem State.tellReady_raised (s : State) (p : Nat) : s.Raised (s.tellReady p) := by
  unfold State.tellReady
  split
  · exact State.reportFault_raised s p
  · exact ⟨rfl, rfl, rfl, ⟨[], (List.append_nil _).symm, Nat.zero_le 1⟩, fun _ => rfl⟩

theorem State.tellAll_told {s : State} {p : Nat} (hp : p < 16) (h : (s.part p).pstat = 2) (hl : s.events.length + 16 ≤ 4096) :
    toldOf ((upto 16).foldl State.tellReady s) p := by
  refine foldl_tells (c := fun t => (t.part p).pstat = 2) (fun t q => (State.tellReady_raised t q).events) (fun t q ht => ?_) (fun t ht hlt => ?_)
    (mem_upto.mpr hp) h (by rw [upto_length]; exact hl)
  · rw [(State.tellReady_raised t q).parts]; exact ht
  · rw [State.tellReady, if_pos ht]
    exact State.reportFault_tells hlt p

theorem State.tellAll_keeps (s : State) (l : List Nat) : (l.foldl State.tellReady s).cores = s.cores ∧
    (l.foldl State.tellReady s).counts = s.counts ∧ (l.foldl State.tellReady s).portFenced = s.portFenced ∧
    (l.foldl State.tellReady s).d2dFenced = s.d2dFenced := by
  refine List.foldlRecOn (motive := fun t : State => t.cores = s.cores ∧ t.counts = s.counts ∧ t.portFenced = s.portFenced ∧
    t.d2dFenced = s.d2dFenced) l _ ⟨rfl, rfl, rfl, rfl⟩ fun t ht p _ => ?_
  unfold State.tellReady
  split
  · obtain ⟨ps, es, hs, k, h⟩ := State.reportFault_form t p
    rw [h]
    exact ht
  · exact ht

/-- One step of a stack's failure. -/
def State.stackStep (h : Nat) (s : State) (p : Nat) : State :=
  if (upto 16).any fun j => (s.part p).phbm.getLsbD (16 * h + j) then (s.fencePart p).reportFault p else s

/-- What a step of a stack's failure changes of a partition and of a context. -/
theorem State.stackStep_part (h : Nat) (s : State) (p q : Nat) : ((s.stackStep h p).part q).phbm = (s.part q).phbm ∧
    ((s.part q).pstat = 3 → ((s.stackStep h p).part q).pstat = 3) := by
  unfold State.stackStep
  split
  · rw [(State.reportFault_raised _ p).parts, State.fencePart_part]
    split
    · next hq => rw [hq.1]; exact ⟨rfl, fun _ => rfl⟩
    · exact ⟨rfl, id⟩
  · exact ⟨rfl, id⟩

theorem State.stackStep_events (h : Nat) (s : State) (p : Nat) : ∃ l, (s.stackStep h p).events = s.events ++ l ∧ l.length ≤ 1 := by
  unfold State.stackStep
  split
  · obtain ⟨l, hl, h1⟩ := (State.reportFault_raised (s.fencePart p) p).events
    exact ⟨l, by rw [hl, State.fencePart_events], h1⟩
  · exact ⟨[], (List.append_nil _).symm, Nat.zero_le 1⟩

theorem State.stackStep_fell (h : Nat) (s : State) (p d : Nat) : (s.ctx d).Fell ((s.stackStep h p).ctx d) := by
  unfold State.stackStep
  split
  · have hc : ((s.fencePart p).reportFault p).ctx d = (s.fencePart p).ctx d := by
      rw [State.ctx, (State.reportFault_raised _ p).contexts]; rfl
    rw [hc]
    exact State.fencePart_fell s p d
  · exact .refl _

theorem State.fencePart_hbm (s : State) (p : Nat) : (s.fencePart p).hbmUp = s.hbmUp ∧ (s.fencePart p).hbmFenced = s.hbmFenced := by
  unfold State.fencePart
  refine List.foldlRecOn (motive := fun t : State => t.hbmUp = s.hbmUp ∧ t.hbmFenced = s.hbmFenced) _ _ ?_ fun t ht c _ => ?_
  · exact ⟨rfl, rfl⟩
  split
  · exact ht
  · exact ht

theorem State.reportFault_hbm (s : State) (p : Nat) : (s.reportFault p).hbmUp = s.hbmUp ∧ (s.reportFault p).hbmFenced = s.hbmFenced := by
  obtain ⟨ps, es, hs, k, hr⟩ := State.reportFault_form s p
  rw [hr]
  exact ⟨rfl, rfl⟩

theorem State.stackStep_hbm (h : Nat) (s : State) (p : Nat) : (s.stackStep h p).hbmUp = s.hbmUp ∧ (s.stackStep h p).hbmFenced = s.hbmFenced := by
  obtain ⟨h1, h2⟩ := State.reportFault_hbm (s.fencePart p) p
  obtain ⟨h3, h4⟩ := State.fencePart_hbm s p
  unfold State.stackStep
  split
  · exact ⟨h1.trans h3, h2.trans h4⟩
  · exact ⟨rfl, rfl⟩

theorem State.stackSteps_hbm (h : Nat) (s : State) (l : List Nat) :
    (l.foldl (State.stackStep h) s).hbmUp = s.hbmUp ∧ (l.foldl (State.stackStep h) s).hbmFenced = s.hbmFenced :=
  foldl_rel (R := fun s t : State => t.hbmUp = s.hbmUp ∧ t.hbmFenced = s.hbmFenced) (fun _ => ⟨rfl, rfl⟩)
    (fun h1 h2 => ⟨h2.1.trans h1.1, h2.2.trans h1.2⟩) (State.stackStep_hbm h) l s

/-- A partition that owns a pair of the stack is fenced and told, and its contexts end. -/
theorem State.stackSteps_fence {h : Nat} {s : State} {p : Nat} (hp : p < 16)
    (hown : ((upto 16).any fun j => (s.part p).phbm.getLsbD (16 * h + j)) = true) :
    (((upto 16).foldl (State.stackStep h) s).part p).pstat = 3 ∧
      (s.events.length + 16 ≤ 4096 → toldOf ((upto 16).foldl (State.stackStep h) s) p) ∧
      ∀ c < 1024, (s.ctx c).part = p → (s.ctx c).state ≠ .free → (((upto 16).foldl (State.stackStep h) s).ctx c).state = .terminating := by
  have hkeep (t : State) (q : Nat) (ht : ((upto 16).any fun j => (t.part p).phbm.getLsbD (16 * h + j)) = true) :
      ((upto 16).any fun j => ((t.stackStep h q).part p).phbm.getLsbD (16 * h + j)) = true := by
    rw [(State.stackStep_part h t q p).1]; exact ht
  have hhit (t : State) (ht : ((upto 16).any fun j => (t.part p).phbm.getLsbD (16 * h + j)) = true) :
      t.stackStep h p = (t.fencePart p).reportFault p := if_pos ht
  refine ⟨?_, fun hl => ?_, fun c hc hcp hcf => ?_⟩
  · refine foldl_reaches (C := fun t : State => ((upto 16).any fun j => (t.part p).phbm.getLsbD (16 * h + j)) = true)
      (R := fun t : State => (t.part p).pstat = 3) hkeep (fun t q => (State.stackStep_part h t q p).2) (fun t ht => ?_) (mem_upto.mpr hp) hown
    rw [hhit t ht, (State.reportFault_raised _ p).parts, State.fencePart_part, if_pos ⟨rfl, hp⟩]
  · refine foldl_tells (State.stackStep_events h) hkeep (fun t ht hlt => ?_) (mem_upto.mpr hp) hown (by rw [upto_length]; exact hl)
    rw [hhit t ht]
    exact State.reportFault_tells (by rwa [State.fencePart_events]) p
  · refine foldl_reaches (C := fun t : State => (((upto 16).any fun j => (t.part p).phbm.getLsbD (16 * h + j)) = true) ∧ (t.ctx c).part = p ∧
      (t.ctx c).state ≠ .free) (R := fun t : State => (t.ctx c).state = .terminating)
      (fun t q ⟨h1, h2, h3⟩ => ⟨hkeep t q h1, (State.stackStep_fell h t q c).part.trans h2, (State.stackStep_fell h t q c).placed h3⟩)
      (fun t q => (State.stackStep_fell h t q c).terminating) (fun t ⟨h1, h2, h3⟩ => ?_) (mem_upto.mpr hp) ⟨hown, hcp, hcf⟩
    have hcx : ((t.fencePart p).reportFault p).ctx c = (t.fencePart p).ctx c := by
      rw [State.ctx, (State.reportFault_raised _ p).contexts]; rfl
    rw [hhit t h1, hcx]
    exact State.fencePart_ends hc h2 h3

end Sys2Proof.Machine
end
section
/-! SUPPORT. Clusters mapped, tested and fenced, and what Ramner brings up (R89, R121, R133, R284, R285, R311, R316, R347 to R349). -/

namespace Sys2Proof.Machine

open Statements

/-! ## Clusters and their map (R348) -/

/-- The contexts with cores in a cluster ended. -/
def State.endOwners (s : State) (l : List (Nat × Owner)) : State :=
  l.foldl (fun s o => if o.2.core != 0 then s.contextFault o.1 else s) s

theorem State.endOwners_form (l : List (Nat × Owner)) (s : State) : ∃ cs, s.endOwners l = { s with contexts := cs } := by
  refine List.foldlRecOn (motive := fun t : State => ∃ cs, t = { s with contexts := cs }) l _ ⟨s.contexts, rfl⟩ fun t ⟨cs, ht⟩ o _ => ?_
  rw [ht]
  split
  · exact ⟨_, rfl⟩
  · exact ⟨cs, rfl⟩

theorem State.endOwners_ends {l : List (Nat × Owner)} {o : Nat × Owner} (ho : o ∈ l) (hc : o.2.core ≠ 0) {s : State}
    (hf : (s.ctx o.1).state ≠ .free) : ((s.endOwners l).ctx o.1).state = .terminating := by
  have hstep (s : State) (x : Nat × Owner) : (s.ctx o.1).Fell ((if x.2.core != 0 then s.contextFault x.1 else s).ctx o.1) := by
    split
    · exact State.contextFault_fell s _ _ none
    · exact .refl _
  refine foldl_reaches (C := fun t : State => (t.ctx o.1).state ≠ .free) (R := fun t : State => (t.ctx o.1).state = .terminating)
    (fun t x => (hstep t x).placed) (fun t x => (hstep t x).terminating) (fun t ht => ?_) ho hf
  rw [if_pos (bne_iff_ne.mpr hc)]
  exact State.contextFault_state t o.1 none (State.ctx_lt ht) ht

/-- A cluster's entry taken from the map. -/
def State.entryGone (s : State) (cl : Nat) : State := { s with coreMap := s.coreMap.setIfInBounds cl 0, cluUp := setBit s.cluUp cl false }

theorem State.unmap_kept {s : State} {cl : Nat} (h : s.mapped cl = none ∨ s.physFor cl ≠ none) : s.unmap cl = s := by
  refine if_pos ?_
  rcases h with h | h
  · rw [h]; rfl
  · rw [Option.ne_none_iff_isSome.mp h, Bool.or_true]

theorem State.unmap_gone {s : State} {cl : Nat} (h : s.mapped cl ≠ none) (hp : s.physFor cl = none) :
    s.unmap cl = (s.entryGone cl).endOwners (s.cluster cl).owners := by
  refine if_neg ?_
  rw [hp, Option.isNone_eq_false_iff.mpr (Option.ne_none_iff_isSome.mp h)]
  exact Bool.false_ne_true

/-- What a cluster that loses its entry, or keeps it, leaves. -/
theorem State.unmap_form (s : State) (cl : Nat) : s.unmap cl = s ∨ ∃ cs, s.unmap cl = { s.entryGone cl with contexts := cs } := by
  by_cases h : s.mapped cl ≠ none ∧ s.physFor cl = none
  · refine .inr ?_
    rw [State.unmap_gone h.1 h.2]
    exact State.endOwners_form _ _
  · rw [not_and_or, not_not] at h
    exact .inl (State.unmap_kept h)

theorem State.mapped_iff (s : State) (cl : Nat) :
    s.mapped cl = if (s.coreMap.getD cl 0).getLsbD 7 = true then some ((s.coreMap.getD cl 0).setWidth 5).toNat else none := rfl

theorem State.mapped_some {s : State} {cl : Nat} (h : (s.coreMap.getD cl 0).getLsbD 7 = true) :
    s.mapped cl = some ((s.coreMap.getD cl 0).setWidth 5).toNat := if_pos h

theorem State.mapped_none {s : State} {cl : Nat} (h : (s.coreMap.getD cl 0).getLsbD 7 = false) : s.mapped cl = none :=
  if_neg (by rw [h]; exact Bool.false_ne_true)

theorem State.mappedWhole_iff (s : State) (cl : Nat) : (s.mappedWhole cl).isSome = true ↔
    (s.coreMap.getD cl 0).getLsbD 7 = true ∧ ((s.coreMap.getD cl 0).setWidth 5).toNat ∉ (s.die (cl / 16)).broken := by
  rw [State.mappedWhole]
  by_cases h : (s.coreMap.getD cl 0).getLsbD 7 = true
  · rw [State.mapped_some h, and_iff_right h, Option.filter_some]
    split <;> simp_all
  · rw [State.mapped_none (Bool.eq_false_iff.mpr h)]
    exact ⟨nofun, fun ⟨h1, _⟩ => absurd h1 h⟩

/-- A physical cluster for a logical one is whole, and one of the die's. -/
theorem State.physFor_whole {s : State} {cl p : Nat} (h : s.physFor cl = some p) : p < 32 ∧ (s.die (cl / 16)).broken.contains p = false := by
  unfold State.physFor at h
  split at h
  · next q hq =>
    cases h
    obtain ⟨hm, hb⟩ := Option.filter_eq_some_iff.mp hq
    rw [State.mapped_iff] at hm
    split at hm
    · cases hm
      exact ⟨(BitVec.setWidth 5 _).isLt, by simpa using hb⟩
    · cases hm
  · have hlt := mem_upto.mp (List.mem_of_find?_eq_some h)
    have hb := List.find?_some h
    simp only [Bool.and_eq_true, Bool.not_eq_true'] at hb
    exact ⟨by omega, hb.2⟩

theorem mapEntry_fields {p : Nat} (h : p < 32) : (BitVec.ofNat 8 (128 + p)).getLsbD 7 = true ∧ ((BitVec.ofNat 8 (128 + p)).setWidth 5).toNat = p := by
  constructor
  · rw [BitVec.getLsbD_ofNat, Nat.testBit_eq_decide_div_mod_eq, decide_eq_true (by decide : 7 < 8), Bool.true_and, decide_eq_true_iff]
    omega
  · rw [BitVec.toNat_setWidth, BitVec.toNat_ofNat]
    omega

theorem State.physFor_congr {s t : State} (hm : t.coreMap = s.coreMap) (hd : t.dies = s.dies) (cl : Nat) : t.physFor cl = s.physFor cl := by
  have hw (c : Nat) : t.mappedWhole c = s.mappedWhole c := by
    rw [State.mappedWhole, State.mapped, State.die, hm, hd]; rfl
  rw [State.physFor, hw, funext fun i => hw (16 * (cl / 16) + i), State.die, hd]
  rfl

/-! ## Scan tests (R349) -/

theorem State.scanTest_begins {s : State} {cl : Nat} (hcl : cl < 128) (ht : s.cluTest.getLsbD cl = false) (ho : (s.cluster cl).owners = [])
    (ok : Bool) : s.scanTest cl ok = { s with cluUp := setBit s.cluUp cl false, cluTest := setBit s.cluTest cl true } := by
  rw [State.scanTest, if_neg (Nat.not_le.mpr hcl), ht, ho]
  rfl

theorem State.scanTest_owned {s : State} {cl : Nat} (hcl : cl < 128) (ht : s.cluTest.getLsbD cl = false) (ho : (s.cluster cl).owners ≠ [])
    (ok : Bool) : s.scanTest cl ok = s := by
  rw [State.scanTest, if_neg (Nat.not_le.mpr hcl), ht, if_neg Bool.false_ne_true]
  exact if_pos (by simpa using ho)

/-- The state once a scan test is over. -/
def State.testOver (s : State) (cl : Nat) : State := { s with cluTest := setBit s.cluTest cl false }

theorem State.scanTest_passes {s : State} {cl : Nat} (hcl : cl < 128) (ht : s.cluTest.getLsbD cl = true) :
    s.scanTest cl true = if (s.mappedWhole cl).isSome then { s.testOver cl with cluUp := setBit s.cluUp cl true } else s.testOver cl := by
  rw [State.scanTest, if_neg (Nat.not_le.mpr hcl), ht, if_pos rfl]
  rfl

theorem State.scanTest_fails {s : State} {cl : Nat} (hcl : cl < 128) (ht : s.cluTest.getLsbD cl = true) :
    s.scanTest cl false = (s.testOver cl).fenceCluster cl := by
  rw [State.scanTest, if_neg (Nat.not_le.mpr hcl), ht, if_pos rfl]
  rfl

/-- A cluster not READY, and the failure told to its partition. -/
def State.clusterDown (s : State) (cl : Nat) : State := { s with cluUp := setBit s.cluUp cl false }.reportFor (s.ownerOfCluster cl)

theorem State.clusterDown_form (s : State) (cl : Nat) : ∃ ps es hs k, s.clusterDown cl =
    { s with cluUp := setBit s.cluUp cl false, parts := ps, events := es, heldEvents := hs, tick := k } := by
  unfold State.clusterDown State.reportFor
  split
  · exact State.reportFault_form _ _
  · exact ⟨s.parts, s.events, s.heldEvents, s.tick, rfl⟩

theorem State.clusterDown_tells {s : State} {cl p : Nat} (hp : p < 16) (h : (s.part p).pclu.getLsbD cl = true)
    (hu : ∀ q < 16, q ≠ p → (s.part q).pclu.getLsbD cl = false) (hl : s.events.length < 4096) : toldOf (s.clusterDown cl) p := by
  have ho : s.ownerOfCluster cl = some p := by
    cases hf : s.ownerOfCluster cl with
    | none =>
      have := List.find?_eq_none.mp hf p (mem_upto.mpr hp)
      exact absurd h this
    | some q =>
      have hq : q < 16 := mem_upto.mp (List.mem_of_find?_eq_some hf)
      have hb : (s.part q).pclu.getLsbD cl = true := List.find?_some (p := fun p => (s.part p).pclu.getLsbD cl) hf
      by_contra hne
      rw [hu q hq fun e => hne (by rw [e])] at hb
      exact absurd hb Bool.false_ne_true
  rw [State.clusterDown, ho]
  exact State.reportFault_tells (s := { s with cluUp := setBit s.cluUp cl false }) hl p

theorem State.fenceCluster_eq (s : State) (cl : Nat) : s.fenceCluster cl =
    match (s.mapped cl).or (s.physFor cl) with
    | some p => ((s.clusterDown cl).updDie (cl / 16) fun x => { x with broken := x.broken ++ [p] }).unmap cl
    | none => s.clusterDown cl := by
  obtain ⟨ps, es, hs, k, hd⟩ := State.clusterDown_form s cl
  have hm : (s.clusterDown cl).mapped cl = s.mapped cl := by rw [hd]; rfl
  have hp : (s.clusterDown cl).physFor cl = s.physFor cl := State.physFor_congr (by rw [hd]) (by rw [hd]) cl
  rw [← hm, ← hp]
  rfl

/-- A cluster's state with one more of the die's physical clusters broken. -/
def State.broke (s : State) (cl p : Nat) : State := (s.clusterDown cl).updDie (cl / 16) fun x => { x with broken := x.broken ++ [p] }

theorem State.broke_form (s : State) (cl p : Nat) : ∃ ps es hs k ds, s.broke cl p =
    { s with cluUp := setBit s.cluUp cl false, parts := ps, events := es, heldEvents := hs, tick := k, dies := ds } := by
  obtain ⟨ps, es, hs, k, hd⟩ := State.clusterDown_form s cl
  rw [State.broke, hd]
  exact ⟨ps, es, hs, k, _, rfl⟩

theorem State.broke_broken (s : State) {cl : Nat} (hcl : cl < 128) (p : Nat) : p ∈ ((s.broke cl p).die (cl / 16)).broken := by
  rw [State.broke, State.die_updDie, if_pos ⟨rfl, by omega⟩]
  exact List.mem_append_right _ (List.mem_singleton.mpr rfl)

/-- What stands of a cluster that failed: the state as it is, or with its entry gone. -/
theorem State.fenceCluster_cases (s : State) (cl : Nat) :
    ((s.mapped cl).or (s.physFor cl) = none ∧ s.fenceCluster cl = s.clusterDown cl) ∨
      ∃ p, (s.mapped cl).or (s.physFor cl) = some p ∧ s.fenceCluster cl = (s.broke cl p).unmap cl := by
  rw [State.fenceCluster_eq]
  cases h : (s.mapped cl).or (s.physFor cl) with
  | none => exact .inl ⟨rfl, rfl⟩
  | some p => exact .inr ⟨p, rfl, rfl⟩

end Sys2Proof.Machine

namespace Sys2Proof.Proofs

open Machine Statements

theorem scan_begins_and_passes {s : State} {cl : Nat} (hcl : cl < 128) :
    let entry := s.coreMap.getD cl 0
    let phys := (entry.setWidth 5).toNat
    let whole : Prop := entry.getLsbD 7 = true ∧ phys ∉ (s.die (cl / 16)).broken
    (s.cluTest.getLsbD cl = false →
      ((s.cluster cl).owners ≠ [] → ∀ ok, exec (.evInFieldScanTest cl ok) s = .next s) ∧
      ((s.cluster cl).owners = [] → ∀ ok, ∃ t, exec (.evInFieldScanTest cl ok) s = .next t ∧ t.cluUp.getLsbD cl = false ∧
        t.cluTest.getLsbD cl = true ∧ t.coreMap = s.coreMap ∧ t.dies = s.dies)) ∧
    (s.cluTest.getLsbD cl = true →
      ∃ t, exec (.evInFieldScanTest cl true) s = .next t ∧ t.cluTest.getLsbD cl = false ∧ t.coreMap = s.coreMap ∧ t.dies = s.dies ∧
        (whole → t.cluUp.getLsbD cl = true) ∧ (¬whole → t.cluUp = s.cluUp)) := by
  dsimp only
  refine ⟨fun ht => ⟨fun ho ok => congrArg Host.Outcome.next (State.scanTest_owned hcl ht ho ok),
    fun ho ok => ⟨_, congrArg Host.Outcome.next (State.scanTest_begins hcl ht ho ok), ?_, ?_, rfl, rfl⟩⟩,
    fun ht => ⟨_, congrArg Host.Outcome.next (State.scanTest_passes hcl ht), ?_⟩⟩
  · rw [getLsbD_setBit _ hcl, if_pos rfl]
  · rw [getLsbD_setBit _ hcl, if_pos rfl]
  · have hover : (setBit s.cluTest cl false).getLsbD cl = false := by rw [getLsbD_setBit _ hcl, if_pos rfl]
    rw [← State.mappedWhole_iff]
    by_cases hw : (s.mappedWhole cl).isSome = true
    · rw [if_pos hw]
      exact ⟨hover, rfl, rfl, fun _ => by rw [getLsbD_setBit _ hcl, if_pos rfl], fun h => absurd hw h⟩
    · rw [if_neg hw]
      exact ⟨hover, rfl, rfl, fun h => absurd h hw, fun _ => rfl⟩

/-- What a failed scan test leaves whichever way its cluster's entry goes. -/
theorem fenceCluster_leaves (s : State) {cl : Nat} (hcl : cl < 128) : (s.fenceCluster cl).cluTest = s.cluTest ∧
    (s.fenceCluster cl).cluUp.getLsbD cl = false ∧ (s.fenceCluster cl).events = (s.clusterDown cl).events ∧
    ∀ p, (s.mapped cl).or (s.physFor cl) = some p → p ∈ ((s.fenceCluster cl).die (cl / 16)).broken := by
  have hdown : (setBit s.cluUp cl false).getLsbD cl = false := by rw [getLsbD_setBit _ hcl, if_pos rfl]
  rcases State.fenceCluster_cases s cl with ⟨hn, h⟩ | ⟨p, hp, h⟩
  · obtain ⟨ps, es, hs, k, hd⟩ := State.clusterDown_form s cl
    rw [h]
    refine ⟨by rw [hd], by rw [hd]; exact hdown, rfl, fun p hp => ?_⟩
    rw [hn] at hp
    cases hp
  · have hbroke : ∀ q, (s.mapped cl).or (s.physFor cl) = some q → q ∈ ((s.broke cl p).die (cl / 16)).broken := by
      intro q hq
      rw [hp] at hq
      cases hq
      exact State.broke_broken s hcl p
    have hev : (s.broke cl p).events = (s.clusterDown cl).events := rfl
    obtain ⟨ps, es, hs, k, ds, hd⟩ := State.broke_form s cl p
    have htest : (s.broke cl p).cluTest = s.cluTest := by rw [hd]
    have hup : (s.broke cl p).cluUp.getLsbD cl = false := by rw [hd]; exact hdown
    rw [h]
    rcases State.unmap_form (s.broke cl p) cl with hu | ⟨cs, hu⟩
    · rw [hu]
      exact ⟨htest, hup, hev, hbroke⟩
    · rw [hu]
      refine ⟨htest, ?_, hev, hbroke⟩
      change (setBit (s.broke cl p).cluUp cl false).getLsbD cl = false
      rw [getLsbD_setBit _ hcl, if_pos rfl]

/-- A mapped cluster that failed, and for which the die has no other, loses its entry, and the contexts with cores there end. -/
theorem fenceCluster_unmaps {s : State} {cl : Nat} (hcl : cl < 128) (hm : (s.coreMap.getD cl 0).getLsbD 7 = true)
    (hn : (s.fenceCluster cl).physFor cl = none) : ((s.fenceCluster cl).coreMap.getD cl 0).getLsbD 7 = false ∧
      ∀ o ∈ (s.cluster cl).owners, o.2.core ≠ 0 → (s.ctx o.1).state ≠ .free → ((s.fenceCluster cl).ctx o.1).state = .terminating := by
  have hmap := State.mapped_some hm
  rcases State.fenceCluster_cases s cl with ⟨hx, h⟩ | ⟨p, -, h⟩
  · rw [hmap] at hx
    cases hx
  · obtain ⟨ps, es, hs, k, ds, hd⟩ := State.broke_form s cl p
    have hmb : (s.broke cl p).mapped cl ≠ none := by
      have : (s.broke cl p).mapped cl = s.mapped cl := by rw [hd]; rfl
      rw [this, hmap]
      exact nofun
    have hcx (c : Nat) : (s.broke cl p).ctx c = s.ctx c := by rw [hd]; rfl
    have hcluster : (s.broke cl p).cluster cl = s.cluster cl := by rw [hd]; rfl
    have hphys : (s.broke cl p).physFor cl = none := by
      by_contra hp
      rw [h, State.unmap_kept (.inr hp)] at hn
      exact hp hn
    rw [h, State.unmap_gone hmb hphys, hcluster]
    refine ⟨?_, fun o ho hc hf => State.endOwners_ends ho hc (s := (s.broke cl p).entryGone cl) ?_⟩
    · obtain ⟨cs, he⟩ := State.endOwners_form (s.cluster cl).owners ((s.broke cl p).entryGone cl)
      rw [he]
      change (((s.broke cl p).coreMap.setIfInBounds cl 0).getD cl 0).getLsbD 7 = false
      rw [getD_setIfInBounds, if_pos ⟨rfl, hcl⟩]
      rfl
    · have : ((s.broke cl p).entryGone cl).ctx o.1 = (s.broke cl p).ctx o.1 := rfl
      rw [this, hcx]
      exact hf

theorem scan_fails {s : State} {cl : Nat} (hcl : cl < 128) (ht : s.cluTest.getLsbD cl = true) :
    let entry := s.coreMap.getD cl 0
    let phys := (entry.setWidth 5).toNat
    ∃ t, exec (.evInFieldScanTest cl false) s = .next t ∧ t.cluTest.getLsbD cl = false ∧ t.cluUp.getLsbD cl = false ∧
      (entry.getLsbD 7 = true → phys ∈ (t.die (cl / 16)).broken) ∧
      (entry.getLsbD 7 = false → ∀ p, s.physFor cl = some p → p ∈ (t.die (cl / 16)).broken) ∧
      (entry.getLsbD 7 = true → t.physFor cl = none → (t.coreMap.getD cl 0).getLsbD 7 = false ∧
        ∀ o ∈ (s.cluster cl).owners, o.2.core ≠ 0 → (s.ctx o.1).state ≠ .free → (t.ctx o.1).state = .terminating) ∧
      ∀ p < 16, (s.part p).pclu.getLsbD cl = true → (∀ q < 16, q ≠ p → (s.part q).pclu.getLsbD cl = false) →
        s.events.length < 4096 → toldOf t p := by
  dsimp only
  obtain ⟨htest, hup, hev, hbroken⟩ := fenceCluster_leaves (s.testOver cl) hcl
  refine ⟨_, congrArg Host.Outcome.next (State.scanTest_fails hcl ht), ?_, hup, fun hm => hbroken _ ?_, fun hm p hp => hbroken p ?_,
    fun hm hn => fenceCluster_unmaps (s := s.testOver cl) hcl hm hn, fun p hp hb hu hl => ?_⟩
  · rw [htest]
    change (setBit s.cluTest cl false).getLsbD cl = false
    rw [getLsbD_setBit _ hcl, if_pos rfl]
  · have : (s.testOver cl).mapped cl = some _ := State.mapped_some hm
    rw [this]
    rfl
  · have h1 : (s.testOver cl).mapped cl = none := State.mapped_none hm
    have h2 : (s.testOver cl).physFor cl = some p := (State.physFor_congr rfl rfl cl).trans hp
    rw [h1, h2]
    rfl
  · refine toldOf_of_subset (fun e he => by rw [hev]; exact he) (State.clusterDown_tells (s := s.testOver cl) hp hb hu hl)

theorem port_fails {s : State} {d2d : Bool} {n : Nat} :
    ∃ t, exec (.evPortRetrainFail d2d n) s = .next t ∧ t.cores = s.cores ∧ counted s.counts t.counts (.port d2d n) 0 1 ∧
      t.portFenced = (if d2d then s.portFenced else setBit s.portFenced n true) ∧
      t.d2dFenced = (if d2d then setBit s.d2dFenced n true else s.d2dFenced) ∧
      (s.events.length + 16 ≤ 4096 → ∀ p < 16, (s.part p).pstat = 2 → toldOf t p) := by
  have hbase : ∃ s1 : State, s.portFail d2d n = (upto 16).foldl State.tellReady (s1.countErr (.port d2d n) true) ∧ s1.cores = s.cores ∧
      s1.counts = s.counts ∧ s1.events = s.events ∧ s1.parts = s.parts ∧
      s1.portFenced = (if d2d then s.portFenced else setBit s.portFenced n true) ∧
      s1.d2dFenced = (if d2d then setBit s.d2dFenced n true else s.d2dFenced) := by
    cases d2d
    · exact ⟨{ s with portFenced := setBit s.portFenced n true }, rfl, rfl, rfl, rfl, rfl, rfl, rfl⟩
    · exact ⟨{ s with d2dFenced := setBit s.d2dFenced n true }, rfl, rfl, rfl, rfl, rfl, rfl, rfl⟩
  obtain ⟨s1, he, hcores, hcounts, hevents, hparts, hport, hd2d⟩ := hbase
  obtain ⟨h1, h2, h3, h4⟩ := State.tellAll_keeps (s1.countErr (.port d2d n) true) (upto 16)
  refine ⟨_, congrArg Host.Outcome.next he, h1.trans hcores, ?_, h3.trans hport, h4.trans hd2d, fun hl p hp hr => State.tellAll_told hp ?_ ?_⟩
  · rw [h2, ← hcounts]
    exact State.countErr_counted s1 (.port d2d n) true
  · have : (s1.countErr (.port d2d n) true).part p = s.part p := by rw [State.part, State.part, ← hparts]; rfl
    rw [this]
    exact hr
  · have : (s1.countErr (.port d2d n) true).events = s.events := hevents
    rw [this]
    exact hl

theorem stack_fails {s : State} {h : Nat} (hh : h < 16) :
    ∃ t, exec (.evHbmStackFail h) s = .next t ∧ t.hbmUp.getLsbD h = false ∧ t.hbmFenced.getLsbD h = true ∧
      ∀ p < 16, (∃ j < 16, (s.part p).phbm.getLsbD (16 * h + j) = true) → (t.part p).pstat = 3 ∧
        (s.events.length + 16 ≤ 4096 → toldOf t p) ∧
        ∀ c < 1024, (s.ctx c).part = p → (s.ctx c).state ≠ .free → (t.ctx c).state = .terminating := by
  have he : s.stackFail h = (upto 16).foldl (State.stackStep h)
    { s with hbmUp := setBit s.hbmUp h false, hbmFenced := setBit s.hbmFenced h true } := rfl
  obtain ⟨h1, h2⟩ := State.stackSteps_hbm h { s with hbmUp := setBit s.hbmUp h false, hbmFenced := setBit s.hbmFenced h true } (upto 16)
  refine ⟨_, congrArg Host.Outcome.next he, ?_, ?_, fun p hp ⟨j, hj, hb⟩ => State.stackSteps_fence
    (s := { s with hbmUp := setBit s.hbmUp h false, hbmFenced := setBit s.hbmFenced h true }) hp (List.any_eq_true.mpr ⟨j, mem_upto.mpr hj, hb⟩)⟩
  · rw [h1, getLsbD_setBit _ hh, if_pos rfl]
  · rw [h2, getLsbD_setBit _ hh, if_pos rfl]

theorem boot_offered {s : State} (src : BitVec 2) (hash : BitVec 256) (hs : src = 1 ∨ src = 2) (hb : s.bootstat.getLsbD 31 = false) :
    (∃ t, exec (.evBootImageOffer src 0 hash) s = .next t ∧ t.bootstat.getLsbD 31 = true ∧ t.bootstat.extractLsb' 16 2 = src ∧
      t.measurements = [hash]) ∧
    ∀ code : BitVec 8, 1 ≤ code.toNat → code.toNat ≤ 5 →
      ∃ t, exec (.evBootImageOffer src code hash) s = .next t ∧ t.bootstat.getLsbD 31 = false ∧
        t.bootstat.extractLsb' 16 2 = src ∧ t.bootstat.extractLsb' 0 8 = code ∧ t.measurements = s.measurements ∧
        (t.bootstat.extractLsb' 8 8).toNat = min 255 ((s.bootstat.extractLsb' 8 8).toNat + 1) := by
  refine ⟨?_, fun code h1 h5 => ?_⟩
  · obtain ⟨hrun, hsrc⟩ := bootAfter_accept s.bootstat src
    exact ⟨_, congrArg Host.Outcome.next ((State.bootOffer_taken hs hb (by decide) hash).trans (if_pos rfl)), hrun, hsrc, rfl⟩
  · have hne : ¬code = 0 := by rintro rfl; exact absurd h1 (by decide)
    obtain ⟨hrun, hsrc, hcode, htries⟩ := bootAfter_refuse s.bootstat src h1
    exact ⟨_, congrArg Host.Outcome.next ((State.bootOffer_taken hs hb h5 hash).trans (if_neg hne)), hrun, hsrc, hcode, rfl, htries⟩

theorem packageEvents_hold : packageEvents := by
  intro s
  refine ⟨rfl, fun src hash => boot_offered src hash, fun src code hash hb => congrArg Host.Outcome.next ?_,
    fun port => ⟨_, rfl, State.countErr_counted s _ false⟩, fun port hp => ?_, fun port hp => ?_, fun h hh => stack_fails hh, ⟨_, rfl, rfl⟩,
    fun port hp => ⟨fun h => congrArg Host.Outcome.next ?_, fun hf hb => ⟨_, congrArg Host.Outcome.next (if_neg ?_), ?_⟩⟩,
    fun cl hcl => ⟨(scan_begins_and_passes hcl).1, fun ht => ⟨(scan_begins_and_passes hcl).2 ht, scan_fails hcl ht⟩⟩,
    ⟨_, rfl, rfl, rfl, rfl, rfl, rfl⟩⟩
  · rw [State.bootOffer, hb]
    rfl
  · obtain ⟨t, he, hcores, hcount, hport, -, htold⟩ := port_fails (s := s) (d2d := false) (n := port)
    refine ⟨t, he, ?_, hcores, hcount, htold⟩
    rw [hport, if_neg Bool.false_ne_true, getLsbD_setBit _ hp, if_pos rfl]
  · obtain ⟨t, he, hcores, hcount, -, hd2d, htold⟩ := port_fails (s := s) (d2d := true) (n := port)
    refine ⟨t, he, ?_, hcores, hcount, htold⟩
    rw [hd2d, if_pos rfl, getLsbD_setBit _ hp, if_pos rfl]
  · refine if_pos ?_
    rcases h with h | h
    · rw [h, Bool.or_true]
    · rw [h]; rfl
  · rw [hf, hb]
    exact Bool.false_ne_true
  · rw [getLsbD_setBit _ hp, if_pos rfl]

end Sys2Proof.Proofs
end
section
/-! SUPPORT. What Ramner brings up and sets once an image runs (R89, R121, R132, R133, R284, R285, R296, R311, R316, R347, R348, R365). -/

namespace Sys2Proof.Machine

open Statements

theorem State.bringUp_waits {s : State} (h : s.bootstat.getLsbD 31 = false) (b : BringUp) : s.bringUp b = s :=
  if_pos (by rw [State.booted, h]; rfl)

/-! ## A cluster up (R347, R348) -/

/-- A state in which a cluster is mapped by an entry, and READY. -/
def State.clusterMapped (s : State) (n : Nat) (entry : BitVec 8) : State :=
  { s with coreMap := s.coreMap.setIfInBounds n entry, cluUp := setBit s.cluUp n true }

theorem State.clusterUp_spare {s : State} {n p : Nat} (h : s.physFor n = some p) : s.clusterUp n =
    if s.cluTest.getLsbD n || ((s.mapped n).isSome && s.coreMap.getD n 0 != BitVec.ofNat 8 (128 + p) && !s.cluQuiet n) then s
    else (upto 16).foldl (fun s i => s.unmap (16 * (n / 16) + i)) (s.clusterMapped n (BitVec.ofNat 8 (128 + p))) := by
  rw [State.clusterUp, h]
  rfl

theorem State.clusterUp_none {s : State} {n : Nat} (h : s.physFor n = none) : s.clusterUp n = s.unmap n := by
  rw [State.clusterUp, h]

/-- The physical clusters of a mapped state are those of the entry, whichever other entry of the die goes. -/
theorem State.unmapOthers_keep {s : State} {n p : Nat} (hn : n < 128) (hp : s.physFor n = some p) :
    let t := (upto 16).foldl (fun s i => s.unmap (16 * (n / 16) + i)) (s.clusterMapped n (BitVec.ofNat 8 (128 + p)))
    t.coreMap.getD n 0 = BitVec.ofNat 8 (128 + p) ∧ t.cluUp.getLsbD n = true ∧ t.dies = s.dies := by
  obtain ⟨hlt, hwhole⟩ := State.physFor_whole hp
  obtain ⟨h7, h5⟩ := mapEntry_fields hlt
  refine List.foldlRecOn (motive := fun t : State => t.coreMap.getD n 0 = BitVec.ofNat 8 (128 + p) ∧ t.cluUp.getLsbD n = true ∧ t.dies = s.dies)
    (upto 16) _ ?_ fun t ⟨hm, hu, hd⟩ i hi16 => ?_
  · exact ⟨(getD_setIfInBounds _ _ _ _ _).trans (if_pos ⟨rfl, hn⟩), (getLsbD_setBit _ hn _ _).trans (if_pos rfl), rfl⟩
  · have hi16 : i < 16 := mem_upto.mp hi16
    by_cases hi : 16 * (n / 16) + i = n
    · have hk : (t.mappedWhole n).isSome = true := by
        rw [State.mappedWhole_iff, hm, State.die, hd]
        exact ⟨h7, by rw [h5]; simpa [State.die] using hwhole⟩
      have hphys : t.physFor n ≠ none := by
        obtain ⟨q, hq⟩ := Option.isSome_iff_exists.mp hk
        rw [State.physFor, hq]
        exact nofun
      rw [hi, State.unmap_kept (.inr hphys)]
      exact ⟨hm, hu, hd⟩
    · rcases State.unmap_form t (16 * (n / 16) + i) with h | ⟨cs, h⟩
      · rw [h]; exact ⟨hm, hu, hd⟩
      · rw [h]
        exact ⟨(getD_setIfInBounds _ _ _ _ _).trans ((if_neg fun e => hi e.1.symm).trans hm),
          (getLsbD_setBit _ (by omega) _ _).trans ((if_neg fun e => hi e.symm).trans hu), hd⟩

/-! ## Slot entries (R284, R285) -/

theorem slotBytesAs_getD (res : Bool) {bs : List Byte} (hl : bs.length = 64) (i : Nat) : (slotBytesAs res bs).getD i 0 =
    if i = 13 then (if res then 1#1 else 0#1) ++ (bs.getD 13 0).extractLsb' 0 7 else bs.getD i 0 := by
  have hbyte (b : Byte) : setBit b 7 res = (if res then 1#1 else 0#1) ++ b.extractLsb' 0 7 := by
    apply BitVec.eq_of_getLsbD_eq
    intro j hj
    rw [getLsbD_setBit _ (by decide), BitVec.getLsbD_append]
    by_cases h7 : j = 7
    · subst h7
      cases res <;> rfl
    · have hj7 : j < 7 := by omega
      rw [if_neg h7, if_pos hj7, BitVec.getLsbD_extractLsb', decide_eq_true hj7, Bool.true_and, Nat.zero_add]
  rw [slotBytesAs, hbyte, List.getD_eq_getElem?_getD, List.getElem?_set]
  by_cases h : i = 13
  · subst h
    rw [if_pos rfl, if_pos (by omega), if_pos rfl]
    rfl
  · rw [if_neg (fun e => h e.symm), if_neg h, List.getD_eq_getElem?_getD]

section

variable {s : State} {part slot : Nat} {res : Bool} {bs : List Byte}

theorem State.putSlotEntry_refused (h : (∃ k ∈ s.kernels, k.part = part ∧ k.slot = slot) ∨ 4096 ≤ slot ∨ (s.part part).slotTable = 0 ∨
    bs.length ≠ 64) : s.putSlotEntry part slot res bs = s := by
  refine if_pos ?_
  rcases h with ⟨k, hk, hp, hs⟩ | h | h | h
  · have : s.slotBusy part slot = true := List.any_eq_true.mpr ⟨k, hk, by simp [hp, hs]⟩
    simp [this]
  · simp [h]
  · simp [h]
  · simp [h]

variable (hk : ¬∃ k ∈ s.kernels, k.part = part ∧ k.slot = slot) (hs : slot < 4096) (ht : (s.part part).slotTable ≠ 0) (hl : bs.length = 64)

include hk hs ht hl

theorem State.putSlotEntry_eq : s.putSlotEntry part slot res bs =
    match s.physPut ((s.part part).slotTable + 64 * slot) (slotBytesAs res bs) 1 with
    | .ok s1 => s1.settleLines (· == (s.part part).slotTable / 64 + slot)
    | .error (_, s1) => s1 := by
  refine if_neg ?_
  have hbusy : s.slotBusy part slot = false := by
    refine Bool.eq_false_iff.mpr fun h => hk ?_
    obtain ⟨k, hk, hx⟩ := List.any_eq_true.mp h
    exact ⟨k, hk, by simpa using hx⟩
  simp [hbusy, ht, hl, hs]

variable (ha : ((s.part part).slotTable + 64 * slot) % 64 = 0) (hpa : (s.part part).slotTable + 64 * slot < 2 ^ 51)
  (hf : s.LineFit (((s.part part).slotTable + 64 * slot) / 64))

include ha hpa hf

/-- An entry put in its line: the line holds it, RES as asked for. -/
theorem State.putSlotEntry_stored : homeStored s (s.putSlotEntry part slot res bs) ((s.part part).slotTable + 64 * slot) 64 (fun i =>
      if i = 13 then (if res then 1#1 else 0#1) ++ (bs.getD 13 0).extractLsb' 0 7 else bs.getD i 0) ∧
    (s.putSlotEntry part slot res bs).parts = s.parts := by
  have hlen : (slotBytesAs res bs).length = 64 := by rw [slotBytesAs, List.length_set, hl]
  obtain ⟨t, hw, hkept, hst, -⟩ := State.homeWrite_stored hf none hpa (slotBytesAs res bs) (by rw [ha, hlen])
  have hput : s.physPut ((s.part part).slotTable + 64 * slot) (slotBytesAs res bs) 1 = .ok t := by
    simp only [ha, Nat.zero_add] at hw
    rw [State.physPut, List.take_of_length_le (by rw [hlen]), hw]
    rfl
  rw [State.putSlotEntry_eq hk hs ht hl, hput]
  dsimp only
  obtain ⟨l, hpast⟩ := State.settleLines_past t (· == (s.part part).slotTable / 64 + slot)
  rw [hpast]
  rw [hlen] at hst
  refine ⟨homeStored_congr (homeStored_then hst memSame_fields) fun i _ => slotBytesAs_getD res hl i, ?_⟩
  rw [hkept.eq]

theorem State.putSlotEntry_res : ((s.putSlotEntry part slot res bs).slotEntry part slot).res = res := by
  obtain ⟨⟨hin, -⟩, hparts⟩ := State.putSlotEntry_stored (res := res) hk hs ht hl ha hpa hf
  have hpart : (s.putSlotEntry part slot res bs).part part = s.part part := by rw [State.part, hparts]; rfl
  have h13 := (hin 13 (by decide)).trans (if_pos rfl)
  generalize s.putSlotEntry part slot res bs = t at *
  have hres : (t.slotEntry part slot).res = (BitVec.ofNat 16 (t.physNat ((t.part part).slotTable + 64 * slot + 12) 2)).getLsbD 15 := rfl
  have hnat : t.physNat ((s.part part).slotTable + 64 * slot + 12) 2 = (t.physByte ((s.part part).slotTable + 64 * slot + 12)).toNat +
      256 * (t.physByte ((s.part part).slotTable + 64 * slot + 13)).toNat := by
    simp [State.physNat, State.physBytes, leNat]
  rw [hres, hpart, hnat, h13, BitVec.getLsbD_ofNat, Nat.testBit_eq_decide_div_mod_eq, decide_eq_true (by decide : 15 < 16), Bool.true_and]
  have hb := (t.physByte ((s.part part).slotTable + 64 * slot + 12)).isLt
  have hx := ((bs.getD 13 0).extractLsb' 0 7).isLt
  rw [BitVec.toNat_append, ← Nat.shiftLeft_add_eq_or_of_lt hx, Nat.shiftLeft_eq]
  cases res
  · refine decide_eq_false ?_
    simp only [Bool.false_eq_true, if_false, BitVec.toNat_ofNat]
    omega
  · refine decide_eq_true ?_
    simp only [if_true, BitVec.toNat_ofNat]
    omega

end

theorem State.freeSlot_lost {s : State} {part slot : Nat} (h : s.isLost ((s.part part).slotTable / 64 + slot) = true) :
    s.freeSlot part slot = s := by rw [State.freeSlot, State.lookLine_lost h]

theorem State.freeSlot_quiet {s : State} {part slot : Nat} (h : s.lineTrouble ((s.part part).slotTable / 64 + slot) = false) :
    s.freeSlot part slot = s.putSlotEntry part slot false (s.physBytes ((s.part part).slotTable + 64 * slot) 64) := by
  rw [State.freeSlot, State.lookLine_quiet h]

/-! ## Contexts, queues and policies (R89, R121, R133, R296) -/

theorem spillOk_iff {n : Nat} : spillOk n = true ↔ n % 64 = 0 ∧ n ≤ 2 ^ 24 := by
  simp [spillOk]

theorem Context.load_policy (c : Context) (e p l : List (BitVec 32)) : (c.load ⟨e, p, l⟩).policy =
    if polProgramOk e = true ∧ polProgramOk p = true ∧ polProgramOk l = true then some ⟨e, p, l⟩ else none := by
  rw [Context.load]
  by_cases h : polProgramOk e = true ∧ polProgramOk p = true ∧ polProgramOk l = true
  · obtain ⟨h1, h2, h3⟩ := h
    simp [h1, h2, h3]
  · rw [if_neg h, if_neg fun hb => h (by simpa [and_assoc] using hb)]

section

variable {s : State} {ctx part id i : Nat}

/-- A queue created for a context stands in its place there (R121). -/
theorem State.localQueue_created (hx : ctx < 1024) (hp : (s.ctx ctx).part = part) (hi : i < 16) (hq : s.queue? part id = none) (q : SubQueue)
    (hqp : q.part = part) (hqi : q.id = id) : (({ s with queues := s.queues ++ [q] } : State).updCtx ctx fun c =>
      { c with queues := c.queues.setIfInBounds i (some id) }).localQueue ctx i = some q := by
  have hc : (({ s with queues := s.queues ++ [q] } : State).updCtx ctx fun c => { c with queues := c.queues.setIfInBounds i (some id) }).ctx ctx =
      { s.ctx ctx with queues := (s.ctx ctx).queues.setIfInBounds i (some id) } := by
    rw [State.ctx_updCtx, if_pos ⟨rfl, hx⟩]; rfl
  rw [State.localQueue, hc]
  dsimp only
  rw [getD_setIfInBounds, if_pos ⟨rfl, hi⟩, hp]
  change (s.queues ++ [q]).find? (fun q => q.part == part && q.id == id) = some q
  rw [State.queue?] at hq
  rw [List.find?_append, hq, List.find?_cons, hqp, hqi, beq_self_eq_true, beq_self_eq_true]
  rfl

end

end Sys2Proof.Machine

namespace Sys2Proof.Proofs

open Machine Statements

section

variable {s : State} (hb : s.bootstat.getLsbD 31 = true)

include hb

/-- Ramner's work goes on once an image runs. -/
theorem bringUp_goes {b : BringUp} {t u : State} (h : s.bringUp b = if !s.booted then s else t) (ht : t = u) :
    exec (.evFunctionBringUp b) s = .next u := by
  refine congrArg Host.Outcome.next (h.trans ((if_neg ?_).trans ht))
  rw [State.booted, hb]
  exact Bool.false_ne_true

theorem cluster_comes_up {n : Nat} (hn : n < 128) :
    (s.physFor n = none →
      ((s.coreMap.getD n 0).getLsbD 7 = false → exec (.evFunctionBringUp (.cluster n)) s = .next s) ∧
      ((s.coreMap.getD n 0).getLsbD 7 = true → ∃ t, exec (.evFunctionBringUp (.cluster n)) s = .next t ∧ t.coreMap.getD n 0 = 0 ∧
        t.cluUp.getLsbD n = false ∧
        ∀ o ∈ (s.cluster n).owners, o.2.core ≠ 0 → (s.ctx o.1).state ≠ .free → (t.ctx o.1).state = .terminating)) ∧
    ∀ p, s.physFor n = some p →
      let entry := BitVec.ofNat 8 (128 + p)
      let moves : Prop := (s.coreMap.getD n 0).getLsbD 7 = true ∧ s.coreMap.getD n 0 ≠ entry
      (s.cluTest.getLsbD n = true ∨ (moves ∧ s.cluQuiet n = false) → exec (.evFunctionBringUp (.cluster n)) s = .next s) ∧
      (s.cluTest.getLsbD n = false → ¬moves ∨ s.cluQuiet n = true → ∃ t, exec (.evFunctionBringUp (.cluster n)) s = .next t ∧
          t.cluUp.getLsbD n = true ∧ t.coreMap.getD n 0 = entry) := by
  have hgo {u : State} (h : s.clusterUp n = u) : exec (.evFunctionBringUp (.cluster n)) s = .next u :=
    bringUp_goes hb (t := if n < 128 then s.clusterUp n else s) rfl ((if_pos hn).trans h)
  refine ⟨fun hp => ⟨fun hm => hgo ?_, fun hm => ⟨_, hgo (State.clusterUp_none hp), ?_⟩⟩, fun p hp => ⟨fun h => hgo ?_, fun ht h => ?_⟩⟩
  · rw [State.clusterUp_none hp, State.unmap_kept (.inl (State.mapped_none hm))]
  · have hne : s.mapped n ≠ none := by rw [State.mapped_some hm]; exact nofun
    rw [State.unmap_gone hne hp]
    refine ⟨?_, ?_, fun o ho hc hf => State.endOwners_ends ho hc (s := s.entryGone n) hf⟩
    all_goals
      obtain ⟨cs, he⟩ := State.endOwners_form (s.cluster n).owners (s.entryGone n)
      rw [he]
    · exact (getD_setIfInBounds _ _ _ _ _).trans (if_pos ⟨rfl, hn⟩)
    · exact (getLsbD_setBit _ hn _ _).trans (if_pos rfl)
  · rw [State.clusterUp_spare hp]
    refine if_pos ?_
    rcases h with h | ⟨⟨h7, hne⟩, hq⟩
    · rw [h]; rfl
    · rw [State.mapped_some h7, hq, bne_iff_ne.mpr hne]
      exact Bool.or_true _
  · obtain ⟨hm, hu, -⟩ := State.unmapOthers_keep hn hp
    refine ⟨_, hgo ((State.clusterUp_spare hp).trans (if_neg ?_)), hu, hm⟩
    rw [ht, Bool.false_or]
    intro hall
    simp only [Bool.and_eq_true, Bool.not_eq_true', bne_iff_ne] at hall
    obtain ⟨⟨hs, hne⟩, hq⟩ := hall
    rcases h with h | h
    · refine h ⟨?_, hne⟩
      by_contra h7
      rw [State.mapped_none (Bool.eq_false_iff.mpr h7)] at hs
      exact absurd hs Bool.false_ne_true
    · rw [hq] at h
      exact absurd h Bool.false_ne_true

theorem context_bound (ctx part root sb ss : Nat) :
    ((s.ctx ctx).state ≠ .free ∨ 16 ≤ part ∨ ss % 64 ≠ 0 ∨ 2 ^ 24 < ss →
      exec (.evFunctionBringUp (.bindContext ctx part root sb ss)) s = .next s) ∧
    (ctx < 1024 → part < 16 → (s.ctx ctx).state = .free → ss % 64 = 0 → ss ≤ 2 ^ 24 →
      ∃ t, exec (.evFunctionBringUp (.bindContext ctx part root sb ss)) s = .next t ∧ (t.ctx ctx).state = .idle ∧
        (t.ctx ctx).part = part ∧ (t.ctx ctx).root = root ∧ (t.ctx ctx).spillBase = sb ∧ (t.ctx ctx).spillSize = ss ∧
        ∀ c, c ≠ ctx → t.ctx c = s.ctx c) := by
  have hgo {u : State} (h : (if (s.ctx ctx).state ≠ .free ∨ 16 ≤ part ∨ (!spillOk ss) = true then s else s.updCtx ctx fun c =>
      { c.freed with state := .idle, part := part, root := root, spillBase := sb, spillSize := ss }) = u) :
      exec (.evFunctionBringUp (.bindContext ctx part root sb ss)) s = .next u := bringUp_goes hb rfl h
  have hspill : (!spillOk ss) = true ↔ ¬(ss % 64 = 0 ∧ ss ≤ 2 ^ 24) := by
    rw [Bool.not_eq_true', ← Bool.not_eq_true, spillOk_iff]
  refine ⟨fun h => hgo (if_pos ?_), fun hx hp hf h64 h24 => ⟨_, hgo (if_neg ?_), ?_⟩⟩
  · rw [hspill]
    rcases h with h | h | h | h
    · exact .inl h
    · exact .inr (.inl h)
    · exact .inr (.inr fun e => h e.1)
    · exact .inr (.inr fun e => absurd e.2 (Nat.not_le.mpr h))
  · rw [hspill]
    rintro (h | h | h)
    · exact h hf
    · omega
    · exact h ⟨h64, h24⟩
  · rw [State.ctx_updCtx, if_pos ⟨rfl, hx⟩]
    exact ⟨rfl, rfl, rfl, rfl, rfl, fun c hc => by rw [State.ctx_updCtx, if_neg fun e => hc e.1]⟩

theorem queue_created (part id ctx i : Nat) (fast dev : Bool) (ring : Nat) (bound : List Nat) (hf : (s.ctx ctx).state ≠ .free)
    (hp : (s.ctx ctx).part = part) (hid : id < 1024) (hi : i < 16) (hn : (s.ctx ctx).queues.getD i none = none)
    (hq : s.queue? part id = none) :
    ∃ t q, exec (.evFunctionBringUp (.createQueue part id ctx i fast dev ring bound)) s = .next t ∧ t.queues = s.queues ++ [q] ∧
      t.localQueue ctx i = some q ∧ q.commit = 0xFFFFFFFF ∧ q.next = 0 ∧ q.intake = [] ∧ q.fast = fast ∧ q.deviceFed = dev := by
  refine ⟨_, newQueue part id ctx fast dev ring bound, bringUp_goes hb rfl (if_neg ?_), rfl, State.localQueue_created (State.ctx_lt hf) hp hi hq _ rfl rfl,
    rfl, rfl, rfl, rfl, rfl⟩
  rw [hn, hq]
  rintro (h | h | h | h | h | h)
  · exact hf h
  · exact h hp
  · omega
  · omega
  · cases h
  · cases h

theorem slotTable_placed {p : Nat} (hp : p < 16) (base : Nat) :
    let good : Prop := base ≠ 0 ∧ base % 64 = 0 ∧ s.ownsRange p base (64 * 4096) = true ∧ ∀ k ∈ s.kernels, k.part ≠ p
    (good → ∃ t, exec (.evFunctionBringUp (.slotTable p base)) s = .next t ∧ (t.part p).slotTable = base) ∧
    (¬good → exec (.evFunctionBringUp (.slotTable p base)) s = .next s) := by
  have hiff : (base = 0 ∨ base % 64 ≠ 0 ∨ (!s.ownsRange p base (64 * 4096)) = true ∨ (s.kernels.any fun k => k.part == p) = true) ↔
      ¬(base ≠ 0 ∧ base % 64 = 0 ∧ s.ownsRange p base (64 * 4096) = true ∧ ∀ k ∈ s.kernels, k.part ≠ p) := by
    have hany : (s.kernels.any fun k => k.part == p) = true ↔ ¬∀ k ∈ s.kernels, k.part ≠ p := by simp
    rw [hany, Bool.not_eq_true', ← Bool.not_eq_true]
    tauto
  have hgo {u : State} (h : (if base = 0 ∨ base % 64 ≠ 0 ∨ (!s.ownsRange p base (64 * 4096)) = true ∨ (s.kernels.any fun k => k.part == p) = true
      then s else s.updPart p fun x => { x with slotTable := base }) = u) :
      exec (.evFunctionBringUp (.slotTable p base)) s = .next u := bringUp_goes hb rfl h
  refine ⟨fun h => ⟨_, hgo (if_neg fun hb => hiff.mp hb h), ?_⟩, fun h => hgo (if_pos (hiff.mpr h))⟩
  rw [State.part_updPart, if_pos ⟨rfl, hp⟩]

/-- The two ways in which a slot's entry is replaced come to one. -/
theorem slot_written {p slot : Nat} {entry : List Byte} (w : BringUp × Bool × List Byte)
    (hw : w ∈ [(BringUp.makeResident p slot entry, true, entry),
      (.freeSlot p slot, false, s.physBytes ((s.part p).slotTable + 64 * slot) 64)])
    (hquiet : w.2.1 = true ∨ s.lineTrouble ((s.part p).slotTable / 64 + slot) = false) :
    exec (.evFunctionBringUp w.1) s = .next (s.putSlotEntry p slot w.2.1 w.2.2) := by
  simp only [List.mem_cons, List.not_mem_nil, or_false] at hw
  rcases hw with rfl | rfl
  · exact bringUp_goes hb rfl rfl
  · exact bringUp_goes hb rfl (State.freeSlot_quiet (hquiet.resolve_left Bool.false_ne_true))

end

theorem bringUp_events : bringUpEvents := by
  intro s
  refine ⟨fun hb b => congrArg Host.Outcome.next (State.bringUp_waits hb b), fun hb => ⟨fun n hn => ⟨fun hf => bringUp_goes hb rfl (if_neg ?_),
    fun hf => ⟨_, bringUp_goes hb rfl (if_pos ?_), ?_⟩⟩, fun n hn => cluster_comes_up hb hn, context_bound hb, queue_created hb,
    fun p hp base => slotTable_placed hb hp base, fun p slot entry => ⟨fun hl => bringUp_goes hb rfl (State.freeSlot_lost hl), fun w hw => ⟨fun h hq => ?_,
      fun hu hq hs ht hl ha hpa hlost hroom hinj => ⟨_, slot_written hb w hw hq, ?_, ?_⟩⟩⟩, fun ctx hx e p l => ⟨_, bringUp_goes hb rfl rfl, ?_⟩,
    fun ctx hx on => ⟨_, bringUp_goes hb rfl rfl, ?_⟩, fun hash => bringUp_goes hb rfl rfl⟩⟩
  · rw [hf]
    exact fun h => absurd h.2 Bool.false_ne_true
  · exact ⟨hn, by rw [hf]; rfl⟩
  · exact (getLsbD_setBit _ hn _ _).trans (if_pos rfl)
  · rw [slot_written hb w hw hq, State.putSlotEntry_refused h]
  · exact (State.putSlotEntry_stored hu hs ht hl ha hpa ⟨hlost, hroom, hinj⟩).1
  · exact State.putSlotEntry_res hu hs ht hl ha hpa ⟨hlost, hroom, hinj⟩
  · rw [State.ctx_updCtx, if_pos ⟨rfl, hx⟩]
    exact Context.load_policy _ e p l
  · rw [State.ctx_updCtx, if_pos ⟨rfl, hx⟩]

/-- Settles O52, by the event: station cores' runs, other packages' requests at their home lines, the failures by what a fold over partitions
keeps, and Ramner's work. -/
theorem packageEvents : Obligations.PackageEvents := ⟨stationEvents_hold, incoming_requests, packageEvents_hold, bringUp_events⟩

end Sys2Proof.Proofs
end
section
/-! SUPPORT. The elements of the vector loads and stores: their addresses, and the checks of their operands (R101, R188, R189). -/

namespace Sys2Proof.Machine

open Host (Outcome)
open Statements

/-! ## The addresses of the elements (R119, R188) -/

theorem leaW_past (a e : Word) : leaW a e = past a (e.extractLsb' 0 56) := by
  rw [leaW_eq, past, ← BitVec.setWidth_eq_extractLsb' (by decide), ← BitVec.setWidth_eq_extractLsb' (by decide),
    ← BitVec.setWidth_eq_extractLsb' (by decide), BitVec.setWidth_add _ _ (by decide)]

theorem leaW_pitch (a b : Word) (e : Nat) :
    leaW a (BitVec.ofNat 64 (e / 64) * b + BitVec.ofNat 64 (4 * (e % 64))) = pitchAddr a b e := by
  rw [leaW_past, pitchAddr]
  refine congrArg (past a) ?_
  rw [← BitVec.setWidth_eq_extractLsb' (by decide), ← BitVec.setWidth_eq_extractLsb' (by decide), BitVec.setWidth_add _ _ (by decide),
    BitVec.setWidth_mul _ _ (by decide), BitVec.setWidth_ofNat_of_le (by decide), BitVec.setWidth_ofNat_of_le (by decide)]

theorem leaW_index (a : Word) (v : Elem) : leaW a (v.setWidth 64) = past a (v.setWidth 56) := by
  rw [leaW_past, ← BitVec.setWidth_eq_extractLsb' (by decide), BitVec.setWidth_setWidth_of_le _ (by decide)]

/-- The enabled elements of a mask, each with the four bytes at its address. -/
def eltsAt (m : VMask) (addr : Nat → Word) : List (Nat × Elt) := (enabledOf m).map fun e => (e, ⟨addr e, 4⟩)

theorem pitchElts_eq (m : VMask) (a b : Word) : pitchElts m a b = eltsAt m (pitchAddr a b) := by
  simp only [pitchElts, leaW_pitch]
  rfl

theorem indexElts_eq (m : VMask) (a : Word) (v : VRegs) : indexElts m a v = eltsAt m fun e => past a ((velem v e).setWidth 56) := by
  simp only [indexElts, leaW_index]
  rfl

theorem spaceTag_past (x : Word) (k : BitVec 56) : spaceTag (past x k) = spaceTag x := by
  rw [spaceTag_eq, spaceTag_eq, past]
  refine congrArg BitVec.toNat ?_
  apply BitVec.eq_of_getLsbD_eq
  intro i hi
  rw [BitVec.getLsbD_extractLsb', BitVec.getLsbD_extractLsb', BitVec.getLsbD_append, if_neg (by omega), BitVec.getLsbD_extractLsb',
    Nat.add_sub_cancel_left, decide_eq_true hi, Bool.true_and, Bool.true_and]

theorem addr56_past (x : Word) (k : BitVec 56) : addr56 (past x k) = (addr56 x + k.toNat) % 2 ^ 56 := by
  rw [addr56_eq, addr56_eq, past, ← BitVec.toNat_add]
  refine congrArg BitVec.toNat ?_
  apply BitVec.eq_of_getLsbD_eq
  intro i hi
  rw [BitVec.getLsbD_extractLsb', Nat.zero_add, BitVec.getLsbD_append, if_pos hi, decide_eq_true hi, Bool.true_and]

theorem addr56_mod (y : Word) {n : Nat} (h : n ∣ 2 ^ 56) : addr56 y % n = y.toNat % n := by
  rw [addr56_eq, BitVec.extractLsb'_toNat, Nat.shiftRight_zero, Nat.mod_mod_of_dvd _ h]

/-- Elements of a pitch access whose operands lie at line boundaries are aligned. -/
theorem pitchAddr_aligned {x y : Word} (hx : x.toNat % 64 = 0) (hy : y.toNat % 64 = 0) (e : Nat) : addr56 (pitchAddr x y e) % 4 = 0 := by
  have h1 : addr56 x % 4 = 0 := by have := addr56_mod x (n := 64) (by decide); omega
  have h2 : (y.extractLsb' 0 56).toNat % 4 = 0 := by have := addr56_mod y (n := 64) (by decide); rw [addr56_eq] at this; omega
  obtain ⟨q, hq⟩ := Nat.dvd_of_mod_eq_zero h2
  rw [pitchAddr, addr56_past, BitVec.toNat_add, BitVec.toNat_mul, hq, BitVec.toNat_ofNat, BitVec.toNat_ofNat, Nat.mul_left_comm]
  omega

/-! ## The enabled elements (R187) -/

theorem mem_enabledOf {m : VMask} {e : Nat} : e ∈ enabledOf m ↔ e < 1024 ∧ m.getLsbD e = true := by
  simp [enabledOf]

theorem enabledOf_ascending (m : VMask) : (enabledOf m).Pairwise (· < ·) := List.pairwise_lt_range.filter _

theorem enabledOf_length (m : VMask) : (enabledOf m).length ≤ 1024 := by
  have h := List.length_filter_le (fun e => m.getLsbD e) (List.range 1024)
  rwa [List.length_range] at h

/-- The enabled elements before and after one of them. -/
theorem enabledOf_split {m : VMask} {e : Nat} (h : e ∈ enabledOf m) : ∃ pre post, enabledOf m = pre ++ e :: post ∧
    (∀ f ∈ pre, f < e ∧ f ∈ enabledOf m) ∧ ∀ f ∈ post, e < f ∧ f ∈ enabledOf m := by
  obtain ⟨pre, post, hs⟩ := List.append_of_mem h
  have hp := enabledOf_ascending m
  rw [hs, List.pairwise_append, List.pairwise_cons] at hp
  obtain ⟨-, ⟨hpost, -⟩, hpre⟩ := hp
  refine ⟨pre, post, hs, fun f hf => ⟨hpre f hf e List.mem_cons_self, ?_⟩, fun f hf => ⟨hpost f hf, ?_⟩⟩ <;>
    rw [hs] <;> simp [hf]

/-! ## The operand checks of the elements (R101, rank 4) -/

section

variable {s : State} {y : Word}

theorem State.eltOperand_global (h : spaceTag y = 0) (n : Nat) : s.eltOperand ⟨y, n⟩ = .ok () := by
  rw [State.eltOperand, h, if_neg (by decide), if_neg (by decide)]

/-- The banks of the four bytes at an operand, as far as they lie in tile space. -/
theorem State.tileMode_part (h : addr56 y < tileEnd) : s.tileMode s.curCl (addr56 y) (min 4 (tileEnd - addr56 y)) = true ↔
    ∀ i < 4, addr56 y + i < 0x800000 → (s.cluster s.curCl).modes.getD (bankOf (addr56 y + i)) .cache = .tile := by
  have he : tileEnd = 0x800000 := rfl
  rw [State.tileMode_iff _ _ _ (by omega)]
  have hb (a : Nat) : bankOf a = a / 0x20000 := rfl
  simp only [hb]
  constructor
  · intro hall i hi hlt
    exact hall _ (by omega) (by omega)
  · intro hall b h1 h2
    by_cases h0 : b = addr56 y / 0x20000
    · have := hall 0 (by decide) (by omega)
      rwa [Nat.add_zero, ← h0] at this
    · have := hall (min 4 (tileEnd - addr56 y) - 1) (by omega) (by omega)
      rwa [show b = (addr56 y + (min 4 (tileEnd - addr56 y) - 1)) / 0x20000 by omega]

theorem State.eltOperand_tile (h : spaceTag y = 1) (hn : ¬noTile s y) : s.eltOperand ⟨y, 4⟩ = .ok () := by
  obtain ⟨h1, h2⟩ := not_or.mp hn
  have hlt : addr56 y < tileEnd := Nat.not_le.mp h1
  have hm : s.tileMode s.curCl (addr56 y) (min 4 (tileEnd - addr56 y)) = true := (State.tileMode_part hlt).mpr fun i hi hlt => by
    by_contra hne
    exact h2 ⟨i, hi, hlt, hne⟩
  rw [State.eltOperand, if_pos h]
  dsimp only
  rw [hm, decide_eq_false (Nat.not_le.mpr hlt)]
  rfl

theorem State.eltOperand_noTile (h : spaceTag y = 1) (hn : noTile s y) : s.eltOperand ⟨y, 4⟩ = .error (trapOf cACCESS 0 y s) := by
  rw [State.eltOperand, if_pos h]
  refine if_pos ?_
  rw [Bool.or_eq_true, decide_eq_true_eq]
  by_cases hlt : addr56 y < tileEnd
  · rcases hn with hn | ⟨i, hi, h1, h2⟩
    · exact absurd hn (Nat.not_le.mpr hlt)
    · refine .inr ?_
      rw [Bool.not_eq_true', ← Bool.not_eq_true]
      exact fun hm => h2 ((State.tileMode_part hlt).mp hm i hi h1)
  · exact .inl (Nat.not_lt.mp hlt)

/-- An element whose operand checks pass: at a global address, or in tile space in banks in tile mode. -/
def State.eltFits (s : State) (y : Word) : Prop := spaceTag y = 0 ∨ spaceTag y = 1 ∧ ¬noTile s y

theorem State.eltOperand_fits (h : s.eltFits y) : s.eltOperand ⟨y, 4⟩ = .ok () :=
  h.elim (fun h => State.eltOperand_global h 4) fun h => State.eltOperand_tile h.1 h.2

end

section

variable {s : State} {addr : Nat → Word} {es : List Nat}

/-- The operand checks of elements that pass, and of those after them. -/
theorem State.eltsOperand_past (h : ∀ e ∈ es, s.eltFits (addr e)) (l : List Elt) :
    s.eltsOperand (es.map (fun e => ⟨addr e, 4⟩) ++ l) = s.eltsOperand l := by
  induction es with
  | nil => rfl
  | cons e es ih =>
    rw [List.forall_mem_cons] at h
    rw [List.map_cons, List.cons_append, State.eltsOperand, State.eltOperand_fits h.1, ← ih h.2]
    rfl

theorem State.eltsOperand_fits (h : ∀ e ∈ es, s.eltFits (addr e)) : s.eltsOperand (es.map fun e => ⟨addr e, 4⟩) = .ok () := by
  have := State.eltsOperand_past h []
  rwa [List.append_nil] at this

end

theorem eltsAt_elts (m : VMask) (addr : Nat → Word) : (eltsAt m addr).map (·.2) = (enabledOf m).map fun e => (⟨addr e, 4⟩ : Elt) := by
  rw [eltsAt, List.map_map]
  rfl

/-! ## The checks of VLD and VST in their order (R101, R189) -/

section

variable {s : State} {x y : Word} {m : VMask} {addr : Nat → Word}

theorem State.pitchCheck_tag (h : 2 ≤ spaceTag x) (l : List (Nat × Elt)) : s.pitchCheck x y l = .error (trapOf cACCESS 0 x s) := by
  unfold State.pitchCheck
  rw [if_pos (by omega)]
  rfl

theorem State.pitchCheck_noTile {e : Nat} (hx : spaceTag x ≤ 1) (he : e ∈ enabledOf m) (ht : spaceTag (addr e) = 1) (hn : noTile s (addr e))
    (hf : ∀ f < e, f ∈ enabledOf m → s.eltFits (addr f)) : s.pitchCheck x y (eltsAt m addr) = .error (trapOf cACCESS 0 (addr e) s) := by
  obtain ⟨pre, post, hs, hpre, -⟩ := enabledOf_split he
  have h : s.eltsOperand ((eltsAt m addr).map (·.2)) = .error (trapOf cACCESS 0 (addr e) s) := by
    rw [eltsAt_elts, hs, List.map_append, State.eltsOperand_past fun f hm => hf f (hpre f hm).1 (hpre f hm).2, List.map_cons,
      State.eltsOperand, State.eltOperand_noTile ht hn]
    rfl
  unfold State.pitchCheck
  rw [if_neg (by omega), h]
  rfl

/-- The alignment checks, once the elements' operands pass. -/
theorem State.pitchCheck_fits (hx : spaceTag x ≤ 1) (hf : ∀ f ∈ enabledOf m, s.eltFits (addr f)) : s.pitchCheck x y (eltsAt m addr) =
    if x.toNat % 64 ≠ 0 then .error (trapOf cALIGN 0 x s)
    else if y.toNat % 64 ≠ 0 then .error (trapOf cALIGN 0 (leaW x y) s) else .ok () := by
  unfold State.pitchCheck
  rw [if_neg (by omega), eltsAt_elts, State.eltsOperand_fits hf]
  rfl

end

/-- A check that passes leaves what comes after it. -/
theorem check_then {α : Type} {u : Except Act Unit} (h : u = .ok ()) (k : Unit → Except Act α) : (u >>= k) = k () := by rw [h]; rfl

/-! ## An access of banks that are not owned (R99, R189) -/

section

variable {s : State} {write : Bool} {addr : Nat → Word}

theorem State.eltPlace_unowned {z : Word} (ht : spaceTag z = 1) (ha : addr56 z % 4 = 0)
    (ho : (s.owner s.curCl s.curCtx).bank.getLsbD (bankOf (addr56 z)) = false) :
    s.eltPlace write ⟨z, 4⟩ = .error (.trap ⟨cACCESS, 0, z⟩ s) := by
  rw [State.eltPlace, if_pos ht]
  dsimp only
  rw [State.tileOwned_one (bankOf_aligned (by decide) (by decide) ha), ho]
  rfl

/-- With no element's bank owned, the trap is the first element's. -/
theorem State.eltsPlace_unowned : ∀ (es : List Nat) (bad : Option Act), (∀ f ∈ es, spaceTag (addr f) = 1 ∧ addr56 (addr f) % 4 = 0 ∧
    (s.owner s.curCl s.curCtx).bank.getLsbD (bankOf (addr56 (addr f))) = false) →
    s.eltsPlace write bad (es.map fun e => ⟨addr e, 4⟩) =
      match bad.or (es.head?.map fun e => .trap ⟨cACCESS, 0, addr e⟩ s) with | some a => .error a | none => .ok ([], s) := by
  intro es
  induction es with
  | nil =>
    intro bad _
    cases bad <;> rfl
  | cons e es ih =>
    intro bad h
    rw [List.forall_mem_cons] at h
    obtain ⟨⟨ht, ha, ho⟩, h⟩ := h
    rw [List.map_cons, State.eltsPlace, State.eltPlace_unowned ht ha ho]
    dsimp only
    rw [if_neg (show ¬isPage ⟨cACCESS, 0, addr e⟩ = true from nofun), ih _ h]
    cases bad <;> rfl

/-- A stream that is held waits for nothing. -/
theorem State.hold_wake {core : Nat} {k : StreamId} (hc : s.cur = .stream core k) (t : Trap) : (s.hold core k t).wake = s.hold core k t := by
  have h1 : (s.hold core k t).cur = .stream core k := hc
  unfold State.wake
  rw [h1]
  dsimp only
  rw [State.hold, State.updStrm_updStrm]
  exact State.updStrm_congr rfl

end

end Sys2Proof.Machine

namespace Sys2Proof.Proofs

open Machine Statements

section

variable {g : Guard} {vd : VReg} {a b : XReg} {m : MReg} {weak : Bool} {s s0 : State} {x y : Word} (hb : s.begins g [a, b] [] [x, y] s0)

include hb

/-- A failing check of VLD and VST. -/
theorem pitch_check_fails {c : BitVec 8} {v : Word} (h : s.pitchCheck x y (eltsAt (s.mask m) (pitchAddr x y)) = .error (trapOf c 0 v s)) :
    exec (.vld g vd a b m weak) s = .next (s.take ⟨c, 0, v⟩) ∧ exec (.vst g vd a b m weak) s = .next (s.take ⟨c, 0, v⟩) := by
  have hk : s.pitchCheck ([x, y].getD 0 0) ([x, y].getD 1 0) (pitchElts (s.mask m) ([x, y].getD 0 0) ([x, y].getD 1 0)) =
      .error (trapOf c 0 v s) := by rw [pitchElts_eq]; exact h
  constructor
  · change finish 1 (actVld g vd a b m weak s) = _
    rw [actVld, State.memBegin_error hb (a := trapOf c 0 v s) (by dsimp only; rw [hk]; rfl)]
    rfl
  · change finish 1 (actVst g vd a b m weak s) = _
    rw [actVst, State.memBegin_error hb (a := trapOf c 0 v s) (by dsimp only; rw [hk]; rfl)]
    rfl

/-- VLD and VST whose elements all lie in banks that are not owned. -/
theorem pitch_unowned {core : Nat} {k : StreamId} (hc : s.cur = .stream core k) {e : Nat} {post : List Nat}
    (h : s.pitchCheck x y (eltsAt (s.mask m) (pitchAddr x y)) = .ok ()) (he : enabledOf (s.mask m) = e :: post)
    (ho : ∀ f ∈ enabledOf (s.mask m), spaceTag (pitchAddr x y f) = 1 ∧ addr56 (pitchAddr x y f) % 4 = 0 ∧
      (s.owner s.curCl s.curCtx).bank.getLsbD (bankOf (addr56 (pitchAddr x y f))) = false) :
    exec (.vld g vd a b m weak) s = .next (s.hold core k ⟨0x11, 0, pitchAddr x y e⟩) ∧
      exec (.vst g vd a b m weak) s = .next (s.hold core k ⟨0x11, 0, pitchAddr x y e⟩) := by
  have hk : s.pitchCheck ([x, y].getD 0 0) ([x, y].getD 1 0) (pitchElts (s.mask m) ([x, y].getD 0 0) ([x, y].getD 1 0)) = .ok () := by
    rw [pitchElts_eq]; exact h
  have hp (w : Bool) : viaShadow (s.eltsPlace w none ((pitchElts (s.mask m) ([x, y].getD 0 0) ([x, y].getD 1 0)).map (·.2))) =
      .error (.jump (s.hold core k ⟨0x11, 0, pitchAddr x y e⟩)) := by
    rw [pitchElts_eq, eltsAt_elts]
    have := State.eltsPlace_unowned (write := w) (enabledOf (s.mask m)) none ho
    rw [he] at this ⊢
    refine (congrArg viaShadow this).trans ?_
    simp only [List.head?_cons, Option.map_some, Option.none_or, viaShadow, if_pos, State.curCore_stream hc, State.curSt_stream hc]
    rfl
  have hw : finish 1 (.jump (s.hold core k ⟨0x11, 0, pitchAddr x y e⟩)) = .next (s.hold core k ⟨0x11, 0, pitchAddr x y e⟩) :=
    congrArg Host.Outcome.next (State.hold_wake hc _)
  constructor
  · change finish 1 (actVld g vd a b m weak s) = _
    rw [actVld, State.memBegin_error hb (a := .jump (s.hold core k ⟨0x11, 0, pitchAddr x y e⟩)), hw]
    refine (check_then hk _).trans ?_
    unfold State.vecLoad
    rw [hp]
    rfl
  · change finish 1 (actVst g vd a b m weak s) = _
    rw [actVst, State.memBegin_error hb (a := .jump (s.hold core k ⟨0x11, 0, pitchAddr x y e⟩)), hw]
    refine (check_then hk _).trans ?_
    unfold State.vecStore
    rw [hp]
    rfl

end

/-- R101, R189: the checks of VLD and VST. -/
theorem vectorMemoryChecks : vectorMemoryChecksPart := by
  intro g vd a b m weak s s0 x y hb
  have on (e : Nat) : e ∈ enabledOf (s.mask m) ↔ e < 1024 ∧ (s.mask m).getLsbD e = true := mem_enabledOf
  have tag (f : Nat) : spaceTag (pitchAddr x y f) = spaceTag x := spaceTag_past x _
  dsimp only
  simp only [← on]
  have fits (hp : spaceTag x = 0 ∨ (spaceTag x = 1 ∧ ∀ e, e ∈ enabledOf (s.mask m) → ¬noTile s (pitchAddr x y e))) :
      ∀ f ∈ enabledOf (s.mask m), s.eltFits (pitchAddr x y f) := fun f hf =>
    hp.imp (fun h => (tag f).trans h) fun h => ⟨(tag f).trans h.1, h.2 f hf⟩
  have le (hp : spaceTag x = 0 ∨ (spaceTag x = 1 ∧ ∀ e, e ∈ enabledOf (s.mask m) → ¬noTile s (pitchAddr x y e))) : spaceTag x ≤ 1 := by
    rcases hp with h | h <;> omega
  refine ⟨fun h => pitch_check_fails hb (State.pitchCheck_tag h _), fun e h he hn hf => pitch_check_fails hb ?_,
    fun hp hx => pitch_check_fails hb ?_, fun hp hx hy => pitch_check_fails hb ?_, fun core k e hc ht hp hx hy he hfirst ho => ?_⟩
  · exact State.pitchCheck_noTile (by rw [spaceTag_eq]; omega) he ((tag e).trans h) hn
      fun f hlt hm => .inr ⟨(tag f).trans h, hf f hlt hm⟩
  · rw [State.pitchCheck_fits (le hp) (fits hp), if_pos hx]
    rfl
  · rw [State.pitchCheck_fits (le hp) (fits hp), if_neg (by rw [hx]; decide), if_pos hy, leaW_past]
    rfl
  · obtain ⟨pre, post, hs, hpre, -⟩ := enabledOf_split he
    have hnil : pre = [] := List.eq_nil_iff_forall_not_mem.mpr fun f hf => hfirst f (hpre f hf).1 (hpre f hf).2
    rw [hnil, List.nil_append] at hs
    refine pitch_unowned hb hc ?_ hs fun f hf => ⟨(tag f).trans ht, pitchAddr_aligned hx hy f, ho f hf⟩
    rw [State.pitchCheck_fits (le hp) (fits hp), if_neg (by rw [hx]; decide), if_neg (by rw [hy]; decide)]

end Sys2Proof.Proofs
end
section
/-! SUPPORT. What a vector load or store keeps of its stream and of its core, and how such a word completes (R92, R101, R102). -/

namespace Sys2Proof.Machine

open Host (Outcome)
open Statements

/-! ## What an access keeps of its stream -/

/-- What a vector access keeps of its stream: all but STAT, the releases that it has read from and its own progress. -/
def Stream.WordKept (a b : Stream) : Prop :=
  ∃ st l p g q, b = { a with hart := { a.hart with stat := st }, seen := l, vecPos := p, vecGot := g, vstPos := q }

theorem Stream.WordKept.refl (a : Stream) : a.WordKept a := ⟨_, _, _, _, _, rfl⟩

theorem Stream.WordKept.trans {a b c : Stream} (h1 : a.WordKept b) (h2 : b.WordKept c) : a.WordKept c := by
  obtain ⟨_, _, _, _, _, rfl⟩ := h1
  obtain ⟨st, l, p, g, q, rfl⟩ := h2
  exact ⟨st, l, p, g, q, rfl⟩

/-- What a vector access of stream X of a core keeps of the core: its stream but for what the access itself moves, and the data queues. -/
structure State.WordKept (core : Nat) (s t : State) : Prop where
  cur : t.cur = s.cur
  strm : (s.strm core .X).WordKept (t.strm core .X)
  dq : (t.core core).dq = (s.core core).dq

namespace State.WordKept

variable {core : Nat} {r s t : State}

theorem refl (s : State) : s.WordKept core s := ⟨rfl, .refl _, rfl⟩

theorem trans (h1 : r.WordKept core s) (h2 : s.WordKept core t) : r.WordKept core t :=
  ⟨h2.cur.trans h1.cur, h1.strm.trans h2.strm, h2.dq.trans h1.dq⟩

theorem of_cores (h1 : t.cores = s.cores := by rfl) (h2 : t.cur = s.cur := by rfl) : s.WordKept core t := by
  have hc : t.core core = s.core core := by rw [State.core, h1]; rfl
  exact ⟨h2, by rw [State.strm, State.strm, hc]; exact .refl _, by rw [hc]⟩

theorem remote (hc : s.cur = .stream core .X) (h : s.WordKept core t) : t.me.remote = s.me.remote := by
  obtain ⟨_, _, _, _, _, hs⟩ := h.strm
  rw [State.me_stream hc, State.me_stream (h.cur.trans hc), hs]

/-- An update of its stream. -/
theorem of_updStrm {f : Stream → Stream} (h : (s.strm core .X).WordKept (f (s.strm core .X))) : s.WordKept core (s.updStrm core .X f) := by
  refine ⟨rfl, ?_, State.core_updCore_of Core.dq rfl core⟩
  by_cases hc : core < 512
  · rw [State.strm_updStrm_same hc]
    exact h
  · have he : s.updStrm core .X f = s := State.setCore_absent hc s _
    rw [he]
    exact .refl _

end State.WordKept

theorem State.updStrm_vregs (s : State) (core : Nat) (k : StreamId) (f : Stream → Stream) (n : Nat) :
    ((s.updStrm core k f).core n).v = (s.core n).v := State.core_updCore_of Core.v (by cases k <;> rfl) n

theorem State.vreg_updStrm (s : State) (n : Nat) (k : StreamId) (f : Stream → Stream) (r : VReg) : (s.updStrm n k f).vreg r = s.vreg r :=
  congrArg (fun v : Vector VRegs 16 => v[r.toFin]) (State.updStrm_vregs s n k f s.curCore)

theorem State.vreg_eq {s : State} {core : Nat} {k : StreamId} (hc : s.cur = .stream core k) (r : VReg) : s.vreg r = (s.core core).v[r.toFin] := by
  rw [State.vreg, State.curCore_stream hc]

/-! ## How such a word completes -/

section

variable {core : Nat} {k : StreamId}

/-- A pop changes no byte of memory and no vector register. -/
theorem State.popDq_rest {s s1 : State} (hc : s.cur = .stream core k) {q : Nat} {v : Word} (h : s.popDq q = .ok (v, s1)) :
    s1.cur = s.cur ∧ memSame s s1 ∧ (s1.core core).v = (s.core core).v := by
  have hv (d : DataQueue) : ((s.setDq q d).core core).v = (s.core core).v := by
    rw [State.setDq_stream hc]
    exact State.core_updCore_of Core.v rfl core
  unfold State.popDq at h
  split at h
  · exact absurd h nofun
  · next v' d e hp =>
    obtain ⟨rfl, rfl⟩ := Prod.mk.inj (Except.ok.inj h)
    have hd : (s.setDq q d).cur = .stream core k := hc
    split
    · rw [State.setStat_stream hd]
      exact ⟨rfl, memSame_fields, (State.updStrm_vregs _ _ _ _ _).trans (hv d)⟩
    · exact ⟨rfl, memSame_fields, hv d⟩

/-- The pops of the sources change no byte of memory and no vector register. -/
theorem State.readAll_rest {rs : List XReg} : ∀ {s s1 : State} {vs : List Word}, s.cur = .stream core k → s.readAll rs = .ok (vs, s1) →
    memSame s s1 ∧ (s1.core core).v = (s.core core).v := by
  induction rs with
  | nil =>
    intro s s1 vs _ h
    obtain ⟨rfl, rfl⟩ := Prod.mk.inj (Except.ok.inj h)
    exact ⟨memSame_refl s, rfl⟩
  | cons r rs ih =>
    intro s s1 vs hc h
    cases hr : s.port? r with
    | none =>
      rw [State.readAll_cons_plain hr] at h
      cases hs : s.readAll rs with
      | error w => rw [hs] at h; exact absurd h nofun
      | ok x =>
        rw [hs] at h
        obtain ⟨-, rfl⟩ := Prod.mk.inj (Except.ok.inj h)
        exact ih hc hs
    | some q =>
      cases hq : s.popDq q with
      | error w => simp [State.readAll, hr, hq] at h
      | ok y =>
        obtain ⟨v, u⟩ := y
        obtain ⟨hu, hm, hv⟩ := State.popDq_rest hc hq
        rw [State.readAll_cons_port hr hq] at h
        cases hs : u.readAll rs with
        | error w => rw [hs] at h; exact absurd h nofun
        | ok x =>
          rw [hs] at h
          obtain ⟨-, rfl⟩ := Prod.mk.inj (Except.ok.inj h)
          obtain ⟨hm2, hv2⟩ := ih (hu.trans hc) hs
          exact ⟨memSame_trans hm hm2, hv2.trans hv⟩

end

theorem onlyRegs_advance {s t : State} {core : Nat} {k : StreamId} (hcore : core < 512) (hs : s.cur = .stream core k)
    (ht : t.cur = .stream core k) (h : (s.strm core k).WordKept (t.strm core k)) : onlyRegs s (t.advance 1) [] := by
  obtain ⟨st, l, p, g, q, h⟩ := h
  have ha := State.advance_stream ht 1
  have hc : (t.advance 1).cur = .stream core k := by rw [ha]; exact ht
  unfold onlyRegs
  rw [State.pcAfter_stream hs, State.pc, State.pc, State.hart_stream hc, State.hart_stream hs, State.me_stream hc, State.me_stream hs, ha, State.strm_updStrm_same hcore, h]
  exact ⟨fun _ _ => rfl, fun _ => rfl, rfl, rfl, rfl, rfl, rfl, rfl, rfl, rfl, rfl, rfl, rfl⟩

/-- A word that acts, keeping its stream, and then pops its sources. -/
theorem vector_completes {s s0 u : State} {core : Nat} (hcore : core < 512) (hc : s.cur = .stream core .X) {g : Guard} {srcs : List XReg}
    {vs : List Word} (hb : s.begins g srcs [] vs s0) {k : List Word → Except Act State} (hk : k vs = .ok u) (hu : s.WordKept core u) :
    ∃ t, finish 1 (s.memBegin g srcs [] k) = .next t ∧ memSame u t ∧ onlyRegs s t [] ∧ t.cur = s.cur ∧ ∀ v, t.vreg v = u.vreg v := by
  have huc : u.cur = .stream core .X := hu.cur.trans hc
  obtain ⟨ws, t1, hr, ht1, st, hst⟩ := State.readAll_of_queues hcore hc huc hu.dq hb.2
  obtain ⟨hm, hv⟩ := State.readAll_rest huc hr
  refine ⟨t1.advance 1, by rw [State.memBegin_ok hb hk hr]; rfl, memSame_trans hm ?_, ?_, ?_, fun v => ?_⟩
  · rw [State.advance_stream ht1]
    exact memSame_fields
  · refine onlyRegs_advance hcore hc ht1 ?_
    rw [hst]
    exact hu.strm.trans ⟨st, _, _, _, _, rfl⟩
  · rw [State.advance_stream ht1]
    exact ht1.trans hc.symm
  · have ha : (t1.advance 1).cur = .stream core .X := by rw [State.advance_stream ht1]; exact ht1
    rw [State.vreg_eq ha, State.vreg_eq huc, ← hv, State.advance_stream ht1, State.updStrm_vregs]

end Sys2Proof.Machine
end
section
/-! SUPPORT. The elements of a vector access located (R135, R244, R316, R321), and the home lines of a load made ready and race-checked
(R264, R322, R323). -/

namespace Sys2Proof.Machine

open Statements

/-! ## The places of the elements -/

/-- Where an element's operand leads: a tile-space offset, or a place of home memory. -/
def spotOf (pl : Nat → Nat) (y : Word) : Spot := if spaceTag y = 1 then .tile (addr56 y) else .mem (.home (lineAt pl (addr56 y)))

/-- The elements of an access with their places. -/
def placedAt (pl : Nat → Nat) (addr : Nat → Word) (es : List Nat) : List (Elt × Spot) := es.map fun e => (⟨addr e, 4⟩, spotOf pl (addr e))

theorem spaceTag_of {y : Word} {n : Nat} (h : y.extractLsb' 56 8 = BitVec.ofNat 8 n) (hn : n < 256) : spaceTag y = n := by
  rw [spaceTag_eq, h, BitVec.toNat_ofNat, Nat.mod_eq_of_lt hn]

theorem spotOf_tile {pl : Nat → Nat} {y : Word} (h : y.extractLsb' 56 8 = 1#8) : spotOf pl y = .tile (addr56 y) := if_pos (spaceTag_of h (by decide))

theorem spotOf_home {pl : Nat → Nat} {y : Word} (h : y.extractLsb' 56 8 = 0#8) : spotOf pl y = .mem (.home (lineAt pl (addr56 y))) :=
  if_neg (by rw [spaceTag_of h (by decide)]; decide)

theorem inTile_owned {s : State} {y : Word} (h : inTile s y 4) : s.tileOwned s.curCl s.curCtx (addr56 y) 4 = true := by
  obtain ⟨-, -, h⟩ := h
  simp only [State.tileOwned, upto, List.all_eq_true, List.mem_range]
  intro i hi
  have hb (a : Nat) : bankOf a = a / 0x20000 := rfl
  rw [hb, hb] at hi
  rw [hb]
  by_cases h0 : i = 0
  · rw [h0]
    exact (h 0 (by decide)).2
  · rw [show addr56 y / 0x20000 + i = (addr56 y + 3) / 0x20000 by omega]
    exact (h 3 (by decide)).2

/-- An element whose bytes can be read lies at its place. -/
theorem State.eltPlace_readable {s : State} {c : Cls} {pl : Nat → Nat} {y : Word} (h : Statements.readable s c pl y 4) :
    s.eltPlace false ⟨y, 4⟩ = .ok (spotOf pl y, s) := by
  rcases h with ⟨ht, hbad, hpin⟩ | ⟨htag, -, hserved⟩
  · rw [State.eltPlace, if_pos (spaceTag_of ht.1 (by decide)), spotOf_tile ht.1]
    have hp : s.unpinned (tileKey s.curCl (addr56 y)) = .ok () := by
      rw [State.unpinned, show s.pinnedFor s.party (tileKey s.curCl (addr56 y) / 64) = false from hpin 0 (by decide)]
      rfl
    have hs : s.storeBad s.curCl (addr56 y) 4 = false := hbad
    dsimp only
    rw [inTile_owned ht, hp, hs]
    rfl
  · have hl : s.locate s.curCl s.curCtx (addr56 y) false = .ok (.home (lineAt pl (addr56 y)), s) := (hserved 0 (by decide)).1
    rw [State.eltPlace, if_neg (by rw [spaceTag_of htag (by decide)]; decide), spotOf_home htag, hl]
    rfl

/-- A range of bytes that meets a region meets it in one of its bytes. -/
theorem meets_byte {lo hi a n : Nat} (hn : 0 < n) (h0 : lo ≤ hi) (h : meets lo hi a (a + n - 1) = true) :
    ∃ i < n, meets lo hi (a + i) (a + i + 1 - 1) = true := by
  simp only [meets, Bool.and_eq_true, decide_eq_true_eq] at h ⊢
  by_cases hlo : lo ≤ a
  · exact ⟨0, hn, by omega, by omega⟩
  · exact ⟨lo - a, by omega, by omega, by omega⟩

theorem arenaMeets_byte {w : Word} {tile here : Bool} {a n : Nat} (hn : 0 < n) (h : arenaMeets w tile here a n = true) :
    ∃ i < n, arenaMeets w tile here (a + i) 1 = true := by
  unfold arenaMeets at h ⊢
  dsimp only at h ⊢
  rw [Bool.and_eq_true, Bool.and_eq_true] at h
  obtain ⟨⟨h1, h2⟩, h3⟩ := h
  have hc : field w 15 0 ≠ 0 := by simpa using h1
  obtain ⟨i, hi, hm⟩ := meets_byte hn (by omega) h3
  refine ⟨i, hi, ?_⟩
  rw [h1, h2, hm]
  rfl

theorem State.inArena_bytes {s : State} {ctx cl a n : Nat} {tile : Bool} (hn : 0 < n) (h : ∀ i < n, s.inArena ctx cl tile (a + i) 1 = false) :
    s.inArena ctx cl tile a n = false := by
  rw [← Bool.not_eq_true]
  intro hm
  simp only [State.inArena, List.any_eq_true, Bool.and_eq_true] at hm
  obtain ⟨c, hc, ⟨t, ht, hm⟩, hx⟩ := hm
  obtain ⟨i, hi, hm⟩ := arenaMeets_byte hn hm
  refine Bool.eq_false_iff.mp (h i hi) ?_
  simp only [State.inArena, List.any_eq_true, Bool.and_eq_true]
  exact ⟨c, hc, ⟨t, ht, hm⟩, hx⟩

theorem State.inSpill_bytes {s : State} {ctx a n : Nat} (hn : 0 < n) (h : ∀ i < n, s.inSpill ctx (a + i) 1 = false) : s.inSpill ctx a n = false := by
  rw [← Bool.not_eq_true]
  intro hm
  unfold State.inSpill at hm h
  dsimp only at hm h
  rw [Bool.and_eq_true, Bool.and_eq_true] at hm
  obtain ⟨⟨h1, h2⟩, h3⟩ := hm
  have hs : (s.ctx ctx).spillSize ≠ 0 := by simpa using h2
  obtain ⟨i, hi, hm⟩ := meets_byte hn (by omega) h3
  refine Bool.eq_false_iff.mp (h i hi) ?_
  rw [h1, h2, hm]
  rfl

theorem State.guardStore_bytes {s : State} {cl ctx a n : Nat} {tile : Bool} (y : Word) (hn : 0 < n)
    (h : ∀ i < n, s.inArena ctx cl tile (a + i) 1 = false) (hs : tile = false → ∀ i < n, s.inSpill ctx (a + i) 1 = false) :
    s.guardStore cl ctx tile a n y = .ok () := by
  rw [State.guardStore, State.inArena_bytes hn h]
  cases tile with
  | true => rfl
  | false => rw [State.inSpill_bytes hn (hs rfl)]; rfl

/-- An element whose bytes can be written lies at its place. -/
theorem State.eltPlace_writable {s : State} {c : Cls} {pl : Nat → Nat} {y : Word} (h : writable s c pl y 4) :
    s.eltPlace true ⟨y, 4⟩ = .ok (spotOf pl y, s) := by
  rcases h with ⟨ht, hpin⟩ | ⟨htag, -, hserved⟩
  · rw [State.eltPlace, if_pos (spaceTag_of ht.1 (by decide)), spotOf_tile ht.1]
    have hp : s.unpinned (tileKey s.curCl (addr56 y)) = .ok () := by
      rw [State.unpinned, show s.pinnedFor s.party (tileKey s.curCl (addr56 y) / 64) = false from (hpin 0 (by decide)).1]
      rfl
    have hg : s.guardStore s.curCl s.curCtx true (addr56 y) 4 y = .ok () :=
      State.guardStore_bytes y (by decide) (fun i hi => (hpin i hi).2) nofun
    dsimp only
    rw [inTile_owned ht, hp, hg]
    rfl
  · have hl : s.locate s.curCl s.curCtx (addr56 y) true = .ok (.home (lineAt pl (addr56 y)), s) := (hserved 0 (by decide)).1.1
    have hg : s.guardStore s.curCl s.curCtx false (addr56 y) 4 y = .ok () :=
      State.guardStore_bytes y (by decide) (fun i hi => (hserved i hi).2.1) fun _ i hi => (hserved i hi).2.2
    rw [State.eltPlace, if_neg (by rw [spaceTag_of htag (by decide)]; decide), spotOf_home htag, hl]
    dsimp only [bind, Except.bind]
    rw [if_pos rfl, hg]

theorem State.eltsPlace_placed {s : State} {write : Bool} {pl : Nat → Nat} {addr : Nat → Word} : ∀ {es : List Nat},
    (∀ e ∈ es, s.eltPlace write ⟨addr e, 4⟩ = .ok (spotOf pl (addr e), s)) →
    s.eltsPlace write none (es.map fun e => ⟨addr e, 4⟩) = .ok (placedAt pl addr es, s)
  | [], _ => rfl
  | e :: es, h => by
    rw [List.forall_mem_cons] at h
    rw [List.map_cons, State.eltsPlace, h.1]
    dsimp only
    rw [State.eltsPlace_placed h.2]
    rfl

theorem spotOf_local (pl : Nat → Nat) (y : Word) : (∃ t, spotOf pl y = .tile t) ∨ ∃ pa, spotOf pl y = .mem (.home pa) := by
  unfold spotOf
  split
  · exact .inl ⟨_, rfl⟩
  · exact .inr ⟨_, rfl⟩

/-- No element of such an access lies in another package. -/
theorem State.eltsRemote_placed (s : State) (c : Cls) (store : Bool) (pl : Nat → Nat) (addr : Nat → Word) (es : List Nat) :
    s.eltsRemote c store (placedAt pl addr es) = .ok () := by
  unfold State.eltsRemote
  dsimp only
  split
  · rfl
  · next x _ heq =>
    obtain ⟨p, hp, h⟩ := List.mem_filterMap.mp (heq ▸ List.mem_cons_self)
    obtain ⟨e, -, rfl⟩ := List.mem_map.mp hp
    dsimp only at h
    obtain ⟨t, ht⟩ | ⟨pa, ht⟩ := spotOf_local pl (addr e) <;> rw [ht] at h <;> exact absurd h nofun

theorem remoteElts_placed (pl : Nat → Nat) (addr : Nat → Word) (es : List Nat) : remoteElts (placedAt pl addr es) = [] := by
  rw [remoteElts, List.filterMap_eq_nil_iff]
  rintro ⟨x, i⟩ hx
  obtain ⟨e, -, rfl⟩ := List.mem_map.mp (List.fst_mem_of_mem_zipIdx hx)
  obtain ⟨t, ht⟩ | ⟨pa, ht⟩ := spotOf_local pl (addr e) <;> rw [ht]

/-! ## The home lines of an access -/

theorem mem_insLine {x z : Nat × Nat × Loc} : ∀ {l : List (Nat × Nat × Loc)}, z ∈ insLine x l → z = x ∨ z ∈ l
  | [], h => .inl (List.mem_singleton.mp h)
  | y :: ys, h => by
    rw [insLine] at h
    split at h
    · exact List.mem_cons.mp h
    · split at h
      · next he =>
        rcases List.mem_cons.mp h with rfl | h
        · by_cases hlt : x.2.1 < y.2.1
          · left
            rw [if_pos hlt, Nat.min_eq_left (by omega)]
          · right
            rw [if_neg hlt, Nat.min_eq_right (by omega), he]
            exact List.mem_cons_self
        · exact .inr (List.mem_cons_of_mem _ h)
      · rcases List.mem_cons.mp h with rfl | h
        · exact .inr List.mem_cons_self
        · exact (mem_insLine h).imp id (List.mem_cons_of_mem _)

theorem insLine_length (x : Nat × Nat × Loc) : ∀ l, (insLine x l).length ≤ l.length + 1
  | [] => Nat.le_refl _
  | y :: ys => by
    have := insLine_length x ys
    rw [insLine]
    split
    · exact Nat.le_refl _
    · split <;> simp only [List.length_cons] <;> omega

theorem homeLines_of (l : List (Elt × Spot)) : (∀ z ∈ homeLines l, ∃ x ∈ l, homeLineOf x = some z) ∧ (homeLines l).length ≤ l.length := by
  have h : ∀ (q acc : List (Nat × Nat × Loc)),
      (∀ z ∈ q.foldl (fun acc x => insLine x acc) acc, z ∈ q ∨ z ∈ acc) ∧
        (q.foldl (fun acc x => insLine x acc) acc).length ≤ q.length + acc.length := by
    intro q
    induction q with
    | nil => exact fun acc => ⟨fun z hz => .inr hz, by simp⟩
    | cons x q ih =>
      intro acc
      obtain ⟨h1, h2⟩ := ih (insLine x acc)
      have := insLine_length x acc
      refine ⟨fun z hz => ?_, by rw [List.foldl_cons, List.length_cons]; omega⟩
      rcases h1 z hz with hz | hz
      · exact .inl (List.mem_cons_of_mem _ hz)
      · rcases mem_insLine hz with rfl | hz
        · exact .inl List.mem_cons_self
        · exact .inr hz
  obtain ⟨h1, h2⟩ := h (l.filterMap homeLineOf) []
  have := List.length_filterMap_le homeLineOf l
  refine ⟨fun z hz => ?_, h2.trans (by rw [List.length_nil]; omega)⟩
  exact List.mem_filterMap.mp ((h1 z hz).resolve_right nofun)

/-- The lines of an access are those of its elements in home memory. -/
theorem homeLines_placed {pl : Nat → Nat} {addr : Nat → Word} {es : List Nat} {z : Nat × Nat × Loc} (hz : z ∈ homeLines (placedAt pl addr es)) :
    ∃ e ∈ es, spaceTag (addr e) ≠ 1 ∧ z = (addr56 (addr e) / 64, addr56 (addr e), .home (lineAt pl (addr56 (addr e)))) := by
  obtain ⟨x, hx, h⟩ := (homeLines_of _).1 z hz
  obtain ⟨e, he, rfl⟩ := List.mem_map.mp hx
  unfold homeLineOf spotOf at h
  by_cases ht : spaceTag (addr e) = 1
  · rw [if_pos ht] at h
    exact absurd h nofun
  · rw [if_neg ht] at h
    exact ⟨e, he, ht, (Option.some.inj h).symm⟩

theorem homeLines_length (pl : Nat → Nat) (addr : Nat → Word) (es : List Nat) : (homeLines (placedAt pl addr es)).length ≤ es.length :=
  (homeLines_of _).2.trans (by rw [placedAt, List.length_map])

/-! ## Lines made ready for a read (R322, R323) -/

/-- A line that a read finds in order: not lost, not pinned against the acting party, without an error, resident or not. -/
structure State.LineReady (s : State) (line : Nat) : Prop where
  notLost : s.isLost line = false
  unpinned : s.pinnedFor s.party line = false
  sound : s.l2At line = none → s.hbmBad line = false
  noError : ∀ l, s.l2At line = some l → l.inj = .none ∧ l.poisoned = false

theorem State.lineReady_of {s : State} {ga pa : Nat} (h : usable s ga pa) : s.LineReady (pa / 64) := by
  obtain ⟨-, -, h1, h2, h3, -, h4⟩ := h
  exact ⟨h1, h2, h3, h4⟩

/-- There is room for a line while fewer lines than a slice's are resident. -/
theorem hasRoom_of {s : State} (h : s.l2.length < 16384) (line : Nat) : hasRoom s line := fun _ =>
  Nat.lt_of_le_of_lt (List.length_filter_le _ _) h

theorem State.setL2_length (s : State) (line : Nat) (l : L2Line) : (s.setL2 line l).l2.length ≤ s.l2.length + 1 := by
  change (List.filter _ s.l2).length + 1 ≤ _
  have := List.length_filter_le (fun x : Nat × L2Line => x.1 != line) s.l2
  omega

/-- A read of such a line keeps every byte, and every line that was ready is so after it. -/
theorem State.homeRead_ready {s : State} {line : Nat} (h : s.LineReady line) (hr : s.l2.length < 16384) (own : Option Nat) :
    ∃ t, s.homeRead line own = .ok t ∧ s.HomeKept t ∧ memSame s t ∧ (∀ m, s.LineReady m → t.LineReady m) ∧
      t.l2.length ≤ s.l2.length + 1 := by
  have room := hasRoom_of hr line
  unfold State.homeRead
  rw [h.notLost, if_neg Bool.false_ne_true]
  cases hl : s.l2At line with
  | none =>
    have hbad := h.sound hl
    have hk := State.fill_kept hl room own
    have hat := State.fill_l2At hl room own
    have hbm : (s.fill line own).badHbm = s.badHbm := by
      rw [State.fill_eq hl room, hbad]
      rfl
    dsimp only
    rw [hbad, if_neg Bool.false_ne_true]
    refine ⟨_, rfl, hk, State.fill_memSame hl room own, fun m hm => ⟨(hk.isLost m).trans hm.notLost, ?_, fun hn => ?_, fun l hs => ?_⟩, ?_⟩
    · have := hm.unpinned
      rw [hk.eq]
      exact this
    · rw [hat] at hn
      split at hn
      · exact absurd hn nofun
      · have := hm.sound hn
        unfold State.hbmBad at this ⊢
        rw [hbm]
        simpa only [hk.hbmAddr] using this
    · rw [hat] at hs
      split at hs
      · rw [← Option.some.inj hs]
        exact ⟨rfl, hbad⟩
      · exact hm.noError l hs
    · rw [State.fill_eq hl room, hbad]
      exact State.setL2_length s line _
  | some l =>
    obtain ⟨hi, hp⟩ := h.noError l hl
    dsimp only
    rw [hi]
    dsimp only
    rw [hp]
    exact ⟨s, rfl, .refl s, memSame_refl s, fun _ h => h, Nat.le_succ _⟩

theorem State.touch_ready {s : State} {pa : Nat} (h : s.LineReady (pa / 64)) (hr : s.l2.length < 16384) (va : Nat) :
    ∃ t, s.touch (.home pa) va = .ok t ∧ s.HomeKept t ∧ memSame s t ∧ (∀ m, s.LineReady m → t.LineReady m) ∧
      t.l2.length ≤ s.l2.length + 1 := by
  obtain ⟨t, ht, hrest⟩ := State.homeRead_ready h hr s.ownTag
  refine ⟨t, ?_, hrest⟩
  simp only [State.touch, State.touchAs, h.unpinned, Bool.false_eq_true, if_false, ht]

/-- Lines of home memory that are ready, read in order. -/
theorem State.touchAll_ready : ∀ {l : List (Nat × Nat × Loc)} {s : State}, (∀ z ∈ l, ∃ pa, z.2.2 = .home pa ∧ s.LineReady (pa / 64)) →
    s.l2.length + l.length ≤ 16384 → ∃ t, s.touchAll l = .ok t ∧ s.HomeKept t ∧ memSame s t
  | [], s, _, _ => ⟨s, rfl, .refl s, memSame_refl s⟩
  | (_, va, loc) :: l, s, h, hr => by
    rw [List.forall_mem_cons] at h
    obtain ⟨⟨pa, rfl, hp⟩, h⟩ := h
    rw [List.length_cons] at hr
    obtain ⟨t, ht, hk, hm, hready, hlen⟩ := State.touch_ready hp (by omega) va
    obtain ⟨u, hu, hk2, hm2⟩ := State.touchAll_ready (l := l) (s := t) (fun z hz => by
      obtain ⟨pa, he, hl⟩ := h z hz
      exact ⟨pa, he, hready _ hl⟩) (by omega)
    exact ⟨u, by rw [State.touchAll, ht]; exact hu, hk.trans hk2, memSame_trans hm hm2⟩

/-! ## Lines race-checked (R264) -/

/-- A race check that a line passes changes the records, and STAT of the acting agent at most. -/
theorem State.raceAccess_kept {s t : State} {line : Nat} {store : Bool} (h : s.raceAccess line store = .ok t) :
    ∃ r, t = { s with recs := r } ∨ t = ({ s with recs := r } : State).setStat statRACEUP := by
  unfold State.raceAccess at h
  split at h
  · exact ⟨s.recs, .inl (Except.ok.inj h).symm⟩
  · split at h
    · exact ⟨_, .inl (Except.ok.inj h).symm⟩
    · split at h
      · exact ⟨_, .inr (Except.ok.inj h).symm⟩
      · exact absurd h nofun

theorem State.raceNote_kept (s : State) (c : Cls) (store : Bool) (x : Nat × Nat × Loc) :
    ∃ r, s.raceNote c store x = { s with recs := r } ∨ s.raceNote c store x = ({ s with recs := r } : State).setStat statRACEUP := by
  unfold State.raceNote State.race
  split
  · next t h =>
    split at h
    · split at h
      · exact ⟨s.recs, .inl (Except.ok.inj h).symm⟩
      · split at h
        · next u hu =>
          rw [← Except.ok.inj h]
          exact State.raceAccess_kept hu
        · exact absurd h nofun
    · exact ⟨s.recs, .inl (Except.ok.inj h).symm⟩
    · exact ⟨s.recs, .inl (Except.ok.inj h).symm⟩
  · exact ⟨s.recs, .inl rfl⟩

/-- What lines that pass a race check leave: new records, and STAT of the acting stream at most. -/
structure State.RaceKept (core : Nat) (s t : State) : Prop where
  eq : t = { s with recs := t.recs, cores := t.cores }
  word : s.WordKept core t
  v : (t.core core).v = (s.core core).v

theorem State.RaceKept.trans {core : Nat} {r s t : State} (h1 : State.RaceKept core r s) (h2 : State.RaceKept core s t) :
    State.RaceKept core r t := ⟨by rw [h2.eq, h1.eq], h1.word.trans h2.word, h2.v.trans h1.v⟩

theorem State.raceNotes_kept {core : Nat} (c : Cls) (store : Bool) : ∀ (l : List (Nat × Nat × Loc)) {s : State}, s.cur = .stream core .X →
    State.RaceKept core s (l.foldl (fun s x => s.raceNote c store x) s)
  | [], s, _ => ⟨rfl, .refl s, rfl⟩
  | x :: l, s, hc => by
    have h : State.RaceKept core s (s.raceNote c store x) := by
      obtain ⟨r, h | h⟩ := State.raceNote_kept s c store x
      · rw [h]
        exact ⟨rfl, .of_cores, rfl⟩
      · have hr : ({ s with recs := r } : State).cur = .stream core .X := hc
        have hw : s.WordKept core { s with recs := r } := .of_cores
        rw [h, State.setStat_stream hr]
        exact ⟨rfl, hw.trans (.of_updStrm ⟨_, _, _, _, _, rfl⟩), State.updStrm_vregs _ _ _ _ _⟩
    exact h.trans (State.raceNotes_kept c store l (h.word.cur.trans hc))

/-- Lines of which no access meets a race pass the check. -/
theorem State.raceAll_unraced {s : State} {core : Nat} (hc : s.cur = .stream core .X) {c : Cls} {store : Bool} {l : List (Nat × Nat × Loc)}
    (h : ∀ z ∈ l, ∃ pa, z.2.2 = .home pa ∧ unraced s pa c store) : ∃ t, s.raceAll c store l = .ok t ∧ State.RaceKept core s t := by
  have hn : s.raceBad c store l = none := by
    rw [State.raceBad, List.findSome?_eq_none_iff]
    intro z hz
    obtain ⟨pa, he, hu⟩ := h z hz
    rw [he]
    dsimp only [State.race]
    cases hp : c.isPlain with
    | false => rfl
    | true =>
      unfold State.raceAccess
      cases hk : s.kernelOf s.curCore with
      | none => rfl
      | some k =>
        dsimp only
        rw [hu hp k hk]
        rfl
  exact ⟨_, by rw [State.raceAll, hn], State.raceNotes_kept c store l hc⟩

end Sys2Proof.Machine
end
section
/-! SUPPORT. What the reads of one vector load see (R191, R262): each may miss no more than a read made before all of them. -/

namespace Sys2Proof.Machine

open Statements

/-! ## Writes that readers may miss, as more of them is seen -/

/-- A kept write of which more streams have seen it. -/
def PastWrite.SeenMore (a b : PastWrite) : Prop := ∃ l, b = { a with known := l } ∧ ∀ x ∈ a.known, x ∈ l

theorem PastWrite.SeenMore.refl (a : PastWrite) : a.SeenMore a := ⟨_, rfl, fun _ h => h⟩

theorem PastWrite.SeenMore.trans {a b c : PastWrite} (h1 : a.SeenMore b) (h2 : b.SeenMore c) : a.SeenMore c := by
  obtain ⟨_, rfl, hl⟩ := h1
  obtain ⟨m, rfl, hm⟩ := h2
  exact ⟨m, rfl, fun x h => hm x (hl x h)⟩

/-- Kept writes of which more has been seen, each in its place. -/
abbrev PastsSeenMore : List PastWrite → List PastWrite → Prop := List.Forall₂ PastWrite.SeenMore

theorem PastsSeenMore.refl (l : List PastWrite) : PastsSeenMore l l := List.forall₂_same.mpr fun a _ => .refl a

theorem PastsSeenMore.trans : ∀ {l m n : List PastWrite}, PastsSeenMore l m → PastsSeenMore m n → PastsSeenMore l n
  | _, _, _, .nil, .nil => .nil
  | _, _, _, .cons h1 t1, .cons h2 t2 => .cons (h1.trans h2) (PastsSeenMore.trans t1 t2)

theorem knowPast_go_seenMore (s : State) (gth : Bool) (key n : Nat) : ∀ (l : List PastWrite) (k : Nat),
    PastsSeenMore l (State.knowPast.go s gth key n k l)
  | [], _ => .nil
  | e :: l, k => by
    rw [State.knowPast.go]
    split
    · exact .cons (.refl e) (knowPast_go_seenMore s gth key n l k)
    · split
      · refine .cons ?_ (knowPast_go_seenMore s gth key n l 0)
        split
        · exact .refl e
        · exact ⟨_, rfl, fun _ h => List.mem_cons_of_mem _ h⟩
      · exact .cons (.refl e) (knowPast_go_seenMore s gth key n l (k - 1))

/-! ## What the reads of a load keep -/

/-- What the reads of a vector load keep: every byte, the vector registers, the stream as a vector access keeps it, and the kept writes but
for who has seen them. -/
structure State.ReadKept (core : Nat) (s t : State) : Prop where
  word : s.WordKept core t
  v : (t.core core).v = (s.core core).v
  mem : memSame s t
  late : t.late = s.late
  past : PastsSeenMore s.past t.past

namespace State.ReadKept

variable {core : Nat} {r s t : State}

theorem refl (s : State) : s.ReadKept core s := ⟨.refl s, rfl, memSame_refl s, rfl, .refl _⟩

theorem trans (h1 : r.ReadKept core s) (h2 : s.ReadKept core t) : r.ReadKept core t :=
  ⟨h1.word.trans h2.word, h2.v.trans h1.v, memSame_trans h1.mem h2.mem, h2.late.trans h1.late, h1.past.trans h2.past⟩

theorem of_home (h : s.HomeKept t) (hm : memSame s t) : s.ReadKept core t := by
  have hc : t.cores = s.cores := by rw [h.eq]
  have hp : t.past = s.past := by rw [h.eq]
  refine ⟨.of_cores hc (by rw [h.eq]), by rw [State.core, hc]; rfl, hm, by rw [h.eq], ?_⟩
  rw [hp]
  exact .refl _

theorem of_race (h : State.RaceKept core s t) : s.ReadKept core t := by
  have hp : t.past = s.past := by rw [h.eq]
  refine ⟨h.word, h.v, ?_, by rw [h.eq], ?_⟩
  · rw [h.eq]
    exact memSame_fields
  · rw [hp]
    exact .refl _

theorem of_past {l : List PastWrite} (h : PastsSeenMore s.past l) : s.ReadKept core { s with past := l } :=
  ⟨.of_cores, rfl, memSame_fields, rfl, h⟩

theorem noteSeen (hc : s.cur = .stream core .X) (rs : List Release) : s.ReadKept core (s.noteSeen rs) := by
  unfold State.noteSeen
  dsimp only
  split
  · exact .refl s
  · unfold State.setSeen
    rw [hc]
    exact ⟨.of_updStrm ⟨_, _, _, _, _, rfl⟩, State.updStrm_vregs _ _ _ _ _, memSame_fields, rfl, .refl _⟩

/-- The order that a read of a vector load brings. -/
theorem readOrder (hc : s.cur = .stream core .X) (pa n : Nat) {c : Cls} (hs : c.isStrong = false) : s.ReadKept core (s.readOrder pa n c) := by
  cases c with
  | plain => exact .refl s
  | gather w => exact .refl s
  | weak => exact noteSeen hc _
  | strong => exact absurd hs nofun

end State.ReadKept

/-! ## What a read may miss -/

section

variable {core : Nat} {s u : State} (hc : s.cur = .stream core .X) (h : s.ReadKept core u)

include hc h

theorem State.ReadKept.me : ∃ st l p g q, u.me = { s.me with
    hart := { s.me.hart with stat := st }, seen := l, vecPos := p, vecGot := g, vstPos := q } := by
  rw [State.me_stream (h.word.cur.trans hc), State.me_stream hc]
  exact h.word.strm

/-- What is seen for certain stays so. -/
theorem State.seesPast_kept {gth : Bool} {a b : PastWrite} (hab : a.SeenMore b) (hs : s.seesPast gth a = true) : u.seesPast gth b = true := by
  obtain ⟨l, rfl, hl⟩ := hab
  obtain ⟨_, _, _, _, _, hme⟩ := State.ReadKept.me hc h
  have hu := h.word.cur.trans hc
  unfold State.seesPast at hs ⊢
  rw [State.curCore_stream hc, State.curSt_stream hc] at hs
  rw [State.curCore_stream hu, State.curSt_stream hu, hme]
  dsimp only at hs ⊢
  simp only [Bool.or_eq_true, List.contains_iff_mem] at hs ⊢
  exact hs.imp id fun hk => hl _ hk

/-- A later read of a load misses a first part of what a read before it may miss. -/
theorem State.unseen_kept (gth : Bool) (key n : Nat) : (u.unseen gth key n).map (·.old) <+: (s.unseen gth key n).map (·.old) := by
  unfold State.unseen
  have hp := h.past
  revert hp
  generalize s.past = l
  generalize u.past = m
  intro hp
  induction hp with
  | nil => exact List.prefix_rfl
  | @cons a b l m hab _ ih =>
    have hold : b.old = a.old := by obtain ⟨_, rfl, -⟩ := hab; rfl
    have hmeets : b.meets key n = a.meets key n := by unfold PastWrite.meets; rw [hold]
    rw [List.filter_cons, List.filter_cons, hmeets]
    split
    · rw [List.takeWhile_cons, List.takeWhile_cons]
      cases hb : u.seesPast gth b with
      | true => exact List.nil_prefix
      | false =>
        have ha : s.seesPast gth a = false := by
          rw [← Bool.not_eq_true]
          intro ha
          rw [State.seesPast_kept hc h hab ha] at hb
          exact absurd hb nofun
        rw [ha]
        simp only [Bool.not_false, if_true, List.map_cons, hold]
        exact (List.prefix_cons_inj _).mpr ih
    · exact ih

end

/-- A byte as it stood before one write, of which the old bytes are given. -/
def byteUnder (key : Nat) (b : Byte) (old : List (Nat × Byte)) : Byte := match old.find? (·.1 == key) with | some x => x.2 | none => b

theorem byteBefore_map (l : List PastWrite) (key : Nat) (b : Byte) : byteBefore l key b = (l.map (·.old)).foldl (byteUnder key) b :=
  (List.foldl_map (f := fun e : PastWrite => e.old) (g := byteUnder key) (l := l) (init := b)).symm

/-- A byte before the newest of some writes, where the old bytes agree. -/
theorem byteBefore_take {l m : List PastWrite} {k : Nat} (h : m.map (·.old) <+: l.map (·.old)) (hk : k ≤ m.length) (key : Nat) (b : Byte) :
    byteBefore (m.take k) key b = byteBefore (l.take k) key b := by
  obtain ⟨r, hr⟩ := h
  rw [byteBefore_map, byteBefore_map, List.map_take, List.map_take, ← hr, List.take_append_of_le_length (by rw [List.length_map]; exact hk)]

/-- Four bytes seen by a read of a vector load: those before the newest k of the writes that a read before the load may miss. -/
def seenBytes (s : State) (c : Cls) (key k : Nat) (f : Nat → Byte) : List Byte := (List.range 4).map (missed s c key 4 k f)

section

variable {core : Nat} {s u : State} (hc : s.cur = .stream core .X) (h : s.ReadKept core u)

include hc h

/-- A read of a vector load sees its bytes but for no more than a read before the load may miss. -/
theorem State.seeBytes_kept {c : Cls} (hs : c.isStrong = false) (key : Nat) (f : Nat → Byte) : ∃ k, mayMiss s c key 4 k ∧
    (u.seeBytes key ((List.range 4).map f) c false).1 = seenBytes s c key k f ∧ s.ReadKept core (u.seeBytes key ((List.range 4).map f) c false).2 := by
  have hu := h.word.cur.trans hc
  have hnone : seenBytes s c key 0 f = (List.range 4).map f := rfl
  have h0 : mayMiss s c key 4 0 := ⟨Nat.zero_le _, fun _ => rfl⟩
  have know (g : Bool) (k : Nat) : s.ReadKept core (u.knowPast g key 4 k) := h.trans (.of_past (knowPast_go_seenMore u g key 4 u.past k))
  have order {t : State} (ht : s.ReadKept core t) : s.ReadKept core (t.readOrder key 4 c) := ht.trans (.readOrder (ht.word.cur.trans hc) key 4 hs)
  unfold State.seeBytes State.viewRead
  have hlen : ((List.range 4).map f).length = 4 := rfl
  rw [hs, hlen]
  dsimp only
  split
  · exact ⟨0, h0, hnone.symm, order h⟩
  · split
    · refine ⟨0, h0, hnone.symm, ?_⟩
      dsimp only
      rw [if_pos rfl]
      split
      · exact order h
      · exact order (know _ 0)
    · next hl =>
      have hlate : s.late = true := by
        rw [← h.late]
        cases hx : u.late with
        | true => rfl
        | false => simp [hx] at hl
      have hf : s.ReadKept core u.free.2 := h.trans ⟨.of_cores, rfl, memSame_fields, rfl, .refl _⟩
      have hpre := State.unseen_kept hc h c.isGather key 4
      have hle := hpre.length_le
      rw [List.length_map, List.length_map] at hle
      have hk : u.free.1.toNat % ((u.unseen c.isGather key 4).length + 1) ≤ (u.unseen c.isGather key 4).length :=
        Nat.le_of_lt_succ (Nat.mod_lt _ (Nat.succ_pos _))
      generalize u.free.1.toNat % ((u.unseen c.isGather key 4).length + 1) = k at hk ⊢
      refine ⟨k, ⟨hk.trans hle, fun hx => ?_⟩, ?_, ?_⟩
      · rw [hs, hlate] at hx
        rcases hx with hx | hx <;> exact absurd hx nofun
      · have hz : ((List.range 4).map f).zipIdx = [(f 0, 0), (f 1, 1), (f 2, 2), (f 3, 3)] := rfl
        rw [hz]
        simp only [List.map_cons, List.map_nil, byteBefore_take hpre hk]
        rfl
      · have : s.ReadKept core (if c.isWeak then u.free.2 else u.free.2.knowPast c.isGather key 4 k) := by
          split
          · exact hf
          · exact hf.trans (.of_past (knowPast_go_seenMore u.free.2 _ key 4 _ k))
        dsimp only
        split
        · exact order this
        · exact this

end

end Sys2Proof.Machine
end
section
/-! SUPPORT. Vector loads (R188 to R191). -/

namespace Sys2Proof.Machine

open Host (Outcome)
open Statements

/-! ## The bytes of the elements -/

theorem byteAt_congr {s t : State} (hcl : t.curCl = s.curCl) (hm : memSame s t) (pl : Nat → Nat) (y : Word) : byteAt t pl y = byteAt s pl y := by
  obtain ⟨hp, -, hc⟩ := hm
  funext i
  unfold byteAt tileAt
  rw [hp, hcl, hc]

theorem physBytes_four (s : State) (pa : Nat) : s.physBytes pa 4 = (List.range 4).map fun i => s.physByte (pa + i) := rfl

theorem memBytes_four (m : Memory) (a : Nat) : memBytes m a 4 = (List.range 4).map fun i => memByte m (a + i) := rfl

/-- Four bytes of an aligned place lie in its line. -/
theorem lineAt_add (pl : Nat → Nat) {a i : Nat} (ha : a % 4 = 0) (hi : i < 4) : lineAt pl (a + i) = lineAt pl a + i := by
  unfold lineAt
  rw [show (a + i) / 64 = a / 64 by omega]
  omega

section

variable {s : State} {pl : Nat → Nat} {y : Word} (ht : y.extractLsb' 56 8 = 0#8 ∨ y.extractLsb' 56 8 = 1#8)

include ht

/-- The bytes at an element's place. -/
theorem State.eltRaw_spotOf (ha : addr56 y % 4 = 0) (i : Nat) : s.eltRaw i (⟨y, 4⟩, spotOf pl y) = (List.range 4).map (byteAt s pl y) := by
  rcases ht with ht | ht
  · rw [spotOf_home ht]
    refine (physBytes_four s _).trans (List.map_congr_left fun i hi => ?_)
    unfold byteAt
    rw [if_neg (by rw [ht]; decide), ← addr56_eq, lineAt_add pl ha (List.mem_range.mp hi)]
  · rw [spotOf_tile ht]
    refine (memBytes_four _ _).trans (List.map_congr_left fun i _ => ?_)
    unfold byteAt
    rw [if_pos ht]
    rfl

theorem State.eltKey_spotOf : s.eltKey (⟨y, 4⟩, spotOf pl y) = keyAt s pl y := by
  unfold keyAt
  rcases ht with ht | ht
  · rw [spotOf_home ht, if_neg (by rw [ht]; decide)]
    rfl
  · rw [spotOf_tile ht, if_pos ht]
    rfl

theorem State.eltBytes_spotOf (c : Cls) (i : Nat) : s.eltBytes c false i (⟨y, 4⟩, spotOf pl y) =
    s.seeBytes (s.eltKey (⟨y, 4⟩, spotOf pl y)) (s.eltRaw i (⟨y, 4⟩, spotOf pl y)) c false := by
  rcases ht with ht | ht
  · rw [spotOf_home ht]
    rfl
  · rw [spotOf_tile ht]
    rfl

end

/-- Bytes that a read of the element at an operand may see. -/
def MaySee (s : State) (c : Cls) (pl : Nat → Nat) (y : Word) (bs : List Byte) : Prop :=
  ∃ k, mayMiss s c (keyAt s pl y) 4 k ∧ bs = seenBytes s c (keyAt s pl y) k (byteAt s pl y)

/-- An operand of a vector access that passes its checks: at a global or a tile-space address, and aligned. -/
def OperandFits (y : Word) : Prop := (y.extractLsb' 56 8 = 0#8 ∨ y.extractLsb' 56 8 = 1#8) ∧ addr56 y % 4 = 0

section

variable {core : Nat} {s : State} (hc : s.cur = .stream core .X) {c : Cls} (hs : c.isStrong = false) {pl : Nat → Nat} {addr : Nat → Word}

include hc hs

theorem State.eltBytes_kept {u : State} (h : s.ReadKept core u) {y : Word} (hy : OperandFits y) (i : Nat) :
    MaySee s c pl y (u.eltBytes c false i (⟨y, 4⟩, spotOf pl y)).1 ∧ s.ReadKept core (u.eltBytes c false i (⟨y, 4⟩, spotOf pl y)).2 := by
  obtain ⟨ht, ha⟩ := hy
  have hcl : u.curCl = s.curCl := by
    unfold State.curCl
    rw [State.curCore_stream hc, State.curCore_stream (h.word.cur.trans hc)]
  have hkey : keyAt u pl y = keyAt s pl y := by unfold keyAt; rw [hcl]
  rw [State.eltBytes_spotOf ht, State.eltKey_spotOf ht, State.eltRaw_spotOf ht ha, hkey, byteAt_congr hcl h.mem]
  obtain ⟨k, hk, hb, hr⟩ := State.seeBytes_kept hc h hs (keyAt s pl y) (byteAt s pl y)
  exact ⟨⟨k, hk, hb⟩, hr⟩

theorem State.eltsBytes_kept : ∀ {es : List Nat} {u : State} (i : Nat), s.ReadKept core u → (∀ e ∈ es, OperandFits (addr e)) →
    List.Forall₂ (fun e => MaySee s c pl (addr e)) es (u.eltsBytes c false i (placedAt pl addr es)).1 ∧
      s.ReadKept core (u.eltsBytes c false i (placedAt pl addr es)).2
  | [], _, _, h, _ => ⟨.nil, h⟩
  | e :: es, u, i, h, hf => by
    rw [List.forall_mem_cons] at hf
    obtain ⟨h1, hk⟩ := State.eltBytes_kept hc hs (pl := pl) h hf.1 i
    obtain ⟨h2, hk2⟩ := State.eltsBytes_kept (i + 1) hk hf.2
    exact ⟨.cons h1 h2, hk2⟩

end

theorem MaySee.length {s : State} {c : Cls} {pl : Nat → Nat} {y : Word} {bs : List Byte} (h : MaySee s c pl y bs) : bs.length = 4 := by
  obtain ⟨k, -, rfl⟩ := h
  rw [seenBytes, List.length_map, List.length_range]

/-- The number that the bytes of an element hold. -/
theorem leNat_range_four (f : Nat → Byte) : leNat ((List.range 4).map f) = numberOf f 4 := by
  change leNat [f 0, f 1, f 2, f 3] = _
  simp only [leNat, numberOf]
  omega

/-- Bytes with nothing of a list laid over them. -/
theorem overlay_none : ∀ bs : List Byte, overlay (List.replicate bs.length none) bs = bs
  | [] => rfl
  | b :: bs => congrArg (b :: ·) (overlay_none bs)

theorem overlay_seen {s : State} {c : Cls} {pl : Nat → Nat} {addr : Nat → Word} : ∀ {es : List Nat} {bs : List (List Byte)},
    List.Forall₂ (fun e => MaySee s c pl (addr e)) es bs →
    ((((placedAt pl addr es).map fun x => List.replicate x.1.n none).zip bs).map fun x => overlay x.1 x.2) = bs
  | _, _, .nil => rfl
  | e :: es, b :: bs, .cons h hs => by
    have h4 : overlay (List.replicate 4 none) b = b := by
      have := overlay_none b
      rwa [h.length] at this
    exact congr (congrArg List.cons h4) (overlay_seen hs)

/-! ## The elements read -/

section

variable {core : Nat} {s : State} (hc : s.cur = .stream core .X) {c : Cls} (hs : c.isStrong = false) {pl : Nat → Nat} {addr : Nat → Word}
  {es : List Nat}

include hc hs

/-- Elements that can be read, read. -/
theorem State.gatherWith_placed (hf : ∀ e ∈ es, OperandFits (addr e)) (hr : ∀ e ∈ es, Statements.readable s c pl (addr e) 4)
    (hroom : s.l2.length + es.length ≤ 16384) : ∃ bs u,
    s.gatherWith c false ((placedAt pl addr es).map fun x => List.replicate x.1.n none) (placedAt pl addr es) = .ok (bs, u) ∧
      List.Forall₂ (fun e => MaySee s c pl (addr e)) es bs ∧ s.ReadKept core u := by
  cases es with
  | nil => exact ⟨[], s, rfl, .nil, .refl s⟩
  | cons e es =>
    have hlines : ∀ z ∈ homeLines (placedAt pl addr (e :: es)), ∃ pa, z.2.2 = .home pa ∧ s.LineReady (pa / 64) ∧ unraced s pa c false := by
      intro z hz
      obtain ⟨f, hm, ht, rfl⟩ := homeLines_placed hz
      obtain ⟨h1, -⟩ | ⟨-, -, h⟩ := hr f hm
      · exact absurd (spaceTag_of h1.1 (by decide)) ht
      · obtain ⟨-, hu, hn⟩ := h 0 (by decide)
        exact ⟨_, rfl, State.lineReady_of hu, hn⟩
    obtain ⟨s2, h2, hk2, hm2⟩ := State.touchAll_ready (l := homeLines (placedAt pl addr (e :: es))) (s := s)
      (fun z hz => (hlines z hz).imp fun _ h => ⟨h.1, h.2.1⟩) (by have := homeLines_length pl addr (e :: es); omega)
    have hc2 : s2.cur = .stream core .X := by rw [hk2.eq]; exact hc
    obtain ⟨s3, h3, hk3⟩ := State.raceAll_unraced (s := s2) hc2 (c := c) (store := false) (l := homeLines (placedAt pl addr (e :: es)))
      (fun z hz => (hlines z hz).imp fun pa h => ⟨h.1, by rw [hk2.eq]; exact h.2.2⟩)
    have hk : s.ReadKept core s3 := (State.ReadKept.of_home hk2 hm2).trans (.of_race hk3)
    obtain ⟨hb, hu⟩ := State.eltsBytes_kept hc hs (pl := pl) 0 hk hf
    refine ⟨_, _, ?_, hb, hu⟩
    unfold State.gatherWith
    rw [if_neg (by simp [placedAt, List.replicate])]
    dsimp only
    rw [h2]
    dsimp only [bind, Except.bind]
    rw [h3]
    dsimp only
    rw [overlay_seen hb]

end

/-! ## The elements written to a vector register -/

/-- A vector register with the bytes of elements written to it. -/
def loadElems (es : List Nat) (bs : List (List Byte)) (v : VRegs) : VRegs :=
  (es.zip bs).foldl (fun v x => v.setIfInBounds x.1 (BitVec.ofNat 32 (leNat x.2))) v

theorem loadElems_others {e : Nat} : ∀ {es : List Nat} {bs : List (List Byte)} {v : VRegs}, e ∉ es →
    (loadElems es bs v).getD e 0 = v.getD e 0
  | [], _, _, _ => rfl
  | _ :: _, [], _, _ => rfl
  | f :: es, b :: bs, v, h => by
    rw [List.mem_cons, not_or] at h
    refine (loadElems_others (es := es) (bs := bs) h.2).trans ?_
    rw [getD_setIfInBounds, if_neg fun hx => h.1 hx.1]

theorem loadElems_written {P : Nat → List Byte → Prop} {e : Nat} (he : e < 1024) : ∀ {es : List Nat} {bs : List (List Byte)} {v : VRegs},
    List.Forall₂ P es bs → es.Pairwise (· < ·) → e ∈ es → ∃ b, P e b ∧ (loadElems es bs v).getD e 0 = BitVec.ofNat 32 (leNat b)
  | f :: es, b :: bs, v, .cons h hs, hp, hm => by
    rw [List.pairwise_cons] at hp
    rcases List.mem_cons.mp hm with rfl | hm
    · refine ⟨b, h, (loadElems_others (es := es) (bs := bs) fun hx => Nat.lt_irrefl e (hp.1 e hx)).trans ?_⟩
      rw [getD_setIfInBounds, if_pos ⟨rfl, he⟩]
    · exact loadElems_written (es := es) (bs := bs) (v := v.setIfInBounds f (BitVec.ofNat 32 (leNat b))) he hs hp.2 hm

theorem eltsAt_foldl (m : VMask) (addr : Nat → Word) (bs : List (List Byte)) (v : VRegs) :
    (((eltsAt m addr).zip bs).foldl (fun (v : VRegs) x => v.setIfInBounds x.1.1 (BitVec.ofNat 32 (leNat x.2))) v) =
      loadElems (enabledOf m) bs v := by
  rw [eltsAt, loadElems, List.zip_map_left, List.foldl_map]
  rfl

end Sys2Proof.Machine
end
section
/-! SUPPORT. VLD and VGATH as words (R188 to R191). -/

namespace Sys2Proof.Machine

open Host (Outcome)
open Statements

/-! ## The checks that an access passes (R101, R189) -/

theorem inTile_fits {s : State} {y : Word} (h : inTile s y 4) : s.eltFits y := by
  obtain ⟨ht, hend, hb⟩ := h
  refine .inr ⟨spaceTag_of ht (by decide), ?_⟩
  rintro (hn | ⟨i, hi, -, hn⟩)
  · omega
  · exact hn (hb i hi).1

theorem readable_fits {s : State} {c : Cls} {pl : Nat → Nat} {y : Word} (h : Statements.readable s c pl y 4) : s.eltFits y :=
  h.elim (fun h => inTile_fits h.1) fun h => .inl (spaceTag_of h.1 (by decide))

theorem writable_fits {s : State} {c : Cls} {pl : Nat → Nat} {y : Word} (h : writable s c pl y 4) : s.eltFits y :=
  h.elim (fun h => inTile_fits h.1) fun h => .inl (spaceTag_of h.1 (by decide))

theorem readable_tag {s : State} {c : Cls} {pl : Nat → Nat} {y : Word} (h : Statements.readable s c pl y 4) :
    y.extractLsb' 56 8 = 0#8 ∨ y.extractLsb' 56 8 = 1#8 := h.elim (fun h => .inr h.1.1) fun h => .inl h.1

theorem writable_tag {s : State} {c : Cls} {pl : Nat → Nat} {y : Word} (h : writable s c pl y 4) :
    y.extractLsb' 56 8 = 0#8 ∨ y.extractLsb' 56 8 = 1#8 := h.elim (fun h => .inr h.1.1) fun h => .inl h.1

theorem spaceTag_le {x : Word} (h : x.extractLsb' 56 8 = 0#8 ∨ x.extractLsb' 56 8 = 1#8) : spaceTag x ≤ 1 := by
  rcases h with h | h
  · exact (spaceTag_of h (by decide)).trans_le (by decide)
  · exact (spaceTag_of h (by decide)).le

theorem State.pitchCheck_passes {s : State} {x y : Word} {m : VMask} {addr : Nat → Word} (hx : spaceTag x ≤ 1) (hxa : x.toNat % 64 = 0)
    (hya : y.toNat % 64 = 0) (hf : ∀ e ∈ enabledOf m, s.eltFits (addr e)) : s.pitchCheck x y (eltsAt m addr) = .ok () := by
  rw [State.pitchCheck_fits hx hf, if_neg (by rw [hxa]; decide), if_neg (by rw [hya]; decide)]

theorem State.indexCheck_passes {s : State} {x : Word} {m : VMask} {addr : Nat → Word} (hx : spaceTag x ≤ 1)
    (hf : ∀ e ∈ enabledOf m, s.eltFits (addr e) ∧ addr56 (addr e) % 4 = 0) : s.indexCheck x (eltsAt m addr) = .ok () := by
  have hn : (eltsAt m addr).find? (fun z => addr56 z.2.y % 4 != 0) = none := by
    rw [List.find?_eq_none]
    intro z hz
    obtain ⟨e, he, rfl⟩ := List.mem_map.mp hz
    simp [(hf e he).2]
  unfold State.indexCheck
  rw [if_neg (by omega), eltsAt_elts, State.eltsOperand_fits fun e he => (hf e he).1]
  dsimp only [bind, Except.bind]
  rw [hn]

/-! ## A vector load -/

section

variable {core : Nat} {s : State} (hcore : core < 512) (hc : s.cur = .stream core .X) (hcol : s.collecting = false) (hrem : s.me.remote = [])
  (hroom : roomForAll s) {c : Cls} (hs : c.isStrong = false) {pl : Nat → Nat} {addr : Nat → Word} {m : MReg} (vd : VReg)

theorem State.vreg_setVreg {t : State} (hcore : core < 512) (ht : t.cur = .stream core .X) (v : VRegs) (r : VReg) :
    (t.setVreg vd v).vreg r = if r = vd then v else t.vreg r := by
  have h1 : (t.setVreg vd v).cur = .stream core .X := ht
  rw [State.vreg_eq h1, State.vreg_eq ht, State.setVreg, State.curCore_stream ht, State.core_updCore_same hcore]
  dsimp only
  by_cases h : r = vd
  · subst h
    rw [if_pos rfl]
    exact Vector.getElem_set_self _
  · rw [if_neg h]
    exact Vector.getElem_set_ne _ _ fun e => h (BitVec.eq_of_toNat_eq e.symm)

include hcore hc hcol hrem hroom hs

/-- A vector load whose elements can be read. -/
theorem State.vecLoad_ready (hready : elementsReady s c pl m addr) : ∃ u bs, s.vecLoad vd c (eltsAt (s.mask m) addr) = .ok u ∧
    s.WordKept core u ∧ memSame s u ∧ List.Forall₂ (fun e => MaySee s c pl (addr e)) (enabledOf (s.mask m)) bs ∧
      ∀ r, u.vreg r = if r = vd then loadElems (enabledOf (s.mask m)) bs (s.vreg vd) else s.vreg r := by
  have hread : ∀ e ∈ enabledOf (s.mask m), Statements.readable s c pl (addr e) 4 ∧ (addr e).toNat % 4 = 0 := fun e he =>
    hready (addr e) (List.mem_map_of_mem he)
  have hplace := State.eltsPlace_placed (s := s) (write := false) (pl := pl) (addr := addr) (es := enabledOf (s.mask m))
    fun e he => State.eltPlace_readable (hread e he).1
  have hlen := enabledOf_length (s.mask m)
  unfold roomForAll at hroom
  obtain ⟨bs, u, hg, hb, hk⟩ := State.gatherWith_placed hc hs (pl := pl) (addr := addr) (es := enabledOf (s.mask m))
    (fun e he => ⟨readable_tag (hread e he).1, (addr56_mod _ (by decide)).trans (hread e he).2⟩) (fun e he => (hread e he).1) (by omega)
  have hu := hk.word.cur.trans hc
  have hlist : s.listedAll (placedAt pl addr (enabledOf (s.mask m))) =
      .ok ((placedAt pl addr (enabledOf (s.mask m))).map fun x => List.replicate x.1.n none, s) := by
    rw [State.listedAll, hcol, if_neg Bool.false_ne_true]
  have hawait : s.vecAwait c.isGather ((placedAt pl addr (enabledOf (s.mask m))).map fun x => List.replicate x.1.n none)
      (placedAt pl addr (enabledOf (s.mask m))) = .ok s := by
    unfold State.vecAwait
    dsimp only
    rw [remoteElts_placed, List.filter_nil, List.drop_nil]
    dsimp only [State.vecIssue, bind, Except.bind]
    rw [hrem]
    rfl
  refine ⟨(u.setVreg vd (loadElems (enabledOf (s.mask m)) bs (u.vreg vd))).vecEnd, bs, ?_, ?_, ?_, hb, fun r => ?_⟩
  · unfold State.vecLoad
    rw [eltsAt_elts, hplace]
    dsimp only [viaShadow, bind, Except.bind]
    rw [State.eltsRemote_placed]
    dsimp only
    rw [hlist]
    dsimp only
    rw [hawait]
    dsimp only
    rw [hg]
    dsimp only
    rw [eltsAt_foldl]
  · have hv : (u.setVreg vd (loadElems (enabledOf (s.mask m)) bs (u.vreg vd))).cur = .stream core .X := hu
    have hw : u.WordKept core (u.setVreg vd (loadElems (enabledOf (s.mask m)) bs (u.vreg vd))) := by
      refine ⟨rfl, ?_, ?_⟩
      · rw [State.setVreg, State.updCore_strm_of fun j => by cases j <;> rfl]
        exact .refl _
      · rw [State.setVreg]
        exact State.core_updCore_of Core.dq rfl core
    rw [State.vecEnd, State.updMe_stream hv]
    exact hk.word.trans (hw.trans (.of_updStrm ⟨_, _, _, _, _, rfl⟩))
  · exact memSame_trans hk.mem memSame_fields
  · have hv : (u.setVreg vd (loadElems (enabledOf (s.mask m)) bs (u.vreg vd))).cur = .stream core .X := hu
    have hsame (r : VReg) : u.vreg r = s.vreg r := by rw [State.vreg_eq hu, State.vreg_eq hc, hk.v]
    rw [State.vecEnd, State.updMe_stream hv, State.vreg_updStrm, State.vreg_setVreg vd hcore hu, hsame, hsame]

/-- A word that performs a vector load. -/
theorem loadsElements_of {i : Instr} {g : Guard} {srcs : List XReg} {vs : List Word} {s0 : State} (hb : s.begins g srcs [] vs s0)
    {k : List Word → Except Act State} (hi : exec i s = finish 1 (s.memBegin g srcs [] k))
    (hk : k vs = s.vecLoad vd c (eltsAt (s.mask m) addr)) (hready : elementsReady s c pl m addr) : loadsElements i s c pl m vd addr := by
  obtain ⟨u, bs, hu, hw, hm, hsee, hv⟩ := State.vecLoad_ready hcore hc hcol hrem hroom hs vd hready
  obtain ⟨t, ht, hm2, hregs, -, hv2⟩ := vector_completes hcore hc hb (hk.trans hu) hw
  have hat (v : VRegs) (e : Fin 1024) : v[e] = v.getD e.val 0 := by rw [getD_eq, dif_pos e.isLt]; rfl
  refine ⟨t, hi.trans ht, memSame_trans hm hm2, hregs, fun e he => ?_, fun e he => ?_, fun v hne => ?_⟩
  · rw [hv2, hv, if_pos rfl, hat, hat]
    exact loadElems_others fun hx => by rw [(mem_enabledOf.mp hx).2] at he; exact absurd he nofun
  · obtain ⟨b, ⟨j, hj, rfl⟩, hval⟩ := loadElems_written e.isLt (v := s.vreg vd) hsee (enabledOf_ascending _) (mem_enabledOf.mpr ⟨e.isLt, he⟩)
    refine ⟨j, hj, ?_⟩
    rw [hv2, hv, if_pos rfl, hat, hval, seenBytes, leNat_range_four]
  · rw [hv2, hv, if_neg hne]

end

end Sys2Proof.Machine

namespace Sys2Proof.Proofs

open Machine Statements

section

variable {core : Nat} {s s0 : State} (hcore : core < 512) (hc : s.cur = .stream core .X) (hcol : s.collecting = false) (hrem : s.me.remote = [])
  (hroom : roomForAll s) {g : Guard} {vd : VReg} {a : XReg} {m : MReg} {weak : Bool} {pl : Nat → Nat} {x : Word}
  (hx : x.extractLsb' 56 8 = 0#8 ∨ x.extractLsb' 56 8 = 1#8)

include hcore hc hcol hrem hroom hx

theorem vld_loads {b : XReg} {y : Word} (hb : s.begins g [a, b] [] [x, y] s0) (hxa : x.toNat % 64 = 0) (hya : y.toNat % 64 = 0)
    (h : elementsReady s (if weak then .weak else .plain) pl m (pitchAddr x y)) :
    loadsElements (.vld g vd a b m weak) s (if weak then .weak else .plain) pl m vd (pitchAddr x y) := by
  refine loadsElements_of (k := fun vs => do
    s.pitchCheck (vs.getD 0 0) (vs.getD 1 0) (pitchElts (s.mask m) (vs.getD 0 0) (vs.getD 1 0))
    s.vecLoad vd (vecCls weak) (pitchElts (s.mask m) (vs.getD 0 0) (vs.getD 1 0))) hcore hc hcol hrem hroom (by cases weak <;> rfl) vd hb rfl ?_ h
  have hfit : ∀ e ∈ enabledOf (s.mask m), s.eltFits (pitchAddr x y e) := fun e he => readable_fits (h _ (List.mem_map_of_mem he)).1
  simp only [List.getD_cons_zero, List.getD_cons_succ, pitchElts_eq]
  exact check_then (State.pitchCheck_passes (spaceTag_le hx) hxa hya hfit) _

theorem vgath_loads {vb : VReg} (hb : s.begins g [a] [] [x] s0)
    (h : elementsReady s (.gather weak) pl m fun e => past x ((velem (s.vreg vb) e).setWidth 56)) :
    loadsElements (.vgath g vd a vb m weak) s (.gather weak) pl m vd fun e => past x ((velem (s.vreg vb) e).setWidth 56) := by
  refine loadsElements_of (k := fun vs => do
    s.indexCheck (vs.getD 0 0) (indexElts (s.mask m) (vs.getD 0 0) (s.vreg vb))
    s.vecLoad vd (.gather weak) (indexElts (s.mask m) (vs.getD 0 0) (s.vreg vb))) hcore hc hcol hrem hroom rfl vd hb rfl ?_ h
  simp only [List.getD_cons_zero, indexElts_eq]
  refine check_then (State.indexCheck_passes (spaceTag_le hx) fun e he => ?_) _
  obtain ⟨h1, h2⟩ := h _ (List.mem_map_of_mem he)
  exact ⟨readable_fits h1, (addr56_mod _ (by decide)).trans h2⟩

end

end Sys2Proof.Proofs
end
section
/-! SUPPORT. Bytes put at addresses one after the other, and what a run of a vector store puts in memory (R190, R246, R322). -/

namespace Sys2Proof.Machine

open Statements

/-! ## Bytes put in order -/

/-- A byte after some bytes are put at addresses, in their order. -/
def putAll (w : List (Nat × Byte)) (a : Nat) (v : Byte) : Byte := w.foldl (fun v x => if x.1 = a then x.2 else v) v

theorem putAll_append (w1 w2 : List (Nat × Byte)) (a : Nat) (v : Byte) : putAll (w1 ++ w2) a v = putAll w2 a (putAll w1 a v) := List.foldl_append

theorem putAll_apart {w : List (Nat × Byte)} {a : Nat} (h : ∀ x ∈ w, x.1 ≠ a) (v : Byte) : putAll w a v = v :=
  List.foldlRecOn (motive := fun b => b = v) w _ rfl fun _ hb x hx => by rw [if_neg (h x hx), hb]

/-- Bytes put at addresses that a constant shifts. -/
theorem putAll_shift (k : Nat) (w : List (Nat × Byte)) (a : Nat) (v : Byte) :
    putAll (w.map fun x => (k + x.1, x.2)) (k + a) v = putAll w a v := by
  simp only [putAll, List.foldl_map, Nat.add_left_cancel_iff]

theorem lineByte_lineSets_putAll (d : BitVec 512) (j : Nat) : ∀ w : List (Nat × Byte), (∀ x ∈ w, x.1 < 64) →
    lineByte (lineSets d w) j = putAll w j (lineByte d j) := by
  intro w
  induction w generalizing d with
  | nil => exact fun _ => rfl
  | cons x w ih =>
    intro h
    rw [List.forall_mem_cons] at h
    refine (ih _ h.2).trans ?_
    rw [lineByte_lineSet d h.1, putAll, putAll, List.foldl_cons]
    simp only [eq_comm (a := j)]

theorem memByte_foldl_memPut (t a : Nat) : ∀ (w : List (Nat × Byte)) {m : Memory}, Memory.wf m = true →
    memByte (w.foldl (fun m x => memPut m (t + x.1) x.2) m) a = putAll (w.map fun x => (t + x.1, x.2)) a (memByte m a) := by
  intro w
  induction w with
  | nil => exact fun _ => rfl
  | cons x w ih =>
    intro m h
    rw [List.foldl_cons, ih (memPut_wf _ _ h), memByte_memPut h, List.map_cons, putAll, putAll, List.foldl_cons]
    simp only [eq_comm (a := a)]

/-- What memory holds after bytes are put in home memory and in the acting cluster's tile space, in their order (of an aperture address that
names a byte of a line stored to a second time, R205, nothing is said). -/
structure State.Wrote (s t : State) (home tile : List (Nat × Byte)) : Prop where
  homeBytes : ∀ a, (a < 2 ^ 51 ∨ ∀ x ∈ home, s.hbmAddr a / 64 ≠ x.1 / 64) → t.physByte a = putAll home a (s.physByte a)
  tileBytes : ∀ c a, memByte (t.cluster c).store a =
    if c = s.curCl then putAll tile a (memByte (s.cluster c).store a) else memByte (s.cluster c).store a
  hostBytes : ∀ a, memByte t.host a = memByte s.host a

theorem State.Wrote.of_same {s t : State} (h : memSame s t) : s.Wrote t [] [] := by
  obtain ⟨h1, h2, h3⟩ := h
  refine ⟨fun a _ => h1 a, fun c a => ?_, h2⟩
  rw [h3]
  split <;> rfl

theorem State.Wrote.trans {r s t : State} {h1 h2 t1 t2 : List (Nat × Byte)} (w1 : r.Wrote s h1 t1) (w2 : s.Wrote t h2 t2)
    (ha : ∀ a, s.hbmAddr a = r.hbmAddr a) (hc : s.curCl = r.curCl) : r.Wrote t (h1 ++ h2) (t1 ++ t2) := by
  refine ⟨fun a hx => ?_, fun c a => ?_, fun a => (w2.hostBytes a).trans (w1.hostBytes a)⟩
  · rw [putAll_append, w2.homeBytes a (hx.imp id fun h x hm => by rw [ha]; exact h x (List.mem_append_right _ hm)),
      w1.homeBytes a (hx.imp id fun h x hm => h x (List.mem_append_left _ hm))]
  · rw [w2.tileBytes, w1.tileBytes, hc, putAll_append]
    split <;> rfl

/-! ## What a vector store keeps -/

/-- What the stores of a vector store keep: the stream as a vector access keeps it, the vector registers, where addresses lead and which lines
are lost; no line gains an error, and the tile stores stay in form. -/
structure State.StoreKept (core : Nat) (s t : State) : Prop where
  word : s.WordKept core t
  v : (t.core core).v = (s.core core).v
  addr : ∀ a, t.hbmAddr a = s.hbmAddr a
  lost : ∀ m, t.isLost m = s.isLost m
  sound : ∀ m, (∀ l, s.l2At m = some l → l.inj = .none) → ∀ l, t.l2At m = some l → l.inj = .none
  wf : (∀ c, Memory.wf (s.cluster c).store = true) → ∀ c, Memory.wf (t.cluster c).store = true

namespace State.StoreKept

variable {core : Nat} {r s t : State}

theorem refl (s : State) : s.StoreKept core s := ⟨.refl s, rfl, fun _ => rfl, fun _ => rfl, fun _ h => h, fun h => h⟩

theorem trans (h1 : r.StoreKept core s) (h2 : s.StoreKept core t) : r.StoreKept core t :=
  ⟨h1.word.trans h2.word, h2.v.trans h1.v, fun a => (h2.addr a).trans (h1.addr a), fun m => (h2.lost m).trans (h1.lost m),
    fun m h => h2.sound m (h1.sound m h), fun h => h2.wf (h1.wf h)⟩

theorem curCl (hc : s.cur = .stream core .X) (h : s.StoreKept core t) : t.curCl = s.curCl := by
  unfold State.curCl
  rw [State.curCore_stream hc, State.curCore_stream (h.word.cur.trans hc)]

theorem of_home (h : s.HomeKept t) (hs : ∀ m, (∀ l, s.l2At m = some l → l.inj = .none) → ∀ l, t.l2At m = some l → l.inj = .none) :
    s.StoreKept core t := by
  have hc : t.cores = s.cores := by rw [h.eq]
  exact ⟨.of_cores hc (by rw [h.eq]), by rw [State.core, hc]; rfl, h.hbmAddr, h.isLost, hs, fun hw c => by rw [h.cluster]; exact hw c⟩

theorem of_race (h : State.RaceKept core s t) : s.StoreKept core t := by
  refine ⟨h.word, h.v, fun a => ?_, fun m => ?_, fun m hm l hl => hm l ?_, fun hw c => ?_⟩
  · rw [h.eq]; rfl
  · rw [h.eq]; rfl
  · rw [h.eq] at hl; exact hl
  · rw [h.eq]; exact hw c

/-- The writes kept, the releases and the pins that a write leaves change nothing else. -/
theorem of_notes {p : List PastWrite} {n : Nat} {rs : List Release} {ps : List Pin} :
    s.StoreKept core { s with past := p, stamp := n, releases := rs, pins := ps } :=
  ⟨.of_cores, rfl, fun _ => rfl, fun _ => rfl, fun _ h => h, fun h => h⟩

theorem of_updStrm {f : Stream → Stream} (h : (s.strm core .X).WordKept (f (s.strm core .X))) : s.StoreKept core (s.updStrm core .X f) :=
  ⟨.of_updStrm h, State.updStrm_vregs _ _ _ _ _, fun _ => rfl, fun _ => rfl, fun _ h => h, fun h => h⟩

theorem vreg (hc : s.cur = .stream core .X) (h : s.StoreKept core t) (r : VReg) : t.vreg r = s.vreg r := by
  rw [State.vreg_eq hc, State.vreg_eq (h.word.cur.trans hc), h.v]

end State.StoreKept

/-! ## The notes that a write leaves -/

theorem State.noteStore_notes (s : State) (key : Nat) (old : List (Nat × Byte)) (c : Cls) :
    ∃ p n, s.noteStore key old c = { s with past := p, stamp := n } := by
  unfold State.noteStore
  split
  · exact ⟨_, _, rfl⟩
  · unfold State.settle
    split
    · exact ⟨_, _, rfl⟩
    · exact ⟨_, _, rfl⟩

theorem State.writeOrder_notes (s : State) (pa n : Nat) {c : Cls} (hs : c.isStrong = false) :
    ∃ rs ps, s.writeOrder pa n c false = { s with releases := rs, pins := ps } := by
  cases c with
  | plain => exact ⟨_, s.pins, rfl⟩
  | gather w => exact ⟨_, s.pins, rfl⟩
  | weak => exact ⟨_, _, rfl⟩
  | strong => exact absurd hs nofun

section

variable {core : Nat} (s : State)

theorem State.noteStore_kept (key : Nat) (old : List (Nat × Byte)) (c : Cls) :
    s.StoreKept core (s.noteStore key old c) ∧ memSame s (s.noteStore key old c) ∧ (s.noteStore key old c).l2 = s.l2 := by
  obtain ⟨p, n, h⟩ := State.noteStore_notes s key old c
  rw [h]
  exact ⟨.of_notes, memSame_fields, rfl⟩

theorem State.writeOrder_kept (pa n : Nat) {c : Cls} (hs : c.isStrong = false) :
    s.StoreKept core (s.writeOrder pa n c false) ∧ memSame s (s.writeOrder pa n c false) ∧ (s.writeOrder pa n c false).l2 = s.l2 := by
  obtain ⟨rs, ps, h⟩ := State.writeOrder_notes s pa n hs
  rw [h]
  exact ⟨.of_notes, memSame_fields, rfl⟩

end

/-! ## Lines that become resident -/

/-- The lines resident are those before, but for one line. -/
def State.OneLine (s t : State) (line : Nat) : Prop := t.l2 = s.l2 ∨ ∃ x, t.l2 = (line, x) :: s.l2.filter (·.1 != line)

theorem State.OneLine.setL2 {s t : State} {line : Nat} (h : s.OneLine t line) (l : L2Line) : s.OneLine (t.setL2 line l) line := by
  refine .inr ⟨l, ?_⟩
  unfold State.setL2
  dsimp only
  rcases h with h | ⟨x, h⟩
  · rw [h]
  · rw [h, List.filter_cons, if_neg (by simp), List.filter_filter]
    simp only [Bool.and_self]

theorem State.OneLine.length {s t : State} {line : Nat} (h : s.OneLine t line) : t.l2.length ≤ s.l2.length + 1 := by
  rcases h with h | ⟨x, h⟩
  · rw [h]; exact Nat.le_succ _
  · have := List.length_filter_le (fun x : Nat × L2Line => x.1 != line) s.l2
    rw [h, List.length_cons]
    omega

theorem State.OneLine.of_l2 {s t u : State} {line : Nat} (h : s.OneLine t line) (hl : u.l2 = t.l2) : s.OneLine u line :=
  h.imp hl.trans fun ⟨x, hx⟩ => ⟨x, hl.trans hx⟩

/-- A store to a line makes that line resident at most. -/
theorem State.homeWrite_oneLine {s t : State} {line : Nat} (hf : s.LineFit line) {own : Option Nat} {bs : List (Nat × Byte)}
    (h : s.homeWrite line own bs = .ok t) : s.OneLine t line := by
  have resident {r s : State} (hr : r.OneLine s line) (hlost : s.isLost line = false) {l : L2Line} (h0 : s.l2At line = some l) (hi : l.inj = .none)
      (h : s.homeWrite line own bs = .ok t) : r.OneLine t line := by
    have hclean : r.OneLine (s.clean line).2 line := by
      rw [State.clean_eq h0 hi]
      dsimp only
      split
      · exact State.OneLine.setL2 (hr.of_l2 (State.putLine_l2 s line l)) _
      · exact hr
    unfold State.homeWrite at h
    rw [hlost, if_neg Bool.false_ne_true] at h
    dsimp only at h
    rw [h0] at h
    dsimp only at h
    rw [h0] at h
    dsimp only at h
    have hpart : r.OneLine (if l.inj == .tague || (l.dirty && !(l.nc == own.isNone && l.owner == own.getD 0)) then s.clean line
        else (false, s)).2 line := by
      split
      · exact hclean
      · exact hr
    generalize (if l.inj == .tague || (l.dirty && !(l.nc == own.isNone && l.owner == own.getD 0)) then s.clean line else (false, s)) = q
      at h hpart
    obtain ⟨b, u⟩ := q
    cases b with
    | true => exact absurd h nofun
    | false =>
      rw [if_neg Bool.false_ne_true] at h
      dsimp only at h hpart
      split at h
      · rw [← Except.ok.inj h]
        exact hpart
      · rw [← Except.ok.inj h]
        exact hpart.setL2 _
  cases hl : s.l2At line with
  | some l => exact resident (.inl rfl) hf.notLost hl (hf.noError l hl) h
  | none =>
    rw [State.homeWrite_absent own hf.notLost hl hf.room] at h
    refine resident ?_ (((State.fill_kept hl hf.room own).isLost line).trans hf.notLost)
      ((State.fill_l2At hl hf.room own line).trans (if_pos rfl)) rfl h
    rw [State.fill_eq hl hf.room]
    refine State.OneLine.setL2 (.inl ?_) _
    split <;> rfl

end Sys2Proof.Machine
end
section
/-! SUPPORT. The runs of a vector store (R190, R246). -/

namespace Sys2Proof.Machine

open Statements

/-! ## A run stored -/

/-- Whether a run can be stored: it has bytes, its offsets lie in one line, which is a line of tile space, or one of HBM that is not lost and has no error. -/
structure State.RunFits (s : State) (r : Run) : Prop where
  nonempty : r.bytes ≠ []
  offsets : ∀ b ∈ r.bytes, b.1 < 64
  place : (∃ t, r.spot = .tile t) ∨ ∃ line, r.spot = .mem (.home (64 * line)) ∧ 64 * line < 2 ^ 51 ∧ s.isLost line = false ∧
    ∀ l, s.l2At line = some l → l.inj = .none

/-- The bytes that a run puts in home memory. -/
def Run.homeBytes (r : Run) : List (Nat × Byte) :=
  match r.spot with | .mem (.home pa) => r.bytes.map fun b => (pa + b.1, b.2) | .mem (.host _) => [] | .mem (.remote _ _) => [] | .tile _ => []

/-- The bytes that a run puts in tile space. -/
def Run.tileBytes (r : Run) : List (Nat × Byte) :=
  match r.spot with | .tile t => r.bytes.map fun b => (t + b.1, b.2) | .mem _ => []

theorem State.StoreKept.runFits {core : Nat} {s t : State} (h : s.StoreKept core t) {r : Run} (hr : s.RunFits r) : t.RunFits r := by
  obtain ⟨h0, h1, h2⟩ := hr
  refine ⟨h0, h1, h2.imp id ?_⟩
  rintro ⟨line, hs, hl, hlost, hi⟩
  exact ⟨line, hs, hl, (h.lost line).trans hlost, h.sound line hi⟩

/-- What steps that change no byte before and after a write make of it. -/
theorem State.Wrote.around {core : Nat} {s s1 s2 t : State} {h w : List (Nat × Byte)} (hc : s.cur = .stream core .X) (h1 : s.StoreKept core s1)
    (m1 : memSame s s1) (hw : s1.Wrote s2 h w) (h2 : s1.StoreKept core s2) (m2 : memSame s2 t) : s.Wrote t h w := by
  have hx := (State.Wrote.of_same m1).trans hw h1.addr (h1.curCl hc)
  have hy := hx.trans (.of_same m2) (h1.trans h2).addr ((h1.trans h2).curCl hc)
  rwa [List.append_nil, List.append_nil, List.nil_append, List.nil_append] at hy

/-- Memory is the same where HBM, its lines, the partitions' windows, host memory and the clusters' stores are. -/
theorem memSame_stores {s t : State} (h1 : t.hbm = s.hbm := by rfl) (h2 : t.l2 = s.l2 := by rfl) (h3 : t.parts = s.parts := by rfl)
    (h4 : t.host = s.host := by rfl) (h5 : ∀ c, (t.cluster c).store = (s.cluster c).store) : memSame s t := by
  have h : memSame s { t with clusters := s.clusters } := memSame_fields h1 h2 h3 h4 rfl
  exact ⟨h.1, h.2.1, fun c a => by rw [h5]⟩

theorem State.journalAdd_unmarked {s : State} (hrem : s.me.remote = []) (tile : Bool) (line : Nat) (old : List (Nat × Byte)) :
    s.journalAdd s.curCore s.curSt tile line old = .ok s := by
  have h : (s.strm s.curCore s.curSt).remote = [] := hrem
  unfold State.journalAdd
  dsimp only
  rw [h]
  rfl

theorem State.retireWindow_kept {core : Nat} (u : State) (n : Nat) :
    u.StoreKept core (u.retireWindow n) ∧ memSame u (u.retireWindow n) ∧ (u.retireWindow n).l2 = u.l2 := by
  have hstore (c : Nat) : ((u.retireWindow n).cluster c).store = (u.cluster c).store := State.cluster_updCluster_of Cluster.store rfl c
  have hstrm : (u.retireWindow n).strm core .X = u.strm core .X :=
    State.updCore_strm_of (s := u) (n := n) (f := fun c => { c with window := [], winHold := false }) (fun j => by cases j <;> rfl) core .X
  refine ⟨⟨⟨rfl, by rw [hstrm]; exact .refl _, ?_⟩, ?_, fun _ => rfl, fun _ => rfl, fun _ h => h, fun h c => by rw [hstore]; exact h c⟩,
    memSame_stores (h5 := hstore), rfl⟩
  · exact State.core_updCore_of Core.dq (s := u) (n := n) (f := fun c => { c with window := [], winHold := false }) rfl core
  · exact State.core_updCore_of Core.v (s := u) (n := n) (f := fun c => { c with window := [], winHold := false }) rfl core

/-- The windows that a store retires hold no byte of memory. -/
theorem State.retireWindows_kept {core : Nat} (s : State) (cl lo hi : Nat) :
    s.StoreKept core (s.retireWindows cl lo hi) ∧ memSame s (s.retireWindows cl lo hi) ∧ (s.retireWindows cl lo hi).l2 = s.l2 := by
  unfold State.retireWindows
  refine List.foldlRecOn (motive := fun t => s.StoreKept core t ∧ memSame s t ∧ t.l2 = s.l2) _ _ ⟨.refl s, memSame_refl s, rfl⟩
    fun t ht n _ => ?_
  split
  · obtain ⟨h1, h2, h3⟩ := State.retireWindow_kept (core := core) t (4 * cl + n)
    exact ⟨ht.1.trans h1, memSame_trans ht.2.1 h2, h3.trans ht.2.2⟩
  · exact ht

section

variable {core : Nat} {s : State} (hc : s.cur = .stream core .X) (hrem : s.me.remote = []) {c : Cls} (hs : c.isStrong = false)

include hc hrem hs

/-- A run stored in tile space. -/
theorem State.tileRun_stored (hcore : core < 512) (hwf : ∀ n, Memory.wf (s.cluster n).store = true) (t : Nat) (bs : List (Nat × Byte)) :
    ∃ u, s.tileRun t c bs = .ok u ∧ s.StoreKept core u ∧ s.Wrote u [] (bs.map fun b => (t + b.1, b.2)) ∧ u.l2 = s.l2 := by
  cases bs with
  | nil => exact ⟨s, rfl, .refl s, .of_same (memSame_refl s), rfl⟩
  | cons b bs =>
    generalize hbs : b :: bs = w
    have hcl : s.curCl < 128 := by rw [State.curCl, State.curCore_stream hc]; exact clusterOf_lt hcore
    obtain ⟨k1, m1, l1⟩ := State.noteStore_kept (core := core) s (tileKey s.curCl t)
      (w.map fun b => (b.1, memByte (s.cluster s.curCl).store (t + b.1))) c
    generalize hs1 : s.noteStore (tileKey s.curCl t) (w.map fun b => (b.1, memByte (s.cluster s.curCl).store (t + b.1))) c = s1 at k1 m1 l1
    obtain ⟨k2, m2, l2⟩ := State.retireWindows_kept (core := core) s1 s.curCl (t + w.foldl (fun m b => min m b.1) 63)
      (t + w.foldl (fun m b => max m b.1) 0)
    generalize hs2 : s1.retireWindows s.curCl (t + w.foldl (fun m b => min m b.1) 63) (t + w.foldl (fun m b => max m b.1) 0) = s2 at k2 m2 l2
    have hk := k1.trans k2
    have hst (n : Nat) : ((s2.updCluster s.curCl fun x => { x with store := w.foldl (fun m b => memPut m (t + b.1) b.2) x.store }).cluster n).store =
        if n = s.curCl then w.foldl (fun m b => memPut m (t + b.1) b.2) (s2.cluster n).store else (s2.cluster n).store := by
      rw [State.cluster_updCluster]
      by_cases hn : n = s.curCl
      · rw [if_pos ⟨hn, hcl⟩, if_pos hn, hn]
      · rw [if_neg fun h => hn h.1, if_neg hn]
    have k3 : s2.StoreKept core (s2.updCluster s.curCl fun x => { x with store := w.foldl (fun m b => memPut m (t + b.1) b.2) x.store }) := by
      refine ⟨.of_cores, rfl, fun _ => rfl, fun _ => rfl, fun _ h => h, fun h n => ?_⟩
      rw [hst]
      split
      · exact foldl_memPut_wf (h n)
      · exact h n
    have w3 : s2.Wrote (s2.updCluster s.curCl fun x => { x with store := w.foldl (fun m b => memPut m (t + b.1) b.2) x.store }) []
        (w.map fun b => (t + b.1, b.2)) := by
      refine ⟨fun _ _ => rfl, fun n a => ?_, fun _ => rfl⟩
      rw [hst, hk.curCl hc]
      split
      · exact memByte_foldl_memPut t a w (hk.wf hwf n)
      · rfl
    generalize hs3 : s2.updCluster s.curCl (fun x => { x with store := w.foldl (fun m b => memPut m (t + b.1) b.2) x.store }) = s3 at k3 w3
    have l3 : s3.l2 = s2.l2 := by rw [← hs3]; rfl
    obtain ⟨k4, m4, l4⟩ := State.writeOrder_kept (core := core) s3 (tileKey s.curCl (t + w.foldl (fun m b => min m b.1) 63))
      (w.foldl (fun m b => max m b.1) 0 + 1 - w.foldl (fun m b => min m b.1) 63) hs
    refine ⟨_, ?_, (hk.trans k3).trans k4, w3.around hc hk (memSame_trans m1 m2) k3 m4, l4.trans (l3.trans (l2.trans l1))⟩
    rw [← hbs]
    unfold State.tileRun
    dsimp only
    rw [hbs, State.journalAdd_unmarked hrem]
    dsimp only
    rw [hs1, hs2, hs3]

/-- A run stored in a home line. -/
theorem State.writeLoc_stored {line : Nat} (hline : 64 * line < 2 ^ 51) (hlost : s.isLost line = false)
    (hi : ∀ l, s.l2At line = some l → l.inj = .none) (hroom : s.l2.length < 16384) {bs : List (Nat × Byte)} (hne : bs ≠ [])
    (hb : ∀ b ∈ bs, b.1 < 64) :
    ∃ u, s.writeLoc (.home (64 * line)) bs c false = .ok u ∧ s.StoreKept core u ∧ s.Wrote u (bs.map fun b => (64 * line + b.1, b.2)) [] ∧
      u.l2.length ≤ s.l2.length + 1 := by
  have hdiv : 64 * line / 64 = line := Nat.mul_div_cancel_left line (by decide)
  obtain ⟨k1, m1, l1⟩ := State.noteStore_kept (core := core) s (64 * line) (oldBytes (s.lineData line) bs) c
  generalize hs1 : s.noteStore (64 * line) (oldBytes (s.lineData line) bs) c = s1 at k1 m1 l1
  have hf : s1.LineFit line := ⟨(k1.lost line).trans hlost, hasRoom_of (by rw [l1]; exact hroom) line, k1.sound line hi⟩
  obtain ⟨s2, hw, hk, hbut, hin, ⟨l, hat, hli⟩, hoth⟩ := State.homeWrite_fit hf s.ownTag hline bs
  have hlen := (State.homeWrite_oneLine hf hw).length
  have k2 : s1.StoreKept core s2 := by
    refine .of_home hk fun m hm l' hl' => ?_
    by_cases h : m = line
    · rw [h, hat] at hl'
      rw [← Option.some.inj hl']
      exact hli
    · rw [hoth m h] at hl'
      exact hm l' hl'
  have w2 : s1.Wrote s2 (bs.map fun b => (64 * line + b.1, b.2)) [] := by
    refine ⟨fun a ha => ?_, fun n a => ?_, fun a => by rw [hk.host]⟩
    · by_cases h : a / 64 = line
      · have hae : a = 64 * line + a % 64 := by rw [← h]; exact (Nat.div_add_mod a 64).symm
        rw [hin a h, lineByte_lineSets_putAll _ _ _ hb, ← h, State.lineByte_lineData, h]
        conv_rhs => rw [hae]
        rw [putAll_shift, ← hae]
      · have hap : ∀ x ∈ bs.map fun b => (64 * line + b.1, b.2), x.1 ≠ a := by
          intro x hx e
          obtain ⟨b, hm, rfl⟩ := List.mem_map.mp hx
          have := hb b hm
          dsimp only at e
          omega
        rw [putAll_apart hap]
        by_cases hlow : a < 2 ^ 51
        · exact hbut a h (.inl hlow)
        · cases bs with
          | nil => exact absurd rfl hne
          | cons b bs =>
            refine hbut a h (.inr ?_)
            have h1 := ha.resolve_left hlow (64 * line + b.1, b.2) (List.mem_map_of_mem List.mem_cons_self)
            have h2 := hb b List.mem_cons_self
            dsimp only at h1
            omega
    · rw [hk.cluster]
      split <;> rfl
  obtain ⟨k3, m3, l3⟩ := State.writeOrder_kept (core := core) s2 (64 * line + bs.foldl (fun m b => min m b.1) 63)
    (bs.foldl (fun m b => max m b.1) 0 + 1 - bs.foldl (fun m b => min m b.1) 63) hs
  refine ⟨_, ?_, (k1.trans k2).trans k3, w2.around hc k1 m1 k2 m3, by rw [l3, ← l1]; exact hlen⟩
  unfold State.writeLoc
  dsimp only
  rw [hdiv, State.onStation_stream hc, if_neg Bool.false_ne_true, State.journalAdd_unmarked hrem]
  dsimp only
  rw [hs1, hw]

end

/-! ## Runs stored in order -/

/-- Runs that can be stored, stored in their order. -/
theorem State.vecRuns_stored {core : Nat} (hcore : core < 512) {c : Cls} (hs : c.isStrong = false) (gth : Bool) : ∀ {runs : List Run} {s : State},
    s.cur = .stream core .X → s.me.remote = [] → (∀ n, Memory.wf (s.cluster n).store = true) → (∀ r ∈ runs, s.RunFits r) →
    s.l2.length + runs.length ≤ 16384 → ∃ u, s.vecRuns gth c runs = .ok u ∧ s.StoreKept core u ∧
      s.Wrote u (runs.flatMap Run.homeBytes) (runs.flatMap Run.tileBytes)
  | [], s, _, _, _, _, _ => ⟨s, rfl, .refl s, .of_same (memSame_refl s)⟩
  | r :: runs, s, hc, hrem, hwf, hfit, hroom => by
    rw [List.forall_mem_cons] at hfit
    rw [List.length_cons] at hroom
    obtain ⟨hr, hfit⟩ := hfit
    obtain ⟨s1, h1, k1, w1, hlen⟩ : ∃ s1, s.vecRuns gth c (r :: runs) =
          (s1.updMe fun t => { t with vstPos := t.vstPos + 1 }).vecRuns gth c runs ∧ s.StoreKept core s1 ∧
        s.Wrote s1 r.homeBytes r.tileBytes ∧ s1.l2.length ≤ s.l2.length + 1 := by
      obtain ⟨hne, hoff, ⟨t, hspot⟩ | ⟨line, hspot, hline, hlost, hi⟩⟩ := hr
      · obtain ⟨s1, h1, k1, w1, l1⟩ := State.tileRun_stored hc hrem hs hcore hwf t r.bytes
        refine ⟨s1, ?_, k1, ?_, by rw [l1]; exact Nat.le_succ _⟩
        · rw [State.vecRuns, hspot]
          dsimp only
          rw [h1]
          rfl
        · rw [Run.homeBytes, Run.tileBytes, hspot]
          exact w1
      · obtain ⟨s1, h1, k1, w1, l1⟩ := State.writeLoc_stored hc hrem hs hline hlost hi (by omega) hne hoff
        refine ⟨s1, ?_, k1, ?_, l1⟩
        · rw [State.vecRuns, hspot]
          dsimp only
          rw [h1]
          rfl
        · rw [Run.homeBytes, Run.tileBytes, hspot]
          exact w1
    have hc1 : s1.cur = .stream core .X := k1.word.cur.trans hc
    have k2 : s1.StoreKept core (s1.updMe fun t => { t with vstPos := t.vstPos + 1 }) := by
      rw [State.updMe_stream hc1]
      exact .of_updStrm ⟨_, _, _, _, _, rfl⟩
    have m2 : memSame s1 (s1.updMe fun t => { t with vstPos := t.vstPos + 1 }) := memSame_fields
    have l2 : (s1.updMe fun t => { t with vstPos := t.vstPos + 1 }).l2 = s1.l2 := rfl
    generalize (s1.updMe fun t => { t with vstPos := t.vstPos + 1 }) = s2 at h1 k2 m2 l2
    have k := k1.trans k2
    have hc2 : s2.cur = .stream core .X := k.word.cur.trans hc
    obtain ⟨u, hu, ku, wu⟩ := State.vecRuns_stored hcore hs gth hc2 ((k.word.remote hc).trans hrem) (k.wf hwf) (fun r hm => k.runFits (hfit r hm)) (by rw [l2]; omega)
    have w := State.Wrote.around hc (.refl s) (memSame_refl s) w1 k1 m2
    exact ⟨u, h1.trans hu, k.trans ku, w.trans wu k.addr (k.curCl hc)⟩

/-! ## The runs of the elements (R246) -/

/-- The run of one element. -/
def elementRun (p : (Elt × Spot) × List Byte) : Run :=
  ⟨p.1.1.y &&& ~~~63, p.1.2.lineOf, p.2.zipIdx.map fun b => (addr56 p.1.1.y % 64 + b.2, b.1)⟩

/-- A run with the bytes of another one after its own. -/
def Run.join (r q : Run) : Run := { r with bytes := r.bytes ++ q.bytes }

/-- Runs merged or not: what stands of every element's run, and of two joined when of both, stands of all. -/
theorem runsOf_all {P : Run → Prop} (hj : ∀ r q, q.spot = r.spot → P r → P q → P (r.join q)) {merge : Bool} :
    ∀ {l : List ((Elt × Spot) × List Byte)}, (∀ p ∈ l, P (elementRun p)) → ∀ r ∈ runsOf merge l, P r
  | [], _ => nofun
  | p :: l, h => by
    rw [List.forall_mem_cons] at h
    obtain ⟨hp, h⟩ := h
    have ih := runsOf_all hj (merge := merge) h
    obtain ⟨x, bs⟩ := p
    rw [runsOf]
    dsimp only
    split
    · rw [List.forall_mem_singleton]
      exact hp
    · next q qs hq =>
      rw [hq, List.forall_mem_cons] at ih
      split
      · next hm => exact List.forall_mem_cons.mpr ⟨hj _ q hm.2.2.1 hp ih.1, ih.2⟩
      · exact List.forall_mem_cons.mpr ⟨hp, List.forall_mem_cons.mpr ih⟩

/-- What the runs hold in order is what the elements hold in order. -/
theorem runsOf_flatMap {f : Run → List (Nat × Byte)} (hj : ∀ r q, q.spot = r.spot → f (r.join q) = f r ++ f q) (merge : Bool) :
    ∀ l : List ((Elt × Spot) × List Byte), (runsOf merge l).flatMap f = l.flatMap fun p => f (elementRun p)
  | [] => rfl
  | p :: l => by
    have ih := runsOf_flatMap hj merge l
    obtain ⟨x, bs⟩ := p
    rw [List.flatMap_cons, ← ih, runsOf]
    dsimp only
    split
    · next h =>
      rw [h]
      rfl
    · next q qs hq =>
      rw [hq]
      split
      · next hm =>
        rw [List.flatMap_cons, List.flatMap_cons, ← List.append_assoc, ← hj _ q hm.2.2.1]
        rfl
      · rfl

theorem runsOf_length (merge : Bool) : ∀ l : List ((Elt × Spot) × List Byte), (runsOf merge l).length ≤ l.length
  | [] => Nat.le_refl _
  | (x, bs) :: l => by
    have ih := runsOf_length merge l
    rw [runsOf]
    dsimp only
    split
    · exact Nat.succ_le_succ (Nat.zero_le _)
    · next q qs hq =>
      rw [hq] at ih
      split
      · rw [List.length_cons, List.length_cons] at *
        omega
      · rw [List.length_cons, List.length_cons, List.length_cons] at *
        omega

theorem Run.homeBytes_join {r q : Run} (h : q.spot = r.spot) : (r.join q).homeBytes = r.homeBytes ++ q.homeBytes := by
  unfold Run.homeBytes
  rw [h]
  change (match r.spot with | .mem (.home pa) => _ | .mem (.host _) => _ | .mem (.remote _ _) => _ | .tile _ => _) = _
  rcases r.spot with t | (pa | ha | ⟨d, o⟩)
  · rfl
  · exact List.map_append
  · rfl
  · rfl

theorem Run.tileBytes_join {r q : Run} (h : q.spot = r.spot) : (r.join q).tileBytes = r.tileBytes ++ q.tileBytes := by
  unfold Run.tileBytes
  rw [h]
  change (match r.spot with | .tile t => _ | .mem _ => _) = _
  rcases r.spot with t | l
  · exact List.map_append
  · rfl

theorem State.runFits_join {s : State} {r q : Run} (hr : s.RunFits r) (hq : s.RunFits q) : s.RunFits (r.join q) := by
  refine ⟨fun h => hr.nonempty (List.append_eq_nil_iff.mp h).1, fun b hb => ?_, hr.place⟩
  exact (List.mem_append.mp hb).elim (hr.offsets b) (hq.offsets b)

end Sys2Proof.Machine
end
section
/-! SUPPORT. VST and VSCAT as words (R188 to R191). -/

namespace Sys2Proof.Machine

open Host (Outcome)
open Statements

/-! ## The bytes of the stored elements -/

/-- The elements of a vector store with their places and bytes. -/
def storedElts (s : State) (pl : Nat → Nat) (addr : Nat → Word) (vd : VReg) (es : List Nat) : List ((Elt × Spot) × List Byte) :=
  es.map fun e => ((⟨addr e, 4⟩, spotOf pl (addr e)), leBytes 4 (velem (s.vreg vd) e).toNat)

/-- The four bytes of an element put from an address on. -/
def elemPuts (a : Nat) (v : Elem) : List (Nat × Byte) := (List.range 4).map fun i => (a + i, v.extractLsb' (8 * i) 8)

theorem leBytes_elem (v : Elem) : leBytes 4 v.toNat = (List.range 4).map fun i => v.extractLsb' (8 * i) 8 := by
  apply List.ext_getElem
  · rw [Tests.leBytes_length, List.length_map, List.length_range]
  · intro i h1 h2
    have hi : i < 4 := by rwa [List.length_map, List.length_range] at h2
    have h := getD_leBytes 4 v.toNat i hi
    rw [List.getD_eq_getElem _ _ h1] at h
    rw [h, List.getElem_map, List.getElem_range]
    apply BitVec.eq_of_toNat_eq
    rw [BitVec.extractLsb'_toNat, BitVec.toNat_ofNat, Nat.shiftRight_eq_div_pow]

theorem elementRun_bytes (k : Nat) (x : Elt × Spot) (v : Elem) :
    (elementRun (x, leBytes 4 v.toNat)).bytes.map (fun b => (k + b.1, b.2)) = elemPuts (k + addr56 x.1.y % 64) v := by
  rw [elementRun, leBytes_elem]
  change [_, _, _, _] = [_, _, _, _]
  simp only [Nat.add_assoc]

theorem lineAt_div (pl : Nat → Nat) (a : Nat) : lineAt pl a / 64 = pl (a / 64) := by unfold lineAt; omega

/-- What an element of a vector store puts in home memory. -/
theorem elementRun_home {pl : Nat → Nat} {y : Word} (ht : y.extractLsb' 56 8 = 0#8) (v : Elem) :
    (elementRun ((⟨y, 4⟩, spotOf pl y), leBytes 4 v.toNat)).homeBytes = elemPuts (lineAt pl (addr56 y)) v ∧
      (elementRun ((⟨y, 4⟩, spotOf pl y), leBytes 4 v.toNat)).tileBytes = [] := by
  have hspot : (elementRun ((⟨y, 4⟩, spotOf pl y), leBytes 4 v.toNat)).spot = .mem (.home (lineAt pl (addr56 y) / 64 * 64)) := by
    rw [elementRun, spotOf_home ht]
    rfl
  rw [Run.homeBytes, Run.tileBytes, hspot]
  refine ⟨(elementRun_bytes _ _ v).trans ?_, rfl⟩
  rw [lineAt_div, lineAt, Nat.mul_comm]

/-- What an element of a vector store puts in tile space. -/
theorem elementRun_tile {pl : Nat → Nat} {y : Word} (ht : y.extractLsb' 56 8 = 1#8) (v : Elem) :
    (elementRun ((⟨y, 4⟩, spotOf pl y), leBytes 4 v.toNat)).homeBytes = [] ∧
      (elementRun ((⟨y, 4⟩, spotOf pl y), leBytes 4 v.toNat)).tileBytes = elemPuts (addr56 y) v := by
  have hspot : (elementRun ((⟨y, 4⟩, spotOf pl y), leBytes 4 v.toNat)).spot = .tile (addr56 y / 64 * 64) := by
    rw [elementRun, spotOf_tile ht]
    rfl
  rw [Run.homeBytes, Run.tileBytes, hspot]
  refine ⟨rfl, (elementRun_bytes _ _ v).trans ?_⟩
  dsimp only
  rw [Nat.mul_comm, Nat.div_add_mod]

theorem mem_elemPuts {a : Nat} {v : Elem} {x : Nat × Byte} (h : x ∈ elemPuts a v) : ∃ i < 4, x.1 = a + i := by
  obtain ⟨i, hi, rfl⟩ := List.mem_map.mp h
  exact ⟨i, List.mem_range.mp hi, rfl⟩

theorem putAll_elemPuts (a : Nat) (v : Elem) {i : Nat} (hi : i < 4) (b : Byte) : putAll (elemPuts a v) (a + i) b = v.extractLsb' (8 * i) 8 := by
  change putAll [(a + 0, _), (a + 1, _), (a + 2, _), (a + 3, _)] (a + i) b = _
  simp only [putAll, List.foldl_cons, List.foldl_nil, Nat.add_left_cancel_iff]
  obtain rfl | rfl | rfl | rfl : i = 0 ∨ i = 1 ∨ i = 2 ∨ i = 3 := by omega
  · rfl
  · rfl
  · rfl
  · rfl

/-! ## A vector store -/

/-- What the enabled elements put in home memory, in their order. -/
def elemHomePuts (s : State) (pl : Nat → Nat) (addr : Nat → Word) (vd : VReg) (es : List Nat) : List (Nat × Byte) :=
  (storedElts s pl addr vd es).flatMap fun p => (elementRun p).homeBytes

/-- What the enabled elements put in tile space, in their order. -/
def elemTilePuts (s : State) (pl : Nat → Nat) (addr : Nat → Word) (vd : VReg) (es : List Nat) : List (Nat × Byte) :=
  (storedElts s pl addr vd es).flatMap fun p => (elementRun p).tileBytes

theorem storeReady_home {s : State} : ∀ {l : List (Nat × Nat × Loc)}, (∀ z ∈ l, ∃ pa, z.2.2 = .home pa ∧ s.LineReady (pa / 64)) →
    s.storeReady l = .ok ()
  | [], _ => rfl
  | (_, _, loc) :: l, h => by
    rw [List.forall_mem_cons] at h
    obtain ⟨⟨pa, rfl, hp⟩, h⟩ := h
    rw [State.storeReady, hp.unpinned, hp.notLost, if_neg Bool.false_ne_true, if_neg Bool.false_ne_true, storeReady_home h]

theorem hbm_lt {pa : Nat} (h : placeOf pa = .hbm) : pa < hbmEnd := by
  by_contra hn
  unfold placeOf at h
  rw [if_neg (by exact hn)] at h
  split at h
  · exact absurd h nofun
  · split at h
    · exact absurd h nofun
    · split at h <;> exact absurd h nofun

section

variable {core : Nat} {s : State} (hc : s.cur = .stream core .X) {c : Cls} {pl : Nat → Nat} {addr : Nat → Word} {es : List Nat}
  (hw : ∀ e ∈ es, writable s c pl (addr e) 4)

include hw

/-- The home lines of elements that can be written. -/
theorem writable_lines : ∀ z ∈ homeLines (placedAt pl addr es), ∃ pa, z.2.2 = .home pa ∧ s.LineReady (pa / 64) ∧ unraced s pa c true := by
  intro z hz
  obtain ⟨e, he, ht, rfl⟩ := homeLines_placed hz
  obtain ⟨h, -⟩ | ⟨-, -, h⟩ := hw e he
  · exact absurd (spaceTag_of h.1 (by decide)) ht
  · obtain ⟨⟨-, hu, hn⟩, -⟩ := h 0 (by decide)
    exact ⟨_, rfl, State.lineReady_of hu, hn⟩

/-- The run of an element that can be written. -/
theorem writable_run (ha : ∀ e ∈ es, addr56 (addr e) % 4 = 0) (vd : VReg) : ∀ p ∈ storedElts s pl addr vd es, s.RunFits (elementRun p) := by
  intro p hp
  obtain ⟨e, he, rfl⟩ := List.mem_map.mp hp
  refine ⟨fun h => ?_, fun b hb => ?_, ?_⟩
  · rw [elementRun, leBytes_elem] at h
    exact absurd h nofun
  · rw [elementRun, leBytes_elem] at hb
    obtain ⟨q, hq, rfl⟩ := List.mem_map.mp hb
    have h1 := List.snd_lt_of_mem_zipIdx hq
    have h2 := ha e he
    rw [List.length_map, List.length_range] at h1
    dsimp only
    omega
  · obtain ⟨h, -⟩ | ⟨ht, -, h⟩ := hw e he
    · exact .inl ⟨addr56 (addr e) / 64 * 64, by rw [elementRun, spotOf_tile h.1]; rfl⟩
    · obtain ⟨⟨-, hu, -⟩, -⟩ := h 0 (by decide)
      have hready := State.lineReady_of hu
      refine .inr ⟨lineAt pl (addr56 (addr e)) / 64, ?_, ?_, hready.notLost, fun l hl => (hready.noError l hl).1⟩
      · rw [elementRun, spotOf_home ht, Nat.mul_comm]
        rfl
      · have hp := hbm_lt hu.1
        rw [← addr56_eq, Nat.add_zero] at hp
        unfold hbmEnd at hp
        omega

include hc

/-- The runs of elements that can be written, made ready. -/
theorem State.runsBegin_ready (hcol : s.collecting = false) (hrem : s.me.remote = []) (runs : List Run) :
    ∃ u, s.runsBegin c (placedAt pl addr es) runs = .ok (runs, u) ∧ State.RaceKept core s u := by
  have hl := writable_lines hw
  obtain ⟨u, hu, hk⟩ := State.raceAll_unraced hc (c := c) (store := true) (l := homeLines (placedAt pl addr es))
    fun z hz => (hl z hz).imp fun _ h => ⟨h.1, h.2.2⟩
  have hready := storeReady_home (s := s) fun z hz => (hl z hz).imp fun _ h => ⟨h.1, h.2.1⟩
  have hroom : s.runsRoom runs.length = true := by simp [State.runsRoom, hrem]
  refine ⟨u, ?_, hk⟩
  unfold State.runsBegin
  rw [hcol]
  dsimp only [Bool.false_eq_true, if_false]
  simp only [Bool.false_eq_true, if_false]
  rw [hready]
  dsimp only [bind, Except.bind]
  rw [hroom]
  simp only [Bool.not_true, Bool.false_eq_true, if_false, List.isEmpty_nil, if_true]
  rw [hu]

end

section

variable {core : Nat} {s : State} (hcore : core < 512) (hc : s.cur = .stream core .X) (hcol : s.collecting = false) (hrem : s.me.remote = [])
  (hpos : s.me.vstPos = 0) (hroom : roomForAll s) (hwf : s.Wf) {c : Cls} (hs : c.isStrong = false) {pl : Nat → Nat} {addr : Nat → Word} {m : MReg}
  (vd : VReg)

include hcore hc hcol hrem hpos hroom hwf hs

/-- A vector store whose elements can be written. -/
theorem State.vecStore_ready (gth : Bool) (hw : ∀ e ∈ enabledOf (s.mask m), writable s c pl (addr e) 4)
    (ha : ∀ e ∈ enabledOf (s.mask m), addr56 (addr e) % 4 = 0) :
    ∃ u, s.vecStore vd gth c (eltsAt (s.mask m) addr) = .ok u ∧ s.StoreKept core u ∧
      s.Wrote u (elemHomePuts s pl addr vd (enabledOf (s.mask m))) (elemTilePuts s pl addr vd (enabledOf (s.mask m))) := by
  generalize hes : enabledOf (s.mask m) = es at hw ha ⊢
  have hlen : es.length ≤ 1024 := by rw [← hes]; exact enabledOf_length _
  have hplace := State.eltsPlace_placed (s := s) (write := true) (pl := pl) (addr := addr) (es := es)
    fun e he => State.eltPlace_writable (hw e he)
  have hzip : (placedAt pl addr es).zip ((eltsAt (s.mask m) addr).map fun x => leBytes 4 (velem (s.vreg vd) x.1).toNat) =
      storedElts s pl addr vd es := by
    rw [eltsAt, hes, List.map_map, placedAt, storedElts, List.zip_map']
    rfl
  obtain ⟨s1, h1, k1⟩ := State.runsBegin_ready hc hw hcol hrem (runsOf true (storedElts s pl addr vd es))
  have hk1 : s.StoreKept core s1 := .of_race k1
  have hc1 : s1.cur = .stream core .X := k1.word.cur.trans hc
  have m1 : memSame s s1 := by rw [k1.eq]; exact memSame_fields
  have hl1 : s1.l2 = s.l2 := by rw [k1.eq]
  have hrl := runsOf_length true (storedElts s pl addr vd es)
  rw [show (storedElts s pl addr vd es).length = es.length from List.length_map _] at hrl
  unfold roomForAll at hroom
  obtain ⟨s2, h2, k2, w2⟩ := State.vecRuns_stored hcore hs gth (runs := runsOf true (storedElts s pl addr vd es)) hc1 ((k1.word.remote hc).trans hrem) (hk1.wf (fun _ => (State.cluster_wf hwf).1))
    (fun r hr => hk1.runFits (runsOf_all (fun _ _ _ => State.runFits_join) (writable_run hw ha vd) r hr)) (by rw [hl1]; omega)
  have hc2 : s2.cur = .stream core .X := k2.word.cur.trans hc1
  refine ⟨s2.vecEnd, ?_, ?_, ?_⟩
  · unfold State.vecStore
    rw [eltsAt_elts, hes, hplace]
    dsimp only [viaShadow, bind, Except.bind]
    rw [if_pos hpos, State.eltsRemote_placed]
    dsimp only
    rw [hzip, h1]
    dsimp only
    rw [h2]
  · rw [State.vecEnd, State.updMe_stream hc2]
    exact (hk1.trans k2).trans (.of_updStrm ⟨_, _, _, _, _, rfl⟩)
  · have hw := State.Wrote.around hc hk1 m1 w2 k2 (t := s2.vecEnd) memSame_fields
    rw [runsOf_flatMap (fun _ _ => Run.homeBytes_join), runsOf_flatMap (fun _ _ => Run.tileBytes_join)] at hw
    exact hw

end

end Sys2Proof.Machine
end
section
/-! SUPPORT. What memory holds after a vector store, and the statement O30 (R188 to R191). -/

namespace Sys2Proof.Machine

open Host (Outcome)
open Statements

/-! ## The bytes that the elements put -/

section

variable {s : State} {pl : Nat → Nat} {addr : Nat → Word} {vd : VReg} {es : List Nat}

theorem mem_elemHomePuts (htag : ∀ e ∈ es, (addr e).extractLsb' 56 8 = 0#8 ∨ (addr e).extractLsb' 56 8 = 1#8) {x : Nat × Byte}
    (hx : x ∈ elemHomePuts s pl addr vd es) :
    ∃ f ∈ es, (addr f).extractLsb' 56 8 = 0#8 ∧ ∃ i < 4, x.1 = lineAt pl (addr56 (addr f)) + i := by
  obtain ⟨p, hp, hx⟩ := List.mem_flatMap.mp hx
  obtain ⟨f, hf, rfl⟩ := List.mem_map.mp hp
  rcases htag f hf with h | h
  · rw [(elementRun_home h _).1] at hx
    exact ⟨f, hf, h, mem_elemPuts hx⟩
  · rw [(elementRun_tile h _).1] at hx
    exact absurd hx List.not_mem_nil

theorem mem_elemTilePuts (htag : ∀ e ∈ es, (addr e).extractLsb' 56 8 = 0#8 ∨ (addr e).extractLsb' 56 8 = 1#8) {x : Nat × Byte}
    (hx : x ∈ elemTilePuts s pl addr vd es) : ∃ f ∈ es, (addr f).extractLsb' 56 8 = 1#8 ∧ ∃ i < 4, x.1 = addr56 (addr f) + i := by
  obtain ⟨p, hp, hx⟩ := List.mem_flatMap.mp hx
  obtain ⟨f, hf, rfl⟩ := List.mem_map.mp hp
  rcases htag f hf with h | h
  · rw [(elementRun_home h _).2] at hx
    exact absurd hx List.not_mem_nil
  · rw [(elementRun_tile h _).2] at hx
    exact ⟨f, hf, h, mem_elemPuts hx⟩

/-- The bytes of elements, with those of one of them in their place. -/
theorem elemHomePuts_split (pre post : List Nat) (e : Nat) : elemHomePuts s pl addr vd (pre ++ e :: post) = elemHomePuts s pl addr vd pre ++
    ((elementRun ((⟨addr e, 4⟩, spotOf pl (addr e)), leBytes 4 (velem (s.vreg vd) e).toNat)).homeBytes ++ elemHomePuts s pl addr vd post) := by
  simp only [elemHomePuts, storedElts, List.map_append, List.map_cons, List.flatMap_append, List.flatMap_cons]

theorem elemTilePuts_split (pre post : List Nat) (e : Nat) : elemTilePuts s pl addr vd (pre ++ e :: post) = elemTilePuts s pl addr vd pre ++
    ((elementRun ((⟨addr e, 4⟩, spotOf pl (addr e)), leBytes 4 (velem (s.vreg vd) e).toNat)).tileBytes ++ elemTilePuts s pl addr vd post) := by
  simp only [elemTilePuts, storedElts, List.map_append, List.map_cons, List.flatMap_append, List.flatMap_cons]

end

theorem lineAt_aligned (pl : Nat → Nat) {a : Nat} (h : a % 4 = 0) : lineAt pl a % 4 = 0 := by unfold lineAt; omega

section

variable {s u : State} {pl : Nat → Nat} {addr : Nat → Word} {vd : VReg} {m : VMask}
  (hfit : ∀ e ∈ enabledOf m, OperandFits (addr e))
  (hw : s.Wrote u (elemHomePuts s pl addr vd (enabledOf m)) (elemTilePuts s pl addr vd (enabledOf m))) (hcl : u.curCl = s.curCl)

include hfit hw hcl

/-- An element that no later one overwrites stands at its address. -/
theorem stored_value {e : Nat} (he : e ∈ enabledOf m)
    (hlow : (addr e).extractLsb' 56 8 = 0#8 → lineAt pl (addr56 (addr e)) + 4 ≤ 2 ^ 51)
    (hlast : ∀ f ∈ enabledOf m, e < f → ¬sameSpot pl (addr e) (addr f)) {b : Nat} (hb : b < 4) :
    byteAt u pl (addr e) b = (velem (s.vreg vd) e).extractLsb' (8 * b) 8 := by
  obtain ⟨pre, post, hs, -, hpost⟩ := enabledOf_split he
  have htag : ∀ f ∈ post, (addr f).extractLsb' 56 8 = 0#8 ∨ (addr f).extractLsb' 56 8 = 1#8 := fun f hf => (hfit f (hpost f hf).2).1
  obtain ⟨ht, ha⟩ := hfit e he
  unfold sameSpot at hlast
  unfold byteAt
  rcases ht with ht | ht
  · have hne : ¬(addr e).extractLsb' 56 8 = 1#8 := by rw [ht]; decide
    simp only [if_neg hne] at hlast
    have hlater : ∀ x ∈ elemHomePuts s pl addr vd post, x.1 ≠ lineAt pl (addr56 (addr e)) + b := by
      intro x hx
      obtain ⟨f, hf, -, i, hi, hxi⟩ := mem_elemHomePuts htag hx
      have hspot : lineAt pl (addr56 (addr e)) ≠ lineAt pl (addr56 (addr f)) := hlast f (hpost f hf).2 (hpost f hf).1
      have h1 := lineAt_aligned pl ha
      have h2 := lineAt_aligned pl (hfit f (hpost f hf).2).2
      omega
    rw [if_neg hne, ← addr56_eq, lineAt_add pl ha hb, hw.homeBytes _ (.inl (by have := hlow ht; omega)), hs, elemHomePuts_split,
      (elementRun_home ht _).1, putAll_append, putAll_append, putAll_apart hlater, putAll_elemPuts _ _ hb]
  · simp only [if_pos ht] at hlast
    have hlater : ∀ x ∈ elemTilePuts s pl addr vd post, x.1 ≠ addr56 (addr e) + b := by
      intro x hx
      obtain ⟨f, hf, -, i, hi, hxi⟩ := mem_elemTilePuts htag hx
      have hspot : addr56 (addr e) ≠ addr56 (addr f) := fun h => hlast f (hpost f hf).2 (hpost f hf).1 (BitVec.eq_of_toNat_eq h)
      have h2 := (hfit f (hpost f hf).2).2
      omega
    rw [if_pos ht, tileAt, ← addr56_eq, hcl, hw.tileBytes, if_pos rfl, hs, elemTilePuts_split, (elementRun_tile ht _).2, putAll_append,
      putAll_append, putAll_apart hlater, putAll_elemPuts _ _ hb]

omit hcl in
/-- No other byte of memory differs. -/
theorem stored_only : storesOnly s u pl ((enabledOf m).map addr) 4 := by
  have htag : ∀ f ∈ enabledOf m, (addr f).extractLsb' 56 8 = 0#8 ∨ (addr f).extractLsb' 56 8 = 1#8 := fun f hf => (hfit f hf).1
  refine ⟨fun c a h => ?_, fun a h => ?_, hw.hostBytes⟩
  · rw [hw.tileBytes]
    split
    · next hc =>
      refine putAll_apart (fun x hx => ?_) _
      obtain ⟨f, hf, ht, i, hi, hxi⟩ := mem_elemTilePuts htag hx
      have := h hc _ (List.mem_map_of_mem hf) ht
      rw [← addr56_eq] at this
      omega
    · rfl
  · have hplace : ∀ x ∈ elemHomePuts s pl addr vd (enabledOf m), a ≠ x.1 ∧ (a < 2 ^ 51 ∨ s.hbmAddr a / 64 ≠ x.1 / 64) := by
      intro x hx
      obtain ⟨f, hf, ht, i, hi, hxi⟩ := mem_elemHomePuts htag hx
      have := h _ (List.mem_map_of_mem hf) ht i hi
      rwa [← addr56_eq, lineAt_add pl (hfit f hf).2 hi, ← hxi] at this
    rw [hw.homeBytes a, putAll_apart fun x hx => (hplace x hx).1.symm]
    by_cases hlow : a < 2 ^ 51
    · exact .inl hlow
    · exact .inr fun x hx => (hplace x hx).2.resolve_left hlow

end

/-! ## A word that performs a vector store -/

theorem writable_low {s : State} {c : Cls} {pl : Nat → Nat} {y : Word} (h : writable s c pl y 4) (ht : y.extractLsb' 56 8 = 0#8) :
    lineAt pl (addr56 y) + 4 ≤ 2 ^ 51 := by
  obtain ⟨h, -⟩ | ⟨-, -, h⟩ := h
  · rw [h.1] at ht
    exact absurd ht (by decide)
  · obtain ⟨⟨-, hu, -⟩, -⟩ := h 0 (by decide)
    have := hbm_lt hu.1
    rw [← addr56_eq, Nat.add_zero] at this
    unfold hbmEnd at this
    omega

section

variable {core : Nat} {s : State} (hcore : core < 512) (hc : s.cur = .stream core .X) (hcol : s.collecting = false) (hrem : s.me.remote = [])
  (hpos : s.me.vstPos = 0) (hroom : roomForAll s) (hwf : s.Wf) {c : Cls} (hs : c.isStrong = false) {pl : Nat → Nat} {addr : Nat → Word} {m : MReg}
  (vd : VReg)

include hcore hc hcol hrem hpos hroom hwf hs

theorem storesElements_of {i : Instr} {gth : Bool} {g : Guard} {srcs : List XReg} {vs : List Word} {s0 : State} (hb : s.begins g srcs [] vs s0)
    {k : List Word → Except Act State} (hi : exec i s = finish 1 (s.memBegin g srcs [] k))
    (hk : k vs = s.vecStore vd gth c (eltsAt (s.mask m) addr)) (hw : ∀ e ∈ enabledOf (s.mask m), writable s c pl (addr e) 4)
    (ha : ∀ e ∈ enabledOf (s.mask m), addr56 (addr e) % 4 = 0) : storesElements i s pl m vd addr := by
  obtain ⟨u, hu, hkept, hwrote⟩ := State.vecStore_ready hcore hc hcol hrem hpos hroom hwf hs vd gth hw ha
  obtain ⟨t, ht, hm, hregs, hcur, hv⟩ := vector_completes hcore hc hb (hk.trans hu) hkept.word
  have hcl : t.curCl = s.curCl := by unfold State.curCl State.curCore; rw [hcur]
  have hfit : ∀ e ∈ enabledOf (s.mask m), OperandFits (addr e) := fun e he => ⟨writable_tag (hw e he), ha e he⟩
  have hw2 : s.Wrote t _ _ := State.Wrote.around hc (.refl s) (memSame_refl s) hwrote hkept hm
  refine ⟨t, hi.trans ht, hregs, fun v => (hv v).trans (hkept.vreg hc v), fun e he hon hlast b hb => ?_, stored_only hfit hw2⟩
  have hmem : e ∈ enabledOf (s.mask m) := mem_enabledOf.mpr ⟨he, hon⟩
  refine stored_value hfit hw2 hcl hmem (writable_low (hw e hmem)) (fun f hf hlt => ?_) hb
  obtain ⟨hf, hfon⟩ := mem_enabledOf.mp hf
  exact hlast f hf hlt hfon

end

end Sys2Proof.Machine

namespace Sys2Proof.Proofs

open Machine Statements

section

variable {core : Nat} {s s0 : State} (hcore : core < 512) (hc : s.cur = .stream core .X) (hcol : s.collecting = false) (hrem : s.me.remote = [])
  (hpos : s.me.vstPos = 0) (hroom : roomForAll s) (hwf : s.Wf) {g : Guard} {vd : VReg} {a : XReg} {m : MReg} {weak : Bool} {pl : Nat → Nat}
  {x : Word} (hx : x.extractLsb' 56 8 = 0#8 ∨ x.extractLsb' 56 8 = 1#8)

include hcore hc hcol hrem hpos hroom hwf hx

theorem vst_stores {b : XReg} {y : Word} (hb : s.begins g [a, b] [] [x, y] s0) (hxa : x.toNat % 64 = 0) (hya : y.toNat % 64 = 0)
    (h : ∀ z ∈ spots s m (pitchAddr x y), writable s (if weak then .weak else .plain) pl z 4) :
    storesElements (.vst g vd a b m weak) s pl m vd (pitchAddr x y) := by
  have hw : ∀ e ∈ enabledOf (s.mask m), writable s (if weak then .weak else .plain) pl (pitchAddr x y e) 4 := fun e he =>
    h _ (List.mem_map_of_mem he)
  refine storesElements_of (gth := false) (k := fun vs => do
    s.pitchCheck (vs.getD 0 0) (vs.getD 1 0) (pitchElts (s.mask m) (vs.getD 0 0) (vs.getD 1 0))
    s.vecStore vd false (vecCls weak) (pitchElts (s.mask m) (vs.getD 0 0) (vs.getD 1 0))) hcore hc hcol hrem hpos hroom hwf
    (by cases weak <;> rfl) vd hb rfl ?_ hw fun e _ => pitchAddr_aligned hxa hya e
  simp only [List.getD_cons_zero, List.getD_cons_succ, pitchElts_eq]
  exact check_then (State.pitchCheck_passes (spaceTag_le hx) hxa hya fun e he => writable_fits (hw e he)) _

theorem vscat_stores {vb : VReg} (hb : s.begins g [a] [] [x] s0)
    (h : ∀ z ∈ spots s m fun e => past x ((velem (s.vreg vb) e).setWidth 56), writable s (.gather weak) pl z 4 ∧ z.toNat % 4 = 0) :
    storesElements (.vscat g vd a vb m weak) s pl m vd fun e => past x ((velem (s.vreg vb) e).setWidth 56) := by
  have hw : ∀ e ∈ enabledOf (s.mask m), writable s (.gather weak) pl (past x ((velem (s.vreg vb) e).setWidth 56)) 4 ∧
      addr56 (past x ((velem (s.vreg vb) e).setWidth 56)) % 4 = 0 := fun e he => by
    obtain ⟨h1, h2⟩ := h _ (List.mem_map_of_mem he)
    exact ⟨h1, (addr56_mod _ (by decide)).trans h2⟩
  refine storesElements_of (gth := true) (k := fun vs => do
    s.indexCheck (vs.getD 0 0) (indexElts (s.mask m) (vs.getD 0 0) (s.vreg vb))
    s.vecStore vd true (.gather weak) (indexElts (s.mask m) (vs.getD 0 0) (s.vreg vb))) hcore hc hcol hrem hpos hroom hwf rfl vd hb rfl ?_
    (fun e he => (hw e he).1) fun e he => (hw e he).2
  simp only [List.getD_cons_zero, indexElts_eq]
  exact check_then (State.indexCheck_passes (spaceTag_le hx) fun e he => ⟨writable_fits (hw e he).1, (hw e he).2⟩) _

end

/-- R188 to R191: the vector loads and stores that nothing stops. -/
theorem vectorMemoryRuns : vectorMemoryPart := by
  intro g vd a m weak s core pl hwf hcore hc hcol hrem _ hpos hroom
  exact ⟨fun b s0 x y hb hxa hya hx => ⟨vld_loads hcore hc hcol hrem hroom hx hb hxa hya,
      vst_stores hcore hc hcol hrem hpos hroom hwf hx hb hxa hya⟩,
    fun vb s0 x hb hx => ⟨vgath_loads hcore hc hcol hrem hroom hx hb, vscat_stores hcore hc hcol hrem hpos hroom hwf hx hb⟩⟩

/-- Settles O30: each element lies at its place; the lines of a load are made ready before any byte is read, and no read of it may miss
more than one made before it; a store's runs put the elements' bytes in memory in their order, and the last byte put at a place stands. -/
theorem vectorMemory : Obligations.VectorMemory := ⟨vectorMemoryRuns, vectorMemoryChecks⟩

end Sys2Proof.Proofs
end
